-- ==== Sys2Proof/Word.lean ====
section
/-! DEFINITION. The word types of the FX64 model: 32-bit registers (R4) and bytes.
Bit 0 is the least significant bit everywhere (R3). -/

namespace Sys2Proof

/-- A 32-bit register word (R4). -/
abbrev Word := BitVec 32

/-- A byte of a frame, of flash or of a scratchpad bank. -/
abbrev Byte := BitVec 8

end Sys2Proof
end

