-- ==== Sys2Proof/Syntax.lean ====
section
/-! DEFINITION. The commands of the FX64: one constructor per row of spec/opcode_table.json, in the table's order.
The table gives the rows no operands; an operand here is what the command brings from outside the modelled state:
the requester and the value of a software write, the bytes of a frame or of flash, a measured value, or a choice that
the manual leaves to the hardware. -/

namespace Sys2Proof

/-- The two requesters of register accesses (R366). -/
inductive Req where
  | host
  | mgmt
  deriving DecidableEq, Repr

/-- A clock loop of the data die (table Island loops): CPLL0 to CPLL11, or the loop of a port. -/
inductive Loop where
  | core (i : Fin 12)
  | port (p : Fin 64)
  deriving DecidableEq, Repr

/-- The registers of one synthesizer that SYN_CFG_WRITE reaches (R170, R178). -/
inductive SynReg where
  | cfg | n | sub | od | frame | offset | align | nt | ntSub
  deriving DecidableEq, Repr

/-- An IEEE 1149.1 instruction of the test port (R422). -/
inductive TapInstr where
  | bypass | idcode | samplePreload | extest | clamp | highz
  deriving DecidableEq, Repr

/-- A scan of the data register that the current instruction selects (R422): the levels that Capture-DR finds at the pins of
the boundary register, in its order, and the bits that then shift in at TDI, first to last. -/
structure TapScan where
  pins : Vector Bool 31
  tdi  : List Bool
  deriving DecidableEq, Repr

/-- One record of the image as the zone replay of R425 reads it: the section it stands in, and the record. -/
inductive ReplayRec where
  | write (sect : Nat) (addr : BitVec 32) (value : Word)
  | guarded (sect : Nat) (addr : BitVec 32) (value : Word)
  | eq (sect : Nat) (entry : List Byte)
  deriving DecidableEq, Repr

/-- Where a frame that the host or the management complex injects goes (R294): as an entry of OP 1 to 3 says it. -/
inductive InjectDest where
  | port (e : Fin 64)
  | ladle (i : Fin 16384)
  | lag (g : Fin 32)
  deriving DecidableEq, Repr

/-- A frame that the host or the management complex injects through the auxiliary port (R247, R294): its bytes without the
FCS, where it goes, its class, and whether it is latency-locked. -/
structure Injected where
  body : List Byte
  dest : InjectDest
  tc   : Fin 8
  ll   : Bool
  deriving DecidableEq, Repr

/-- One read attempt of a deep cell (R257): the CRC matched or it failed. -/
inductive CellRead where
  | good | bad
  deriving DecidableEq, Repr

/-- An ECC error: of one lookup copy of a Mould entry (R235), or of a Crucible cell (R248). -/
inductive EccFault where
  | single | uncorrectable
  deriving DecidableEq, Repr

/-- The line measurements with which a port stamps a received frame (R138): `tu` is the local TB0 time of the
reference unit's first bit, `skew` the lane's deskew delay (both in 2^-16 ns), `k` the line bits from there to the
message timestamp point. -/
structure RxStamp where
  lane : Fin 8
  tu   : Nat
  skew : Nat
  k    : Nat
  deriving DecidableEq, Repr

/-- The line facts with which a port stamps an event message that leaves (R139): `tu` is the TB0 time at which the first
bit of its reference unit enters the serialiser of the lane, `k` the line bits from there to the message timestamp
point. -/
structure TxStamp where
  lane : Fin 8
  tu   : Nat
  k    : Nat
  deriving DecidableEq, Repr

/-- The commands of the block: the rows of the table, in its order. -/
inductive Instr where
  | registerWrite (r : Req) (addr : BitVec 32) (bytes : Nat) (data : List Word)
  | ftimeCommit (r : Req) (addr : BitVec 32) (w0 : Word)
  | guardFirstWrite (r : Req) (addr : BitVec 32) (v : Word)
  | guardComplementWrite (r : Req) (addr : BitVec 32) (v : Word)
  | guardTimeout (r : Req)
  | sqcWriteBack (r : Req) (addr : BitVec 32) (v : Word)
  | apertureWrite (r : Req) (addr : BitVec 32) (v : Word)
  | aerrClr (r : Req) (v : Word)
  | zoneAccessTimeout (r : Req) (addr : BitVec 32) (z : Fin 8) (data : Option Word)
  | zoneCheckError (z : Fin 8)
  | zoneReset (r : Req) (zrst zreimg : BitVec 8)
  | zoneResetQuenched (z : Fin 8)
  | zoneResetDone (z : Fin 8)
  | zoneReimage (z : Fin 8) (recs : List ReplayRec)
  | vinKaRise
  | vinKaLoss
  | vinMainLoss
  | thermalTrip
  | dataDieStart (cool : Bool)
  | resetNAssert
  | resetNRelease
  | warmReset (r : Req)
  | timingReset (r : Req)
  | hostReset
  | fuseReadDone (ok : Bool) (bootSel : Fin 4) (refclk : Bool)
  | imageHeaderRead (sfdp0 sfdp1 header table : List Byte)
  | sectionLoad (payload reread : List Byte) (trim0 trim1 : List Byte)
  | regscriptWrite
  | regscriptGuarded
  | regscriptWait
  | regscriptWaitDone
  | tableChunk
  | firmwareStart
  | firmwareReady
  | firmwareReadyTimeout
  | hbmTrainingDone (ok : BitVec 4)
  | dataDieRelease
  | fallbackResetDone
  | bootGo (r : Req) (sel : BitVec 2)
  | govPowerSample (mw : Nat) (vmain vka : BitVec 10)
  | govLimitEntry
  | govLimitExit
  | govShedTick
  | govBelowCapTimeout
  | govRestoreTick
  | sleepEnter (r : Req)
  | sleepDrainDone
  | sleepEntryComplete
  | sleepWake (r : Req)
  | wakeTimeReached
  | wakeComplete (ready : BitVec 64)
  | lanePowerupDone (l : Fin 512)
  | laneSignalDetect (l : Fin 512)
  | laneSignalLoss (l : Fin 512)
  | laneCdrLock (l : Fin 512) (phase : BitVec 8) (training : Option Bool)
  | cdrAcqTimeout (l : Fin 512)
  | adaptConverged (l : Fin 512) (adapted : Vector Word 7) (txPrecode : Bool)
  | adaptTimeout (l : Fin 512)
  | laneCheckDone (l : Fin 512)
  | laneRecheckTimer (l : Fin 512)
  | laneCdrLoss (l : Fin 512)
  | blockLockAcquired (l : Fin 512) (headers : List (BitVec 2))
  | blockLockLoss (l : Fin 512) (headers : List (BitVec 2))
  | laneErrorLimit (l : Fin 512) (errors : Nat)
  | laneRetryTimer (l : Fin 512)
  | resumeLock (l : Fin 512) (phase : BitVec 8)
  | resumeTimeout (l : Fin 512)
  | retrain (r : Req) (l : Fin 512)
  | laneCtrlWrite (r : Req) (l : Fin 512) (v : Word)
  | laneEqTableWrite (r : Req) (l : Fin 512) (m : Fin 3) (w : Fin 7) (v : Word)
  | laneEqValidWrite (r : Req) (l : Fin 512) (v : Word)
  | laneTestWrite (r : Req) (l : Fin 512) (v : Word)
  | unretire (r : Req) (l : Fin 512)
  | clrTotal (r : Req) (l : Fin 512)
  | portCfgWrite (r : Req) (p : Fin 64) (v : Word)
  | portEnableWrite (r : Req) (p : Fin 64) (enable : Bool)
  | restart (r : Req) (p : Fin 64)
  | portLinkUp (p : Fin 64)
  | portLinkLoss (p : Fin 64)
  | quenchDone (p : Fin 64)
  | anComplete (p : Fin 64) (common : BitVec 16) (fec : BitVec 2)
  | anRestartTimer (p : Fin 64)
  | stepupPageRx (p : Fin 64) (blocks : List (BitVec 2 × List Byte))
  | stepupNoPartnerTimeout (p : Fin 64)
  | stepupSlowLinkOk (p : Fin 64)
  | stepupSlowTimeout (p : Fin 64)
  | stepupQualDone (p : Fin 64)
  | stepupFastLinkOk (p : Fin 64)
  | stepupFastTimeout (p : Fin 64)
  | stepupHoldRetry (p : Fin 64)
  | trunkMarkerTx (p : Fin 64)
  | trunkMarkerRx (p : Fin 64) (lane : Fin 8) (block : Nat) (sync0 : BitVec 2) (bytes : List Byte) (arrival : Nat)
  | trunkBlockTx (p : Fin 64)
  | trunkBlockRx (p : Fin 64) (bytes : List Byte)
  | trunkHelloTx (p : Fin 64)
  | trunkHelloRx (p : Fin 64) (bytes : List Byte)
  | trunkAlignTimeout (p : Fin 64)
  | trunkHelloTimeout (p : Fin 64)
  | trunkConflictRetry (p : Fin 64)
  | pfcFrameRx (p : Fin 64) (vector : BitVec 8) (quanta : Vector (BitVec 16) 8)
  | pfcPauseExpiry (p : Fin 64) (c : Fin 8)
  | macControlRx (p : Fin 64) (opcode : BitVec 16)
  | sidebandScan (prsN intN : BitVec 64)
  | moduleDatapathActivated (p : Fin 64)
  | tbAdvance (periods : Nat)
  | tbTimeRead (r : Req) (n : Fin 8)
  | latch (r : Req) (mask : Word)
  | arm (r : Req) (mask : BitVec 8)
  | tbSetStep (r : Req) (n : Fin 8) (w0 : Word)
  | tb0StepApply
  | tbSrcWrite (r : Req) (n : Fin 8) (v : Word)
  | ptpSyncSample (p : Fin 64) (sync follow : List Byte) (st : RxStamp)
  | ppsEdgeSample (k : Fin 4) (falling : Bool)
  | freqEstimate (n : Fin 8) (ppt : Int)
  | tbHoldTimeout (n : Fin 8)
  | ptpSyncTx (p : Fin 64) (st : TxStamp)
  | ptpDelayReqTx (p : Fin 64) (st : TxStamp)
  | ptpDelayReqRx (p : Fin 64) (message : List Byte) (st : RxStamp)
  | ptpDelayRespRx (p : Fin 64) (message : List Byte)
  | ptpMessageDiscard (p : Fin 64) (message : List Byte)
  | ptpGeneralRx (p : Fin 64) (message : List Byte)
  | bmcaSelect (port : Option (Fin 64)) (states : List (Fin 64 × Fin 10)) (steps : Nat)
  | portPhaseMeasure (p : Fin 64) (phase : BitVec 24) (ppt : Int)
  | xoLoss
  | xoRecover
  | refInactive (k : Fin 6)
  | refFreqMeasure (k : Fin 6) (ppt : Int)
  | refQualDone (k : Fin 6)
  | suspClr (r : Req) (v : Word)
  | refCfgWrite (r : Req) (k : Fin 6) (v : Word)
  | refSwitchAcquired
  | refWtrExpiry
  | refSelWrite (r : Req) (v : Word)
  | synCfgWrite (r : Req) (k : Fin 8) (reg : SynReg) (v : Word)
  | synOutputEnableApply (k : Fin 8)
  | synLockLost (k : Fin 8)
  | synRelocked (k : Fin 8)
  | synRelockTimeout (k : Fin 8)
  | synRelockRetry (k : Fin 8)
  | synRampGo (r : Req) (k : Fin 8) (atTime : Bool)
  | synRampAt (k : Fin 8)
  | synRampSegmentEnd (k : Fin 8)
  | synRampStop (r : Req) (k : Fin 8)
  | synAlignEdge (k : Fin 8) (falling : Bool) (late : Fin 2000)
  | synAlignSlewDone (k : Fin 8)
  | islandLoopLockLoss (i : Loop)
  | islandLoopRelock (i : Loop)
  | islandLoopRelockTimeout (i : Loop)
  | lolFlagClear (p : Fin 64)
  | plsArm (r : Req) (mask : Word)
  | plsStop (r : Req) (mask : Word)
  | plsDisable (r : Req) (k : Fin 32) (v : Word)
  | plsRisingEdge (k : Fin 32)
  | plsFallingEdge (k : Fin 32)
  | plsExtRequest (k : Fin 32) (fire : Nat)
  | plsAlignEdge (k : Fin 32) (falling : Bool) (late : Fin 2000)
  | plsTrimInstall (k : Fin 32)
  | tdcArm (r : Req) (mask : BitVec 16)
  | tdcAbort (r : Req) (i : Fin 16)
  | tdcGateEdge (g : Fin 4) (high : Bool) (fine : Fin 256)
  | tdcInputEdge (i : Fin 16) (falling : Bool) (taken : Bool) (fine : Fin 256)
  | tdcWindowExpiry (i : Fin 16)
  | tdcMeasStore (i : Fin 16) (codesAgree : Bool)
  | tdcRearmTimer (i : Fin 16)
  | statGo (r : Req) (i : Fin 16)
  | tdcUnretire (r : Req) (mask : BitVec 16)
  | coreInitDone (core : Fin 2) (ok : Bool)
  | trackingMeasure (drift : Int)
  | coreSyncTracked
  | swoMasterUnlock
  | swoCheckFail
  | swoHeartbeatMissing
  | switch (r : Req)
  | swoGapEnd
  | selftestSlot (item : Fin 8) (first second : Bool)
  | repair (r : Req) (mask : BitVec 2)
  | coreAutoRepair (core : Fin 2)
  | calGo (r : Req)
  | calAbort (r : Req)
  | calMeasurementDone (values : List Int)
  | calPreconditionBroken
  | calBusyTimeout
  | save (r : Req)
  | calSaveFlashOpDone (ok : Bool)
  | calSaveTimeout
  | frameClassify (p : Fin 64) (bytes : List Byte) (st : RxStamp) (sinceSof : Nat)
  | mouldScrub (slice : Fin 4) (slot : Fin 2) (entry : Fin 32768) (fault : EccFault)
  | mouldEntryRewrite (slice : Fin 4) (slot : Fin 2) (entry : Fin 32768)
  | mouldEntryWrite (r : Req) (offset : Fin 8388608) (v : Word)
  | load (r : Req) (heat : BitVec 16)
  | heatLoadClearDone
  | seal (r : Req)
  | heatSealDone
  | discard (r : Req)
  | commit (r : Req) (heat : BitVec 16)
  | cancel (r : Req)
  | heatCommitExamine
  | heatCommitExecute (arriving : List (Fin 64))
  | heatCommitWaitTimeout
  | heatDrainDone (slot : Fin 2)
  | heatDrainTimeout (slot : Fin 2)
  | frameAdmit (injected : Option Injected)
  | pfcXoffRepeat (p : Fin 64) (c : Fin 8)
  | egressFrameSelect (p : Fin 64) (ecc : Option EccFault) (firstCellLeft : Bool)
  | frameDepart (p : Fin 64)
  | shaperRefill
  | deepCellWrite (region : Fin 896) (ecc : Option EccFault)
  | deepPrefetchRead
  | deepCellRead (p : Fin 64) (q : Fin 16) (reads : Vector CellRead 3)
  | dbfUnretire (r : Req) (region : BitVec 10)
  | recircReentry (slice : Fin 4) (ecc : Option EccFault)
  | riserFrameArrival
  | riserTimeout (c : Fin 4096)
  | riserContextDisable (r : Req) (c : Fin 4096) (v : Word)
  | rstSeq (r : Req) (g : Fin 32)
  | migrationHoldEnd (g : Fin 32) (bucket : BitVec 8)
  | migrationHoldTimeout (g : Fin 32) (bucket : BitVec 8)
  | memberOut (g : Fin 32) (m : Fin 16)
  | ladleGroupStage (r : Req) (i : Fin 16384) (w : Fin 3) (v : Word)
  | ladleGroupCommit (r : Req) (i : Fin 16384) (v : Word)
  | ladleReplicate
  | lldReserve (p : Fin 64)
  | lldWindowStart (p : Fin 64) (ecc : Option EccFault)
  | lldLateExpiry (p : Fin 64)
  | assayIntakeFrame (slice : Fin 4)
  | assayIntakeGrant
  | assayMembership (e : Fin 4)
  | assayDecide (c : Fin 256)
  | assaySourceCommit (r : Req) (i : Fin 16384) (v : Word)
  | assayContextEnable (r : Req) (c : Fin 256) (v : Word)
  | assayContextDisable (r : Req) (c : Fin 256) (v : Word)
  | assayMigGo (r : Req)
  | assayMigCancel (r : Req)
  | assayMigCopyDone
  | assayMigHandover
  | tacAnnounceRx (p : Fin 64) (bytes : List Byte)
  | heatCommit (k : Fin 16) (arriving : List (Fin 64))
  | snapshot (k : Fin 16)
  | counterClear (k : Fin 16)
  | portEnable (k : Fin 16)
  | pulse (k : Fin 16)
  | reset (k : Fin 16)
  | barrier (k : Fin 16)
  | tacCancel (k : Fin 16)
  | tacReportRx (p : Fin 64) (bytes : List Byte)
  | tacReportDeadline (k : Fin 16)
  | tacOriginate (r : Req) (v : Word)
  | tacExpectClear (r : Req) (high : Bool) (v : Word)
  | trig (r : Req)
  | atArm (r : Req)
  | atDisarm (r : Req)
  | snpAtReached
  | snapInEdge (rising : Bool)
  | snpCopyDone
  | snpFreeSlot (r : Req) (high : Bool) (v : Word)
  | sourceRaise (src : Fin 1024)
  | swset (r : Req) (v : Word)
  | intSourceCfgWrite (r : Req) (i : Fin 1024) (v : Word)
  | claim (r : Req) (t : Fin 35) (v : Word)
  | eoi (r : Req) (t : Fin 35) (v : Word)
  | intCoalesceTimeout (t : Fin 35)
  | pcieL1ExitDone
  | pcieD0Return
  | getVersion (tag : Byte)
  | getHealth (tag : Byte)
  | flashRead (tag : Byte) (dev addr len : Word)
  | flashErase (tag : Byte) (dev addr : Word)
  | flashProgram (tag : Byte) (dev addr len : Word) (data : List Word)
  | cmisRead (tag : Byte) (port bankPage offset len : Word)
  | cmisWrite (tag : Byte) (port bankPage offset len : Word) (data : List Word)
  | mbxResponse (data : List Word) (ioOk : Bool)
  | ack (r : Req)
  | abort (r : Req)
  | ringEnable (r : Req) (ring : Fin 32) (v : Word)
  | telemetrySample (ring : Fin 32)
  | freeze (r : Req)
  | run (r : Req)
  | snap (r : Req)
  | pmcGroupClear (r : Req) (v : Word)
  | pmcCounterWrap (g : Fin 24) (j : Fin 9)
  | upage (r : Req) (v : Word)
  | bankStateRequest (r : Req) (b : Fin 12) (v : Word)
  | bankStateChangeDone (b : Fin 12)
  | bankEccError (b : Fin 12) (word : Nat) (uncorrectable : Bool)
  | marchGo (r : Req) (v : Word)
  | marchDone (failing : List (Fin 12 × Nat))
  | captRd (r : Req) (v : Word)
  | tapInstruction (i : TapInstr) (scan : Option TapScan)
  | tapReset
  | vinMainRise
  | govCapWrite (r : Req) (v : Word)
  | govClockRampDone
  | laneBitSlip (l : Fin 512)
  | stepupQualCodewordError (p : Fin 64)
  | stepupQualLinkFault (p : Fin 64)
  | synLockAcquired (k : Fin 8)
  | tdcChannelEnable (r : Req) (i : Fin 16) (v : Word)
  | puntBucketRefill
  | riserContextEnable (r : Req) (c : Fin 4096) (v : Word)
  | lagGroupEnable (r : Req) (g : Fin 32) (v : Word)
  | lagMemberWrite (r : Req) (g : Fin 32) (m : Fin 16) (v : Word)
  | pinTableWrite (r : Req) (g : Fin 32) (w : Fin 64) (v : Word)
  | assayMigTReached
  | pcieL1Entry
  | pcieD3hotEntry (pmeEn : Bool)
  | msixMaskWrite (vec : Option (Fin 32)) (mask : Bool)
  deriving DecidableEq, Repr

end Sys2Proof
end

