-- ==== Sys2Proof/Decode.lean ====
section
/-! DEFINITION. The command that a word of the table's bits spells. No row of spec/opcode_table.json gives bits: the
commands of this block have no encoding, so no word spells one. -/

namespace Sys2Proof

/-- The command that the word `w` of `nbits` bits spells: none, since no row gives bits. -/
def decodeTableWord (_nbits _w : Nat) : Option Instr := none

end Sys2Proof
end

