-- ==== Sys2Proof/Config.lean ====
section
/-! DEFINITION. What one part fixes and the manual leaves open: fuse contents, open hardware choices and open values.
Every constant here has no body: a statement about the model holds whatever its value is. -/

namespace Sys2Proof

/-- The word that the fuses hold for the register at a BAR0 address (GLB.FUSE_INFO, GLB.SERIAL_LO and SERIAL_HI, and
every register whose description says that its reset value comes from fuse trims). -/
opaque Config.fuseWord : Nat → BitVec 32

/-- The outcome of an open choice: applied to the state's counter of open values, a fresh number each time. -/
opaque Config.freeNat : Nat → Nat

/-- An open word, applied to an address or to the state's counter of open values. -/
opaque Config.freeWord : Nat → BitVec 32

/-- Whether a quotient that is not whole is rounded up, where the manual does not state the rounding. -/
opaque Config.roundUp : Nat → Nat → Bool

/-- The contents of a byte of a scratchpad bank whose contents are undefined (R394): bank, byte address, and the
number of times that contents became undefined. -/
opaque Config.bankByte : Nat → Nat → Nat → BitVec 8

/-- The firmware version and build, and the build of the boot ROM, that GET_VERSION answers (R387). -/
opaque Config.firmwareVersion : Word
opaque Config.firmwareBuild : Word
opaque Config.romBuild : Word

/-- The GEN that a save writes where neither copy of the trim region is valid (R226). -/
opaque Config.firstGen : Word

/-- The size exponent of a host ring whose LOG2N lies below 4 (RINGr_CFG). -/
opaque Config.ringLog2 : Nat → Nat

/-- The duty cycle of the square wave of an output, between 48 % and 52 % (R171), as a quotient that says where in this
span it lies. -/
opaque Config.dutyNum : Nat → Nat
opaque Config.dutyDen : Nat → Nat

/-- A quotient whose rounding the manual does not state: exact where it is whole. -/
def Config.quot (num den : Nat) : Nat :=
  num / den + (if num % den ≠ 0 ∧ Config.roundUp num den = true then 1 else 0)

end Sys2Proof
end

