-- ==== Sys2Proof/Machine/RegMap.lean ====
section
/-! DEFINITION. The register map of BAR0 (R357): for every register its place, access type (R12), implemented bits
and reset value, as the register descriptions of the chapters give them. -/

namespace Sys2Proof.Machine

/-- The access types of R12. The three words of an FTIME register (R10), a read window and a word of the TBL window
have types of their own. -/
inductive Acc where
  | rw | ro | wo | sqc | grd | cnt
  | ftime (w : Nat)
  | window
  deriving DecidableEq, Repr

/-- One register or array of registers: the offset in its block, two counts with their strides, the access type, the
implemented bits, the reset value, whether it is BCW (R13), and whether its reset value comes from the fuses. -/
structure RegRow where
  off   : Nat
  n1    : Nat
  s1    : Nat
  n2    : Nat
  s2    : Nat
  acc   : Acc
  mask  : Nat
  reset : Nat
  bcw   : Bool
  fuse  : Bool
  deriving DecidableEq, Repr

/-- Does the offset `o` name a word of the row? -/
def RegRow.covers (r : RegRow) (o : Nat) : Bool :=
  decide (r.off ≤ o) && decide ((o - r.off) / r.s1 < r.n1) &&
    decide ((o - r.off) % r.s1 / r.s2 < r.n2) && decide ((o - r.off) % r.s1 % r.s2 = 0)

/-- One block of the BAR0 map (R357): its base, its size, the stride of its blocks of one kind (the size where the
block is one whole), and its registers. -/
structure Block where
  base   : Nat
  size   : Nat
  stride : Nat
  rows   : List RegRow
  deriving Repr

def rowsGLB : List RegRow := [
  ⟨0x400, 1, 0x4, 1, 0x4, .grd, 0xffff, 0x0, false, false⟩,
  ⟨0x404, 1, 0x4, 1, 0x4, .ro, 0xffffff, 0x0, false, false⟩,
  ⟨0x408, 1, 0x4, 1, 0x4, .sqc, 0xffff, 0x0, false, false⟩,
  ⟨0x40c, 1, 0x4, 1, 0x4, .rw, 0xffff, 0x64, false, false⟩,
  ⟨0x40, 1, 0x4, 1, 0x4, .ro, 0xff000000, 0x0, false, false⟩,
  ⟨0x44, 1, 0x4, 1, 0x4, .ro, 0x3ffffff, 0x0, false, false⟩,
  ⟨0x48, 1, 0x4, 1, 0x4, .wo, 0x1, 0x0, false, false⟩,
  ⟨0x50, 1, 0x4, 1, 0x4, .cnt, 0xffffffff, 0x0, false, false⟩,
  ⟨0x54, 1, 0x4, 1, 0x4, .cnt, 0xffffffff, 0x0, false, false⟩,
  ⟨0x58, 1, 0x4, 1, 0x4, .sqc, 0x3, 0x0, false, false⟩,
  ⟨0x5c, 1, 0x4, 1, 0x4, .rw, 0x3, 0x0, false, false⟩,
  ⟨0x4, 1, 0x4, 1, 0x4, .ro, 0xffffffff, 0x0, false, true⟩,
  ⟨0x8, 1, 0x4, 1, 0x4, .ro, 0xffffffff, 0x0, false, true⟩,
  ⟨0xc, 1, 0x4, 1, 0x4, .ro, 0xffffffff, 0x0, false, true⟩,
  ⟨0x10, 1, 0x4, 1, 0x4, .ro, 0xffffffff, 0x1, false, false⟩,
  ⟨0x18, 1, 0x4, 1, 0x4, .grd, 0x7, 0x0, false, false⟩,
  ⟨0x20, 1, 0x4, 1, 0x4, .ro, 0xffff, 0x0, false, false⟩,
  ⟨0x1000, 8, 0x40, 16, 0x4, .rw, 0xffffffff, 0x0, false, false⟩,
  ⟨0x1400, 8, 0x8, 2, 0x4, .rw, 0xffffffff, 0x0, false, false⟩]

def rowsPWR : List RegRow := [
  ⟨0x0, 1, 0x4, 1, 0x4, .ro, 0x3fffffff, 0x0, false, false⟩,
  ⟨0x4, 2, 0x4, 1, 0x4, .ro, 0xffffffff, 0x0, false, false⟩,
  ⟨0x10, 1, 0x4, 1, 0x4, .rw, 0x3ff, 0x0, false, false⟩,
  ⟨0x20, 8, 0x4, 1, 0x4, .rw, 0xffffffff, 0x0, true, false⟩,
  ⟨0x40, 1, 0x4, 1, 0x4, .grd, 0x3, 0x0, false, false⟩,
  ⟨0x50, 1, 0x4, 1, 0x4, .grd, 0x3, 0x0, false, false⟩,
  ⟨0x54, 1, 0x4, 1, 0x4, .rw, 0x7ffff, 0x3e8, false, false⟩,
  ⟨0x60, 1, 0x4, 1, 0x4, (.ftime 2), 0xffffffff, 0x0, false, false⟩,
  ⟨0x64, 1, 0x4, 1, 0x4, (.ftime 1), 0xffffffff, 0x0, false, false⟩,
  ⟨0x68, 1, 0x4, 1, 0x4, (.ftime 0), 0xffffffff, 0x0, false, false⟩]

def rowsINT : List RegRow := [
  ⟨0x10, 1, 0x4, 1, 0x4, .wo, 0x3ff, 0x0, false, false⟩,
  ⟨0x400, 32, 0x4, 1, 0x4, .ro, 0xffffffff, 0x0, false, false⟩,
  ⟨0x480, 32, 0x4, 1, 0x4, .ro, 0xffffffff, 0x0, false, false⟩,
  ⟨0x100, 35, 0x10, 1, 0x4, .rw, 0x3fffff0f, 0x100, false, false⟩,
  ⟨0x104, 35, 0x10, 1, 0x4, .ro, 0xffffffff, 0x0, false, false⟩,
  ⟨0x108, 35, 0x10, 1, 0x4, .wo, 0x3ff, 0x0, false, false⟩,
  ⟨0x10c, 35, 0x10, 1, 0x4, .wo, 0x3ff, 0x0, false, false⟩,
  ⟨0x1000, 1024, 0x4, 1, 0x4, .rw, 0xc00f003f, 0x10000, false, false⟩]

def rowsPMC : List RegRow := [
  ⟨0x0, 1, 0x4, 1, 0x4, .wo, 0x7, 0x0, false, false⟩,
  ⟨0x4, 1, 0x4, 1, 0x4, .wo, 0xffffff, 0x0, false, false⟩,
  ⟨0x8, 1, 0x4, 1, 0x4, .ro, 0x80000000, 0x0, false, false⟩,
  ⟨0x10, 1, 0x4, 1, 0x4, .grd, 0x1, 0x0, false, false⟩,
  ⟨0x100, 24, 0x40, 8, 0x4, .rw, 0x3ff, 0x0, false, false⟩,
  ⟨0x120, 24, 0x40, 1, 0x4, .sqc, 0x1ff, 0x0, false, false⟩,
  ⟨0x124, 24, 0x40, 1, 0x4, .rw, 0x1ff, 0x0, false, false⟩,
  ⟨0x1000, 24, 0x80, 1, 0x4, .cnt, 0xffffffff, 0x0, false, false⟩,
  ⟨0x1004, 24, 0x80, 1, 0x4, .cnt, 0xffffffff, 0x0, false, false⟩,
  ⟨0x1008, 24, 0x80, 8, 0x8, .cnt, 0xffffffff, 0x0, false, false⟩,
  ⟨0x100c, 24, 0x80, 8, 0x8, .cnt, 0xffff, 0x0, false, false⟩,
  ⟨0x4000, 24, 0x80, 18, 0x4, .ro, 0xffffffff, 0x0, false, false⟩,
  ⟨0x8000, 1024, 0x4, 1, 0x4, .ro, 0xffffffff, 0x0, false, false⟩]

def rowsSNP : List RegRow := [
  ⟨0x0, 1, 0x4, 1, 0x4, .rw, 0xffff03ff, 0x0, false, false⟩,
  ⟨0x4, 1, 0x4, 1, 0x4, .wo, 0x7, 0x0, false, false⟩,
  ⟨0x8, 1, 0x4, 1, 0x4, .ro, 0xffffffff, 0x3f, false, false⟩,
  ⟨0xc, 1, 0x4, 1, 0x4, .sqc, 0xf, 0x0, false, false⟩,
  ⟨0x10, 1, 0x4, 1, 0x4, .rw, 0xf, 0x0, false, false⟩,
  ⟨0x20, 1, 0x4, 1, 0x4, (.ftime 2), 0xffffffff, 0x0, false, false⟩,
  ⟨0x24, 1, 0x4, 1, 0x4, (.ftime 1), 0xffffffff, 0x0, false, false⟩,
  ⟨0x28, 1, 0x4, 1, 0x4, (.ftime 0), 0xffffffff, 0x0, false, false⟩,
  ⟨0x2c, 1, 0x4, 1, 0x4, .rw, 0xffffffff, 0x0, false, false⟩,
  ⟨0x30, 1, 0x4, 1, 0x4, .ro, 0xf000003f, 0x0, false, false⟩,
  ⟨0x38, 1, 0x4, 1, 0x4, .cnt, 0xffffffff, 0x0, false, false⟩,
  ⟨0x3c, 1, 0x4, 1, 0x4, .cnt, 0xffffffff, 0x0, false, false⟩,
  ⟨0x40, 1, 0x4, 1, 0x4, .ro, 0xffffffff, 0x0, false, false⟩,
  ⟨0x48, 2, 0x4, 1, 0x4, .ro, 0xffffffff, 0x0, false, false⟩,
  ⟨0x50, 2, 0x4, 1, 0x4, .rw, 0xffffffff, 0x0, false, false⟩,
  ⟨0x58, 2, 0x4, 1, 0x4, .wo, 0xffffffff, 0x0, false, false⟩,
  ⟨0x60, 1, 0x4, 1, 0x4, .ro, 0x1ffff, 0x10, false, false⟩,
  ⟨0x70, 1, 0x4, 1, 0x4, .rw, 0x1ff, 0x0, false, false⟩,
  ⟨0x1000, 512, 0x4, 1, 0x4, .rw, 0xffffffff, 0x0, false, false⟩,
  ⟨0x8000, 8192, 0x4, 1, 0x4, .ro, 0xffffffff, 0x0, false, false⟩]

def rowsMEM : List RegRow := [
  ⟨0x10, 1, 0x4, 1, 0x4, .grd, 0xc0000fff, 0x0, false, false⟩,
  ⟨0x14, 1, 0x4, 1, 0x4, .ro, 0x80ffffff, 0x0, false, false⟩,
  ⟨0x20, 1, 0x4, 1, 0x4, .sqc, 0x3f, 0x0, false, false⟩,
  ⟨0x24, 1, 0x4, 1, 0x4, .rw, 0x3f, 0x0, false, false⟩,
  ⟨0x30, 1, 0x4, 1, 0x4, .rw, 0xf01ff, 0x0, false, false⟩,
  ⟨0x34, 1, 0x4, 1, 0x4, .ro, 0x8fffffff, 0x0, false, false⟩,
  ⟨0x40, 1, 0x4, 1, 0x4, .ro, 0x3fff7fff, 0x0, false, false⟩,
  ⟨0x44, 1, 0x4, 1, 0x4, .rw, 0x3fff, 0x0, false, false⟩,
  ⟨0x100, 12, 0x10, 1, 0x4, .rw, 0x3, 0x1, false, false⟩,
  ⟨0x104, 12, 0x10, 1, 0x4, .ro, 0xffffffff, 0x10000000, false, false⟩,
  ⟨0x8000, 8192, 0x4, 1, 0x4, .window, 0xffffffff, 0x0, false, false⟩]

def rowsTAC : List RegRow := [
  ⟨0x0, 1, 0x4, 1, 0x4, .rw, 0x801fffff, 0x801007d0, false, false⟩,
  ⟨0x4, 1, 0x4, 1, 0x4, .rw, 0xffffffff, 0x0, false, false⟩,
  ⟨0x8, 1, 0x4, 1, 0x4, .rw, 0xffffffff, 0x0, false, false⟩,
  ⟨0xc, 1, 0x4, 1, 0x4, .ro, 0x1fbf001f, 0x0, false, false⟩,
  ⟨0x10, 1, 0x4, 1, 0x4, .ro, 0xffffffff, 0x0, false, false⟩,
  ⟨0x14, 1, 0x4, 1, 0x4, .ro, 0xffffffff, 0x0, false, false⟩,
  ⟨0x18, 1, 0x4, 1, 0x4, .sqc, 0x7f, 0x0, false, false⟩,
  ⟨0x1c, 1, 0x4, 1, 0x4, .rw, 0x7f, 0x0, false, false⟩,
  ⟨0x20, 1, 0x4, 1, 0x4, .rw, 0xffffffff, 0x0, false, false⟩,
  ⟨0x24, 1, 0x4, 1, 0x4, .rw, 0xffff, 0x0, false, false⟩,
  ⟨0x28, 1, 0x4, 1, 0x4, .ro, 0xffffffff, 0x0, false, false⟩,
  ⟨0x2c, 1, 0x4, 1, 0x4, .ro, 0xffffffff, 0x0, false, false⟩,
  ⟨0x30, 1, 0x4, 1, 0x4, .wo, 0xffffffff, 0x0, false, false⟩,
  ⟨0x34, 1, 0x4, 1, 0x4, .wo, 0xffffffff, 0x0, false, false⟩,
  ⟨0x40, 1, 0x4, 1, 0x4, .grd, 0xf0f, 0x0, false, false⟩,
  ⟨0x44, 1, 0x4, 1, 0x4, (.ftime 2), 0xffffffff, 0x0, false, false⟩,
  ⟨0x48, 1, 0x4, 1, 0x4, (.ftime 1), 0xffffffff, 0x0, false, false⟩,
  ⟨0x4c, 1, 0x4, 1, 0x4, (.ftime 0), 0xffffffff, 0x0, false, false⟩,
  ⟨0x50, 1, 0x4, 1, 0x4, .rw, 0xffffff, 0x0, false, false⟩,
  ⟨0x54, 1, 0x4, 1, 0x4, .ro, 0xffff000f, 0x0, false, false⟩,
  ⟨0x60, 8, 0x4, 1, 0x4, .rw, 0xffffffff, 0x0, false, false⟩,
  ⟨0x80, 1, 0x4, 1, 0x4, .ro, 0xffffffff, 0x0, false, false⟩,
  ⟨0x84, 1, 0x4, 1, 0x4, .ro, 0xffffffff, 0x0, false, false⟩,
  ⟨0x88, 1, 0x4, 1, 0x4, .ro, 0xffffffff, 0x0, false, false⟩,
  ⟨0x8c, 1, 0x4, 1, 0x4, .ro, 0xffffffff, 0x0, false, false⟩,
  ⟨0x90, 1, 0x4, 1, 0x4, .ro, 0xffffffff, 0x0, false, false⟩,
  ⟨0x94, 1, 0x4, 1, 0x4, .ro, 0xffff, 0x0, false, false⟩,
  ⟨0x98, 1, 0x4, 1, 0x4, .ro, 0xffff00ff, 0xffff00ff, false, false⟩,
  ⟨0x100, 1, 0x4, 1, 0x4, .cnt, 0xffffffff, 0x0, false, false⟩,
  ⟨0x104, 1, 0x4, 1, 0x4, .cnt, 0xffffffff, 0x0, false, false⟩,
  ⟨0x108, 1, 0x4, 1, 0x4, .cnt, 0xffffffff, 0x0, false, false⟩,
  ⟨0x10c, 1, 0x4, 1, 0x4, .cnt, 0xffffffff, 0x0, false, false⟩,
  ⟨0x110, 1, 0x4, 1, 0x4, .cnt, 0xffffffff, 0x0, false, false⟩,
  ⟨0x114, 1, 0x4, 1, 0x4, .cnt, 0xffffffff, 0x0, false, false⟩,
  ⟨0x118, 1, 0x4, 1, 0x4, .cnt, 0xffffffff, 0x0, false, false⟩,
  ⟨0x11c, 1, 0x4, 1, 0x4, .cnt, 0xffffffff, 0x0, false, false⟩,
  ⟨0x120, 1, 0x4, 1, 0x4, .cnt, 0xffffffff, 0x0, false, false⟩,
  ⟨0x124, 1, 0x4, 1, 0x4, .cnt, 0xffffffff, 0x0, false, false⟩,
  ⟨0x200, 16, 0x20, 5, 0x4, .ro, 0xffffffff, 0x0, false, false⟩]

def rowsHOST : List RegRow := [
  ⟨0x0, 1, 0x4, 1, 0x4, .wo, 0x7, 0x0, false, false⟩,
  ⟨0x4, 1, 0x4, 1, 0x4, .ro, 0x3, 0x0, false, false⟩,
  ⟨0x100, 64, 0x4, 1, 0x4, .rw, 0xffffffff, 0x0, false, false⟩,
  ⟨0x200, 64, 0x4, 1, 0x4, .ro, 0xffffffff, 0x0, false, false⟩,
  ⟨0x1000, 32, 0x40, 1, 0x4, .rw, 0xfffff000, 0x0, false, false⟩,
  ⟨0x1004, 32, 0x40, 1, 0x4, .rw, 0xffffffff, 0x0, false, false⟩,
  ⟨0x1008, 32, 0x40, 1, 0x4, .rw, 0x800f0000, 0x0, false, false⟩,
  ⟨0x100c, 32, 0x40, 1, 0x4, .ro, 0xffff, 0x0, false, false⟩,
  ⟨0x1010, 32, 0x40, 1, 0x4, .rw, 0xffff, 0x0, false, false⟩,
  ⟨0x1014, 32, 0x40, 1, 0x4, .rw, 0xffffff, 0x0, false, false⟩,
  ⟨0x1018, 32, 0x40, 1, 0x4, .rw, 0xffffff, 0x3e8, false, false⟩,
  ⟨0x1020, 32, 0x40, 1, 0x4, .cnt, 0xffffffff, 0x0, false, false⟩,
  ⟨0x1024, 32, 0x40, 1, 0x4, .cnt, 0xffffffff, 0x0, false, false⟩,
  ⟨0x8000, 32, 0x10, 3, 0x4, .rw, 0xffffffff, 0x0, false, false⟩,
  ⟨0x800c, 32, 0x10, 1, 0x4, .rw, 0x1, 0x1, false, false⟩,
  ⟨0x9000, 1, 0x4, 1, 0x4, .ro, 0xffffffff, 0x0, false, false⟩]

def rowsTCO : List RegRow := [
  ⟨0x0, 1, 0x4, 1, 0x4, .grd, 0x7, 0x0, false, false⟩,
  ⟨0x4, 1, 0x4, 1, 0x4, .rw, 0xffff0001, 0x140000, false, false⟩,
  ⟨0x8, 1, 0x4, 1, 0x4, .ro, 0xffffffff, 0x10, false, false⟩,
  ⟨0xc, 1, 0x4, 1, 0x4, .sqc, 0x7f, 0x0, false, false⟩,
  ⟨0x10, 1, 0x4, 1, 0x4, .rw, 0x7f, 0x0, false, false⟩,
  ⟨0x14, 1, 0x4, 1, 0x4, .ro, 0xffffffff, 0x0, false, false⟩,
  ⟨0x18, 1, 0x4, 1, 0x4, .ro, 0xffffffff, 0x0, false, false⟩,
  ⟨0x20, 1, 0x4, 1, 0x4, .ro, 0xffffffff, 0x0, false, false⟩,
  ⟨0x24, 1, 0x4, 1, 0x4, .ro, 0xffffffff, 0x0, false, false⟩,
  ⟨0x28, 1, 0x4, 1, 0x4, .ro, 0xffffffff, 0x0, false, false⟩,
  ⟨0x30, 2, 0x4, 1, 0x4, .ro, 0xffffffff, 0x0, false, false⟩]

def rowsTIM : List RegRow := [
  ⟨0x10, 1, 0x4, 1, 0x4, .wo, 0xff, 0x0, false, false⟩,
  ⟨0x20, 1, 0x4, 1, 0x4, .grd, 0xff, 0x0, false, false⟩,
  ⟨0x100, 1, 0x4, 1, 0x4, .rw, 0x803f000f, 0x80000000, false, false⟩,
  ⟨0x140, 7, 0x40, 1, 0x4, .rw, 0x3f000f, 0x0, false, false⟩,
  ⟨0x104, 8, 0x40, 1, 0x4, .ro, 0xffffffff, 0x8000000, false, false⟩,
  ⟨0x108, 8, 0x40, 1, 0x4, .sqc, 0x7f, 0x0, false, false⟩,
  ⟨0x10c, 8, 0x40, 1, 0x4, .rw, 0x7f, 0x0, false, false⟩,
  ⟨0x110, 8, 0x40, 1, 0x4, .ro, 0xffffffff, 0x0, false, false⟩,
  ⟨0x114, 8, 0x40, 1, 0x4, .rw, 0xffffffff, 0x0, false, false⟩,
  ⟨0x118, 8, 0x40, 1, 0x4, .ro, 0xffffffff, 0x0, false, false⟩,
  ⟨0x11c, 8, 0x40, 1, 0x4, .rw, 0xffffffff, 0x10000080, false, false⟩,
  ⟨0x120, 8, 0x40, 1, 0x4, .rw, 0xffffffff, 0x64000a, false, false⟩,
  ⟨0x124, 8, 0x40, 1, 0x4, .rw, 0xffffffff, 0x3e80064, false, false⟩,
  ⟨0x128, 8, 0x40, 1, 0x4, .rw, 0xffff, 0x7530, false, false⟩,
  ⟨0x12c, 8, 0x40, 1, 0x4, .ro, 0xffffffff, 0x0, false, false⟩,
  ⟨0x130, 8, 0x40, 1, 0x4, .ro, 0xffffffff, 0x0, false, false⟩,
  ⟨0x134, 8, 0x40, 1, 0x4, .ro, 0xffffffff, 0x0, false, false⟩,
  ⟨0x138, 8, 0x40, 1, 0x4, .ro, 0xffffffff, 0x0, false, false⟩,
  ⟨0x500, 8, 0x10, 1, 0x4, (.ftime 2), 0xffffffff, 0x0, false, false⟩,
  ⟨0x504, 8, 0x10, 1, 0x4, (.ftime 1), 0xffffffff, 0x0, false, false⟩,
  ⟨0x508, 8, 0x10, 1, 0x4, (.ftime 0), 0xffffffff, 0x0, false, false⟩,
  ⟨0x400, 8, 0x10, 1, 0x4, .ro, 0xffffffff, 0x0, false, false⟩,
  ⟨0x404, 8, 0x10, 1, 0x4, .ro, 0xffffffff, 0x0, false, false⟩,
  ⟨0x408, 8, 0x10, 1, 0x4, .ro, 0xffffffff, 0x0, false, false⟩]

def rowsREF : List RegRow := [
  ⟨0x0, 1, 0x4, 1, 0x4, .ro, 0x1, 0x0, false, false⟩,
  ⟨0x10, 1, 0x4, 1, 0x4, .rw, 0xffff0077, 0x12c0000, false, false⟩,
  ⟨0x14, 1, 0x4, 1, 0x4, .ro, 0xffffffff, 0x7700000, false, false⟩,
  ⟨0x18, 1, 0x4, 1, 0x4, .sqc, 0xff, 0x0, false, false⟩,
  ⟨0x1c, 1, 0x4, 1, 0x4, .rw, 0xff, 0x0, false, false⟩,
  ⟨0x20, 1, 0x4, 1, 0x4, .rw, 0xffff, 0x64, false, false⟩,
  ⟨0x24, 1, 0x4, 1, 0x4, .wo, 0x3f, 0x0, false, false⟩,
  ⟨0x28, 1, 0x4, 1, 0x4, .rw, 0x3f3f, 0x0, false, false⟩,
  ⟨0x100, 6, 0x20, 1, 0x4, .rw, 0x80000f01, 0x0, false, false⟩,
  ⟨0x104, 4, 0x20, 1, 0x4, .rw, 0xffffffff, 0x989680, false, false⟩,
  ⟨0x184, 2, 0x20, 1, 0x4, .ro, 0xffffffff, 0x9502f90, false, false⟩,
  ⟨0x108, 6, 0x20, 1, 0x4, .rw, 0xffffffff, 0xa7530, false, false⟩,
  ⟨0x10c, 6, 0x20, 1, 0x4, .ro, 0xffffffff, 0x0, false, false⟩,
  ⟨0x110, 6, 0x20, 1, 0x4, .ro, 0xffffffff, 0x0, false, false⟩,
  ⟨0x114, 6, 0x20, 1, 0x4, .rw, 0xffffffff, 0x0, false, false⟩,
  ⟨0x10000, 1, 0x4, 1, 0x4, .rw, 0x3, 0x0, false, false⟩,
  ⟨0x10010, 1, 0x4, 1, 0x4, .cnt, 0xffffffff, 0x0, false, false⟩,
  ⟨0x10014, 1, 0x4, 1, 0x4, .cnt, 0xffffffff, 0x0, false, false⟩,
  ⟨0x10020, 12, 0x4, 1, 0x4, .ro, 0xffffffff, 0x0, false, false⟩,
  ⟨0x10060, 2, 0x4, 1, 0x4, .ro, 0xffffffff, 0x0, false, false⟩,
  ⟨0x10070, 1, 0x4, 1, 0x4, .sqc, 0x3fff, 0x0, false, false⟩,
  ⟨0x10074, 1, 0x4, 1, 0x4, .rw, 0x3fff, 0x0, false, false⟩,
  ⟨0x10100, 8, 0x40, 1, 0x4, .rw, 0xfff00000, 0x0, false, false⟩,
  ⟨0x10104, 8, 0x40, 1, 0x4, .rw, 0xf0ffffff, 0xc0800000, false, false⟩,
  ⟨0x10108, 8, 0x40, 1, 0x4, .rw, 0xffffffff, 0x10000, false, false⟩,
  ⟨0x1010c, 8, 0x40, 1, 0x4, .rw, 0x7fffff, 0x271, false, false⟩,
  ⟨0x10110, 8, 0x40, 1, 0x4, .rw, 0xffffffff, 0x989680, false, false⟩,
  ⟨0x10114, 8, 0x40, 1, 0x4, .rw, 0xffffffff, 0x0, false, false⟩,
  ⟨0x10118, 8, 0x40, 1, 0x4, .rw, 0xffffffff, 0x3e80005, false, false⟩,
  ⟨0x1011c, 8, 0x40, 1, 0x4, .rw, 0xf0ffffff, 0xc0800000, false, false⟩,
  ⟨0x10120, 8, 0x40, 1, 0x4, .rw, 0xffffffff, 0x10000, false, false⟩,
  ⟨0x10124, 8, 0x40, 1, 0x4, .rw, 0x2, 0x0, false, false⟩,
  ⟨0x10128, 8, 0x40, 1, 0x4, .ro, 0xffffffff, 0x0, false, false⟩,
  ⟨0x1012c, 8, 0x40, 1, 0x4, .sqc, 0xff, 0x0, false, false⟩,
  ⟨0x10130, 8, 0x40, 1, 0x4, .rw, 0xff, 0x0, false, false⟩,
  ⟨0x10134, 8, 0x40, 1, 0x4, .ro, 0xffffffff, 0x0, false, false⟩,
  ⟨0x10400, 8, 0x10, 1, 0x4, (.ftime 2), 0xffffffff, 0x0, false, false⟩,
  ⟨0x10404, 8, 0x10, 1, 0x4, (.ftime 1), 0xffffffff, 0x0, false, false⟩,
  ⟨0x10408, 8, 0x10, 1, 0x4, (.ftime 0), 0xffffffff, 0x0, false, false⟩,
  ⟨0x11000, 8, 0x40, 16, 0x4, .rw, 0xffffffff, 0x0, false, false⟩]

def rowsPLS0 : List RegRow := [
  ⟨0x0, 1, 0x4, 1, 0x4, .wo, 0xffffffff, 0x0, false, false⟩,
  ⟨0x4, 1, 0x4, 1, 0x4, .wo, 0xffffffff, 0x0, false, false⟩,
  ⟨0x200, 32, 0x4, 1, 0x4, .ro, 0xffffffff, 0x0, false, false⟩,
  ⟨0x280, 32, 0x4, 1, 0x4, .ro, 0xffffffff, 0x0, false, false⟩,
  ⟨0x1000, 32, 0x40, 1, 0x4, .rw, 0xffffe000, 0x0, false, false⟩,
  ⟨0x1004, 32, 0x40, 1, 0x4, .wo, 0x3, 0x0, false, false⟩,
  ⟨0x1008, 32, 0x40, 1, 0x4, .ro, 0xffffffff, 0x0, false, false⟩,
  ⟨0x100c, 32, 0x40, 1, 0x4, .sqc, 0x7f, 0x0, false, false⟩,
  ⟨0x1010, 32, 0x40, 1, 0x4, .rw, 0x7f, 0x0, false, false⟩,
  ⟨0x1014, 32, 0x40, 1, 0x4, (.ftime 2), 0xffffffff, 0x0, false, false⟩,
  ⟨0x1018, 32, 0x40, 1, 0x4, (.ftime 1), 0xffffffff, 0x0, false, false⟩,
  ⟨0x101c, 32, 0x40, 1, 0x4, (.ftime 0), 0xffffffff, 0x0, false, false⟩,
  ⟨0x1020, 32, 0x40, 1, 0x4, .rw, 0xffffffff, 0x0, false, false⟩,
  ⟨0x1024, 32, 0x40, 1, 0x4, .rw, 0xffff, 0x0, false, false⟩,
  ⟨0x1028, 32, 0x40, 1, 0x4, .rw, 0xffffffff, 0x7d0, false, false⟩,
  ⟨0x102c, 32, 0x40, 1, 0x4, .rw, 0xffffffff, 0x0, false, false⟩,
  ⟨0x1030, 32, 0x40, 1, 0x4, .rw, 0xffffffff, 0x0, false, false⟩,
  ⟨0x1034, 32, 0x40, 1, 0x4, .rw, 0xffffffff, 0x0, false, false⟩,
  ⟨0x1038, 32, 0x40, 1, 0x4, .ro, 0xffffffff, 0x0, false, false⟩,
  ⟨0x103c, 32, 0x40, 1, 0x4, .ro, 0xffffffff, 0x0, false, false⟩,
  ⟨0x10000, 1, 0x4, 1, 0x4, .rw, 0xf, 0x0, false, false⟩,
  ⟨0x10004, 1, 0x4, 1, 0x4, .ro, 0xf, 0x0, false, false⟩,
  ⟨0x10010, 1, 0x4, 1, 0x4, .grd, 0xffff, 0x0, false, false⟩,
  ⟨0x10020, 1, 0x4, 1, 0x4, .wo, 0xffff, 0x0, false, false⟩,
  ⟨0x11000, 16, 0x200, 1, 0x4, .rw, 0xfffffb00, 0x4000, false, false⟩,
  ⟨0x11004, 16, 0x200, 1, 0x4, .rw, 0xfff, 0x555, false, false⟩,
  ⟨0x11008, 16, 0x200, 1, 0x4, .rw, 0xffffffff, 0x0, false, false⟩,
  ⟨0x1100c, 16, 0x200, 1, 0x4, .wo, 0x7, 0x0, false, false⟩,
  ⟨0x11010, 16, 0x200, 1, 0x4, .ro, 0xffffffff, 0x0, false, false⟩,
  ⟨0x11014, 16, 0x200, 1, 0x4, .sqc, 0x7f, 0x0, false, false⟩,
  ⟨0x11018, 16, 0x200, 1, 0x4, .rw, 0x7f, 0x0, false, false⟩,
  ⟨0x1101c, 16, 0x200, 1, 0x4, .rw, 0x1fffffff, 0x1000000, false, false⟩,
  ⟨0x11020, 16, 0x200, 1, 0x4, .ro, 0xffffffff, 0x0, false, false⟩,
  ⟨0x11024, 16, 0x200, 1, 0x4, .ro, 0xffffffff, 0x0, false, false⟩,
  ⟨0x11028, 16, 0x200, 1, 0x4, .ro, 0xffffffff, 0x0, false, false⟩,
  ⟨0x1102c, 16, 0x200, 1, 0x4, .ro, 0xffffffff, 0x0, false, false⟩,
  ⟨0x11030, 16, 0x200, 1, 0x4, .ro, 0xffffffff, 0x0, false, false⟩,
  ⟨0x11040, 16, 0x200, 1, 0x4, .ro, 0x1ffffff, 0x0, false, false⟩,
  ⟨0x11060, 16, 0x200, 1, 0x4, .ro, 0xffffffff, 0x0, false, false⟩,
  ⟨0x11044, 16, 0x200, 1, 0x4, .ro, 0xffffffff, 0x0, false, false⟩]

def rowsPLS1 : List RegRow := [
  ⟨0x11048, 16, 0x200, 1, 0x4, .ro, 0xffffffff, 0x0, false, false⟩,
  ⟨0x1104c, 16, 0x200, 1, 0x4, .ro, 0xffffffff, 0x0, false, false⟩,
  ⟨0x11050, 16, 0x200, 1, 0x4, .ro, 0xffffffff, 0x0, false, false⟩,
  ⟨0x11054, 16, 0x200, 1, 0x4, .ro, 0xffffffff, 0x0, false, false⟩,
  ⟨0x11058, 16, 0x200, 1, 0x4, .ro, 0xffffffff, 0x0, false, false⟩,
  ⟨0x1105c, 16, 0x200, 1, 0x4, .ro, 0xffffffff, 0x0, false, false⟩,
  ⟨0x11100, 16, 0x200, 31, 0x8, .ro, 0xffffffff, 0x0, false, false⟩,
  ⟨0x11104, 16, 0x200, 31, 0x8, .ro, 0xffffffff, 0x0, false, false⟩]

def rowsPLS : List RegRow := rowsPLS0 ++ rowsPLS1

def rowsCAL : List RegRow := [
  ⟨0x0, 1, 0x4, 1, 0x4, .wo, 0x3, 0x0, false, false⟩,
  ⟨0x4, 1, 0x4, 1, 0x4, .rw, 0x3ff, 0x0, false, false⟩,
  ⟨0x8, 1, 0x4, 1, 0x4, .rw, 0x1ff01ff, 0x1ff0000, false, false⟩,
  ⟨0xc, 1, 0x4, 1, 0x4, .ro, 0xffffffff, 0x0, false, false⟩,
  ⟨0x10, 1, 0x4, 1, 0x4, .sqc, 0x7f, 0x0, false, false⟩,
  ⟨0x14, 1, 0x4, 1, 0x4, .rw, 0x7f, 0x0, false, false⟩,
  ⟨0x18, 1, 0x4, 1, 0x4, .ro, 0xffffffff, 0x0, false, false⟩,
  ⟨0x1c, 1, 0x4, 1, 0x4, .ro, 0xffffffff, 0x0, false, false⟩,
  ⟨0x20, 1, 0x4, 1, 0x4, .ro, 0xffffffff, 0x0, false, false⟩,
  ⟨0x24, 1, 0x4, 1, 0x4, .ro, 0xffffffff, 0x0, false, false⟩,
  ⟨0x28, 1, 0x4, 1, 0x4, .rw, 0xfff01ff, 0x0, false, false⟩,
  ⟨0x2c, 1, 0x4, 1, 0x4, .ro, 0xffffffff, 0x0, false, false⟩,
  ⟨0x30, 1, 0x4, 1, 0x4, .ro, 0xffffffff, 0x0, false, false⟩,
  ⟨0x34, 1, 0x4, 1, 0x4, .ro, 0xffffffff, 0x0, false, false⟩,
  ⟨0x40, 1, 0x4, 1, 0x4, .grd, 0x1, 0x0, false, false⟩,
  ⟨0x60, 1, 0x4, 1, 0x4, .rw, 0xffff, 0x7d0, false, false⟩,
  ⟨0x64, 1, 0x4, 1, 0x4, .rw, 0xffff, 0x7d0, false, false⟩,
  ⟨0x68, 1, 0x4, 1, 0x4, .rw, 0xffff, 0x1f4, false, false⟩,
  ⟨0x6c, 1, 0x4, 1, 0x4, .rw, 0xffff, 0xc8, false, false⟩,
  ⟨0x70, 1, 0x4, 1, 0x4, .rw, 0xffff, 0x3e8, false, false⟩,
  ⟨0x74, 1, 0x4, 1, 0x4, .rw, 0xffff, 0x7d0, false, false⟩,
  ⟨0x78, 1, 0x4, 1, 0x4, .rw, 0xffff, 0x7d0, false, false⟩,
  ⟨0x7c, 1, 0x4, 1, 0x4, .rw, 0xffff, 0x3e8, false, false⟩]

def rowsPTP : List RegRow := [
  ⟨0x0, 1, 0x4, 1, 0x4, .rw, 0xffff0037, 0x0, true, false⟩,
  ⟨0x4, 1, 0x4, 1, 0x4, .ro, 0xffffffff, 0x0, false, false⟩,
  ⟨0x8, 1, 0x4, 1, 0x4, .sqc, 0xf, 0x0, false, false⟩,
  ⟨0xc, 1, 0x4, 1, 0x4, .rw, 0xf, 0x0, true, false⟩,
  ⟨0x10, 1, 0x4, 1, 0x4, .rw, 0xffffffff, 0x0, true, false⟩,
  ⟨0x14, 1, 0x4, 1, 0x4, .rw, 0xffffffff, 0x0, true, false⟩,
  ⟨0x18, 1, 0x4, 1, 0x4, .rw, 0xffffffff, 0x0, false, false⟩,
  ⟨0x1c, 1, 0x4, 1, 0x4, .rw, 0xffffffff, 0x0, false, false⟩,
  ⟨0x20, 1, 0x4, 1, 0x4, .ro, 0xffffffff, 0x0, false, false⟩,
  ⟨0x24, 1, 0x4, 1, 0x4, .ro, 0xffffffff, 0x0, false, false⟩,
  ⟨0x28, 1, 0x4, 1, 0x4, .ro, 0xffffffff, 0x0, false, false⟩,
  ⟨0x2c, 1, 0x4, 1, 0x4, .ro, 0x80ffffff, 0x0, false, false⟩,
  ⟨0x30, 1, 0x4, 1, 0x4, .ro, 0xffffffff, 0x0, false, false⟩,
  ⟨0x40, 1, 0x4, 1, 0x4, .cnt, 0xffffffff, 0x0, false, false⟩,
  ⟨0x44, 1, 0x4, 1, 0x4, .cnt, 0xffffffff, 0x0, false, false⟩,
  ⟨0x48, 1, 0x4, 1, 0x4, .cnt, 0xffffffff, 0x0, false, false⟩,
  ⟨0x4c, 1, 0x4, 1, 0x4, .cnt, 0xffffffff, 0x0, false, false⟩,
  ⟨0x50, 1, 0x4, 1, 0x4, .cnt, 0xffffffff, 0x0, false, false⟩,
  ⟨0x54, 1, 0x4, 1, 0x4, .cnt, 0xffffffff, 0x0, false, false⟩]

def rowsPRS : List RegRow := [
  ⟨0x0, 1, 0x4, 1, 0x4, .rw, 0x7ffff, 0x712b5, false, false⟩,
  ⟨0x100, 7, 0x8, 1, 0x4, .cnt, 0xffffffff, 0x0, false, false⟩,
  ⟨0x104, 7, 0x8, 1, 0x4, .cnt, 0xffffffff, 0x0, false, false⟩,
  ⟨0x1000, 64, 0x4, 1, 0x4, .rw, 0x73f03, 0x0, false, false⟩,
  ⟨0x1200, 1, 0x4, 1, 0x4, .rw, 0xffffffff, 0xfa01000, false, false⟩,
  ⟨0x1240, 16, 0x4, 1, 0x4, .rw, 0xffffffff, 0x640100, false, false⟩,
  ⟨0x1300, 16, 0x8, 1, 0x4, .cnt, 0xffffffff, 0x0, false, false⟩,
  ⟨0x1304, 16, 0x8, 1, 0x4, .cnt, 0xffffffff, 0x0, false, false⟩,
  ⟨0x1380, 16, 0x8, 1, 0x4, .cnt, 0xffffffff, 0x0, false, false⟩,
  ⟨0x1384, 16, 0x8, 1, 0x4, .cnt, 0xffffffff, 0x0, false, false⟩,
  ⟨0x1400, 5, 0x8, 1, 0x4, .cnt, 0xffffffff, 0x0, false, false⟩,
  ⟨0x1404, 5, 0x8, 1, 0x4, .cnt, 0xffffffff, 0x0, false, false⟩,
  ⟨0x1440, 1, 0x4, 1, 0x4, .cnt, 0xffffffff, 0x0, false, false⟩,
  ⟨0x1444, 1, 0x4, 1, 0x4, .cnt, 0xffffffff, 0x0, false, false⟩,
  ⟨0x1448, 1, 0x4, 1, 0x4, .cnt, 0xffffffff, 0x0, false, false⟩,
  ⟨0x144c, 1, 0x4, 1, 0x4, .cnt, 0xffffffff, 0x0, false, false⟩,
  ⟨0x1450, 1, 0x4, 1, 0x4, .cnt, 0xffffffff, 0x0, false, false⟩,
  ⟨0x1454, 1, 0x4, 1, 0x4, .cnt, 0xffffffff, 0x0, false, false⟩,
  ⟨0x1458, 1, 0x4, 1, 0x4, .cnt, 0xffffffff, 0x0, false, false⟩,
  ⟨0x145c, 1, 0x4, 1, 0x4, .cnt, 0xffffffff, 0x0, false, false⟩,
  ⟨0x1460, 1, 0x4, 1, 0x4, .cnt, 0xffffffff, 0x0, false, false⟩,
  ⟨0x1464, 1, 0x4, 1, 0x4, .cnt, 0xffffffff, 0x0, false, false⟩,
  ⟨0x1500, 1, 0x4, 1, 0x4, .sqc, 0x3f, 0x0, false, false⟩,
  ⟨0x1504, 1, 0x4, 1, 0x4, .rw, 0x3f, 0x0, false, false⟩,
  ⟨0x2000, 1, 0x4, 1, 0x4, .grd, 0xffff001f, 0x0, false, false⟩,
  ⟨0x2004, 1, 0x4, 1, 0x4, .ro, 0xbfe0ffff, 0x0, false, false⟩,
  ⟨0x2008, 1, 0x4, 1, 0x4, .rw, 0xffffffff, 0x3e8, false, false⟩,
  ⟨0x2010, 2, 0x10, 1, 0x4, .ro, 0xffff, 0x0, false, false⟩,
  ⟨0x2014, 2, 0x10, 1, 0x4, .ro, 0x800f7fff, 0x0, false, false⟩,
  ⟨0x2018, 2, 0x10, 1, 0x4, .ro, 0xffffffff, 0x0, false, false⟩,
  ⟨0x201c, 2, 0x10, 1, 0x4, .ro, 0xffffff, 0x0, false, false⟩,
  ⟨0x2040, 1, 0x4, 1, 0x4, .ro, 0xffffffff, 0x0, false, false⟩,
  ⟨0x2044, 1, 0x4, 1, 0x4, .ro, 0xffffffff, 0x0, false, false⟩,
  ⟨0x2048, 1, 0x4, 1, 0x4, .ro, 0xffffffff, 0x0, false, false⟩,
  ⟨0x204c, 1, 0x4, 1, 0x4, .ro, 0xf080ffff, 0x0, false, false⟩,
  ⟨0x2060, 1, 0x4, 1, 0x4, .sqc, 0x7f, 0x0, false, false⟩,
  ⟨0x2064, 1, 0x4, 1, 0x4, .rw, 0x7f, 0x0, false, false⟩,
  ⟨0x2070, 1, 0x4, 1, 0x4, .cnt, 0xffffffff, 0x0, false, false⟩,
  ⟨0x2074, 1, 0x4, 1, 0x4, .cnt, 0xffffffff, 0x0, false, false⟩]

def rowsQM0 : List RegRow := [
  ⟨0x0, 1, 0x4, 1, 0x4, .rw, 0xfffff, 0x4000, false, false⟩,
  ⟨0x4, 1, 0x4, 1, 0x4, .rw, 0xfffff, 0x8000, false, false⟩,
  ⟨0x8, 1, 0x4, 1, 0x4, .rw, 0xfffff, 0x10000, false, false⟩,
  ⟨0xc, 1, 0x4, 1, 0x4, .rw, 0xfffff, 0x4000, false, false⟩,
  ⟨0x10, 1, 0x4, 1, 0x4, .ro, 0xfffff, 0xa0000, false, false⟩,
  ⟨0x14, 1, 0x4, 1, 0x4, .ro, 0xfffff, 0xa0000, false, false⟩,
  ⟨0x18, 1, 0x4, 1, 0x4, .ro, 0xfffff, 0x0, false, false⟩,
  ⟨0x1c, 1, 0x4, 1, 0x4, .ro, 0xfffff, 0x0, false, false⟩,
  ⟨0x20, 1, 0x4, 1, 0x4, .ro, 0xfffff, 0x0, false, false⟩,
  ⟨0x24, 1, 0x4, 1, 0x4, .ro, 0xfffff, 0x0, false, false⟩,
  ⟨0x30, 1, 0x4, 1, 0x4, .rw, 0xffffffff, 0x18001000, false, false⟩,
  ⟨0x34, 1, 0x4, 1, 0x4, .rw, 0xffff, 0xffff, false, false⟩,
  ⟨0x40, 1, 0x4, 1, 0x4, .rw, 0x3f1f, 0x0, false, false⟩,
  ⟨0x44, 1, 0x4, 1, 0x4, .ro, 0xffffffff, 0x0, false, false⟩,
  ⟨0x48, 1, 0x4, 1, 0x4, .ro, 0xffffffff, 0x0, false, false⟩,
  ⟨0x4c, 1, 0x4, 1, 0x4, .ro, 0xffffffff, 0x0, false, false⟩,
  ⟨0x50, 1, 0x4, 1, 0x4, .ro, 0xffffffff, 0x0, false, false⟩,
  ⟨0x54, 1, 0x4, 1, 0x4, .ro, 0xffffffff, 0x0, false, false⟩,
  ⟨0x70, 1, 0x4, 1, 0x4, .sqc, 0x3f, 0x0, false, false⟩,
  ⟨0x74, 1, 0x4, 1, 0x4, .rw, 0x3f, 0x0, false, false⟩,
  ⟨0x100, 8, 0x10, 1, 0x4, .rw, 0xff01ffff, 0x10010040, false, false⟩,
  ⟨0x104, 8, 0x10, 1, 0x4, .rw, 0xffffffff, 0x1004000, false, false⟩,
  ⟨0x200, 8, 0x8, 1, 0x4, .rw, 0xffffffff, 0x18002000, false, false⟩,
  ⟨0x204, 8, 0x8, 1, 0x4, .rw, 0xffff, 0x800, false, false⟩,
  ⟨0x400, 15, 0x8, 1, 0x4, .cnt, 0xffffffff, 0x0, false, false⟩,
  ⟨0x404, 15, 0x8, 1, 0x4, .cnt, 0xffffffff, 0x0, false, false⟩,
  ⟨0x480, 1, 0x4, 1, 0x4, .cnt, 0xffffffff, 0x0, false, false⟩,
  ⟨0x484, 1, 0x4, 1, 0x4, .cnt, 0xffffffff, 0x0, false, false⟩,
  ⟨0x488, 1, 0x4, 1, 0x4, .cnt, 0xffffffff, 0x0, false, false⟩,
  ⟨0x48c, 1, 0x4, 1, 0x4, .cnt, 0xffffffff, 0x0, false, false⟩,
  ⟨0x490, 1, 0x4, 1, 0x4, .cnt, 0xffffffff, 0x0, false, false⟩,
  ⟨0x494, 1, 0x4, 1, 0x4, .cnt, 0xffffffff, 0x0, false, false⟩,
  ⟨0x498, 1, 0x4, 1, 0x4, .cnt, 0xffffffff, 0x0, false, false⟩,
  ⟨0x49c, 1, 0x4, 1, 0x4, .cnt, 0xffffffff, 0x0, false, false⟩,
  ⟨0x4a0, 1, 0x4, 1, 0x4, .cnt, 0xffffffff, 0x0, false, false⟩,
  ⟨0x4a4, 1, 0x4, 1, 0x4, .cnt, 0xffffffff, 0x0, false, false⟩,
  ⟨0x4a8, 1, 0x4, 1, 0x4, .cnt, 0xffffffff, 0x0, false, false⟩,
  ⟨0x4ac, 1, 0x4, 1, 0x4, .cnt, 0xffffffff, 0x0, false, false⟩,
  ⟨0x1000, 64, 0x80, 1, 0x4, .rw, 0x800000ff, 0x80000014, true, false⟩,
  ⟨0x1004, 64, 0x80, 2, 0x4, .rw, 0xffffff, 0x0, true, false⟩]

def rowsQM1 : List RegRow := [
  ⟨0x100c, 64, 0x80, 1, 0x4, .rw, 0xffffff, 0x0, true, false⟩,
  ⟨0x1010, 64, 0x80, 1, 0x4, .rw, 0xfff, 0x800, true, false⟩,
  ⟨0x1014, 64, 0x80, 1, 0x4, .rw, 0xffffffff, 0x0, true, false⟩,
  ⟨0x1020, 64, 0x80, 8, 0x4, .rw, 0xffff, 0x1000, true, false⟩,
  ⟨0x1040, 64, 0x80, 8, 0x4, .rw, 0xffffffff, 0x0, true, false⟩]

def rowsQM : List RegRow := rowsQM0 ++ rowsQM1

def rowsDBF : List RegRow := [
  ⟨0x0, 1, 0x4, 1, 0x4, .rw, 0x1, 0x1, false, false⟩,
  ⟨0x4, 1, 0x4, 1, 0x4, .ro, 0xffffffff, 0x0, false, false⟩,
  ⟨0x8, 1, 0x4, 1, 0x4, .ro, 0xfffffff, 0x0, false, false⟩,
  ⟨0xc, 1, 0x4, 1, 0x4, .ro, 0xfffffff, 0x0, false, false⟩,
  ⟨0x10, 1, 0x4, 1, 0x4, .ro, 0xffffffff, 0x0, false, false⟩,
  ⟨0x14, 1, 0x4, 1, 0x4, .ro, 0xffff, 0x0, false, false⟩,
  ⟨0x18, 1, 0x4, 1, 0x4, .rw, 0xff, 0x40, false, false⟩,
  ⟨0x20, 1, 0x4, 1, 0x4, .sqc, 0x1f, 0x0, false, false⟩,
  ⟨0x24, 1, 0x4, 1, 0x4, .rw, 0x1f, 0x0, false, false⟩,
  ⟨0x28, 1, 0x4, 1, 0x4, .ro, 0x8f0003ff, 0x0, false, false⟩,
  ⟨0x30, 1, 0x4, 1, 0x4, .grd, 0x800003ff, 0x0, false, false⟩,
  ⟨0x40, 1, 0x4, 1, 0x4, .cnt, 0xffffffff, 0x0, false, false⟩,
  ⟨0x44, 1, 0x4, 1, 0x4, .cnt, 0xffffffff, 0x0, false, false⟩,
  ⟨0x48, 1, 0x4, 1, 0x4, .cnt, 0xffffffff, 0x0, false, false⟩,
  ⟨0x4c, 1, 0x4, 1, 0x4, .cnt, 0xffffffff, 0x0, false, false⟩,
  ⟨0x50, 1, 0x4, 1, 0x4, .cnt, 0xffffffff, 0x0, false, false⟩,
  ⟨0x54, 1, 0x4, 1, 0x4, .cnt, 0xffffffff, 0x0, false, false⟩,
  ⟨0x58, 1, 0x4, 1, 0x4, .cnt, 0xffffffff, 0x0, false, false⟩,
  ⟨0x5c, 1, 0x4, 1, 0x4, .cnt, 0xffffffff, 0x0, false, false⟩,
  ⟨0x60, 1, 0x4, 1, 0x4, .cnt, 0xffffffff, 0x0, false, false⟩,
  ⟨0x64, 1, 0x4, 1, 0x4, .cnt, 0xffffffff, 0x0, false, false⟩,
  ⟨0x100, 28, 0x4, 1, 0x4, .ro, 0xffffffff, 0x0, false, false⟩]

def rowsRSQ0 : List RegRow := [
  ⟨0x0, 32, 0x80, 1, 0x4, .rw, 0xc0ff0fff, 0x780000, false, false⟩,
  ⟨0x4, 32, 0x80, 1, 0x4, .ro, 0xfffff, 0x0, false, false⟩,
  ⟨0x8, 32, 0x80, 1, 0x4, .wo, 0x1, 0x0, false, false⟩,
  ⟨0x40, 32, 0x80, 16, 0x4, .rw, 0xc000003f, 0x0, false, false⟩,
  ⟨0x1000, 1, 0x4, 1, 0x4, .rw, 0xffff, 0x64, false, false⟩,
  ⟨0x1004, 1, 0x4, 1, 0x4, .ro, 0x1ff, 0x0, false, false⟩,
  ⟨0x1010, 1, 0x4, 1, 0x4, .sqc, 0x1f, 0x0, false, false⟩,
  ⟨0x1014, 1, 0x4, 1, 0x4, .rw, 0x1f, 0x0, false, false⟩,
  ⟨0x1040, 1, 0x4, 1, 0x4, .cnt, 0xffffffff, 0x0, false, false⟩,
  ⟨0x1044, 1, 0x4, 1, 0x4, .cnt, 0xffffffff, 0x0, false, false⟩,
  ⟨0x1048, 1, 0x4, 1, 0x4, .cnt, 0xffffffff, 0x0, false, false⟩,
  ⟨0x104c, 1, 0x4, 1, 0x4, .cnt, 0xffffffff, 0x0, false, false⟩,
  ⟨0x1050, 1, 0x4, 1, 0x4, .cnt, 0xffffffff, 0x0, false, false⟩,
  ⟨0x1054, 1, 0x4, 1, 0x4, .cnt, 0xffffffff, 0x0, false, false⟩,
  ⟨0x1058, 1, 0x4, 1, 0x4, .cnt, 0xffffffff, 0x0, false, false⟩,
  ⟨0x105c, 1, 0x4, 1, 0x4, .cnt, 0xffffffff, 0x0, false, false⟩,
  ⟨0x8000, 1, 0x4, 1, 0x4, .rw, 0xfffff, 0x10000, false, false⟩,
  ⟨0x8004, 1, 0x4, 1, 0x4, .ro, 0xfffff, 0x0, false, false⟩,
  ⟨0x8010, 1, 0x4, 1, 0x4, .sqc, 0x3f, 0x0, false, false⟩,
  ⟨0x8014, 1, 0x4, 1, 0x4, .rw, 0x3f, 0x0, false, false⟩,
  ⟨0x8040, 1, 0x4, 1, 0x4, .cnt, 0xffffffff, 0x0, false, false⟩,
  ⟨0x8044, 1, 0x4, 1, 0x4, .cnt, 0xffffffff, 0x0, false, false⟩,
  ⟨0x8048, 1, 0x4, 1, 0x4, .cnt, 0xffffffff, 0x0, false, false⟩,
  ⟨0x804c, 1, 0x4, 1, 0x4, .cnt, 0xffffffff, 0x0, false, false⟩,
  ⟨0x8050, 1, 0x4, 1, 0x4, .cnt, 0xffffffff, 0x0, false, false⟩,
  ⟨0x8054, 1, 0x4, 1, 0x4, .cnt, 0xffffffff, 0x0, false, false⟩,
  ⟨0x8058, 1, 0x4, 1, 0x4, .cnt, 0xffffffff, 0x0, false, false⟩,
  ⟨0x805c, 1, 0x4, 1, 0x4, .cnt, 0xffffffff, 0x0, false, false⟩,
  ⟨0x8060, 1, 0x4, 1, 0x4, .cnt, 0xffffffff, 0x0, false, false⟩,
  ⟨0x8064, 1, 0x4, 1, 0x4, .cnt, 0xffffffff, 0x0, false, false⟩,
  ⟨0x10000, 4096, 0x10, 1, 0x4, .rw, 0xff0003ff, 0x32, false, false⟩,
  ⟨0x10004, 4096, 0x10, 1, 0x4, .rw, 0xffff, 0x0, false, false⟩,
  ⟨0x10008, 4096, 0x10, 1, 0x4, .ro, 0xffff31ff, 0x0, false, false⟩,
  ⟨0x1000c, 4096, 0x10, 1, 0x4, .ro, 0xffffffff, 0x0, false, false⟩,
  ⟨0x20000, 1, 0x4, 1, 0x4, .ro, 0x1fff, 0x0, false, false⟩,
  ⟨0x20010, 1, 0x4, 1, 0x4, .sqc, 0xf, 0x0, false, false⟩,
  ⟨0x20014, 1, 0x4, 1, 0x4, .rw, 0xf, 0x0, false, false⟩,
  ⟨0x20040, 1, 0x4, 1, 0x4, .cnt, 0xffffffff, 0x0, false, false⟩,
  ⟨0x20044, 1, 0x4, 1, 0x4, .cnt, 0xffffffff, 0x0, false, false⟩,
  ⟨0x20048, 1, 0x4, 1, 0x4, .cnt, 0xffffffff, 0x0, false, false⟩]

def rowsRSQ1 : List RegRow := [
  ⟨0x2004c, 1, 0x4, 1, 0x4, .cnt, 0xffffffff, 0x0, false, false⟩,
  ⟨0x20050, 1, 0x4, 1, 0x4, .cnt, 0xffffffff, 0x0, false, false⟩,
  ⟨0x20054, 1, 0x4, 1, 0x4, .cnt, 0xffffffff, 0x0, false, false⟩,
  ⟨0x20058, 1, 0x4, 1, 0x4, .cnt, 0xffffffff, 0x0, false, false⟩,
  ⟨0x2005c, 1, 0x4, 1, 0x4, .cnt, 0xffffffff, 0x0, false, false⟩,
  ⟨0x20060, 1, 0x4, 1, 0x4, .cnt, 0xffffffff, 0x0, false, false⟩,
  ⟨0x20064, 1, 0x4, 1, 0x4, .cnt, 0xffffffff, 0x0, false, false⟩,
  ⟨0x20068, 1, 0x4, 1, 0x4, .cnt, 0xffffffff, 0x0, false, false⟩,
  ⟨0x2006c, 1, 0x4, 1, 0x4, .cnt, 0xffffffff, 0x0, false, false⟩,
  ⟨0x21000, 64, 0x8, 1, 0x4, .cnt, 0xffffffff, 0x0, false, false⟩,
  ⟨0x21004, 64, 0x8, 1, 0x4, .cnt, 0xffffffff, 0x0, false, false⟩]

def rowsRSQ : List RegRow := rowsRSQ0 ++ rowsRSQ1

def rowsLLD : List RegRow := [
  ⟨0x0, 1, 0x4, 1, 0x4, .sqc, 0x1f, 0x0, false, false⟩,
  ⟨0x4, 1, 0x4, 1, 0x4, .rw, 0x1f, 0x0, false, false⟩,
  ⟨0x10, 1, 0x4, 1, 0x4, .ro, 0xffff003f, 0x0, false, false⟩,
  ⟨0x100, 13, 0x8, 1, 0x4, .cnt, 0xffffffff, 0x0, false, false⟩,
  ⟨0x104, 13, 0x8, 1, 0x4, .cnt, 0xffffffff, 0x0, false, false⟩,
  ⟨0x1000, 64, 0x40, 1, 0x4, .rw, 0x8000007f, 0x64, false, false⟩,
  ⟨0x1004, 64, 0x40, 1, 0x4, .ro, 0x1ff007f, 0x0, false, false⟩,
  ⟨0x1008, 64, 0x40, 1, 0x4, .ro, 0xffffffff, 0x0, false, false⟩,
  ⟨0x1010, 64, 0x40, 1, 0x4, .cnt, 0xffffffff, 0x0, false, false⟩,
  ⟨0x1014, 64, 0x40, 1, 0x4, .cnt, 0xffffffff, 0x0, false, false⟩,
  ⟨0x1018, 64, 0x40, 1, 0x4, .cnt, 0xffffffff, 0x0, false, false⟩,
  ⟨0x101c, 64, 0x40, 1, 0x4, .cnt, 0xffffffff, 0x0, false, false⟩,
  ⟨0x1020, 64, 0x40, 1, 0x4, .cnt, 0xffffffff, 0x0, false, false⟩,
  ⟨0x1024, 64, 0x40, 1, 0x4, .cnt, 0xffffffff, 0x0, false, false⟩,
  ⟨0x1028, 64, 0x40, 1, 0x4, .cnt, 0xffffffff, 0x0, false, false⟩,
  ⟨0x102c, 64, 0x40, 1, 0x4, .cnt, 0xffffffff, 0x0, false, false⟩,
  ⟨0x4000, 64, 0x20, 8, 0x4, .ro, 0xffffffff, 0x0, false, false⟩,
  ⟨0x8000, 65, 0x100, 64, 0x4, .rw, 0xc00fffff, 0x0, false, false⟩]

def rowsASY0 : List RegRow := [
  ⟨0x0, 1, 0x4, 1, 0x4, .rw, 0x80000000, 0x0, false, false⟩,
  ⟨0x4, 1, 0x4, 1, 0x4, .rw, 0xffffffff, 0x0, false, false⟩,
  ⟨0x8, 1, 0x4, 1, 0x4, .rw, 0xffff, 0x0, false, false⟩,
  ⟨0x10, 1, 0x4, 1, 0x4, .sqc, 0xff, 0x0, false, false⟩,
  ⟨0x14, 1, 0x4, 1, 0x4, .rw, 0xff, 0x0, false, false⟩,
  ⟨0x20, 5, 0x4, 1, 0x4, .ro, 0xfff, 0x0, false, false⟩,
  ⟨0x40, 4, 0x4, 1, 0x4, .ro, 0x1ff01fff, 0x0, false, false⟩,
  ⟨0x80, 1, 0x4, 1, 0x4, .cnt, 0xffffffff, 0x0, false, false⟩,
  ⟨0x84, 1, 0x4, 1, 0x4, .cnt, 0xffffffff, 0x0, false, false⟩,
  ⟨0x88, 1, 0x4, 1, 0x4, .cnt, 0xffffffff, 0x0, false, false⟩,
  ⟨0x8c, 1, 0x4, 1, 0x4, .cnt, 0xffffffff, 0x0, false, false⟩,
  ⟨0x90, 1, 0x4, 1, 0x4, .cnt, 0xffffffff, 0x0, false, false⟩,
  ⟨0x94, 1, 0x4, 1, 0x4, .cnt, 0xffffffff, 0x0, false, false⟩,
  ⟨0x98, 1, 0x4, 1, 0x4, .cnt, 0xffffffff, 0x0, false, false⟩,
  ⟨0x9c, 1, 0x4, 1, 0x4, .cnt, 0xffffffff, 0x0, false, false⟩,
  ⟨0xa0, 1, 0x4, 1, 0x4, .cnt, 0xffffffff, 0x0, false, false⟩,
  ⟨0xa4, 1, 0x4, 1, 0x4, .cnt, 0xffffffff, 0x0, false, false⟩,
  ⟨0xa8, 1, 0x4, 1, 0x4, .cnt, 0xffffffff, 0x0, false, false⟩,
  ⟨0xac, 1, 0x4, 1, 0x4, .cnt, 0xffffffff, 0x0, false, false⟩,
  ⟨0xb0, 1, 0x4, 1, 0x4, .cnt, 0xffffffff, 0x0, false, false⟩,
  ⟨0xb4, 1, 0x4, 1, 0x4, .cnt, 0xffffffff, 0x0, false, false⟩,
  ⟨0xb8, 1, 0x4, 1, 0x4, .cnt, 0xffffffff, 0x0, false, false⟩,
  ⟨0xbc, 1, 0x4, 1, 0x4, .cnt, 0xffffffff, 0x0, false, false⟩,
  ⟨0xc0, 1, 0x4, 1, 0x4, .cnt, 0xffffffff, 0x0, false, false⟩,
  ⟨0xc4, 1, 0x4, 1, 0x4, .cnt, 0xffffffff, 0x0, false, false⟩,
  ⟨0x100, 1, 0x4, 1, 0x4, .rw, 0xffc7ffff, 0x0, false, false⟩,
  ⟨0x104, 1, 0x4, 1, 0x4, (.ftime 2), 0xffffffff, 0x0, false, false⟩,
  ⟨0x108, 1, 0x4, 1, 0x4, (.ftime 1), 0xffffffff, 0x0, false, false⟩,
  ⟨0x10c, 1, 0x4, 1, 0x4, (.ftime 0), 0xffffffff, 0x0, false, false⟩,
  ⟨0x110, 1, 0x4, 1, 0x4, .wo, 0x3, 0x0, false, false⟩,
  ⟨0x114, 1, 0x4, 1, 0x4, .ro, 0xff0fffff, 0x0, false, false⟩,
  ⟨0x118, 1, 0x4, 1, 0x4, .sqc, 0x7, 0x0, false, false⟩,
  ⟨0x11c, 1, 0x4, 1, 0x4, .rw, 0x7, 0x0, false, false⟩,
  ⟨0x10000, 256, 0x80, 1, 0x4, .rw, 0xffffe000, 0x0, false, false⟩,
  ⟨0x10004, 256, 0x80, 1, 0x4, .rw, 0xfffff, 0x1, false, false⟩,
  ⟨0x10008, 256, 0x80, 1, 0x4, .rw, 0xfffff, 0x0, false, false⟩,
  ⟨0x1000c, 256, 0x80, 1, 0x4, .rw, 0xfffff, 0x3e8, false, false⟩,
  ⟨0x10010, 256, 0x80, 1, 0x4, .rw, 0xffff, 0x1, false, false⟩,
  ⟨0x10014, 256, 0x80, 1, 0x4, .rw, 0xffffffff, 0x0, false, false⟩,
  ⟨0x10018, 256, 0x80, 1, 0x4, .rw, 0xffff, 0x0, false, false⟩]

def rowsASY1 : List RegRow := [
  ⟨0x1001c, 256, 0x80, 1, 0x4, .rw, 0xffffff, 0x1, false, false⟩,
  ⟨0x10020, 256, 0x80, 1, 0x4, .rw, 0xfffff, 0x0, false, false⟩,
  ⟨0x10024, 256, 0x80, 1, 0x4, .rw, 0x1ff03ff, 0x0, false, false⟩,
  ⟨0x10028, 256, 0x80, 1, 0x4, .rw, 0xf0003fff, 0x0, false, false⟩,
  ⟨0x1002c, 256, 0x80, 1, 0x4, .rw, 0xffffffff, 0x0, false, false⟩,
  ⟨0x10030, 256, 0x80, 1, 0x4, .rw, 0xffff, 0x0, false, false⟩,
  ⟨0x10034, 256, 0x80, 1, 0x4, .rw, 0xffff, 0x0, false, false⟩,
  ⟨0x10038, 256, 0x80, 1, 0x4, .rw, 0xffffffff, 0x0, false, false⟩,
  ⟨0x1003c, 256, 0x80, 1, 0x4, .ro, 0xfc0fffff, 0x0, false, false⟩,
  ⟨0x10040, 256, 0x80, 1, 0x4, .sqc, 0x1f, 0x0, false, false⟩,
  ⟨0x10044, 256, 0x80, 1, 0x4, .rw, 0x1f, 0x0, false, false⟩,
  ⟨0x10048, 256, 0x80, 1, 0x4, .ro, 0xffffffff, 0x0, false, false⟩,
  ⟨0x10050, 256, 0x80, 1, 0x4, .cnt, 0xffffffff, 0x0, false, false⟩,
  ⟨0x10054, 256, 0x80, 1, 0x4, .cnt, 0xffffffff, 0x0, false, false⟩,
  ⟨0x10058, 256, 0x80, 1, 0x4, .cnt, 0xffffffff, 0x0, false, false⟩,
  ⟨0x1005c, 256, 0x80, 1, 0x4, .cnt, 0xffffffff, 0x0, false, false⟩,
  ⟨0x10060, 256, 0x80, 1, 0x4, .cnt, 0xffffffff, 0x0, false, false⟩,
  ⟨0x10064, 256, 0x80, 1, 0x4, .cnt, 0xffffffff, 0x0, false, false⟩,
  ⟨0x10068, 256, 0x80, 1, 0x4, .cnt, 0xffffffff, 0x0, false, false⟩,
  ⟨0x1006c, 256, 0x80, 1, 0x4, .cnt, 0xffffffff, 0x0, false, false⟩,
  ⟨0x10070, 256, 0x80, 1, 0x4, .cnt, 0xffffffff, 0x0, false, false⟩,
  ⟨0x10074, 256, 0x80, 1, 0x4, .cnt, 0xffffffff, 0x0, false, false⟩,
  ⟨0x10078, 256, 0x80, 1, 0x4, .cnt, 0xffffffff, 0x0, false, false⟩,
  ⟨0x1007c, 256, 0x80, 1, 0x4, .cnt, 0xffffffff, 0x0, false, false⟩]

def rowsASY : List RegRow := rowsASY0 ++ rowsASY1

def rowsPORT : List RegRow := [
  ⟨0x0, 1, 0x4, 1, 0x4, .rw, 0xff073f, 0x0, true, false⟩,
  ⟨0x4, 1, 0x4, 1, 0x4, .rw, 0x1ffe, 0x1ffe, true, false⟩,
  ⟨0x8, 1, 0x4, 1, 0x4, .rw, 0x1, 0x0, true, false⟩,
  ⟨0xc, 1, 0x4, 1, 0x4, .ro, 0xffffffff, 0x0, false, false⟩,
  ⟨0x10, 1, 0x4, 1, 0x4, .sqc, 0x3ff, 0x0, false, false⟩,
  ⟨0x14, 1, 0x4, 1, 0x4, .rw, 0x3ff, 0x0, true, false⟩,
  ⟨0x18, 1, 0x4, 1, 0x4, .ro, 0x803fffff, 0x0, false, false⟩,
  ⟨0x20, 1, 0x4, 1, 0x4, .cnt, 0xffffffff, 0x0, false, false⟩,
  ⟨0x24, 1, 0x4, 1, 0x4, .cnt, 0xffffffff, 0x0, false, false⟩,
  ⟨0x28, 1, 0x4, 1, 0x4, .cnt, 0xffffffff, 0x0, false, false⟩,
  ⟨0x2c, 1, 0x4, 1, 0x4, .cnt, 0xffffffff, 0x0, false, false⟩,
  ⟨0x30, 1, 0x4, 1, 0x4, .cnt, 0xffffffff, 0x0, false, false⟩,
  ⟨0x34, 1, 0x4, 1, 0x4, .cnt, 0xffffffff, 0x0, false, false⟩,
  ⟨0x40, 1, 0x4, 1, 0x4, .rw, 0xffffffff, 0x0, false, false⟩,
  ⟨0x44, 1, 0x4, 1, 0x4, .rw, 0xffff, 0x0, false, false⟩,
  ⟨0x100, 1, 0x4, 1, 0x4, .ro, 0xffff0f, 0x0, false, false⟩,
  ⟨0x104, 1, 0x4, 1, 0x4, .ro, 0x80ffffff, 0x0, false, false⟩,
  ⟨0x108, 1, 0x4, 1, 0x4, .ro, 0xffffffff, 0x0, false, false⟩,
  ⟨0x120, 8, 0x4, 1, 0x4, .rw, 0xffff, 0x800, false, false⟩,
  ⟨0x140, 1, 0x4, 1, 0x4, .cnt, 0xffffffff, 0x0, false, false⟩,
  ⟨0x144, 1, 0x4, 1, 0x4, .cnt, 0xffffffff, 0x0, false, false⟩,
  ⟨0x148, 1, 0x4, 1, 0x4, .cnt, 0xffffffff, 0x0, false, false⟩,
  ⟨0x14c, 1, 0x4, 1, 0x4, .cnt, 0xffffffff, 0x0, false, false⟩,
  ⟨0x150, 1, 0x4, 1, 0x4, .cnt, 0xffffffff, 0x0, false, false⟩,
  ⟨0x154, 1, 0x4, 1, 0x4, .cnt, 0xffffffff, 0x0, false, false⟩,
  ⟨0x158, 1, 0x4, 1, 0x4, .cnt, 0xffffffff, 0x0, false, false⟩,
  ⟨0x15c, 1, 0x4, 1, 0x4, .cnt, 0xffffffff, 0x0, false, false⟩]

def rowsLANE : List RegRow := [
  ⟨0x0, 1, 0x4, 1, 0x4, .rw, 0x3e, 0x0, true, false⟩,
  ⟨0x4, 1, 0x4, 1, 0x4, .ro, 0xffffffff, 0x0, false, false⟩,
  ⟨0x8, 1, 0x4, 1, 0x4, .sqc, 0x3f, 0x0, false, false⟩,
  ⟨0xc, 1, 0x4, 1, 0x4, .rw, 0x3f, 0x0, true, false⟩,
  ⟨0x10, 1, 0x4, 1, 0x4, .rw, 0xffff0000, 0x80000000, true, false⟩,
  ⟨0x14, 1, 0x4, 1, 0x4, .ro, 0xffffffff, 0x0, false, false⟩,
  ⟨0x18, 1, 0x4, 1, 0x4, .grd, 0x3, 0x0, false, false⟩,
  ⟨0x20, 1, 0x4, 1, 0x4, .ro, 0x3ffffff, 0x0, false, true⟩,
  ⟨0x24, 1, 0x4, 1, 0x4, .ro, 0x3ffffff, 0x0, false, true⟩,
  ⟨0x28, 1, 0x4, 1, 0x4, .ro, 0xff, 0x0, false, false⟩,
  ⟨0x30, 1, 0x4, 1, 0x4, .cnt, 0xffffffff, 0x0, false, false⟩,
  ⟨0x34, 1, 0x4, 1, 0x4, .cnt, 0xffffffff, 0x0, false, false⟩,
  ⟨0x40, 1, 0x4, 1, 0x4, .rw, 0xffffffff, 0x8100608, true, false⟩,
  ⟨0x44, 1, 0x4, 1, 0x4, .rw, 0x7, 0x0, true, false⟩,
  ⟨0x60, 7, 0x4, 1, 0x4, .ro, 0xffffffff, 0x0, false, false⟩,
  ⟨0x100, 3, 0x20, 7, 0x4, .rw, 0xffffffff, 0x0, true, false⟩,
  ⟨0x200, 1, 0x4, 1, 0x4, .rw, 0x7ff, 0x0, true, false⟩,
  ⟨0x204, 1, 0x4, 1, 0x4, .ro, 0x1, 0x0, false, false⟩,
  ⟨0x208, 1, 0x4, 1, 0x4, .cnt, 0xffffffff, 0x0, false, false⟩,
  ⟨0x20c, 1, 0x4, 1, 0x4, .cnt, 0xffffffff, 0x0, false, false⟩]

def rowsTBL : List RegRow := [
  ⟨0x0, 65536, 0x80, 32, 0x4, .rw, 0xffffffff, 0x0, false, false⟩,
  ⟨0x800000, 65536, 0x8, 1, 0x4, .cnt, 0xffffffff, 0x0, false, false⟩,
  ⟨0x800004, 65536, 0x8, 1, 0x4, .cnt, 0xffffffff, 0x0, false, false⟩,
  ⟨0xa00000, 16384, 0x20, 8, 0x4, .rw, 0xffffffff, 0x0, false, false⟩,
  ⟨0x940000, 32, 0x100, 64, 0x4, .rw, 0xf0f0f0f, 0x0, false, false⟩,
  ⟨0x900000, 16384, 0x10, 4, 0x4, .rw, 0xffffffff, 0x0, false, false⟩]

/-- The blocks of BAR0 (R357). -/
def blocks : List Block := [
  ⟨0x0, 0x10000, 0x10000, rowsGLB⟩,
  ⟨0x10000, 0x10000, 0x10000, rowsPWR⟩,
  ⟨0x20000, 0x10000, 0x10000, rowsINT⟩,
  ⟨0x30000, 0x10000, 0x10000, rowsPMC⟩,
  ⟨0x40000, 0x10000, 0x10000, rowsSNP⟩,
  ⟨0x50000, 0x10000, 0x10000, rowsMEM⟩,
  ⟨0x60000, 0x10000, 0x10000, rowsTAC⟩,
  ⟨0x70000, 0x10000, 0x10000, rowsHOST⟩,
  ⟨0x100000, 0x10000, 0x10000, rowsTCO⟩,
  ⟨0x110000, 0x10000, 0x10000, rowsTIM⟩,
  ⟨0x120000, 0x20000, 0x20000, rowsREF⟩,
  ⟨0x140000, 0x20000, 0x20000, rowsPLS⟩,
  ⟨0x160000, 0x10000, 0x10000, rowsCAL⟩,
  ⟨0x180000, 0x20000, 0x800, rowsPTP⟩,
  ⟨0x200000, 0x100000, 0x100000, rowsPRS⟩,
  ⟨0x300000, 0x80000, 0x80000, rowsQM⟩,
  ⟨0x380000, 0x40000, 0x40000, rowsDBF⟩,
  ⟨0x3c0000, 0x40000, 0x40000, rowsRSQ⟩,
  ⟨0x400000, 0x40000, 0x40000, rowsLLD⟩,
  ⟨0x440000, 0xc0000, 0xc0000, rowsASY⟩,
  ⟨0x800000, 0x100000, 0x4000, rowsPORT⟩,
  ⟨0x1000000, 0x200000, 0x1000, rowsLANE⟩,
  ⟨0x2000000, 0x1000000, 0x1000000, rowsTBL⟩]

/-- The block that holds the address, if one does. The apertures are no blocks. -/
def blockOf (a : Nat) : Option Block :=
  blocks.find? fun b => decide (b.base ≤ a) && decide (a < b.base + b.size)

/-- The register row of the address, if the address names a register (R358). -/
def rowOf (a : Nat) : Option RegRow :=
  match blockOf a with
  | none => none
  | some b => b.rows.find? fun r => r.covers ((a - b.base) % b.stride)

/-- The reset value of the register at the address. DEVICE of GLB.FUSE_INFO is 0x0064 (R48's table of GLB.FUSE_INFO). -/
def resetOf (a : Nat) : Word :=
  match rowOf a with
  | none => 0
  | some r =>
    if r.fuse then
      (if a = 4 then 0x00640000 ||| (Config.fuseWord a &&& 0x0000FF01) else Config.fuseWord a &&& BitVec.ofNat 32 r.mask)
    else BitVec.ofNat 32 r.reset

/-- The implemented bits of the register at the address. -/
def maskOf (a : Nat) : Nat :=
  match rowOf a with
  | none => 0
  | some r => r.mask

/-! The addresses of the registers. An array of registers takes its indexes in the order of the manual's name. -/


def A.GLB_ZONE_CTRL : Nat := 0x400
def A.GLB_ZONE_STAT : Nat := 0x404
def A.GLB_ZONE_EVT : Nat := 0x408
def A.GLB_ZONE_TMO : Nat := 0x40c
def A.GLB_AERR_INFO : Nat := 0x40
def A.GLB_AERR_ADDR : Nat := 0x44
def A.GLB_AERR_CLR : Nat := 0x48
def A.GLB_AERR_CNT_LO : Nat := 0x50
def A.GLB_AERR_CNT_HI : Nat := 0x54
def A.GLB_AERR_EVT : Nat := 0x58
def A.GLB_AERR_EVT_EN : Nat := 0x5c
def A.SNP_CFG : Nat := 0x40000
def A.SNP_CTRL : Nat := 0x40004
def A.SNP_STAT : Nat := 0x40008
def A.SNP_EVT : Nat := 0x4000c
def A.SNP_EVT_EN : Nat := 0x40010
def A.SNP_AT_W2 : Nat := 0x40020
def A.SNP_AT_W1 : Nat := 0x40024
def A.SNP_AT_W0 : Nat := 0x40028
def A.SNP_AT_TAG : Nat := 0x4002c
def A.SNP_MISS_INFO : Nat := 0x40030
def A.SNP_MISSED_LO : Nat := 0x40038
def A.SNP_MISSED_HI : Nat := 0x4003c
def A.SNP_LAST_SEQ : Nat := 0x40040
def A.SNP_VALID (i : Nat) : Nat := 0x40048 + i * 0x4
def A.SNP_LOCK (i : Nat) : Nat := 0x40050 + i * 0x4
def A.SNP_FREE (i : Nat) : Nat := 0x40058 + i * 0x4
def A.SNP_LIST_WORDS : Nat := 0x40060
def A.SNP_RD_SEL : Nat := 0x40070
def A.SNP_LIST (i : Nat) : Nat := 0x41000 + i * 0x4
def A.SNP_RD (i : Nat) : Nat := 0x48000 + i * 0x4
def A.INT_SWSET : Nat := 0x20010
def A.INT_PEND (i : Nat) : Nat := 0x20400 + i * 0x4
def A.INT_ACT (i : Nat) : Nat := 0x20480 + i * 0x4
def A.INT_T_CFG (i : Nat) : Nat := 0x20100 + i * 0x10
def A.INT_T_NEXT (i : Nat) : Nat := 0x20104 + i * 0x10
def A.INT_T_CLAIM (i : Nat) : Nat := 0x20108 + i * 0x10
def A.INT_T_EOI (i : Nat) : Nat := 0x2010c + i * 0x10
def A.INT_SRC (i : Nat) : Nat := 0x21000 + i * 0x4
def A.HOST_MBX_DB : Nat := 0x70000
def A.HOST_MBX_STAT : Nat := 0x70004
def A.HOST_MBX_REQ (i : Nat) : Nat := 0x70100 + i * 0x4
def A.HOST_MBX_RSP (i : Nat) : Nat := 0x70200 + i * 0x4
def A.HOST_RING_BASE_LO (i : Nat) : Nat := 0x71000 + i * 0x40
def A.HOST_RING_BASE_HI (i : Nat) : Nat := 0x71004 + i * 0x40
def A.HOST_RING_CFG (i : Nat) : Nat := 0x71008 + i * 0x40
def A.HOST_RING_PROD (i : Nat) : Nat := 0x7100c + i * 0x40
def A.HOST_RING_CONS (i : Nat) : Nat := 0x71010 + i * 0x40
def A.HOST_RING_TEL_GRP (i : Nat) : Nat := 0x71014 + i * 0x40
def A.HOST_RING_TEL_PER (i : Nat) : Nat := 0x71018 + i * 0x40
def A.HOST_RING_DROP_LO (i : Nat) : Nat := 0x71020 + i * 0x40
def A.HOST_RING_DROP_HI (i : Nat) : Nat := 0x71024 + i * 0x40
def A.HOST_MSIX (i : Nat) (j : Nat) : Nat := 0x78000 + i * 0x10 + j * 0x4
def A.HOST_MSIX_CTL (i : Nat) : Nat := 0x7800c + i * 0x10
def A.HOST_PBA : Nat := 0x79000
def A.PMC_CTRL : Nat := 0x30000
def A.PMC_CLR : Nat := 0x30004
def A.PMC_STAT : Nat := 0x30008
def A.PMC_UPAGE : Nat := 0x30010
def A.PMC_G_SEL (i : Nat) (j : Nat) : Nat := 0x30100 + i * 0x40 + j * 0x4
def A.PMC_G_EVT (i : Nat) : Nat := 0x30120 + i * 0x40
def A.PMC_G_EVT_EN (i : Nat) : Nat := 0x30124 + i * 0x40
def A.PMC_CYC_LO (i : Nat) : Nat := 0x31000 + i * 0x80
def A.PMC_CYC_HI (i : Nat) : Nat := 0x31004 + i * 0x80
def A.PMC_CTR_LO (i : Nat) (j : Nat) : Nat := 0x31008 + i * 0x80 + j * 0x8
def A.PMC_CTR_HI (i : Nat) (j : Nat) : Nat := 0x3100c + i * 0x80 + j * 0x8
def A.PMC_SHADOW (i : Nat) (j : Nat) : Nat := 0x34000 + i * 0x80 + j * 0x4
def A.PMC_USER (i : Nat) : Nat := 0x38000 + i * 0x4
def A.MEM_MARCH_CTRL : Nat := 0x50010
def A.MEM_MARCH_STAT : Nat := 0x50014
def A.MEM_EVT : Nat := 0x50020
def A.MEM_EVT_EN : Nat := 0x50024
def A.MEM_WIN_SEL : Nat := 0x50030
def A.MEM_LAST_ERR : Nat := 0x50034
def A.MEM_CAPT_STAT : Nat := 0x50040
def A.MEM_CAPT_RD : Nat := 0x50044
def A.MEM_BANK_CTRL (i : Nat) : Nat := 0x50100 + i * 0x10
def A.MEM_BANK_STAT (i : Nat) : Nat := 0x50104 + i * 0x10
def A.MEM_WIN (i : Nat) : Nat := 0x58000 + i * 0x4
def A.TCO_CTRL : Nat := 0x100000
def A.TCO_CFG : Nat := 0x100004
def A.TCO_STAT : Nat := 0x100008
def A.TCO_EVT : Nat := 0x10000c
def A.TCO_EVT_EN : Nat := 0x100010
def A.TCO_TRK_ERR : Nat := 0x100014
def A.TCO_SWO_INFO : Nat := 0x100018
def A.TCO_SWO_W2 : Nat := 0x100020
def A.TCO_SWO_W1 : Nat := 0x100024
def A.TCO_SWO_W0 : Nat := 0x100028
def A.TCO_HEALTH (i : Nat) : Nat := 0x100030 + i * 0x4
def A.CAL_CTRL : Nat := 0x160000
def A.CAL_SEL : Nat := 0x160004
def A.CAL_RANGE : Nat := 0x160008
def A.CAL_STAT : Nat := 0x16000c
def A.CAL_EVT : Nat := 0x160010
def A.CAL_EVT_EN : Nat := 0x160014
def A.CAL_COUNT : Nat := 0x160018
def A.CAL_LAST_REJ : Nat := 0x16001c
def A.CAL_LOAD_STAT : Nat := 0x160020
def A.CAL_GEN : Nat := 0x160024
def A.CAL_TRIM_SEL : Nat := 0x160028
def A.CAL_TRIM_VAL : Nat := 0x16002c
def A.CAL_TRIM_INFO : Nat := 0x160030
def A.CAL_TEMP : Nat := 0x160034
def A.CAL_SAVE_CTRL : Nat := 0x160040
def A.CAL_TOL1 : Nat := 0x160060
def A.CAL_TOL2 : Nat := 0x160064
def A.CAL_TOL3 : Nat := 0x160068
def A.CAL_TOL4 : Nat := 0x16006c
def A.CAL_TOL5 : Nat := 0x160070
def A.CAL_TOL6 : Nat := 0x160074
def A.CAL_TOL7 : Nat := 0x160078
def A.CAL_TOL8 : Nat := 0x16007c
def A.PRS_CFG : Nat := 0x200000
def A.PRS_FAIL_LO (i : Nat) : Nat := 0x200100 + i * 0x8
def A.PRS_FAIL_HI (i : Nat) : Nat := 0x200104 + i * 0x8
def A.CLS_PDEF (i : Nat) : Nat := 0x201000 + i * 0x4
def A.CLS_PUNT_GLB : Nat := 0x201200
def A.CLS_PUNT_BKT (i : Nat) : Nat := 0x201240 + i * 0x4
def A.CLS_PUNT_OK_LO (i : Nat) : Nat := 0x201300 + i * 0x8
def A.CLS_PUNT_OK_HI (i : Nat) : Nat := 0x201304 + i * 0x8
def A.CLS_PUNT_XS_LO (i : Nat) : Nat := 0x201380 + i * 0x8
def A.CLS_PUNT_XS_HI (i : Nat) : Nat := 0x201384 + i * 0x8
def A.CLS_DEF_LO (i : Nat) : Nat := 0x201400 + i * 0x8
def A.CLS_DEF_HI (i : Nat) : Nat := 0x201404 + i * 0x8
def A.CLS_MISS_LO : Nat := 0x201440
def A.CLS_MISS_HI : Nat := 0x201444
def A.CLS_RECIRC_LIMIT_LO : Nat := 0x201448
def A.CLS_RECIRC_LIMIT_HI : Nat := 0x20144c
def A.CLS_RING_DROP_LO : Nat := 0x201450
def A.CLS_RING_DROP_HI : Nat := 0x201454
def A.CLS_CAPT_DROP_LO : Nat := 0x201458
def A.CLS_CAPT_DROP_HI : Nat := 0x20145c
def A.CLS_MOULD_ERR_LO : Nat := 0x201460
def A.CLS_MOULD_ERR_HI : Nat := 0x201464
def A.CLS_EVT : Nat := 0x201500
def A.CLS_EVT_EN : Nat := 0x201504
def A.HEAT_CTRL : Nat := 0x202000
def A.HEAT_STAT : Nat := 0x202004
def A.HEAT_CFG : Nat := 0x202008
def A.HEAT_SLOT_NUM (i : Nat) : Nat := 0x202010 + i * 0x10
def A.HEAT_SLOT_SEAL (i : Nat) : Nat := 0x202014 + i * 0x10
def A.HEAT_SLOT_CRC (i : Nat) : Nat := 0x202018 + i * 0x10
def A.HEAT_SLOT_REFS (i : Nat) : Nat := 0x20201c + i * 0x10
def A.HEAT_CMT_W2 : Nat := 0x202040
def A.HEAT_CMT_W1 : Nat := 0x202044
def A.HEAT_CMT_W0 : Nat := 0x202048
def A.HEAT_CMT_INFO : Nat := 0x20204c
def A.HEAT_EVT : Nat := 0x202060
def A.HEAT_EVT_EN : Nat := 0x202064
def A.HEAT_ORPHAN_LO : Nat := 0x202070
def A.HEAT_ORPHAN_HI : Nat := 0x202074
def A.TBL_MOULD (i : Nat) (j : Nat) : Nat := 0x2000000 + i * 0x80 + j * 0x4
def A.TBL_HITS_LO (i : Nat) : Nat := 0x2800000 + i * 0x8
def A.TBL_HITS_HI (i : Nat) : Nat := 0x2800004 + i * 0x8
def A.ASY_CFG : Nat := 0x440000
def A.ASY_SMAC_LO : Nat := 0x440004
def A.ASY_SMAC_HI : Nat := 0x440008
def A.ASY_EVT : Nat := 0x440010
def A.ASY_EVT_EN : Nat := 0x440014
def A.ASY_INQ (i : Nat) : Nat := 0x440020 + i * 0x4
def A.ASY_ESL_STAT (i : Nat) : Nat := 0x440040 + i * 0x4
def A.ASY_PRIMS_LO : Nat := 0x440080
def A.ASY_PRIMS_HI : Nat := 0x440084
def A.ASY_BAD_FRAME_LO : Nat := 0x440088
def A.ASY_BAD_FRAME_HI : Nat := 0x44008c
def A.ASY_BAD_PRIM_LO : Nat := 0x440090
def A.ASY_BAD_PRIM_HI : Nat := 0x440094
def A.ASY_NO_SRC_LO : Nat := 0x440098
def A.ASY_NO_SRC_HI : Nat := 0x44009c
def A.ASY_FUTURE_LO : Nat := 0x4400a0
def A.ASY_FUTURE_HI : Nat := 0x4400a4
def A.ASY_INTAKE_DROP_LO : Nat := 0x4400a8
def A.ASY_INTAKE_DROP_HI : Nat := 0x4400ac
def A.ASY_ESL_DROP_LO : Nat := 0x4400b0
def A.ASY_ESL_DROP_HI : Nat := 0x4400b4
def A.ASY_TRUNC_LO : Nat := 0x4400b8
def A.ASY_TRUNC_HI : Nat := 0x4400bc
def A.ASY_PLS_DROP_LO : Nat := 0x4400c0
def A.ASY_PLS_DROP_HI : Nat := 0x4400c4
def A.ASY_MIG_CFG : Nat := 0x440100
def A.ASY_MIG_T_W2 : Nat := 0x440104
def A.ASY_MIG_T_W1 : Nat := 0x440108
def A.ASY_MIG_T_W0 : Nat := 0x44010c
def A.ASY_MIG_CTRL : Nat := 0x440110
def A.ASY_MIG_STAT : Nat := 0x440114
def A.ASY_MIG_EVT : Nat := 0x440118
def A.ASY_MIG_EVT_EN : Nat := 0x44011c
def A.ASY_CTX_CFG (i : Nat) : Nat := 0x450000 + i * 0x80
def A.ASY_CTX_WIN (i : Nat) : Nat := 0x450004 + i * 0x80
def A.ASY_CTX_OFF (i : Nat) : Nat := 0x450008 + i * 0x80
def A.ASY_CTX_CLOSE (i : Nat) : Nat := 0x45000c + i * 0x80
def A.ASY_CTX_MTHR (i : Nat) : Nat := 0x450010 + i * 0x80
def A.ASY_CTX_STHR_LO (i : Nat) : Nat := 0x450014 + i * 0x80
def A.ASY_CTX_STHR_HI (i : Nat) : Nat := 0x450018 + i * 0x80
def A.ASY_CTX_PRESCALE (i : Nat) : Nat := 0x45001c + i * 0x80
def A.ASY_CTX_HOLDOFF (i : Nat) : Nat := 0x450020 + i * 0x80
def A.ASY_CTX_HIST (i : Nat) : Nat := 0x450024 + i * 0x80
def A.ASY_CTX_DEST (i : Nat) : Nat := 0x450028 + i * 0x80
def A.ASY_CTX_DMAC_LO (i : Nat) : Nat := 0x45002c + i * 0x80
def A.ASY_CTX_DMAC_HI (i : Nat) : Nat := 0x450030 + i * 0x80
def A.ASY_CTX_TTYPE (i : Nat) : Nat := 0x450034 + i * 0x80
def A.ASY_CTX_PDLY (i : Nat) : Nat := 0x450038 + i * 0x80
def A.ASY_CTX_STAT (i : Nat) : Nat := 0x45003c + i * 0x80
def A.ASY_CTX_EVT (i : Nat) : Nat := 0x450040 + i * 0x80
def A.ASY_CTX_EVT_EN (i : Nat) : Nat := 0x450044 + i * 0x80
def A.ASY_CTX_ACC_SEQ (i : Nat) : Nat := 0x450048 + i * 0x80
def A.ASY_CTX_PASSED_LO (i : Nat) : Nat := 0x450050 + i * 0x80
def A.ASY_CTX_PASSED_HI (i : Nat) : Nat := 0x450054 + i * 0x80
def A.ASY_CTX_ACCEPTS_LO (i : Nat) : Nat := 0x450058 + i * 0x80
def A.ASY_CTX_ACCEPTS_HI (i : Nat) : Nat := 0x45005c + i * 0x80
def A.ASY_CTX_VETOED_LO (i : Nat) : Nat := 0x450060 + i * 0x80
def A.ASY_CTX_VETOED_HI (i : Nat) : Nat := 0x450064 + i * 0x80
def A.ASY_CTX_LATE_LO (i : Nat) : Nat := 0x450068 + i * 0x80
def A.ASY_CTX_LATE_HI (i : Nat) : Nat := 0x45006c + i * 0x80
def A.ASY_CTX_HIST_FULL_LO (i : Nat) : Nat := 0x450070 + i * 0x80
def A.ASY_CTX_HIST_FULL_HI (i : Nat) : Nat := 0x450074 + i * 0x80
def A.ASY_CTX_IGNORED_LO (i : Nat) : Nat := 0x450078 + i * 0x80
def A.ASY_CTX_IGNORED_HI (i : Nat) : Nat := 0x45007c + i * 0x80
def A.TBL_SRC (i : Nat) (j : Nat) : Nat := 0x2a00000 + i * 0x20 + j * 0x4
def A.TAC_CFG : Nat := 0x60000
def A.TAC_DOWN_EXCL_LO : Nat := 0x60004
def A.TAC_DOWN_EXCL_HI : Nat := 0x60008
def A.TAC_STAT : Nat := 0x6000c
def A.TAC_DOWN_LO : Nat := 0x60010
def A.TAC_DOWN_HI : Nat := 0x60014
def A.TAC_EVT : Nat := 0x60018
def A.TAC_EVT_EN : Nat := 0x6001c
def A.TAC_SMAC_LO : Nat := 0x60020
def A.TAC_SMAC_HI : Nat := 0x60024
def A.TAC_EXPECT_LO : Nat := 0x60028
def A.TAC_EXPECT_HI : Nat := 0x6002c
def A.TAC_EXPECT_CLR_LO : Nat := 0x60030
def A.TAC_EXPECT_CLR_HI : Nat := 0x60034
def A.TAC_ORIG_CTRL : Nat := 0x60040
def A.TAC_ORIG_T_W2 : Nat := 0x60044
def A.TAC_ORIG_T_W1 : Nat := 0x60048
def A.TAC_ORIG_T_W0 : Nat := 0x6004c
def A.TAC_ORIG_WAIT : Nat := 0x60050
def A.TAC_ORIG_STAT : Nat := 0x60054
def A.TAC_ORIG_ARG (i : Nat) : Nat := 0x60060 + i * 0x4
def A.TAC_RES_DONE : Nat := 0x60080
def A.TAC_RES_LATE : Nat := 0x60084
def A.TAC_RES_FAILED : Nat := 0x60088
def A.TAC_RES_REJ : Nat := 0x6008c
def A.TAC_RES_PEND : Nat := 0x60090
def A.TAC_RES_MISS : Nat := 0x60094
def A.TAC_RES_FIRST : Nat := 0x60098
def A.TAC_RX_LO : Nat := 0x60100
def A.TAC_RX_HI : Nat := 0x60104
def A.TAC_BAD_LO : Nat := 0x60108
def A.TAC_BAD_HI : Nat := 0x6010c
def A.TAC_DUP_LO : Nat := 0x60110
def A.TAC_DUP_HI : Nat := 0x60114
def A.TAC_WRONG_PORT_LO : Nat := 0x60118
def A.TAC_WRONG_PORT_HI : Nat := 0x6011c
def A.TAC_REP_LATE_LO : Nat := 0x60120
def A.TAC_REP_LATE_HI : Nat := 0x60124
def A.TAC_SLOT (i : Nat) (j : Nat) : Nat := 0x60200 + i * 0x20 + j * 0x4
def A.PWR_STAT : Nat := 0x10000
def A.PWR_SHED (i : Nat) : Nat := 0x10004 + i * 0x4
def A.PWR_GOV_CTRL : Nat := 0x10010
def A.PWR_SHED_RANK (i : Nat) : Nat := 0x10020 + i * 0x4
def A.PWR_RST_CTRL : Nat := 0x10040
def A.GLB_FUSE_INFO : Nat := 0x4
def A.GLB_SERIAL_LO : Nat := 0x8
def A.GLB_SERIAL_HI : Nat := 0xc
def A.GLB_BOOT_STAT : Nat := 0x10
def A.GLB_BOOT_CTRL : Nat := 0x18
def A.GLB_NODE_ID : Nat := 0x20
def A.PWR_SLEEP_CTRL : Nat := 0x10050
def A.PWR_SLEEP_CFG : Nat := 0x10054
def A.PWR_WAKE_W2 : Nat := 0x10060
def A.PWR_WAKE_W1 : Nat := 0x10064
def A.PWR_WAKE_W0 : Nat := 0x10068
def A.GLB_LANE_GRP (i : Nat) (j : Nat) : Nat := 0x1000 + i * 0x40 + j * 0x4
def A.LANE_CTRL (i : Nat) : Nat := 0x1000000 + i * 0x1000
def A.LANE_STAT (i : Nat) : Nat := 0x1000004 + i * 0x1000
def A.LANE_EVT (i : Nat) : Nat := 0x1000008 + i * 0x1000
def A.LANE_EVT_EN (i : Nat) : Nat := 0x100000c + i * 0x1000
def A.LANE_MON (i : Nat) : Nat := 0x1000010 + i * 0x1000
def A.LANE_FAULT (i : Nat) : Nat := 0x1000014 + i * 0x1000
def A.LANE_FAULT_CTRL (i : Nat) : Nat := 0x1000018 + i * 0x1000
def A.LANE_DLY_TX (i : Nat) : Nat := 0x1000020 + i * 0x1000
def A.LANE_DLY_RX (i : Nat) : Nat := 0x1000024 + i * 0x1000
def A.LANE_DESER (i : Nat) : Nat := 0x1000028 + i * 0x1000
def A.LANE_ERR_CNT_LO (i : Nat) : Nat := 0x1000030 + i * 0x1000
def A.LANE_ERR_CNT_HI (i : Nat) : Nat := 0x1000034 + i * 0x1000
def A.LANE_EQ_WIN (i : Nat) : Nat := 0x1000040 + i * 0x1000
def A.LANE_EQ_VALID (i : Nat) : Nat := 0x1000044 + i * 0x1000
def A.LANE_EQ_ADP (i : Nat) (j : Nat) : Nat := 0x1000060 + i * 0x1000 + j * 0x4
def A.LANE_EQ_TBL (i : Nat) (j : Nat) (k : Nat) : Nat := 0x1000100 + i * 0x1000 + j * 0x20 + k * 0x4
def A.LANE_TEST (i : Nat) : Nat := 0x1000200 + i * 0x1000
def A.LANE_TEST_STAT (i : Nat) : Nat := 0x1000204 + i * 0x1000
def A.LANE_TEST_ERR_LO (i : Nat) : Nat := 0x1000208 + i * 0x1000
def A.LANE_TEST_ERR_HI (i : Nat) : Nat := 0x100020c + i * 0x1000
def A.TIM_LATCH : Nat := 0x110010
def A.TIM_ARM : Nat := 0x110020
def A.TIM_TB0_SRC : Nat := 0x110100
def A.TIM_TBN_SRC (i : Nat) : Nat := 0x110140 + i * 0x40
def A.TIM_TB_STAT (i : Nat) : Nat := 0x110104 + i * 0x40
def A.TIM_TB_EVT (i : Nat) : Nat := 0x110108 + i * 0x40
def A.TIM_TB_EVT_EN (i : Nat) : Nat := 0x11010c + i * 0x40
def A.TIM_TB_RATE (i : Nat) : Nat := 0x110110 + i * 0x40
def A.TIM_TB_RATE_MAN (i : Nat) : Nat := 0x110114 + i * 0x40
def A.TIM_TB_OFFSET (i : Nat) : Nat := 0x110118 + i * 0x40
def A.TIM_TB_SERVO (i : Nat) : Nat := 0x11011c + i * 0x40
def A.TIM_TB_THR (i : Nat) : Nat := 0x110120 + i * 0x40
def A.TIM_TB_THR2 (i : Nat) : Nat := 0x110124 + i * 0x40
def A.TIM_TB_HOLD (i : Nat) : Nat := 0x110128 + i * 0x40
def A.TIM_TB_TIME_W2 (i : Nat) : Nat := 0x11012c + i * 0x40
def A.TIM_TB_TIME_W1 (i : Nat) : Nat := 0x110130 + i * 0x40
def A.TIM_TB_TIME_W0 (i : Nat) : Nat := 0x110134 + i * 0x40
def A.TIM_TB_OUTLIERS (i : Nat) : Nat := 0x110138 + i * 0x40
def A.TIM_TB_SET_W2 (i : Nat) : Nat := 0x110500 + i * 0x10
def A.TIM_TB_SET_W1 (i : Nat) : Nat := 0x110504 + i * 0x10
def A.TIM_TB_SET_W0 (i : Nat) : Nat := 0x110508 + i * 0x10
def A.TIM_TB_LAT_W2 (i : Nat) : Nat := 0x110400 + i * 0x10
def A.TIM_TB_LAT_W1 (i : Nat) : Nat := 0x110404 + i * 0x10
def A.TIM_TB_LAT_W0 (i : Nat) : Nat := 0x110408 + i * 0x10
def A.PTP_CFG (i : Nat) : Nat := 0x180000 + i * 0x800
def A.PTP_STAT (i : Nat) : Nat := 0x180004 + i * 0x800
def A.PTP_EVT (i : Nat) : Nat := 0x180008 + i * 0x800
def A.PTP_EVT_EN (i : Nat) : Nat := 0x18000c + i * 0x800
def A.PTP_TX_ADJ (i : Nat) : Nat := 0x180010 + i * 0x800
def A.PTP_RX_ADJ (i : Nat) : Nat := 0x180014 + i * 0x800
def A.PTP_ASYM_ALPHA (i : Nat) : Nat := 0x180018 + i * 0x800
def A.PTP_ASYM_FIX (i : Nat) : Nat := 0x18001c + i * 0x800
def A.PTP_DELAY_MS (i : Nat) : Nat := 0x180020 + i * 0x800
def A.PTP_DELAY_SM (i : Nat) : Nat := 0x180024 + i * 0x800
def A.PTP_OFFSET (i : Nat) : Nat := 0x180028 + i * 0x800
def A.PTP_PHASE (i : Nat) : Nat := 0x18002c + i * 0x800
def A.PTP_FREQ (i : Nat) : Nat := 0x180030 + i * 0x800
def A.PTP_SAMPLES_LO (i : Nat) : Nat := 0x180040 + i * 0x800
def A.PTP_SAMPLES_HI (i : Nat) : Nat := 0x180044 + i * 0x800
def A.PTP_REJECTS_LO (i : Nat) : Nat := 0x180048 + i * 0x800
def A.PTP_REJECTS_HI (i : Nat) : Nat := 0x18004c + i * 0x800
def A.PTP_DISCARDS_LO (i : Nat) : Nat := 0x180050 + i * 0x800
def A.PTP_DISCARDS_HI (i : Nat) : Nat := 0x180054 + i * 0x800
def A.GLB_PORT_GRP (i : Nat) (j : Nat) : Nat := 0x1400 + i * 0x8 + j * 0x4
def A.PORT_CFG (i : Nat) : Nat := 0x800000 + i * 0x4000
def A.PORT_ALLOWED (i : Nat) : Nat := 0x800004 + i * 0x4000
def A.PORT_CTRL (i : Nat) : Nat := 0x800008 + i * 0x4000
def A.PORT_STAT (i : Nat) : Nat := 0x80000c + i * 0x4000
def A.PORT_EVT (i : Nat) : Nat := 0x800010 + i * 0x4000
def A.PORT_EVT_EN (i : Nat) : Nat := 0x800014 + i * 0x4000
def A.PORT_PARTNER (i : Nat) : Nat := 0x800018 + i * 0x4000
def A.PORT_QUENCH_CNT_LO (i : Nat) : Nat := 0x800020 + i * 0x4000
def A.PORT_QUENCH_CNT_HI (i : Nat) : Nat := 0x800024 + i * 0x4000
def A.PORT_DOWN_DROP_LO (i : Nat) : Nat := 0x800028 + i * 0x4000
def A.PORT_DOWN_DROP_HI (i : Nat) : Nat := 0x80002c + i * 0x4000
def A.PORT_PAUSE_RX_LO (i : Nat) : Nat := 0x800030 + i * 0x4000
def A.PORT_PAUSE_RX_HI (i : Nat) : Nat := 0x800034 + i * 0x4000
def A.PORT_SMAC_LO (i : Nat) : Nat := 0x800040 + i * 0x4000
def A.PORT_SMAC_HI (i : Nat) : Nat := 0x800044 + i * 0x4000
def A.PORT_TRK_STAT (i : Nat) : Nat := 0x800100 + i * 0x4000
def A.PORT_TRK_RTT (i : Nat) : Nat := 0x800104 + i * 0x4000
def A.PORT_TRK_MAP (i : Nat) : Nat := 0x800108 + i * 0x4000
def A.PORT_TRK_GRANT (i : Nat) (j : Nat) : Nat := 0x800120 + i * 0x4000 + j * 0x4
def A.PORT_TRK_CRC_LO (i : Nat) : Nat := 0x800140 + i * 0x4000
def A.PORT_TRK_CRC_HI (i : Nat) : Nat := 0x800144 + i * 0x4000
def A.PORT_TRK_RESENT_LO (i : Nat) : Nat := 0x800148 + i * 0x4000
def A.PORT_TRK_RESENT_HI (i : Nat) : Nat := 0x80014c + i * 0x4000
def A.PORT_TRK_LOST_LO (i : Nat) : Nat := 0x800150 + i * 0x4000
def A.PORT_TRK_LOST_HI (i : Nat) : Nat := 0x800154 + i * 0x4000
def A.PORT_TRK_MALFORMED_LO (i : Nat) : Nat := 0x800158 + i * 0x4000
def A.PORT_TRK_MALFORMED_HI (i : Nat) : Nat := 0x80015c + i * 0x4000
def A.QM_POOL_LL : Nat := 0x300000
def A.QM_POOL_HDRM : Nat := 0x300004
def A.QM_POOL_STAGE : Nat := 0x300008
def A.QM_POOL_RCX : Nat := 0x30000c
def A.QM_SHARED : Nat := 0x300010
def A.QM_FREE : Nat := 0x300014
def A.QM_USE_LL : Nat := 0x300018
def A.QM_USE_HDRM : Nat := 0x30001c
def A.QM_USE_STAGE : Nat := 0x300020
def A.QM_USE_RCX : Nat := 0x300024
def A.QM_GLB_TH : Nat := 0x300030
def A.QM_PFC_CFG : Nat := 0x300034
def A.QM_OCC_SEL : Nat := 0x300040
def A.QM_OCC_CRU : Nat := 0x300044
def A.QM_OCC_DEEP : Nat := 0x300048
def A.QM_OCC_Q : Nat := 0x30004c
def A.QM_OCC_PG : Nat := 0x300050
def A.QM_OCC_PG_HDRM : Nat := 0x300054
def A.QM_EVT : Nat := 0x300070
def A.QM_EVT_EN : Nat := 0x300074
def A.QM_QPROF_A (i : Nat) : Nat := 0x300100 + i * 0x10
def A.QM_QPROF_B (i : Nat) : Nat := 0x300104 + i * 0x10
def A.QM_PGPROF_A (i : Nat) : Nat := 0x300200 + i * 0x8
def A.QM_PGPROF_B (i : Nat) : Nat := 0x300204 + i * 0x8
def A.QM_SLAG_LO (i : Nat) : Nat := 0x300400 + i * 0x8
def A.QM_SLAG_HI (i : Nat) : Nat := 0x300404 + i * 0x8
def A.QM_CT_FRAMES_LO : Nat := 0x300480
def A.QM_CT_FRAMES_HI : Nat := 0x300484
def A.QM_CT_STOMP_LO : Nat := 0x300488
def A.QM_CT_STOMP_HI : Nat := 0x30048c
def A.QM_CRU_CE_LO : Nat := 0x300490
def A.QM_CRU_CE_HI : Nat := 0x300494
def A.QM_CRU_UE_LO : Nat := 0x300498
def A.QM_CRU_UE_HI : Nat := 0x30049c
def A.QM_RCX_PASSES_LO : Nat := 0x3004a0
def A.QM_RCX_PASSES_HI : Nat := 0x3004a4
def A.QM_PFC_TX_LO : Nat := 0x3004a8
def A.QM_PFC_TX_HI : Nat := 0x3004ac
def A.QM_P_CFG (i : Nat) : Nat := 0x301000 + i * 0x80
def A.QM_P_QSEL (i : Nat) (j : Nat) : Nat := 0x301004 + i * 0x80 + j * 0x4
def A.QM_P_PGSEL (i : Nat) : Nat := 0x30100c + i * 0x80
def A.QM_P_SCHED (i : Nat) : Nat := 0x301010 + i * 0x80
def A.QM_P_SHAPE (i : Nat) : Nat := 0x301014 + i * 0x80
def A.QM_P_QUANT (i : Nat) (j : Nat) : Nat := 0x301020 + i * 0x80 + j * 0x4
def A.QM_P_CSHAPE (i : Nat) (j : Nat) : Nat := 0x301040 + i * 0x80 + j * 0x4
def A.DBF_CTRL : Nat := 0x380000
def A.DBF_STAT : Nat := 0x380004
def A.DBF_CAP : Nat := 0x380008
def A.DBF_FREE : Nat := 0x38000c
def A.DBF_RATE : Nat := 0x380010
def A.DBF_LIMIT : Nat := 0x380014
def A.DBF_PREFETCH : Nat := 0x380018
def A.DBF_EVT : Nat := 0x380020
def A.DBF_EVT_EN : Nat := 0x380024
def A.DBF_LAST_ERR : Nat := 0x380028
def A.DBF_UNRETIRE : Nat := 0x380030
def A.DBF_READ_CE_LO : Nat := 0x380040
def A.DBF_READ_CE_HI : Nat := 0x380044
def A.DBF_RETRY_FAIL_LO : Nat := 0x380048
def A.DBF_RETRY_FAIL_HI : Nat := 0x38004c
def A.DBF_CELL_LOST_LO : Nat := 0x380050
def A.DBF_CELL_LOST_HI : Nat := 0x380054
def A.DBF_CELLS_WR_LO : Nat := 0x380058
def A.DBF_CELLS_WR_HI : Nat := 0x38005c
def A.DBF_CELLS_RD_LO : Nat := 0x380060
def A.DBF_CELLS_RD_HI : Nat := 0x380064
def A.DBF_RETIRED (i : Nat) : Nat := 0x380100 + i * 0x4
def A.SPR_GRP_CFG (i : Nat) : Nat := 0x3c0000 + i * 0x80
def A.SPR_GRP_STAT (i : Nat) : Nat := 0x3c0004 + i * 0x80
def A.SPR_GRP_CTRL (i : Nat) : Nat := 0x3c0008 + i * 0x80
def A.SPR_GRP_MEM (i : Nat) (j : Nat) : Nat := 0x3c0040 + i * 0x80 + j * 0x4
def A.SPR_MIG_CFG : Nat := 0x3c1000
def A.SPR_MIG_ACTIVE : Nat := 0x3c1004
def A.SPR_EVT : Nat := 0x3c1010
def A.SPR_EVT_EN : Nat := 0x3c1014
def A.SPR_NO_MEMBER_LO : Nat := 0x3c1040
def A.SPR_NO_MEMBER_HI : Nat := 0x3c1044
def A.SPR_TOO_LONG_LO : Nat := 0x3c1048
def A.SPR_TOO_LONG_HI : Nat := 0x3c104c
def A.SPR_MIG_HOLDS_LO : Nat := 0x3c1050
def A.SPR_MIG_HOLDS_HI : Nat := 0x3c1054
def A.SPR_MIG_OVF_LO : Nat := 0x3c1058
def A.SPR_MIG_OVF_HI : Nat := 0x3c105c
def A.RSQ_CFG : Nat := 0x3c8000
def A.RSQ_USE : Nat := 0x3c8004
def A.RSQ_EVT : Nat := 0x3c8010
def A.RSQ_EVT_EN : Nat := 0x3c8014
def A.RSQ_BYPASS_LO : Nat := 0x3c8040
def A.RSQ_BYPASS_HI : Nat := 0x3c8044
def A.RSQ_BAD_TAG_LO : Nat := 0x3c8048
def A.RSQ_BAD_TAG_HI : Nat := 0x3c804c
def A.RSQ_GAPS_LO : Nat := 0x3c8050
def A.RSQ_GAPS_HI : Nat := 0x3c8054
def A.RSQ_LATE_LO : Nat := 0x3c8058
def A.RSQ_LATE_HI : Nat := 0x3c805c
def A.RSQ_DUP_LO : Nat := 0x3c8060
def A.RSQ_DUP_HI : Nat := 0x3c8064
def A.RSQ_CTX_CFG (i : Nat) : Nat := 0x3d0000 + i * 0x10
def A.RSQ_CTX_NODE (i : Nat) : Nat := 0x3d0004 + i * 0x10
def A.RSQ_CTX_STAT (i : Nat) : Nat := 0x3d0008 + i * 0x10
def A.RSQ_CTX_CNT (i : Nat) : Nat := 0x3d000c + i * 0x10
def A.LDL_STAT : Nat := 0x3e0000
def A.LDL_EVT : Nat := 0x3e0010
def A.LDL_EVT_EN : Nat := 0x3e0014
def A.LDL_FRAMES_LO : Nat := 0x3e0040
def A.LDL_FRAMES_HI : Nat := 0x3e0044
def A.LDL_COPIES_LO : Nat := 0x3e0048
def A.LDL_COPIES_HI : Nat := 0x3e004c
def A.LDL_FIFO_FULL_LO : Nat := 0x3e0050
def A.LDL_FIFO_FULL_HI : Nat := 0x3e0054
def A.LDL_INVALID_LO : Nat := 0x3e0058
def A.LDL_INVALID_HI : Nat := 0x3e005c
def A.LDL_EMPTY_LO : Nat := 0x3e0060
def A.LDL_EMPTY_HI : Nat := 0x3e0064
def A.LDL_PRUNED_LO : Nat := 0x3e0068
def A.LDL_PRUNED_HI : Nat := 0x3e006c
def A.LDL_DROP_LO (i : Nat) : Nat := 0x3e1000 + i * 0x8
def A.LDL_DROP_HI (i : Nat) : Nat := 0x3e1004 + i * 0x8
def A.LLD_EVT : Nat := 0x400000
def A.LLD_EVT_EN : Nat := 0x400004
def A.LLD_LOG_STAT : Nat := 0x400010
def A.LLD_CAUSE_LO (i : Nat) : Nat := 0x400100 + i * 0x8
def A.LLD_CAUSE_HI (i : Nat) : Nat := 0x400104 + i * 0x8
def A.LLD_P_CFG (i : Nat) : Nat := 0x401000 + i * 0x40
def A.LLD_P_STAT (i : Nat) : Nat := 0x401004 + i * 0x40
def A.LLD_P_RLAST (i : Nat) : Nat := 0x401008 + i * 0x40
def A.LLD_P_SENT_LO (i : Nat) : Nat := 0x401010 + i * 0x40
def A.LLD_P_SENT_HI (i : Nat) : Nat := 0x401014 + i * 0x40
def A.LLD_P_LATE_LO (i : Nat) : Nat := 0x401018 + i * 0x40
def A.LLD_P_LATE_HI (i : Nat) : Nat := 0x40101c + i * 0x40
def A.LLD_P_DROP_LO (i : Nat) : Nat := 0x401020 + i * 0x40
def A.LLD_P_DROP_HI (i : Nat) : Nat := 0x401024 + i * 0x40
def A.LLD_P_WITHHELD_LO (i : Nat) : Nat := 0x401028 + i * 0x40
def A.LLD_P_WITHHELD_HI (i : Nat) : Nat := 0x40102c + i * 0x40
def A.LLD_LOG (i : Nat) (j : Nat) : Nat := 0x404000 + i * 0x20 + j * 0x4
def A.LLD_L (i : Nat) (j : Nat) : Nat := 0x408000 + i * 0x100 + j * 0x4
def A.TBL_PIN (i : Nat) (j : Nat) : Nat := 0x2940000 + i * 0x100 + j * 0x4
def A.TBL_LADLE (i : Nat) (j : Nat) : Nat := 0x2900000 + i * 0x10 + j * 0x4
def A.REF_XO_STAT : Nat := 0x120000
def A.REF_SEL_CTRL : Nat := 0x120010
def A.REF_SEL_STAT : Nat := 0x120014
def A.REF_EVT : Nat := 0x120018
def A.REF_EVT_EN : Nat := 0x12001c
def A.REF_EQ_THR : Nat := 0x120020
def A.REF_SUSP_CLR : Nat := 0x120024
def A.REF_RCVD_SEL : Nat := 0x120028
def A.REF_CFG (i : Nat) : Nat := 0x120100 + i * 0x20
def A.REF_FREQ (i : Nat) : Nat := 0x120104 + i * 0x20
def A.REF_FREQ_RCVD (i : Nat) : Nat := 0x120184 + i * 0x20
def A.REF_LIM (i : Nat) : Nat := 0x120108 + i * 0x20
def A.REF_STAT (i : Nat) : Nat := 0x12010c + i * 0x20
def A.REF_FOFS (i : Nat) : Nat := 0x120110 + i * 0x20
def A.REF_OFFSET (i : Nat) : Nat := 0x120114 + i * 0x20
def A.PLL_SYNC_CFG : Nat := 0x130000
def A.PLL_LOL_DROP_LO : Nat := 0x130010
def A.PLL_LOL_DROP_HI : Nat := 0x130014
def A.PLL_CPLL_STAT (i : Nat) : Nat := 0x130020 + i * 0x4
def A.PLL_PLOL (i : Nat) : Nat := 0x130060 + i * 0x4
def A.PLL_CPLL_EVT : Nat := 0x130070
def A.PLL_CPLL_EVT_EN : Nat := 0x130074
def A.PLL_SYN_CFG (i : Nat) : Nat := 0x130100 + i * 0x40
def A.PLL_SYN_N (i : Nat) : Nat := 0x130104 + i * 0x40
def A.PLL_SYN_SUB (i : Nat) : Nat := 0x130108 + i * 0x40
def A.PLL_SYN_OD (i : Nat) : Nat := 0x13010c + i * 0x40
def A.PLL_SYN_FRAME (i : Nat) : Nat := 0x130110 + i * 0x40
def A.PLL_SYN_OFFSET (i : Nat) : Nat := 0x130114 + i * 0x40
def A.PLL_SYN_ALIGN (i : Nat) : Nat := 0x130118 + i * 0x40
def A.PLL_SYN_NT (i : Nat) : Nat := 0x13011c + i * 0x40
def A.PLL_SYN_NT_SUB (i : Nat) : Nat := 0x130120 + i * 0x40
def A.PLL_SYN_RAMP (i : Nat) : Nat := 0x130124 + i * 0x40
def A.PLL_SYN_STAT (i : Nat) : Nat := 0x130128 + i * 0x40
def A.PLL_SYN_EVT (i : Nat) : Nat := 0x13012c + i * 0x40
def A.PLL_SYN_EVT_EN (i : Nat) : Nat := 0x130130 + i * 0x40
def A.PLL_SYN_ALERR (i : Nat) : Nat := 0x130134 + i * 0x40
def A.PLL_SYN_AT_W2 (i : Nat) : Nat := 0x130400 + i * 0x10
def A.PLL_SYN_AT_W1 (i : Nat) : Nat := 0x130404 + i * 0x10
def A.PLL_SYN_AT_W0 (i : Nat) : Nat := 0x130408 + i * 0x10
def A.PLL_RAMP_SEG (i : Nat) (j : Nat) : Nat := 0x131000 + i * 0x40 + j * 0x4
def A.PLS_ARM : Nat := 0x140000
def A.PLS_STOP : Nat := 0x140004
def A.PLS_ALERR (i : Nat) : Nat := 0x140200 + i * 0x4
def A.PLS_EXT_DROP (i : Nat) : Nat := 0x140280 + i * 0x4
def A.PLS_OUT_CFG (i : Nat) : Nat := 0x141000 + i * 0x40
def A.PLS_OUT_CTRL (i : Nat) : Nat := 0x141004 + i * 0x40
def A.PLS_OUT_STAT (i : Nat) : Nat := 0x141008 + i * 0x40
def A.PLS_OUT_EVT (i : Nat) : Nat := 0x14100c + i * 0x40
def A.PLS_OUT_EVT_EN (i : Nat) : Nat := 0x141010 + i * 0x40
def A.PLS_OUT_START_W2 (i : Nat) : Nat := 0x141014 + i * 0x40
def A.PLS_OUT_START_W1 (i : Nat) : Nat := 0x141018 + i * 0x40
def A.PLS_OUT_START_W0 (i : Nat) : Nat := 0x14101c + i * 0x40
def A.PLS_OUT_PERIOD_NS (i : Nat) : Nat := 0x141020 + i * 0x40
def A.PLS_OUT_PERIOD_FR (i : Nat) : Nat := 0x141024 + i * 0x40
def A.PLS_OUT_WIDTH (i : Nat) : Nat := 0x141028 + i * 0x40
def A.PLS_OUT_COUNT (i : Nat) : Nat := 0x14102c + i * 0x40
def A.PLS_OUT_OFFSET (i : Nat) : Nat := 0x141030 + i * 0x40
def A.PLS_OUT_BURST_DLY (i : Nat) : Nat := 0x141034 + i * 0x40
def A.PLS_OUT_FIRED (i : Nat) : Nat := 0x141038 + i * 0x40
def A.PLS_OUT_MISSED (i : Nat) : Nat := 0x14103c + i * 0x40
def A.TDC_GATE_CFG : Nat := 0x150000
def A.TDC_GATE_STAT : Nat := 0x150004
def A.TDC_UNRETIRE : Nat := 0x150010
def A.TDC_ARM_ALL : Nat := 0x150020
def A.TDC_CH_CFG (i : Nat) : Nat := 0x151000 + i * 0x200
def A.TDC_CH_THR (i : Nat) : Nat := 0x151004 + i * 0x200
def A.TDC_CH_WIN (i : Nat) : Nat := 0x151008 + i * 0x200
def A.TDC_CH_CTRL (i : Nat) : Nat := 0x15100c + i * 0x200
def A.TDC_CH_STAT (i : Nat) : Nat := 0x151010 + i * 0x200
def A.TDC_CH_EVT (i : Nat) : Nat := 0x151014 + i * 0x200
def A.TDC_CH_EVT_EN (i : Nat) : Nat := 0x151018 + i * 0x200
def A.TDC_CH_STAT_CFG (i : Nat) : Nat := 0x15101c + i * 0x200
def A.TDC_CH_RES_SEQ (i : Nat) : Nat := 0x151020 + i * 0x200
def A.TDC_CH_START_W2 (i : Nat) : Nat := 0x151024 + i * 0x200
def A.TDC_CH_START_W1 (i : Nat) : Nat := 0x151028 + i * 0x200
def A.TDC_CH_START_W0 (i : Nat) : Nat := 0x15102c + i * 0x200
def A.TDC_CH_GATE_T (i : Nat) : Nat := 0x151030 + i * 0x200
def A.TDC_CH_N_USED (i : Nat) : Nat := 0x151040 + i * 0x200
def A.TDC_CH_N_SKIP (i : Nat) : Nat := 0x151060 + i * 0x200
def A.TDC_CH_MEAN_LO (i : Nat) : Nat := 0x151044 + i * 0x200
def A.TDC_CH_MEAN_HI (i : Nat) : Nat := 0x151048 + i * 0x200
def A.TDC_CH_SD (i : Nat) : Nat := 0x15104c + i * 0x200
def A.TDC_CH_MIN_LO (i : Nat) : Nat := 0x151050 + i * 0x200
def A.TDC_CH_MIN_HI (i : Nat) : Nat := 0x151054 + i * 0x200
def A.TDC_CH_MAX_LO (i : Nat) : Nat := 0x151058 + i * 0x200
def A.TDC_CH_MAX_HI (i : Nat) : Nat := 0x15105c + i * 0x200
def A.TDC_CH_STOP_LO (i : Nat) (j : Nat) : Nat := 0x151100 + i * 0x200 + j * 0x8
def A.TDC_CH_STOP_HI (i : Nat) (j : Nat) : Nat := 0x151104 + i * 0x200 + j * 0x8

end Sys2Proof.Machine
end

