-- ==== Sys2Proof/Machine/State.lean ====
section
/-! DEFINITION. The state of the FX64 as plain data, the reasons a command can stop, and the state right after reset. -/

namespace Sys2Proof.Machine

/-- The timers of the device: each is a deadline in true time (ns). -/
inductive Timer where
  | laneSignal (l : Nat) | laneCdr (l : Nat) | laneAdapt (l : Nat) | laneRecheck (l : Nat) | laneRetry (l : Nat)
  | laneResume (l : Nat)
  | coalesce (t : Nat)
  | tbHold (n : Nat) | snapOut | bankChange (b : Nat)
  | pfcPause (p : Nat) (c : Nat) | pfcRepeat (p : Nat) (c : Nat)
  | migration (g : Nat) (bucket : Nat)
  | anRestart (p : Nat) | suPartner (p : Nat) | suSlow (p : Nat) | suQual (p : Nat) | suFast (p : Nat) | holdRetry (p : Nat)
  | trunkAlign (p : Nat) | trunkHello (p : Nat) | conflictRetry (p : Nat)
  | refQual (k : Nat) | refWtr
  | synRelock (k : Nat) | synRetry (k : Nat) | synSeg (k : Nat)
  | loop (i : Nat)
  | tdcWin (i : Nat) | tdcRearm (i : Nat)
  | coreTrack | calBusy | calSave
  | bootWait | fwReady | fallback
  | govTick | govBelow | govRamp
  | sleepDrain
  deriving DecidableEq, Repr

/-- A guard sequence that waits for its complement (R362). -/
structure GuardSeq where
  addr  : Nat
  value : Word
  /-- true time up to which the complement is awaited -/
  till  : Nat
  deriving DecidableEq, Repr

/-- A write that waits at a node whose island stands still (R26, R182): the requester, the address it wrote, the register,
the value, and whether it came through an aperture. -/
structure HeldWrite where
  req  : Req
  acc  : Nat
  addr : Nat
  v    : Nat
  ap   : Bool
  deriving DecidableEq, Repr

/-- A write access that waits in the management complex while its island stands still (R26, R182): its address, its width in
bytes and its words, or the value of a guarded pair. -/
structure HeldAccess where
  addr    : Nat
  bytes   : Nat
  data    : List Word
  guarded : Bool
  deriving DecidableEq, Repr

/-- What leaves the device, oldest first: the record of its outputs. -/
inductive Out where
  /-- an access completed with an error response -/
  | errorResponse (r : Req) (addr : Nat)
  /-- an MSI-X message on a vector: address and data of its table entry -/
  | msix (vector : Nat) (addr : Nat) (data : Word)
  /-- a PCIe power management event message -/
  | pme
  /-- a memory write to the host: address and bytes -/
  | hostWrite (addr : Nat) (bytes : List Byte)
  /-- the 100 ns pulse on SNAP_OUT (R372) -/
  | snapOut
  /-- a frame starts on a port: bytes to the end of the FCS, and the TB0 time of its start. A frame that was lost on the
  line because the port's island stopped (R183) has no bytes -/
  | frame (p : Nat) (bytes : List Byte) (t : Nat)
  /-- an edge of a pulse output: whether it becomes active, and the time on its time base, in ps -/
  | pulse (k : Nat) (rising : Bool) (t : Nat)
  /-- an instruction goes to a flash device (R226): the device, SPI_CLK in MHz, the instruction, its address bytes and its
  address, and the data -/
  | flashOp (dev mhz instr width addr : Nat) (bytes : List Byte)
  /-- a PTP message that the hardware generates on an Ethernet port (R146): its frame, and the egress timestamp of an event
  message -/
  | ptp (p : Nat) (bytes : List Byte) (t : Nat)
  /-- a lane marker of a trunk (R103): port lane and its 32 bytes -/
  | marker (p : Nat) (lane : Nat) (bytes : List Byte)
  /-- a link block of a trunk (R107): its 528 bytes, and the logical lanes on which its 66 blocks leave (R103) -/
  | link (p : Nat) (lanes : List Nat) (bytes : List Byte)
  /-- the blocks of the step-up page that a port sends from now on, over and over (R99): sync header and payload -/
  | page (p : Nat) (blocks : List (Nat × List Byte))
  /-- a sector of a flash device is erased, bytes of it are programmed (R387) -/
  | flashErase (dev addr : Nat)
  | flashProgram (dev addr : Nat) (bytes : List Byte)
  /-- bytes are written to module memory: port, bank and page, offset (R387) -/
  | cmisWrite (p : Nat) (bankPage : Nat) (offset : Nat) (bytes : List Byte)
  /-- a timed-action frame leaves ahead of the queues (R344, R353) -/
  | action (p : Nat) (bytes : List Byte)
  /-- a PFC frame: destination and source address, class-enable vector and quanta (R113, R262) -/
  | pfc (p : Nat) (dmac smac : Nat) (vector : Nat) (quanta : Nat)
  /-- the bits that leave at TDO in the Shift states of a scan of the test port, first to last (R422) -/
  | tdo (bits : List Bool)
  /-- the output bits of a scan of the sideband chain, in the order in which they leave (R414) -/
  | sideband (bits : List Nat)
  deriving DecidableEq, Repr

/-- What a lane holds beside its registers. -/
structure LaneHidden where
  /-- waking from sleep: POWERUP leads to RESUME -/
  waking     : Bool := false
  /-- when SERVICE was entered -/
  inService  : Nat := 0
  /-- when the failed attempts of the window came (R89) -/
  fails      : List Nat := []
  /-- link training runs in the attempt (R73); it ran to its end (R82), with the transmit taps and the precoding it ended
  with -/
  training   : Bool := false
  trained    : Bool := false
  trainedTx  : Word := 0
  trainedPre : Bool := false
  /-- when the lane last entered SERVICE or changed rate (RATECHG of R140) -/
  changed    : Option Nat := none
  /-- the table words that the receiver and transmitter apply, and the transmit taps of that set -/
  applied    : List Word := []
  tableTx    : Word := 0
  /-- no bit slip since SERVICE was entered (R86) -/
  noSlip     : Bool := true
  deriving DecidableEq, Repr

/-- The link of the host interface (R46, R384): not trained, in L0, in L1, on its way out of L1, the function in
D3hot. -/
inductive HostLink where
  | down | l0 | l1 | l1Exit | d3hot
  deriving DecidableEq, Repr

/-- What the INT block holds beside its registers. -/
structure IntHidden where
  /-- per target: raises counted for coalescing (R383) -/
  count    : List (Nat × Nat) := []
  /-- per target: the claimed sources that are active, the latest first (R381) -/
  nest     : List (Nat × List Nat) := []
  /-- messages that wait for the link or for the function to return to D0, oldest first -/
  held     : List Nat := []
  link     : HostLink := .down
  funcMask : Bool := false
  /-- PME_En, as the host wrote it with the power state of the function -/
  pmeEn    : Bool := false
  deriving DecidableEq, Repr

/-- A step of TB1 to TB7 that is decided at the end of a switch-over gap (R212): by a difference in 2^-48 ns, or to an
FTIME. -/
inductive LaterStep where
  | delta (d : Int)
  | target (t : Nat)
  deriving DecidableEq, Repr

/-- What a time base holds beside its registers. -/
structure TbHidden where
  /-- the accumulator (R122), in 2^-48 ns -/
  acc       : Nat := 0
  /-- the remainder of the advances below 2^-48 ns, over 10^12 -/
  residue   : Nat := 0
  /-- the integral term (R129), in 2^-24 ppt -/
  integ     : Int := 0
  /-- the rate that the applied rate moves towards (ppt) -/
  target    : Int := 0
  /-- true time (ns) since the applied rate last moved by 1 ppt -/
  slewed    : Nat := 0
  /-- the last accepted sample (R130), in 2^-16 ns -/
  thetaLast : Option Int := none
  /-- consecutive outliers discarded -/
  discards  : Nat := 0
  /-- consecutive accepted samples beyond, and within, the alarm limit -/
  beyond    : Nat := 0
  inside    : Nat := 0
  /-- the latest frequency estimates of ACQ (ppt), the latest first -/
  estimates : List Int := []
  /-- a step that waits for X (R128): the difference in 2^-48 ns, and X in 2^-16 ns -/
  step      : Option (Int × Nat) := none
  later     : Option LaterStep := none
  /-- true time of the last applied step -/
  stepAt    : Option Nat := none
  deriving DecidableEq, Repr

/-- An event message that a trunk sends (R139, R146): messageType, sequenceId, and the source address of its transport. -/
structure PtpEvent where
  kind : Nat
  seq  : Nat
  addr : Nat
  deriving DecidableEq, Repr

/-- What the PTP block of a port holds beside its registers. -/
structure PtpHidden where
  /-- t1 and t2 of the latest Sync (R148), in 2^-16 ns -/
  sync     : Option (Int × Nat) := none
  /-- t3 of the Delay_Req that waits for its Delay_Resp -/
  req      : Option Nat := none
  /-- the latest δms, in 2^-16 ns -/
  dms      : Int := 0
  /-- a delay exchange within the range has completed (R136) -/
  ranged   : Bool := false
  syncSeq  : Nat := 0
  reqSeq   : Nat := 0
  /-- true time from which on the next Sync, and the next Delay_Req, leaves -/
  syncAt   : Nat := 0
  reqAt    : Nat := 0
  /-- the latest Announce or Signaling message that went to the firmware (R146) -/
  general  : List Byte := []
  deriving DecidableEq, Repr

/-- A change of OUT_EN (R171): none, one that waits for the falling edge, or one whose falling edge has come. -/
inductive OutTurn where
  | idle | waits | fell
  deriving DecidableEq, Repr

/-- What a synthesizer holds beside its registers. -/
structure SynHidden where
  /-- the N in force where it is not that of the registers, as a quotient: after a STOP (R177) -/
  present  : Option (Nat × Nat) := none
  /-- true time at which the segment in progress began -/
  segAt    : Nat := 0
  /-- the ramp runs: N at its start, and the share of the change made before the segment in progress, in 1/256 -/
  from0    : Option (Nat × Nat) := none
  done     : Nat := 0
  /-- CLKOUT is driven -/
  outOn    : Bool := false
  /-- ALIGN = 1 was written and no edge came since (R179) -/
  once     : Bool := false
  /-- what a slew has left to absorb, in output periods by which the edges are to come earlier, and its SLEW in ppb (R179) -/
  slewing  : Option (Rat × Nat) := none
  /-- a change of OUT_EN that has not taken effect (R171) -/
  turn     : OutTurn := .idle
  /-- output periods since a rising edge of the wave that starts a frame, below FRAME_DIV; and a phase step that waits
  for the next falling edge (R171, R180) -/
  phase    : Rat := 0
  stepBy   : Rat := 0
  /-- how far its edges lie from that phase during a switch-over, in fs (R212) -/
  dev      : Int := 0
  deriving DecidableEq, Repr

/-- What the references hold beside their registers: since when a SUSPECT reference agrees with its partners (R158), by
reference, one more than the true time; the lane whose clock RCVD_A and RCVD_B had last, one more than its number; and
the time bases whose next frequency estimate spans a change of that lane (R156). -/
structure RefHidden where
  agree    : List (Nat × Nat) := []
  rcvd     : List (Nat × Nat) := []
  spoilt   : List Nat := []
  deriving DecidableEq, Repr

/-- What an island loop holds beside PLL.CPLL_STAT and PLOL: the true times of its failed acquisitions, whether its
island stands still since a loss of lock, and whether it has failed for good. -/
structure LoopHidden where
  fails    : List Nat := []
  stopped  : Bool := false
  failed   : Bool := false
  deriving DecidableEq, Repr

/-- The active or a pending set of a pulse output (R187); START in 2^-16 ns, PERIOD in 2^-16 ns, WIDTH and BURST_DLY in
ps. -/
structure PlsSet where
  cfg    : Nat
  start  : Nat
  period : Nat
  width  : Nat
  count  : Nat
  offset : Nat
  delay  : Nat
  deriving DecidableEq, Repr

/-- What a pulse output holds beside its registers. Times are on its time base, in 2^-16 ps. -/
structure PlsHidden where
  active   : Option PlsSet := none
  pending  : Option PlsSet := none
  /-- the next rising edge, and the pulses left, one more than their number; 0: unlimited -/
  next     : Option Nat := none
  left     : Nat := 0
  /-- the falling edge of the pulse in progress, and true time of its rising edge -/
  fall     : Option Nat := none
  roseAt   : Nat := 0
  lastFall : Nat := 0
  fellAt   : Nat := 0
  /-- STOP waits for the falling edge -/
  stopping : Bool := false
  /-- fire requests of an EXT output, in fire-time order -/
  queue    : List Nat := []
  /-- a shift of the grid: from which time on, by how much (R195); and ALIGN_DONE waits for the next rising edge -/
  shift    : Option (Nat × Int) := none
  shifted  : Bool := false
  /-- no alignment edge was admitted since the set became active -/
  once     : Bool := false
  /-- true time at which an error within 5 ps sets ALIGNED (R195) -/
  alignAt  : Option Nat := none
  deriving DecidableEq, Repr

/-- A measurement of a TDC channel. Raw times are counts of 7.8125 ps bins of true time. -/
structure Meas where
  /-- the start as an FTIME on the channel's time base, its raw time, and the applied rate at the start -/
  start    : Nat
  raw      : Nat
  rate     : Int
  /-- raw time of the active gate edge, if one was stamped -/
  gate     : Option Nat
  /-- stops: raw time, falling -/
  stops    : List (Nat × Bool)
  /-- raw time of the last accepted edge -/
  last     : Nat
  stepped  : Bool := false
  held     : Bool := false
  deriving DecidableEq, Repr

/-- What a TDC channel holds beside its registers. -/
structure TdcHidden where
  gate     : Option Nat := none
  meas     : Option Meas := none
  /-- measurements that ended and are not stored yet -/
  ended    : List Meas := []
  /-- true times of check failures (R206) -/
  fails    : List Nat := []
  /-- the statistics run (R205): its K and N, the sum, the sum of squares, the least and the greatest interval so far -/
  statK    : Nat := 0
  statN    : Nat := 0
  sum      : Int := 0
  squares  : Nat := 0
  least    : Nat := 0
  most     : Nat := 0
  /-- the DAC code that the comparator keeps while an anneal holds a trim item of the input (R200) -/
  dac      : Option Nat := none
  deriving DecidableEq, Repr

/-- What the timing cores hold beside the TCO registers. -/
structure TcoHidden where
  /-- true time at which the gap began, and the eight times held since then -/
  gapAt    : Nat := 0
  held     : List Nat := []
  /-- consecutive tracking measurements beyond the limit -/
  misses   : Nat := 0
  /-- the tracking core's time bases less the active core's, in 2^-48 ns (R209), and when the next measurement is due -/
  lag      : Int := 0
  trackAt  : Nat := 0
  /-- what the time bases take over at the end of the gap (R210), in 2^-48 ns; true time up to which the outputs relock -/
  carry    : Int := 0
  relock   : Nat := 0
  /-- the cores in INIT for a repair (R215) -/
  repaired : List Nat := []
  /-- self-test failures: core and true time -/
  fails    : List (Nat × Nat) := []
  /-- true time of the latest failure, by core -/
  failedAt : List (Nat × Nat) := []
  /-- the master loop of an ACTIVE_DEGRADED core is unlocked -/
  unlocked : Bool := false
  deriving DecidableEq, Repr

/-- An installed trim (R224): its VALUE, the temperature in 0.1 °C as 16 bits, and its source: 1 flash, 2 anneal. -/
structure TrimRec where
  value : Word
  temp  : Nat
  src   : Nat
  deriving DecidableEq, Repr

/-- What the CAL block holds beside its registers. -/
structure CalHidden where
  /-- the items of the run that are still to come: kind and index -/
  todo     : List (Nat × Nat) := []
  /-- the first measurement of the item in progress -/
  m1       : Option (List Int) := none
  /-- the item is measured in service; a gap came during it -/
  service  : Bool := false
  gapSeen  : Bool := false
  /-- in WAIT_GAP, the state that the run left: 2 MEASURE, 4 INSTALL, or that a next item is to be looked for -/
  left     : Nat := 0
  /-- the trim that a pulse output installs once it has been idle (R198) -/
  install  : Option TrimRec := none
  /-- GEN of the two copies of the trim region, one more than its value; 0: the copy is not valid -/
  gens     : List (Nat × Nat) := []
  /-- a save: the copies still to be written, and the flash steps left of the first of them -/
  saving   : List Nat := []
  steps    : Nat := 0
  /-- TB0 seconds at the save -/
  saved    : Nat := 0
  deriving DecidableEq, Repr

/-- A latched section of an ingot (R372): its STATUS, how long after t_trig it was latched, in 2⁻¹⁶ ns, and its words. -/
structure SnpLatch where
  status : Nat
  after  : Nat
  data   : List Nat
  deriving DecidableEq, Repr

/-- A section of the ingot in progress: its address and number of words, and what was latched. -/
structure SnpSect where
  addr  : Nat
  count : Nat
  latch : Option SnpLatch := none
  deriving DecidableEq, Repr

/-- What the SNP block holds beside its registers: the ingot in progress (R370 to R373). -/
structure SnpHidden where
  sects : List SnpSect := []
  slot  : Nat := 0
  seq   : Nat := 0
  /-- SRC, TAG and T_TRIG of the header -/
  src   : Nat := 0
  tag   : Nat := 0
  t     : Nat := 0
  /-- t_trig on TB0, and as true time -/
  trig  : Nat := 0
  since : Nat := 0
  /-- the active heat at t_trig, as word 7 of the header has it, and NODE_ID -/
  heat  : Nat := 0
  node  : Nat := 0
  /-- true time of the last missed trigger -/
  missed : Option Nat := none
  deriving DecidableEq, Repr

/-- What a scratchpad bank holds beside its registers and its contents. -/
structure BankHidden where
  /-- how often the contents became undefined; 0: bytes that nothing wrote read 0 -/
  undefd  : Nat := 0
  /-- the state that a change under way leads to, and the request held behind it (R394) -/
  goal    : Option Nat := none
  held    : Option Nat := none
  /-- corrected errors: row and true time (R398) -/
  errors  : List (Nat × Nat) := []
  /-- the bank was ON before sleep entry -/
  wasOn   : Bool := false
  deriving DecidableEq, Repr

/-- A spread tag as received (R277). -/
structure SpreadTag where
  node : Nat
  flow : Nat
  seq  : Nat
  rst  : Bool
  deriving DecidableEq, Repr

/-- Where the Crucible cells of a frame are charged (R245, R250). -/
inductive Pool where
  /-- not charged yet, or charged with the cells that its copies hold in the deep tier -/
  | none
  /-- admitted: cells of the guarantee of a queue, of the shared pool, and of headroom -/
  | admitted (e q min shared headroom : Nat) (holds : Bool)
  /-- held by the Riser or by a migration hold: shared cells -/
  | held
  | ll
  | recirc
  deriving DecidableEq, Repr

/-- A frame that the FX64 stores. -/
structure Frame where
  id     : Nat
  /-- from the destination address to the end of the FCS, without a spread tag (R244, R279) -/
  bytes  : List Byte
  /-- the ingress index: a port, or 64 for an injected frame (R294) -/
  inPort : Nat
  /-- the ingress timestamp and its quality (R138, R140), and the reference time (R294) -/
  tIn    : Nat
  tsq    : Nat
  tRef   : Nat
  /-- the heat number, the slot it refers to, and whether it is an orphan (R240, R241) -/
  heat   : Option Nat
  slot   : Option Nat
  orphan : Bool
  pass   : Nat
  tc     : Nat
  ll     : Bool
  /-- the key fields that HASH_SEL selects from (R280), by select bit; FRAG is not 0 -/
  fields : List (List Nat)
  frag   : Bool
  tag    : Option SpreadTag
  /-- true time at which the last byte arrives -/
  done   : Nat
  /-- the frame turns out to be bad at ingress (R270) -/
  bad    : Bool
  pool   : Pool
  /-- the banks in which its Crucible cells lie, in the order of the cells (R244, R247) -/
  banks  : List Nat := []
  /-- its record on the trunk that it comes from is not complete yet (R107, R270) -/
  early  : Bool := false
  /-- the slice that it comes from (R275, R299): of the ingress port, of the engine that made it; 4 for the auxiliary port -/
  slice  : Nat := 0
  deriving DecidableEq, Repr

/-- Where a copy is bound for: a port, a LAG group, or the copies of a Ladle group. -/
inductive Dest where
  | port (e : Nat)
  | lag (g : Nat)
  | ladle (i : Nat)
  deriving DecidableEq, Repr

/-- Where a copy stands. -/
inductive Loc where
  /-- at the intake of the Riser, from a slice -/
  | riserIn (slice : Nat)
  /-- held in a Riser context, since a TB0 time -/
  | riser (c : Nat) (seq : Nat) (since : Nat)
  /-- in the FIFO of the Ladle, with the words of its group's entry as they were committed when it came (R290) -/
  | ladle (entry : List Nat)
  /-- next for admission -/
  | toAdmit
  /-- in a migration hold -/
  | migration (g bucket : Nat)
  /-- on the recirculation path of a slice -/
  | recirc (slice : Nat)
  /-- in its egress queue -/
  | queue
  /-- in transmission -/
  | transmit
  deriving DecidableEq, Repr

/-- A cell in a region of the HBM3E stacks, with its 8 bytes of metadata (R255): the CRC-32C, the cell's sequence number
within its queue, and the first-cell and last-cell flags. -/
structure StoredCell where
  region : Nat
  seq    : Nat
  first  : Bool
  last   : Bool
  crc    : Nat
  deriving DecidableEq, Repr

/-- The cells of a copy on the deep path (R254, R255): in staging (of the staging pool, or of headroom), in the
regions of the HBM3E stacks, being read back since a true time, and back in the Crucible. Of a cell in the Crucible the
list gives its bank (R247). -/
structure DeepCells where
  stagedIn : List Nat
  headroom : Bool
  stored   : List StoredCell
  reading  : List (StoredCell × Nat)
  backIn   : List Nat
  /-- its cells count in the ingress priority group (R250) -/
  pg       : Bool
  /-- headroom cells are charged: those of a later copy charge no pool (R250) -/
  charged  : Bool := true
  deriving DecidableEq, Repr

/-- How a latency-locked copy stands (R299 to R307). -/
inductive LlState where
  | waiting | tentative | granted | late
  deriving DecidableEq, Repr

/-- The window of a latency-locked copy, on TB0 in 2^-16 ns. -/
structure LlInfo where
  tgt   : Nat
  start : Nat
  stop  : Nat
  state : LlState
  /-- the cause for which it is sent late -/
  cause : Nat
  /-- a copy of an ALL_OR_NONE frame; its commit point has passed -/
  aon   : Bool
  committed : Bool
  /-- true time from which a late copy is dropped -/
  expiry : Nat
  /-- true time at which the copy reached the scheduler, and the entry L_i_e as it read then -/
  since  : Nat
  entry  : Nat
  deriving DecidableEq, Repr

/-- One copy of a frame on its way out. -/
structure Pkt where
  id     : Nat
  fid    : Nat
  dest   : Dest
  /-- egress port and queue, once they are known -/
  e      : Nat
  q      : Nat
  loc    : Loc
  /-- the LAG group and slot it was sent through, with its bucket in a PINNED group -/
  via    : Option (Nat × Nat × Option Nat)
  /-- the number of its SPREAD flow, and RST (R278) -/
  number : Option (Nat × Bool)
  deep   : Option DeepCells
  ll     : Option LlInfo
  /-- it is a copy that the Ladle made; the Riser or a migration hold held it -/
  copy   : Bool
  waited : Bool
  /-- true time at which it came to its present place -/
  came   : Nat := 0
  deriving DecidableEq, Repr

/-- A number held in a Riser context without cells (R284). -/
structure Placeholder where
  c   : Nat
  seq : Nat
  since : Nat
  deriving DecidableEq, Repr

/-- What waits at the intake of the Riser (R279, R284): a copy, or a placeholder. -/
structure Intake where
  slice  : Nat
  tag    : SpreadTag
  inPort : Nat
  pkt    : Option Nat
  /-- the pass of the frame, and the true time at which it came -/
  pass   : Nat := 0
  came   : Nat := 0
  deriving DecidableEq, Repr

/-- What an egress port holds beside its registers. -/
structure EgressHidden where
  /-- true time at which the frame or control frame in transmission ends -/
  busy     : Option Nat := none
  /-- token counts in 1/8000 byte: the port's, and by class, as they were when `BufHidden.ran` was `filled` -/
  tokens   : Int := 0
  ctokens  : List (Nat × Int) := []
  filled   : Nat := 0
  /-- deficits of the classes and of the two queues of each class (R266), and the class being served -/
  deficit  : List (Nat × Nat) := []
  qdeficit : List (Nat × Nat) := []
  turn     : Nat := 0
  qturn    : List (Nat × Nat) := []
  /-- the PFC frames that wait for a frame boundary: class and quanta (R262) -/
  pfc      : List (Nat × Nat) := []
  /-- the frames of timed actions that wait for a frame boundary (R344, R353), and the general PTP messages behind them -/
  acts     : List (List Byte) := []
  msgs     : List (List Byte) := []
  deriving DecidableEq, Repr

/-- The headroom use of a priority group (R260), and the pressure that its port signals (R262). -/
structure PgHidden where
  headroom : Nat := 0
  pressure : Bool := false
  deriving DecidableEq, Repr

/-- A migration hold (R282): the member that was effective before, the one effective now, and its frames. -/
structure MigHold where
  g      : Nat
  bucket : Nat
  old    : Nat
  eff    : Option Nat
  since  : Nat
  deriving DecidableEq, Repr

/-- The evaluation of the copies of an ALL_OR_NONE frame (R307): how many copies there are, and per evaluated copy
its port and, where it fails, its cause. -/
structure AonHidden where
  fid    : Nat
  total  : Nat
  seen   : List (Nat × Nat × Nat)
  deriving DecidableEq, Repr

/-- What the buffers, the queues and the blocks behind them hold beside their registers. -/
structure BufHidden where
  frames  : List Frame := []
  /-- the copies, in the order in which they arrived where they stand -/
  pkts    : List Pkt := []
  /-- how long the central island has run, in ns -/
  ran     : Nat := 0
  nextId  : Nat := 1
  /-- the queues in SPILL: 17 × port + queue -/
  spill   : List Nat := []
  egress  : List (Nat × EgressHidden) := []
  pgs     : List (Nat × PgHidden) := []
  /-- the global condition of R261 -/
  globalXoff : Bool := false
  headroomLow : Bool := false
  /-- SPREAD flows, by 8 × group + class: the next number, and whether the next frame carries RST -/
  flows   : List (Nat × Nat × Bool) := []
  migs    : List MigHold := []
  /-- the effective member of a PINNED bucket when it last took a frame, by 256 × group + bucket, one more than its
  slot; and the buckets that changed member without a hold -/
  members : List (Nat × Nat) := []
  moved   : List Nat := []
  holders : List Placeholder := []
  intake  : List Intake := []
  /-- the slice at which the round robin of the intake goes on (R287) -/
  riserTurn : Nat := 0
  /-- duplicates by Riser context (c.DUP of R285) -/
  dups    : List (Nat × Nat) := []
  /-- the pseudo-channel, plus one, of a queue's last cell written deep; true times of the cells lately written and
  read (DBF.RATE) -/
  channel : List (Nat × Nat) := []
  /-- the sequence number of a queue's next deep cell; the copy whose cells the mover reads back, and the queue it read
  last: 17 × port + queue (R255, R256) -/
  cellSeq : List (Nat × Nat) := []
  fetching : Option Nat := none
  fetchTurn : Nat := 0
  /-- the pointers of the write port and of the read port of each bank: a place in the ring of R247, slice 0 first -/
  writePtr : List (Nat × Nat) := []
  readPtr  : List (Nat × Nat) := []
  written : List Nat := []
  fetched : List Nat := []
  aons    : List AonHidden := []
  /-- LLD.L entries written less than 1 µs ago: address, former word, true time of the write -/
  lOld    : List (Nat × Nat × Nat) := []
  /-- TB0 steps that frames in the device lived through (R310): X, D, and the number of the first frame that came later -/
  steps   : List (Nat × Int × Nat) := []
  /-- failed re-reads of regions: region and true time (R258) -/
  rereads : List (Nat × Nat) := []
  /-- the recirculation path of a slice moves a frame up to this true time, in 1/50 ns (R271) -/
  recirc  : List (Nat × Nat) := []
  /-- windows that started lately, by port: TB0 start and length -/
  windows : List (Nat × Nat × Nat) := []
  deriving DecidableEq, Repr

/-- A record on its way into the link blocks of a class (R107): the bytes still to be sent, whether it has not started,
and whether it is latency-locked (R297). -/
structure StreamRec where
  bytes : List Byte
  fresh : Bool
  ll    : Bool
  /-- the payload offset at which a latency-locked record starts in its first block -/
  off   : Nat := 0
  /-- the record is an event message, stamped as its block leaves (R139) -/
  event : Option PtpEvent := none
  /-- the record is the frame of a timed action (R344, R353) -/
  act   : Bool := false
  deriving DecidableEq, Repr

/-- One link block kept for resending (R108): its number, its class, FIRST, FILL and its payload, and the event message
with which its payload begins. -/
structure LinkBlock where
  seq     : Nat
  cls     : Nat
  first   : Nat
  fill    : Nat
  payload : List Byte
  event   : Option PtpEvent := none
  deriving DecidableEq, Repr

/-- Marker reception on one port lane of a trunk (R104, R105): the block at which the last valid marker began, and its
logical lane, whether the lane is locked, consecutive inverted markers, and the arrival in 2^-16 ns of TB0. -/
structure MarkerLane where
  block    : Option Nat := none
  logical  : Nat := 0
  locked   : Bool := false
  inverted : Nat := 0
  arrival  : Nat := 0
  deriving DecidableEq, Repr

/-- A DATA block that is not released yet (R111): its class and number, and whether it came while its class was under
pressure (R262). -/
structure HeldBlock where
  cls     : Nat
  num     : Nat
  pressed : Bool
  deriving DecidableEq, Repr

/-- A frame that the link blocks of a class delivered: the numbers of the first and the last block that hold part of it, its
bytes, and TB0 when its first block came. -/
structure Delivered where
  cls   : Nat
  first : Nat
  last  : Nat
  bytes : List Byte
  came  : Nat
  deriving DecidableEq, Repr

/-- A delivered frame that was taken for classification: its blocks, and the number of the frame (R111). -/
structure TakenFrame where
  cls   : Nat
  first : Nat
  last  : Nat
  fid   : Nat
  deriving DecidableEq, Repr

/-- Where the partial record of a class begins: the number of the block, and TB0 when that came. -/
structure PartialStart where
  block : Nat
  came  : Nat
  deriving DecidableEq, Repr

/-- What a trunk holds beside its registers. -/
structure TrunkHidden where
  /-- receiver: the next number expected, DISCARD, the partial record of each class and where it begins, the classes whose
  stream is discarded up to the next FIRST, the blocks released and the releases withheld per class -/
  expected  : Nat := 0
  discard   : Bool := false
  partials  : List (Nat × List Byte) := []
  partialAt : List (Nat × Option PartialStart) := []
  skip      : List Nat := []
  released  : List (Nat × Nat) := []
  withheld  : List (Nat × Nat) := []
  /-- DATA blocks accepted so far; the blocks that are not released yet; the frames delivered and not classified yet; the
  frames taken and not written yet (R111); the frames classified before their record was complete: class and frame -/
  accepted  : Nat := 0
  unreleased : List HeldBlock := []
  delivered : List Delivered := []
  taken     : List TakenFrame := []
  early     : List (Nat × Nat) := []
  /-- transmitter: the next number, SENT and ADJ per class, the last 64 DATA blocks, the block that a resend has
  reached, the failures of the numbers that NAKs named (number, count, block time of the latest), block times sent, and
  whether the next DATA block carries RSYNC -/
  nextSeq   : Nat := 0
  sent      : List (Nat × Nat) := []
  adj       : List (Nat × Nat) := []
  store     : List LinkBlock := []
  goback    : Option Nat := none
  naks      : List (Nat × Nat × Nat) := []
  blockTime : Nat := 0
  rsync     : Bool := false
  /-- records that wait per class -/
  streams   : List (Nat × List StreamRec) := []
  /-- CRED of the partner's latest marker, and CRED as last sent, per class -/
  cred      : List (Nat × Nat) := []
  credSent  : List (Nat × Nat) := []
  /-- number and class of the DATA blocks that the partner has not acknowledged -/
  unacked   : List (Nat × Nat) := []
  /-- the place in the active set at which the next 66-bit block leaves (R103), and when the latest link block began, on
  TB0 in 2^-16 ns -/
  stripe    : Nat := 0
  blockAt   : Option Nat := none
  /-- markers: when the next one is due, on TB0 in 2^-16 ns, MSEQ, the set announced for the next marker on, the set
  that the partner announced last, and the lanes' reception -/
  markerAt  : Option Nat := none
  partnerActive : Nat := 0
  mseq      : Nat := 0
  announced : Nat := 0
  lanes     : List (Nat × MarkerLane) := []
  /-- HELLO: the partner's latest receive set, T_TX and arrival (ns) of the last HELLO, how many came in T_HELLO -/
  partner   : Nat := 0
  echo      : Option (Nat × Nat) := none
  hellos    : Nat := 0
  /-- when the next HELLO is due (ns) -/
  helloAt   : Nat := 0
  deriving DecidableEq, Repr

/-- The held commit record (R239, R242): its heat, T, the timed action that asked for it, whether it is WAITING, and
from its examination on the result that it will have. -/
structure HeatRec where
  heat    : Nat
  t       : Nat
  timed   : Option Nat
  waiting : Bool
  verdict : Option Nat
  deriving DecidableEq, Repr

/-- What the parser, the Mould and the heats hold beside their registers. -/
structure ClsHidden where
  /-- the former PRS.CFG words and true time of the writes, each of which takes 1 µs to act; the latest first -/
  prsOld   : List (Nat × Nat) := []
  /-- punt tokens in 1/1000000 token, one more than their number; 0: the bucket is full. Bucket 16 is the global one.
  `filled`: what `BufHidden.ran` was when the buckets were last filled -/
  tokens   : List (Nat × Nat) := []
  filled   : Nat := 0
  /-- entries with an uncorrectable error: 65536 × slice + 32768 × slot + entry -/
  bad      : List Nat := []
  /-- the slots that LOAD is clearing, and the writes that wait for the end of that -/
  clearing : List Nat := []
  waiting  : List (Nat × Nat) := []
  commit   : Option HeatRec := none
  /-- T of the last commit that executed, and whether a heat was active before it (R240) -/
  lastT    : Option (Nat × Bool) := none
  /-- true time since which a slot is DRAINING; T of the latest drain that was forced; the frames with a timestamp before T
  that were still arriving at T, by their ports, as far as they have not come to classification (R241) -/
  drainAt  : Nat := 0
  forced   : Option Nat := none
  arriving : List Nat := []
  /-- results of timed commits that the TAC block has not taken yet: the action and the result -/
  results  : List (Nat × Nat) := []
  deriving DecidableEq, Repr

/-- A frame on its way to the Assay intake (R316). -/
structure AsyFrame where
  slice : Nat
  bytes : List Byte
  tIn   : Nat
  tsq   : Nat
  /-- the key's L3 is 3 and its SUBTYPE 0x02 -/
  prim  : Bool
  /-- the slot of its heat (R241) -/
  slot  : Option Nat
  deriving DecidableEq, Repr

/-- A trigger primitive in an intake queue (R314, R317). -/
structure AsyRec where
  q     : Nat
  chan  : Nat
  tHit  : Nat
  amp   : Nat
  bad   : Bool
  user  : Nat
  tIn   : Nat
  tsq   : Nat
  deriving DecidableEq, Repr

/-- A membership (R320) in the FIFO of engine slice `e`; `twin`: the second of the two that a migration makes (R334). -/
structure AsyMem where
  e      : Nat
  c      : Nat
  slot   : Nat
  veto   : Bool
  weight : Nat
  r      : AsyRec
  twin   : Bool
  deriving DecidableEq, Repr

/-- A record in the history of context `c` on engine slice `e` (R325), at a record of its ring. -/
structure AsyHist where
  e       : Nat
  c       : Nat
  pos     : Nat
  tp      : Nat
  chan    : Nat
  veto    : Bool
  slot    : Nat
  amp     : Nat
  weight  : Nat
  flagged : Bool
  /-- USER of the primitive, which the record in the bank does not hold (R314, R325) -/
  user    : Nat := 0
  deriving DecidableEq, Repr

/-- A lost record of a context and its t_p: late (R324), or lost (R318, R325). -/
structure AsyMark where
  c    : Nat
  tp   : Nat
  late : Bool
  deriving DecidableEq, Repr

/-- What a context holds beside its registers. -/
structure AsyCtx where
  /-- the prescale count, and the end of the last accepted window -/
  pcount  : Nat := 0
  last    : Option Nat := none
  /-- the ends of the windows that were decided, the latest first -/
  decided : List Nat := []
  /-- where its ring goes on, by engine slice -/
  ring    : List (Nat × Nat) := []
  /-- the times T of its migrations that an undecided window may still span (R333) -/
  migT    : List Nat := []
  /-- thresholds and delays written lately: address, former word, TB0 time of the write (R321); the latest first -/
  olds    : List (Nat × Nat × Nat) := []
  deriving DecidableEq, Repr

/-- The migration that is held (R333 to R335), and whether T has come. -/
structure AsyMig where
  c       : Nat
  old     : Nat
  new     : Nat
  base    : Nat
  size    : Nat
  t       : Nat
  reached : Bool
  deriving DecidableEq, Repr

/-- The copy of records of context `c` to engine slice `e` for a migration at T (R334), which can last beyond its
handover: the records still to be copied, and whether a window was found waiting for it. -/
structure AsyCopy where
  c    : Nat
  e    : Nat
  t    : Nat
  todo : List AsyHist
  late : Bool
  deriving DecidableEq, Repr

/-- What the ASY block holds beside its registers. -/
structure AsyHidden where
  frames  : List AsyFrame := []
  recs    : List AsyRec := []
  /-- the budget used up, in thirds of a grant; the pointer; the number of the last central clock that was commanded, three in
  each period of true time (R317) -/
  used    : Nat := 0
  pointer : Nat := 0
  grantAt : Nat := 0
  fifo    : List AsyMem := []
  hist    : List AsyHist := []
  marks   : List AsyMark := []
  ctxs    : List (Nat × AsyCtx) := []
  mig     : Option AsyMig := none
  copies  : List AsyCopy := []
  /-- TB0 when the data die last returned to RUN after sleep (R336) -/
  runAt   : Nat := 0
  deriving DecidableEq, Repr

/-- The stage of step-up (table Step-up states). -/
inductive StepUp where
  | off | nrz | slow | qual | fast
  deriving DecidableEq, Repr

/-- What a port holds beside its registers. -/
structure PortHidden where
  stage    : StepUp := .off
  /-- the last valid page apart from FLAGS, how many identical ones came, and whether the partner acknowledged -/
  page     : List Byte := []
  pages    : Nat := 0
  acked    : Bool := false
  conflict : Bool := false
  /-- the agreed width, and whether the final rate is 106.25 Gb/s -/
  width    : Nat := 0
  fast     : Bool := false
  /-- the type that ran before sleep, to be resumed (R66); the FEC of E25_1 that Clause 73 resolved, coded as CFG.FEC25 -/
  resolved : Nat := 0
  fec      : Nat := 0
  /-- true time until which the quench lasts at most -/
  quench   : Nat := 0
  /-- a lane of the port entered SERVICE or changed rate, or its active set changed, at this true time (R140) -/
  changed  : Option Nat := none
  /-- KMAX and CAPS as the port computed them when step-up began (R101) -/
  kmax     : Nat := 0
  caps     : Nat := 0
  /-- the governor holds the port shed (R42); its restoration waits for the end of the quench (R43) -/
  shed     : Bool := false
  restore  : Bool := false
  /-- the module's data path is activated (R120), and the module is present -/
  modReady : Bool := false
  present  : Bool := false
  /-- the module's interrupt, as the sideband chain sampled it last (R414) -/
  modInt   : Bool := false
  deriving DecidableEq, Repr

/-- What the rings of the HOST block hold beside their registers: the rings on an even pass (R388), and for the
telemetry rings the next record number and the TB0 time of the next sample. -/
structure HostHidden where
  /-- the mailbox request in progress arrived while a save was (R387) -/
  saveRan : Bool := false
  even    : List Nat := []
  telSeq  : List (Nat × Nat) := []
  telNext : List (Nat × Nat) := []
  deriving DecidableEq, Repr

/-- A timed action at this node (R341 to R354). -/
structure TacAct where
  id      : Nat
  /-- its entry of the action table, if it has one -/
  slot    : Option Nat
  orig    : Nat
  actId   : Nat
  hops    : Nat
  kind    : Nat
  t       : Nat
  lateOk  : Bool
  report  : Bool
  wait    : Nat
  args    : List Nat
  /-- the port on which the announcement came; none: originated here -/
  src     : Option Nat
  /-- the final result; the action takes effect at T while it has none -/
  result  : Option Nat
  /-- it took effect, and its result is that of the heat commit -/
  begun   : Bool
  /-- it is executed under LATE_OK -/
  late    : Bool
  /-- the ports to which it was forwarded, those that reported, and the expected ports without it -/
  sent    : List Nat
  heard   : List Nat
  lost    : Nat
  /-- the sums of the reports: DONE, LATE, FAILED, REJECTED, PENDING, MISSING; the lowest node that is not DONE and
  its code -/
  sums    : List Nat
  first   : Option (Nat × Nat)
  /-- the report is sent, or none is due -/
  closed  : Bool
  deriving DecidableEq, Repr

/-- What the TAC block holds beside its registers: the actions, the next number, the last 64 accepted and the last 64
reported announcements, and the action originated here. -/
structure TacHidden where
  acts    : List TacAct := []
  next    : Nat := 1
  recent  : List (Nat × Nat) := []
  done    : List (Nat × Nat) := []
  own     : Option Nat := none
  deriving DecidableEq, Repr

/-- The supplies, resets, the governor and sleep (R34 to R45, R63 to R69), beside the registers. -/
structure PowerHidden where
  ka       : Bool := true
  main     : Bool := true
  /-- true time at which VIN_MAIN rose, and until which the data die is powered down -/
  mainAt   : Nat := 0
  downTill : Nat := 0
  resetN   : Bool := true
  /-- the data die runs; the cause of its next start; when it started -/
  die      : Bool := false
  cause    : Nat := 0
  startAt  : Nat := 0
  /-- the trim region is to be read in this start (R45) -/
  trimDue  : Bool := true
  /-- the governor: the last samples (mW), the latest first; the ramp in progress, and one that waits: down or up; the
  shed ports, the latest first -/
  samples  : List Nat := []
  ramp     : Option Bool := none
  nextRamp : Option Bool := none
  shed     : List Nat := []
  /-- sleep: entry waits for a zone reset; the drain is over; a wake event waits for the end of entry; tw; the freeze
  of the counters before entry -/
  wanted   : Bool := false
  drained  : Bool := false
  wakeHeld : Bool := false
  tw       : Nat := 0
  frozen   : Bool := false
  /-- the instruction of the test port, and whether it holds the data die (R423) -/
  tap      : TapInstr := .idcode
  tapHold  : Bool := false
  /-- what Update-DR left in the boundary register, in its order (R422) -/
  cells    : List Bool := List.replicate 31 false
  /-- the junction was too hot, and has not been seen below 110 °C since (R419) -/
  hot      : Bool := false
  deriving DecidableEq, Repr

/-- What the SFDP of a flash device gives (R49): its size in bytes, its 4-byte address support, and the instruction and
dummy cycles of its quad read, if it has one. -/
structure FlashDev where
  size  : Nat
  addr4 : Nat
  quad  : Option (Nat × Nat)
  deriving DecidableEq, Repr

/-- One entry of the section table (R56). -/
structure Sect where
  type : Nat
  req  : Bool
  len  : Nat
  crc  : Nat
  deriving DecidableEq, Repr

/-- The loading of an image (R47 to R61). -/
structure BootHidden where
  /-- the images that remain in the order, the present one first: 0 A, 1 B -/
  order    : List Nat := []
  /-- a header and section table are being read -/
  awaiting : Bool := false
  sects    : List Sect := []
  index    : Nat := 0
  /-- the records of the REGSCRIPT section, or the bytes of the TABLE section, being applied that are still to come -/
  script   : Option (List (Nat × Nat × Nat)) := none
  chunks   : Option (List Byte) := none
  firmware : List Byte := []
  /-- the sections that were skipped -/
  skipped  : List Nat := []
  nodeId   : Nat := 0
  started  : Bool := false
  ready    : Bool := false
  hbmDone  : Bool := false
  /-- LOAD has begun since the blocks were last reset, so the zone controllers serve accesses (R47) -/
  loaded   : Bool := false
  /-- the two flash devices (R49); none: absent -/
  flash0   : Option FlashDev := none
  flash1   : Option FlashDev := none
  /-- true time of the release -/
  released : Nat := 0
  deriving DecidableEq, Repr

/-- The machine. -/
structure State where
  /-- the commands that wait, first in, first out -/
  pending : List Instr
  /-- true time (ns) -/
  now     : Nat
  /-- every register word that differs from its reset value, by rising BAR0 address -/
  regs    : List (Nat × Word)
  /-- the stamps of the SQC event bits (R364), by rising 32 × address + bit -/
  stamps  : List (Nat × Nat)
  /-- the running timers -/
  timers  : List (Timer × Nat)
  /-- staged words of the two requesters (R10, R290, R319), by rising 2 × address + requester -/
  staged  : List (Nat × Word)
  /-- the guard sequences of the two requesters (R362), at most one in a block instance -/
  guardHost : List GuardSeq
  guardMgmt : List GuardSeq
  /-- the model's own: how many open values were drawn -/
  draws   : Nat
  /-- what left the device, oldest first -/
  out     : List Out
  lanes   : List (Nat × LaneHidden)
  /-- the retired lanes that keep-alive storage holds (R90) -/
  retiredLanes : List Nat
  int     : IntHidden
  /-- counters that wrapped and whose overflow bit is to be recorded: group and counter, 8 for the cycle counter -/
  pmcWraps : List (Nat × Nat)
  /-- the time bases, by number; TB times that the two requesters captured (R125), by 2 × n + requester -/
  tbs     : List (Nat × TbHidden)
  shadows : List (Nat × Nat)
  ptps    : List (Nat × PtpHidden)
  refs    : RefHidden
  syns    : List (Nat × SynHidden)
  /-- the island loops: CPLL0 to CPLL11, then 12 + p for port loop p -/
  loops   : List (Nat × LoopHidden)
  /-- the ports whose timestamps carry LOL (R183) -/
  lolPorts : List Nat
  pls     : List (Nat × PlsHidden)
  tdcs    : List (Nat × TdcHidden)
  /-- the levels of the pins TDCGATE0 to TDCGATE3, bit g of gate g -/
  gatePins : Nat
  /-- the retired TDC inputs that keep-alive storage holds (R206) -/
  retiredTdc : List Nat
  tco     : TcoHidden
  cal     : CalHidden
  /-- the installed trims that are not fuse trims (R221), by rising kind × 2^24 + SUB × 2^16 + INDEX -/
  trims   : List (Nat × Option TrimRec)
  snp     : SnpHidden
  /-- the scratchpad banks: bytes by rising bank × 2^24 + byte address -/
  mem     : List Host.Cell
  banks   : List (Nat × BankHidden)
  buf     : BufHidden
  ports   : List (Nat × PortHidden)
  trunks  : List (Nat × TrunkHidden)
  /-- the zones in reset whose nodes hold their reset values already, and those that the firmware is to configure
  again (R21, R425) -/
  zonesClear : List Nat
  zonesReimg : List Nat
  /-- what waits at a stopped island, oldest first (R26, R182): writes to nodes, and accesses of the management complex -/
  heldNodes  : List HeldWrite
  heldMgmt   : List HeldAccess
  /-- the retired regions of the deep tier that keep-alive storage holds (R258) -/
  retiredRegions : List Nat
  cls     : ClsHidden
  asy     : AsyHidden
  host    : HostHidden
  /-- the march in progress: its banks, and whether it preserves (R399) -/
  march   : Option (Nat × Bool)
  tac     : TacHidden
  power   : PowerHidden
  boot    : BootHidden
  deriving DecidableEq, Repr

/-- The machine stops with a fault: the manual names no such stop, so this type has no constructor. -/
inductive Fault where
  deriving DecidableEq, Repr

/-- A command that has no meaning in the model. -/
inductive Refusal where
  /-- raised by the dispatcher for a command that has no meaning yet; safe: nothing is claimed of such a run -/
  | notModelled (mnemonic : String)
  deriving DecidableEq, Repr

/-- The machine right after the reset. -/
def State.reset : State where
  pending := []
  now := 0
  regs := [(0x10, 0x4001)]
  stamps := []
  timers := []
  staged := []
  guardHost := []
  guardMgmt := []
  draws := 0
  out := []
  lanes := []
  retiredLanes := []
  int := {}
  pmcWraps := []
  tbs := []
  shadows := []
  pls := []
  tdcs := []
  gatePins := 0
  retiredTdc := []
  tco := {}
  cal := {}
  trims := []
  ptps := []
  refs := {}
  syns := []
  loops := []
  lolPorts := []
  snp := {}
  mem := []
  buf := {}
  ports := []
  trunks := []
  zonesClear := []
  zonesReimg := []
  heldNodes := []
  heldMgmt := []
  retiredRegions := []
  cls := {}
  asy := {}
  host := {}
  march := none
  tac := {}
  power := {}
  boot := {}
  banks := [0, 1, 2, 3, 4, 5, 6, 7, 10, 11].map fun b => (b, { undefd := 1 })

end Sys2Proof.Machine
end

