-- ==== Sys2Proof/Machine/Ops.lean ====
section
/-! DEFINITION. The named operations over the state that every block uses: register words and their fields, sorted
maps, timers, open values, event registers (R364) and the performance counters' events (R390). -/

namespace Sys2Proof.Machine

/-! Sorted maps from numbers, in one canonical form: keys rising, and no entry equal to its default. -/

/-- The entry of a sorted map, or the default. -/
def Map.get {α : Type} (d : α) : List (Nat × α) → Nat → α
  | [], _ => d
  | (k, v) :: m, a => if k = a then v else Map.get d m a

/-- Sets an entry at its place, whatever its value. -/
def Map.set {α : Type} : List (Nat × α) → Nat → α → List (Nat × α)
  | [], a, v => [(a, v)]
  | (k, w) :: m, a, v => if a < k then (a, v) :: (k, w) :: m else if a = k then (a, v) :: m else (k, w) :: Map.set m a v

/-- Sets an entry; the default takes the entry out. -/
def Map.put {α : Type} [DecidableEq α] (d : α) (m : List (Nat × α)) (a : Nat) (v : α) : List (Nat × α) :=
  if v = d then m.filter fun e => decide (e.1 ≠ a) else Map.set m a v

/-- The keys from `lo` on rise strictly, and no entry equals its default. -/
def Map.wfFrom {α : Type} [DecidableEq α] (d : Nat → α) : Nat → List (Nat × α) → Bool
  | _, [] => true
  | lo, (k, v) :: m => decide (lo ≤ k) && decide (v ≠ d k) && Map.wfFrom d (k + 1) m

/-- The canonical form of a sorted map with the default `d`. -/
def Map.wf {α : Type} [DecidableEq α] (d : Nat → α) (m : List (Nat × α)) : Bool :=
  Map.wfFrom d 0 m

/-! Fields of a word, as numbers (R3). -/

/-- Bits [hi:lo] of `w`. -/
def bits (w hi lo : Nat) : Nat :=
  w / 2 ^ lo % 2 ^ (hi + 1 - lo)

/-- `w` with bits [hi:lo] replaced by `v`. -/
def putBits (w hi lo v : Nat) : Nat :=
  w / 2 ^ (hi + 1) * 2 ^ (hi + 1) + v % 2 ^ (hi + 1 - lo) * 2 ^ lo + w % 2 ^ lo

/-- The bits of `w` that are 1, among bits 0 to n − 1, rising. -/
def bitsSet (w n : Nat) : List Nat :=
  (List.range n).filter fun i => w.testBit i

/-- A two's complement field of `n` bits as an integer. -/
def toSigned (n v : Nat) : Int :=
  if v % 2 ^ n < 2 ^ (n - 1) then ((v % 2 ^ n : Nat) : Int) else ((v % 2 ^ n : Nat) : Int) - ((2 ^ n : Nat) : Int)

/-- An integer as a two's complement field of `n` bits. -/
def ofSigned (n : Nat) (v : Int) : Nat :=
  (v % ((2 ^ n : Nat) : Int)).toNat

/-- An integer held between two bounds. -/
def clampInt (lo hi v : Int) : Int :=
  if v < lo then lo else if hi < v then hi else v

/-- A signed quotient whose rounding the manual leaves open. -/
def quotInt (num den : Int) : Int :=
  let q := Config.quot num.natAbs den.natAbs
  if (num < 0) = (den < 0) then (q : Int) else -(q : Int)

/-- A Bool as a bit. -/
def bit01 (b : Bool) : Nat := if b then 1 else 0

/-! Registers. -/

/-- The value of the register at the address. -/
def State.rd (s : State) (a : Nat) : Nat :=
  (Map.get (resetOf a) s.regs a).toNat

/-- Sets the register at the address. -/
def State.wr (s : State) (a v : Nat) : State :=
  { s with regs := Map.put (resetOf a) s.regs a (BitVec.ofNat 32 v) }

/-- Bits [hi:lo] of the register at the address. -/
def State.fld (s : State) (a hi lo : Nat) : Nat :=
  bits (s.rd a) hi lo

/-- Sets bits [hi:lo] of the register at the address. -/
def State.setFld (s : State) (a hi lo v : Nat) : State :=
  s.wr a (putBits (s.rd a) hi lo v)

/-- Bit `i` of the register at the address. -/
def State.bit (s : State) (a i : Nat) : Bool :=
  (s.rd a).testBit i

/-- Sets bit `i` of the register at the address. -/
def State.setBit (s : State) (a i : Nat) (b : Bool) : State :=
  s.setFld a i i (bit01 b)

/-- The 64-bit value of a pair of registers, the low word at the address. -/
def State.rd64 (s : State) (a : Nat) : Nat :=
  s.rd a + s.rd (a + 4) * 2 ^ 32

/-- Sets a pair of registers, the low word at the address. -/
def State.wr64 (s : State) (a v : Nat) : State :=
  (s.wr a v).wr (a + 4) (v / 2 ^ 32)

/-- Adds to a 64-bit counter, modulo 2^64. -/
def State.add64 (s : State) (a n : Nat) : State :=
  s.wr64 a (s.rd64 a + n)

/-- Adds to a counter field that saturates at its highest value. -/
def State.addSat (s : State) (a hi lo n : Nat) : State :=
  s.setFld a hi lo (Nat.min (s.fld a hi lo + n) (2 ^ (hi + 1 - lo) - 1))

/-- Every register whose address satisfies `p` returns to its reset value, and the stamps of its event bits with it. -/
def State.resetRegs (s : State) (p : Nat → Bool) : State :=
  { s with
    regs := s.regs.filter fun e => !p e.1
    stamps := s.stamps.filter fun e => !p (e.1 / 32) }

/-! Time and timers. -/

/-- The deadline of a running timer. -/
def State.timer (s : State) (t : Timer) : Option Nat :=
  (s.timers.find? fun e => e.1 = t).map (·.2)

/-- Stops a timer. -/
def State.stop (s : State) (t : Timer) : State :=
  { s with timers := s.timers.filter fun e => e.1 ≠ t }

/-- Starts a timer, which is due `ns` from now. -/
def State.start (s : State) (t : Timer) (ns : Nat) : State :=
  { s with timers := (t, s.now + ns) :: s.timers.filter fun e => e.1 ≠ t }

/-- The timer runs and its time has come. -/
def State.due (s : State) (t : Timer) : Bool :=
  s.timers.any fun e => decide (e.1 = t) && decide (e.2 ≤ s.now)

/-- The timer runs. -/
def State.runs (s : State) (t : Timer) : Bool :=
  s.timers.any fun e => decide (e.1 = t)

/-- Nanoseconds in a microsecond and in a millisecond. -/
def us : Nat := 1000
def ms : Nat := 1000000

/-! Open values and outputs. -/

/-- A fresh open number. -/
def State.draw (s : State) : Nat × State :=
  (Config.freeNat s.draws, { s with draws := s.draws + 1 })

/-- `n` open bytes. -/
def State.openBytes (s : State) (n : Nat) : List Nat × State :=
  ((List.range n).map fun i => (Config.freeWord (s.draws + i)).toNat % 256, { s with draws := s.draws + n })

/-- One element of a list, where the manual leaves the choice open; a single element needs no choice. -/
def State.pick {α : Type} (s : State) (d : α) : List α → α × State
  | [] => (d, s)
  | [x] => (x, s)
  | x :: l => let (n, s') := s.draw; ((x :: l).getD (n % (l.length + 1)) d, s')

/-- Something leaves the device. -/
def State.emit (s : State) (o : Out) : State :=
  { s with out := s.out ++ [o] }

/-! Event registers. -/

/-- Sets the stamps of the bits of `mask` (R364). -/
def setStamps (m : List (Nat × Nat)) (evt seq : Nat) (is : List Nat) : List (Nat × Nat) :=
  is.foldl (fun m i => Map.put 0 m (32 * evt + i) seq) m

/-- Hardware records events in an SQC register in one clock: SEQ increments, and each bit is set and stamped (R364). -/
def State.record (s : State) (evt mask : Nat) : State :=
  if mask = 0 then s
  else
    let w := s.rd evt
    let seq := (bits w 31 24 + 1) % 256
    let s := s.wr evt (seq * 2 ^ 24 + (bits w 23 0 ||| mask))
    { s with stamps := setStamps s.stamps evt seq (bitsSet mask 24) }

/-- The event bits that a write back of `v` clears (R364): written as 1, and stamped no later than the written SEQ. -/
def sqcClears (s : State) (evt v : Nat) : List Nat :=
  (bitsSet (bits v 23 0) 24).filter fun i =>
    decide ((bits v 31 24 + 256 - Map.get 0 s.stamps (32 * evt + i)) % 256 < 128)

/-- The written SEQ is ahead of the register (R364). -/
def sqcAhead (s : State) (evt v : Nat) : Bool :=
  let d := (bits v 31 24 + 256 - s.fld evt 31 24) % 256
  decide (1 ≤ d) && decide (d ≤ 127)

/-- A write back that is not ahead of the register (R364). -/
def State.writeBack (s : State) (evt v : Nat) : State :=
  (sqcClears s evt v).foldl (fun s i => s.setBit evt i false) s

/-! Performance counters. -/

/-- The counters stand still (R391). -/
def pmcFrozen (s : State) : Bool := s.bit A.PMC_STAT 31

/-- Adds `n` to counter `j` of group `g`; a wrap waits for its own step (R392). -/
def pmcAdd (s : State) (g j n : Nat) : State :=
  let a := A.PMC_CTR_LO g j
  let v := s.rd64 a + n
  let s := s.wr64 a (v % 2 ^ 48)
  if 2 ^ 48 ≤ v then { s with pmcWraps := s.pmcWraps ++ [(g, j)] } else s

/-- Event `ev` of group `g` happens `n` times, or brings `n` bytes (R390). -/
def State.pmcEvent (s : State) (g ev n : Nat) : State :=
  if pmcFrozen s then s
  else (List.range 8).foldl (fun s j => if s.fld (A.PMC_G_SEL g j) 9 0 = ev then pmcAdd s g j n else s) s

end Sys2Proof.Machine
end

