-- ==== Sys2Proof/Machine/Operands.lean ====
section
/-! DEFINITION. The operand forms: the FTIME format (R7 to R10), requesters, numbering (R6), and the CRC-32C that the
image, the ingots and the trim records share (R54). -/

namespace Sys2Proof.Machine

/-- The requester as a number: 0 host, 1 management complex (the REQ field of GLB.AERR_INFO). -/
def reqNum : Req → Nat
  | .host => 0
  | .mgmt => 1

/-! FTIME as one number of units of 2^-16 ns. -/

/-- One second in units of 2^-16 ns. -/
def secUnits : Nat := 1000000000 * 65536

/-- One nanosecond in units of 2^-16 ns. -/
def nsUnits : Nat := 65536

/-- FTIME wraps with its 48-bit seconds field. -/
def ftWrap : Nat := 2 ^ 48 * secUnits

/-- The time that the words W2, W1 and W0 hold (R8). -/
def ftOfWords (w2 w1 w0 : Nat) : Nat :=
  (w2 * 65536 + w1 / 65536) * secUnits + w0 * 65536 + w1 % 65536

/-- W2, W1 and W0 of a time (R8). -/
def ftW2 (t : Nat) : Nat := t / secUnits / 65536 % 2 ^ 32
def ftW1 (t : Nat) : Nat := t / secUnits % 65536 * 65536 + t % 65536
def ftW0 (t : Nat) : Nat := t % secUnits / 65536

/-- The 12 bytes of a time in a frame (R9). -/
def ftBytes (t : Nat) : List Nat :=
  let sec := t / secUnits % 2 ^ 48
  let n := ftW0 t
  [sec / 2 ^ 40 % 256, sec / 2 ^ 32 % 256, sec / 2 ^ 24 % 256, sec / 2 ^ 16 % 256, sec / 2 ^ 8 % 256, sec % 256,
   n / 2 ^ 24 % 256, n / 2 ^ 16 % 256, n / 2 ^ 8 % 256, n % 256, t % 65536 / 256, t % 256]

/-- The FTIME register whose W2 lies at the address. -/
def State.rdTime (s : State) (a : Nat) : Nat :=
  ftOfWords (s.rd a) (s.rd (a + 4)) (s.rd (a + 8))

/-- Sets the FTIME register whose W2 lies at the address. -/
def State.wrTime (s : State) (a t : Nat) : State :=
  ((s.wr a (ftW2 t)).wr (a + 4) (ftW1 t)).wr (a + 8) (ftW0 t)

/-- A time moved by a signed number of units, within the range of FTIME. -/
def ftAdd (t : Nat) (d : Int) : Nat :=
  (((t : Int) + d) % (ftWrap : Int)).toNat

/-! Numbering (R6). -/

def portOfLane (l : Nat) : Nat := l / 8
def zoneOfPort (p : Nat) : Nat := p % 8
def zoneOfLane (l : Nat) : Nat := l / 8 % 8
def sliceOfPort (p : Nat) : Nat := p / 16
def runnerOfPort (p : Nat) : Nat := p / 4

/-- The eight ports of zone z, rising. -/
def portsOfZone (z : Nat) : List Nat := (List.range 8).map fun k => z + 8 * k

/-- The eight lanes of port p, rising. -/
def lanesOfPort (p : Nat) : List Nat := (List.range 8).map fun j => 8 * p + j

/-! Bytes. -/

/-- A number of `n` bytes, least significant byte first. -/
def leBytes : Nat → Nat → List Nat
  | 0, _ => []
  | n + 1, v => v % 256 :: leBytes n (v / 256)

/-- The number that bytes hold, least significant byte first. -/
def leNat : List Nat → Nat
  | [] => 0
  | b :: l => b + 256 * leNat l

/-- A number of `n` bytes, most significant byte first (R4). -/
def beBytes (n v : Nat) : List Nat := (leBytes n v).reverse

/-- The number that bytes hold, most significant byte first (R4). -/
def beNat (l : List Nat) : Nat := l.foldl (fun a b => 256 * a + b) 0

/-- Bytes `i` to `i + n − 1` of a list, zeros beyond its end. -/
def slice (l : List Nat) (i n : Nat) : List Nat :=
  (List.range n).map fun k => l.getD (i + k) 0

def toNats (l : List Byte) : List Nat := l.map BitVec.toNat
def ofNats (l : List Nat) : List Byte := l.map (BitVec.ofNat 8)

/-! CRC-32C (R54): polynomial 0x1EDC6F41, reflected, so 0x82F63B78 shifted right. -/

/-- One bit of a reflected CRC. -/
def crcBit (poly c : Nat) : Nat :=
  if c % 2 = 1 then (c / 2) ^^^ poly else c / 2

/-- `n` bits of a reflected CRC. -/
def crcBits (poly : Nat) : Nat → Nat → Nat
  | 0, c => c
  | n + 1, c => crcBits poly n (crcBit poly c)

/-- One byte of a reflected CRC. -/
def crcByte (poly c b : Nat) : Nat := crcBits poly 8 (c ^^^ (b % 256))

/-- The CRC-32C of bytes (R54). -/
def crc32c (l : List Nat) : Nat :=
  l.foldl (crcByte 0x82F63B78) 0xFFFFFFFF ^^^ 0xFFFFFFFF

end Sys2Proof.Machine
end

