-- ==== Sys2Proof/Machine/Memory.lean ====
section
/-! DEFINITION. The scratchpad banks as byte-addressed memory (R394): a sorted list of bytes over a background. -/

namespace Sys2Proof.Machine

/-- Where byte `i` of bank `b` lies in the list. -/
def bankKey (b i : Nat) : Nat := b * 2 ^ 24 + i

/-- The size of bank `b` in bytes (table Scratchpad banks). -/
def bankSize (b : Nat) : Nat :=
  if b ≤ 1 then 4 * 2 ^ 20 else if b ≤ 5 then 8 * 2 ^ 20 else if b ≤ 7 then 16 * 2 ^ 20
  else if b ≤ 9 then 8 * 2 ^ 20 else 4 * 2 ^ 20

/-- What a byte that nothing wrote holds, where it is defined: 0 in a bank that was written to 0. -/
def bankDefault (banks : List (Nat × BankHidden)) (k : Nat) : Option Byte :=
  if (Map.get {} banks (k / 2 ^ 24)).undefd = 0 then some 0 else none

/-- The byte of the list at the key, if it is listed. -/
def Cells.get : List Host.Cell → Nat → Option Byte
  | [], _ => none
  | (k, v) :: m, a => if k = a then some v else Cells.get m a

/-- Sets the byte at the key; a byte equal to the background `d` is taken out of the list. -/
def Cells.put (d : Option Byte) (m : List Host.Cell) (a : Nat) (v : Byte) : List Host.Cell :=
  if some v = d then m.filter fun e => decide (e.1 ≠ a) else Map.set m a v

/-- The keys from `lo` on rise strictly, and no byte equals its background. -/
def Cells.wfFrom (d : Nat → Option Byte) : Nat → List Host.Cell → Bool
  | _, [] => true
  | lo, (k, v) :: m => decide (lo ≤ k) && decide (some v ≠ d k) && Cells.wfFrom d (k + 1) m

/-- The canonical form of the banks' contents. -/
def Memory.wf (s : State) : Bool := Cells.wfFrom (bankDefault s.banks) 0 s.mem

/-- Byte `i` of bank `b`. -/
def State.bankByte (s : State) (b i : Nat) : Byte :=
  match Cells.get s.mem (bankKey b i) with
  | some v => v
  | none => (bankDefault s.banks (bankKey b i)).getD (Config.bankByte b i (Map.get {} s.banks b).undefd)

/-- Writes byte `i` of bank `b`. -/
def State.putBankByte (s : State) (b i : Nat) (v : Byte) : State :=
  { s with mem := Cells.put (bankDefault s.banks (bankKey b i)) s.mem (bankKey b i) v }

/-- Writes bytes from byte `i` of bank `b` on. -/
def State.putBank (s : State) (b i : Nat) : List Nat → State
  | [] => s
  | v :: l => (s.putBankByte b i (BitVec.ofNat 8 v)).putBank b (i + 1) l

/-- The 32-bit word at byte `i` of bank `b`, little-endian. -/
def State.bankWord (s : State) (b i : Nat) : Nat :=
  leNat ((List.range 4).map fun k => (s.bankByte b (i + k)).toNat)

/-- Every byte of bank `b` is taken out of the list, and its background becomes 0 or undefined. -/
def State.clearBank (s : State) (b : Nat) (zero : Bool) : State :=
  let h := Map.get ({} : BankHidden) s.banks b
  { s with
    mem := s.mem.filter fun e => e.1 / 2 ^ 24 ≠ b
    banks := Map.put {} s.banks b { h with undefd := if zero then 0 else s.draws + 1 }
    draws := if zero then s.draws else s.draws + 1 }

/-- The STATE of bank `b`: 0 OFF, 1 ON, 2 RETENTION, 3 CHANGING, 4 FAILED. -/
def bankState (s : State) (b : Nat) : Nat := s.fld (A.MEM_BANK_STAT b) 31 28

/-- Bank `b` is ON. -/
def bankOn (s : State) (b : Nat) : Bool := decide (bankState s b = 1)

end Sys2Proof.Machine
end

