-- ==== Sys2Proof/Machine/TimeView.lean ====
section
/-! DEFINITION. Reading the time bases (R122, R124), and the states of the device that every block asks for. -/

namespace Sys2Proof.Machine

/-- What time base `n` holds beside its registers. -/
def State.tb (s : State) (n : Nat) : TbHidden := Map.get {} s.tbs n

def State.putTb (s : State) (n : Nat) (h : TbHidden) : State :=
  { s with tbs := Map.put {} s.tbs n h }

/-- The FTIME of time base `n` (R122): the top 16 bits of its fraction, in 2^-16 ns. -/
def tbTime (s : State) (n : Nat) : Nat := (s.tb n).acc / 2 ^ 32 % ftWrap

/-- The FTIME of TB0, which every local counter of the data die holds (R124). -/
def tb0 (s : State) : Nat := tbTime s 0

/-- The applied rate in ppt. -/
def tbRate (s : State) (n : Nat) : Int := toSigned 32 (s.rd (A.TIM_TB_RATE n))

/-- 10^12 times the ratio at which a clock that follows time base `n` runs (R153). -/
def followScale (s : State) (n : Nat) : Nat := (1000000000000 + tbRate s n).toNat

/-- The frequency of a clock that follows time base `n`, from the one programmed for it (R153). -/
def followed (s : State) (n : Nat) (f : Rat) : Rat := f * mkRat (followScale s n) 1000000000000

/-- A switch-over gap is in progress (R212). -/
def inGap (s : State) : Bool := s.bit A.TCO_STAT 11

/-- What a time read or a latch of time base `n` shows: the held value during a switch-over gap. -/
def shownTime (s : State) (n : Nat) : Nat := if inGap s then s.tco.held.getD n 0 else tbTime s n

/-- An anneal holds the item (R218): KIND and INDEX of the item in MEASURE, DECIDE or INSTALL, or waiting for a gap to end. -/
def annealHolds (s : State) (kind index : Nat) : Bool :=
  decide (2 ≤ s.fld A.CAL_STAT 31 28) && decide (s.fld A.CAL_STAT 23 20 = kind) && decide (s.fld A.CAL_STAT 8 0 = index)

/-- The address of TIM.TBn_SRC. -/
def tbSrc (n : Nat) : Nat := A.TIM_TB0_SRC + n * 0x40

/-- GLB.BOOT_STAT.STATE. -/
def bootState (s : State) : Nat := s.fld A.GLB_BOOT_STAT 3 0

/-- The data die is in RUN. -/
def inRun (s : State) : Bool := decide (bootState s = 5)

/-- The data die's lanes, ports and data path run: RUN, or the drain of SLEEP_ENTRY. -/
def dataPathOn (s : State) : Bool := decide (bootState s = 5 ∨ bootState s = 8)

/-- GLB.ZONE_STAT: zone z is in fault, is in reset. -/
def zoneFault (s : State) (z : Nat) : Bool := s.bit A.GLB_ZONE_STAT (16 + z)
def zoneInReset (s : State) (z : Nat) : Bool := s.bit A.GLB_ZONE_STAT (8 + z)

/-- Island loop `i` (12 + p for port loop p) lost its lock, and its island stands still (R182). -/
def loopStopped (s : State) (i : Nat) : Bool := (Map.get ({} : LoopHidden) s.loops i).stopped

/-- The data die sleeps: the clocks of its islands stand (table Sleep entry sequence). -/
def asleep (s : State) : Bool := decide (bootState s = 9)

/-- The circuits of island `i` are clocked: its loop runs, and the data die does not sleep (R63, R182). LSYN, loop 11,
lies on the timing die. -/
def islandRuns (s : State) (i : Nat) : Bool := !loopStopped s i && !(asleep s && decide (i ≠ 11))

/-- The island of port `p` runs: its own loop and LSYN are locked. -/
def portIslandRuns (s : State) (p : Nat) : Bool := islandRuns s (12 + p) && islandRuns s 11

/-- The receive and transmit path of port `p` is stalled by a stopped island: its own, its slice's or the central one. -/
def portStalled (s : State) (p : Nat) : Bool :=
  loopStopped s (12 + p) || loopStopped s 11 || loopStopped s (sliceOfPort p) || loopStopped s 4

/-- The zone that holds the address, if the address lies on the zone path (R15). -/
def zoneOf (a : Nat) : Option Nat :=
  if 0x180000 ≤ a ∧ a < 0x1A0000 then some ((a - 0x180000) / 0x800 % 8)
  else if 0x800000 ≤ a ∧ a < 0x900000 then some ((a - 0x800000) / 0x4000 % 8)
  else if 0x1000000 ≤ a ∧ a < 0x1200000 then some ((a - 0x1000000) / 0x1000 / 8 % 8)
  else none

/-- The port in whose island the node of an address lies: that of a PTP or a PORT block. -/
def portNodeOf (a : Nat) : Option Nat :=
  if 0x180000 ≤ a ∧ a < 0x1A0000 then some ((a - 0x180000) / 0x800)
  else if 0x800000 ≤ a ∧ a < 0x900000 then some ((a - 0x800000) / 0x4000)
  else none

/-- The address lies on the timing die. -/
def onTimingDie (a : Nat) : Bool := decide (0x100000 ≤ a ∧ a < 0x180000)

/-- GLB, PWR, INT and HOST, which answer in every state of the data die (R47, R63). -/
def alwaysOn (a : Nat) : Bool := decide (a < 0x30000) || decide (0x70000 ≤ a ∧ a < 0x80000)

/-- The islands that lead to the node of an address are clocked (R182; which island holds which block is DEDUCED,
assumption 18): the zone controllers and the port's island, or the central island for a block of the data path. -/
def nodeRuns (s : State) (a : Nat) : Bool :=
  match zoneOf a with
  | some _ => islandRuns s 6 && (match portNodeOf a with | some p => portIslandRuns s p | none => true)
  | none => alwaysOn a || onTimingDie a || islandRuns s 4

end Sys2Proof.Machine
end

