-- ==== Sys2Proof/Machine/Observe.lean ====
section
/-! DEFINITION. What the blocks of the data die count and find without changing anything: pools, queues, groups,
windows, trims. The registers that report it read it (View), and the blocks use it. -/

namespace Sys2Proof.Machine

/-- The device is in SLEEP_ENTRY, SLEEP or WAKE. -/
def inSleep (s : State) : Bool := decide (8 ≤ bootState s ∧ bootState s ≤ 10)

def portType (s : State) (p : Nat) : Nat := s.fld (A.PORT_CFG p) 3 0
def portNeg (s : State) (p : Nat) : Nat := s.fld (A.PORT_CFG p) 5 4
def portState (s : State) (p : Nat) : Nat := s.fld (A.PORT_STAT p) 31 28
def typeEff (s : State) (p : Nat) : Nat := s.fld (A.PORT_STAT p) 27 24
def portHold (s : State) (p : Nat) : Nat := s.fld (A.PORT_STAT p) 15 12
def portEnabled (s : State) (p : Nat) : Bool := s.bit (A.PORT_CTRL p) 0
def portUp (s : State) (p : Nat) : Bool := decide (portState s p = 2)
def portAllows (s : State) (p t : Nat) : Bool := s.bit (A.PORT_ALLOWED p) t

def frameOf (s : State) (fid : Nat) : Option Frame := s.buf.frames.find? fun f => decide (f.id = fid)

/-- The cells of `n` bytes (R244). -/
def cellsOf (n : Nat) : Nat := (n + 255) / 256

def frameLen (f : Frame) : Nat := f.bytes.length
def frameCells (f : Frame) : Nat := cellsOf (frameLen f)

/-- The cells of the frame of a copy. -/
def pktCells (s : State) (k : Pkt) : Nat := (frameOf s k.fid).elim 0 frameCells

/-- The frame has arrived whole. -/
def arrived (s : State) (f : Frame) : Bool := decide (f.done ≤ s.now) && !f.early

/-- The cells of a copy in staging, and those back in the Crucible. -/
def DeepCells.staged (d : DeepCells) : Nat := d.stagedIn.length
def DeepCells.back (d : DeepCells) : Nat := d.backIn.length

/-- The banks of the Crucible, and the cells of one bank (R244). -/
def bankCount : Nat := 64
def bankCells : Nat := 12288

/-- The banks of all cells that the Crucible holds, and the cells in one of them. -/
def heldCells (s : State) : List Nat :=
  (s.buf.frames.flatMap Frame.banks) ++
    s.buf.pkts.flatMap fun k => match k.deep with | some d => d.stagedIn ++ d.backIn | none => []
def bankUse (s : State) (b : Nat) : Nat := (heldCells s).count b

/-- The queue profile of queue `q` of port `e` (QSEL0, QSEL1). -/
def queueProfile (s : State) (e q : Nat) : Nat :=
  s.fld (A.QM_P_QSEL e (q / 8)) (3 * (q % 8) + 2) (3 * (q % 8))

def qMin (s : State) (e q : Nat) : Nat := s.fld (A.QM_QPROF_A (queueProfile s e q)) 15 0
def qAlpha (s : State) (e q : Nat) : Nat := s.fld (A.QM_QPROF_A (queueProfile s e q)) 31 24
def qSpillEn (s : State) (e q : Nat) : Bool := s.bit (A.QM_QPROF_A (queueProfile s e q)) 16
def qDeepMax (s : State) (e q : Nat) : Nat := s.fld (A.QM_QPROF_B (queueProfile s e q)) 31 16
def qSpillOn (s : State) (e q : Nat) : Nat := s.fld (A.QM_QPROF_B (queueProfile s e q)) 15 0

/-- The cells that a frame holds of the shared pool and of headroom together; while it arrives, a frame that may need
shared cells holds back 64 (R252). -/
def sharedOf (s : State) (f : Frame) : Nat :=
  match f.pool with
  | .admitted _ _ _ sh hd holds => (if holds && !arrived s f then Nat.max 64 sh else sh) + hd
  | .held => frameCells f
  | _ => 0

/-- The cells on the deep path that are charged to the shared pool or to headroom. -/
def sharedDeep (k : Pkt) : Nat :=
  match k.deep with
  | none => 0
  | some d => (if d.headroom && d.charged then d.staged else 0) + d.back

/-- The cells of the pools in use (R245). -/
def useHeadroom (s : State) : Nat := (s.buf.pgs.map fun e => e.2.headroom).sum
def useStage (s : State) : Nat :=
  (s.buf.pkts.map fun k => match k.deep with | some d => (if d.headroom then 0 else d.staged) | none => 0).sum
def useLl (s : State) : Nat := ((s.buf.frames.filter fun f => f.pool = .ll).map frameCells).sum
def useRecirc (s : State) : Nat := ((s.buf.frames.filter fun f => f.pool = .recirc).map frameCells).sum

/-- The minimum pool: MIN of queues 0 to 15 of every port whose TYPE is not 0 (R245). -/
def minPool (s : State) : Nat :=
  ((List.range 64).map fun p =>
    if portType s p = 0 then 0 else ((List.range 16).map fun q => qMin s p q).sum).sum

/-- The size of the shared pool (R245). -/
def sharedSize (s : State) : Nat :=
  bankCount * bankCells - (s.fld A.QM_POOL_LL 19 0 + s.fld A.QM_POOL_HDRM 19 0 + s.fld A.QM_POOL_STAGE 19 0 + s.fld A.QM_POOL_RCX 19 0
    + minPool s)

/-- The shared cells in use or held back. Headroom in use is not among them (R260). -/
def sharedUse (s : State) : Nat :=
  ((s.buf.frames.map (sharedOf s)).sum + (s.buf.pkts.map sharedDeep).sum) - useHeadroom s

/-- QM.FREE (R252). -/
def freeShared (s : State) : Nat := sharedSize s - sharedUse s

/-- A stack is trained. -/
def stackUp (s : State) (st : Nat) : Bool := s.bit A.DBF_STAT (24 + st)

/-- Region `g` is retired; it is available when it is not and its stack is trained. -/
def regionRetired (s : State) (g : Nat) : Bool := s.bit (A.DBF_RETIRED (g / 32)) (g % 32)
def regionAvailable (s : State) (g : Nat) : Bool := stackUp s (g / 7 / 32) && !regionRetired s g

/-- The cells that hold data in region `g`. -/
def regionUse (s : State) (g : Nat) : Nat :=
  (s.buf.pkts.map fun k =>
    match k.deep with
    | some d => ((d.stored ++ d.reading.map Prod.fst).filter fun c => decide (c.region = g)).length
    | none => 0).sum

/-- DBF.CAP and DBF.FREE: the cells in available regions, and the free ones among them. -/
def deepCap (s : State) : Nat := 262144 * ((List.range 896).filter fun g => regionAvailable s g).length
def deepFree (s : State) : Nat :=
  (((List.range 896).filter fun g => regionAvailable s g).map fun g => 262144 - regionUse s g).sum

/-- Pseudo-channels with at least one healthy region, and the pass-through limit in Gb/s (R255). -/
def healthyChannels (s : State) : Nat :=
  ((List.range 128).filter fun c => (List.range 7).any fun k => regionAvailable s (7 * c + k)).length
def deepLimit (s : State) : Nat := 125 * healthyChannels s

/-- The rate in Gb/s of cells moved in the last 10 µs (DBF.RATE). -/
def deepRate (s : State) (l : List Nat) : Nat :=
  (l.filter fun t => decide (s.now < t + 10 * us)).length * 2048 / (10 * us)

def grpEn (s : State) (g : Nat) : Bool := s.bit (A.SPR_GRP_CFG g) 31
def grpSpread (s : State) (g : Nat) : Bool := s.bit (A.SPR_GRP_CFG g) 30
def slotEn (s : State) (g m : Nat) : Bool := s.bit (A.SPR_GRP_MEM g m) 31
def slotDrain (s : State) (g m : Nat) : Bool := s.bit (A.SPR_GRP_MEM g m) 30
def slotPort (s : State) (g m : Nat) : Nat := s.fld (A.SPR_GRP_MEM g m) 5 0

/-- A member slot is eligible for new frames (R274). -/
def slotEligible (s : State) (g m : Nat) : Bool := slotEn s g m && !slotDrain s g m && portUp s (slotPort s g m)

/-- SPR.GRPg_STAT.ELIG (R274). -/
def eligMask (s : State) (g : Nat) : Nat :=
  ((List.range 16).map fun m => if slotEligible s g m then 2 ^ m else 0).sum

/-- The frames in the Ladle's FIFO. -/
def ladleFifo (s : State) : List Pkt := s.buf.pkts.filter fun k => match k.loc with | .ladle _ => true | _ => false

/-- The copies and placeholders that a context holds, with their numbers. -/
def riserPkts (s : State) (c : Nat) : List (Pkt × Nat) :=
  s.buf.pkts.filterMap fun k => match k.loc with | .riser d n _ => if d = c then some (k, n) else none | _ => none
def riserMarks (s : State) (c : Nat) : List Nat :=
  (s.buf.holders.filter fun h => decide (h.c = c)).map Placeholder.seq

/-- The cells that a context, and all contexts, hold (RSQ.USE). -/
def riserCells (s : State) (c : Nat) : Nat := ((riserPkts s c).map fun e => pktCells s e.1).sum
def riserUse (s : State) : Nat :=
  ((s.buf.pkts.filter fun k => match k.loc with | .riser _ _ _ => true | _ => false).map (pktCells s)).sum

/-- The copies of a port that hold a window. -/
def windowPkts (s : State) (p : Nat) : List Pkt :=
  s.buf.pkts.filter fun k =>
    decide (k.e = p) && decide (k.q = 16) && k.loc = .queue &&
      (match k.ll with | some w => w.state = .granted || w.state = .tentative | none => false)

/-- The windows of a port: those that wait and those that started within the last 10 µs. -/
def portWindows (s : State) (p : Nat) : List (Nat × Nat) :=
  ((s.buf.windows.filter fun w => decide (w.1 = p)).map (·.2)) ++
    (windowPkts s p).filterMap fun k => k.ll.map fun w => (w.start, w.stop - w.start)

/-- What lane `l` holds beside its registers. -/
def State.lane (s : State) (l : Nat) : LaneHidden := Map.get {} s.lanes l

/-- The failed attempts within the last 10 s (R89). -/
def recentFails (s : State) (l : Nat) : List Nat :=
  (s.lane l).fails.filter fun t => decide (s.now < t + 10000 * ms)

/-- Seconds left of the wait-to-restore timer. -/
def wtrLeft (s : State) : Nat :=
  match s.timer .refWtr with
  | some t => (t - s.now + 1000 * ms - 1) / (1000 * ms)
  | none => 0

/-- The key of an item. -/
def trimKey (kind sub index : Nat) : Nat := kind * 2 ^ 24 + sub * 2 ^ 16 + index

/-- The fuse trim of an item: for a lane direction the fuses also give the register's reset value. -/
def fuseTrim (kind sub index : Nat) : Word :=
  if kind = 1 then resetOf (A.LANE_DLY_TX index)
  else if kind = 2 then resetOf (A.LANE_DLY_RX index)
  else Config.fuseWord (2 ^ 28 + trimKey kind sub index)

/-- The installed trim of an item. -/
def trimRec (s : State) (kind sub index : Nat) : TrimRec :=
  (Map.get none s.trims (trimKey kind sub index)).getD ⟨fuseTrim kind sub index, 0, 0⟩

def trimValue (s : State) (kind sub index : Nat) : Nat := (trimRec s kind sub index).value.toNat

/-- LANE.DLY_TX and LANE.DLY_RX: the chain and the delay of the installed trim. -/
def dlyTx (s : State) (l : Nat) : Nat := trimValue s 1 0 l % 2 ^ 26
def dlyRx (s : State) (l : Nat) : Nat := trimValue s 2 0 l % 2 ^ 26

def State.tdc (s : State) (i : Nat) : TdcHidden := Map.get {} s.tdcs i
/-- The self-test failures of core `c` in the last 10 s (R214). -/
def testFails (s : State) (c : Nat) : List (Nat × Nat) :=
  s.tco.fails.filter fun e => decide (e.1 = c) && decide (s.now < e.2 + 10000 * ms)

/-- The levels of the gates after polarity (TDC.GATE_STAT). -/
def gateLevels (s : State) : Nat := s.gatePins % 16 ^^^ s.fld A.TDC_GATE_CFG 3 0

def putTdc (s : State) (i : Nat) (h : TdcHidden) : State := { s with tdcs := Map.put {} s.tdcs i h }

/-- The failures of the last 10 s. -/
def tdcFails (s : State) (i : Nat) : List Nat := (s.tdc i).fails.filter fun t => decide (s.now < t + 10000 * ms)

/-- The classes of a trunk whose partial record began before TB0 time `t` and is not classified yet. -/
def partialsBefore (h : TrunkHidden) (t : Nat) : List Nat :=
  (List.range 8).filter fun c =>
    (match Map.get none h.partialAt c with | some b => decide (b.came < t) | none => false) &&
      !(h.early.any fun e => decide (e.1 = c))

/-- The frames before TB0 time `t` that are not yet classified: those that trunks delivered, or are delivering, and those
that were still arriving at the commit (R241). -/
def unclassified (s : State) (t : Nat) : Nat :=
  (s.trunks.map fun e => (e.2.delivered.filter fun d => decide (d.came < t)).length + (partialsBefore e.2 t).length).sum
    + s.cls.arriving.length

/-- The count of frames and copies that carry the heat of a slot (SLOTs_REFS); of a DRAINING slot (state 6), also those
that wait for classification with a timestamp before T. -/
def slotRefs (s : State) (x : Nat) : Nat :=
  (match s.cls.lastT with
   | some (t, _) => if s.fld A.HEAT_STAT (26 + 3 * x) (24 + 3 * x) = 6 then unclassified s t else 0
   | none => 0) +
  (s.buf.pkts.filter fun k => match frameOf s k.fid with | some f => decide (f.slot = some x) | none => false).length
    + (s.asy.frames.filter fun f => decide (f.slot = some x)).length

def ctxEn (s : State) (c : Nat) : Bool := s.bit (A.ASY_CTX_CFG c) 31
def ctxSliding (s : State) (c : Nat) : Bool := s.bit (A.ASY_CTX_CFG c) 30
def ctxSlice (s : State) (c : Nat) : Nat := s.fld (A.ASY_CTX_CFG c) 29 28
def ctxTin (s : State) (c : Nat) : Bool := s.bit (A.ASY_CTX_CFG c) 27
/-- W, OFF and CLOSE in 2^-16 ns. -/
def ctxW (s : State) (c : Nat) : Nat := s.fld (A.ASY_CTX_WIN c) 19 0 * nsUnits
def ctxOff (s : State) (c : Nat) : Nat := s.fld (A.ASY_CTX_OFF c) 19 0 * nsUnits
def ctxClose (s : State) (c : Nat) : Nat := s.fld (A.ASY_CTX_CLOSE c) 19 0 * nsUnits

end Sys2Proof.Machine
end

