-- ==== Sys2Proof/Machine/View.lean ====
section
/-! DEFINITION. What a register reads as. A read changes nothing (R360), so this is an observation of the state: most
registers read what they hold, and the ones below are read from elsewhere. -/

namespace Sys2Proof.Machine

/-- The word of the Snapshot store that the readout window shows (R375). -/
def snpWindow (s : State) (o : Nat) : Nat :=
  let slot := s.fld A.SNP_RD_SEL 8 3
  let page := s.fld A.SNP_RD_SEL 2 0
  s.bankWord (8 + slot / 32) (slot % 32 * 2 ^ 18 + page * 2 ^ 15 + o)

/-- The word of the bank that MEM.WIN shows (R396), if the bank is ON. -/
def memWindow (s : State) (o : Nat) : Option Nat :=
  let b := s.fld A.MEM_WIN_SEL 19 16
  if bankOn s b then some (s.bankWord b (s.fld A.MEM_WIN_SEL 8 0 * 2 ^ 15 + o)) else none

/-- The live time words of TIM (R125): W2 is live, W1 and W0 come from the requester's shadow. -/
def timeWord (s : State) (r : Option Req) (n w : Nat) : Nat :=
  let t := match r with
    | some q => Map.get 0 s.shadows (2 * n + reqNum q)
    | none => shownTime s n
  if w = 2 then ftW2 (shownTime s n) else if w = 1 then ftW1 t else ftW0 t

/-- The entry of an array of registers that an address names: the array's base, stride and length. -/
def entryOf (a base stride n : Nat) : Option Nat :=
  if base ≤ a ∧ a < base + stride * n ∧ (a - base) % stride = 0 then some ((a - base) / stride) else none

/-- The window time of the last 10 µs in units of 1/1 000, and the windows pending (LLD.Pp_STAT). -/
def lldStat (s : State) (p : Nat) : Nat :=
  let used := ((s.buf.windows.filter fun w => decide (w.1 = p) && decide (tb0 s < w.2.1 + 10 * us * nsUnits)).map
    (·.2.2)).sum
  (windowPkts s p).length * 2 ^ 16 + Nat.min 127 (Config.quot (used * 1000) (10 * us * nsUnits))

/-- The item that CAL.TRIM_SEL selects. -/
def selTrim (s : State) : TrimRec :=
  trimRec s (s.fld A.CAL_TRIM_SEL 27 24) (s.fld A.CAL_TRIM_SEL 23 16) (s.fld A.CAL_TRIM_SEL 8 0)

/-- The contexts enabled on an engine slice, and the memberships queued for it (ASY.ESLe_STAT). -/
def eslStat (s : State) (e : Nat) : Nat :=
  ((List.range 256).filter fun c => ctxEn s c && decide (s.fld (A.ASY_CTX_STAT c) 27 26 = e)).length * 2 ^ 20 +
    (s.asy.fifo.filter fun x => decide (x.e = e)).length

/-- Registers that report what QM and DBF count. -/
def poolWord (s : State) (a : Nat) : Option Nat :=
  if a = A.QM_SHARED then some (sharedSize s) else if a = A.QM_FREE then some (freeShared s)
  else if a = A.QM_USE_LL then some (useLl s) else if a = A.QM_USE_HDRM then some (useHeadroom s)
  else if a = A.QM_USE_STAGE then some (useStage s) else if a = A.QM_USE_RCX then some (useRecirc s)
  else if a = A.DBF_CAP then some (deepCap s) else if a = A.DBF_FREE then some (deepFree s)
  else if a = A.DBF_RATE then some (deepRate s s.buf.written * 2 ^ 16 + deepRate s s.buf.fetched)
  else if a = A.DBF_LIMIT then some (deepLimit s)
  else if a = A.TDC_GATE_STAT then some (gateLevels s)
  else if a = A.SPR_MIG_ACTIVE then some s.buf.migs.length
  else if a = A.LDL_STAT then some (ladleFifo s).length
  else if a = A.CAL_TRIM_VAL then some (selTrim s).value.toNat
  else if a = A.CAL_TRIM_INFO then some ((selTrim s).src * 2 ^ 30 + (selTrim s).temp)
  else if a = A.REF_SEL_STAT then some (putBits (s.rd a) 15 0 (wtrLeft s))
  else none

/-- The same of registers that stand in arrays, which keep their other fields. -/
def arrayWord (s : State) (a : Nat) : Option Nat :=
  match entryOf a (A.SPR_GRP_STAT 0) 0x80 32 with
  | some g => some (putBits (s.rd a) 15 0 (eligMask s g))
  | none =>
  match entryOf a (A.RSQ_CTX_STAT 0) 0x10 4096 with
  | some c => some (putBits (s.rd a) 8 0 (riserCells s c))
  | none =>
  match entryOf a (A.LLD_P_STAT 0) 0x40 64 with
  | some p => some (lldStat s p)
  | none =>
  match entryOf a (A.LANE_FAULT 0) 0x1000 512 with
  | some l => some (putBits (s.rd a) 1 0 (Nat.min 3 (recentFails s l).length))
  | none =>
  match entryOf a (A.LANE_DLY_TX 0) 0x1000 512 with
  | some l => some (dlyTx s l)
  | none =>
  match entryOf a (A.LANE_DLY_RX 0) 0x1000 512 with
  | some l => some (dlyRx s l)
  | none =>
  match entryOf a (A.TDC_CH_STAT 0) 0x200 16 with
  | some i => some (putBits (s.rd a) 23 22 (Nat.min 3 (tdcFails s i).length))
  | none =>
  match entryOf a (A.TCO_HEALTH 0) 4 2 with
  | some c => some (putBits (s.rd a) 27 26 (Nat.min 3 (testFails s c).length))
  | none =>
  match entryOf a (A.HEAT_SLOT_REFS 0) 0x10 2 with
  | some x => some (Nat.min (slotRefs s x) (2 ^ 24 - 1))
  | none =>
  match entryOf a (A.ASY_INQ 0) 4 5 with
  | some q => some (s.asy.recs.filter fun r => decide (r.q = q)).length
  | none =>
  match entryOf a (A.ASY_ESL_STAT 0) 4 4 with
  | some e => some (eslStat s e)
  | none =>
  match entryOf a (A.ASY_CTX_STAT 0) 0x80 256 with
  | some c => some (putBits (s.rd a) 19 0 (s.asy.hist.filter fun r => decide (r.c = c)).length)
  | none => none

/-- What the register at the address reads as, for a requester, or as an ingot latches it. `none` is an error
response. -/
def viewReg (s : State) (r : Option Req) (a : Nat) : Option Nat :=
  match rowOf a with
  | none =>
    match rowOf (a ^^^ 0x800) with
    | some row => if row.acc = .grd then some (2 ^ 32 - 1 - s.rd (a ^^^ 0x800)) else some 0
    | none => some 0
  | some row =>
    if row.acc = .wo then some 0
    else if row.acc = .window then memWindow s (a - A.MEM_WIN 0)
    else if A.SNP_RD 0 ≤ a ∧ a < A.SNP_RD 0 + 0x8000 then some (snpWindow s (a - A.SNP_RD 0))
    else if A.PMC_USER 0 ≤ a ∧ a < A.PMC_USER 0 + 0x1000 then
      some (if s.bit A.PMC_UPAGE 0 then s.rd (a - A.PMC_USER 0 + A.PMC_CYC_LO 0) else 0)
    else if A.TIM_TB_TIME_W2 0 ≤ a ∧ a < A.TIM_TB_TIME_W2 8 ∧ (a - A.TIM_TB_TIME_W2 0) % 0x40 < 12 then
      some (timeWord s r ((a - A.TIM_TB_TIME_W2 0) / 0x40) (2 - (a - A.TIM_TB_TIME_W2 0) % 0x40 / 4))
    else some (((poolWord s a).or (arrayWord s a)).getD (s.rd a))

end Sys2Proof.Machine
end

