-- ==== Sys2Proof/Machine/Interrupts.lean ====
section
/-! DEFINITION. Interrupt sources, targets and their delivery (R376 to R385). -/

namespace Sys2Proof.Machine

/-- Source `i` is PENDING or ACTIVE_PENDING. -/
def srcPend (s : State) (i : Nat) : Bool := s.bit (A.INT_PEND (i / 32)) (i % 32)

/-- Source `i` is ACTIVE or ACTIVE_PENDING. -/
def srcAct (s : State) (i : Nat) : Bool := s.bit (A.INT_ACT (i / 32)) (i % 32)

/-- The source numbers that the chapters assign, in the order of the numbers (R376). -/
def assignedRanges : List (Nat × Nat) :=
  [(0, 3), (40, 48), (52, 52), (56, 56), (64, 72), (80, 88), (96, 117), (128, 799), (896, 897), (928, 991), (1022, 1023)]

/-- A chapter assigns the source (R376). -/
def sourceAssigned (i : Nat) : Bool := assignedRanges.any fun r => decide (r.1 ≤ i ∧ i ≤ r.2)

def srcEn (s : State) (i : Nat) : Bool := s.bit (A.INT_SRC i) 31
def srcPrio (s : State) (i : Nat) : Nat := s.fld (A.INT_SRC i) 19 16
def srcTarget (s : State) (i : Nat) : Nat := s.fld (A.INT_SRC i) 5 0

def setPend (s : State) (i : Nat) (b : Bool) : State := s.setBit (A.INT_PEND (i / 32)) (i % 32) b
def setAct (s : State) (i : Nat) (b : Bool) : State := s.setBit (A.INT_ACT (i / 32)) (i % 32) b

/-- The sources of blocks that are off in SLEEP (table Blocks in sleep): those of the zones, TAC, SNP, MEM, the lanes, the
ports, the data path, the counters and Assay (DEDUCED, assumption 17). -/
def sourceSleeps (i : Nat) : Bool := decide ((40 ≤ i ∧ i ≤ 56) ∨ (128 ≤ i ∧ i ≤ 959))

/-- A raise of source `i` has an effect: EN is 1, and its block is not off (R377, R385). -/
def srcLive (s : State) (i : Nat) : Bool := srcEn s i && !(asleep s && sourceSleeps i)

/-- The sources whose bit is 1 in a bank of 32 words. -/
def sourcesIn (s : State) (bank : Nat → Nat) : List Nat :=
  (List.range 32).flatMap fun w =>
    let v := s.rd (bank w)
    if v = 0 then [] else (bitsSet v 32).map fun i => 32 * w + i

/-- The running priority of target `t` (R379). -/
def runningPrio (s : State) (t : Nat) : Nat :=
  ((sourcesIn s A.INT_ACT).filter fun i => decide (srcTarget s i = t)).foldl (fun m i => Nat.max m (srcPrio s i)) 0

/-- Source `i` is deliverable at target `t` (R379). -/
def deliverable (s : State) (t i : Nat) : Bool :=
  srcPend s i && !srcAct s i && srcEn s i && decide (srcTarget s i = t) &&
    decide (s.fld (A.INT_T_CFG t) 3 0 < srcPrio s i) && decide (runningPrio s t < srcPrio s i)

/-- The sources that are deliverable at target `t`. -/
def deliverables (s : State) (t : Nat) : List Nat :=
  (sourcesIn s A.INT_PEND).filter fun i => deliverable s t i

/-- The deliverable sources of the highest priority. -/
def bestOf (s : State) (l : List Nat) : List Nat :=
  let m := l.foldl (fun m i => Nat.max m (srcPrio s i)) 0
  l.filter fun i => decide (srcPrio s i = m)

/-- The delivery state of target `t`: 0 IDLE, 1 ENTRY, 2 SERVING, 3 EXIT. -/
def targetState (s : State) (t : Nat) : Nat := s.fld (A.INT_T_NEXT t) 30 28

def targetCount (s : State) (t : Nat) : Nat := Map.get 0 s.int.count t

def setCount (s : State) (t n : Nat) : State :=
  { s with int := { s.int with count := Map.put 0 s.int.count t n } }

/-- Tt_NEXT with nothing to claim, in delivery state `st`. -/
def setNext (s : State) (t st : Nat) : State :=
  s.wr (A.INT_T_NEXT t) (st * 2 ^ 28 + runningPrio s t * 2 ^ 24)

/-- Tt_NEXT latched to source `i`, in ENTRY. -/
def latchNext (s : State) (t i : Nat) : State :=
  s.wr (A.INT_T_NEXT t) (2 ^ 31 + 2 ^ 28 + runningPrio s t * 2 ^ 24 + srcPrio s i * 2 ^ 16 + i)

/-- The running priority shown in Tt_NEXT follows its sources. -/
def refreshPrio (s : State) (t : Nat) : State :=
  s.setFld (A.INT_T_NEXT t) 27 24 (runningPrio s t)

/-- The MSI-X message of vector `n` reaches the link. -/
def sendMsix (s : State) (n : Nat) : State :=
  (s.emit (.msix n (s.rd (A.HOST_MSIX n 0) + s.rd (A.HOST_MSIX n 1) * 2 ^ 32) (BitVec.ofNat 32 (s.rd (A.HOST_MSIX n 2))))).pmcEvent
    22 0x300 1

/-- An MSI-X message that no mask holds, by the state of the link (R384). -/
def routeMsix (s : State) (n : Nat) : State :=
  match s.int.link with
  | .down => s
  | .l0 => sendMsix s n
  | .l1 => { s with int := { s.int with link := .l1Exit, held := s.int.held ++ [n] } }
  | .l1Exit => { s with int := { s.int with held := s.int.held ++ [n] } }
  | .d3hot =>
    let s := { s with int := { s.int with held := s.int.held ++ [n] } }
    if s.int.pmeEn then s.emit .pme else s

/-- Vector `n` is held by its own mask or by the function's (R382). -/
def vectorMasked (s : State) (n : Nat) : Bool := s.bit (A.HOST_MSIX_CTL n) 0 || s.int.funcMask

/-- A notification of target `t`, caused by source `i` (R379, R382): ENTRY, NEXT latched, the count cleared. -/
def notify (s : State) (t i : Nat) : State :=
  let s := (setCount (latchNext s t i) t 0).stop (.coalesce t)
  if 2 ≤ t ∧ t ≤ 33 then
    (if vectorMasked s (t - 2) then s.setBit A.HOST_PBA (t - 2) true else routeMsix s (t - 2))
  else s

/-- A deliverable source, if there is one, is notified at once. -/
def notifyBest (s : State) (t : Nat) : State :=
  match bestOf s (deliverables s t) with
  | [] => s
  | i :: l => let (j, s) := s.pick i (i :: l); notify s t j

/-- COUNT of Tt_CFG: 0 acts as 1. -/
def coalesceCount (s : State) (t : Nat) : Nat := Nat.max 1 (s.fld (A.INT_T_CFG t) 15 8)

/-- TIME of Tt_CFG in µs: 0 acts as 1, and above 16 000 as 16 000. -/
def coalesceTime (s : State) (t : Nat) : Nat := Nat.min 16000 (Nat.max 1 (s.fld (A.INT_T_CFG t) 29 16))

/-- A raise of a deliverable source counts at an IDLE target (R383). -/
def countRaise (s : State) (t i : Nat) : State :=
  let n := targetCount s t + 1
  if coalesceCount s t ≤ n then notify s t i
  else
    let s := setCount s t n
    if n = 1 then s.start (.coalesce t) (coalesceTime s t * us) else s

/-- What a raise does at the target, after the source's own state changed. -/
def offer (s : State) (t i : Nat) : State :=
  if deliverable s t i then
    (if targetState s t = 0 then countRaise s t i
     else if targetState s t = 2 then notify s t i
     else s)
  else s

/-- A raise of source `i` (R377, R378), but for the ingot trigger. -/
def raiseSource (s : State) (i : Nat) : State :=
  if srcLive s i then offer (setPend s i true) (srcTarget s i) i else s

/-- The latched source of an ENTRY stops being PENDING (R379): another deliverable source is latched, or IDLE. -/
def entryLost (s : State) (t i : Nat) : State :=
  if targetState s t = 1 ∧ s.fld (A.INT_T_NEXT t) 9 0 = i then
    match bestOf s (deliverables s t) with
    | [] => setNext s t 0
    | j :: l => let (k, s) := s.pick j (j :: l); latchNext s t k
  else s

/-- The sources of target `t` that were claimed and are active, the latest first. -/
def targetNest (s : State) (t : Nat) : List Nat := Map.get [] s.int.nest t

def setNest (s : State) (t : Nat) (l : List Nat) : State :=
  { s with int := { s.int with nest := Map.put [] s.int.nest t l } }

/-- A claim can be accepted (R381). -/
def claimOk (s : State) (t v : Nat) : Bool :=
  s.bit (A.INT_T_NEXT t) 31 && decide (s.fld (A.INT_T_NEXT t) 9 0 = v)

/-- An accepted claim: the source becomes ACTIVE, and the target SERVING (R378, R379). -/
def claimSource (s : State) (t v : Nat) : State :=
  let s := setAct (setPend s v false) v true
  let s := setNest s t (v :: targetNest s t)
  notifyBest (setNext s t 2) t

/-- An EOI can be accepted (R381): the source is the latest claimed one that is active. -/
def eoiOk (s : State) (t v : Nat) : Bool := decide ((targetNest s t).head? = some v)

/-- What a change of a source's routing does at a target: its running priority, and what it serves. -/
def retarget (s : State) (t : Nat) : State :=
  if 35 ≤ t then s else if targetState s t = 2 then notifyBest (refreshPrio s t) t else refreshPrio s t

/-- An accepted EOI (R378, R379): the target passes EXIT, and a deliverable source is then notified at once. An ENTRY
keeps its latched source. A target that the source was moved to meanwhile loses its running priority too. -/
def endSource (s : State) (t v : Nat) : State :=
  let s := setAct s v false
  let s := setNest s t (targetNest s t).tail
  let s := if srcTarget s v = t then s else retarget s (srcTarget s v)
  if targetState s t = 1 then refreshPrio s t
  else notifyBest (setNext s t (if (targetNest s t).isEmpty then 0 else 2)) t

/-- The requesters whose claims and EOIs target `t` takes (R381). -/
def targetRequester (t : Nat) (r : Req) : Bool :=
  if t ≤ 1 then r = .mgmt else if t ≤ 33 then r = .host else true

/-- The coalescing time of target `t` has passed (R383). -/
def coalesceFire (s : State) (t : Nat) : State :=
  let s := (setCount s t 0).stop (.coalesce t)
  if targetState s t = 0 then notifyBest s t else s

end Sys2Proof.Machine
end

