-- ==== Sys2Proof/Machine/Snapshot.lean ====
section
/-! DEFINITION. Ingots (R369 to R375), and with them the raising of interrupt sources and the recording of events and
access errors (R364, R367, R376): a source that becomes pending can trigger an ingot. -/

namespace Sys2Proof.Machine

/-- Events recorded in an SQC register, whose source is raised where the enable register `en` has the event's bit, or
where `forced` has it; without an ingot trigger. -/
def State.eventQuiet (s : State) (evt en src mask forced : Nat) : State :=
  let s := s.record evt mask
  if mask &&& (s.rd en ||| forced) = 0 then s else raiseSource s src

/-- Events of the SNP block: MISSED raises source 52 whatever EVT_EN holds. -/
def snpEvent (s : State) (mask : Nat) : State :=
  s.eventQuiet A.SNP_EVT A.SNP_EVT_EN 52 mask 2

/-- The phases of SNP.STAT. -/
def snpPhase (s : State) : Nat := s.fld A.SNP_STAT 31 28

/-- Bit `k` of a LO, HI pair of masks over the 64 slots. -/
def slotBit (s : State) (reg : Nat → Nat) (k : Nat) : Bool := s.bit (reg (k / 32)) (k % 32)

/-- The slot that the next ingot takes (R373): the first after LAST whose LOCK is 0, and in STOP mode not valid. -/
def nextSlot (s : State) : Option Nat :=
  let last := s.fld A.SNP_STAT 5 0
  ((List.range 64).map fun i => (last + 1 + i) % 64).find? fun k =>
    !slotBit s A.SNP_LOCK k && !(s.bit A.SNP_CFG 30 && slotBit s A.SNP_VALID k)

/-- The entries of the capture list that make a section (R369): the address and the count. -/
def sections (s : State) : List (Nat × Nat) :=
  (List.range 512).filterMap fun i =>
    let w := s.rd (A.SNP_LIST i)
    if w.testBit 31 then some (bits w 22 0 * 4, bits w 30 23 + 1) else none

/-- The ingot length that SNP.LIST_WORDS reports (R369). -/
def ingotLength (s : State) : Nat := (sections s).foldl (fun n e => n + 4 + e.2) 16

/-- STATUS of a section of `n` words: 1 its zone is in reset, 2 its zone is in fault, 3 its block refuses the access, 0
valid. -/
def sectionStatus (s : State) (a n : Nat) : Nat :=
  let open_ := if (List.range n).all fun i => (viewReg s none (a + 4 * i)).isSome then 0 else 3
  match zoneOf a with
  | none => open_
  | some z => if zoneInReset s z then 1 else if zoneFault s z then 2 else open_

/-- The port that a zone-path address belongs to. -/
def portOf (a : Nat) : Nat :=
  if a < 0x800000 then (a - 0x180000) / 0x800
  else if a < 0x900000 then (a - 0x800000) / 0x4000
  else (a - 0x1000000) / 0x1000 / 8

/-- When a section of the zone path is latched, in ns after t_trig: the strobe comes to its zone after 20 ns, and each of
the zone's ports takes one clock of 2 ns (R372). -/
def zoneLatchAt (a : Nat) : Nat := 20 + 2 * (portOf a / 8)

/-- The section can be latched by the true time `till`: in the central path at once, in the zone path at its time, as far
as the zone controllers run or the zone refuses it. -/
def sectDue (s : State) (till : Nat) (x : SnpSect) : Bool :=
  x.latch.isNone &&
    match zoneOf x.addr with
    | none => true
    | some _ => decide (s.snp.since + zoneLatchAt x.addr ≤ till) && (islandRuns s 6 || decide (sectionStatus s x.addr x.count ≠ 0))

/-- The words of one section are latched in one clock of its node (R372): a central section within 4 ns, a zone section
at its time, or as soon after it as it can. One that is not latched records SECT_INVALID. -/
def latchSection (s : State) (x : SnpSect) : SnpSect × State :=
  let st := sectionStatus s x.addr x.count
  let (off, s) := match zoneOf x.addr with
    | some _ => (Nat.max (zoneLatchAt x.addr) (s.now - s.snp.since) * nsUnits, s)
    | none => let (d, s) := s.draw; (d % (4 * nsUnits + 1), s)
  let data := (List.range x.count).map fun i =>
    if st = 0 then (viewReg s none (x.addr + 4 * i)).getD 0 else 0
  ({ x with latch := some ⟨st, off, data⟩ }, if st = 0 then s else snpEvent s 4)

/-- The sections of the list that can be latched by `till`, in order. -/
def latchAll (s : State) (till : Nat) : List SnpSect → List SnpSect × State
  | [] => ([], s)
  | x :: l =>
    let (y, s) := if sectDue s till x then latchSection s x else (x, s)
    let (ys, s) := latchAll s till l
    (y :: ys, s)

/-- Sections are latched up to the true time `till`. Once all are, PHASE becomes COPY, and SNAP_OUT pulses if enabled
(R372). -/
def latchUpTo (s : State) (till : Nat) : State :=
  if snpPhase s ≠ 1 then s
  else
    let (l, s) := latchAll s till s.snp.sects
    let s := { s with snp := { s.snp with sects := l } }
    if l.all fun x => x.latch.isSome then
      let s := s.setFld A.SNP_STAT 31 28 2
      if s.bit A.SNP_CFG 29 then s.emit .snapOut else s
    else s

/-- The heat that word 7 of the header reports: bits [31:16] the heat active, bit 15 that one was. -/
def activeHeatWord (s : State) : Nat :=
  s.fld A.HEAT_STAT 15 0 * 2 ^ 16 + s.fld A.HEAT_STAT 31 31 * 2 ^ 15

/-- Every 32-bit word as four bytes, little-endian. -/
def wordBytes (l : List Nat) : List Nat := l.flatMap fun w => leBytes 4 w

/-- A section as the ingot stores it (table Section). -/
def sectionWords (h : SnpHidden) (x : SnpSect) : List Nat :=
  match x.latch with
  | none => []
  | some y =>
    [x.addr, y.status * 2 ^ 24 + x.count, ofSigned 32 ((h.trig : Int) - (h.t : Int) + (y.after : Int)), 0] ++ y.data

/-- How many sections were not latched. -/
def invalidSects (h : SnpHidden) : Nat :=
  (h.sects.filter fun x => match x.latch with | some y => decide (y.status ≠ 0) | none => false).length

/-- The ingot (table Ingot header): header with CHECK, then the sections. -/
def ingotWords (h : SnpHidden) : List Nat :=
  let secs := h.sects.flatMap (sectionWords h)
  let head := [0x47494A46, h.seq, h.node * 2 ^ 16 + h.src, h.tag, ftW2 h.t, ftW1 h.t, ftW0 h.t,
    h.heat + h.sects.length, 16 + secs.length, invalidSects h, 0, 0, 0, 0, 0]
  head ++ [crc32c (wordBytes (head ++ secs))] ++ secs

/-- The byte of bank 8 or 9 where slot `k` starts, with its bank (R373). -/
def slotPlace (k : Nat) : Nat × Nat := (8 + k / 32, k % 32 * 2 ^ 18)

/-- A slot becomes valid or empty; VALID_N follows. -/
def setSlot (s : State) (k : Nat) (v : Bool) : State :=
  let s := s.setBit (A.SNP_VALID (k / 32)) (k % 32) v
  s.setFld A.SNP_STAT 22 16 (((List.range 64).filter fun j => slotBit s A.SNP_VALID j).length)

/-- The next INGOT_SEQ: it skips 0 (R374). -/
def nextSeq (s : State) : Nat :=
  let n := (s.rd A.SNP_LAST_SEQ + 1) % 2 ^ 32
  if n = 0 then 1 else n

/-- A missed trigger (R371). All triggers of one clock make one ingot (R370), so those missed in one clock are one miss, whose
sources MISS_INFO shows together (DEDUCED, assumption 49). -/
def missTrigger (s : State) (src cause : Nat) : State :=
  let old := s.rd A.SNP_MISS_INFO
  if s.snp.missed = some s.now ∧ bits old 31 28 = cause then s.wr A.SNP_MISS_INFO (old ||| src)
  else
    let s := (s.add64 A.SNP_MISSED_LO 1).wr A.SNP_MISS_INFO (cause * 2 ^ 28 + src)
    snpEvent { s with snp := { s.snp with missed := some s.now } } 2

/-- An accepted trigger (R372): INGOT_SEQ of the slot becomes 0, PHASE is LATCH, and
the sections are latched at their times. -/
def latchIngot (s : State) (k src tag t : Nat) : State :=
  let (b, i) := slotPlace k
  let h : SnpHidden :=
    { sects := (sections s).map fun e => ⟨e.1, e.2, none⟩, slot := k, seq := nextSeq s, src := src, tag := tag, t := t,
      trig := tb0 s, since := s.now, heat := activeHeatWord s, node := s.fld A.GLB_NODE_ID 15 0, missed := s.snp.missed }
  let s := setSlot (s.putBank b (i + 4) [0, 0, 0, 0]) k false
  latchUpTo ({ s with snp := h }.setFld A.SNP_STAT 31 28 1) s.now

/-- Which of several sources gives TAG and T_TRIG: the timed action, then the scheduled time, then the edge (R370). -/
def srcRank (src : Nat) : Nat :=
  if src.testBit 3 then 3 else if src.testBit 2 then 2 else if src.testBit 1 then 1 else 0

/-- The trigger falls in the clock of the one that made the ingot in progress (R370): what comes in one period of true
time counts as one central clock (DEDUCED, assumption 49). -/
def sameClock (s : State) : Bool := decide (snpPhase s ≠ 0) && decide (s.snp.since = s.now)

/-- Its source joins those of the ingot. -/
def joinIngot (s : State) (src tag t : Nat) : State :=
  let h := s.snp
  let lead := decide (srcRank h.src < srcRank src)
  { s with snp := { h with src := h.src ||| src, tag := if lead then tag else h.tag, t := if lead then t else h.t } }

/-- A trigger with its SRC bits, tag and T_TRIG (R370, R371): the state, and whether an ingot was latched. -/
def trigger (s : State) (src tag t : Nat) : State × Bool :=
  if !s.bit A.SNP_CFG 31 then (missTrigger s src 3, false)
  else if sameClock s then (joinIngot s src tag t, true)
  else if snpPhase s ≠ 0 then (missTrigger s src 1, false)
  else
    match nextSlot s with
    | none => (missTrigger s src 2, false)
    | some k =>
      if !inRun s then (missTrigger s src 4, false)
      else if !bankOn s (8 + k / 32) then (missTrigger s src 5, false)
      else (latchIngot s k src tag t, true)

/-- The copy to the slot and its header are written (R372): INGOT_SEQ last, then INGOT_DONE. -/
def finishIngot (s : State) : State :=
  let (b, i) := slotPlace s.snp.slot
  let k := s.snp.slot
  let s := s.putBank b i (wordBytes (ingotWords s.snp))
  let s := (setSlot s k true).setFld A.SNP_STAT 5 0 k
  let s := (s.wr A.SNP_LAST_SEQ s.snp.seq).setFld A.SNP_STAT 31 28 0
  snpEvent { s with snp := { missed := s.snp.missed } } 1

/-- A raise of source `i` (R376 to R378), which triggers an ingot where SNP waits for that source (R370, SRC bit 4). -/
def State.raise (s : State) (i : Nat) : State :=
  let fresh := srcLive s i && !srcPend s i
  let s := raiseSource s i
  if fresh && s.bit A.SNP_CFG 18 && decide (s.fld A.SNP_CFG 9 0 = i) then (trigger s 16 0 (tb0 s)).1 else s

/-- Events recorded in one clock in an SQC register; the source is raised where the enable register has an event's
bit, or where `forced` has it. -/
def State.event (s : State) (evt en src mask forced : Nat) : State :=
  let s := s.record evt mask
  if mask &&& (s.rd en ||| forced) = 0 then s else s.raise src

/-- The first error after the last AERR_CLR is captured (R367). -/
def captureErr (s : State) (kind : Nat) (r : Req) (a : Nat) (write : Bool) : State :=
  if s.bit A.GLB_AERR_INFO 31 then s
  else
    (s.wr A.GLB_AERR_INFO (2 ^ 31 + reqNum r * 2 ^ 29 + bit01 write * 2 ^ 28 + kind * 2 ^ 24)).wr
      A.GLB_AERR_ADDR (a % 2 ^ 26)

/-- An ACCESS_ERR (R367), by its kind (table Error kinds). -/
def accessErr (s : State) (kind : Nat) (r : Req) (a : Nat) : State :=
  ((captureErr (s.add64 A.GLB_AERR_CNT_LO 1) kind r a true).record A.GLB_AERR_EVT 1).raise 3

/-- A GUARD_ERR (R362, R367). -/
def guardErr (s : State) (r : Req) (a : Nat) : State :=
  ((captureErr (s.add64 A.GLB_AERR_CNT_LO 1) 9 r a true).record A.GLB_AERR_EVT 2).raise 3

/-- A configuring write that a rule of the owning block rejects (R32): the register keeps its value. -/
def rejected (s : State) (r : Req) (a : Nat) : State := accessErr s 5 r a

/-- The scan of the 64 slots before RUN (R374): MAGIC, INGOT_SEQ, LEN and CHECK. -/
def slotValid (s : State) (k : Nat) : Bool :=
  let (b, i) := slotPlace k
  let w := fun j => s.bankWord b (i + 4 * j)
  let len := w 8
  decide (w 0 = 0x47494A46) && decide (w 1 ≠ 0) && decide (16 ≤ len) && decide (len ≤ 65536) &&
    decide (w 15 = crc32c (wordBytes ((List.range 15).map w ++ ((List.range (len - 16)).map fun j => w (16 + j)))))

/-- Of two sequence numbers, is the second later, modulo 2^32 (R374)? -/
def seqLater (a b : Nat) : Bool := decide (a ≠ b) && decide ((b + 2 ^ 32 - a) % 2 ^ 32 < 2 ^ 31)

/-- The valid slot with the latest INGOT_SEQ. -/
def latestSlot (s : State) : List Nat → Option Nat → Option Nat
  | [], o => o
  | k :: l, none => latestSlot s l (some k)
  | k :: l, some j =>
    let q := fun k => s.bankWord (slotPlace k).1 ((slotPlace k).2 + 4)
    latestSlot s l (if seqLater (q j) (q k) then some k else some j)

/-- The SNP registers after the scan (R374). -/
def scanSlots (s : State) : State :=
  let good := (List.range 64).filter fun k => slotValid s k
  let s1 := good.foldl (fun s k => setSlot s k true) s
  match latestSlot s good none with
  | none => (s1.setFld A.SNP_STAT 5 0 63).wr A.SNP_LAST_SEQ 0
  | some k => (s1.setFld A.SNP_STAT 5 0 k).wr A.SNP_LAST_SEQ (s.bankWord (slotPlace k).1 ((slotPlace k).2 + 4))

end Sys2Proof.Machine
end

