-- ==== Sys2Proof/Machine/Lanes.lean ====
section
/-! DEFINITION. The lane state machine, equalisation sets and CHECK, faults and retirement (R70 to R92). The effects
on the lane alone: what its port does then is in Ports. -/

namespace Sys2Proof.Machine

def State.putLane (s : State) (l : Nat) (h : LaneHidden) : State :=
  { s with lanes := Map.put {} s.lanes l h }

/-! Fields of LANE.STAT. -/

def laneState (s : State) (l : Nat) : Nat := s.fld (A.LANE_STAT l) 31 28
def laneMode (s : State) (l : Nat) : Nat := s.fld (A.LANE_STAT l) 27 25
def setLaneState (s : State) (l st : Nat) : State := s.setFld (A.LANE_STAT l) 31 28 st
def laneFlag (s : State) (l i : Nat) : Bool := s.bit (A.LANE_STAT l) i
def setLaneFlag (s : State) (l i : Nat) (b : Bool) : State := s.setBit (A.LANE_STAT l) i b

/-- The lane is in SERVICE. -/
def inService (s : State) (l : Nat) : Bool := decide (laneState s l = 6)

/-- The equalisation set of a rate (R70). -/
def eqSet (mode : Nat) : Nat := if mode ≤ 3 then 0 else mode - 3

/-- PAM4 rates. -/
def isPam4 (mode : Nat) : Bool := decide (mode = 4 ∨ mode = 5)

/-- Events of lane `l`: RETIRED raises source 192 + l whatever EVT_EN holds. -/
def laneEvent (s : State) (l mask : Nat) : State :=
  s.event (A.LANE_EVT l) (A.LANE_EVT_EN l) (192 + l) mask 16

/-- Every timer of the lane stops. -/
def stopLane (s : State) (l : Nat) : State :=
  (((((s.stop (.laneCdr l)).stop (.laneAdapt l)).stop (.laneRecheck l)).stop (.laneRetry l)).stop (.laneResume l))

/-- The precoding in effect (R72, R73): on PAM4 the transmit side follows the partner's request in the training that
runs or ran, else LANE.CTRL. -/
def setPrecode (s : State) (l : Nat) : State :=
  let pam := isPam4 (laneMode s l)
  let h := s.lane l
  let tx := if h.training || h.trained then h.trainedPre else s.bit (A.LANE_CTRL l) 1
  setLaneFlag (setLaneFlag s l 16 (pam && tx)) l 15 (pam && s.bit (A.LANE_CTRL l) 2)

/-- No training counts on the lane any more. -/
def noTraining (s : State) (l : Nat) : State := s.putLane l { s.lane l with training := false, trained := false }

/-- Link training can run in an attempt of the lane: not on a trunk, and not on a port that steps up (R73). -/
def mayTrain (s : State) (l : Nat) : Bool := !laneFlag s l 14 && decide (portNeg s (portOfLane l) ≠ 2)

/-- The receive polarity in effect (R75): inverted. -/
def rxInverted (s : State) (l : Nat) : Bool := s.bit (A.LANE_CTRL l) 4 ^^ laneFlag s l 17

/-- Bits [7:0] of words 1 and 3 of a set are reserved (R76). -/
def eqWord (w v : Nat) : Nat := if w = 1 ∨ w = 3 then v / 256 * 256 else v

/-- The words of table set `m`. -/
def eqTable (s : State) (l m : Nat) : List Nat := (List.range 7).map fun w => s.rd (A.LANE_EQ_TBL l m w)

/-- The magnitude of a signed byte. -/
def byteAbs (b : Nat) : Nat := (toSigned 8 b).natAbs

/-- The sum of the magnitudes of the four transmit taps of a word 0, and the main tap that is left (R76), in 1/64. -/
def txTaps (w : Nat) : Nat := byteAbs (bits w 31 24) + byteAbs (bits w 23 16) + byteAbs (bits w 15 8) + byteAbs (bits w 7 0)
def txMain (w : Nat) : Int := 64 - (txTaps w : Int)

/-- The ranges of R77 over the words of a set. -/
def eqInRange (ws : List Nat) : Bool :=
  let w0 := ws.getD 0 0
  let w1 := ws.getD 1 0
  decide (txTaps w0 ≤ 32) &&
    decide (bits w1 31 24 ≤ 120) && decide (bits w1 23 16 ≤ 240) &&
    decide (16 ≤ bits w1 15 8) && decide (bits w1 15 8 ≤ 64)

/-- The set `m` of lane `l` is valid (R77). -/
def eqValid (s : State) (l m : Nat) : Bool := s.bit (A.LANE_EQ_VALID l) m && eqInRange (eqTable s l m)

/-- The words that the receiver applies of a set (R78): in MODE 1 and 2 without DFE5 to DFE12. -/
def effectiveSet (mode : Nat) (ws : List Nat) : List Nat :=
  if mode = 1 ∨ mode = 2 then ws.take 5 ++ [0, 0] else ws

/-- Two unsigned numbers differ by no more than the window; a window of 255 compares nothing (R81). -/
def inWindow (win a b : Nat) : Bool := decide (win = 255) || decide (a - b + (b - a) ≤ win)

/-- The same for two signed bytes. -/
def inWindowSigned (win a b : Nat) : Bool :=
  decide (win = 255) || decide ((toSigned 8 a - toSigned 8 b).natAbs ≤ win)

/-- The four bytes of a word. -/
def byteOf (w i : Nat) : Nat := w / 2 ^ (8 * i) % 256

/-- The comparison of CHECK (R81) between the adapted result and the table set. -/
def checkPasses (win mode : Nat) (adp tbl : List Nat) : Bool :=
  let a := fun w i => byteOf (adp.getD w 0) i
  let t := fun w i => byteOf (tbl.getD w 0) i
  let ffe := [(2, 3), (2, 2), (2, 1), (2, 0), (3, 3), (3, 2), (3, 1)]
  let dfe4 := [(4, 3), (4, 2), (4, 1), (4, 0)]
  let dfe8 := [(5, 3), (5, 2), (5, 1), (5, 0), (6, 3), (6, 2), (6, 1), (6, 0)]
  let dfe := if mode = 1 ∨ mode = 2 then dfe4 else dfe4 ++ dfe8
  inWindow (byteOf win 3) (a 1 3) (t 1 3) && inWindow (byteOf win 2) (a 1 2) (t 1 2) &&
    inWindow (byteOf win 1) (a 1 1) (t 1 1) &&
    ffe.all (fun e => inWindowSigned (byteOf win 1) (a e.1 e.2) (t e.1 e.2)) &&
    dfe.all (fun e => inWindowSigned (byteOf win 0) (a e.1 e.2) (t e.1 e.2))

/-- The adapted result (LANE.EQ_ADP0 to EQ_ADP6). -/
def eqAdapted (s : State) (l : Nat) : List Nat := (List.range 7).map fun w => s.rd (A.LANE_EQ_ADP l w)

/-- DLY_VALID (R86): in SERVICE, with valid trims, and without a bit slip since SERVICE was entered. -/
def setDlyValid (s : State) (l : Nat) : State :=
  setLaneFlag s l 21 (inService s l && (s.lane l).noSlip)

/-- The transmit taps in service (R82): those of the training that ran, with TX_TRAIN, else the table's. -/
def firTaps (s : State) (l tbl : Nat) : Nat :=
  if s.bit (A.LANE_CTRL l) 5 && (s.lane l).trained then (s.lane l).trainedTx.toNat else tbl

/-- The transmit FIR follows TX_TRAIN while the lane is in SERVICE (R82). -/
def refreshFir (s : State) (l : Nat) : State :=
  if !inService s l then s
  else
    let h := s.lane l
    let tx := firTaps s l h.tableTx.toNat
    (s.wr (A.LANE_EQ_ADP l 0) tx).putLane l { h with applied := BitVec.ofNat 32 tx :: h.applied.drop 1 }

/-- The lane enters SERVICE on the table set of its rate (R79, R81, R82). Words that were written in SERVICE before take
effect here after a RESUME too, which runs no CHECK (DESIGN CHOICE, assumption 75). -/
def enterService (s : State) (l : Nat) : State :=
  let mode := laneMode s l
  let ws := effectiveSet mode (eqTable s l (eqSet mode))
  let h := s.lane l
  let tx := firTaps s l (ws.getD 0 0)
  let s := stopLane (setLaneState s l 6) l
  let s := setLaneFlag (setLaneFlag (setLaneFlag s l 20 false) l 19 false) l 13 false
  let s := s.wr (A.LANE_EQ_ADP l 0) tx
  let s := s.putLane l { h with inService := s.now, changed := some s.now, noSlip := true, waking := false,
                                tableTx := BitVec.ofNat 32 (ws.getD 0 0), applied := (tx :: ws.drop 1).map (BitVec.ofNat 32) }
  laneEvent (setDlyValid s l) l 2

/-- The lane leaves SERVICE. -/
def exitService (s : State) (l : Nat) : State :=
  if inService s l then laneEvent (setLaneFlag (setLaneFlag s l 21 false) l 22 false) l 4 else s

/-- The lane waits for signal (R85). A wait of 100 ms after a failed attempt goes on. -/
def toSignalWait (s : State) (l : Nat) : State :=
  let s := ((s.stop (.laneCdr l)).stop (.laneAdapt l)).stop (.laneRecheck l)
  let s := setLaneFlag (setLaneFlag (setLaneFlag s l 24 false) l 23 false) l 22 false
  setLaneState (s.stop (.laneResume l)) l 2

/-- The lane enters CDR_ACQ: with signal an attempt starts, without it the lane waits for signal. -/
def toCdrAcq (s : State) (l : Nat) : State :=
  if laneFlag s l 24 then
    let s := setLaneFlag (setLaneFlag (stopLane s l) l 23 false) l 22 false
    (setLaneState s l 3).start (.laneCdr l) (2 * ms)
  else toSignalWait s l

/-- The set of retired lanes in keep-alive storage (R90). -/
def keepRetired (s : State) (l : Nat) (b : Bool) : State :=
  { s with retiredLanes := s.retiredLanes.filter (· ≠ l) ++ if b then [l] else [] }

/-- The lane is retired (R89): powered off, and every rate request ignored. No trunk PCS runs on it, which ends the polarity
that it found (R75). -/
def retireLane (s : State) (l : Nat) : State :=
  let s := keepRetired (stopLane s l) l true
  let s := setLaneFlag (setLaneFlag (setLaneFlag (setLaneFlag s l 24 false) l 23 false) l 22 false) l 21 false
  let s := setLaneFlag (setLaneFlag s l 17 false) l 14 false
  laneEvent (setLaneFlag (setLaneState s l 10) l 18 true) l 16

/-- A failed attempt with its cause (R89): the third within 10 s retires the lane; else the next attempt starts after
100 ms, and until then the lane stands in CDR_ACQ. -/
def failAttempt (s : State) (l cause : Nat) : State :=
  let fails := recentFails s l ++ [s.now]
  let s := s.putLane l { s.lane l with fails := fails }
  let s := (s.addSat (A.LANE_FAULT l) 23 16 1).setFld (A.LANE_FAULT l) 7 4 cause
  let s := laneEvent s l 1
  let s := setLaneFlag (stopLane s l) l 23 false
  if 3 ≤ fails.length then retireLane s l
  else (setLaneState s l 3).start (.laneRetry l) (100 * ms)

/-- The lane leaves SERVICE for CDR_ACQ by a loss (R85): within 1 s of entering it, that is a failed attempt. -/
def dropFromService (s : State) (l cause : Nat) : State :=
  let early := decide (s.now < (s.lane l).inService + 1000 * ms)
  let s := exitService s l
  if early then failAttempt (setLaneFlag s l 22 false) l cause else toCdrAcq s l

/-- The lane leaves its state for CDR_ACQ without a failure: RETRAIN, or a change of receive controls (R85). -/
def retrainLane (s : State) (l : Nat) : State := toCdrAcq (exitService s l) l

/-- States other than OFF, TEST and RETIRED. -/
def laneLive (s : State) (l : Nat) : Bool :=
  decide (1 ≤ laneState s l) && decide (laneState s l ≤ 8)

/-- The lane is powered off (R71). -/
def laneOff (s : State) (l : Nat) : State :=
  let s := stopLane (exitService s l) l
  let s := setLaneFlag (setLaneFlag (setLaneFlag (setLaneFlag s l 24 false) l 23 false) l 22 false) l 21 false
  let s := setLaneFlag (setLaneFlag s l 17 false) l 14 false
  let s := noTraining (s.putLane l { s.lane l with waking := false }) l
  setPrecode ((setLaneState s l 0).setFld (A.LANE_STAT l) 27 25 0) l

/-- The lane powers up at a rate. -/
def lanePowerup (s : State) (l mode : Nat) (trunk : Bool) : State :=
  let s := stopLane (exitService s l) l
  let s := setLaneFlag (setLaneFlag (setLaneFlag (setLaneFlag s l 24 false) l 23 false) l 22 false) l 21 false
  let s := setLaneFlag (setLaneFlag s l 17 false) l 14 trunk
  let s := (setLaneState s l 1).setFld (A.LANE_STAT l) 27 25 mode
  setPrecode (noTraining (s.putLane l { s.lane l with waking := false, changed := some s.now }) l) l

/-- LANE.TEST_STAT: the checker is locked. -/
def setPrbsLock (s : State) (l : Nat) (b : Bool) : State := s.setBit (A.LANE_TEST_STAT l) 0 b

/-- The lane belongs to a trunk or not: off a trunk, the trunk PCS sets no polarity, and there is no block lock (R75). -/
def setLaneTrunk (s : State) (l : Nat) (trunk : Bool) : State :=
  let s := setLaneFlag s l 14 trunk
  if trunk then s else setLaneFlag (setLaneFlag s l 17 false) l 22 false

/-- The port gives the lane a rate (R70, R85); a retired lane ignores it. A lane in TEST leaves TEST when its port is
enabled (R92). -/
def setLaneRate (s : State) (l mode : Nat) (trunk : Bool) : State :=
  if laneState s l = 10 then s
  else if laneState s l = 9 then
    if mode = 0 then s
    else lanePowerup (setPrbsLock (s.setBit (A.LANE_TEST l) 0 false) l false) l mode trunk
  else if mode = 0 then (if laneState s l = 0 then s else laneOff s l)
  else if laneMode s l = mode ∧ laneState s l ≠ 0 then setLaneTrunk s l trunk
  else lanePowerup s l mode trunk

/-- CHECK ends (R81, R84): SERVICE on a pass; else RECOVER_HOLD with TBL_MISMATCH, and NO_TABLE where the set for the
rate is not valid. -/
def finishCheck (s : State) (l : Nat) : State :=
  let mode := laneMode s l
  let ok := eqValid s l (eqSet mode)
  let s := setLaneFlag s l 19 false
  if ok && checkPasses (s.rd (A.LANE_EQ_WIN l)) mode (eqAdapted s l) (effectiveSet mode (eqTable s l (eqSet mode))) then
    enterService s l
  else
    let s := setLaneFlag (setLaneFlag s l 20 true) l 13 (!ok)
    let s := (setLaneState (stopLane s l) l 7).start (.laneRecheck l) (1000 * ms)
    laneEvent s l 8

/-- A new CHECK against the latest adapted result. -/
def startCheck (s : State) (l : Nat) : State := setLaneState (s.stop (.laneRecheck l)) l 5

/-- A write in RECOVER_HOLD that bears on the set for the lane's rate starts a new CHECK (R83, R84). -/
def recheckOnWrite (s : State) (l m : Nat) : State :=
  if laneState s l = 7 ∧ eqSet (laneMode s l) = m then startCheck s l else s

/-- A table word is written (R76, R77, R83): refused where a valid set would break a range; in SERVICE it waits for
the next CHECK. -/
def writeEqWord (s : State) (l m w v : Nat) : Option State :=
  let v := eqWord w v
  if s.bit (A.LANE_EQ_VALID l) m && !eqInRange ((eqTable s l m).set w v) then none
  else
    let s := s.wr (A.LANE_EQ_TBL l m w) v
    some (if inService s l && decide (eqSet (laneMode s l) = m) then setLaneFlag s l 19 true else recheckOnWrite s l m)

/-- LANE.EQ_VALID is written (R77, R84): refused over a set that breaks a range. -/
def writeEqValid (s : State) (l v : Nat) : Option State :=
  if (List.range 3).any (fun m => v.testBit m && !eqInRange (eqTable s l m)) then none
  else
    let old := s.rd (A.LANE_EQ_VALID l)
    let s := s.wr (A.LANE_EQ_VALID l) (v % 8)
    let m := eqSet (laneMode s l)
    some (if v.testBit m && !old.testBit m then recheckOnWrite s l m else s)

/-- LANE.CTRL is written (R72, R82, R85): RETRAIN, or a change of the receive controls in SERVICE, leads to CDR_ACQ. An NRZ
lane ignores the precoding controls. -/
def writeLaneCtrl (s : State) (l v : Nat) : State :=
  let old := s.rd (A.LANE_CTRL l)
  let rx := decide (old.testBit 4 ≠ v.testBit 4) || isPam4 (laneMode s l) && decide (old.testBit 2 ≠ v.testBit 2)
  let s := refreshFir (setPrecode (s.wr (A.LANE_CTRL l) (v &&& 0x3E)) l) l
  if laneLive s l && v.testBit 15 || inService s l && rx then retrainLane s l else s

/-- The values of LANE.TEST that are rejected, but for the port's enable (R92). TEST_EN with RATE 0, 6 or 7 is among them,
since software must give a rate of MODE 1 to 5 (DESIGN CHOICE, assumption 105). -/
def laneTestBad (v : Nat) : Bool :=
  let rate := bits v 10 8
  let pat := bits v 5 3
  decide (bits v 7 6 = 3) || decide (5 ≤ pat) ||
    (decide (2 ≤ pat) && decide (1 ≤ rate ∧ rate ≤ 3)) || (decide (pat = 1) && decide (rate = 4 ∨ rate = 5)) ||
    (v.testBit 0 && (decide (rate = 0) || decide (6 ≤ rate))) ||
    (decide (bits v 7 6 = 2) && v.testBit 1)

/-- LANE.TEST is written (R92): TEST_EN enters TEST at the rate, and its return to 0 leads to POWERUP, or to OFF where
the port gives no rate. `mode` is the rate that the port gives the lane. A retired lane stores TEST_EN and stays retired
(DESIGN CHOICE, assumption 75). The checker is locked only while CHK_EN is 1. -/
def writeLaneTest (s : State) (l v mode : Nat) (trunk : Bool) : State :=
  let s := s.wr (A.LANE_TEST l) (v % 2 ^ 11)
  let s := if v.testBit 0 && v.testBit 2 then s else setPrbsLock s l false
  if v.testBit 0 then
    (if laneState s l = 10 then s
     else
      let s := noTraining (setLaneState (stopLane (exitService s l) l) l 9) l
      setPrecode (s.setFld (A.LANE_STAT l) 27 25 (bits v 10 8)) l)
  else if laneState s l = 9 then (if mode = 0 then laneOff s l else lanePowerup s l mode trunk)
  else s

/-- UNRETIRE (R90): the retirement and the failure window clear; POWERUP where the port uses the lane, else OFF. -/
def unretireLane (s : State) (l mode : Nat) (trunk : Bool) : State :=
  if laneState s l = 10 then
    let s := keepRetired (setLaneFlag s l 18 false) l false
    let s := s.putLane l { s.lane l with fails := [] }
    if mode = 0 then laneOff s l else lanePowerup s l mode trunk
  else s

/-- CLR_TOTAL: FAIL_TOTAL and LAST_CAUSE return to 0. -/
def clearFailTotal (s : State) (l : Nat) : State :=
  (s.setFld (A.LANE_FAULT l) 23 16 0).setFld (A.LANE_FAULT l) 7 4 0

/-- Errors attributed to a lane in SERVICE are counted (R85). -/
def countLaneErrors (s : State) (l n : Nat) : State :=
  if inService s l then s.add64 (A.LANE_ERR_CNT_LO l) n else s

/-- The symbol rate of a lane MODE (R70), in units of 10 kBd. -/
def symbolRate (mode : Nat) : Nat := [0, 125000, 1031250, 2578125, 2656250, 5312500].getD mode 0

/-- The lane whose recovered clock port p offers (R88). -/
def offeredLane (s : State) (p : Nat) : Option Nat := (lanesOfPort p).find? fun l => inService s l

end Sys2Proof.Machine
end

