-- ==== Sys2Proof/Machine/LineCode.lean ====
section
/-! DEFINITION. The line code of a lane: Gray mapping and precoding on PAM4 (R72, R73), and the 64b/66b coding of trunk
lanes (R74): sync headers, the scrambler and the counts of block lock. -/

namespace Sys2Proof.Machine

/-! PAM4 symbols (R72). -/

/-- The level of a pair of bits, the first transmitted bit first. -/
def grayLevel (first second : Bool) : Nat :=
  match first, second with
  | false, false => 0
  | false, true => 1
  | true, true => 2
  | true, false => 3

/-- The pair of bits of a level. -/
def grayBits (level : Nat) : Bool × Bool := (decide (2 ≤ level % 4), decide (level % 4 = 1 ∨ level % 4 = 2))

/-- The levels of a stream of bits, two by two. -/
def grayMap : List Bool → List Nat
  | a :: b :: l => grayLevel a b :: grayMap l
  | _ => []

def grayUnmap : List Nat → List Bool
  | [] => []
  | x :: l => (grayBits x).1 :: (grayBits x).2 :: grayUnmap l

/-- The 1/(1+D) mod 4 precoder: each output is the input less the output before it. -/
def precode (last : Nat) : List Nat → List Nat
  | [] => []
  | x :: l => let y := (x + 4 - last % 4) % 4; y :: precode y l

/-- Its decoder: each output is the sum of an input and the one before it. -/
def unprecode (last : Nat) : List Nat → List Nat
  | [] => []
  | y :: l => (y + last) % 4 :: unprecode y l

/-- What the transmitter of lane `l` sends for a stream of bits after the symbol `last`: levels 0 to 3 on PAM4, and 0 or 1
on NRZ, inverted where TX_INV is 1 (R75). -/
def lineSymbols (s : State) (l last : Nat) (b : List Bool) : List Nat :=
  let inv := s.bit (A.LANE_CTRL l) 3
  if isPam4 (laneMode s l) then
    let sym := if laneFlag s l 16 then precode last (grayMap b) else grayMap b
    if inv then sym.map (3 - ·) else sym
  else b.map fun x => bit01 (x ^^ inv)

/-- The bits that the receiver of lane `l` takes from line symbols after the symbol `last`, in the polarity in effect. -/
def lineBits (s : State) (l last : Nat) (sym : List Nat) : List Bool :=
  let inv := rxInverted s l
  if isPam4 (laneMode s l) then
    let sym := if inv then sym.map (3 - ·) else sym
    grayUnmap (if laneFlag s l 15 then unprecode last sym else sym)
  else sym.map fun x => decide (x % 2 = 1) ^^ inv

/-! 64b/66b on a trunk lane (R74). -/

/-- Sync headers: 0b01 for a data block, 0b10 for a control block. -/
def syncHeader (control : Bool) : Nat := if control then 2 else 1
def validHeader (h : Nat) : Bool := decide (h = 1 ∨ h = 2)

/-- The self-synchronising scrambler 1 + x^39 + x^58: `past` are the last 58 scrambled bits, the latest first. -/
def scramble (past : List Bool) : List Bool → List Bool
  | [] => []
  | b :: l => let c := b ^^ past.getD 38 false ^^ past.getD 57 false; c :: scramble (c :: past.take 57) l

/-- Its descrambler. -/
def descramble (past : List Bool) : List Bool → List Bool
  | [] => []
  | c :: l => (c ^^ past.getD 38 false ^^ past.getD 57 false) :: descramble (c :: past.take 57) l

/-- The 66 bits of a block, the header's first; only the payload is scrambled. -/
def block66 (control : Bool) (past payload : List Bool) : List Bool :=
  (syncHeader control).testBit 1 :: (syncHeader control).testBit 0 :: scramble past payload

/-- A 66-bit block of a lane: one of the scrambled stream, or a control block that is put in behind the scrambler, as those of
markers and step-up pages are (R99, R103). -/
inductive LineBlock where
  | coded (control : Bool) (payload : List Bool)
  | inserted (payload : List Bool)
  deriving DecidableEq, Repr

/-- The last 58 bits behind the scrambler after a block. -/
def scramblerAfter (past coded : List Bool) : List Bool := (coded.reverse ++ past).take 58

/-- The bits of blocks on the line: one that is put in does not advance the scrambler. -/
def blocksOut (past : List Bool) : List LineBlock → List Bool
  | [] => []
  | .coded c b :: l => block66 c past b ++ blocksOut (scramblerAfter past (scramble past b)) l
  | .inserted b :: l => (syncHeader true).testBit 1 :: (syncHeader true).testBit 0 :: b ++ blocksOut past l

/-- The payloads of received blocks, each with whether it was put in: such a block is taken out before the descrambler. -/
def blocksIn (past : List Bool) : List (Bool × List Bool) → List (List Bool)
  | [] => []
  | (true, b) :: l => b :: blocksIn past l
  | (false, b) :: l => descramble past b :: blocksIn (scramblerAfter past b) l

/-- Sync headers in the order of their arrival: the last 64 are valid. -/
def givesBlockLock (headers : List Nat) : Bool := decide (64 ≤ headers.length) && (headers.reverse.take 64).all validHeader

/-- 16 of the last 64 sync headers are invalid. -/
def losesBlockLock (headers : List Nat) : Bool := decide (16 ≤ ((headers.reverse.take 64).filter fun h => !validHeader h).length)

end Sys2Proof.Machine
end

