-- ==== Sys2Proof/Machine/TimeBase.lean ====
section
/-! DEFINITION. The time bases: states, servo, outlier and alarm checks, steps and sources (R122 to R135, R424). -/

namespace Sys2Proof.Machine

def tbState (s : State) (n : Nat) : Nat := s.fld (A.TIM_TB_STAT n) 31 28
def tbArmed (s : State) (n : Nat) : Bool := s.bit (A.TIM_TB_STAT n) 27
def setArmed (s : State) (n : Nat) (b : Bool) : State := s.setBit (A.TIM_TB_STAT n) 27 b
def stepPend (s : State) (n : Nat) : Bool := s.bit (A.TIM_TB_STAT n) 26
def srcSel (s : State) (n : Nat) : Nat := s.fld (tbSrc n) 3 0
def tb0Port (s : State) : Nat := s.fld (tbSrc 0) 21 16

/-- The limit of a rate in ppt (R122). -/
def rateMax : Int := 200000000

/-- The applied rate becomes `r`. -/
def setRate (s : State) (n : Nat) (r : Int) : State :=
  s.wr (A.TIM_TB_RATE n) (ofSigned 32 (clampInt (-rateMax) rateMax r))

/-- Events of time base `n`. -/
def tbEvent (s : State) (n mask : Nat) : State := s.event (A.TIM_TB_EVT n) (A.TIM_TB_EVT_EN n) (64 + n) mask 0

/-! Sources. -/

def refState (s : State) (k : Nat) : Nat := s.fld (A.REF_STAT k) 31 28
def refValid (s : State) (k : Nat) : Bool := decide (refState s k = 3)
/-- VALID or SUSPECT. -/
def refUsable (s : State) (k : Nat) : Bool := decide (refState s k = 3 ∨ refState s k = 4)
/-- A PPS reference (R155). -/
def refPps (s : State) (k : Nat) : Bool := decide (k < 4) && decide (s.rd (A.REF_FREQ k) = 1)
def selState (s : State) : Nat := s.fld A.REF_SEL_STAT 31 28
def selCur (s : State) : Nat := s.fld A.REF_SEL_STAT 26 24

def ptpState (s : State) (p : Nat) : Nat := s.fld (A.PTP_STAT p) 31 28
def ptpEn (s : State) (p : Nat) : Bool := s.bit (A.PTP_CFG p) 0

/-- PORT.STAT shows UP. -/
def portIsUp (s : State) (p : Nat) : Bool := decide (s.fld (A.PORT_STAT p) 31 28 = 2)

/-- The source of time base `n` reports loss (R159, R160), or is a port that is not in SLAVE (R131). REFSEL in SWITCH
reports none (DESIGN CHOICE, assumption 106). -/
def srcLost (s : State) (n src : Nat) : Bool :=
  if src = 0 then false
  else if src = 1 then !(portIsUp s (tb0Port s) && decide (ptpState s (tb0Port s) = 9))
  else if src = 2 then decide (selState s = 0)
  else decide (n < 8) && !refUsable s (src - 3)

/-- The source gives rate only (R123, R133). -/
def srcRateOnly (s : State) (src : Nat) : Bool :=
  if src ≤ 1 then false
  else if src = 2 then decide (selState s ≠ 0) && !refPps s (selCur s)
  else !refPps s (src - 3)

/-- FREQ_ONLY of every time base follows its source. -/
def refreshFreqOnly (s : State) : State :=
  (List.range 8).foldl (fun s n => s.setBit (A.TIM_TB_STAT n) 23 (srcRateOnly s (srcSel s n))) s

/-! State changes. -/

/-- TMO of time base `n` in ns: 0 acts as 1. -/
def holdNs (s : State) (n : Nat) : Nat := Nat.max 1 (s.fld (A.TIM_TB_HOLD n) 15 0) * 100 * us

/-- The applied rate stays as it is. -/
def freezeRate (s : State) (n : Nat) : State := s.putTb n { s.tb n with target := tbRate s n, slewed := s.now }

/-- Entry to HOLDOVER from ACQ or LOCKED (R131). -/
def enterHoldover (s : State) (n : Nat) : State :=
  if tbState s n = 1 ∨ tbState s n = 2 then
    tbEvent (((freezeRate s n).setFld (A.TIM_TB_STAT n) 31 28 3).stop (.tbHold n)) n 4
  else s

/-- Entry to LOCKED. The integral of the servo stays as it is (DESIGN CHOICE, assumption 106). -/
def enterLocked (s : State) (n : Nat) : State :=
  tbEvent ((s.setFld (A.TIM_TB_STAT n) 31 28 2).start (.tbHold n) (holdNs s n)) n 1

/-- Entry to ACQ. -/
def enterAcq (s : State) (n : Nat) : State :=
  ((s.putTb n { s.tb n with estimates := [] }).setFld (A.TIM_TB_STAT n) 31 28 1).start (.tbHold n) (holdNs s n)

/-- ACQ if ARMED is 1, else LOCKED. -/
def enterSteered (s : State) (n : Nat) : State := if tbArmed s n then enterAcq s n else enterLocked s n

/-- θ_last is cleared. -/
def clearTheta (s : State) (n : Nat) : State := s.putTb n { s.tb n with thetaLast := none }

/-- Entry to FREE (R132): the applied rate is copied to RATE_MAN, and the source has changed (R130). -/
def enterFree (s : State) (n : Nat) : State :=
  let s := (clearTheta s n).wr (A.TIM_TB_RATE_MAN n) (s.rd (A.TIM_TB_RATE n))
  ((freezeRate s n).setFld (A.TIM_TB_STAT n) 31 28 0).stop (.tbHold n)

/-- Every time base whose source is lost enters HOLDOVER (R131, R160); FREQ_ONLY follows. -/
def checkSources (s : State) : State :=
  (List.range 8).foldl (fun s n =>
    if decide (2 ≤ srcSel s n) && srcLost s n (srcSel s n) then enterHoldover s n else s) (refreshFreqOnly s)

/-- Port `p` leaves UP, or its PTP state leaves SLAVE (R131). -/
def tbPortLost (s : State) (p : Nat) : State :=
  if srcSel s 0 = 1 ∧ tb0Port s = p then enterHoldover s 0 else s

/-- Sleep entry and warm start (R131). -/
def tbDataDieStops (s : State) : State := if srcSel s 0 = 1 then enterHoldover s 0 else s

/-- The word that a write of `v` to TBn_SRC leaves: a PORT written while AUTO is 1 is discarded (R134). -/
def srcWord (s : State) (n v : Nat) : Nat :=
  if n = 0 ∧ s.fld (tbSrc 0) 31 31 = 1 then putBits v 21 16 (tb0Port s) else v

/-- SRC, and for TB0 PORT, become those of `v` (R123, R132, R134, R424). From FREE, a reference that is lost gives
HOLDOVER at once and a port that cannot give samples does not (DESIGN CHOICE, assumption 106). -/
def changeSource (s : State) (n v : Nat) : State :=
  let v := srcWord s n v
  let old := srcSel s n
  let oldPort := tb0Port s
  let new := bits v 3 0
  let s := s.wr (tbSrc n) v
  let s :=
    if new = 0 then (if old = 0 then s else enterFree s n)
    else if old = 0 then
      let s := enterSteered (s.putTb n { s.tb n with target := tbRate s n, slewed := s.now, thetaLast := none }) n
      if decide (2 ≤ new) && srcLost s n new then enterHoldover s n else s
    else if old ≠ new ∨ (new = 1 ∧ n = 0 ∧ oldPort ≠ bits v 21 16) then
      let s := clearTheta s n
      if srcLost s n new then enterHoldover s n else s
    else s
  refreshFreqOnly s

/-! Steps (R128). -/

/-- The instant X of a step decided at TB0 time `t`. -/
def stepInstant (t : Nat) : Nat :=
  let u := us * nsUnits
  (t + 10 * u + u - 1) / u * u

/-- The accumulator of time base `n` moves by `d` (2^-48 ns). -/
def moveAcc (s : State) (n : Nat) (d : Int) : State :=
  let h := s.tb n
  s.putTb n { h with acc := (((h.acc : Int) + d) % ((ftWrap * 2 ^ 32 : Nat) : Int)).toNat }

/-- Time base `n` is stepped by `d`: θ_last is cleared, and STEPPED recorded. -/
def applyStep (s : State) (n : Nat) (d : Int) : State :=
  let s := moveAcc s n d
  let s := s.putTb n { s.tb n with thetaLast := none, step := none, stepAt := some s.now }
  tbEvent (s.setBit (A.TIM_TB_STAT n) 26 false) n 2

/-- A step by `d` (2^-48 ns) is decided: TB0 waits for X, and the others are stepped at once. The blocks that follow a time base learn of its step from the caller. -/
def decideStep (s : State) (n : Nat) (d : Int) : State :=
  if n = 0 then
    (s.putTb 0 { s.tb 0 with step := some (d, stepInstant (tb0 s)) }).setBit (A.TIM_TB_STAT 0) 26 true
  else s.putTb n { s.tb n with step := some (d, 0) }

/-- The step of TB1 to TB7 waits for the end of the switch-over gap, in which it would be decided (R212). -/
def waitsForGap (s : State) (n : Nat) : Bool := inGap s && decide (n ≠ 0)

def decideLater (s : State) (n : Nat) (x : LaterStep) : State := s.putTb n { s.tb n with later := some x }

/-- A commit of TBn_SET_W0 to the time `t` (R128), where it can be made. -/
def setStepOk (s : State) (n : Nat) : Bool := tbArmed s n && !stepPend s n

def setStep (s : State) (n t : Nat) : State :=
  if waitsForGap s n then decideLater s n (.target t)
  else decideStep (setArmed s n false) n (((t * 2 ^ 32 : Nat) : Int) - (((s.tb n).acc : Nat) : Int))

/-- A step that waited for the end of the gap is decided (R212). -/
def decideWaiting (s : State) (n : Nat) : State :=
  let t := s.putTb n { s.tb n with later := none }
  match (s.tb n).later with
  | some (.delta d) => decideStep (setArmed t n false) n d
  | some (.target x) => setStep t n x
  | none => s

/-! The servo (R129). -/

/-- The rate moves towards `r`, clamped, with RATE_LIM (R129). -/
def setTarget (s : State) (n : Nat) (r : Int) : State :=
  let c := clampInt (-rateMax) rateMax r
  let h := s.tb n
  let s := s.putTb n { h with target := c, slewed := if h.target = tbRate s n then s.now else h.slewed }
  let s := s.setBit (A.TIM_TB_STAT n) 24 (decide (c ≠ r))
  if c ≠ r then tbEvent s n 32 else s

/-- One accepted sample in LOCKED drives the servo: θ in 2^-16 ns, gains in 2^-8 ppt per ns. -/
def servo (s : State) (n : Nat) (theta : Int) : State :=
  let kp : Int := (s.fld (A.TIM_TB_SERVO n) 31 16 : Nat)
  let ki : Int := (s.fld (A.TIM_TB_SERVO n) 15 0 : Nat)
  let h := s.tb n
  let integ := if h.target = tbRate s n then h.integ + ki * theta else h.integ
  setTarget (s.putTb n { h with integ := integ }) n (-(quotInt (integ + kp * theta) (2 ^ 24)))

/-! Frequency estimates. -/

/-- A frequency estimate in ACQ: the rate that the source has, in ppt. The time base takes it at once, and is LOCKED
when eight of them vary by less than FLOCK. -/
def acqEstimate (s : State) (n : Nat) (r : Int) : State :=
  let l := (r :: (s.tb n).estimates).take 8
  let s := setRate (s.putTb n { s.tb n with estimates := l }) n r
  let s := freezeRate s n
  let hi := l.foldl max r
  let lo := l.foldl min r
  if l.length = 8 ∧ hi - lo < (s.fld (A.TIM_TB_THR2 n) 31 16 : Nat) then enterLocked s n else s

/-- L1Sync is in effect on TB0's slave port (R144): on a trunk always. -/
def l1InEffect (s : State) (p : Nat) : Bool :=
  decide (s.fld (A.PORT_STAT p) 27 24 = 13) ||
    (s.bit (A.PTP_CFG p) 5 && decide (s.fld (A.PTP_STAT p) 26 24 = 5))

/-- The estimate that goes with an accepted phase sample in ACQ: from PTP.FREQ where L1Sync is in effect; else the
manual gives no formula, and the value is open. -/
def phaseEstimate (s : State) (n : Nat) : Int × State :=
  if decide (n = 0) && decide (srcSel s 0 = 1) && l1InEffect s (tb0Port s) then
    (tbRate s 0 + toSigned 32 (s.rd (A.PTP_FREQ (tb0Port s))), s)
  else
    let (x, s) := s.draw
    (clampInt (-rateMax) rateMax (toSigned 32 x), s)

/-! Offset samples. -/

/-- The outlier test of R130: whether the sample is accepted, and the state. -/
def outlierTest (s : State) (n : Nat) (theta : Int) : Bool × State :=
  let h := s.tb n
  let lim : Int := (s.fld (A.TIM_TB_THR n) 31 16 * nsUnits : Nat)
  let far := match h.thetaLast with
    | none => false
    | some l => decide (lim ≠ 0) && decide (lim < (theta - l).natAbs)
  if !far then (true, s.putTb n { h with discards := 0 })
  else if 8 ≤ h.discards then (true, tbEvent (s.putTb n { h with discards := 0 }) n 64)
  else
    (false, (s.putTb n { h with discards := h.discards + 1 }).wr (A.TIM_TB_OUTLIERS n) (s.rd (A.TIM_TB_OUTLIERS n) + 1))

/-- The alarm check of R130 on an accepted sample. -/
def alarmCheck (s : State) (n : Nat) (theta : Int) : State :=
  let lim := s.fld (A.TIM_TB_THR n) 15 0 * nsUnits
  let h := s.tb n
  if lim = 0 then s
  else if lim < theta.natAbs then
    let s := s.putTb n { h with beyond := h.beyond + 1, inside := 0 }
    if 8 ≤ h.beyond + 1 ∧ s.bit (A.TIM_TB_STAT n) 25 = false then tbEvent (s.setBit (A.TIM_TB_STAT n) 25 true) n 16 else s
  else
    let s := s.putTb n { h with beyond := 0, inside := h.inside + 1 }
    if 8 ≤ h.inside + 1 then s.setBit (A.TIM_TB_STAT n) 25 false else s

/-- What every accepted sample does before the correction: θ_last, TBn_OFFSET, the alarm, the timeout, and the end of
HOLDOVER. -/
def acceptSample (s : State) (n : Nat) (theta : Int) : State :=
  let s := s.putTb n { s.tb n with thetaLast := some theta }
  let s := s.wr (A.TIM_TB_OFFSET n) (ofSigned 32 (clampInt (-(2 ^ 31 - 1)) (2 ^ 31 - 1) theta))
  let s := (alarmCheck s n theta).pmcEvent 23 0x380 1
  if tbState s n = 3 then tbEvent (enterSteered s n) n 8 else s.start (.tbHold n) (holdNs s n)

/-- A correction decision of a source that gives phase (R127, R129). -/
def correctPhase (s : State) (n : Nat) (theta : Int) : State :=
  if tbState s n = 1 then
    let (r, s) := phaseEstimate s n
    acqEstimate s n r
  else if tbArmed s n && decide (s.fld (A.TIM_TB_THR2 n) 15 0 * nsUnits < theta.natAbs) then
    (if waitsForGap s n then decideLater s n (.delta (-theta * 2 ^ 32))
     else decideStep (setArmed s n false) n (-theta * 2 ^ 32))
  else servo (setArmed s n false) n theta

/-- A phase sample θ (2^-16 ns) of the source of time base `n` (R127 to R130). -/
def phaseSample (s : State) (n : Nat) (theta : Int) : State :=
  if tbState s n = 0 || stepPend s n then s
  else
    match outlierTest s n theta with
    | (false, s) => s
    | (true, s) => correctPhase (acceptSample s n theta) n theta

/-- A frequency estimate of a rate-only source (R133, R135): time base `n` runs `ppt` faster than its source. -/
def rateSample (s : State) (n : Nat) (ppt : Int) : State :=
  if tbState s n = 0 || stepPend s n then s
  else
    let s := if tbState s n = 3 then tbEvent (enterSteered s n) n 8 else s.start (.tbHold n) (holdNs s n)
    if tbState s n = 1 then acqEstimate s n (tbRate s n - ppt) else setTarget s n (tbRate s n - ppt)

/-! Time passes. -/

/-- How far `k` periods of 2 ns at a rate bring an accumulator, with the remainder over 10^12 (R122). -/
def advanceAcc (h : TbHidden) (rate : Int) (k : Nat) : TbHidden :=
  let n := (h.residue : Int) + ((2 * 2 ^ 48 : Nat) : Int) * (1000000000000 + rate) * (k : Int)
  { h with acc := (((h.acc : Int) + n / 1000000000000) % ((ftWrap * 2 ^ 32 : Nat) : Int)).toNat
           residue := (n % 1000000000000).toNat }

/-- The applied rate moves by 1 ppt towards the target. -/
def slewOne (s : State) (n : Nat) : State :=
  let r := tbRate s n
  let t := (s.tb n).target
  setRate s n (if r < t then r + 1 else if t < r then r - 1 else r)

/-- Time base `n` advances by `k` periods that begin at true time `from0`; the rate moves once in each 1 ms. -/
def advanceTb (s : State) (n : Nat) : Nat → Nat → Nat → State
  | 0, _, k => s.putTb n (advanceAcc (s.tb n) (tbRate s n) k)
  | fuel + 1, from0, k =>
    let h := s.tb n
    if h.target = tbRate s n then s.putTb n (advanceAcc h (tbRate s n) k)
    else
      let j := Nat.min k ((h.slewed + ms - from0) / 2)
      if j < k ∨ from0 + 2 * k = h.slewed + ms then
        let s := s.putTb n { advanceAcc h (tbRate s n) j with slewed := from0 + 2 * j }
        advanceTb (slewOne s n) n fuel (from0 + 2 * j) (k - j)
      else s.putTb n (advanceAcc h (tbRate s n) k)

/-- What time base `n` advanced by from one state to another, in ns of its own time, steps apart (R122). -/
def tbGone (s t : State) (n : Nat) : Rat :=
  let w := ftWrap * 2 ^ 32
  mkRat (((t.tb n).acc + w - (s.tb n).acc) % w : Nat) (2 ^ 48)

/-- Every time base advances by `k` TCLK periods (R122). -/
def advanceAll (s : State) (k : Nat) : State :=
  (List.range 8).foldl (fun t n => advanceTb t n (k / 500000 + 2) s.now k) s

/-! Reading and latching. -/

/-- The whole time base is captured into the requester's shadow (R125). -/
def captureShadow (s : State) (r : Req) (n : Nat) : State :=
  { s with shadows := Map.put 0 s.shadows (2 * n + reqNum r) (shownTime s n) }

/-- The named time bases are copied to their latched words (R126). -/
def latchTbs (s : State) (v : Nat) : State :=
  (bitsSet v 8).foldl (fun s n => s.wrTime (A.TIM_TB_LAT_W2 n) (shownTime s n)) s

/-- A guarded TIM.ARM (R127). -/
def armTbs (s : State) (v : Nat) : State := (bitsSet v 8).foldl (fun s n => setArmed s n true) s

/-- A write of RATE_MAN (R132), where it is in range: in FREE it is the applied rate. -/
def writeRateMan (s : State) (n v : Nat) : Option State :=
  if toSigned 32 v < -rateMax ∨ rateMax < toSigned 32 v then none
  else
    let s := s.wr (A.TIM_TB_RATE_MAN n) v
    some (if tbState s n = 0 then freezeRate (s.wr (A.TIM_TB_RATE n) v) n else s)

end Sys2Proof.Machine
end

