-- ==== Sys2Proof/Machine/References.lean ====
section
/-! DEFINITION. XO_IN, the six references, their monitoring and their selection (R154 to R168), and the samples that
they give (R135). -/

namespace Sys2Proof.Machine

/-- Events of the REF block: XO_LOSS raises source 72 whatever EVT_EN holds. -/
def refEvent (s : State) (mask : Nat) : State := s.event A.REF_EVT A.REF_EVT_EN 72 mask 0x40

def refEn (s : State) (k : Nat) : Bool := s.bit (A.REF_CFG k) 31
def refRank (s : State) (k : Nat) : Nat := s.fld (A.REF_CFG k) 11 8
def refFofs (s : State) (k : Nat) : Int := toSigned 32 (s.rd (A.REF_FOFS k))
def setRefState (s : State) (k st : Nat) : State := s.setFld (A.REF_STAT k) 31 28 st

/-- QUAL of a reference in ns: 0 acts as 1. -/
def qualNs (s : State) (k : Nat) : Nat := Nat.max 1 (s.fld (A.REF_LIM k) 31 16) * 100 * ms

def selMode (s : State) : Nat := s.fld A.REF_SEL_CTRL 1 0
def selRevert (s : State) : Bool := s.bit A.REF_SEL_CTRL 2
def manRef (s : State) : Nat := s.fld A.REF_SEL_CTRL 6 4
def wtrRef (s : State) : Nat := s.fld A.REF_SEL_STAT 22 20

/-- The order of FALLBACK: MAN_REF first, then ascending rank, ties by the lower index; rank 0 takes no part. -/
def fallbackOrder (s : State) : List Nat :=
  manRef s :: (List.range 16).flatMap fun r =>
    (List.range 6).filter fun k => decide (0 < r) && decide (refRank s k = r) && decide (k ≠ manRef s)

/-- The candidate of the mode, if there is one. -/
def candidate (s : State) : Option Nat :=
  if selMode s = 1 then (if refUsable s (manRef s) then some (manRef s) else none)
  else if selMode s = 2 then (fallbackOrder s).find? fun k => refValid s k
  else none

/-- The first VALID reference that is better than the current one, in FALLBACK. -/
def betterRef (s : State) : Option Nat :=
  if selMode s = 2 then
    ((fallbackOrder s).takeWhile fun k => decide (k ≠ selCur s)).find? fun k => refValid s k
  else none

/-- The wait-to-restore timer is stopped. -/
def cancelWtr (s : State) : State := (s.setFld A.REF_SEL_STAT 22 20 7).stop .refWtr

/-- Selection enters LOSS (R159). -/
def selEnterLoss (s : State) : State :=
  if selState s = 0 then s
  else checkSources (refEvent (cancelWtr ((s.setFld A.REF_SEL_STAT 31 28 0).setFld A.REF_SEL_STAT 26 24 7)) 1)

/-- Selection starts a SWITCH to reference `k`. -/
def selSwitch (s : State) (k : Nat) : State :=
  checkSources (cancelWtr ((s.setFld A.REF_SEL_STAT 31 28 1).setFld A.REF_SEL_STAT 26 24 k))

/-- SWITCH to the candidate, or LOSS. -/
def selNext (s : State) : State :=
  match candidate s with
  | some k => selSwitch s k
  | none => selEnterLoss s

/-- The wait-to-restore timer in ON (R164, R165). -/
def wtrEval (s : State) : State :=
  match betterRef s with
  | none => if wtrRef s = 7 then s else cancelWtr s
  | some k =>
    if !selRevert s then (if wtrRef s = 7 then s else cancelWtr s)
    else if s.fld A.REF_SEL_CTRL 31 16 = 0 then selSwitch (refEvent s 4) k
    else if wtrRef s = k then s
    else (s.setFld A.REF_SEL_STAT 22 20 k).start .refWtr (s.fld A.REF_SEL_CTRL 31 16 * 1000 * ms)

/-- Selection follows a change of a reference's state (R159 to R166). -/
def selEval (s : State) : State :=
  if selState s = 0 then (if (candidate s).isSome then selNext s else s)
  else if !refUsable s (selCur s) then
    (if selState s = 1 then selNext (refEvent s 128) else selNext s)
  else if selState s = 2 then wtrEval s
  else s

/-- MODE or MAN_REF changed (R167). -/
def selRewrite (s : State) (newMan : Bool) : State :=
  let target :=
    if selMode s = 0 then none
    else if selMode s = 1 then candidate s
    else if newMan && refValid s (manRef s) then some (manRef s)
    else if selState s ≠ 0 ∧ refUsable s (selCur s) then some (selCur s)
    else candidate s
  match target with
  | none => selEnterLoss (if selState s = 1 then refEvent s 128 else s)
  | some k =>
    if selState s ≠ 0 ∧ selCur s = k then selEval s
    else selSwitch (if selState s = 1 then refEvent s 128 else s) k

/-- A reference's state changed: the time bases and the selection follow. -/
def refChanged (s : State) : State := selEval (checkSources s)

/-- Entry to FAILED with a cause (R157). -/
def refFail (s : State) (k cause : Nat) : State :=
  let s := (setRefState s k 1).setFld (A.REF_STAT k) 26 24 cause
  refEvent (s.stop (.refQual k)) 8

/-- Entry to VALID. -/
def refToValid (s : State) (k : Nat) : State :=
  let l := Map.put 0 s.refs.agree k 0
  refEvent ((setRefState { s with refs := { s.refs with agree := l } } k 3).stop (.refQual k)) 16

/-- No edge came for the activity limit (R157). -/
def refInactive (s : State) (k : Nat) : State :=
  if refState s k = 0 then s
  else
    let s := s.setBit (A.REF_STAT k) 27 false
    if refState s k = 1 then s.setFld (A.REF_STAT k) 26 24 1 else refChanged (refFail s k 1)

/-! The recovered clocks (R88, R156). -/

/-- The port that RCVD_A (reference 4) or RCVD_B (reference 5) selects. -/
def rcvdPort (s : State) (k : Nat) : Nat := if k = 4 then s.fld A.REF_RCVD_SEL 5 0 else s.fld A.REF_RCVD_SEL 13 8

/-- The divider of the selector in a lane MODE. -/
def rcvdDivider (mode : Nat) : Nat := [1, 8, 66, 165, 170, 340].getD mode 1

/-- The frequency of the divided clock that reference `k` gets, in Hz, if its port offers one. -/
def rcvdHz (s : State) (k : Nat) : Option Nat :=
  (offeredLane s (rcvdPort s k)).map fun l => symbolRate (laneMode s l) * 10000 / rcvdDivider (laneMode s l)

/-- Edges can come at the reference: one whose selector's port offers no clock sees none. -/
def refSees (s : State) (k : Nat) : Bool := decide (k < 4) || (rcvdHz s k).isSome

/-- Two references of the same rank that R158 compares. -/
def refPair (s : State) (a b : Nat) : Bool :=
  decide (a ≠ b) && decide (refRank s a ≠ 0) && decide (refRank s a = refRank s b) && refUsable s a && refUsable s b

/-- The limit of R158 in ppt; 0 disables the comparison. -/
def suspLimit (s : State) : Nat := s.fld A.REF_EQ_THR 15 0 * 1000

/-- Reference `k` disagrees with one of its pairs. -/
def refDisagrees (s : State) (k : Nat) : Bool :=
  decide (suspLimit s ≠ 0) &&
    (List.range 6).any fun b => refPair s k b && decide (suspLimit s < (refFofs s k - refFofs s b).natAbs)

/-- Reference `k` has partners and agrees with all within SUSP/2. -/
def refAgrees (s : State) (k : Nat) : Bool :=
  let l := (List.range 6).filter fun b => refPair s k b
  !l.isEmpty && l.all fun b => decide (2 * (refFofs s k - refFofs s b).natAbs ≤ suspLimit s)

/-- The references that disagree become SUSPECT (R158). -/
def markSuspects (s : State) : State :=
  let bad := (List.range 6).filter fun k => refDisagrees s k
  let fresh := bad.any fun k => decide (refState s k ≠ 4)
  let t := bad.foldl (fun s k => setRefState s k 4) s
  if fresh then refEvent t 32 else t

/-- A SUSPECT reference that has agreed for one QUAL period returns to VALID (R158). -/
def clearAgreed (s : State) (k : Nat) : State :=
  let set := fun n => { s with refs := { s.refs with agree := Map.put 0 s.refs.agree k n } }
  if refState s k ≠ 4 ∨ refAgrees s k = false then set 0
  else
    let t := Map.get 0 s.refs.agree k
    if t = 0 then set (s.now + 1)
    else if t - 1 + qualNs s k ≤ s.now then refToValid s k
    else s

/-- The comparison of equal ranks after a measurement (R158). -/
def compareRanks (s : State) : State := (List.range 6).foldl clearAgreed (markSuspects s)

/-- A frequency measurement (R157): the offset against XO_IN in ppt. -/
def refMeasure (s : State) (k : Nat) (ppt : Int) : State :=
  if refState s k = 0 || !refSees s k then s
  else
    let s := s.setBit (A.REF_STAT k) 27 true
    let s := s.wr (A.REF_FOFS k) (ofSigned 32 (clampInt (-(2 ^ 31)) (2 ^ 31 - 1) ppt))
    let bad := decide (s.fld (A.REF_LIM k) 15 0 * 1000 < ppt.natAbs)
    let s :=
      if bad then (if refState s k = 1 then s.setFld (A.REF_STAT k) 26 24 2 else refFail s k 2)
      else if refState s k = 1 then (setRefState s k 2).start (.refQual k) (qualNs s k)
      else s
    refChanged (compareRanks s)

/-- The qualification timer expired (R157). -/
def refQualified (s : State) (k : Nat) : State :=
  if decide (refState s k = 2) && s.due (.refQual k) then refChanged (refToValid s k) else s

/-- A write of REF.SUSP_CLR (R158). -/
def suspClear (s : State) (v : Nat) : State :=
  refChanged ((bitsSet v 6).foldl (fun s k => if refState s k = 4 then refToValid s k else s) s)

/-- A write of REFk_CFG (R157). -/
def writeRefCfg (s : State) (k v : Nat) : State :=
  let was := refEn s k
  let s := s.wr (A.REF_CFG k) v
  let s :=
    if was = v.testBit 31 then s
    else if v.testBit 31 then refFail (s.setBit (A.REF_STAT k) 27 false) k (s.fld (A.REF_STAT k) 26 24)
    else
      let l := Map.put 0 s.refs.agree k 0
      let s := { s with refs := { s.refs with agree := l } }
      ((setRefState s k 0).setBit (A.REF_STAT k) 27 false).stop (.refQual k)
  refChanged s

/-- A write of REFk_FREQ for a REFIN (R155), refused outside its range. -/
def writeRefFreq (s : State) (k v : Nat) : Option State :=
  if v = 0 ∨ 800000000 < v then none else some (refreshFreqOnly (s.wr (A.REF_FREQ k) v))

/-- A write of REF.SEL_CTRL (R167), refused for MODE 3 and MAN_REF above 5. -/
def writeSelCtrl (s : State) (v : Nat) : Option State :=
  if bits v 1 0 = 3 ∨ 5 < bits v 6 4 then none
  else
    let newMan := decide (bits v 6 4 ≠ manRef s)
    let changed := newMan || decide (bits v 1 0 ≠ selMode s)
    let s := s.wr A.REF_SEL_CTRL v
    some (if changed then selRewrite s newMan else selEval s)

/-- The first phase measurement of the target (R159). -/
def selAcquired (s : State) : State :=
  if decide (selState s = 1) && refSees s (selCur s) then wtrEval (checkSources (refEvent (s.setFld A.REF_SEL_STAT 31 28 2) 2)) else s

/-- The wait-to-restore timer expired (R164). -/
def wtrExpire (s : State) : State :=
  if decide (selState s = 2) && s.due .refWtr && refValid s (wtrRef s) then selSwitch (refEvent s 4) (wtrRef s) else s

/-- Time base `n` takes the samples of reference `k` (R159, R160). -/
def takesRef (s : State) (n k : Nat) : Bool :=
  decide (srcSel s n = k + 3) && refUsable s k ||
    decide (srcSel s n = 2) && decide (selState s = 2) && decide (selCur s = k)

/-- θ of a PPS edge against time base `n` (R135): TBn minus OFFSET, minus the nearest whole second. -/
def ppsTheta (s : State) (n k : Nat) : Int :=
  let t := ((tbTime s n : Int) - toSigned 32 (s.rd (A.REF_OFFSET k))) % (secUnits : Int)
  if 2 * t ≤ (secUnits : Int) then t else t - (secUnits : Int)

/-- The edge is the one that REFk_CFG.EDGE names (R155). -/
def refEdge (s : State) (k : Nat) (falling : Bool) : Bool := decide (s.bit (A.REF_CFG k) 0 = falling)

/-- An edge of a PPS reference (R135, R155). -/
def ppsEdge (s : State) (k : Nat) (falling : Bool) : State :=
  if refPps s k && refEdge s k falling && decide (refState s k ≠ 0) && !annealHolds s 7 k then
    (List.range 8).foldl (fun s n => if takesRef s n k then phaseSample s n (ppsTheta s n k) else s)
      (s.setBit (A.REF_STAT k) 27 true)
  else s

/-- A lane takes over the clock of a recovered reference within the same port: the estimates that span the change are
bad, and the reference stays in its state (R156, R163). -/
def rcvdMoved (s : State) (k : Nat) : State :=
  match offeredLane s (rcvdPort s k) with
  | none => s
  | some l =>
    let was := Map.get 0 s.refs.rcvd k
    let bad := if was ≠ 0 ∧ was ≠ l + 1 ∧ (was - 1) / 8 = l / 8 then (List.range 8).filter fun n => takesRef s n k else []
    { s with refs := { s.refs with rcvd := Map.put 0 s.refs.rcvd k (l + 1)
                                   spoilt := bad ++ s.refs.spoilt.filter fun n => !decide (n ∈ bad) } }

/-- RCVD_A and RCVD_B follow the lanes that their ports offer. -/
def refreshRcvd (s : State) : State := [4, 5].foldl rcvdMoved s

/-- A frequency estimate of the rate-only reference that time base `n` takes (R135). One that spans a change of lane is
discarded, and the next covers only the new lane (R156, R161). -/
def freqSample (s : State) (n : Nat) (ppt : Int) : State :=
  if srcRateOnly s (srcSel s n) && (List.range 6).any (fun k => takesRef s n k && refSees s k) then
    (if n ∈ s.refs.spoilt then { s with refs := { s.refs with spoilt := s.refs.spoilt.filter (· ≠ n) } }
     else rateSample s n ppt)
  else s

/-- XO_IN is lost, and returns (R154). -/
def xoLost (s : State) : State := if s.bit A.REF_XO_STAT 0 then s else refEvent (s.setBit A.REF_XO_STAT 0 true) 64
def xoBack (s : State) : State := s.setBit A.REF_XO_STAT 0 false

end Sys2Proof.Machine
end

