-- ==== Sys2Proof/Machine/Synth.lean ====
section
/-! DEFINITION. The output synthesizers: the frequency plan, lock, ramps and alignment (R170 to R180). Ratios are exact
quotients: N is numerator over denominator. -/

namespace Sys2Proof.Machine

def State.syn (s : State) (k : Nat) : SynHidden := Map.get {} s.syns k
def putSyn (s : State) (k : Nat) (h : SynHidden) : State := { s with syns := Map.put {} s.syns k h }

/-- Events of synthesizer `k`. -/
def synEvent (s : State) (k mask : Nat) : State := s.event (A.PLL_SYN_EVT k) (A.PLL_SYN_EVT_EN k) (80 + k) mask 0

def synState (s : State) (k : Nat) : Nat := s.fld (A.PLL_SYN_STAT k) 31 28
def setSynState (s : State) (k st : Nat) : State := s.setFld (A.PLL_SYN_STAT k) 31 28 st
def synEn (s : State) (k : Nat) : Bool := s.bit (A.PLL_SYN_CFG k) 31
def synWaits (s : State) (k : Nat) : Bool := s.bit (A.PLL_SYN_STAT k) 26
def synRamping (s : State) (k : Nat) : Bool := decide (synState s k = 3)
def setAligned (s : State) (k : Nat) (b : Bool) : State := s.setBit (A.PLL_SYN_STAT k) 27 b

/-! The frequency plan (R170). -/

/-- N of a pair of registers. -/
def ratioOf (n sub : Nat) : Nat × Nat :=
  let den := Nat.max 1 (bits sub 31 16)
  ((bits n 31 28 * 2 ^ 24 + bits n 23 0) * den + bits sub 15 0, den * 2 ^ 24)

def synOd (s : State) (k : Nat) : Nat := s.fld (A.PLL_SYN_OD k) 22 0

/-- N in force. -/
def synN (s : State) (k : Nat) : Nat × Nat :=
  (s.syn k).present.getD (ratioOf (s.rd (A.PLL_SYN_N k)) (s.rd (A.PLL_SYN_SUB k)))

/-- The target of a ramp. -/
def synNt (s : State) (k : Nat) : Nat × Nat := ratioOf (s.rd (A.PLL_SYN_NT k)) (s.rd (A.PLL_SYN_NT_SUB k))

/-- The limits of R170 on N, its sub-fraction and OD. -/
def planOk (n sub od : Nat) : Bool :=
  let r := ratioOf n sub
  decide (56 * r.2 ≤ 5 * r.1) && decide (5 * r.1 ≤ 72 * r.2) && decide (bits sub 15 0 < Nat.max 1 (bits sub 31 16)) &&
    decide (4 ≤ od) && decide (od ≤ 8388607) &&
    decide (1000 * (r.2 * od) ≤ 500000000 * r.1) && decide (500000000 * r.1 ≤ 1600000000 * (r.2 * od))

/-- The output's frequency against the followed time base, in output periods per ns (R170): N × 500 MHz / OD. -/
def planRate (n : Nat × Nat) (od : Nat) : Rat := mkRat n.1 (n.2 * 2 * od)

/-- The output or frame period as a quotient of seconds. -/
def periodOf (frame : Bool) (n sub od fd : Nat) : Nat × Nat :=
  let r := ratioOf n sub
  (r.2 * od * (if frame then fd else 1), 500000000 * r.1)

/-- The limits of R178 on the alignment, for the words of a configuration. -/
def alignOk (s : State) (cfg n sub od fd : Nat) : Bool :=
  let al := bits cfg 25 24
  let src := bits cfg 23 21
  let pps := decide (1 ≤ src) && refPps s (src - 1)
  let p := periodOf (cfg.testBit 26) n sub od fd
  decide (al ≠ 3) && decide (src ≤ 4) &&
    (decide (al = 0) || decide (src = 0) || pps) &&
    (decide (al ≠ 2) || decide (src = 0) || decide (p.1 ≠ 0 ∧ p.2 % p.1 = 0))

/-- The configuration that a write of `v` to a register would leave. -/
def synWould (s : State) (k : Nat) (reg : SynReg) (v : Nat) : List Nat :=
  [if reg = .cfg then v else s.rd (A.PLL_SYN_CFG k), if reg = .n then v else s.rd (A.PLL_SYN_N k),
   if reg = .sub then v else s.rd (A.PLL_SYN_SUB k), if reg = .od then v else s.rd (A.PLL_SYN_OD k),
   if reg = .frame then v else s.rd (A.PLL_SYN_FRAME k)]

/-- A write of a synthesizer's configuration is rejected (R170, R177, R178). -/
def synRejects (s : State) (k : Nat) (reg : SynReg) (v : Nat) : Bool :=
  let w := synWould s k reg v
  let g := fun i => w.getD i 0
  let ramp := synRamping s k || synWaits s k
  match reg with
  | .cfg => !alignOk s (g 0) (g 1) (g 2) (g 3) (g 4)
  | .n | .sub =>
    ramp || (synEn s k && (s.syn k).outOn) || !planOk (g 1) (g 2) (g 3) || !alignOk s (g 0) (g 1) (g 2) (g 3) (g 4)
  | .od => synEn s k || !planOk (g 1) (g 2) (g 3) || !alignOk s (g 0) (g 1) (g 2) (g 3) (g 4)
  | .frame => decide (v < 2) || !alignOk s (g 0) (g 1) (g 2) (g 3) (g 4)
  | .nt | .ntSub => ramp
  | .offset | .align => false

/-- The address of a configuration register. -/
def synRegAddr (k : Nat) : SynReg → Nat
  | .cfg => A.PLL_SYN_CFG k
  | .n => A.PLL_SYN_N k
  | .sub => A.PLL_SYN_SUB k
  | .od => A.PLL_SYN_OD k
  | .frame => A.PLL_SYN_FRAME k
  | .offset => A.PLL_SYN_OFFSET k
  | .align => A.PLL_SYN_ALIGN k
  | .nt => A.PLL_SYN_NT k
  | .ntSub => A.PLL_SYN_NT_SUB k

/-! The N of a ramp (R175). -/

def segShare (s : State) (k j : Nat) : Nat := s.fld (A.PLL_RAMP_SEG k j) 31 23

/-- The duration of a segment in ns. -/
def segDur (s : State) (k j : Nat) : Nat :=
  s.fld (A.PLL_RAMP_SEG k j) 21 0 * (if s.bit (A.PLL_RAMP_SEG k j) 22 then 10000 else 10)

/-- True time as a ramp counts it: it stands still in a switch-over gap (R212). -/
def rampClock (s : State) : Nat := if inGap s then s.tco.gapAt else s.now

/-- N at this instant of a ramp (R175): N_0 + (N_T − N_0) × (shares made) / 256. -/
def rampNow (s : State) (k : Nat) : Nat × Nat :=
  match (s.syn k).from0 with
  | none => synN s k
  | some n0 =>
    let nt := synNt s k
    let j := s.fld (A.PLL_SYN_STAT k) 23 16
    let d := Nat.max 1 (segDur s k j)
    let made := (s.syn k).done * d + segShare s k j * Nat.min d (rampClock s - (s.syn k).segAt)
    let whole := 256 * d
    (((n0.1 * nt.2 : Nat) : Int) * whole + (((nt.1 * n0.2 : Nat) : Int) - ((n0.1 * nt.2 : Nat) : Int)) * made
      |>.toNat, n0.2 * nt.2 * whole)

/-! The output (R153, R170, R171). -/

/-- The followed time base. -/
def synTb (s : State) (k : Nat) : Nat := s.fld (A.PLL_SYN_CFG k) 29 27

/-- The output gives frame pulses, and how many periods a frame has. -/
def synFrame (s : State) (k : Nat) : Bool := s.bit (A.PLL_SYN_CFG k) 26
def frameDiv (s : State) (k : Nat) : Nat := Nat.max 1 (s.rd (A.PLL_SYN_FRAME k))

/-- f_out with the N of this instant (R153, R170, R175), in output periods per ns of true time. -/
def synHz (s : State) (k : Nat) : Rat := followed s (synTb s k) (planRate (rampNow s k) (synOd s k))

/-- The part of a period for which the square wave is high. -/
def synDuty (k : Nat) : Rat :=
  mkRat 12 25 + mkRat (Config.dutyNum k % (Config.dutyDen k + 2)) (25 * (Config.dutyDen k + 1))

/-- The periods from one rising edge of the output to the next, and to the falling edge between them (R171). -/
def wavePeriods (s : State) (k : Nat) : Nat := if synFrame s k then frameDiv s k else 1
def waveHigh (s : State) (k : Nat) : Rat := if synFrame s k then 1 else synDuty k

/-- `x` modulo `n`. -/
def ratMod (x : Rat) (n : Nat) : Rat := x - (n : Rat) * ((x / (n : Rat)).floor : Rat)

/-- The deviation of the output's edges in ps: none but during a switch-over, up to the end of the relock (R212). -/
def waveDev (s : State) (k : Nat) : Rat := if inGap s || decide (s.now < s.tco.relock) then mkRat (s.syn k).dev 1000 else 0

/-- The place in the output's present wave, in periods from its rising edge. -/
def wavePlace (s : State) (k : Nat) : Rat :=
  ratMod ((s.syn k).phase + waveDev s k * synHz s k / 1000) (wavePeriods s k)

/-- The level at CLKOUTk (R171). In RELOCK the edges are open. -/
def clkoutLevel (s : State) (k : Nat) : Option Bool :=
  if !(s.syn k).outOn then some false
  else if synState s k = 2 ∨ synState s k = 3 then some (decide (wavePlace s k < waveHigh s k))
  else none

/-- A change of OUT_EN waits for the next falling edge. -/
def outSoon (s : State) (k : Nat) : State := putSyn s k { s.syn k with turn := .waits }

/-- The phase in which a loop locks is open. -/
def drawPhase (s : State) (k : Nat) : State :=
  let (x, s) := s.draw
  let (y, s) := s.draw
  putSyn s k { s.syn k with phase := ratMod (mkRat x (y + 1)) (frameDiv s k), stepBy := 0 }

/-! Configuration. -/

/-- A ramp that runs or waits is abandoned, with RAMP_ABORT (R177). -/
def rampAbort (s : State) (k : Nat) : State :=
  if synRamping s k || synWaits s k then
    let s := putSyn s k { s.syn k with from0 := none, done := 0 }
    synEvent ((((s.setBit (A.PLL_SYN_STAT k) 26 false).setFld (A.PLL_SYN_STAT k) 23 16 0).stop (.synSeg k))) k 8
  else s

/-- A slew in progress ends unfinished. -/
def slewStop (s : State) (k : Nat) : State := putSyn s k { s.syn k with slewing := none }

/-- EN becomes 0: the synthesizer is OFF. -/
def synOff (s : State) (k : Nat) : State :=
  let s := slewStop (rampAbort s k) k
  let s := (s.stop (.synRelock k)).stop (.synRetry k)
  let s := putSyn s k { s.syn k with present := none, outOn := false, once := false, stepBy := 0, turn := .idle }
  setAligned (setSynState s k 0) k false

/-- A configuration write that is not rejected (R170, R178, R179). -/
def synWrite (s : State) (k : Nat) (reg : SynReg) (v : Nat) : State :=
  let was := synEn s k
  let out := s.bit (A.PLL_SYN_CFG k) 30
  let s := s.wr (synRegAddr k reg) v
  match reg with
  | .cfg =>
    let s := putSyn s k { s.syn k with once := decide (bits v 25 24 = 1) }
    let s := if bits v 25 24 = 0 then setAligned s k false else s
    if v.testBit 31 && !was then setSynState s k 1
    else if !v.testBit 31 && was then synOff s k
    else if out ≠ v.testBit 30 ∧ 2 ≤ synState s k then outSoon s k
    else s
  | .n | .sub => putSyn s k { s.syn k with present := none }
  | _ => s

/-- OUT_EN gives an output in this state of the synthesizer. -/
def outWanted (s : State) (k : Nat) : Bool :=
  s.bit (A.PLL_SYN_CFG k) 30 && decide (2 ≤ synState s k) && decide (synState s k ≤ 4)

/-- An OUT_EN change whose falling edge has come takes effect (R171). -/
def synOutApply (s : State) (k : Nat) : State :=
  if (s.syn k).turn = .fell then putSyn s k { s.syn k with turn := .idle, outOn := outWanted s k } else s

/-! Lock (R173). -/

/-- The first lock. -/
def synLock (s : State) (k : Nat) : State :=
  if synState s k = 1 then outSoon (drawPhase (setSynState s k 2) k) k else s

/-- Relock starts. -/
def toRelock (s : State) (k : Nat) : State := (setSynState s k 4).start (.synRelock k) ms

/-- Lock is lost (R173, R177): a ramp that runs is abandoned, and relock targets N_T. One that waits for AT goes on
waiting. -/
def synLoseLock (s : State) (k : Nat) : State :=
  if synState s k = 2 ∨ synState s k = 3 then
    let ramp := synRamping s k
    let s := synEvent s k 1
    let s := setAligned (slewStop (if ramp then rampAbort s k else s) k) k false
    toRelock (if ramp then putSyn s k { s.syn k with present := some (synNt s k) } else s) k
  else s

/-- Lock is regained. -/
def synRelock (s : State) (k : Nat) : State :=
  if synState s k = 4 ∨ synState s k = 5 then
    let fault := decide (synState s k = 5)
    let s := synEvent (drawPhase (((setSynState s k 2).stop (.synRelock k)).stop (.synRetry k)) k) k 2
    if fault then outSoon s k else s
  else s

/-- Relock has not completed in 1 ms. -/
def synRelockFail (s : State) (k : Nat) : State :=
  if decide (synState s k = 4) && s.due (.synRelock k) then
    let s := (setSynState s k 5).stop (.synRelock k)
    (synEvent (putSyn s k { s.syn k with outOn := false }) k 128).start (.synRetry k) (10 * ms)
  else s

/-- In FAULT, relock is retried. -/
def synRetry (s : State) (k : Nat) : State :=
  if decide (synState s k = 5) && s.due (.synRetry k) then s.start (.synRetry k) (10 * ms) else s

/-! Ramps (R175 to R177). -/

/-- The segments in use, as share and duration. -/
def segsUsed (s : State) (k : Nat) : List (Nat × Nat) :=
  ((List.range 16).map fun j => (segShare s k j, segDur s k j)).takeWhile fun e => decide (e.2 ≠ 0)

/-- The bound of R176 at one boundary: (N_T − N_0) × |x − y| × 800 ns within 0.01 × N_T, for slopes x and y as shares
over durations. -/
def slopeOk (n0 nt x y : Nat × Nat) : Bool :=
  let d := (nt.1 * n0.2 : Int) - (n0.1 * nt.2 : Int)
  let e := (x.1 * y.2 : Int) - (y.1 * x.2 : Int)
  decide (d.natAbs * e.natAbs * 80000 ≤ nt.1 * n0.2 * 256 * x.2 * y.2)

/-- Every boundary of the profile keeps the bound. -/
def slopesOk (n0 nt : Nat × Nat) (l : List (Nat × Nat)) : Bool :=
  let z := [((0 : Nat), (1 : Nat))]
  ((z ++ l).zip (l ++ z)).all fun e => slopeOk n0 nt e.1 e.2

/-- A GO is rejected (R176). -/
def rampRejects (s : State) (k : Nat) : Bool :=
  let l := segsUsed s k
  synRamping s k || synWaits s k || !synEn s k ||
    !planOk (s.rd (A.PLL_SYN_NT k)) (s.rd (A.PLL_SYN_NT_SUB k)) (synOd s k) ||
    decide ((l.map (·.1)).sum ≠ 256) || l.isEmpty || !slopesOk (synN s k) (synNt s k) l

/-- The ramp starts with segment 0. A loop that is not locked abandons it, and relock targets N_T (R177). -/
def rampStart (s : State) (k : Nat) : State :=
  let s := putSyn (s.setBit (A.PLL_SYN_STAT k) 26 false) k { s.syn k with from0 := some (synN s k), done := 0, segAt := s.now }
  if synState s k = 2 then
    ((setSynState s k 3).setFld (A.PLL_SYN_STAT k) 23 16 0).start (.synSeg k) (segDur s k 0)
  else
    synEvent (putSyn s k { s.syn k with from0 := none, present := some (synNt s k) }) k 8

/-- The followed time base has reached SYNk_AT. -/
def synAtReached (s : State) (k : Nat) : Bool := decide (s.rdTime (A.PLL_SYN_AT_W2 k) ≤ tbTime s (synTb s k))

/-- An accepted GO (R175). -/
def rampGo (s : State) (k : Nat) : State :=
  if !s.bit (A.PLL_SYN_RAMP k) 1 then rampStart s k
  else if synAtReached s k then rampStart (synEvent s k 16) k
  else s.setBit (A.PLL_SYN_STAT k) 26 true

/-- The armed ramp starts. -/
def rampAt (s : State) (k : Nat) : State := if synWaits s k && synAtReached s k then rampStart s k else s

/-- The target values are taken. -/
def rampEnd (s : State) (k : Nat) : State :=
  let s := (s.wr (A.PLL_SYN_N k) (s.rd (A.PLL_SYN_NT k))).wr (A.PLL_SYN_SUB k) (s.rd (A.PLL_SYN_NT_SUB k))
  let s := putSyn s k { s.syn k with present := none, from0 := none, done := 0 }
  synEvent (((setSynState s k 2).setFld (A.PLL_SYN_STAT k) 23 16 0).stop (.synSeg k)) k 4

/-- A segment ends. -/
def rampSegEnd (s : State) (k : Nat) : State :=
  if synRamping s k && s.due (.synSeg k) then
    let j := s.fld (A.PLL_SYN_STAT k) 23 16
    if 15 ≤ j ∨ segDur s k (j + 1) = 0 then rampEnd s k
    else
      let s := putSyn s k { s.syn k with done := (s.syn k).done + segShare s k j, segAt := s.now }
      (s.setFld (A.PLL_SYN_STAT k) 23 16 (j + 1)).start (.synSeg k) (segDur s k (j + 1))
  else s

/-- A write of STOP (R177): N stays at its present value. -/
def rampStop (s : State) (k : Nat) : State :=
  if synRamping s k then
    let n := rampNow s k
    let s := setSynState (rampAbort s k) k 2
    putSyn s k { s.syn k with present := some n }
  else rampAbort s k

/-! Alignment (R178 to R180). -/

/-- The time in ps from the target edge t_e + OFFSET to an output edge, for an alignment edge `late` ps after this instant
(R178): the output's latest rising edge came its place in the wave ago. -/
def alignSlip (s : State) (k late : Nat) : Rat :=
  -(1000 * wavePlace s k / synHz s k) - (late : Rat) - (toSigned 32 (s.rd (A.PLL_SYN_OFFSET k)) : Rat)

/-- The output period, or frame period, in ps (R178). -/
def alignPeriod (s : State) (k : Nat) : Rat := 1000 * (wavePeriods s k : Rat) / synHz s k

/-- The error e in ps, wrapped into (−P/2, P/2] (R179). It is measured with a resolution of 1 ps; which of the two
neighbours it takes is open. -/
def alignError (s : State) (k late : Nat) : Int × State :=
  let p := alignPeriod s k
  let r := alignSlip s k late - p * ((alignSlip s k late / p).floor : Rat)
  let e := if 2 * r ≤ p then r else r - p
  s.pick e.floor (if (e.floor : Rat) = e then [e.floor] else [e.floor, e.floor + 1])

/-- The phase moves so that the output's edges come `e` ps earlier: at the next falling edge, so that no runt pulse
arises (R171, R180); at once while the output is held low. -/
def stepPhase (s : State) (k : Nat) (e : Int) : State :=
  let d := (e : Rat) * synHz s k / 1000
  let h := s.syn k
  putSyn s k (if h.outOn then { h with stepBy := h.stepBy + d } else { h with phase := ratMod (h.phase + d) (frameDiv s k) })

/-- The edge is the one that PLL.SYNC_CFG.EDGE names for SYNC_IN, or REFk_CFG.EDGE for a PPS reference (R155, R178). -/
def alignEdge (s : State) (src : Nat) (falling : Bool) : Bool :=
  if src = 0 then s.bit A.PLL_SYNC_CFG 1 && decide (s.bit A.PLL_SYNC_CFG 0 = falling)
  else refPps s (src - 1) && refEdge s (src - 1) falling

/-- The edge of the alignment source is admitted (R178, R179). -/
def alignAdmits (s : State) (k : Nat) (falling : Bool) : Bool :=
  let al := s.fld (A.PLL_SYN_CFG k) 25 24
  decide (synState s k = 2) && !inGap s && !annealHolds s 8 k && (decide (al = 2) || (decide (al = 1) && (s.syn k).once)) &&
    alignEdge s (s.fld (A.PLL_SYN_CFG k) 23 21) falling

/-- A slew that absorbs an error of `e` ps at ±SLEW ppb (R179), SLEW and the error as they are when it begins. -/
def slewBegin (s : State) (k : Nat) (e : Int) : State :=
  putSyn s k { s.syn k with slewing := some ((e : Rat) * synHz s k / 1000, Nat.max 1 (s.fld (A.PLL_SYN_ALIGN k) 31 16)) }

/-- An alignment edge `late` ps after this instant (R179). -/
def synAlign (s : State) (k : Nat) (falling : Bool) (late : Nat) : State :=
  if alignAdmits s k falling then
    let (e, s) := alignError s k late
    let s := slewStop (putSyn (s.wr (A.PLL_SYN_ALERR k) (ofSigned 32 e)) k { s.syn k with once := false }) k
    if e.natAbs ≤ s.fld (A.PLL_SYN_ALIGN k) 15 0 then synEvent (setAligned s k true) k 64
    else if !s.bit (A.PLL_SYN_CFG k) 30 || s.bit (A.PLL_SYN_CFG k) 20 then
      synEvent (setAligned (stepPhase s k e) k true) k 32
    else
      setAligned (slewBegin s k e) k false
  else s

/-- What a slew adds to `ran` output periods (R179): SLEW ppb of them, against the error and up to what it has left. -/
def slewTakes (h : SynHidden) (ran : Rat) : Rat :=
  match h.slewing with
  | none => 0
  | some (left, ppb) =>
    let most := ran * mkRat ppb 1000000000
    if left < 0 then max left (-most) else min left most

/-- The output of synthesizer `k` goes on while its time base goes from `s` to `t` in `n` periods of TCLK: at its
programmed frequency against that time base (R153), with the mean N of a ramp. A phase step is made at a falling edge, and
a change of OUT_EN is due from there: it has taken effect before the next advance. In RELOCK and FAULT no edge is awaited. -/
def synAdvance (s : State) (n : Nat) (t : State) (k : Nat) : State :=
  let t := synOutApply t k
  let h := t.syn k
  if synState s k ≠ 2 ∧ synState s k ≠ 3 then (if h.turn = .waits then putSyn t k { h with turn := .fell } else t)
  else
    let od := synOd s k
    let rate := (planRate (rampNow s k) od + planRate (rampNow { s with now := s.now + 2 * n } k) od) / 2
    let ran := tbGone s t (synTb s k) * rate
    let p := h.phase + ran + slewTakes h ran
    let w : Rat := wavePeriods s k
    let falls := decide (((h.phase - waveHigh s k) / w).floor < ((p - waveHigh s k) / w).floor)
    let go := falls && decide (h.stepBy ≠ 0)
    putSyn t k { h with phase := ratMod (if go then p + h.stepBy else p) (frameDiv s k)
                        stepBy := if go then 0 else h.stepBy
                        slewing := h.slewing.map fun e => (e.1 - slewTakes h ran, e.2)
                        turn := if falls && decide (h.turn = .waits) then .fell else h.turn }

/-- Every output goes on. -/
def synsAdvance (s t : State) (n : Nat) : State := (List.range 8).foldl (synAdvance s n) t

/-- The slew has absorbed the error. -/
def synSlewDone (s : State) (k : Nat) : State :=
  if (s.syn k).slewing.map (·.1) = some 0 then setAligned (slewStop s k) k true else s

end Sys2Proof.Machine
end

