-- ==== Sys2Proof/Machine/Pulses.lean ====
section
/-! DEFINITION. The pulse engine (R187 to R198). Edge times are numbers of 2^-16 ps on the output's time base, in which
both FTIME and ps are whole. -/

namespace Sys2Proof.Machine

def State.out1 (s : State) (k : Nat) : PlsHidden := Map.get {} s.pls k
def putOut (s : State) (k : Nat) (h : PlsHidden) : State := { s with pls := Map.put {} s.pls k h }

/-- One ps, one ns and one unit of 2^-16 ns, in 2^-16 ps. -/
def psU : Nat := 65536
def nsU : Nat := 65536000
def ftU : Nat := 1000

/-- The present value of time base `n` in 2^-16 ps. -/
def tbFine (s : State) (n : Nat) : Nat := (s.tb n).acc * 1000 / 2 ^ 32

def plsState (s : State) (k : Nat) : Nat := s.fld (A.PLS_OUT_STAT k) 31 28
def setPlsState (s : State) (k st : Nat) : State := s.setFld (A.PLS_OUT_STAT k) 31 28 st
def plsLevel (s : State) (k : Nat) : Bool := s.bit (A.PLS_OUT_STAT k) 27
def plsEn (s : State) (k : Nat) : Bool := s.bit (A.PLS_OUT_CFG k) 31
def plsPending (s : State) (k : Nat) : Bool := s.bit (A.PLS_OUT_STAT k) 24

/-- Events of output `k`. -/
def plsEvent (s : State) (k mask : Nat) : State :=
  s.event (A.PLS_OUT_EVT k) (A.PLS_OUT_EVT_EN k) (96 + k / 8) mask 0

def addFired (s : State) (k : Nat) : State := s.wr (A.PLS_OUT_FIRED k) (s.rd (A.PLS_OUT_FIRED k) + 1)
def addMissed (s : State) (k n : Nat) : State := s.wr (A.PLS_OUT_MISSED k) (s.rd (A.PLS_OUT_MISSED k) + n)

/-! Sets. -/

def PlsSet.mode (p : PlsSet) : Nat := bits p.cfg 30 28
def PlsSet.base (p : PlsSet) : Nat := bits p.cfg 27 25
def PlsSet.align (p : PlsSet) : Nat := bits p.cfg 22 21
def PlsSet.alignSrc (p : PlsSet) : Nat := bits p.cfg 20 18
def PlsSet.parent (p : PlsSet) : Nat := bits p.cfg 17 13
def PlsSet.periodU (p : PlsSet) : Nat := p.period * ftU
def PlsSet.widthU (p : PlsSet) : Nat := p.width * psU
/-- OFFSET in 2^-16 ps. -/
def PlsSet.offsetU (p : PlsSet) : Int := toSigned 32 p.offset * (psU : Int)

/-- The staged set of output `k` (R187). -/
def stagedSet (s : State) (k : Nat) : PlsSet where
  cfg := s.rd (A.PLS_OUT_CFG k) % 2 ^ 31
  start := s.rdTime (A.PLS_OUT_START_W2 k)
  period := s.rd (A.PLS_OUT_PERIOD_NS k) * nsUnits + s.rd (A.PLS_OUT_PERIOD_FR k)
  width := s.rd (A.PLS_OUT_WIDTH k)
  count := s.rd (A.PLS_OUT_COUNT k)
  offset := s.rd (A.PLS_OUT_OFFSET k)
  delay := s.rd (A.PLS_OUT_BURST_DLY k)

/-- The active set of the output is PERIODIC. -/
def activePeriodic (s : State) (k : Nat) : Bool :=
  match (s.out1 k).active with | some p => decide (p.mode = 1) | none => false

/-- The alignment fields that R188 refuses. -/
def alignBad (s : State) (p : PlsSet) : Bool :=
  let src := p.alignSrc
  (decide (p.align ≠ 0) && decide (p.mode ≠ 1)) || decide (p.align = 3) || decide (5 ≤ src) ||
    (decide (p.align ≠ 0) && decide (1 ≤ src) && !refPps s (src - 1)) ||
    (decide (p.align ≠ 0) && decide (1 ≤ src) && decide (secUnits % p.period ≠ 0))

/-- An ARM of output `k` is rejected (R188). -/
def armRejects (s : State) (k : Nat) : Bool :=
  let p := stagedSet s k
  let cyc := decide (p.mode = 1 ∨ p.mode = 3)
  !plsEn s k || decide (4 ≤ p.mode) || (cyc && decide (p.period < 4 * nsUnits)) || decide (p.width < 2000) ||
    (cyc && decide (p.periodU < p.widthU + 2 * nsU)) ||
    (decide (p.mode = 3) && (decide (p.count = 0) || decide (p.parent = k) || !activePeriodic s p.parent)) ||
    alignBad s p

/-! Ends of schedules. -/

/-- The requests of an EXT queue are dropped and counted (R193). -/
def dropQueue (s : State) (k : Nat) : State :=
  let n := (s.out1 k).queue.length
  if n = 0 then s
  else
    let s := putOut s k { s.out1 k with queue := [] }
    let s := s.wr (A.PLS_EXT_DROP k) (s.rd (A.PLS_EXT_DROP k) + n)
    plsEvent (s.setFld (A.PLS_OUT_STAT k) 20 16 0) k 64

/-- The bursts of the children of output `k` end (R194). -/
def endBursts (s : State) (k : Nat) : State :=
  (List.range 32).foldl (fun s c =>
    match (s.out1 c).active with
    | some p => if p.mode = 3 ∧ p.parent = k ∧ plsState s c = 2 then putOut s c { s.out1 c with next := none } else s
    | none => s) s

/-- The output enters DONE. -/
def plsDone (s : State) (k : Nat) : State :=
  let s := dropQueue s k
  let s := putOut s k { s.out1 k with next := none, stopping := false, shift := none, shifted := false, alignAt := none }
  endBursts (plsEvent (setPlsState s k 3) k 1) k

/-- The output enters IDLE. -/
def plsIdle (s : State) (k : Nat) : State := endBursts (setPlsState s k 0) k

/-- The first grid point that is at least `t`. -/
def firstGrid (start period t : Nat) : Nat :=
  if t ≤ start then start else start + (t - start + period - 1) / period * period

/-- A set takes effect (R189, R190) where its time base shows `now`, with the late test: an edge can still be placed
200 ns later. -/
def takeSet (s : State) (k : Nat) (p : PlsSet) (now : Nat) : State :=
  let lead := now + 200 * nsU
  let s := if p.mode = 2 then s else dropQueue s k
  let s := (s.setBit (A.PLS_OUT_STAT k) 24 false).setBit (A.PLS_OUT_STAT k) 25 false
  let h := s.out1 k
  let h := match h.active with
    | some old => if old.base = p.base then h else { h with lastFall := 0 }
    | none => h
  let base := { h with active := some p, pending := none, next := none, stopping := false, shift := none, shifted := false, alignAt := none,
                       once := decide (p.align = 1), left := if p.count = 0 then 0 else p.count + 1 }
  let start := p.start * ftU
  let late := decide (start < lead)
  if p.mode = 0 then
    if !late then setPlsState (putOut s k { base with next := some start, left := 2 }) k 1
    else if p.cfg.testBit 23 then
      plsEvent (setPlsState (putOut s k { base with next := some lead, left := 2 }) k 1) k 2
    else plsDone (plsEvent (addMissed (putOut s k base) k 1) k 6) k
  else if p.mode = 1 then
    let s := setPlsState (putOut s k { base with next := some (firstGrid start p.periodU lead) }) k 1
    if late then plsEvent s k 2 else s
  else setPlsState (putOut s k base) k 2

/-- An accepted ARM of output `k` (R189). -/
def armAccept (s : State) (k : Nat) : State :=
  let p := stagedSet s k
  if plsState s k = 2 ∧ plsLevel s k = true then
    (putOut s k { s.out1 k with pending := some p }).setBit (A.PLS_OUT_STAT k) 24 true
  else takeSet s k p (tbFine s p.base)

/-- The outputs of a mask whose ARM is rejected. -/
def armBad (s : State) (mask : Nat) : List Nat := (bitsSet mask 32).filter fun k => armRejects s k

/-- The outputs of a mask whose ARM is accepted take their sets (R187). -/
def armOutputs (s : State) (mask : Nat) : State :=
  ((bitsSet mask 32).filter fun k => !armRejects s k).foldl armAccept s

/-- STOP of output `k` (R189). -/
def stopOutput (s : State) (k : Nat) : State :=
  let s := putOut (s.setBit (A.PLS_OUT_STAT k) 24 false) k { s.out1 k with pending := none }
  if plsState s k = 1 ∨ plsState s k = 2 then
    (if plsLevel s k then putOut s k { s.out1 k with stopping := true } else plsDone s k)
  else s

def stopOutputs (s : State) (mask : Nat) : State := (bitsSet mask 32).foldl stopOutput s

/-- A write of OUTk_CFG (R189): EN = 0 acts as STOP, and then the output is IDLE. -/
def writeOutCfg (s : State) (k v : Nat) : State :=
  let s := s.wr (A.PLS_OUT_CFG k) v
  if v.testBit 31 then s
  else
    let s := stopOutput s k
    if plsLevel s k then s else plsIdle s k

/-! Edges. -/

/-- The edge time to the nearest ps leaves as an edge. -/
def emitEdge (s : State) (k : Nat) (rising : Bool) (t : Nat) : State := s.emit (.pulse k rising ((t + psU / 2) / psU))

/-- A new burst of each child of output `k`, from the rising edge at `t` (R194). -/
def startBursts (s : State) (k n t : Nat) : State :=
  (List.range 32).foldl (fun s c =>
    match (s.out1 c).active with
    | some p =>
      if p.mode = 3 ∧ p.parent = k ∧ plsState s c = 2 then
        let t' := ((tbFine s p.base : Int) + ((t : Int) - (tbFine s n : Int))).toNat
        putOut s c { s.out1 c with next := some (t' + p.delay * psU), left := p.count + 1 }
      else s
    | none => s) s

/-- The next edge is that at `n` of the grid, with a shift of the grid that has come into force (R195). -/
def edgeAt (h : PlsHidden) (n : Nat) : PlsHidden :=
  match h.shift with
  | some (x, d) => if x ≤ n then { h with next := some ((n : Int) + d).toNat, shift := none, shifted := true } else { h with next := some n }
  | none => { h with next := some n }

/-- The edge after `t` of the schedule. -/
def nextEdge (h : PlsHidden) (p : PlsSet) (t : Nat) : PlsHidden := edgeAt h (t + p.periodU)

/-- One pulse is accounted for: the schedule goes on, or has no further edge. -/
def countPulse (s : State) (k : Nat) (p : PlsSet) (t : Nat) : State :=
  let h := s.out1 k
  let left := if h.left = 0 then 0 else h.left - 1
  let h := { h with left := left }
  if p.mode = 0 ∨ left = 1 then putOut s k { h with next := none } else putOut s k (nextEdge h p t)

/-- The schedule of output `k` has no further pulse. -/
def scheduleOver (s : State) (k : Nat) (p : PlsSet) : Bool :=
  decide (p.mode ≤ 1) && (s.out1 k).next.isNone

/-- A due pulse is not emitted: counted in MISSED and towards COUNT. -/
def missPulse (s : State) (k : Nat) (p : PlsSet) (t : Nat) : State :=
  let s := countPulse (plsEvent (addMissed s k 1) k 4) k p t
  if scheduleOver s k p && !plsLevel s k then plsDone s k else s

/-- The rising edge at `t` is emitted (R192). -/
def emitRise (s : State) (k : Nat) (p : PlsSet) (t : Nat) : State :=
  let s := emitEdge ((addFired s k).pmcEvent 23 0x381 1) k true t
  let h := s.out1 k
  let done := h.shifted
  let s := putOut s k { h with fall := some (t + p.widthU), roseAt := s.now, shifted := false }
  let s := (setPlsState s k 2).setBit (A.PLS_OUT_STAT k) 27 true
  let s := if done then plsEvent (s.setBit (A.PLS_OUT_STAT k) 25 true) k 16 else s
  startBursts s k p.base t

/-- The earlier of two instants that may be absent. -/
def sooner (a b : Option Nat) : Option Nat :=
  match a, b with
  | some x, some y => some (Nat.min x y)
  | none, b => b
  | a, none => a

/-- The next rising edge of output `k` on its time base: a request of an EXT queue, an edge of the schedule, or the first
of a burst that its parent's next rising edge starts; a chain of parents has at most 32 outputs. -/
def outNext : Nat → State → Nat → Option Nat
  | 0, _, _ => none
  | fuel + 1, s, k =>
    match (s.out1 k).active with
    | none => none
    | some p =>
      if plsState s k ≠ 1 ∧ plsState s k ≠ 2 then none
      else if p.mode = 2 then (s.out1 k).queue.head?
      else if p.mode = 3 then
        sooner (s.out1 k).next ((outNext fuel s p.parent).map fun x =>
          let n := match (s.out1 p.parent).active with | some q => q.base | none => p.base
          ((tbFine s p.base : Int) + ((x : Int) - (tbFine s n : Int))).toNat + p.delay * psU)
      else (s.out1 k).next

/-- The parent's next rising edge on the child's time base (R194). -/
def parentNext (s : State) (p : PlsSet) : Option Nat :=
  match (s.out1 p.parent).active with
  | some q => (outNext 32 s p.parent).map fun x => ((tbFine s p.base : Int) + ((x : Int) - (tbFine s q.base : Int))).toNat
  | none => none

/-- The parent's next rising edge comes at or before `t` on the child's time base (R194). -/
def parentBefore (s : State) (p : PlsSet) (t : Nat) : Bool :=
  match parentNext s p with
  | some x => decide (x ≤ t)
  | none => false

/-- A rising edge of a PERIODIC or ONESHOT schedule falls due. -/
def riseGrid (s : State) (k : Nat) (p : PlsSet) (t : Nat) : State :=
  let h := s.out1 k
  if plsLevel s k || (decide (0 < h.lastFall) && decide (t < h.lastFall + 2 * nsU)) then missPulse s k p t
  else countPulse (emitRise s k p t) k p t

/-- A rising edge of a burst falls due. One that comes too close to the pulse before is due and not emitted, so it
counts in MISSED. -/
def riseBurst (s : State) (k : Nat) (p : PlsSet) (t : Nat) : State :=
  let h := s.out1 k
  if parentBefore s p t then putOut s k { h with next := none }
  else if plsLevel s k || (decide (0 < h.lastFall) && decide (t < h.lastFall + 2 * nsU)) then missPulse s k p t
  else countPulse (emitRise s k p t) k p t

/-- One request is dropped (R193). -/
def dropExt (s : State) (k : Nat) : State := plsEvent (s.wr (A.PLS_EXT_DROP k) (s.rd (A.PLS_EXT_DROP k) + 1)) k 64

def setDepth (s : State) (k : Nat) : State := s.setFld (A.PLS_OUT_STAT k) 20 16 (s.out1 k).queue.length

/-- The first request of an EXT queue falls due. -/
def riseExt (s : State) (k : Nat) (p : PlsSet) (t : Nat) : State :=
  let h := s.out1 k
  let s := setDepth (putOut s k { h with queue := h.queue.tail }) k
  if plsLevel s k || (decide (0 < h.lastFall) && decide (t < h.lastFall + 2 * nsU)) then dropExt s k
  else emitRise s k p t

/-- The pulse in progress ends at `t` (R189). A pending set takes effect with that falling edge. -/
def endPulse (s : State) (k : Nat) (p : PlsSet) (t : Nat) : State :=
  let s := emitEdge s k false t
  let s := (putOut s k { s.out1 k with fall := none, lastFall := t, fellAt := s.now }).setBit (A.PLS_OUT_STAT k) 27 false
  match (s.out1 k).pending with
  | some q => takeSet s k q ((tbFine s q.base : Int) + ((t : Int) - (tbFine s p.base : Int))).toNat
  | none =>
    if (s.out1 k).stopping || scheduleOver s k p then
      let s := plsDone s k
      if plsEn s k then s else plsIdle s k
    else s

/-- A falling edge falls due. -/
def plsFall (s : State) (k : Nat) : State :=
  if inGap s then s
  else
    match (s.out1 k).active, (s.out1 k).fall with
    | some p, some t => if t ≤ tbFine s p.base then endPulse s k p t else s
    | _, _ => s

/-- The rising edge of output `k` that is due next: a request of an EXT queue, or an edge of the schedule. -/
def nextRise (s : State) (k : Nat) : Option Nat :=
  match (s.out1 k).queue with
  | t :: _ => some t
  | [] => (s.out1 k).next

/-- A falling edge that comes no later than the next rising edge goes first. -/
def fallFirst (s : State) (k : Nat) : State :=
  match (s.out1 k).fall, nextRise s k with
  | some f, some t => if f ≤ t then plsFall s k else s
  | _, _ => s

/-- A rising edge of output `k` falls due (R192). -/
def plsRise (s : State) (k : Nat) : State :=
  if inGap s then s
  else
    let s := fallFirst s k
    match (s.out1 k).active with
    | none => s
    | some p =>
      if plsState s k ≠ 1 ∧ plsState s k ≠ 2 ∨ (s.out1 k).stopping = true then s
      else if p.mode = 2 then
        match (s.out1 k).queue with
        | t :: _ => if t ≤ tbFine s p.base then riseExt s k p t else s
        | [] => s
      else
        match (s.out1 k).next with
        | some t =>
          if t ≤ tbFine s p.base then (if p.mode = 3 then riseBurst s k p t else riseGrid s k p t) else s
        | none => s

/-! EXT requests (R193). -/

/-- The falling edge of the latest queued or running pulse that rises before `t`. -/
def earlierFall (h : PlsHidden) (p : PlsSet) (t : Nat) : Nat :=
  (h.queue.filter fun x => decide (x ≤ t)).foldl (fun m x => Nat.max m (x + p.widthU)) (h.fall.getD h.lastFall)

/-- A fire request for the FTIME `fire` reaches output `k`. -/
def extRequest (s : State) (k fire : Nat) : State :=
  match (s.out1 k).active with
  | none => s
  | some p =>
    if p.mode ≠ 2 ∨ plsState s k ≠ 2 then s
    else if (s.out1 k).stopping then dropExt s k
    else
      let h := s.out1 k
      let t := fire * ftU
      let before := earlierFall h p t
      if t < tbFine s p.base + 100 * nsU ∨ 16 ≤ h.queue.length ∨ (0 < before ∧ t < before + 2 * nsU) then dropExt s k
      else
        let q := h.queue.filter (fun x => decide (x ≤ t)) ++ [t] ++ h.queue.filter fun x => decide (t < x)
        setDepth (putOut s k { h with queue := q }) k

/-! Alignment (R195). -/

/-- An alignment edge is admitted. -/
def plsAlignAdmits (s : State) (k : Nat) (p : PlsSet) (falling : Bool) : Bool :=
  decide (p.mode = 1) && decide (plsState s k = 1 ∨ plsState s k = 2) && !inGap s &&
    (decide (p.align = 2) || (decide (p.align = 1) && (s.out1 k).once)) &&
    alignEdge s p.alignSrc falling

/-- The error wrapped into (−P/2, P/2] (2^-16 ps). -/
def wrapPulse (p : PlsSet) (e : Int) : Int :=
  let per : Int := (p.periodU : Int)
  let r := e % per
  if 2 * r ≤ per then r else r - per

/-- An error in 2^-16 ps as ps; its rounding is open. -/
def wholePs (e : Int) : Int :=
  e / (psU : Int) + (if e % (psU : Int) ≠ 0 ∧ Config.roundUp e.natAbs psU = true then 1 else 0)

/-- The grid shifts by −e at the rising edge due at `t`. An edge that the shift moves before the present instant is not
emitted (DEDUCED, as R195 says for one that it moves before the falling edge plus 2 ns). -/
def shiftNow (s : State) (k : Nat) (p : PlsSet) (t : Nat) (e : Int) : State :=
  let n := (t : Int) - e
  let s := putOut s k { s.out1 k with next := some n.toNat, shift := none, shifted := true }
  if n < (tbFine s p.base : Int) then missPulse s k p n.toNat else s

/-- The value of time base `n` in 2^-16 ps at the instant that comes `late` ps after this one. -/
def tbAt (s : State) (n late : Nat) : Nat := tbFine s n + Config.quot (late * psU * followScale s n) 1000000000000

/-- An edge of the grid: the next one, or the rising edge of the last pulse. -/
def gridEdge (h : PlsHidden) (p : PlsSet) : Nat := h.next.getD (h.fall.getD h.lastFall - p.widthU)

/-- How far the output's edges lie from the time base (table Pulse output timing): open within 10 ps. -/
def edgeError (s : State) : Int × State :=
  let (x, s) := s.draw
  (((x % (20 * psU + 1) : Nat) : Int) - ((10 * psU : Nat) : Int), s)

/-- The error e of the output's edges against t_e + OFFSET + m × PERIOD, for an alignment edge at `x` on the time base
(R195). -/
def pulseError (s : State) (k : Nat) (p : PlsSet) (x : Nat) : Int × State :=
  let (d, s) := edgeError s
  (wrapPulse p ((gridEdge (s.out1 k) p : Int) + d - (x : Int) - p.offsetU), s)

/-- The grid shifts by −e from the first rising edge due at or after `x` on; in WAIT, the output starts on the shifted
grid. -/
def shiftGrid (s : State) (k : Nat) (p : PlsSet) (x : Nat) (e : Int) : State :=
  match (s.out1 k).next with
  | some t =>
    if x ≤ t ∨ plsState s k = 1 then shiftNow s k p t e
    else putOut s k { s.out1 k with shift := some (x, -e) }
  | none => s

/-- An alignment edge `late` ps after this instant: with an error within 5 ps, ALIGNED is set 200 ns later, and nothing
changes; else the grid shifts at the first rising edge due 1 µs later. -/
def plsAlign (s : State) (k : Nat) (falling : Bool) (late : Nat) : State :=
  match (s.out1 k).active with
  | none => s
  | some p =>
    if plsAlignAdmits s k p falling then
      let x := tbAt s p.base late
      let (e, s) := pulseError s k p x
      let s := s.wr (A.PLS_ALERR k) (ofSigned 32 (wholePs e))
      let s := putOut s k { s.out1 k with once := false }
      if e.natAbs ≤ 5 * psU then putOut s k { s.out1 k with alignAt := some (s.now + (late + 999) / 1000 + 200) }
      else shiftGrid s k p (x + us * nsU) e
    else s

/-- An alignment within 5 ps completes, 200 ns after its edge. -/
def alignDue (s : State) (t k : Nat) : State :=
  match (s.out1 k).alignAt with
  | some x =>
    if x ≤ t then plsEvent ((putOut s k { s.out1 k with alignAt := none }).setBit (A.PLS_OUT_STAT k) 25 true) k 16 else s
  | none => s

/-- The alignments that complete up to the true time `t`. -/
def alignsDue (s : State) (t : Nat) : State := s.pls.foldl (fun s e => alignDue s t e.1) s

/-! Steps and gaps. -/

/-- The burst pulses of output `k` before `t` are passed over; those at or after the parent's next rising edge, as it
stood in `s0`, are not counted (R194). -/
def skipBurst (s0 s : State) (k : Nat) (p : PlsSet) (t x : Nat) : State :=
  let stop := (parentNext s0 p).getD t
  let h := s.out1 k
  let n := (Nat.min t stop - x + p.periodU - 1) / Nat.max 1 p.periodU
  let n := Nat.min n (h.left - 1)
  let left := h.left - n
  let h := { h with left := left, next := if left ≤ 1 ∨ stop < t then none else some (x + n * p.periodU) }
  let s := putOut s k h
  if n = 0 then s else plsEvent (addMissed s k n) k 4

/-- `n` edges of a PERIODIC schedule, of which the first lies at `x`, are passed over, at most as many as are left. -/
def passEdges (h : PlsHidden) (p : PlsSet) (x n : Nat) : PlsHidden × Nat :=
  let n := if h.left = 0 then n else Nat.min n (h.left - 1)
  let h := { h with left := if h.left = 0 then 0 else h.left - n }
  (if h.left = 1 then { h with next := none } else edgeAt h (x + n * p.periodU), n)

/-- How many edges of the grid from `x` on lie before `t`. -/
def edgesBefore (p : PlsSet) (x t : Nat) : Nat := (t - x + p.periodU - 1) / Nat.max 1 p.periodU

/-- The edges of a PERIODIC schedule before `t` are passed over, and how many they are. A shift of the grid comes into
force on the way (R195). -/
def passGrid (h : PlsHidden) (p : PlsSet) (x t : Nat) : PlsHidden × Nat :=
  match h.shift with
  | some (g, _) =>
    let (h1, n) := passEdges h p x (edgesBefore p x (Nat.min t g))
    match h1.shift, h1.next with
    | none, some y => let (h2, m) := passEdges h1 p y (edgesBefore p y t); (h2, n + m)
    | _, _ => (h1, n)
  | none => passEdges h p x (edgesBefore p x t)

/-- Rising edges of output `k` that lie before `t` are passed over (R196, R197); `s0` is the state before any output
was looked at. -/
def skipEdges (s0 s : State) (k : Nat) (p : PlsSet) (t : Nat) : State :=
  match (s.out1 k).next with
  | none => s
  | some x =>
    if t ≤ x then s
    else if p.mode = 3 then skipBurst s0 s k p t x
    else if p.mode = 0 then plsEvent (addMissed (putOut s k { s.out1 k with next := none, left := 1 }) k 1) k 4
    else
      let (h, n) := passGrid (s.out1 k) p x t
      plsEvent (addMissed (putOut s k h) k n) k 4

/-- The requests of an EXT queue that lie before `t`. -/
def skipQueue (s : State) (k t : Nat) (drop : Bool) : State :=
  let h := s.out1 k
  let n := (h.queue.filter fun x => decide (x < t)).length
  if n = 0 then s
  else
    let s := setDepth (putOut s k { h with queue := h.queue.filter fun x => decide (t ≤ x) }) k
    if drop then plsEvent (s.wr (A.PLS_EXT_DROP k) (s.rd (A.PLS_EXT_DROP k) + n)) k 64
    else plsEvent (addMissed s k n) k 4

/-- The schedule ended by edges that were not emitted. -/
def closeSchedule (s : State) (k : Nat) (p : PlsSet) : State :=
  if scheduleOver s k p && !plsLevel s k && decide (plsState s k = 1 ∨ plsState s k = 2) then plsDone s k else s

/-- The falling edge that a forward step passed over occurs at once, but not earlier than 2 ns after its rise. -/
def hurryFall (s : State) (k : Nat) (t : Nat) : State :=
  let h := s.out1 k
  match h.fall with
  | some x => if x < t then putOut s k { h with fall := some (t + (2 - (s.now - h.roseAt)) * nsU) } else s
  | none => s

/-- Time base `n` was stepped (R197). -/
def pulseStep (s0 : State) (n : Nat) (forward : Bool) : State :=
  (List.range 32).foldl (fun s k =>
    match (s.out1 k).active with
    | some p =>
      if p.base = n ∧ (plsState s k = 1 ∨ plsState s k = 2) then
        let t := tbFine s n
        let s := putOut s k { s.out1 k with lastFall := 0 }
        let s := if forward then closeSchedule (skipQueue (skipEdges s0 (hurryFall s k t) k p t) k t false) k p else s
        plsEvent s k 32
      else s
    | none => s) s0

/-- A falling edge that fell due in the gap comes at its end. A pending set may take effect with it. -/
def gapFall (s : State) (k : Nat) : State :=
  match (s.out1 k).active, (s.out1 k).fall with
  | some p, some x => if x ≤ tbFine s p.base then plsEvent (endPulse s k p (tbFine s p.base)) k 8 else s
  | _, _ => s

/-- A switch-over gap ended (R196). -/
def pulseGapEnd (s0 : State) : State :=
  (List.range 32).foldl (fun s k =>
    let s := gapFall s k
    match (s.out1 k).active with
    | some p =>
      if plsState s k = 1 ∨ plsState s k = 2 then
        let t := tbFine s p.base
        let one := decide (p.mode = 0) && (match (s.out1 k).next with | some x => decide (x < t) | none => false)
        let s := if one then plsEvent s k 2 else s
        closeSchedule (skipQueue (skipEdges s0 s k p t) k t true) k p
      else s
    | none => s) s0

/-- The pulses in progress end with their programmed width, whatever becomes of the outputs (R408). -/
def finishPulses (s : State) : State :=
  (List.range 32).foldl (fun s k => match (s.out1 k).fall with | some t => emitEdge s k false t | none => s) s

/-! Trims (R198). -/

/-- The output has been inactive for 100 ns, and no rising edge is due within 100 ns. -/
def plsQuiet (s : State) (k : Nat) : Bool :=
  let h := s.out1 k
  !plsLevel s k && decide (h.fellAt + 100 ≤ s.now ∨ h.fellAt = 0) &&
    (match h.active with
     | none => true
     | some p =>
       (match outNext 33 s k with
        | some x => decide (tbFine s p.base + 100 * nsU ≤ x)
        | none => true))

end Sys2Proof.Machine
end

