-- ==== Sys2Proof/Machine/Tdc.lean ====
section
/-! DEFINITION. Interval measurement: gating, measurements, results, statistics and retirement (R200 to R206). Raw times
are numbers of 7.8125 ps bins of true time: 256 in each TCLK period. -/

namespace Sys2Proof.Machine

def tdcState (s : State) (i : Nat) : Nat := s.fld (A.TDC_CH_STAT i) 31 28
def setTdcState (s : State) (i st : Nat) : State := s.setFld (A.TDC_CH_STAT i) 31 28 st
def tdcEn (s : State) (i : Nat) : Bool := s.bit (A.TDC_CH_CFG i) 31
def tdcSlope (s : State) (i : Nat) : Nat := s.fld (A.TDC_CH_CFG i) 30 29
def tdcGate (s : State) (i : Nat) : Nat := s.fld (A.TDC_CH_CFG i) 28 27
def tdcMode (s : State) (i : Nat) : Nat := s.fld (A.TDC_CH_CFG i) 26 25
def tdcStartSrc (s : State) (i : Nat) : Nat := s.fld (A.TDC_CH_CFG i) 24 23
def tdcStartIn (s : State) (i : Nat) : Nat := s.fld (A.TDC_CH_CFG i) 22 19
def tdcNstop (s : State) (i : Nat) : Nat := s.fld (A.TDC_CH_CFG i) 18 14
def tdcTb (s : State) (i : Nat) : Nat := s.fld (A.TDC_CH_CFG i) 13 11
def statRun (s : State) (i : Nat) : Bool := s.bit (A.TDC_CH_STAT i) 26

/-- Events of channel `i`: RETIRED raises the source whatever EVT_EN holds. -/
def tdcEvent (s : State) (i mask : Nat) : State :=
  s.event (A.TDC_CH_EVT i) (A.TDC_CH_EVT_EN i) (100 + i) mask 32

/-- The level of gate `g` after polarity. -/
def gateLevel (s : State) (g : Nat) : Bool := (gateLevels s).testBit g

/-- A level-gated channel may be armed: its gate is active. -/
def levelOpen (s : State) (i : Nat) : Bool := decide (tdcMode s i = 1) && gateLevel s (tdcGate s i)

/-- The DAC code that the comparator of input `i` uses (R200). -/
def dacCode (s : State) (i : Nat) : Nat := (s.tdc i).dac.getD (s.fld (A.TDC_CH_THR i) 11 0)

/-- The comparator's threshold in volts: code c gives −1.2 V + c × 3.6 V / 4 095. -/
def tdcThreshold (s : State) (i : Nat) : Rat := mkRat (-6) 5 + mkRat (18 * dacCode s i) (5 * 4095)

/-- The raw time of an edge `fine` bins after the present instant. -/
def rawNow (s : State) (fine : Nat) : Nat := s.now / 2 * 256 + fine

/-- A count of bins as an interval on a time base that runs at `rate` ppt, in 2^-16 ns (R202); its rounding is open. -/
def scaleRaw (raw : Nat) (rate : Int) : Nat := Config.quot (raw * 512 * (1000000000000 + rate).toNat) 1000000000000

/-- The same for a signed count. -/
def scaleSigned (raw : Int) (rate : Int) : Int :=
  if raw < 0 then -(scaleRaw raw.natAbs rate : Int) else (scaleRaw raw.natAbs rate : Int)

/-! Statistics runs. -/

/-- A statistics run is abandoned (R203, R206). -/
def statAbort (s : State) (i : Nat) : State :=
  if statRun s i then tdcEvent (s.setBit (A.TDC_CH_STAT i) 26 false) i 64 else s

/-- N of STAT_CFG: 0 means 2^24. -/
def statN (s : State) (i : Nat) : Nat :=
  let n := s.fld (A.TDC_CH_STAT_CFG i) 23 0
  if n = 0 then 2 ^ 24 else n

/-- The square root of a number below 4^b, rounded down. -/
def isqrt : Nat → Nat → Nat → Nat
  | 0, _, r => r
  | b + 1, n, r => if (r + 2 ^ b) * (r + 2 ^ b) ≤ n then isqrt b n (r + 2 ^ b) else isqrt b n r

/-- The square root of a quotient; its rounding is open. -/
def sqrtQuot (num den : Nat) : Nat :=
  let r := isqrt 64 (num / Nat.max 1 den) 0
  if r * r * den = num then r else r + (if Config.roundUp num den then 1 else 0)

/-- A write of STAT_GO (R205). -/
def statGo (s : State) (i : Nat) : State :=
  let s := ((s.setBit (A.TDC_CH_STAT i) 26 true).setBit (A.TDC_CH_STAT i) 25 false).wr (A.TDC_CH_N_USED i) 0
  putTdc (s.wr (A.TDC_CH_N_SKIP i) 0) i
    { s.tdc i with statK := s.fld (A.TDC_CH_STAT_CFG i) 28 24, statN := statN s i, sum := 0, squares := 0, least := 0, most := 0 }

/-- The run completes: MEAN, SD, MIN and MAX (R205). -/
def statFinish (s : State) (i : Nat) : State :=
  let n := s.rd (A.TDC_CH_N_USED i)
  let h := s.tdc i
  let (x, s) := if (2 * h.sum) % (2 * n) = n then s.draw else (0, s)
  let mean := (2 * h.sum + n) / (2 * n) - (if (2 * h.sum) % (2 * n) = n ∧ x % 2 = 1 then 1 else 0)
  let sd := if n = 1 then 0 else sqrtQuot (n * h.squares - (h.sum * h.sum).toNat) (n * (n - 1))
  let s := (s.wr64 (A.TDC_CH_MEAN_LO i) (ofSigned 64 mean)).wr (A.TDC_CH_SD i) (Nat.min sd (2 ^ 32 - 1))
  let s := (s.wr64 (A.TDC_CH_MIN_LO i) h.least).wr64 (A.TDC_CH_MAX_LO i) h.most
  tdcEvent ((s.setBit (A.TDC_CH_STAT i) 26 false).setBit (A.TDC_CH_STAT i) 25 true) i 2

/-- An interval is added to the run. -/
def statAdd (s : State) (i x : Nat) : State :=
  let n := s.rd (A.TDC_CH_N_USED i)
  let h := s.tdc i
  let s := putTdc s i { h with sum := h.sum + (x : Int), squares := h.squares + x * x, most := Nat.max x h.most
                               least := if n = 0 then x else Nat.min x h.least }
  let s := s.wr (A.TDC_CH_N_USED i) (n + 1)
  if n + 1 = h.statN then statFinish s i else s

/-- A measurement stored now counts in the run, or in N_SKIP. -/
def statTake (s : State) (i : Nat) (m : Meas) : State :=
  if !statRun s i then s
  else
    match m.stops[(s.tdc i).statK - 1]? with
    | some (t, _) =>
      if m.held || s.bit (A.TDC_CH_STAT i) 27 then s.addSat (A.TDC_CH_N_SKIP i) 31 0 1 else statAdd s i (scaleRaw (t - m.raw) m.rate)
    | none => s.addSat (A.TDC_CH_N_SKIP i) 31 0 1

/-! Measurements. -/

/-- The channel arms (R201). -/
def tdcArm (s : State) (i : Nat) : State := (setTdcState s i 2).stop (.tdcRearm i)

/-- A measurement starts with the edge at `raw`; the FTIME is that of the channel's time base. -/
def measStart (s : State) (i raw : Nat) : State :=
  let n := tdcTb s i
  let rate := tbRate s n
  let t := ftAdd (tbTime s n) (scaleSigned ((raw : Int) - (rawNow s 0 : Int)) rate)
  let s := putTdc s i { s.tdc i with meas := some { start := t, raw := raw, rate := rate, gate := (s.tdc i).gate, stops := [], last := raw } }
  let s := setTdcState s i 3
  let w := s.rd (A.TDC_CH_WIN i)
  if w = 0 then s else s.start (.tdcWin i) w

/-- The measurement ends: it waits to be stored, and the channel re-arms as its mode gives (R201). -/
def measEnd (s : State) (i : Nat) : State :=
  let h := s.tdc i
  let s := match h.meas with
    | some m => putTdc s i { h with meas := none, ended := h.ended ++ [m] }
    | none => s
  let s := s.stop (.tdcWin i)
  if s.bit (A.TDC_CH_STAT i) 27 then (statAbort (setTdcState s i 4) i).stop .calBusy
  else
    let s := setTdcState s i 1
    if tdcMode s i = 3 ∨ levelOpen s i = true then s.start (.tdcRearm i) 20 else s

/-- An active edge of the channel's gate is stamped; the channel arms or ends at it. -/
def gateActive (s : State) (i raw : Nat) : State :=
  let mode := tdcMode s i
  let s := if mode = 0 ∧ tdcState s i = 3 then measEnd s i else s
  let s := putTdc s i { s.tdc i with gate := some raw }
  if mode ≤ 1 ∧ (tdcState s i = 0 ∨ 4 ≤ tdcState s i) then tdcEvent s i 8
  else
    let s := if mode ≤ 1 ∧ tdcState s i = 1 then tdcArm s i else s
    if tdcState s i = 2 ∧ tdcStartSrc s i = 2 then measStart s i raw else s

/-- The edges of the last 2 ns before an inactive gate edge may or may not be taken. -/
def dropLate (s : State) (i raw : Nat) : State :=
  match (s.tdc i).meas with
  | some m =>
    if raw < m.last + 256 then
      let (x, s) := s.draw
      if x % 2 = 0 then s
      else if raw < m.raw + 256 ∧ tdcStartSrc s i ≠ 2 then putTdc s i { s.tdc i with meas := none }
      else putTdc s i { s.tdc i with meas := some { m with stops := m.stops.filter fun e => decide (e.1 + 256 ≤ raw) } }
    else s
  | none => s

/-- The gate of a level-mode channel becomes inactive. -/
def gateInactive (s : State) (i raw : Nat) : State :=
  if tdcMode s i ≠ 1 then s
  else if tdcState s i = 3 then measEnd (dropLate s i raw) i
  else if tdcState s i = 2 then setTdcState s i 1
  else s.stop (.tdcRearm i)

/-- Gate `g` has become active or inactive (R201). During a switch-over gap no edge is captured (R203). -/
def gateMoved (s : State) (g : Nat) (raw : Nat) : State :=
  if inGap s then s
  else (List.range 16).foldl (fun s i =>
    if tdcGate s i = g then (if gateLevel s g then gateActive s i raw else gateInactive s i raw) else s) s

/-- The pin of gate `g` takes a level. -/
def setGatePin (s : State) (g : Nat) (high : Bool) : State := { s with gatePins := putBits s.gatePins g g (bit01 high) }

/-- An edge on TDCGATEg (R201). -/
def gateEdge (s : State) (g : Nat) (high : Bool) (fine : Nat) : State :=
  let t := setGatePin s g high
  if gateLevel t g = gateLevel s g then t else gateMoved t g (rawNow t fine)

/-- A write of TDC.GATE_CFG: a gate whose polarity changes goes from active to inactive, or back. -/
def writeGateCfg (s : State) (v : Nat) : State :=
  let t := s.wr A.TDC_GATE_CFG (v % 16)
  ((List.range 4).filter fun g => gateLevel t g ≠ gateLevel s g).foldl (fun t g => gateMoved t g (rawNow t 0)) t

/-- The comparator of input `i` passes an edge of that direction. -/
def slopeTakes (s : State) (i : Nat) (falling : Bool) : Bool :=
  tdcEn s i && (decide (tdcSlope s i = 2) || decide ((tdcSlope s i = 1) = (falling = true)))

/-- Within 2 ns of the active gate edge edges are ignored, and within 4 ns they may be (R201). -/
def gateBlocks (s : State) (i raw : Nat) (taken : Bool) : Bool :=
  if tdcMode s i ≤ 1 then
    match (s.tdc i).gate with
    | some g => decide (raw < g + 256) || (decide (raw < g + 512) && !taken)
    | none => false
  else false

/-- A stop of the running measurement, or an edge lost in dead time (R201). -/
def takeStop (s : State) (i raw : Nat) (falling : Bool) : State :=
  match (s.tdc i).meas with
  | none => s
  | some m =>
    if raw < m.last + 384 then tdcEvent s i 4
    else
      let m := { m with stops := m.stops ++ [(raw, falling)], last := raw }
      let s := putTdc s i { s.tdc i with meas := some m }
      if tdcNstop s i ≤ m.stops.length then measEnd s i else s

/-- WIN after the start passed before the edge at `raw`. -/
def windowOver (s : State) (i raw : Nat) : Bool :=
  match (s.tdc i).meas with
  | some m => decide (s.rd (A.TDC_CH_WIN i) ≠ 0) && decide (m.raw + s.rd (A.TDC_CH_WIN i) * 128 < raw)
  | none => false

/-- What an edge on input `j` does at channel `i`. -/
def channelEdge (s : State) (i j raw : Nat) (falling taken : Bool) : State :=
  if gateBlocks s i raw taken then s
  else if decide (tdcState s i = 3) && windowOver s i raw then measEnd s i
  else if tdcState s i = 3 then (if i = j then takeStop s i raw falling else s)
  else if tdcState s i = 2 then
    (if (tdcStartSrc s i = 0 ∧ i = j) ∨ (tdcStartSrc s i = 1 ∧ tdcStartIn s i = j) then measStart s i raw else s)
  else s

/-- An edge on TDCINj (R201). During a switch-over gap none is captured (R203). -/
def inputEdge (s : State) (j : Nat) (falling taken : Bool) (fine : Nat) : State :=
  if inGap s || !slopeTakes s j falling then s
  else (List.range 16).foldl (fun s i => channelEdge s i j (rawNow s fine) falling taken) s

/-- WIN after the start has passed. -/
def windowEnd (s : State) (i : Nat) : State :=
  if decide (tdcState s i = 3) && s.due (.tdcWin i) then measEnd s i else s

/-- 20 ns after the end, the channel re-arms. -/
def tdcRearm (s : State) (i : Nat) : State :=
  if decide (tdcState s i = 1) && s.due (.tdcRearm i) then
    (if tdcMode s i = 3 || levelOpen s i then tdcArm s i else s.stop (.tdcRearm i))
  else s

/-- A software-gated channel is armed (R201). -/
def softArm (s : State) (i : Nat) : State :=
  if tdcMode s i = 2 ∧ tdcState s i = 1 then tdcArm s i else s

/-- CTRL.ABORT of a software-gated channel. -/
def softAbort (s : State) (i : Nat) : State :=
  if tdcMode s i ≠ 2 then s
  else if tdcState s i = 3 then measEnd s i
  else if tdcState s i = 2 then setTdcState s i 1
  else s

/-! Results. -/

/-- The input is retired (R206). -/
def tdcRetire (s : State) (i : Nat) : State :=
  let s := { s with retiredTdc := s.retiredTdc.filter (· ≠ i) ++ [i] }
  let s := putTdc s i { s.tdc i with meas := none }
  statAbort (tdcEvent (setTdcState ((s.stop (.tdcWin i)).stop (.tdcRearm i)) i 5) i 32) i

/-- The words of the stops. -/
def storeStops (s : State) (i : Nat) (m : Meas) : State :=
  (List.range 31).foldl (fun s j =>
    match m.stops[j]? with
    | some (t, f) =>
      let x := scaleRaw (t - m.raw) m.rate
      (s.wr (A.TDC_CH_STOP_LO i j) x).wr (A.TDC_CH_STOP_HI i j) (2 ^ 31 + bit01 f * 2 ^ 30 + x / 2 ^ 32 % 2 ^ 16)
    | none => (s.wr (A.TDC_CH_STOP_LO i j) 0).wr (A.TDC_CH_STOP_HI i j) 0) s

/-- The measurement is stored (R202, R204), with STALE where a trim item is held now. Where no gate edge was stamped, GATE_T
is open. -/
def storeMeas (s : State) (i : Nat) (m : Meas) : State :=
  let seq := (s.fld (A.TDC_CH_RES_SEQ i) 15 0 + 1) % 2 ^ 16
  let s := storeStops (s.wrTime (A.TDC_CH_START_W2 i) m.start) i m
  let (g, s) := match m.gate with
    | some g => (ofSigned 32 (clampInt (-(2 ^ 31)) (2 ^ 31 - 1) (scaleSigned ((g : Int) - (m.raw : Int)) m.rate)), s)
    | none => s.draw
  let s := s.wr (A.TDC_CH_GATE_T i) g
  let s := s.wr (A.TDC_CH_RES_SEQ i)
    (bit01 m.held * 2 ^ 31 + bit01 (s.bit (A.TDC_CH_STAT i) 27) * 2 ^ 30 + bit01 m.stepped * 2 ^ 29 + m.stops.length % 32 * 2 ^ 24 + seq)
  statTake ((tdcEvent s i 1).pmcEvent 23 0x382 1) i m

/-- The oldest ended measurement of channel `i` is checked and stored, or discarded (R202, R206). -/
def measStore (s : State) (i : Nat) (agree : Bool) : State :=
  match (s.tdc i).ended with
  | [] => s
  | m :: l =>
    let s := putTdc s i { s.tdc i with ended := l }
    if agree then storeMeas s i m
    else
      let fails := tdcFails s i ++ [s.now]
      let s := tdcEvent (putTdc s i { s.tdc i with fails := fails }) i 16
      if 3 ≤ fails.length ∧ tdcState s i ≠ 5 then tdcRetire s i else s

/-- A guarded TDC.UNRETIRE (R206). -/
def tdcUnretire (s : State) (mask : Nat) : State :=
  (bitsSet mask 16).foldl (fun s i =>
    if tdcState s i = 5 then
      let s := { s with retiredTdc := s.retiredTdc.filter (· ≠ i) }
      let s := putTdc s i { s.tdc i with fails := [] }
      if !tdcEn s i then setTdcState s i 0 else if tdcMode s i = 3 ∨ levelOpen s i = true then tdcArm s i else setTdcState s i 1
    else s) s

/-! Configuration. -/

/-- CFG, THR, WIN and STAT_CFG are not written while the channel is ARMED or RUNNING. -/
def tdcBusy (s : State) (i : Nat) : Bool := decide (tdcState s i = 2 ∨ tdcState s i = 3)

/-- A write of CHi_CFG, refused for reserved values and in a busy channel. -/
def writeTdcCfg (s : State) (i v : Nat) : Option State :=
  if tdcBusy s i || decide (bits v 30 29 = 3) || decide (bits v 24 23 = 3) || decide (bits v 18 14 = 0) then none
  else
    let s := s.wr (A.TDC_CH_CFG i) v
    some (
      if 4 ≤ tdcState s i then s
      else if !v.testBit 31 then (setTdcState s i 0).stop (.tdcRearm i)
      else if bits v 26 25 = 3 then tdcArm s i
      else if bits v 26 25 = 1 ∧ gateLevel s (bits v 28 27) = true then tdcArm s i
      else (setTdcState s i 1).stop (.tdcRearm i))

/-! Time base steps, gaps and anneals. -/

/-- Measurements in progress on time base `n` carry STEP (R202). -/
def tdcStep (s : State) (n : Nat) : State :=
  (List.range 16).foldl (fun s i =>
    match (s.tdc i).meas with
    | some m => if tdcTb s i = n then putTdc s i { s.tdc i with meas := some { m with stepped := true } } else s
    | none => s) s

/-- Measurements in progress span a gap (R203). -/
def tdcGap (s : State) : State :=
  (List.range 16).foldl (fun s i =>
    match (s.tdc i).meas with
    | some m => putTdc s i { s.tdc i with meas := some { m with held := true } }
    | none => s) s

/-- A gap has ended: a level-gated channel follows the gate's level as it is now. -/
def tdcGapEnd (s : State) : State :=
  (List.range 16).foldl (fun s i =>
    if tdcMode s i ≠ 1 then s
    else if levelOpen s i then (if decide (tdcState s i = 1) && !s.runs (.tdcRearm i) then tdcArm s i else s)
    else gateInactive s i (rawNow s 0)) s

/-- While an anneal holds the DAC item of input `i`, the comparator keeps the DAC setting that it has (R200). -/
def keepDac (s : State) (i : Nat) : State := putTdc s i { s.tdc i with dac := some (dacCode s i) }

/-- An anneal begins to hold input `i` (R203): the channel is HELD, at the end of a measurement that runs. -/
def tdcHold (s : State) (i : Nat) : State :=
  let s := s.setBit (A.TDC_CH_STAT i) 27 true
  if tdcState s i = 3 then s.start .calBusy (10 * ms)
  else statAbort ((setTdcState s i 4).stop (.tdcRearm i)) i

/-- The anneal releases input `i`. -/
def tdcRelease (s : State) (i : Nat) : State :=
  let s := putTdc s i { s.tdc i with dac := none }
  let s := (s.setBit (A.TDC_CH_STAT i) 27 false).stop .calBusy
  if tdcState s i ≠ 4 then s
  else if !tdcEn s i then setTdcState s i 0
  else if tdcMode s i = 3 ∨ levelOpen s i = true then tdcArm s i
  else setTdcState s i 1

end Sys2Proof.Machine
end

