-- ==== Sys2Proof/Machine/Redundancy.lean ====
section
/-! DEFINITION. The two timing cores: states, tracking, switch-over, self-test and repair (R207 to R216), and what
follows a time base when it is stepped (R128). Core 0 is the Cope, core 1 the Drag. -/

namespace Sys2Proof.Machine

/-- Events of the TCO block: SWO_DONE, CORE_FAIL and NO_BACKUP raise source 116 whatever EVT_EN holds. -/
def tcoEvent (s : State) (mask : Nat) : State := s.event A.TCO_EVT A.TCO_EVT_EN 116 mask 0x23

def coreState (s : State) (c : Nat) : Nat := if c = 0 then s.fld A.TCO_STAT 6 4 else s.fld A.TCO_STAT 10 8
def setCore (s : State) (c st : Nat) : State :=
  if c = 0 then s.setFld A.TCO_STAT 6 4 st else s.setFld A.TCO_STAT 10 8 st
def coreFails (s : State) (c : Nat) : Nat := if c = 0 then s.fld A.TCO_STAT 23 16 else s.fld A.TCO_STAT 31 24
def addCoreFail (s : State) (c : Nat) : State :=
  if c = 0 then s.addSat A.TCO_STAT 23 16 1 else s.addSat A.TCO_STAT 31 24 1
def activeCore (s : State) : Nat := s.fld A.TCO_STAT 0 0

/-- A core drives the timing die. -/
def coreRuns (s : State) : Bool := decide (coreState s 0 = 4 ∨ coreState s 0 = 6 ∨ coreState s 1 = 4 ∨ coreState s 1 = 6)

/-- The core that tracks, if there is one: the core beside the active one, in SYNC or STANDBY. -/
def trackingCore (s : State) : Option Nat :=
  let c := 1 - activeCore s
  if coreRuns s && decide (coreState s c = 2 ∨ coreState s c = 3) then some c else none

/-- A core enters FAILED (R214, R210). -/
def coreFail (s : State) (c : Nat) : State :=
  let l := Map.put 0 s.tco.failedAt c s.now
  let s := addCoreFail (setCore { s with tco := { s.tco with failedAt := l } } c 5) c
  tcoEvent (s.stop .coreTrack) 2

/-- Both cores enter INIT at a cold start or a timing reset (R207). TCO.STAT shows the Drag OFF up to the first thing that
happens after the reset. -/
def coresEnter (s : State) : State := if coreState s 1 = 0 then setCore s 1 1 else s

/-- A core enters SYNC: it loads the state of the active core. -/
def coreSync (s : State) (c : Nat) : State := setCore { s with tco := { s.tco with lag := 0, trackAt := 0 } } c 2

/-- A core ends INIT (R207): ACTIVE at start if no core is ACTIVE, else SYNC, and after a repair SYNC (R208, R215); or
FAILED. The Drag waits for the Cope. -/
def coreInit (s : State) (c : Nat) (ok : Bool) : State :=
  if coreState s c ≠ 1 then s
  else if !ok then coreFail s c
  else if coreRuns s || decide (c ∈ s.tco.repaired) then coreSync s c
  else if c = 1 ∧ coreState s 0 ≤ 1 then s
  else (setCore s c 4).setFld A.TCO_STAT 0 0 c

/-! Tracking (R209). -/

/-- TRK_LIM in ps: 0 acts as 1. -/
def trackLimit (s : State) : Nat := Nat.max 1 (s.fld A.TCO_CFG 31 16)

/-- An error in units of 0.5 ps lies within the limit. -/
def withinTrack (s : State) (h : Int) : Bool := decide (h.natAbs ≤ 2 * trackLimit s)

def setMisses (s : State) (n : Nat) : State := { s with tco := { s.tco with misses := n } }

/-- ε with its resolution of 0.5 ps, from a difference in 2^-48 ns. -/
def epsOf (lag : Int) : Int := quotInt (lag * 2000) (2 ^ 48)

/-- What 0.5 ps units are in 2^-`b` ns. -/
def halfPs (h : Int) (b : Nat) : Int := quotInt (h * 2 ^ b) 2000

/-- The correction of the tracking core's time bases up to the next measurement: −ε, through a rate within ±1 ppm, which
is 1 ps in 1 µs. -/
def trackCorrect (lag : Int) : Int := lag + halfPs (clampInt (-2) 2 (-(epsOf lag))) 48

/-- What a measurement ε, in units of 0.5 ps, makes of the tracking core. -/
def trackJudge (s : State) (c : Nat) (h : Int) : State :=
  if coreState s c = 2 then
    (if withinTrack s h then (if s.runs .coreTrack then s else s.start .coreTrack (1000 * ms)) else s.stop .coreTrack)
  else if withinTrack s h then setMisses s 0
  else if 16 ≤ s.tco.misses + 1 then tcoEvent (setCore (setMisses s 0) c 2) 8
  else setMisses s (s.tco.misses + 1)

/-- The tracking core measures ε, every 1 µs: `drift` is what the two master loops have moved against each other since
the measurement before, in 2^-48 ns. Its time bases, which run the servo on the same samples and take the same writes, are
those of the active core but for that difference. -/
def trackMeasure (s : State) (drift : Int) : State :=
  match trackingCore s with
  | none => s
  | some c =>
    if s.now < s.tco.trackAt then s
    else
      let lag := s.tco.lag + drift
      let h := epsOf lag
      let s := { s with tco := { s.tco with lag := trackCorrect lag, trackAt := s.now + us } }
      trackJudge (s.wr A.TCO_TRK_ERR (ofSigned 32 (clampInt (-(2 ^ 31)) (2 ^ 31 - 1) (halfPs h 16)))) c h

/-- ε stayed within the limit for 1 s. -/
def coreTracked (s : State) : State :=
  match trackingCore s with
  | some c =>
    if decide (coreState s c = 2) && s.due .coreTrack then tcoEvent (setCore (setMisses (s.stop .coreTrack) 0) c 3) 4 else s
  | none => s

/-! Switch-over (R210 to R212). -/

/-- The time bases take over the tracking error that stood at the start of the gap, as they are released (R210, R212). -/
def carryError (s : State) : State :=
  let e := s.tco.carry
  (List.range 8).foldl (fun s n => moveAcc s n e) { s with tco := { s.tco with carry := 0 } }

/-- The clock outputs run on through the switch-over: their edges lie within 10 ps of where they would, which is open
(R212). -/
def holdOutputs (s : State) : State :=
  (List.range 8).foldl (fun s k =>
    if synState s k < 2 then s
    else
      let (x, s) := s.draw
      putSyn s k { s.syn k with dev := ((x % 20001 : Nat) : Int) - 10000 }) s

/-- The switch-over starts: the other core takes over, and the gap begins. -/
def takeOver (s : State) (cause : Nat) : State :=
  let a := activeCore s
  let c := 1 - a
  let unready := decide (coreState s c = 2)
  let held := (List.range 8).map fun n => tbTime s n
  let s := { s with tco := { s.tco with gapAt := s.now, held := held, unlocked := false, carry := s.tco.lag } }
  let s := s.wrTime A.TCO_SWO_W2 (tb0 s)
  let s := (s.addSat A.TCO_SWO_INFO 31 16 1).setFld A.TCO_SWO_INFO 3 0 cause
  let s := tdcGap ((s.setBit A.TCO_STAT 11 true).pmcEvent 23 0x383 1)
  let s := ((setCore (s.stop .coreTrack) c 4).setFld A.TCO_STAT 0 0 c).setBit A.TCO_STAT 12 false
  let s := if cause = 4 then coreSync s a else coreFail s a
  let s := if unready then tcoEvent s 16 else s
  setMisses (holdOutputs s) 0

/-- The active core fails with no core to take over (R216). -/
def degrade (s : State) (unlocked : Bool) : State :=
  let a := activeCore s
  if coreState s a = 6 then coreFail ({ s with tco := { s.tco with unlocked := true } }.setBit A.TCO_STAT 12 false) a
  else
    let s := addCoreFail (setCore { s with tco := { s.tco with unlocked := unlocked } } a 6) a
    tcoEvent (s.setBit A.TCO_STAT 12 true) 32

/-- The active core is found to have failed (R210, R213, R216). -/
def activeFails (s : State) (cause : Nat) : State :=
  let a := activeCore s
  if coreState s a ≠ 4 ∧ coreState s a ≠ 6 then s
  else if (trackingCore s).isSome then takeOver s cause
  else degrade s (decide (cause = 1))

/-- A manual switch can be accepted (R211). -/
def switchOk (s : State) : Bool := decide (coreState s (activeCore s) = 4 ∨ coreState s (activeCore s) = 6) &&
  decide (coreState s (1 - activeCore s) = 3)

/-! What follows a time base. -/

/-- Time base `n` was stepped by `d` (2^-48 ns): the pulse engine and the interval converters follow (R197, R202). -/
def followStep (s : State) (n : Nat) (d : Int) : State := tdcStep (pulseStep (applyStep s n d) n (decide (0 < d))) n

/-- The steps of TB1 to TB7 that were decided and need not wait are applied (R128). -/
def settleSteps (s : State) : State :=
  ([1, 2, 3, 4, 5, 6, 7] : List Nat).foldl (fun s n =>
    match (s.tb n).step with
    | some (d, _) => if inGap s then s else followStep s n d
    | none => s) s

/-- Ramps that ran or fell due during the gap go on, later by its length (R212). -/
def synGapEnd (s : State) (len : Nat) : State :=
  (List.range 8).foldl (fun s k =>
    if synRamping s k then
      let s := putSyn s k { s.syn k with segAt := (s.syn k).segAt + len }
      match s.timer (.synSeg k) with
      | some t => { s with timers := (Timer.synSeg k, t + len) :: s.timers.filter fun e => e.1 ≠ Timer.synSeg k }
      | none => s
    else if synWaits s k && synAtReached s k then rampStart (synEvent s k 16) k
    else s) s

/-- The gap ends (R212): the outputs go on first (R196), and then the steps that waited are decided. -/
def gapEnd (s : State) : State :=
  if !inGap s then s
  else
    let len := s.now - s.tco.gapAt
    let s := (s.setBit A.TCO_STAT 11 false).setFld A.TCO_SWO_INFO 15 4 len
    let s := tcoEvent { s with tco := { s.tco with held := [], relock := s.now + 20 * us } } 1
    let s := pulseGapEnd (synGapEnd (carryError s) len)
    tdcGapEnd (settleSteps (([1, 2, 3, 4, 5, 6, 7] : List Nat).foldl decideWaiting s))

/-! Self-test (R214). -/

/-- A failure of an item is noted. -/
def noteTestFail (s : State) (c item : Nat) : State :=
  let s := { s with tco := { s.tco with fails := s.tco.fails ++ [(c, s.now)] } }
  s.setFld (A.TCO_HEALTH c) 31 28 item

/-- One slot: the item passed at the first run, and if not, at the second. The last item completes a cycle. -/
def selftest (s : State) (item : Nat) (first second : Bool) : State :=
  match trackingCore s with
  | none => s
  | some c =>
    if item = 0 || inGap s then s
    else
      let s :=
        if first then s
        else
          let s := noteTestFail s c item
          if !second then coreFail s c
          else
            let s := tcoEvent s 64
            if 3 ≤ (testFails s c).length then coreFail s c else s
      if item = 7 ∧ coreState s c ≠ 5 then s.setFld (A.TCO_HEALTH c) 23 0 (s.fld (A.TCO_HEALTH c) 23 0 + 1) else s

/-! Repair (R215). -/

/-- A FAILED core starts INIT. -/
def coreRepair (s : State) (c : Nat) : State :=
  if coreState s c = 5 then
    setCore { s with tco := { s.tco with repaired := c :: s.tco.repaired.filter (· ≠ c) } } c 1
  else s

/-- The automatic repair of a core. -/
def autoRepair (s : State) (c : Nat) : State :=
  if s.bit A.TCO_CFG 0 && decide (coreState s c = 5) && decide (Map.get 0 s.tco.failedAt c + 60000 * ms ≤ s.now) &&
      decide (coreFails s c < 3) then coreRepair s c
  else s

/-! LOCKA (R186, R209). -/

/-- The duty cycle in LOCKED, in thousandths, for θ in 2^-16 ns: 950 − 2 × min(|θ| / 1 ns, 200), as a numerator over
65 536. -/
def lockedDuty (theta : Int) : Nat := 950 * 65536 - 2 * Nat.min theta.natAbs (200 * 65536)

/-- The duty cycle of a LOCKA pin, in thousandths over 65 536. -/
def lockaDuty (s : State) (c : Nat) : Nat :=
  let st := coreState s c
  if st = 0 ∨ st = 1 ∨ st = 5 ∨ s.bit A.REF_XO_STAT 0 = true then 0
  else if st = 2 then 400 * 65536
  else if st = 3 then lockedDuty (toSigned 32 (s.rd A.TCO_TRK_ERR))
  else if s.tco.unlocked then 0
  else if tbState s 0 = 1 then 400 * 65536
  else if tbState s 0 = 2 then lockedDuty (toSigned 32 (s.rd (A.TIM_TB_OFFSET 0)))
  else 250 * 65536

end Sys2Proof.Machine
end

