-- ==== Sys2Proof/Machine/PortBase.lean ====
section
/-! DEFINITION. Port types, rates and states (R94, tables Port types and Port states), and the times that the line
takes. -/

namespace Sys2Proof.Machine

/-! Fields of the port registers. -/

/-- The port runs as a Shoyx trunk. -/
def isTrunk (s : State) (p : Nat) : Bool := decide (portType s p = 13)

/-- Events of port `p`. -/
def portEvent (s : State) (p mask : Nat) : State :=
  s.event (A.PORT_EVT p) (A.PORT_EVT_EN p) (128 + p) mask 0

/-! The table of port types (R94). -/

/-- How many port lanes a type uses. -/
def typeLanes (t : Nat) : Nat :=
  [0, 8, 8, 4, 4, 2, 2, 1, 1, 4, 1, 1, 1, 8, 0, 0].getD t 0

/-- The lane MODE of a type. -/
def typeMode (t : Nat) : Nat :=
  [0, 5, 4, 5, 4, 5, 4, 5, 4, 3, 3, 2, 1, 3, 0, 0].getD t 0

/-- The rate of an Ethernet type in Gb/s. -/
def typeRate (t : Nat) : Nat :=
  [0, 800, 400, 400, 200, 200, 100, 100, 50, 100, 25, 10, 1, 0, 0, 0].getD t 0

/-- The type accepts the negotiation method. -/
def negAccepted (t neg : Nat) : Bool :=
  if t = 0 then decide (neg ≤ 2) else if t ≤ 8 then decide (neg ≤ 2)
  else if t ≤ 11 then decide (neg ≤ 1) else decide (neg = 0)

/-- The type with `k` lanes at a PAM4 rate of step-up (R101). -/
def typeOfWidth (mode k : Nat) : Nat :=
  if mode = 4 then (if k = 8 then 2 else if k = 4 then 4 else if k = 2 then 6 else 8)
  else (if k = 8 then 1 else if k = 4 then 3 else if k = 2 then 5 else 7)

/-- The FEC of a port in UP or bring-up (R94, R98): 0 none, 1 Clause 74, 2 RS(528,514), 3 RS(544,514). E25_1 takes that
of CFG.FEC25, or what Clause 73 resolved. -/
def portFec (s : State) (p : Nat) : Nat :=
  let t := typeEff s p
  if t = 10 then (if portNeg s p = 1 then (Map.get ({} : PortHidden) s.ports p).fec else s.fld (A.PORT_CFG p) 9 8)
  else if 1 ≤ t ∧ t ≤ 8 then 3 else if t = 9 then 2 else 0

/-- The lane is healthy (R101). -/
def laneHealthy (s : State) (l : Nat) : Bool := !laneFlag s l 18

/-- Port lanes 0 to k − 1 are healthy. -/
def lanesHealthy (s : State) (p k : Nat) : Bool := (List.range k).all fun j => laneHealthy s (8 * p + j)

/-- The number of lanes in the transmit active set of a trunk. -/
def activeLanes (s : State) (p : Nat) : Nat := (bitsSet (s.fld (A.PORT_TRK_STAT p) 23 16) 8).length

/-- The line time of `n` bytes at the port's rate, in 2^-16 ns, as a fraction: a trunk at its payload rate (R110). -/
def lineTimeNum (s : State) (p n : Nat) : Nat :=
  if typeEff s p = 13 then 8 * n * 16384 * 528 * 65536 else 8 * n * 65536
def lineTimeDen (s : State) (p : Nat) : Nat :=
  if typeEff s p = 13 then Nat.max 1 (activeLanes s p) * 25 * 16380 * 512 else Nat.max 1 (typeRate (typeEff s p))

/-- The line time of `n` bytes in 2^-16 ns. -/
def lineTime (s : State) (p n : Nat) : Nat := Config.quot (lineTimeNum s p n) (lineTimeDen s p)

/-- The line time of `n` bytes in whole ns of true time, not less than the line time: the line's clock follows TB0
(R143, R153). -/
def lineNs (s : State) (p n : Nat) : Nat :=
  let den := lineTimeDen s p * 65536 * followScale s 0
  (lineTimeNum s p n * 1000000000000 + den - 1) / den

/-- The link-block time at a number of lanes in 2^-16 ns: 4 356 bit times of 25.78125 Gb/s over the lanes (R109). -/
def blockTime (lanes : Nat) : Nat := Config.quot (16896 * 65536) (100 * Nat.max 1 lanes)

/-- The rate of a port for the comparison of R268, in units of 1/10 000 Gb/s: a trunk at its present width. -/
def compareRate (s : State) (p : Nat) : Nat :=
  if typeEff s p = 13 then activeLanes s p * 242365 else typeRate (typeEff s p) * 10000

end Sys2Proof.Machine
end

