-- ==== Sys2Proof/Machine/Cal.lean ====
section
/-! DEFINITION. Anneal runs, trims, and the trim region in flash (R217 to R226). Measured values are numbers of
2^-24 ns, and of µV for KIND 5. -/

namespace Sys2Proof.Machine

/-- Events of the CAL block. -/
def calEvent (s : State) (mask : Nat) : State := s.event A.CAL_EVT A.CAL_EVT_EN 117 mask 0

def calState (s : State) : Nat := s.fld A.CAL_STAT 31 28
def calKind (s : State) : Nat := s.fld A.CAL_STAT 23 20
def calIndex (s : State) : Nat := s.fld A.CAL_STAT 8 0
def setCalState (s : State) (st : Nat) : State := s.setFld A.CAL_STAT 31 28 st
def saveBusy (s : State) : Bool := s.bit A.CAL_STAT 27
def laneMethod (s : State) : Nat := s.fld A.CAL_SEL 9 8

/-! Trims (R224). -/

/-- How many INDEX values a kind has. -/
def kindSize (k : Nat) : Nat := [0, 512, 512, 64, 16, 16, 32, 5, 8].getD k 0

/-- How many SUB values an item of a kind has. -/
def kindSubs (k : Nat) : Nat := if k = 4 then 64 else 1

/-- The fuse value of one delay chain of a lane direction, in 2^-16 ns. -/
def fuseChain (kind index c : Nat) : Nat :=
  if (bits (fuseTrim kind 0 index).toNat 25 24) = c then bits (fuseTrim kind 0 index).toNat 23 0
  else (Config.fuseWord (2 ^ 29 + c * 2 ^ 26 + trimKey kind 0 index)).toNat % 2 ^ 24

def setTrim (s : State) (kind sub index : Nat) (r : TrimRec) : State :=
  { s with trims := Map.put none s.trims (trimKey kind sub index) (some r) }

/-! The run. -/

/-- The items that a run selects: ascending kind, then index. -/
def calItems (s : State) : List (Nat × Nat) :=
  let first := s.fld A.CAL_RANGE 8 0
  let last := s.fld A.CAL_RANGE 24 16
  (List.range 9).flatMap fun k =>
    if k ≠ 0 ∧ s.bit A.CAL_SEL (k - 1) = true then
      ((List.range (kindSize k)).filter fun i => decide (first ≤ i) && decide (i ≤ last)).map fun i => (k, i)
    else []

/-- A GO is rejected (R222). -/
def calGoRejects (s : State) : Bool :=
  decide (calState s ≠ 0) || saveBusy s || decide (s.fld A.CAL_SEL 7 0 = 0) ||
    decide (s.fld A.CAL_RANGE 24 16 < s.fld A.CAL_RANGE 8 0) || decide (coreState s 0 = 6) || decide (coreState s 1 = 6)

/-- The item is measured in service (R217). -/
def inServiceMethod (s : State) (l : Nat) : Bool :=
  decide (laneMethod s = 2) || (decide (laneMethod s = 0) && inService s l)

/-- The bad chains of a lane direction. -/
def badChains (s : State) (kind l : Nat) : Nat := trimValue s kind 0 l / 2 ^ 28

/-- The lowest-numbered spare chain that is not bad. -/
def spareChain (s : State) (kind l : Nat) : Option Nat :=
  (List.range 4).find? fun c => decide (c ≠ bits (trimValue s kind 0 l) 25 24) && !(badChains s kind l).testBit c

/-- The cause for which a lane item cannot be measured (R218), or 0. -/
def laneReject (s : State) (kind l : Nat) : Nat :=
  if !inRun s then 6
  else if inServiceMethod s l then
    (if laneState s l = 10 then 3
     else if !(inService s l && laneFlag s l 21) then 4
     else if (spareChain s kind l).isNone then 5
     else 0)
  else if laneFlag s l 24 then 1
  else if portState s (portOfLane l) ≠ 0 then 2
  else if laneState s l = 10 then 3
  else 0

/-- The cause for which an item cannot be measured (R218), or 0. -/
def itemReject (s : State) (kind index : Nat) : Nat :=
  if kind ≤ 2 then laneReject s kind index
  else if kind = 3 then (if inRun s then 0 else 6)
  else if kind = 4 ∨ kind = 5 then (if tdcState s index = 5 then 3 else 0)
  else 0

/-- The item in progress is released. -/
def calRelease (s : State) : State :=
  let k := calKind s
  let i := calIndex s
  let s := { s with cal := { s.cal with m1 := none, gapSeen := false, install := none, service := false } }
  let s := if k = 4 ∨ k = 5 then tdcRelease s i
    else if k = 6 then s.setBit (A.PLS_OUT_STAT i) 26 false else s
  (s.setFld A.CAL_STAT 23 20 0).setFld A.CAL_STAT 8 0 0

/-- ITEM_REJ with its cause (R218). -/
def noteReject (s : State) (kind index cause : Nat) : State :=
  let s := s.wr A.CAL_LAST_REJ (cause * 2 ^ 28 + kind * 2 ^ 24 + index)
  calEvent (s.addSat A.CAL_COUNT 31 16 1) (if cause = 5 then 34 else 2)

/-- The item is held and its measurement begins (R218). -/
def calHold (s : State) (kind index : Nat) : State :=
  let svc := decide (kind ≤ 2) && inServiceMethod s index
  let s := { s with cal := { s.cal with m1 := none, gapSeen := false, service := svc } }
  let s := ((setCalState s 2).setFld A.CAL_STAT 23 20 kind).setFld A.CAL_STAT 8 0 index
  if kind = 4 then tdcHold s index
  else if kind = 5 then tdcHold (keepDac s index) index
  else if kind = 6 then s.setBit (A.PLS_OUT_STAT index) 26 true
  else s

/-- The run goes on with the first item of the list that passes its checks; with none left it is done (R219). -/
def calNextOf (s : State) : List (Nat × Nat) → State
  | [] => calEvent (setCalState { s with cal := { s.cal with todo := [] } } 0) 1
  | (k, i) :: l =>
    let c := itemReject s k i
    if c = 0 then calHold { s with cal := { s.cal with todo := l } } k i
    else calNextOf (noteReject s k i c) l

/-- The run waits for the end of a gap; it has left the state `st`. -/
def calWait (s : State) (st : Nat) : State := setCalState { s with cal := { s.cal with left := st } } 5

/-- The next item, which waits for the end of a gap. -/
def calNext (s : State) : State := if inGap s then calWait s 1 else calNextOf s s.cal.todo

/-- The state of the run, or the one that it left for WAIT_GAP. -/
def calPhase (s : State) : Nat := if calState s = 5 then s.cal.left else calState s

/-- An accepted GO (R222): the run starts, or waits for the end of a gap. -/
def calGo (s : State) : State :=
  calNext ({ s with cal := { s.cal with todo := calItems s } }.wr A.CAL_COUNT 0)

/-- The run is aborted: the item in progress keeps its old trim. -/
def calAbort (s : State) : State :=
  if calState s = 0 then s
  else calEvent (setCalState { calRelease s with cal := { (calRelease s).cal with todo := [] } } 0) 64

/-- The item in progress is rejected, and the next one follows. -/
def calReject (s : State) (cause : Nat) : State :=
  let k := calKind s
  let i := calIndex s
  calNext (noteReject (calRelease s) k i cause)

/-! The decision (R220). -/

/-- The tolerance of a kind: 0 acts as 1. -/
def calTol (s : State) (k : Nat) : Nat := Nat.max 1 (s.fld (A.CAL_TOL1 + 4 * (k - 1)) 15 0)

/-- Two measurements agree: within TOL fs, or TOL µV for KIND 5. -/
def agrees (s : State) (k : Nat) (a b : Int) : Bool :=
  if k = 5 then decide ((a - b).natAbs ≤ calTol s k) else decide ((a - b).natAbs * 1000000 ≤ calTol s k * 2 ^ 24)

/-- The mean of two measurements lies within `ps` of a value in 2^-16 ns. -/
def nearPs (a b : Int) (f : Int) (ps : Nat) : Bool :=
  decide ((a + b - 2 * f * 256).natAbs * 1000 ≤ 2 * ps * 2 ^ 24)

/-- A sum of two numbers of 2^-24 ns as their mean in 2^-16 ns, to the nearest. -/
def meanUnits (a b : Int) : Int := (a + b + 256) / 512

/-- The case temperature, which no command gives, is an open value: 16 bits in 0.1 °C. -/
def drawTemp (s : State) : Nat × State := let (x, s) := s.draw; (x % 2 ^ 16, s)

/-- CAL.TEMP and COUNT after an accepted item, with ITEM_OK. -/
def noteOk (s : State) (temp : Nat) : State :=
  calEvent ((s.wr A.CAL_TEMP (temp * 2 ^ 16 + temp)).addSat A.CAL_COUNT 15 0 1) 4

/-- The item is installed at once, and the next one follows (R221). -/
def calInstall (s : State) (values : List (Nat × Word)) : State :=
  let k := calKind s
  let i := calIndex s
  let (t, s) := drawTemp s
  let s := values.foldl (fun s e => setTrim s k e.1 i ⟨e.2, t, 2⟩) s
  let s := if k ≤ 2 then laneEvent s i 32 else s
  calNext (noteOk (calRelease s) t)

/-- The BAD bits of the item's value are kept, whatever becomes of the item. -/
def keepBad (s : State) (bad : Nat) : State :=
  let k := calKind s
  let i := calIndex s
  let r := trimRec s k 0 i
  if r.value.toNat / 2 ^ 28 = bad then s
  else setTrim s k 0 i { r with value := BitVec.ofNat 32 (bad * 2 ^ 28 + r.value.toNat % 2 ^ 28) }

/-- A chain agrees but lies outside its range: it is bad. -/
def chainBad (s : State) (k l c : Nat) (a b : Int) : Bool :=
  agrees s k a b && !nearPs a b (fuseChain k l c : Nat) 50

/-- A lane direction (R217): the chains measured with their two results. -/
def decideLane (s : State) (l : List (Nat × Int × Int)) : State :=
  let k := calKind s
  let i := calIndex s
  let old := if s.cal.service then badChains s k i else 0
  let bad := l.foldl (fun m e => if chainBad s k i e.1 e.2.1 e.2.2 then m ||| 2 ^ e.1 else m) old
  let s := keepBad s bad
  match l.find? fun e => !bad.testBit e.1 with
  | none => calReject s 10
  | some (c, a, b) =>
    if agrees s k a b then
      calInstall s [(0, BitVec.ofNat 32 (bad * 2 ^ 28 + c * 2 ^ 24 + (meanUnits a b).toNat % 2 ^ 24))]
    else calReject s 9

/-- The bins of a TDC input (R220): all agree, each in range, and their sum too. -/
def decideBins (s : State) (a b : List Int) : State :=
  let l := a.zip b
  let sum : Int := l.foldl (fun n e => n + e.1 + e.2) 0
  if !(l.all fun e => agrees s 4 e.1 e.2) then calReject s 9
  else if decide (l.length = 64) && decide (Int.natAbs (sum * 1000 - 1000 * (2 ^ 24 : Int)) ≤ 2 ^ 24) &&
      l.all (fun e => decide ((6 * 2 ^ 24 : Int) ≤ (e.1 + e.2) * 1000) && decide ((e.1 + e.2) * 1000 ≤ (26 * 2 ^ 24 : Int))) then
    calInstall s (((List.range 64).zip l).map fun e => (e.1, BitVec.ofInt 32 ((e.2.1 + e.2.2 + 1) / 2)))
  else calReject s 10

/-- The remaining kinds: one result. A pulse output installs once it has been idle (R198). -/
def decideOne (s : State) (a b : Int) : State :=
  let k := calKind s
  let i := calIndex s
  let ok :=
    if k = 3 ∨ k = 8 then nearPs a b 0 20
    else if k = 5 then decide ((a + b).natAbs ≤ 40000)
    else nearPs a b (toSigned 32 (fuseTrim k 0 i).toNat) 50
  let v : Int := if k = 5 then (a + b + 10) / 20 else meanUnits a b
  if !agrees s k a b then calReject s 9
  else if !ok then calReject s 10
  else if k = 6 then
    let (t, s) := drawTemp s
    setCalState { s with cal := { s.cal with install := some ⟨BitVec.ofInt 32 v, t, 2⟩ } } 4
  else calInstall s [(0, BitVec.ofInt 32 v)]

/-- The chains that a measurement of the item covers: the spare one in service, all four in loopback. -/
def measuredChains (s : State) : List Nat :=
  if s.cal.service then (spareChain s (calKind s) (calIndex s)).toList else List.range 4

/-- Both measurements are there (R220). -/
def calDecide (s : State) (a b : List Int) : State :=
  let k := calKind s
  if k ≤ 2 then decideLane s ((measuredChains s).zip ((a ++ [0, 0, 0, 0]).zip (b ++ [0, 0, 0, 0])))
  else if k = 4 then decideBins s a b
  else decideOne s (a.getD 0 0) (b.getD 0 0)

/-- A precondition of the held item is broken (R219): of a lane item, of a phase detector outside RUN, or the input of a
TDC item is retired. -/
def calBroken (s : State) : Bool :=
  let l := calIndex s
  decide (calPhase s = 2) &&
    (if calKind s ≤ 2 then
      !inRun s || decide (laneState s l = 10) ||
        (if s.cal.service then !(inService s l && laneFlag s l 21)
         else laneFlag s l 24 || decide (portState s (portOfLane l) ≠ 0) || zoneInReset s (zoneOfLane l))
     else if calKind s = 3 then !inRun s
     else decide (calKind s ≤ 5) && decide (tdcState s l = 5))

/-- The item is rejected with CHANGED. -/
def calPrecondition (s : State) : State := if calBroken s then calReject s 8 else s

/-- A measurement of the item completes (R220), unless a precondition was broken meanwhile (R219). A TDC item is measured
in a HELD channel. -/
def calMeasured (s : State) (v : List Int) : State :=
  if calState s ≠ 2 ∨ inGap s = true then s
  else if calBroken s then calReject s 8
  else if (calKind s = 4 ∨ calKind s = 5) ∧ tdcState s (calIndex s) ≠ 4 then s
  else
    match s.cal.m1 with
    | none => { s with cal := { s.cal with m1 := some v } }
    | some a => calDecide s a v

/-- The trim of a pulse output is installed (R198). -/
def calPulseInstall (s : State) (k : Nat) : State :=
  match s.cal.install with
  | none => s
  | some r =>
    if decide (calState s = 4) && decide (calIndex s = k) && plsQuiet s k && !inGap s then
      calNext (noteOk (calRelease (setTrim s 6 0 k r)) r.temp)
    else s

/-- A TDC measurement still runs 10 ms after the hold began. -/
def calBusyOut (s : State) : State :=
  if decide (calPhase s = 2) && decide (calKind s = 4 ∨ calKind s = 5) && s.due .calBusy &&
      decide (tdcState s (calIndex s) = 3) then calReject s 7
  else s

/-- A switch-over gap begins: a run goes to WAIT_GAP. The measurement is discarded, and a second gap rejects the item
(tables Anneal run states and Timing-core state × anneal × output hold). -/
def calGapBegin (s : State) : State :=
  if calState s = 2 then
    (if s.cal.gapSeen then calReject s 11 else calWait { s with cal := { s.cal with m1 := none, gapSeen := true } } 2)
  else if calState s = 4 then calWait s 4
  else s

/-- A switch-over gap ends: the run returns to the state that it left. -/
def calGapEnd (s : State) : State :=
  if calState s ≠ 5 then s
  else if s.cal.left = 2 ∨ s.cal.left = 4 then setCalState s s.cal.left
  else calNext s

/-- A core is ACTIVE_DEGRADED: a run in progress is aborted. -/
def calDegraded (s : State) : State := if coreState s 0 = 6 ∨ coreState s 1 = 6 then calAbort s else s

/-! The trim region (R223 to R226). -/

def trimHeaderOk (s : State) (b : List Nat) : Bool :=
  let n := leNat (slice b 6 2)
  decide (64 ≤ b.length) && decide (leNat (slice b 0 4) = 0x52544A46) && decide (leNat (slice b 4 2) = 1) &&
    decide (1 ≤ n) && decide (n ≤ 4096) &&
    decide (leNat (slice b 16 8) = s.rd A.GLB_SERIAL_LO + s.rd A.GLB_SERIAL_HI * 2 ^ 32) &&
    decide (leNat (slice b 0x3C 4) = crc32c (b.take 0x3C))

def trimGen (b : List Nat) : Nat := leNat (slice b 8 4)

/-- A record of 16 bytes, if it is valid (R224). -/
def trimRecord (b : List Nat) : Option (Nat × TrimRec) :=
  let kind := b.getD 0 0
  let sub := b.getD 1 0
  let index := leNat (slice b 2 2)
  if decide (b.length = 16) && decide (leNat (slice b 12 4) = crc32c (b.take 12)) && decide (leNat (slice b 10 2) = 0) &&
      decide (1 ≤ kind) && decide (kind ≤ 8) && decide (index < kindSize kind) && decide (sub < kindSubs kind) then
    some (trimKey kind sub index, ⟨BitVec.ofNat 32 (leNat (slice b 4 4)), leNat (slice b 8 2), 1⟩)
  else none

/-- The valid records of a copy, the first of each item. -/
def trimRecords : Nat → List Nat → List (Nat × Option TrimRec) → List (Nat × Option TrimRec)
  | 0, _, m => m
  | n + 1, b, m =>
    trimRecords n (b.drop 16)
      (match trimRecord (b.take 16) with
       | some (k, r) => if (Map.get none m k).isNone then Map.put none m k (some r) else m
       | none => m)

/-- The records of a copy. -/
def trimCopyMap (b : List Nat) : List (Nat × Option TrimRec) := trimRecords (leNat (slice b 6 2)) (b.drop 64) []

/-- The number of items. -/
def itemCount : Nat := 2 * 512 + 64 + 16 * 64 + 16 + 32 + 5 + 8

/-- The trim region is loaded (R225): each item from the chosen copy, the other copy, or the fuses. -/
def trimLoad (s : State) (c0 c1 : List Nat) : State :=
  let ok0 := trimHeaderOk s c0
  let ok1 := trimHeaderOk s c1
  let gens := Map.put 0 (Map.put 0 [] 0 (if ok0 then trimGen c0 + 1 else 0)) 1 (if ok1 then trimGen c1 + 1 else 0)
  let s := { s with cal := { s.cal with gens := gens } }
  let one := ok1 && (!ok0 || decide (trimGen c0 < trimGen c1))
  let best := if one then trimCopyMap c1 else if ok0 then trimCopyMap c0 else []
  let other := if one then (if ok0 then trimCopyMap c0 else []) else if ok0 && ok1 then trimCopyMap c1 else []
  let extra := other.filter fun e => (Map.get none best e.1).isNone
  let all := extra.foldl (fun m e => Map.put none m e.1 e.2) best
  let copy := if one then 2 else if ok0 then 1 else 0
  let s := { s with trims := all }
  let s := s.wr A.CAL_LOAD_STAT (Nat.min (itemCount - all.length) 4095 * 2 ^ 20 + Nat.min extra.length 4095 * 2 ^ 8 + copy)
  let s := s.wr A.CAL_GEN (if one then trimGen c1 else if ok0 then trimGen c0 else 0)
  s.setBit A.GLB_BOOT_STAT 14 (!ok0 && !ok1)

/-- Every item, in the order of a run. -/
def allItems : List (Nat × Nat × Nat) :=
  (List.range 9).flatMap fun k =>
    (List.range (kindSize k)).flatMap fun i => (List.range (kindSubs k)).map fun j => (k, j, i)

/-- The record of an item. -/
def recordBytes (s : State) (k j i : Nat) : List Nat :=
  let r := trimRec s k j i
  let b := [k, j] ++ leBytes 2 i ++ leBytes 4 r.value.toNat ++ leBytes 2 r.temp ++ [0, 0]
  b ++ leBytes 4 (crc32c b)

/-- A copy of the trim region with the generation `gen` (R223). -/
def copyBytes (s : State) (gen : Nat) : List Nat :=
  let h := leBytes 4 0x52544A46 ++ leBytes 2 1 ++ leBytes 2 itemCount ++ leBytes 4 gen ++ leBytes 4 0 ++
    leBytes 4 (s.rd A.GLB_SERIAL_LO) ++ leBytes 4 (s.rd A.GLB_SERIAL_HI) ++ leBytes 8 s.cal.saved ++
    List.replicate 28 0
  h ++ leBytes 4 (crc32c h) ++ allItems.flatMap fun e => recordBytes s e.1 e.2.1 e.2.2

/-- The flash steps of one copy (R226): sector erases, page programs of the records, the header, the verify. The first
page holds the header and the first 12 records. -/
def saveErases : Nat := (64 + 16 * itemCount + 4095) / 4096
def savePages : Nat := (64 + 16 * itemCount + 255) / 256
def saveSteps : Nat := saveErases + savePages + 2

/-- A save can be accepted (R226). -/
def saveOk (s : State) : Bool := inRun s && decide (calState s = 0) && !saveBusy s

/-- SPI_CLK towards a device, in MHz, and whether it is addressed with 4 bytes (R49). -/
def flashClock (x : FlashDev) : Nat := if x.quad.isSome then 100 else 50
def flashWide (x : FlashDev) : Bool := decide (16 * 2 ^ 20 < x.size)

/-- The device and the address of a copy (R62): the top 2 MiB of each device, copy 0 on device 0. Where that one alone is
fitted, copy 1 lies below copy 0; without it, copy 0 has no place. -/
def copyPlace (s : State) (c : Nat) : Option (Nat × Nat × FlashDev) :=
  match c, s.boot.flash0, s.boot.flash1 with
  | 0, x, _ => x.map fun x => (0, x.size - 2 ^ 21, x)
  | _, _, some y => some (1, y.size - 2 ^ 21, y)
  | _, x, none => x.map fun x => (0, x.size - 2 ^ 22, x)

/-- WREN, an instruction that erases or programs, in its form for 3 or 4 address bytes, and RDSR go to the device of copy
`c`, at an offset in the copy. -/
def saveIssue (s : State) (c wide narrow off : Nat) (b : List Nat) : State :=
  match copyPlace s c with
  | none => s
  | some (d, base, x) =>
    let f := fun i w a b => Out.flashOp d (flashClock x) i w a (ofNats b)
    let op := if flashWide x then f wide 4 (base + off) b else f narrow 3 (base + off) b
    ((s.emit (f 0x06 0 0 [])).emit op).emit (f 0x05 0 0 [])

/-- The bytes of a copy that page program `j` writes: the records of page `j`, without the header. -/
def savePage (b : List Nat) (j : Nat) : Nat × List Nat :=
  if j = 0 then (64, slice b 64 192) else (256 * j, (b.drop (256 * j)).take 256)

/-- The step that comes next of the copy `c`, with generation `g`: its instructions leave, and its time limit runs. -/
def saveNext (s : State) (c g : Nat) : State :=
  let n := s.cal.steps
  if savePages + 2 < n then (saveIssue s c 0x21 0x20 (4096 * (saveSteps - n)) []).start .calSave (3000 * ms)
  else if 2 < n then
    let (off, b) := savePage (copyBytes s g) (savePages + 2 - n)
    (saveIssue s c 0x12 0x02 off b).start .calSave (10 * ms)
  else if n = 2 then (saveIssue s c 0x12 0x02 0 ((copyBytes s g).take 64)).start .calSave (10 * ms)
  else s.stop .calSave

/-- GEN of the save in progress: one more than the highest valid GEN before it; an open one where no copy was valid. -/
def newGen (s : State) : Nat :=
  let g := Nat.max (Map.get 0 s.cal.gens 0) (Map.get 0 s.cal.gens 1)
  if s.cal.saving.length = 2 then (if g = 0 then Config.firstGen.toNat else g) else g - 1

/-- The next step of the save. -/
def saveTimer (s : State) : State := match s.cal.saving with | c :: _ => saveNext s c (newGen s) | [] => s

/-- A save starts, with the copy that is invalid or has the lower GEN, and copy 1 where both are equal. -/
def saveStart (s : State) : State :=
  let g0 := Map.get 0 s.cal.gens 0
  let g1 := Map.get 0 s.cal.gens 1
  let order := if g0 < g1 then [0, 1] else [1, 0]
  let saved := tb0 s / secUnits % 2 ^ 48
  (saveTimer { s with cal := { s.cal with saving := order, steps := saveSteps, saved := saved } }).setBit A.CAL_STAT 27 true

/-- The save ends with SAVE_ERR; the copy being written is no longer valid. -/
def saveFail (s : State) : State :=
  match s.cal.saving with
  | [] => s
  | c :: _ =>
    let gens := Map.put 0 s.cal.gens c 0
    let s := { s with cal := { s.cal with saving := [], steps := 0, gens := gens } }
    calEvent ((s.setBit A.CAL_STAT 27 false).stop .calSave) 16

/-- A copy is complete. -/
def saveCopyDone (s : State) (c : Nat) (l : List Nat) : State :=
  let g := newGen s
  let gens := Map.put 0 s.cal.gens c (g + 1)
  let s := { s with cal := { s.cal with gens := gens, saving := l, steps := if l.isEmpty then 0 else saveSteps } }
  if l.isEmpty then calEvent ((((s.wr A.CAL_GEN g).setBit A.CAL_STAT 27 false).stop .calSave)) 8 else saveTimer s

/-- A flash step of the save completes, or its verify fails. A copy without a device has no such step: its time limit ends
the save, and the other copy stays untouched (DEDUCED, assumption 86). -/
def saveStep (s : State) (ok : Bool) : State :=
  match s.cal.saving with
  | [] => s
  | c :: l =>
    if (copyPlace s c).isNone then s
    else if !ok then (if s.cal.steps = 1 then saveFail s else s)
    else if s.cal.steps ≤ 1 then saveCopyDone s c l
    else saveTimer { s with cal := { s.cal with steps := s.cal.steps - 1 } }

/-- A sector or a page stays busy beyond its limit. -/
def saveTimeout (s : State) : State := if saveBusy s && s.due .calSave then saveFail s else s

end Sys2Proof.Machine
end

