-- ==== Sys2Proof/Machine/Stamps.lean ====
section
/-! DEFINITION. The timestamps of a port and their quality flags (R137 to R141). -/

namespace Sys2Proof.Machine

/-- The aggregate line rate of a port (table Reference units and aggregate rates), in units of 10 kb/s. -/
def aggregateRate (s : State) (p : Nat) : Nat :=
  if typeEff s p = 13 then 2578125 * Nat.max 1 (activeLanes s p)
  else [0, 85000000, 42500000, 42500000, 21250000, 21250000, 10625000, 10625000, 5312500, 10312500, 2578125, 1031250,
        125000].getD (typeEff s p) 0

/-- `n` unit intervals of a lane, in 2^-16 ns. -/
def uiTime (mode n : Nat) : Nat := Config.quot (n * 65536 * 100000) (Nat.max 1 (symbolRate mode))

/-- `k` line bits of a port, in 2^-16 ns. -/
def bitTime (s : State) (p k : Nat) : Nat := Config.quot (k * 65536 * 100000) (Nat.max 1 (aggregateRate s p))

/-- The delay of a lane direction in 2^-16 ns: a trim without its chain number. -/
def rxDelay (s : State) (l : Nat) : Nat := dlyRx s l % 2 ^ 24
def txDelay (s : State) (l : Nat) : Nat := dlyTx s l % 2 ^ 24

/-- The ingress timestamp (R138). During a switch-over gap the local time is the held one (R212). -/
def rxTime (s : State) (p : Nat) (st : RxStamp) : Nat :=
  let l := 8 * p + st.lane.val
  let tu := if inGap s then shownTime s 0 else st.tu
  ftAdd tu ((bitTime s p st.k : Int) - (rxDelay s l : Int) - (uiTime (laneMode s l) (s.fld (A.LANE_DESER l) 7 0) : Int)
    - (st.skew : Int) - toSigned 32 (s.rd (A.PTP_RX_ADJ p)))

/-- The lanes that the port uses (PORT.STAT.LANES). -/
def usedLanes (s : State) (p : Nat) : List Nat := (bitsSet (s.fld (A.PORT_STAT p) 23 16) 8).map fun j => 8 * p + j

/-- The egress timestamp of an event message (R139): the time of its reference unit at the serialiser, the lane's DLY_TX,
the line bits to the message timestamp point, and TX_ADJ. -/
def txTime (s : State) (p : Nat) (st : TxStamp) : Nat :=
  let tu := if inGap s then shownTime s 0 else st.tu
  ftAdd tu ((bitTime s p st.k : Int) + (txDelay s (8 * p + st.lane.val) : Int) + toSigned 32 (s.rd (A.PTP_TX_ADJ p)))

/-- A time that lies within the last `ns`. -/
def within (s : State) (t : Option Nat) (ns : Nat) : Bool :=
  match t with
  | some t => decide (s.now ≤ t + ns)
  | none => false

/-- A change of lanes or rates was made at this port. -/
def portChanged (s : State) (p : Nat) : State :=
  { s with ports := Map.put {} s.ports p { Map.get {} s.ports p with changed := some s.now } }

/-- The TSQ of a timestamp that is taken now at port `p` (R140). -/
def portTsq (s : State) (p : Nat) : Nat :=
  let l := usedLanes s p
  bit01 (l.any fun l => !laneFlag s l 21)
  + 2 * bit01 (within s (Map.get ({} : PortHidden) s.ports p).changed (10 * ms)
      || l.any fun l => within s (s.lane l).changed (10 * ms))
  + 4 * bit01 (inGap s)
  + 8 * bit01 (annealHolds s 3 p || l.any fun l => annealHolds s 1 l || annealHolds s 2 l)
  + 16 * bit01 (decide (p ∈ s.lolPorts))
  + 32 * bit01 (decide (tbState s 0 ≠ 2))
  + 64 * bit01 (s.bit A.GLB_BOOT_STAT 14)
  + 128 * bit01 (within s (s.tb 0).stepAt ms)

/-- The timestamp carries a flag other than UNLOCKED or UNCAL. -/
def tsqFlagged (q : Nat) : Bool := decide (q &&& 0x9F ≠ 0)

end Sys2Proof.Machine
end

