-- ==== Sys2Proof/Machine/Ptp.lean ====
section
/-! DEFINITION. PTP on a port: delays, offset samples, received messages and port states (R134 to R136, R142, R145 to R148).
The port-state codes and the messageType codes are those of IEEE 1588 (PRESUMED). -/

namespace Sys2Proof.Machine

def State.ptpOf (s : State) (p : Nat) : PtpHidden := Map.get {} s.ptps p
def putPtp (s : State) (p : Nat) (h : PtpHidden) : State := { s with ptps := Map.put {} s.ptps p h }

/-- Events of the PTP block of port `p`. -/
def ptpEvent (s : State) (p mask : Nat) : State := s.event (A.PTP_EVT p) (A.PTP_EVT_EN p) (704 + p) mask 0

/-- The block runs: enabled, on a port that is UP. -/
def ptpRuns (s : State) (p : Nat) : Bool := ptpEn s p && portUp s p

def dlyOk (s : State) (p : Nat) : Bool := s.bit (A.PTP_STAT p) 23
def setDlyOk (s : State) (p : Nat) (b : Bool) : State := s.setBit (A.PTP_STAT p) 23 b

/-- The port enters UP, or EN becomes 1: no delay exchange has completed (R136). -/
def ptpRestart (s : State) (p : Nat) : State :=
  let h := s.ptpOf p
  let s := putPtp s p { h with sync := none, req := none, dms := 0, ranged := false, syncAt := 0, reqAt := 0 }
  ((setDlyOk s p false).wr (A.PTP_DELAY_MS p) 0).wr (A.PTP_DELAY_SM p) 0

/-- A sample θ of the port (R135, R136), given the TSQ of its timestamps: whether it is accepted. -/
def portSample (s : State) (p tsq : Nat) (theta : Int) : State × Bool :=
  if decide (ptpState s p = 8 ∨ ptpState s p = 9) then
    if tsqFlagged tsq || !dlyOk s p then (ptpEvent (s.add64 (A.PTP_REJECTS_LO p) 1) p 1, false)
    else
      ((s.add64 (A.PTP_SAMPLES_LO p) 1).wr (A.PTP_OFFSET p)
        (ofSigned 32 (clampInt (-(2 ^ 31 - 1)) (2 ^ 31 - 1) theta)), true)
  else (s, false)

/-- TB0 takes the samples of port `p` (R131, R135). -/
def tb0Takes (s : State) (p : Nat) : Bool :=
  decide (srcSel s 0 = 1) && decide (tb0Port s = p) && decide (ptpState s p = 9)

/-! Received messages (IEEE 1588-2019, PRESUMED, assumption 81). The bytes begin with the common header. -/

/-- The fields of the header. -/
def msgKind (b : List Nat) : Nat := b.getD 0 0 % 16
def msgDomain (b : List Nat) : Nat := b.getD 4 0
def msgTwoStep (b : List Nat) : Bool := (b.getD 6 0).testBit 1
def msgCorrection (b : List Nat) : Int := toSigned 64 (beNat (slice b 8 8))
def msgSource (b : List Nat) : List Nat := slice b 20 10
def msgSeq (b : List Nat) : Nat := beNat (slice b 30 2)

/-- The timestamp in the body, with the correctionField, in 2^-16 ns (R147). -/
def msgTime (b : List Nat) : Int :=
  ((beNat (slice b 34 6) * secUnits + beNat (slice b 40 4) * nsUnits : Nat) : Int) + msgCorrection b

/-- The requestingPortIdentity of a Delay_Resp. -/
def msgTarget (b : List Nat) : List Nat := slice b 44 10

/-- The length of a message without its TLVs. -/
def msgLength (kind : Nat) : Nat := if kind = 9 then 54 else if kind = 11 then 64 else 44

/-- A TLV of the type stands in the list. -/
def hasTlv (type : Nat) : Nat → List Nat → Bool
  | 0, _ => false
  | n + 1, b =>
    if b.length < 4 then false
    else decide (beNat (b.take 2) = type) || hasTlv type n (b.drop (4 + beNat (slice b 2 2)))

/-- The message carries a TLV of the type. -/
def msgTlv (type : Nat) (b : List Nat) : Bool := hasTlv type b.length (b.drop (msgLength (msgKind b)))

/-- The FX64 supports the message on port `p` (R145): its type, its domain, no authentication. -/
def msgTaken (s : State) (p : Nat) (b : List Nat) : Bool :=
  decide (msgKind b ∈ ([0, 1, 8, 9, 11, 12] : List Nat)) && decide (msgDomain b = s.fld (A.PTP_CFG p) 23 16) &&
    !msgTlv 0x8009 b

/-- A message that the FX64 does not support is discarded and counted (R145). -/
def ptpDiscard (s : State) (p : Nat) : State := s.add64 (A.PTP_DISCARDS_LO p) 1

/-- A message of one of the types arrives: what it does where the port takes it (R145, R146). -/
def ptpMessage (s : State) (p : Nat) (b : List Nat) (kinds : List Nat) (f : State → State) : State :=
  if !ptpRuns s p then s
  else if !msgTaken s p b then ptpDiscard s p
  else if msgKind b ∈ kinds then f s
  else s

/-- t1 of a Sync (R135, R147): its own in one-step, that of its Follow_Up in two-step. -/
def syncOrigin (b follow : List Nat) : Int :=
  if msgTwoStep b then msgTime follow + msgCorrection b else msgTime b

/-- The sample of a Sync with the origin time `t1`. On a trunk the servo uses the markers. -/
def syncSample (s : State) (p : Nat) (t1 : Int) (st : RxStamp) : State :=
  let t2 := rxTime s p st
  let theta : Int := (t2 : Int) - t1 - (s.ptpOf p).dms
  let (s, ok) := portSample (putPtp s p { s.ptpOf p with sync := some (t1, t2) }) p (portTsq s p) theta
  if ok && tb0Takes s p && !isTrunk s p then phaseSample s 0 theta else s

/-- A Sync, with its Follow_Up in two-step (R135). Without it, or with that of another Sync, there is no sample. -/
def ptpSync (s : State) (p : Nat) (b follow : List Nat) (st : RxStamp) : State :=
  ptpMessage s p b [0] fun s =>
    if !msgTwoStep b then syncSample s p (syncOrigin b follow) st
    else ptpMessage s p follow [8] fun s =>
      if msgSeq follow = msgSeq b then syncSample s p (syncOrigin b follow) st else s

/-- The split of the round trip (R148): δms. -/
def splitDelay (s : State) (p : Nat) (d : Int) : Int :=
  let a := toSigned 32 (s.rd (A.PTP_ASYM_ALPHA p))
  quotInt (d * (1000000000000 + a)) (2000000000000 + a) + toSigned 32 (s.rd (A.PTP_ASYM_FIX p))

/-- A delay as DELAY_MS and DELAY_SM report it; a negative one has no report in the manual. -/
def delayReg (s : State) (d : Int) : Nat × State :=
  if d < 0 then s.draw else (Config.quot d.natAbs 16, s)

/-- 250 µs in 2^-16 ns. -/
def delayMax : Int := 250000 * 65536

/-- The identity of the port in its messages (DESIGN CHOICE, assumption 81): the serial number as clockIdentity, and
p + 1. -/
def portIdentity (s : State) (p : Nat) : List Nat :=
  beBytes 4 (s.rd A.GLB_SERIAL_HI) ++ beBytes 4 (s.rd A.GLB_SERIAL_LO) ++ beBytes 2 (p + 1)

/-- A delay exchange with the response time `t4` is complete (R148). -/
def delayExchange (s : State) (p : Nat) (t4 : Int) : State :=
  let h := s.ptpOf p
  match h.sync, h.req with
  | some (t1, t2), some t3 =>
    let d : Int := (t4 - t1) - ((t3 : Int) - (t2 : Int))
    let dms := splitDelay s p d
    let dsm := d - dms
    let ok := decide (dms ≤ delayMax) && decide (dsm ≤ delayMax)
    let s := putPtp s p { h with req := none, dms := dms, ranged := h.ranged || ok }
    let s := setDlyOk s p ok
    let s := if h.ranged || ok then
        let (a, s) := delayReg s dms
        let (b, s) := delayReg s dsm
        (s.wr (A.PTP_DELAY_MS p) a).wr (A.PTP_DELAY_SM p) b
      else s
    if ok then s else ptpEvent s p 4
  | _, _ => s

/-- A Delay_Resp to the port's latest Delay_Req arrives at a slave (R146 to R148). -/
def ptpDelayResp (s : State) (p : Nat) (b : List Nat) : State :=
  ptpMessage s p b [9] fun s =>
    if decide (8 ≤ ptpState s p) && decide (msgTarget b = portIdentity s p) &&
        decide ((msgSeq b + 1) % 65536 = (s.ptpOf p).reqSeq) then delayExchange s p (msgTime b)
    else s

/-- A message that the FX64 does not support arrives (R145). -/
def ptpUnsupported (s : State) (p : Nat) (b : List Nat) : State := ptpMessage s p b [] id

/-- L1STATE takes a value. -/
def setL1 (s : State) (p v : Nat) : State :=
  if s.fld (A.PTP_STAT p) 26 24 = v then s else ptpEvent (s.setFld (A.PTP_STAT p) 26 24 v) p 2

/-- The L1Sync state that the exchange leads to, 1 to 5, which the manual leaves to IEEE 1588. -/
def drawL1 (s : State) (p : Nat) : State :=
  let (x, s) := s.draw
  setL1 s p (1 + x % 5)

/-- The L1Sync option is on (R144): on a trunk the bit is ignored. -/
def l1On (s : State) (p : Nat) : Bool := s.bit (A.PTP_CFG p) 5 && !isTrunk s p

/-- An Announce or Signaling message goes to the firmware (R146). A Signaling message with the L1_SYNC TLV drives the
L1Sync state. -/
def ptpGeneral (s : State) (p : Nat) (m : List Byte) : State :=
  let b := toNats m
  ptpMessage s p b [11, 12] fun s =>
    let s := putPtp s p { s.ptpOf p with general := m }
    if l1On s p && decide (msgKind b = 12) && msgTlv 0x8001 b then drawL1 s p else s

/-- PTP.CFG values that are rejected (R147). -/
def ptpCfgBad (v : Nat) : Bool :=
  decide (bits v 2 1 = 3) || decide (1 ≤ bits v 31 28 ∧ bits v 31 28 ≤ 8) || decide (1 ≤ bits v 27 24 ∧ bits v 27 24 ≤ 8)

/-- PTP.CFG is written. -/
def writePtpCfg (s : State) (p v : Nat) : State :=
  let old := s.rd (A.PTP_CFG p)
  let s := s.wr (A.PTP_CFG p) (v &&& 0xFFFF0037)
  if !v.testBit 0 then
    let slave := decide (ptpState s p = 9)
    let s := setL1 (s.setFld (A.PTP_STAT p) 31 28 0) p 0
    let s := ptpRestart s p
    if slave then tbPortLost s p else s
  else
    let s := if old.testBit 0 then s else ptpRestart s p
    if !l1On s p then setL1 s p 0
    else if old.testBit 5 && old.testBit 0 then s else drawL1 s p

/-- The port can be selected (R24): its zone is not in reset. -/
def bmcaPort (s : State) (p : Nat) : Bool := !zoneInReset s (zoneOfPort p)

/-- The firmware sets the port states (R134, R146). -/
def bmcaStates (s : State) (l : List (Fin 64 × Fin 10)) : State :=
  l.foldl (fun s e =>
    if ptpEn s e.1.val && decide (e.2.val ≠ 0) && bmcaPort s e.1.val then s.setFld (A.PTP_STAT e.1.val) 31 28 e.2.val
    else s) s

/-- TB0's slave port moves (R134, R424): without a step, and into HOLDOVER where the new port cannot give samples. -/
def movePort (s : State) (p : Nat) : State :=
  let s := s.setFld (tbSrc 0) 21 16 p
  if srcSel s 0 ≠ 1 then s
  else
    let s := clearTheta s 0
    if srcLost s 0 1 then enterHoldover s 0 else s

/-- Best-master selection (R24, R131, R134): the port states, and TB0's slave port while AUTO is 1. A port that stays
selected and leaves SLAVE is lost, UP or not. -/
def bmca (s : State) (port : Option (Fin 64)) (l : List (Fin 64 × Fin 10)) : State :=
  let was := decide (ptpState s (tb0Port s) = 9)
  let s := bmcaStates s l
  let stays := fun s : State => if srcSel s 0 = 1 && was && decide (ptpState s (tb0Port s) ≠ 9) then enterHoldover s 0 else s
  match port with
  | some p =>
    if s.bit (tbSrc 0) 31 && decide (tb0Port s ≠ p.val) && bmcaPort s p.val then movePort s p.val else stays s
  | none => stays s

/-- The port's phase detector reports (R142). -/
def phaseMeasure (s : State) (p phase : Nat) (ppt : Int) : State :=
  if (offeredLane s p).isSome then
    (s.wr (A.PTP_PHASE p) (2 ^ 31 + phase)).wr (A.PTP_FREQ p) (ofSigned 32 ppt)
  else s.wr (A.PTP_PHASE p) 0

end Sys2Proof.Machine
end

