-- ==== Sys2Proof/Machine/Buffers.lean ====
section
/-! DEFINITION. The Crucible's pools, the deep tier's capacity, priority groups and the slag (R244 to R246, R252,
R255, R259 to R263, R272): what the buffers hold is read off the frames and copies they hold. -/

namespace Sys2Proof.Machine

/-! Frames and copies. -/

def putFrame (s : State) (f : Frame) : State :=
  { s with buf := { s.buf with frames := s.buf.frames.map fun g => if g.id = f.id then f else g } }

def addFrame (s : State) (f : Frame) : State :=
  { s with buf := { s.buf with frames := s.buf.frames ++ [f] } }

/-- A fresh number for a frame or a copy. -/
def freshId (s : State) : Nat × State :=
  (s.buf.nextId, { s with buf := { s.buf with nextId := s.buf.nextId + 1 } })

/-- A copy's place changes; it goes behind those that already stand there. -/
def movePkt (s : State) (k : Pkt) : State :=
  { s with buf := { s.buf with pkts := (s.buf.pkts.filter fun j => decide (j.id ≠ k.id)) ++ [{ k with came := s.now }] } }

/-- Copies change their place, and go before all others there. -/
def frontPkts (s : State) (l : List Pkt) : State :=
  { s with buf := { s.buf with pkts := l ++ s.buf.pkts.filter fun j => !(l.any fun k => decide (k.id = j.id)) } }

/-- A copy changes in place. -/
def putPkt (s : State) (k : Pkt) : State :=
  { s with buf := { s.buf with pkts := s.buf.pkts.map fun j => if j.id = k.id then k else j } }

def dropPkt (s : State) (id : Nat) : State :=
  { s with buf := { s.buf with pkts := s.buf.pkts.filter fun j => decide (j.id ≠ id) } }

/-! The banks of the Crucible (R247). The ring of the requesters of a bank's ports: slices 0 to 3, the mover of the deep
buffer, and the auxiliary port. -/

/-- The requester that a port with its pointer at `ptr` grants, of those that request. -/
def ringGrant (ptr : Nat) (reqs : List Nat) : Option Nat :=
  ((List.range 6).map fun i => (ptr + i) % 6).find? fun r => decide (r ∈ reqs)

/-- Where the pointer of a port stands after a clock. -/
def ringNext (ptr : Nat) (reqs : List Nat) : Nat :=
  match ringGrant ptr reqs with
  | some r => (r + 1) % 6
  | none => ptr

/-- A requester writes a cell of a bank, or reads one. A command asks for its cells one by one, so that each is granted
at once. -/
def grantWrite (req : Nat) (s : State) (b : Nat) : State :=
  { s with buf := { s.buf with writePtr := Map.put 0 s.buf.writePtr b (ringNext (Map.get 0 s.buf.writePtr b) [req]) } }
def grantRead (req : Nat) (s : State) (b : Nat) : State :=
  { s with buf := { s.buf with readPtr := Map.put 0 s.buf.readPtr b (ringNext (Map.get 0 s.buf.readPtr b) [req]) } }

/-- The requester of the cells of a received frame: the slice of its port, or the auxiliary port. -/
def requesterOf (f : Frame) : Nat := if f.inPort < 64 then sliceOfPort f.inPort else 5

/-- The bank with the most free cells, given the cells in use in each; ties go to the lower number. -/
def roomiest (load : List Nat) : Nat :=
  ((List.range load.length).foldl (fun (b : Nat) i => if load.getD i 0 < load.getD b 0 then i else b) 0)

/-- The banks of `n` new cells. -/
def placeCells : Nat → List Nat → List Nat
  | 0, _ => []
  | n + 1, load => roomiest load :: placeCells n (load.set (roomiest load) (load.getD (roomiest load) 0 + 1))

/-- A requester writes `n` new cells to the Crucible: their banks. -/
def writeCells (s : State) (req n : Nat) : List Nat × State :=
  let l := placeCells n ((List.range bankCount).map (bankUse s))
  (l, l.foldl (grantWrite req) s)

/-- The cells of a frame are written; the runner of its port counts them (R390). -/
def writeFrame (s : State) (f : Frame) : List Nat × State :=
  let (l, s) := writeCells s (requesterOf f) (frameCells f)
  (l, if f.inPort < 64 then s.pmcEvent (runnerOfPort f.inPort) 0x018 (frameCells f) else s)

/-- The frame holds its Crucible cells from now on, in pool `p`: they are written where they are not there yet. -/
def storeFrame (s : State) (f : Frame) (p : Pool) : State :=
  if f.banks.isEmpty then
    let (l, s) := writeFrame s f
    putFrame s { f with pool := p, banks := l }
  else putFrame s { f with pool := p }

/-! Profiles. -/

/-- The profile of the priority group of port `p` and class `c` (PGSEL). -/
def pgProfile (s : State) (p c : Nat) : Nat := s.fld (A.QM_P_PGSEL p) (3 * c + 2) (3 * c)

/-! Occupancy. -/

/-- The copy waits in its queue or is in transmission. -/
def queued (k : Pkt) : Bool := k.loc = .queue || k.loc = .transmit

/-- The copies of queue `q` of port `e`, the head first. -/
def queuePkts (s : State) (e q : Nat) : List Pkt :=
  s.buf.pkts.filter fun k => queued k && decide (k.e = e) && decide (k.q = q)

/-- The Crucible cells of a copy in its queue, staging included (R252). -/
def pktCru (s : State) (k : Pkt) : Nat :=
  match k.deep with
  | none => pktCells s k
  | some d => d.staged + d.back

/-- The deep cells of a copy. -/
def pktDeep (k : Pkt) : Nat :=
  match k.deep with
  | none => 0
  | some d => d.stored.length + d.reading.length

/-- cru[e][q] and deep[e][q] (R252). -/
def cruUse (s : State) (e q : Nat) : Nat := ((queuePkts s e q).map (pktCru s)).sum
def deepUse (s : State) (e q : Nat) : Nat := ((queuePkts s e q).map pktDeep).sum

/-- Free cells of the staging, headroom, LL and recirculation pools. -/
def freeStage (s : State) : Nat := s.fld A.QM_POOL_STAGE 19 0 - useStage s
def freeHeadroom (s : State) : Nat := s.fld A.QM_POOL_HDRM 19 0 - useHeadroom s
def freeLl (s : State) : Nat := s.fld A.QM_POOL_LL 19 0 - useLl s
def freeRecirc (s : State) : Nat := s.fld A.QM_POOL_RCX 19 0 - useRecirc s

/-! The deep tier (R255, R257 to R259). -/

/-- Events of QM: CRU_UE and HDRM_DROP raise source 770 whatever EVT_EN holds. -/
def qmEvent (s : State) (mask : Nat) : State := s.event A.QM_EVT A.QM_EVT_EN 770 mask 0x12

/-- Events of DBF: CELL_LOST, RETIRED and STACK_FAULT raise source 771 whatever EVT_EN holds. -/
def dbfEvent (s : State) (mask : Nat) : State := s.event A.DBF_EVT A.DBF_EVT_EN 771 mask 0x16

/-- One frame or copy discarded under a slag cause (R272). -/
def slag (s : State) (cause : Nat) : State :=
  (s.add64 (A.QM_SLAG_LO (cause - 1)) 1).pmcEvent 20 0x203 1

/-! Priority groups. -/

def State.pg (s : State) (g : Nat) : PgHidden := Map.get {} s.buf.pgs g
def putPg (s : State) (g : Nat) (h : PgHidden) : State :=
  { s with buf := { s.buf with pgs := Map.put {} s.buf.pgs g h } }

/-- The priority group of a frame: 8 × ingress port + class. -/
def pgOf (f : Frame) : Nat := 8 * f.inPort + f.tc

/-- A priority group is lossless (R260). -/
def lossless (s : State) (g : Nat) : Bool :=
  decide (g < 512) && (isTrunk s (g / 8) || (decide (portType s (g / 8) ≠ 0) && s.bit (A.PORT_CFG (g / 8)) (16 + g % 8)))

/-- The quanta announced in an XOFF frame: 0 acts as 1. -/
def pfcQuanta (s : State) : Nat := Nat.max 1 (s.fld A.QM_PFC_CFG 15 0)

/-- The pause that `q` quanta announce at the port's rate, in ns: 512 bit times each. -/
def pauseNs (s : State) (p q : Nat) : Nat := lineNs s p (64 * q)

/-- The destination address of PFC frames (R113). -/
def pfcAddress : Nat := 0x0180C2000001

def State.eg (s : State) (p : Nat) : EgressHidden := Map.get {} s.buf.egress p
def putEg (s : State) (p : Nat) (h : EgressHidden) : State :=
  { s with buf := { s.buf with egress := Map.put {} s.buf.egress p h } }

def State.port (s : State) (p : Nat) : PortHidden := Map.get {} s.ports p
def putPort (s : State) (p : Nat) (h : PortHidden) : State := { s with ports := Map.put {} s.ports p h }
def State.trunk (s : State) (p : Nat) : TrunkHidden := Map.get {} s.trunks p
def putTrunk (s : State) (p : Nat) (h : TrunkHidden) : State := { s with trunks := Map.put {} s.trunks p h }

/-! The link-block grid of a trunk (R297, R298; DESIGN CHOICE, assumption 78): blocks follow one another at the block
time of the present width from the latest one on. -/

/-- The block time at the present width. -/
def blockLen (s : State) (p : Nat) : Nat := Nat.max 1 (blockTime (activeLanes s p))

/-- The start of the link block that holds TB0 time `t`, and how many blocks it comes after the latest one. -/
def gridOf (s : State) (p t : Nat) : Nat × Nat :=
  let n := blockLen s p
  let b := (s.trunk p).blockAt.getD (tb0 s)
  if b ≤ t then (b + (t - b) / n * n, (t - b) / n) else (b - (b - t + n - 1) / n * n, 0)

/-- The start of the next link block that can leave. -/
def nextBlock (s : State) (p : Nat) : Nat :=
  let b := (gridOf s p (tb0 s)).1
  if (s.trunk p).blockAt = some b then b + blockLen s p else b

/-- The bytes of the records of a class that are not latency-locked and have not left. -/
def streamBytes (s : State) (p c : Nat) : Nat :=
  (((Map.get [] (s.trunk p).streams c).filter fun r => !r.ll).map fun r => r.bytes.length).sum

/-- The records of a trunk wait to leave. -/
def streamsWait (s : State) (p : Nat) : Bool :=
  decide (typeEff s p = 13) && (List.range 8).any fun c => !(Map.get [] (s.trunk p).streams c).isEmpty

/-- The link blocks of a class with `n` bytes more, where its records leave without a pause. -/
def classBlocks (s : State) (p c n : Nat) : Nat := (streamBytes s p c + n + 511) / 512

/-- The link blocks that wait to be sent again (R108). -/
def resendBlocks (h : TrunkHidden) : Nat :=
  match h.goback with | some x => (h.nextSeq + 65536 - x) % 65536 | none => 0

/-- The end of the link blocks that hold what waits on a trunk, with `n` bytes more of class `c`. -/
def streamEnd (s : State) (p c n : Nat) : Nat :=
  let k := ((List.range 8).map fun d => classBlocks s p d (if d = c then n else 0)).sum + resendBlocks (s.trunk p)
  if k = 0 then 0 else nextBlock s p + k * blockLen s p

/-- The start of the next reserved window of the port. -/
def nextWindow (s : State) (p : Nat) : Option Nat :=
  ((windowPkts s p).filterMap fun k => k.ll.map LlInfo.start).foldl
    (fun o t => match o with | none => some t | some u => some (Nat.min t u)) none

/-- A transmission of `n` bytes of class `c` from now would finish before the next window begins (R301): on a trunk with the
last link block of its record, behind what waits there. -/
def beforeWindow (s : State) (p c n : Nat) : Bool :=
  match nextWindow s p with
  | none => true
  | some t => decide ((if typeEff s p = 13 then streamEnd s p c (n + 2) else tb0 s + lineTime s p (n + 20)) ≤ t)

/-- A PFC frame leaves (R113). It is repeated when half of the pause that it announces is over (R262). -/
def emitPfc (s : State) (p c quanta : Nat) : State :=
  let s := (s.emit (.pfc p pfcAddress (s.rd (A.PORT_SMAC_LO p) + s.fld (A.PORT_SMAC_HI p) 15 0 * 2 ^ 32) (2 ^ c) quanta)).add64
    A.QM_PFC_TX_LO 1
  if quanta = 0 then s else s.start (.pfcRepeat p c) (pauseNs s p quanta / 2)

/-- A frame boundary of the port: the PFC frame that waits first leaves, 64 bytes long, unless it would reach into a
reserved window (R262). -/
def servePfc (s : State) (p : Nat) : State :=
  match (s.eg p).pfc with
  | [] => s
  | (c, q) :: l =>
    if (s.eg p).busy.isSome || !portUp s p || !portIslandRuns s p || !beforeWindow s p 0 64 then s
    else emitPfc (putEg s p { s.eg p with pfc := l, busy := some (s.now + lineNs s p 84) }) p c q

/-- The port sends a PFC frame at its next frame boundary; the latest one of a class counts (R262). -/
def sendPfc (s : State) (p c quanta : Nat) : State :=
  servePfc (putEg s p { s.eg p with pfc := (s.eg p).pfc.filter (fun e => decide (e.1 ≠ c)) ++ [(c, quanta)] }) p

/-- Frames and bytes sent, for the counters of the port's runner (R390). -/
def countSent (s : State) (p n : Nat) : State :=
  let g := runnerOfPort p
  (s.pmcEvent g (0x040 + 16 * (p % 4) + 2) 1).pmcEvent g (0x040 + 16 * (p % 4) + 3) n

/-- A latency-locked record goes ahead of the records that have not started and are not latency-locked (R297). -/
def insertRecord (r : StreamRec) : List StreamRec → List StreamRec
  | [] => [r]
  | x :: l => if r.ll && x.fresh && !x.ll then r :: x :: l else x :: insertRecord r l

/-- A record joins the stream of its class on a trunk (R107). -/
def addRecord (s : State) (p c : Nat) (r : StreamRec) : State :=
  let h := s.trunk p
  putTrunk s p { h with streams := Map.put [] h.streams c (insertRecord r (Map.get [] h.streams c)) }

/-- A frame as the bytes of a record: its length, and the frame. -/
def frameRecord (bytes : List Nat) : List Byte := ofNats (beBytes 2 (bytes.length % 2 ^ 14) ++ bytes)

/-- The frame of a timed action leaves: on a trunk as a record of class 7 (R344). -/
def emitAction (s : State) (p : Nat) (d : List Byte) : State :=
  let s := countSent (s.emit (.action p d)) p d.length
  if typeEff s p = 13 then addRecord s p 7 ⟨frameRecord (toNats d), true, false, 0, none, true⟩ else s

/-- A frame boundary of the port, for what goes ahead of its queues: a PFC frame, the frame of a timed action that waits
first, or a general PTP message, unless it would reach into a reserved window (R262, R301, R344, R353). -/
def serveControl (s : State) (p : Nat) : State :=
  let s := servePfc s p
  let may := fun d : List Byte => (s.eg p).busy.isNone && portUp s p && portIslandRuns s p && beforeWindow s p 7 d.length
  let busy := fun d : List Byte => some (s.now + lineNs s p (d.length + 20))
  match (s.eg p).acts, (s.eg p).msgs with
  | d :: l, _ => if may d then emitAction (putEg s p { s.eg p with acts := l, busy := busy d }) p d else s
  | [], d :: l => if may d then (putEg s p { s.eg p with msgs := l, busy := busy d }).emit (.ptp p d 0) else s
  | [], [] => s

/-- The frame counts in its priority group. Latency-locked frames count in none (R253). -/
def frameInPg (f : Frame) : Bool :=
  !f.ll && (match f.pool with | .admitted _ _ _ _ _ _ => true | .held => true | _ => false)

/-- The PG count (R260): its cells in the Crucible, staging and headroom included, and those held by the Riser. -/
def pgCount (s : State) (g : Nat) : Nat :=
  ((s.buf.frames.filter fun f => decide (pgOf f = g) && frameInPg f).map frameCells).sum
  + (s.buf.pkts.map fun k =>
      match k.deep, frameOf s k.fid with
      | some d, some f => if d.pg && decide (pgOf f = g) then d.staged + d.back else 0
      | _, _ => 0).sum

/-- The group is under pressure, given whether it already was (R261). -/
def pgPressed (s : State) (g : Nat) : Bool :=
  lossless s g &&
    (decide (s.fld (A.QM_PGPROF_A (pgProfile s (g / 8) (g % 8))) 15 0 ≤ pgCount s g)
     || decide ((s.pg g).headroom ≠ 0) || s.buf.globalXoff
     || ((s.pg g).pressure && decide (s.fld (A.QM_PGPROF_A (pgProfile s (g / 8) (g % 8))) 31 16 < pgCount s g)))

/-- What a class of a trunk held for its pressure no longer counts as received under it, and while the path runs the withheld
blocks are released in arrival order (R262). -/
def releaseWithheld (s : State) (p c : Nat) : State :=
  let h := s.trunk p
  let h := { h with unreleased := h.unreleased.map fun b => if b.cls = c then { b with pressed := false } else b }
  if portStalled s p then putTrunk s p h
  else
    putTrunk s p { h with released := Map.put 0 h.released c ((Map.get 0 h.released c + Map.get 0 h.withheld c) % 65536),
                          withheld := Map.put 0 h.withheld c 0 }

/-- The frame with this number is written to the buffers, or is gone (R111). -/
def frameWritten (s : State) (fid : Nat) : Bool :=
  match frameOf s fid with
  | none => true
  | some f => decide (f.pool ≠ .none) || s.buf.pkts.any fun k => decide (k.fid = fid) && k.deep.isSome

/-- A partial record of the block's class holds part of it. -/
def partialHolds (h : TrunkHidden) (b : HeldBlock) : Bool :=
  match Map.get none h.partialAt b.cls with | some x => decide (x.block ≤ b.num) | none => false

/-- Every frame with a part in the block has been written or dropped (R111). -/
def blockDone (s : State) (h : TrunkHidden) (b : HeldBlock) : Bool :=
  let holds := fun c i j => decide (c = b.cls ∧ i ≤ b.num ∧ b.num ≤ j)
  !partialHolds h b && !(h.delivered.any fun e => holds e.cls e.first e.last) &&
    !(h.taken.any fun e => holds e.cls e.first e.last && !frameWritten s e.fid)

/-- One block is released, or its release is withheld: one that came under pressure until that ends (R262), any while the path
stands still or in sleep entry. -/
def releaseBlock (s : State) (p : Nat) (b : HeldBlock) : State :=
  let h := s.trunk p
  if b.pressed || portStalled s p || decide (bootState s = 8) then
    putTrunk s p { h with withheld := Map.put 0 h.withheld b.cls (Map.get 0 h.withheld b.cls + 1) }
  else putTrunk s p { h with released := Map.put 0 h.released b.cls ((Map.get 0 h.released b.cls + 1) % 65536) }

/-- The blocks of port `p` whose frames have all been written or dropped are released (R111). -/
def releaseReady (s : State) (p : Nat) : State :=
  let h := s.trunk p
  if h.unreleased.isEmpty then s
  else
    let ready := h.unreleased.filter fun b => blockDone s h b
    let h' := { h with unreleased := h.unreleased.filter fun b => !blockDone s h b,
                       taken := h.taken.filter fun e => !frameWritten s e.fid }
    ready.foldl (fun s b => releaseBlock s p b) (putTrunk s p h')

/-- pause(g) of R252, and what the port of a group does while its pressure lasts (R262): it sends XOFF, and repeats it; a
trunk withholds releases. -/
def pauseGroup (s : State) (g : Nat) : State :=
  if (s.pg g).pressure then s
  else
    let s := putPg s g { s.pg g with pressure := true }
    if isTrunk s (g / 8) || !portUp s (g / 8) then s else sendPfc s (g / 8) (g % 8) (pfcQuanta s)

/-- A class of a port goes on after pressure or a stall (R182, R262): XON, or the withheld blocks of a trunk are released. In
sleep entry XOFF and the withholding stand (R63). -/
def resumeClass (s : State) (p c : Nat) : State :=
  if bootState s = 8 then s
  else if isTrunk s p then releaseWithheld s p c
  else if portUp s p then (sendPfc s p c 0).stop (.pfcRepeat p c)
  else s

/-- The pressure of a group ends (R262). -/
def resumeGroup (s : State) (g : Nat) : State :=
  resumeClass (putPg s g { s.pg g with pressure := false }) (g / 8) (g % 8)

/-- The pressure of a group follows its conditions. -/
def refreshPg (s : State) (g : Nat) : State :=
  if decide (512 ≤ g) then s
  else if (s.pg g).pressure = pgPressed s g then s
  else if pgPressed s g then pauseGroup s g
  else resumeGroup s g

/-- The global condition and the headroom pool follow the free cells (R261); every lossless group follows the global
condition at once. -/
def refreshGlobal (s : State) : State :=
  let free := freeShared s
  let xoff := if s.buf.globalXoff then !decide (s.fld A.QM_GLB_TH 31 16 * 16 < free)
    else decide (free < s.fld A.QM_GLB_TH 15 0 * 16)
  let low := decide (freeHeadroom s * 8 < s.fld A.QM_POOL_HDRM 19 0)
  let s1 := if low && !s.buf.headroomLow then qmEvent { s with buf := { s.buf with headroomLow := true } } 4
    else { s with buf := { s.buf with headroomLow := low } }
  if xoff = s.buf.globalXoff then s1
  else
    let s2 := { s1 with buf := { s1.buf with globalXoff := xoff } }
    let s3 := if xoff then qmEvent s2 1 else s2
    (List.range 512).foldl refreshPg s3

/-- After a change of the cells of group `g`. -/
def refreshPressure (s : State) (g : Nat) : State := releaseReady (refreshPg (refreshGlobal s) g) (g / 8)

/-- `k` cells of group `g` leave the Crucible: they are taken off its headroom use first (R260). -/
def pgLeave (s : State) (g k : Nat) : State :=
  if 512 ≤ g then s else putPg s g { s.pg g with headroom := (s.pg g).headroom - k }

/-- A frame without copies is freed: its cells leave the Crucible. -/
def freeFrame (s : State) (fid : Nat) : State :=
  match frameOf s fid with
  | none => s
  | some f =>
    if s.buf.pkts.any fun k => decide (k.fid = fid) then s
    else
      let s1 := { s with buf := { s.buf with frames := s.buf.frames.filter fun g => decide (g.id ≠ fid) } }
      let s1 := if f.pool = .ll then s1.pmcEvent 20 0x201 (frameCells f) else s1
      if frameInPg f then refreshPressure (pgLeave (s1.pmcEvent 20 0x201 (frameCells f)) (pgOf f) (frameCells f)) (pgOf f)
      else releaseReady (refreshGlobal s1) f.inPort

/-- No cell of the queue is left on the deep path: the queue returns to CRU (R254). -/
def refreshTier (s : State) (e q : Nat) : State :=
  if (queuePkts s e q).any fun k => match k.deep with
      | some d => decide (d.staged ≠ 0 ∨ d.stored ≠ [] ∨ d.reading ≠ []) | none => false
  then s
  else { s with buf := { s.buf with spill := s.buf.spill.filter (· ≠ 17 * e + q) } }

def inSpill (s : State) (e q : Nat) : Bool := decide (17 * e + q ∈ s.buf.spill)

/-- A copy leaves the buffers, and its frame with its last copy (R250). -/
def removePkt (s : State) (k : Pkt) : State :=
  let s1 := dropPkt s k.id
  let s2 := match k.deep, frameOf s k.fid with
    | some d, some f =>
      let s1 := s1.pmcEvent 20 0x201 (d.staged + d.back)
      if d.pg then refreshPressure (pgLeave s1 (pgOf f) (d.staged + d.back)) (pgOf f) else s1
    | _, _ => s1
  freeFrame (refreshTier s2 k.e k.q) k.fid

/-- The credit that a trunk's transmitter holds for a class (R111): between 1 and 32 767 it may send. -/
def trunkCredit (s : State) (p c : Nat) : Bool :=
  let h := s.trunk p
  let d := (Map.get 0 h.cred c + Map.get 0 h.adj c + 65536 - Map.get 0 h.sent c) % 65536
  decide (1 ≤ d) && decide (d ≤ 32767)

end Sys2Proof.Machine
end

