-- ==== Sys2Proof/Machine/Lld.lean ====
section
/-! DEFINITION. Latency-locked delivery: targets, windows, the share, the reports of a frame that misses its target,
and ALL_OR_NONE (R293 to R312). -/

namespace Sys2Proof.Machine

/-- Events of LLD: PARTIAL raises source 775 whatever EVT_EN holds. -/
def lldEvent (s : State) (mask : Nat) : State := s.event A.LLD_EVT A.LLD_EVT_EN 775 mask 16

/-- The entry L_i_e for a frame that reaches the scheduler now: a write applies from 1 µs after it. -/
def lldEntry (s : State) (i e : Nat) : Nat :=
  match s.buf.lOld.find? fun o => decide (o.1 = A.LLD_L i e) && decide (s.now < o.2.2 + us) with
  | some o => o.2.1
  | none => s.rd (A.LLD_L i e)

/-- A target after the TB0 steps that the frame lived through (R310). -/
def afterSteps (s : State) (f : Frame) (t : Nat) : Nat :=
  s.buf.steps.foldl (fun t e => if f.id < e.2.2 ∧ f.tRef < e.1 ∧ e.1 ≤ t then ftAdd t e.2.1 else t) t

/-- The target of a frame (R294): its reference time plus the L of an entry. -/
def lldTarget (s : State) (f : Frame) (entry : Nat) : Nat :=
  afterSteps s f (ftAdd f.tRef ((bits entry 19 0 * nsUnits : Nat) : Int))

/-- The start granularity G of a type in 2^-16 ns (R296). -/
def startGrain (t : Nat) : Nat :=
  Config.quot ([0, 8, 16, 16, 32, 32, 64, 64, 128, 64, 256, 640, 1600, 32, 0, 0].getD t 0 * nsUnits) 100

/-- The length on the line of a copy: with the spread tag, where it carries one. -/
def lineLen (k : Pkt) (f : Frame) : Nat := frameLen f + (if k.number.isSome then 12 else 0)

/-- The window of a frame on an Ethernet port that starts at `t` (R298). -/
def ethWindow (s : State) (p n t : Nat) : Nat × Nat :=
  let g := startGrain (typeEff s p)
  let start := ftAdd t (-((g + lineTime s p 8 : Nat) : Int))
  (start, start + lineTime s p (n + 20) + g)

/-- A payload byte on a lane takes 8.25 UI, which is 0.32 ns (table Start granularity). -/
def tickUnits (k : Nat) : Nat := k * nsUnits * 8 / 25

/-- The tick, from the start of a link block on, at which the byte at payload offset `o` behind its length word leaves:
eight ticks a row of 66-bit blocks, over `n` lanes from place `i` of the active set (R103, R107). -/
def pointTick (n i o : Nat) : Nat := (i + (14 + o) / 8) / n * 8 + (14 + o) % 8

/-- The lane markers that begin in the block before the tick push it back: four blocks on each lane. -/
def afterMarker (s : State) (p b k : Nat) : Nat :=
  match (s.trunk p).markerAt with
  | none => b + tickUnits k
  | some m => b + tickUnits (if b ≤ m ∧ m ≤ b + tickUnits k then k + 32 else k)

/-- The payload offset in the block that starts at `b`, with place `i`, whose timestamp point falls earliest at or after
`t`: the lowest of them, with the time of the point. -/
def placeIn (s : State) (p b i t : Nat) : Option (Nat × Nat) :=
  let n := Nat.max 1 (activeLanes s p)
  (List.range 510).foldl (fun x o =>
    let u := afterMarker s p b (pointTick n i o)
    if u < t then x else match x with | none => some (o, u) | some y => if u < y.2 then some (o, u) else x) none

/-- Where a record whose timestamp point has the target `t` starts (R297): the block, the payload offset, and the time of
the point. -/
def startPlace (s : State) (p t : Nat) : Nat × Nat × Nat :=
  let n := Nat.max 1 (activeLanes s p)
  let (b, k) := gridOf s p t
  let i := fun k => ((s.trunk p).stripe + 66 * k + 66 * (n - 1)) % n
  match placeIn s p b (i k) t with
  | some (o, u) => (b, o, u)
  | none =>
    let b := b + blockLen s p
    let (o, u) := (placeIn s p b (i (k + 1)) t).getD (0, b)
    (b, o, u)

/-- The window on a trunk (R298): whole link blocks, from the block in which the record starts to the last that holds
part of it. -/
def trunkWindow (s : State) (p n t : Nat) : Nat × Nat :=
  let (b, o, _) := startPlace s p t
  (b, b + (o + 2 + n + 511) / 512 * blockLen s p)

def lldWindow (s : State) (k : Pkt) (f : Frame) (t : Nat) : Nat × Nat :=
  if typeEff s k.e = 13 then trunkWindow s k.e (lineLen k f) t else ethWindow s k.e (lineLen k f) t

/-- The first start of a window at or after `t`: on a trunk, that of a link block. -/
def windowFrom (s : State) (p t : Nat) : Nat :=
  if typeEff s p ≠ 13 then t
  else let b := (gridOf s p t).1; if b < t then b + blockLen s p else b

/-- A TB0 step moves the times of the line with it: the line itself goes on (R310). -/
def trunkStep (s : State) (d : Int) : State :=
  { s with trunks := s.trunks.map fun e =>
      (e.1, { e.2 with blockAt := e.2.blockAt.map (ftAdd · d), markerAt := e.2.markerAt.map (ftAdd · d) }) }

/-- The end of the last window reserved on the port. -/
def lastWindowEnd (s : State) (p : Nat) : Nat :=
  ((portWindows s p).map fun w => w.1 + w.2).foldl Nat.max 0

/-- The share limit of a window of length `len` from `start` on (R300): no interval of 10 µs holds more. -/
def shareOk (s : State) (p start len : Nat) : Bool :=
  let used := (((portWindows s p).filter fun w =>
    decide (start < w.1 + 10 * us * nsUnits) && decide (w.1 ≤ start)).map (·.2)).sum
  let share := s.fld (A.LLD_P_CFG p) 6 0
  decide (share ≠ 0) && decide ((used + len) * 1000 ≤ share * (10 * us * nsUnits))

/-- The end of what the port transmits, on TB0 in 2^-16 ns: on a trunk with the link blocks that hold what waits there. -/
def busyEnd (s : State) (p : Nat) : Nat :=
  let line := match (s.eg p).busy with
    | some t => tb0 s + (t - s.now) * nsUnits
    | none => 0
  if typeEff s p = 13 then Nat.max line (streamEnd s p 0 0) else line

/-- The copy's ingress TSQ carries HOLD (R309). -/
def tsqHold (f : Frame) : Bool := f.tsq.testBit 2

/-- The first cause of R304 for which a copy gets no window at its target; 0 where it gets one. -/
def reserveCause (s : State) (k : Pkt) (f : Frame) (w : LlInfo) : Nat :=
  let (tgt, start, stop) := (w.tgt, w.start, w.stop)
  if !w.entry.testBit 31 then 2
  else if tsqHold f && s.bit (A.LLD_P_CFG k.e) 31 then 3
  else if tb0 s + 1010 * us * nsUnits < tgt then 4
  else if tgt ≤ tb0 s then 5
  else if !portUp s k.e then 6
  else if start < lastWindowEnd s k.e then 7
  else if !shareOk s k.e start (stop - start) then 8
  else if 256 ≤ (windowPkts s k.e).length then 9
  else if start < busyEnd s k.e then 10
  else 0

/-- The causes whose outcome LATE_ACT decides. -/
def lateCause (c : Nat) : Bool := decide (c = 5 ∨ c = 7 ∨ c = 10 ∨ c = 11 ∨ c = 12)

/-- LATE_ACT of the entry as it read when the copy reached the scheduler. -/
def lateAct (w : LlInfo) : Bool := w.entry.testBit 30

/-- One record of the late log (R305, R306). -/
def lldLog (s : State) (sent : Bool) (cause : Nat) (f : Frame) (e tgt late : Nat) (aon : Bool) : State :=
  let n := s.fld A.LLD_LOG_STAT 5 0
  let w0 := 2 ^ 31 + bit01 sent * 2 ^ 30 + cause * 2 ^ 26 + f.inPort * 2 ^ 19 + e * 2 ^ 13
  let s := (s.wr (A.LLD_LOG n 0) w0).wrTime (A.LLD_LOG n 1) tgt
  let s := (s.wr (A.LLD_LOG n 4) late).wr (A.LLD_LOG n 5) (bit01 aon * 2 ^ 8 + f.tsq % 256)
  let s := (s.wr (A.LLD_LOG n 6) 0).wr (A.LLD_LOG n 7) 0
  (s.setFld A.LLD_LOG_STAT 5 0 (n + 1)).setFld A.LLD_LOG_STAT 31 16 (s.fld A.LLD_LOG_STAT 31 16 + 1)

/-- The counter of a cause. -/
def countCause (s : State) (c : Nat) : State :=
  (s.add64 (A.LLD_CAUSE_LO (c - 1)) 1).pmcEvent 21 0x283 1

/-- A copy that is not delivered counts in LDL.DROPp where R292 says so: its port, its admission or a quench. -/
def ldlDrop (s : State) (p : Nat) : State :=
  (s.add64 (A.LDL_DROP_LO p) 1).event A.LDL_EVT A.LDL_EVT_EN 774 8 0

/-- The counts of a drop (R305): its cause, the port's Pp_DROP, the event, and slag under the given slag cause. -/
def countDrop (s : State) (e cause slagCause : Nat) : State :=
  lldEvent (slag ((countCause s cause).add64 (A.LLD_P_DROP_LO e) 1) slagCause) 2

/-- A copy is withheld under ALL_OR_NONE (R307). -/
def countWithheld (s : State) (e : Nat) : State :=
  lldEvent (slag ((countCause s 13).add64 (A.LLD_P_WITHHELD_LO e) 1) 13) 8

/-! ALL_OR_NONE. -/

def aonOf (s : State) (fid : Nat) : Option AonHidden := s.buf.aons.find? fun a => decide (a.fid = fid)

def endAon (s : State) (fid : Nat) : State :=
  { s with buf := { s.buf with aons := s.buf.aons.filter fun a => decide (a.fid ≠ fid) } }

/-- The failing copy of the lowest port. -/
def lowestFailing : List (Nat × Nat × Nat) → Option (Nat × Nat × Nat) → Option (Nat × Nat × Nat)
  | [], o => o
  | x :: l, none => lowestFailing l (if x.2.1 ≠ 0 then some x else none)
  | x :: l, some y => lowestFailing l (if x.2.1 ≠ 0 ∧ x.1 < y.1 then some x else some y)

/-- The commit point of an ALL_OR_NONE frame (R307). -/
def aonCommit (s : State) (f : Frame) (a : AonHidden) : State :=
  let s := endAon s f.id
  match lowestFailing a.seen none with
  | none =>
    (s.buf.pkts.filter fun k => decide (k.fid = f.id)).foldl (fun s k =>
      match k.ll with
      | some w => putPkt s { k with ll := some { w with state := .granted, committed := true } }
      | none => s) s
  | some (e, c, tgt) =>
    let s := lldLog s false c f e tgt 0 true
    (s.buf.pkts.filter fun k => decide (k.fid = f.id) && k.ll.isSome).foldl (fun s k =>
      removePkt (countWithheld s k.e) k) s

/-- One copy of an ALL_OR_NONE frame has been evaluated; at the last one, the commit point. -/
def aonSeen (s : State) (f : Frame) (e cause tgt : Nat) : State :=
  match aonOf s f.id with
  | none => s
  | some a =>
    let a := { a with seen := a.seen ++ [(e, cause, tgt)] }
    if a.total ≤ a.seen.length then aonCommit s f a
    else { s with buf := { s.buf with aons := s.buf.aons.map fun b => if b.fid = f.id then a else b } }

/-- A tentative copy fails after all: its evaluation is corrected. -/
def aonFails (s : State) (fid e cause tgt : Nat) : State :=
  { s with buf := { s.buf with aons := s.buf.aons.map fun a =>
      if a.fid = fid then { a with seen := a.seen.erase (e, 0, tgt) ++ [(e, cause, tgt)] } else a } }

/-- A copy that was to be sent late is dropped after all, for the cause that it was counted under (R304, R305). One that
a port out of UP drops, or that a quench frees, is reported under DOWN instead (R311; DESIGN CHOICE, assumption 79). -/
def dropOverdue (s : State) (k : Pkt) (f : Frame) (w : LlInfo) (cause slagCause : Nat) : State :=
  let down := decide (cause = 6)
  let s := if down then countCause s 6 else s
  lldLog (removePkt (lldEvent (slag (s.add64 (A.LLD_P_DROP_LO k.e) 1) slagCause) 2) k) false
    (if down then 6 else w.cause) f k.e w.tgt 0 w.aon

/-- The copy's cause has been counted: it is to be sent late. -/
def overdue (k : Pkt) : Option LlInfo :=
  match k.ll with
  | some w => if w.cause = 0 then none else some w
  | none => none

/-- The target of a copy: the one its window was asked for, or the one it will ask for. -/
def copyTarget (s : State) (k : Pkt) (f : Frame) : Nat :=
  match k.ll with
  | some w => if w.state = .waiting then lldTarget s f w.entry else w.tgt
  | none => lldTarget s f (lldEntry s f.inPort k.e)

def isTentative (k : Pkt) : Bool :=
  match k.ll with | some w => w.state = .tentative | none => false

/-- A latency-locked copy is dropped for a cause (R304, R305). A copy whose frame waits for its commit point is
logged there. -/
def lldDrop (s : State) (k : Pkt) (cause slagCause : Nat) : State :=
  match frameOf s k.fid with
  | none => s
  | some f =>
    match overdue k with
    | some w => dropOverdue s k f w cause slagCause
    | none =>
    let tgt := copyTarget s k f
    let s := removePkt (countDrop s k.e cause slagCause) k
    let s := if cause = 3 then lldEvent s 4 else s
    match aonOf s f.id with
    | some _ => if isTentative k then aonFails s f.id k.e cause tgt else aonSeen s f k.e cause tgt
    | none =>
      let aon := (k.ll.map LlInfo.aon).getD false
      let s := lldLog s false cause f k.e tgt 0 aon
      if aon && (k.ll.map LlInfo.committed).getD false then lldEvent s 16 else s

/-- A copy has missed its target for a cause that LATE_ACT decides: it waits to be sent late, or it is dropped. After
the commit point of ALL_OR_NONE, LATE_ACT does not apply (R307). -/
def lldMiss (s : State) (k : Pkt) (w : LlInfo) (cause : Nat) : State :=
  if w.cause ≠ 0 then putPkt s { k with ll := some { w with state := .late } }
  else if lateCause cause && lateAct w && !w.aon then
    let ms1 := tb0 s - w.tgt
    let wait := if w.tgt ≤ tb0 s then ms - Nat.min ms (ms1 / nsUnits) else ms + (w.tgt - tb0 s) / nsUnits
    putPkt (countCause s cause) { k with ll := some { w with state := .late, cause := cause, expiry := s.now + wait } }
  else lldDrop (putPkt s { k with ll := some w }) { k with ll := some w } cause (if cause = 6 then 5 else 13)

/-- A copy asks for its window at its target (R299). One that a migration hold, or an island's loss of lock, made late
misses it under INCOMPLETE (R308, R310). -/
def reserveAt (s : State) (k : Pkt) (f : Frame) (w : LlInfo) : State :=
  let tgt := lldTarget s f w.entry
  let (start, stop) := lldWindow s k f tgt
  let w := { w with tgt := tgt, start := start, stop := stop }
  let c := reserveCause s k f w
  let c := if c = 5 ∧ k.waited = true then 11 else c
  if w.aon && !w.committed then
    if c = 0 then aonSeen (putPkt s { k with ll := some { w with state := .tentative } }) f k.e 0 tgt
    else lldDrop s { k with ll := some w } c (if c = 6 then 5 else 13)
  else if c = 0 then putPkt s { k with ll := some { w with state := .granted } }
  else lldMiss s k w c

/-- The starts at which a late window can first become possible, rising: when the port is free of what it sends and of the
windows before, and when a window of before leaves the interval of the share. -/
def lateStarts (s : State) (p : Nat) : List Nat :=
  let base := Nat.max (tb0 s) (Nat.max (lastWindowEnd s p) (busyEnd s p))
  let later := ((portWindows s p).map fun w => w.1 + 10 * us * nsUnits).filter fun t => decide (base < t)
  ((base :: later).map (windowFrom s p)).insertionSort (· ≤ ·)

/-- The length of a window of the copy that starts at `t`. -/
def windowLen (s : State) (k : Pkt) (f : Frame) (t : Nat) : Nat :=
  let (a, b) := lldWindow s k f t
  b - a

/-- A late copy asks for the earliest window that meets every condition but its target, and that begins within 1 ms of
it (R304). -/
def reserveLate (s : State) (k : Pkt) (f : Frame) (w : LlInfo) : State :=
  if !decide (s.now < w.expiry) || !portUp s k.e || decide (256 ≤ (windowPkts s k.e).length) then s
  else
    match (lateStarts s k.e).find? fun t =>
        decide (t ≤ w.tgt + ms * nsUnits) && shareOk s k.e t (windowLen s k f t) with
    | some t => putPkt s { k with ll := some { w with start := t, stop := t + windowLen s k f t, state := .granted } }
    | none => s

/-- One list of numbers comes before another in the order of their first difference. -/
def lexBefore : List Nat → List Nat → Bool
  | a :: l, b :: r => decide (a < b) || (decide (a = b) && lexBefore l r)
  | _, _ => false

/-- The order of copies that reach the scheduler together (R299): t_tgt, then the ingress index, then the slice. -/
def reserveBefore (s : State) (a b : Pkt) : Bool :=
  match frameOf s a.fid, frameOf s b.fid with
  | some f, some g => lexBefore [copyTarget s a f, f.inPort, f.slice] [copyTarget s b g, g.inPort, g.slice]
  | _, _ => false

/-- Of the copies that wait for their first window, those that came first; of them the one that R299 puts first. What
reaches the scheduler in one ns counts as together (DESIGN CHOICE, assumption 78). -/
def firstWaiting (s : State) (l : List Pkt) : Option Pkt :=
  let waits := l.filter fun k => match k.ll with | some w => w.state = .waiting | none => false
  let came := fun k : Pkt => (k.ll.map LlInfo.since).getD 0
  match waits with
  | [] => none
  | k :: r => some ((r.filter fun j => decide (came j = came k)).foldl (fun b j => if reserveBefore s j b then j else b) k)

/-- The next copy of queue 16 that has no window: those that wait for their first come first. -/
def nextReserve (s : State) (p : Nat) : Option Pkt :=
  let l := s.buf.pkts.filter fun k => decide (k.e = p) && decide (k.q = 16) && k.loc = .queue
  match firstWaiting s l with
  | some k => some k
  | none => l.find? fun k => match k.ll with | some w => w.state = .late | none => false

/-- The scheduler takes the next request of port `p` (R299). -/
def lldReserve (s : State) (p : Nat) : State :=
  match nextReserve s p with
  | none => s
  | some k =>
    match frameOf s k.fid, k.ll with
    | some f, some w => if w.state = .late then reserveLate s k f w else reserveAt s k f w
    | _, _ => s

/-- Windows that started more than 10 µs ago no longer count in the share. -/
def pruneWindows (s : State) : State :=
  let l := s.buf.windows.filter fun w => decide (tb0 s < w.2.1 + 10 * us * nsUnits)
  { s with buf := { s.buf with windows := l } }

/-- Late copies whose time has run out are dropped (R304). -/
def lldExpire (s : State) (p : Nat) : State :=
  (s.buf.pkts.filter fun k => decide (k.e = p) && decide (k.q = 16) && k.loc = .queue &&
      (match k.ll with
       | some w => decide (w.state = .late) && decide (w.expiry ≤ s.now)
       | none => false)).foldl (fun s k =>
    match frameOf s k.fid, k.ll with
    | some f, some w => dropOverdue s k f w 0 13
    | _, _ => s) s

/-- The target and window of a copy after a TB0 step by `d` at `x` (R310). -/
def stepPkt (s : State) (x : Nat) (d : Int) (k : Pkt) : Pkt :=
  match frameOf s k.fid, k.ll with
  | some f, some w =>
    if f.tRef < x ∧ x ≤ w.tgt ∧ w.state ≠ .waiting then
      { k with ll := some { w with tgt := ftAdd w.tgt d, start := ftAdd w.start d, stop := ftAdd w.stop d } }
    else k
  | _, _ => k

/-- The share evaluated again for a granted copy: over the limit it is dropped under SHARE. -/
def reshare (s : State) (k : Pkt) : State :=
  match k.ll with
  | none => s
  | some w =>
    let used := (((portWindows s k.e).filter fun v =>
      decide (w.start < v.1 + 10 * us * nsUnits) && decide (v.1 ≤ w.start)).map (·.2)).sum
    if s.fld (A.LLD_P_CFG k.e) 6 0 * (10 * us * nsUnits) < used * 1000 then lldDrop s k 8 13 else s

/-- A TB0 step by `d` moves the target and window of every frame whose t_ref is before X and whose target is not
(R310); the share is evaluated again. -/
def lldStep (s : State) (x : Nat) (d : Int) : State :=
  let l := s.buf.pkts.map (stepPkt s x d)
  let steps := s.buf.steps.filter fun e => s.buf.frames.any fun f => decide (f.id < e.2.2)
  let s := trunkStep { s with buf := { s.buf with pkts := l, steps := steps ++ [(x, d, s.buf.nextId)] } } d
  (s.buf.pkts.filter fun k => k.loc = .queue &&
    (match k.ll with | some w => w.state = .granted || w.state = .tentative | none => false)).foldl
    reshare s

end Sys2Proof.Machine
end

