-- ==== Sys2Proof/Machine/Spread.lean ====
section
/-! DEFINITION. LAG groups: member selection, the numbering of SPREAD flows, pinning and migration (R274 to R283). -/

namespace Sys2Proof.Machine

/-- Events of SPR. -/
def sprEvent (s : State) (mask : Nat) : State := s.event A.SPR_EVT A.SPR_EVT_EN 772 mask 0

/-- The first eligible slot at or after `m`, wrapping from 15 to 0. -/
def firstEligible (s : State) (g m : Nat) : Option Nat :=
  ((List.range 16).map fun i => (m + i) % 16).find? fun i => slotEligible s g i

/-- The slot of a group that has the port, in an enabled slot. -/
def memberOf (s : State) (g p : Nat) : Option Nat :=
  (List.range 16).find? fun m => slotEn s g m && decide (slotPort s g m = p)

/-- The group of which the port is a member. -/
def groupOf (s : State) (p : Nat) : Option Nat := (List.range 32).find? fun g => (memberOf s g p).isSome

/-- The bucket of a frame in a PINNED group (R280): the CRC-32C over the key fields that HASH_SEL selects. -/
def bucketOf (s : State) (g : Nat) (f : Frame) : Nat :=
  let sel := s.fld (A.SPR_GRP_CFG g) 23 16
  crc32c ((List.range 8).flatMap fun i =>
    if sel.testBit i && !(i = 6 && f.frag) then f.fields.getD i [] else []) % 256

/-- The pinned slot of a bucket, in the group's pin table (R280). -/
def pinnedSlot (s : State) (g b : Nat) : Nat := s.fld (A.TBL_PIN g (b / 4)) (8 * (b % 4) + 3) (8 * (b % 4))

/-- The effective member of a bucket (R281). -/
def effMember (s : State) (g b : Nat) : Option Nat := firstEligible s g (pinnedSlot s g b)

/-- The number of the next frame of flow (group, class) of a SPREAD group, and RST (R278). -/
def flowOf (s : State) (g c : Nat) : Nat × Bool := Map.get (0, true) s.buf.flows (8 * g + c)

/-- A frame of the flow takes its number. -/
def takeNumber (s : State) (g c : Nat) : (Nat × Bool) × State :=
  let (n, r) := flowOf s g c
  ((n, r), { s with buf := { s.buf with flows := Map.put (0, true) s.buf.flows (8 * g + c) ((n + 1) % 65536, false) } })

/-- The numbering of every flow of the group restarts at 0 with RST (R278). -/
def restartFlows (s : State) (g : Nat) : State :=
  { s with buf := { s.buf with flows := s.buf.flows.filter fun e => decide (e.1 / 8 ≠ g) } }

/-- The copies of a bucket that wait on, or leave, a member's queue. -/
def bucketPkts (s : State) (g b : Nat) : List Pkt :=
  s.buf.pkts.filter fun k =>
    queued k && (match k.via with | some (h, _, some c) => decide (h = g ∧ c = b) | _ => false)

/-- Some frame of the bucket is on member `m`; on a member other than `m`. -/
def onMember (s : State) (g b m : Nat) : Bool :=
  (bucketPkts s g b).any fun k => match k.via with | some (_, j, _) => decide (j = m) | none => false
def onOther (s : State) (g b m : Nat) : Bool :=
  (bucketPkts s g b).any fun k => match k.via with | some (_, j, _) => decide (j ≠ m) | none => false

def holdOf (s : State) (g b : Nat) : Option MigHold :=
  s.buf.migs.find? fun h => decide (h.g = g ∧ h.bucket = b)

/-- The hold limit in µs (R282); 0 disables holds. -/
def migTmo (s : State) : Nat := s.fld A.SPR_MIG_CFG 15 0

/-- The bucket's member as it stands is noted. -/
def setMember (s : State) (g b : Nat) (m : Option Nat) : State :=
  { s with buf := { s.buf with members := Map.put 0 s.buf.members (256 * g + b) (m.elim 0 (· + 1)) } }

/-- A hold begins against the former member. -/
def beginHold (s : State) (g b old : Nat) (eff : Option Nat) : State :=
  let s := { s with buf := { s.buf with migs := s.buf.migs ++ [MigHold.mk g b old eff s.now]
                                        moved := s.buf.moved.filter (· ≠ 256 * g + b) } }
  (s.add64 A.SPR_MIG_HOLDS_LO 1).start (.migration g b) (migTmo s * us)

/-- The bucket goes on without a hold: its frames are counted as long as others remain on the former member (R282). -/
def markMoved (s : State) (g b : Nat) : State :=
  { s with buf := { s.buf with moved := (256 * g + b) :: s.buf.moved.filter (· ≠ 256 * g + b) } }

/-- The frames held for a bucket go to admission in arrival order, ahead of those that wait there, and the hold ends. -/
def releaseHold (s : State) (g b : Nat) : State :=
  let l := s.buf.pkts.filter fun k => decide (k.loc = .migration g b)
  let m := s.buf.migs.filter fun h => !decide (h.g = g ∧ h.bucket = b)
  let s := { s with buf := { s.buf with migs := m, moved := s.buf.moved.filter (· ≠ 256 * g + b) } }.stop (.migration g b)
  frontPkts s (l.map fun k => { k with loc := .toAdmit, waited := true, came := s.now })

/-- The member that the bucket was on: the one noted last, or the one on which its last frame waits. -/
def formerMember (s : State) (g b : Nat) : Option Nat :=
  match Map.get 0 s.buf.members (256 * g + b) with
  | 0 => ((bucketPkts s g b).getLast?.bind Pkt.via).map fun v => v.2.1
  | n + 1 => some n

/-- A bucket whose effective member changed (R282): a hold while frames remain on a member's queue, a restarted hold,
or a move without a hold, for which what is held is released at once. -/
def checkBucket (s : State) (g b : Nat) : State :=
  let eff := effMember s g b
  match holdOf s g b with
  | some h =>
    if h.eff = eff then s
    else if migTmo s = 0 then setMember (markMoved (releaseHold s g b) g b) g b eff
    else
      let h' := { h with old := h.eff.getD h.old, eff := eff, since := s.now }
      let l := s.buf.migs.map fun j => if j.g = g ∧ j.bucket = b then h' else j
      setMember ({ s with buf := { s.buf with migs := l } }.start (.migration g b) (migTmo s * us)) g b eff
  | none =>
    if Map.get 0 s.buf.members (256 * g + b) = eff.elim 0 (· + 1) then s
    else
      match formerMember s g b with
      | none => setMember s g b eff
      | some m =>
        if (bucketPkts s g b).isEmpty || decide (some m = eff) then setMember s g b eff
        else if migTmo s = 0 ∨ 256 ≤ s.buf.migs.length then setMember (markMoved s g b) g b eff
        else setMember (beginHold s g b m eff) g b eff

/-- After any change that can move a bucket: every bucket that carries frames, or holds them, is looked at. -/
def refreshMigration (s : State) : State :=
  (s.buf.members.map Prod.fst ++ s.buf.migs.map fun h : MigHold => 256 * h.g + h.bucket).foldl (fun s k => checkBucket s (k / 256) (k % 256)) s

/-- Frames moved without a hold are counted (R282). -/
def countMoved (s : State) (n : Nat) : State :=
  if n = 0 then s else sprEvent (s.add64 A.SPR_MIG_OVF_LO n) 8

/-- The cells that a hold keeps. -/
def holdCells (s : State) (g b : Nat) : Nat :=
  ((s.buf.pkts.filter fun k => decide (k.loc = .migration g b)).map (pktCells s)).sum

/-- A frame is dropped because its group has no eligible member (R276). -/
def dropNoMember (s : State) (k : Pkt) : State :=
  removePkt (sprEvent (slag (s.add64 A.SPR_NO_MEMBER_LO 1) 14) 1) k

/-- A drained member leaves its group (R283): no frame assigned through the group remains on its queues. -/
def memberGone (s : State) (g m : Nat) : Bool :=
  grpSpread s g && slotEn s g m && slotDrain s g m &&
    !(s.buf.pkts.any fun k => queued k && (match k.via with | some (h, j, _) => decide (h = g ∧ j = m) | none => false))

def memberLeaves (s : State) (g m : Nat) : State :=
  sprEvent ((s.setBit (A.SPR_GRP_MEM g m) 31 false).setBit (A.SPR_GRP_MEM g m) 30 false) 2

end Sys2Proof.Machine
end

