-- ==== Sys2Proof/Machine/Egress.lean ====
section
/-! DEFINITION. Egress: eligibility, the choice of a queue, the shapers, and the start and end of a transmission
(R266 to R270, R277, R301, R302). -/

namespace Sys2Proof.Machine

/-- The CRC-32 of IEEE 802.3 as the four bytes of an FCS. -/
def fcsOf (l : List Nat) : List Nat := leBytes 4 (l.foldl (crcByte 0xEDB88320) 0xFFFFFFFF ^^^ 0xFFFFFFFF)

/-- The FCS at the end of the bytes is correct. -/
def fcsGood (l : List Nat) : Bool := decide (4 ≤ l.length) && decide (fcsOf (l.take (l.length - 4)) = l.drop (l.length - 4))

/-- The spread tag that a copy carries (R277). -/
def tagBytes (s : State) (k : Pkt) (f : Frame) : List Nat :=
  match k.number, k.via with
  | some (n, rst), some (g, m, _) =>
    [0x88, 0xB5, 0x01, 0x10 + bit01 rst * 8] ++ beBytes 2 (s.fld A.GLB_NODE_ID 15 0)
      ++ beBytes 2 ((s.fld (A.SPR_GRP_CFG g) 11 0 + f.tc) % 4096) ++ beBytes 2 n ++ [f.tc, m]
  | _, _ => []

/-- The bytes that leave (R277, R270): the tag behind the source address, and a correct FCS, or its complement where
the frame turned out to be bad. -/
def egressBytes (s : State) (k : Pkt) (f : Frame) : List Nat :=
  let b := toNats f.bytes
  let body := b.take 12 ++ tagBytes s k f ++ (b.take (b.length - 4)).drop 12
  let fcs := fcsOf body
  body ++ (if f.bad then fcs.map fun x => 255 - x else fcs)

/-! Shapers (R267). Tokens are counted in 1/8000 byte, so that a fill of RATE Mb/s for t ns is RATE × t. -/

/-- The bucket depth that a shaper register gives. -/
def shaperDepth (w : Nat) : Int := ((Nat.max 1 (bits w 31 20) * 1024 * 8000 : Nat) : Int)

/-- A shaper with RATE 0 holds nothing back. -/
def shaperOk (w : Nat) (tokens : Int) : Bool := decide (bits w 19 0 = 0) || decide (0 ≤ tokens)

/-- The tokens of a shaper after `ns`. -/
def shaperFill (w : Nat) (tokens : Int) (ns : Nat) : Int :=
  if bits w 19 0 = 0 then 0 else min (shaperDepth w) (tokens + ((bits w 19 0 * ns : Nat) : Int))

/-- The tokens of port `p`, and of a class of it, as they stand now: filled for the time that the island has run. -/
def portTokens (s : State) (p : Nat) : Int :=
  shaperFill (s.rd (A.QM_P_SHAPE p)) (s.eg p).tokens (s.buf.ran - (s.eg p).filled)
def classTokens (s : State) (p c : Nat) : Int :=
  shaperFill (s.rd (A.QM_P_CSHAPE p c)) (Map.get 0 (s.eg p).ctokens c) (s.buf.ran - (s.eg p).filled)

/-- The shapers of port `p` fill. -/
def refillPort (s : State) (p : Nat) : State :=
  let h := s.eg p
  putEg s p { h with
    tokens := portTokens s p, filled := s.buf.ran,
    ctokens := (List.range 8).foldl (fun m c => Map.put 0 m c (classTokens s p c)) h.ctokens }

/-- The bytes that one frame takes from its shapers, in 1/8000 byte; an unshaped bucket stays as it is. -/
def deduct (s : State) (p c n : Nat) : State :=
  let s := refillPort s p
  let h := s.eg p
  let cost : Int := ((n : Int) + toSigned 8 (s.fld (A.QM_P_CFG p) 7 0)) * 8000
  let t := if s.fld (A.QM_P_SHAPE p) 19 0 = 0 then h.tokens else h.tokens - cost
  let ct := if s.fld (A.QM_P_CSHAPE p c) 19 0 = 0 then h.ctokens
    else Map.put 0 h.ctokens c (Map.get 0 h.ctokens c - cost)
  putEg s p { h with tokens := t, ctokens := ct }

/-! Eligibility (R266). -/

/-- All cells of the copy are in the Crucible, and the frame has arrived (R256). -/
def pktComplete (s : State) (k : Pkt) : Bool :=
  (match frameOf s k.fid with | some f => arrived s f | none => false) &&
    (match k.deep with
     | none => true
     | some d => decide (d.staged = 0 ∧ d.stored = [] ∧ d.reading = []))

/-- The class is stopped by a received PFC frame (R265). -/
def classPaused (s : State) (p c : Nat) : Bool := s.runs (.pfcPause p c)

/-- The class of queue `q` may send: PFC, credit, shapers. -/
def classMay (s : State) (p c : Nat) : Bool :=
  !classPaused s p c && (decide (typeEff s p ≠ 13) || trunkCredit s p c) &&
    shaperOk (s.rd (A.QM_P_CSHAPE p c)) (classTokens s p c) && shaperOk (s.rd (A.QM_P_SHAPE p)) (portTokens s p)

/-- The head of queue `q` of port `p` with its length, if the queue is eligible (R266). -/
def eligibleHead (s : State) (p q : Nat) : Option (Pkt × Nat) :=
  match queuePkts s p q with
  | [] => none
  | k :: _ =>
    match frameOf s k.fid with
    | none => none
    | some f =>
      let n := lineLen k f
      if k.loc = .queue && pktComplete s k && classMay s p (q % 8) && beforeWindow s p (q % 8) n then some (k, n) else none

/-! The choice of a queue. -/

def classQuantum (s : State) (p c : Nat) : Nat := Nat.max 64 (s.fld (A.QM_P_QUANT p c) 15 0)
def mcWeight (s : State) (p : Nat) : Nat := Nat.max 1 (s.fld (A.QM_P_SCHED p) 11 8)

/-- The quantum of queue `q` within its class (R266). -/
def queueQuantum (s : State) (p q : Nat) : Nat :=
  if q < 8 then classQuantum s p q else classQuantum s p (q - 8) * mcWeight s p / 16

/-- Deficit round robin over the candidates in turn order: the entity whose turn it is sends while its head is no
longer than its deficit; else the turn goes on and the next entity adds its quantum. -/
def drr (quantum : Nat → Nat) (head : Nat → Option Nat) (next : Nat → Nat) :
    Nat → List (Nat × Nat) → Nat → Option (Nat × List (Nat × Nat) × Nat)
  | 0, _, _ => none
  | fuel + 1, deficit, turn =>
    match head turn with
    | none =>
      drr quantum head next fuel (Map.put 0 (Map.put 0 deficit turn 0) (next turn)
        (Map.get 0 (Map.put 0 deficit turn 0) (next turn) + quantum (next turn))) (next turn)
    | some n =>
      if n ≤ Map.get 0 deficit turn then some (turn, Map.put 0 deficit turn (Map.get 0 deficit turn - n), turn)
      else drr quantum head next fuel
        (Map.put 0 deficit (next turn) (Map.get 0 deficit (next turn) + quantum (next turn))) (next turn)

/-- The queue of class `c` whose turn it is among c and 8 + c, with the port's new hidden state. -/
def chooseQueue (s : State) (p c : Nat) : Option (Nat × EgressHidden) :=
  let h := s.eg p
  let head := fun q => (eligibleHead s p q).map (·.2)
  if (head c).isNone && (head (8 + c)).isNone then none
  else
    let turn := Map.get c h.qturn c
    match drr (queueQuantum s p) head (fun q => if q = c then 8 + c else c) 40000 h.qdeficit turn with
    | none => none
    | some (q, d, t) => some (q, { h with qdeficit := d, qturn := Map.put c h.qturn c t })

/-- The strict class of the highest number that has an eligible queue (R266). -/
def strictClass (s : State) (p : Nat) : Option Nat :=
  ([7, 6, 5, 4, 3, 2, 1, 0] : List Nat).find? fun c => s.bit (A.QM_P_SCHED p) c && (chooseQueue s p c).isSome

/-- The head length of a class below the strict ones. -/
def sharedHead (s : State) (p c : Nat) : Option Nat :=
  if s.bit (A.QM_P_SCHED p) c then none
  else
    match chooseQueue s p c with
    | none => none
    | some (q, _) => (eligibleHead s p q).map (·.2)

/-- The queue that the port serves next (R266), with the port's new hidden state. -/
def selectQueue (s : State) (p : Nat) : Option (Nat × EgressHidden) :=
  match strictClass s p with
  | some c => chooseQueue s p c
  | none =>
    if (List.range 8).all fun c => (sharedHead s p c).isNone then none
    else
      match drr (classQuantum s p) (sharedHead s p) (fun c => (c + 1) % 8) 40000 (s.eg p).deficit (s.eg p).turn with
      | none => none
      | some (c, d, t) =>
        match chooseQueue s p c with
        | none => none
        | some (q, h) => some (q, { h with deficit := d, turn := t })

/-! Transmission. -/

/-- The frame becomes a record of its class on a trunk (R107); `off`: the payload offset at which a latency-locked one
starts. -/
def trunkRecord (s : State) (p c : Nat) (ll : Bool) (off : Nat) (bytes : List Nat) : State :=
  addRecord s p c ⟨frameRecord bytes, true, ll, off, none, false⟩

/-- A transmission starts at TB0 time `t`; on a trunk, a latency-locked record at payload offset `off`. -/
def startTx (s : State) (k : Pkt) (f : Frame) (t off : Nat) : State :=
  let p := k.e
  let bytes := egressBytes s k f
  let cells := match k.deep with | some d => d.backIn | none => f.banks
  let s := cells.foldl (grantRead (sliceOfPort p)) (putPkt s { k with loc := .transmit, came := s.now })
  let s := putEg s p { s.eg p with busy := some (s.now + lineNs s p (lineLen k f + 20)) }
  let s := countSent (s.emit (.frame p (ofNats bytes) t)) p (frameLen f)
  let s := if f.bad then s.add64 A.QM_CT_STOMP_LO 1 else s
  if typeEff s p = 13 then trunkRecord s p f.tc f.ll off bytes else s

/-- A frame boundary of port `p`: a frame that waits ahead of the queues leaves (R262, R344), or the port serves an eligible queue (R266). -/
def egressSelect (s : State) (p : Nat) : State :=
  let s := serveControl s p
  if !portUp s p || (s.eg p).busy.isSome then s
  else
    match selectQueue s p with
    | none => s
    | some (q, h) =>
      match eligibleHead s p q with
      | none => s
      | some (k, n) =>
        match frameOf s k.fid with
        | none => s
        | some f => startTx (deduct (putEg s p h) p (q % 8) n) k f (tb0 s) 0

/-- A read of a cell finds an error (R248): one that is corrected, and one that is not. -/
def eccSingle (s : State) : State := qmEvent (s.add64 A.QM_CRU_CE_LO 1) 8
def eccLost (s : State) : State := qmEvent (s.add64 A.QM_CRU_UE_LO 1) 16

/-- An uncorrectable cell drops its frame whole. A latency-locked copy is also reported, as not complete (DEDUCED,
assumption 89). -/
def eccDrop (s : State) (k : Pkt) (ll : Bool) : State :=
  if ll then lldDrop (eccLost s) k 11 8 else removePkt (slag (eccLost s) 8) k

/-- What a read of a copy's cells finds: it goes on as `next` says, or drops the copy. -/
def withEcc (s : State) (ecc : Option EccFault) (k : Pkt) (ll : Bool) (next : State → State) : State :=
  match ecc with
  | none => next s
  | some .single => next (eccSingle s)
  | some .uncorrectable => eccDrop s k ll

/-- A frame boundary at which an ECC error is found in a cell of the frame that the port serves (R248). -/
def egressEcc (s : State) (p : Nat) (e : EccFault) : State :=
  match (selectQueue s p).bind fun x => eligibleHead s p x.1 with
  | none => s
  | some (k, _) => withEcc s (some e) k false fun s => egressSelect s p

/-- The copy that the port transmits. -/
def transmitting (s : State) (p : Nat) : Option Pkt :=
  s.buf.pkts.find? fun k => k.loc = .transmit && decide (k.e = p)

/-- The latest frame of a port, first in the list, has these bytes. -/
def lastFrameIs (p : Nat) (bytes : List Byte) : List Out → Bool
  | [] => false
  | .frame q b _ :: l => if q = p then decide (b = bytes) else lastFrameIs p bytes l
  | _ :: l => lastFrameIs p bytes l

/-- The latest frame of a port, first in the list, gets other bytes. -/
def lastFrame (p : Nat) (bytes : List Byte) : List Out → List Out
  | [] => []
  | .frame q b t :: l => if q = p then .frame q bytes t :: l else .frame q b t :: lastFrame p bytes l
  | o :: l => o :: lastFrame p bytes l

/-- The record of a frame that a trunk is sending gets other bytes, as far as it has not left. -/
def restream (s : State) (p c : Nat) (good bad : List Byte) : State :=
  let h := s.trunk p
  let l := Map.get [] h.streams c
  match l.getLast? with
  | none => s
  | some r =>
    if r.bytes.length ≤ good.length + 2 ∧ r.bytes.drop (r.bytes.length - good.length) = good.drop (good.length - r.bytes.length) then
      let head := r.bytes.take (r.bytes.length - good.length)
      let r := { r with bytes := head ++ bad.drop (bad.length - r.bytes.length) }
      putTrunk s p { h with streams := Map.put [] h.streams c (l.dropLast ++ [r]) }
    else s

/-- The frame that a port sends ends as frame `g`, with the complement of its FCS (R248, R270). -/
def stompAs (s : State) (k : Pkt) (f g : Frame) : State :=
  let good := ofNats (egressBytes s k f)
  let bad := ofNats (egressBytes s k { g with bad := true })
  if good = bad || !lastFrameIs k.e good s.out.reverse then s
  else
    let s := s.add64 A.QM_CT_STOMP_LO 1
    let s := if typeEff s k.e = 13 then restream s k.e f.tc good bad else s
    { s with out := (lastFrame k.e bad s.out.reverse).reverse }

/-- An uncorrectable cell of a frame whose first cell has left (R248): the frame ends with the complement of its FCS. -/
def egressStomp (s : State) (p : Nat) : State :=
  match transmitting s p with
  | none => s
  | some k =>
    match frameOf s k.fid with
    | none => s
    | some f => stompAs (eccLost s) k f f

/-- The bytes of a frame that have arrived, at the rate of its port. -/
def bytesArrived (s : State) (f : Frame) : Nat :=
  let left := lineNs s f.inPort (frameLen f)
  frameLen f - ((f.done - s.now) * frameLen f + Nat.max 1 left - 1) / Nat.max 1 left

/-- A frame is cut short at ingress, or does not arrive in time: it is bad (R270). Where it cuts through, its port ends it
with the complement of its FCS; what did not arrive of it is open. Its other copies are dropped. -/
def cutFrame (s : State) (f : Frame) (drop : State → Pkt → State) : State :=
  let n := bytesArrived s f
  let (l, s) := s.openBytes (frameLen f - n)
  let g := { f with bytes := f.bytes.take n ++ ofNats l, bad := true, early := false, done := s.now }
  let s := if f.bad then s else s.pmcEvent (runnerOfPort f.inPort) (0x044 + 16 * (f.inPort % 4)) 1
  let ks := s.buf.pkts.filter fun k => decide (k.fid = f.id)
  refreshGlobal (ks.foldl (fun s k =>
    if k.loc = .transmit then (if f.bad then s else stompAs s k f g) else drop s k) (putFrame s g))

/-- A copy of a frame that is cut short is dropped. One with a latency-locked delivery to make is reported, as not complete
(R305). -/
def dropCut (s : State) (k : Pkt) : State := if k.ll.isSome then lldDrop s k 11 13 else removePkt s k

/-- The transmission of the port has ended in time. -/
def txDone (s : State) (p : Nat) : Bool :=
  match (s.eg p).busy with
  | some t => decide (t ≤ s.now)
  | none => false

/-- The frame or copy has left (R250): its cells are freed, and the port stands at a frame boundary. A frame whose last
bytes have not come yet, as in a resend of its trunk, ends as a bad one (R270). -/
def departFrame (s : State) (p : Nat) : State :=
  let s := putEg s p { s.eg p with busy := none }
  match transmitting s p with
  | none => serveControl s p
  | some k =>
    let s := match frameOf s k.fid with
      | some f => if f.early then cutFrame s f dropCut else s
      | none => s
    serveControl (removePkt s k) p

/-- The next granted window of the port whose start has come (R302). -/
def windowDue (s : State) (p : Nat) : Option Pkt :=
  s.buf.pkts.find? fun k =>
    decide (k.e = p) && decide (k.q = 16) && k.loc = .queue &&
      (match k.ll with | some w => decide (w.state = .granted) && decide (w.start ≤ tb0 s) | none => false)

/-- The longest that FEC parity and an alignment marker group can hold a start back, in line bits: by FEC and rate
(PRESUMED, assumption 80). -/
def interBits (fec rate : Nat) : Nat :=
  if fec = 1 then 32 else if fec = 2 then (if rate = 25 then 140 + 257 else 140 + 1285)
  else if fec = 3 then
    (if rate = 800 then 1200 + 4112 else if rate = 400 then 600 + 2056 else if rate = 200 then 600 + 1028
     else if rate = 100 then 300 + 1285 else 300 + 514)
  else 0

/-- The bound of I on an Ethernet port (R296), in 2^-16 ns: 0 where nothing falls between (E1_1, E10_1, E25_1 without
FEC). -/
def interMax (s : State) (p : Nat) : Nat :=
  let rate := typeRate (typeEff s p)
  (interBits (portFec s p) rate * nsUnits + rate - 1) / Nat.max 1 rate

/-- Where the timestamp point of a frame falls whose window starts for target `t` (R296, R297): its TB0 time and, on a
trunk, the payload offset of its record. On an Ethernet port the place within G, and I within its bound, are open. -/
def startPoint (s : State) (p t : Nat) : (Nat × Nat) × State :=
  if typeEff s p = 13 then (let (_, o, u) := startPlace s p t; ((u, o), s))
  else
    let (x, s) := s.draw
    let (i, s) := s.draw
    ((t + (x % Nat.max 1 (startGrain (typeEff s p)) + i % (interMax s p + 1)), 0), s)

/-- The port is busy to the end of the window (R301). -/
def holdWindow (s : State) (p stop : Nat) : State :=
  let t := s.now + (stop - tb0 s + nsUnits - 1) / nsUnits
  putEg s p { s.eg p with busy := some (Nat.max t (((s.eg p).busy).getD 0)) }

/-- The frame starts in its window (R296, R301, R302, R305). A late frame's place is the first of its window. -/
def windowStart (s : State) (k : Pkt) (f : Frame) (w : LlInfo) : State :=
  let p := k.e
  let s := pruneWindows { s with buf := { s.buf with windows := s.buf.windows ++ [(p, w.start, w.stop - w.start)] } }
  let late := decide (w.cause ≠ 0)
  let lead := if typeEff s p = 13 then 0 else startGrain (typeEff s p) + lineTime s p 8
  let ((t, off), s) := startPoint s p (if late then w.start + lead else w.tgt)
  let s := holdWindow (startTx s k f t off) p w.stop
  if late then
    lldLog (lldEvent (s.add64 (A.LLD_P_LATE_LO p) 1) 1) true w.cause f p w.tgt (Config.quot (t - w.tgt) nsUnits) w.aon
  else
    let s := ((s.add64 (A.LLD_P_SENT_LO p) 1).wr (A.LLD_P_RLAST p) (t - w.tgt)).pmcEvent 21 0x282 1
    if tsqHold f then lldLog (lldEvent s 4) true 3 f p w.tgt 0 w.aon else s

/-- The stream of the class stands in the middle of a record that is not latency-locked: it may not go on into a reserved block
(R297). -/
def recordOpen (s : State) (p c : Nat) : Bool :=
  match (Map.get [] (s.trunk p).streams c).head? with | some r => !r.ll && !r.fresh | none => false

/-- A window starts (R302): the frame starts if it is ready, or it has missed its target. `ecc`: what the reads of its
cells find. A record of its class that could not leave in time is a transmission in progress (DESIGN CHOICE, assumption
78). -/
def windowOpen (s : State) (p : Nat) (ecc : Option EccFault) : State :=
  match windowDue s p with
  | none => s
  | some k =>
    match frameOf s k.fid, k.ll with
    | some f, some w =>
      if !portUp s p then lldDrop s k 6 5
      else if !pktComplete s k then lldMiss s k w 11
      else if typeEff s p = 13 && !trunkCredit s p f.tc then lldMiss s k w 12
      else if typeEff s p = 13 && recordOpen s p f.tc then lldMiss s k w 10
      else withEcc s ecc k true fun s => windowStart s k f w
    | _, _ => s

end Sys2Proof.Machine
end

