-- ==== Sys2Proof/Machine/Queues.lean ====
section
/-! DEFINITION. Admission (R252, R253), the deep tier's mover and integrity (R254 to R258), and the flushing of a
port's queues (R115). -/

namespace Sys2Proof.Machine

/-- The egress queue of a copy (R249). -/
def queueOf (k : Pkt) (f : Frame) : Nat := if f.ll then 16 else if k.copy then 8 + f.tc else f.tc

/-- The port of a received frame counts it as dropped because the egress port is not UP (R114). -/
def countDown (s : State) (p : Nat) : State := s.add64 (A.PORT_DOWN_DROP_LO p) 1

/-- A copy is dropped before admission: its egress port is not UP (R114, R292, R304). -/
def dropDown (s : State) (k : Pkt) (f : Frame) : State :=
  let s := countDown s k.e
  let s := if k.copy then ldlDrop s k.e else s
  if f.ll then lldDrop s k 6 5 else removePkt (slag s 5) k

/-- No copy of the frame was admitted to the Crucible yet, so that such an admission charges its cells (R250). -/
def firstCopy (f : Frame) : Bool :=
  match f.pool with | .none => true | .held => true | _ => false

/-- No copy of the frame was admitted yet in either tier. -/
def firstEver (s : State) (f : Frame) : Bool :=
  firstCopy f && !(s.buf.pkts.any fun k => decide (k.fid = f.id) && queued k)

/-- The cells of the frame count once in its priority group (R250): from the admission that charges the Crucible's
cells on, those of its copies on the deep path no longer do. -/
def uncount (s : State) (f : Frame) : State :=
  { s with buf := { s.buf with pkts := s.buf.pkts.map fun k =>
      if k.fid = f.id then { k with deep := k.deep.map fun d => { d with pg := false } } else k } }

/-- The copy joins its queue. A copy sent through a SPREAD group takes its number (R278). -/
def enqueue (s : State) (k : Pkt) (f : Frame) : State :=
  match k.via with
  | some (g, m, b) =>
    if grpSpread s g then
      let (n, s) := takeNumber s g f.tc
      movePkt s { k with loc := .queue, number := some n }
    else
      let s := match b with | some c => setMember s g c (some m) | none => s
      movePkt s { k with loc := .queue }
  | none => movePkt s { k with loc := .queue }

/-- The frame's cells are charged, where this is its first copy. -/
def charge (s : State) (f : Frame) (first : Bool) (p : Pool) : State :=
  if first then (uncount (storeFrame s f p) f).pmcEvent 20 0x200 (frameCells f) else s

/-- Admission under MINIMUM or SHARED (R252). -/
def admitCru (s : State) (k : Pkt) (f : Frame) (min shared : Nat) (holds : Bool) : State :=
  let first := firstCopy f
  let s := charge s f first (.admitted k.e k.q min shared 0 holds)
  refreshPressure (enqueue s k f) (pgOf f)

/-- The queue is in SPILL from now on (R254). -/
def setSpill (s : State) (e q : Nat) : State :=
  if inSpill s e q then s else { s with buf := { s.buf with spill := (17 * e + q) :: s.buf.spill } }

/-- Admission to the deep path, under STAGING or under HEADROOM of a queue in SPILL (R252, R254). -/
def admitDeep (s : State) (k : Pkt) (f : Frame) (headroom : Bool) : State :=
  let first := firstEver s f
  let own := first && !f.banks.isEmpty
  let (l, s) := if own then (f.banks, s) else writeFrame s f
  let s := if first then (uncount (putFrame s { f with pool := .none, banks := [] }) f).pmcEvent 20 0x200 (frameCells f) else s
  let s := if headroom then s else s.pmcEvent 20 0x202 1
  enqueue s { k with deep := some ⟨l, headroom, [], [], [], first, first⟩ } f

/-- A headroom admission takes headroom of its group, and pause(g) applies (R252, R262). A later copy takes none: what it
started lasts until the conditions of the group are looked at again. -/
def admitHeadroom (s : State) (k : Pkt) (f : Frame) : State :=
  let g := pgOf f
  let first := if inSpill s k.e k.q then firstEver s f else firstCopy f
  let s := if first then putPg s g { s.pg g with headroom := (s.pg g).headroom + frameCells f } else s
  let s := pauseGroup s g
  let s := if inSpill s k.e k.q then admitDeep s k f true
    else enqueue (charge s f first (.admitted k.e k.q 0 0 (frameCells f) false)) k f
  if first then refreshPressure s g else releaseReady (refreshGlobal s) (g / 8)

/-- The frame is refused by both tiers (R252, R263, R272, R292). -/
def refuse (s : State) (k : Pkt) (f : Frame) : State :=
  let g := pgOf f
  let s := if k.copy then ldlDrop s k.e else s
  if lossless s g then removePkt (qmEvent (slag s 4) 2) k
  else removePkt (slag s (if inSpill s k.e k.q then 3 else 2)) k

/-- The path after the Crucible refused: headroom, or the slag. -/
def admitRefused (s : State) (k : Pkt) (f : Frame) : State :=
  let g := pgOf f
  if lossless s g && decide ((s.pg g).headroom < s.fld (A.QM_PGPROF_B (pgProfile s (g / 8) (g % 8))) 15 0) &&
      decide (64 ≤ freeHeadroom s) then admitHeadroom s k f
  else refuse s k f

/-- The deep path (R252). -/
def admitSpill (s : State) (k : Pkt) (f : Frame) : State :=
  let m := qDeepMax s k.e k.q
  if (decide (m = 0) || decide (deepUse s k.e k.q < m * 4096)) && decide (64 ≤ deepFree s) && decide (64 ≤ freeStage s)
  then refreshPressure (admitDeep s k f false) (pgOf f)
  else admitRefused s k f

/-- Admission of queues 0 to 15: the pseudocode of R252. -/
def admitQueue (s : State) (k : Pkt) (f : Frame) : State :=
  let cru := cruUse s k.e k.q
  let min := qMin s k.e k.q
  let free := freeShared s
  let room := (min - cru) + free
  let cells := frameCells f
  if inSpill s k.e k.q then admitSpill s k f
  else if cru < min ∧ 64 ≤ room then
    let own := Nat.min cells (min - cru)
    admitCru s k f own (cells - own) (decide (min - cru < 64))
  else if 64 ≤ room ∧ (!qSpillEn s k.e k.q || decide (cru < qSpillOn s k.e k.q)) = true ∧
      16 * (cru - min) < qAlpha s k.e k.q * free then admitCru s k f 0 cells true
  else if qSpillEn s k.e k.q && s.bit A.DBF_CTRL 0 && decide (s.fld A.DBF_STAT 31 28 = 2) then
    admitSpill (setSpill s k.e k.q) k f
  else admitRefused s k f

/-- Admission of a latency-locked copy (R253): it then waits for the scheduler in queue 16. -/
def admitLl (s : State) (k : Pkt) (f : Frame) : State :=
  if 64 ≤ freeLl s then
    let s := charge s f (firstCopy f) .ll
    let s := enqueue s { k with ll := some ⟨0, 0, 0, .waiting, 0, (aonOf s f.id).isSome, false, 0, s.now,
      lldEntry s f.inPort k.e⟩ } f
    releaseReady s f.inPort
  else lldDrop (if k.copy then ldlDrop s k.e else s) k 1 13

/-- No frame, PFC frame, frame of a timed action or PTP message is in transmission or pending on the port (R268). A latency-locked frame waits for its
window, which the window check covers (DEDUCED, assumption 90). -/
def portIdle (s : State) (p : Nat) : Bool :=
  (s.eg p).busy.isNone && (s.eg p).pfc.isEmpty && (s.eg p).acts.isEmpty && (s.eg p).msgs.isEmpty &&
    !(s.buf.pkts.any fun j => queued j && decide (j.e = p) && decide (j.q < 16))

/-- The conditions of R268 for a frame at its admission: it may cut through. -/
def cutsThrough (s : State) (k : Pkt) (f : Frame) : Bool :=
  !f.ll && !k.copy && decide (f.pass = 0) && !k.waited && decide (f.inPort < 64) && !arrived s f &&
    s.bit (A.QM_P_CFG f.inPort) 31 && s.bit (A.QM_P_CFG k.e) 31 && !s.bit A.PWR_STAT 2 &&
    !inSpill s k.e k.q && portIdle s k.e &&
    classMay s k.e f.tc && beforeWindow s k.e f.tc (64 * 256) &&
    decide (compareRate s k.e ≤ compareRate s f.inPort)

/-- A frame that cuts through starts at once; its port and class are charged as for any frame. -/
def cutThrough (s : State) (k : Pkt) (f : Frame) : State :=
  match s.buf.pkts.find? fun j => decide (j.id = k.id) && j.loc = .queue && j.deep.isNone with
  | none => if f.bad then removePkt s k else s
  | some j =>
    let s := (s.add64 A.QM_CT_FRAMES_LO 1).pmcEvent (runnerOfPort f.inPort) 0x017 1
    startTx (deduct s j.e f.tc (lineLen j f)) j f (tb0 s) 0

/-- A frame that would be too long to tag is dropped (R278). -/
def tooLong (s : State) (k : Pkt) (f : Frame) : Bool :=
  match k.via with
  | some (g, _, _) => grpSpread s g && decide (16383 < frameLen f + 12)
  | none => false

/-- Admission of a copy whose egress port is known. A frame that turned out bad leaves only where it cuts through. -/
def admitAt (s : State) (k : Pkt) (f : Frame) : State :=
  let k := { k with q := queueOf k f }
  if !portUp s k.e then dropDown s k f
  else if tooLong s k f then
    let s := removePkt (sprEvent (slag (s.add64 A.SPR_TOO_LONG_LO 1) 14) 16) k
    if f.ll && (aonOf s f.id).isSome then aonSeen (countCause s 6) f k.e 6 0 else s
  else if f.ll then (if f.bad then removePkt s k else admitLl s k f)
  else
    let ct := cutsThrough s k f
    if f.bad && !ct then removePkt s k
    else
      let s := admitQueue s k f
      if ct then cutThrough s k f else s

/-- A frame without a member for its group; a copy of an ALL_OR_NONE frame fails with it. -/
def noMember (s : State) (k : Pkt) (f : Frame) : State :=
  let s := dropNoMember s k
  if f.ll && (aonOf s f.id).isSome then aonSeen (countCause s 6) f 63 6 0 else s

/-- A frame for a PINNED group (R280 to R282): held, or admitted to its bucket's effective member. -/
def admitPinned (s : State) (k : Pkt) (f : Frame) (g : Nat) : State :=
  let b := bucketOf s g f
  let s := checkBucket s g b
  match effMember s g b with
  | none => noMember s k f
  | some m =>
    let k := { k with e := slotPort s g m, via := some (g, m, some b) }
    match holdOf s g b with
    | some _ =>
      if holdCells s g b + frameCells f ≤ 256 then
        let s := if f.pool = .none then storeFrame s f .held else s
        refreshPressure (movePkt s { k with loc := .migration g b }) (pgOf f)
      else
        markMoved (releaseHold (frontPkts s [{ k with loc := .toAdmit, waited := true }]) g b) g b
    | none =>
      if decide (256 * g + b ∈ s.buf.moved) && onOther s g b m then
        (let t := admitAt s k f
         if t.buf.pkts.any (fun j => decide (j.id = k.id) && queued j) then countMoved t 1 else t)
      else
        let l := s.buf.moved.filter (· ≠ 256 * g + b)
        admitAt { s with buf := { s.buf with moved := l } } k f

/-- A frame for a LAG group is assigned a member (R275, R276). -/
def admitLag (s : State) (k : Pkt) (f : Frame) (g : Nat) : State :=
  if !grpEn s g then noMember s k f
  else if grpSpread s g then
    match firstEligible s g (s.fld (A.SPR_GRP_STAT g) 19 16) with
    | none => noMember s k f
    | some m =>
      let s := s.setFld (A.SPR_GRP_STAT g) 19 16 (m + 1)
      admitAt s { k with e := slotPort s g m, via := some (g, m, none) } f
  else admitPinned s k f g

/-- The slice from which a copy comes. -/
def sliceOf (s : State) (k : Pkt) : Nat := (frameOf s k.fid).elim 4 Frame.slice

/-- The copy came straight from classification or an engine: neither the Riser nor a hold nor the Ladle gave it its place. -/
def comesFresh (s : State) (k : Pkt) : Bool := !k.waited && !k.copy && (match frameOf s k.fid with | some f => f.tag.isNone | none => false)

/-- The copy that is next for admission. Frames of several slices that reach admission together go by rising slice (R275);
what reaches it in one ns counts as together (DESIGN CHOICE, assumption 78). -/
def nextAdmit (s : State) : Option Pkt :=
  let l := s.buf.pkts.filter fun k => k.loc = .toAdmit
  match l with
  | [] => none
  | k :: r =>
    if !comesFresh s k then some k
    else some ((r.filter fun j => comesFresh s j && decide (j.came = k.came)).foldl
      (fun b j => if sliceOf s j < sliceOf s b then j else b) k)

/-- The first cell of the next frame is tested for admission (R252). -/
def admitNext (s : State) : State :=
  match nextAdmit s with
  | none => s
  | some k =>
    match frameOf s k.fid with
    | none => dropPkt s k.id
    | some f =>
      match k.dest with
      | .port e => admitAt s { k with e := e } f
      | .lag g => admitLag s k f g
      | .ladle _ => s

/-! The deep tier's mover. -/

/-- The copy whose cell was staged first. -/
def nextStaged (s : State) : Option Pkt :=
  s.buf.pkts.find? fun k => match k.deep with | some d => decide (d.staged ≠ 0) | none => false

/-- The pseudo-channels with a healthy region that has a free cell. -/
def openChannels (s : State) : List Nat :=
  (List.range 128).filter fun c => (List.range 7).any fun k =>
    regionAvailable s (7 * c + k) && decide (regionUse s (7 * c + k) < 262144)

/-- The channel that round robin gives a queue next (R255); its first channel is open. -/
def nextChannel (s : State) (qk : Nat) : Option Nat :=
  match Map.get 0 s.buf.channel qk with
  | 0 => none
  | n + 1 =>
    match (openChannels s).find? fun c => decide (n < c) with
    | some c => some c
    | none => (openChannels s).head?

def recentMoves (s : State) (l : List Nat) : List Nat := (l.filter fun t => decide (s.now < t + 10 * us)) ++ [s.now]

/-- The bytes of cell `i` of a frame; what lies behind its last byte is open. -/
def cellData (s : State) (f : Frame) (i : Nat) : List Nat × State :=
  let b := ((toNats f.bytes).drop (256 * i)).take 256
  let (l, s) := s.openBytes (256 - b.length)
  (b ++ l, s)

/-- The metadata of a cell (R255). The CRC covers the data and the other 4 bytes: the sequence number in [29:0], the
last-cell flag in bit 30, the first-cell flag in bit 31, the low byte first (DESIGN CHOICE, assumption 91). -/
def storedCell (s : State) (f : Frame) (i seq r : Nat) : StoredCell × State :=
  let (d, s) := cellData s f i
  let first := decide (i = 0)
  let last := decide (i + 1 = frameCells f)
  (⟨r, seq, first, last, crc32c (d ++ leBytes 4 (seq + bit01 last * 2 ^ 30 + bit01 first * 2 ^ 31))⟩, s)

/-- The cell of queue `qk` that is next for the deep tier gets its number. -/
def takeCellSeq (s : State) (qk : Nat) : Nat × State :=
  let n := Map.get 0 s.buf.cellSeq qk
  (n, { s with buf := { s.buf with cellSeq := Map.put 0 s.buf.cellSeq qk ((n + 1) % 2 ^ 30) } })

/-- The cell staged first lies in region `r` now. -/
def cellWritten (s : State) (k : Pkt) (d : DeepCells) (f : Frame) (r : Nat) : State :=
  let qk := 17 * k.e + k.q
  let s := grantRead 4 s (d.stagedIn.headD 0)
  let (n, s) := takeCellSeq s qk
  let (c, s) := storedCell s f (frameCells f - d.staged) n r
  let s := putPkt s { k with deep := some { d with stagedIn := d.stagedIn.tail, stored := d.stored ++ [c] } }
  let s := { s with buf := { s.buf with channel := Map.put 0 s.buf.channel qk (r / 7 + 1), written := recentMoves s s.buf.written } }
  let s := ((s.add64 A.DBF_CELLS_WR_LO 1).pmcEvent (16 + r / 224) 0x100 1).pmcEvent 20 0x201 1
  if d.pg then refreshPressure (pgLeave s (pgOf f) 1) (pgOf f) else refreshGlobal s

/-- One more cell written now would pass the limit of R255. -/
def writeLimited (s : State) : Bool := decide (deepLimit s < deepRate s (recentMoves s s.buf.written))

/-- The deep buffer controller that write demand above the limit waits for: that of the next channel of the queue whose cell
was staged first; where that queue has written none yet, any. -/
def demandAt (s : State) (g : Nat) : Bool :=
  writeLimited s && match nextStaged s with
    | none => false
    | some k => match nextChannel s (17 * k.e + k.q) with | some c => decide (c / 32 = g) | none => true

/-- The mover writes the cell staged first to a region (R255). A region that cannot take it, or that is not on the
queue's next channel, is not where the mover writes. Above the limit, the cell waits in staging. -/
def writeDeep (s : State) (r : Nat) (ecc : Option EccFault) : State :=
  match nextStaged s with
  | none => s
  | some k =>
    match k.deep with
    | none => s
    | some d =>
      if !regionAvailable s r || decide (262144 ≤ regionUse s r) ||
          (match nextChannel s (17 * k.e + k.q) with | some c => decide (c ≠ r / 7) | none => false) then s
      else if writeLimited s then dbfEvent s 8
      else
        match frameOf s k.fid with
        | some f => withEcc s ecc k false fun s => cellWritten s k d f r
        | none => s

/-- The cells of a queue in the Crucible that have not been transmitted, and those on their way to it (R256). -/
def prefetched (s : State) (e q : Nat) : Nat :=
  ((queuePkts s e q).map fun k =>
    match k.deep with
    | none => if k.loc = .queue then pktCells s k else 0
    | some d => if k.loc = .queue then d.back + d.reading.length else 0).sum

/-- The copy has cells in the deep tier that are not being read yet. -/
def hasStored (k : Pkt) : Bool := match k.deep with | some d => !d.stored.isEmpty | none => false

/-- The queues in SPILL that ask for a read, by rising number: 17 × port + queue. -/
def fetchWanted (s : State) : List Nat :=
  (s.buf.spill.insertionSort (· ≤ ·)).filter fun n =>
    (queuePkts s (n / 17) (n % 17)).any hasStored &&
      decide (prefetched s (n / 17) (n % 17) < Nat.max 16 (s.fld A.DBF_PREFETCH 7 0))

/-- The copy whose next cell the mover reads (R256): of the frame that it has begun; else of the first frame, not yet
read, of the next queue round robin. -/
def nextFetch (s : State) : Option Pkt :=
  match s.buf.fetching.bind fun n => s.buf.pkts.find? fun k => decide (k.id = n) && hasStored k with
  | some k => some k
  | none =>
    let l := fetchWanted s
    match (l.find? fun n => decide (s.buf.fetchTurn < n)).or l.head? with
    | some n => (queuePkts s (n / 17) (n % 17)).find? hasStored
    | none => none

/-- The controller of a region runs. -/
def regionRuns (s : State) (region : Nat) : Bool := !loopStopped s (7 + region / 224)

/-- The mover starts to read the next deep cell (R256), within the limit of R255, once the region's controller runs. -/
def prefetchDeep (s : State) : State :=
  match nextFetch s with
  | none => s
  | some k =>
    match k.deep with
    | none => s
    | some d =>
      match d.stored with
      | [] => s
      | c :: l =>
        if !regionRuns s c.region || decide (deepLimit s < deepRate s (recentMoves s s.buf.fetched)) then s
        else
          let s := putPkt s { k with deep := some { d with stored := l, reading := d.reading ++ [(c, s.now)] } }
          let b := { s.buf with fetched := recentMoves s s.buf.fetched, fetching := some k.id, fetchTurn := 17 * k.e + k.q }
          ({ s with buf := b }.add64 A.DBF_CELLS_RD_LO 1).pmcEvent (16 + c.region / 224) 0x101 1

/-- A region is retired (R258). -/
def retireRegion (s : State) (r : Nat) : State :=
  if regionRetired s r then s
  else
    let s := s.setBit (A.DBF_RETIRED (r / 32)) (r % 32) true
    let s := { s with retiredRegions := s.retiredRegions.filter (· ≠ r) ++ [r] }
    dbfEvent (s.setFld A.DBF_STAT 9 0 (s.fld A.DBF_STAT 9 0 + 1)) 4

/-- One failed re-read of a region; the third within 10 s retires it (R258). -/
def failReread (s : State) (r : Nat) : State :=
  let l := (s.buf.rereads.filter fun e => decide (s.now < e.2 + 10000 * ms)) ++ [(r, s.now)]
  let s := { s with buf := { s.buf with rereads := l } }.add64 A.DBF_RETRY_FAIL_LO 1
  if 3 ≤ (l.filter fun e => decide (e.1 = r)).length then retireRegion s r else s

/-- The record of a deep-tier error. -/
def lastErr (s : State) (cause r : Nat) : State := s.wr A.DBF_LAST_ERR (2 ^ 31 + cause * 2 ^ 24 + r)

/-- The cell of a copy is back in the Crucible. -/
def cellBack (s : State) (k : Pkt) (d : DeepCells) : State :=
  let (l, s) := writeCells s 4 1
  let s := (putPkt s { k with deep := some { d with reading := d.reading.tail, backIn := d.backIn ++ l } }).pmcEvent 20 0x200 1
  match frameOf s k.fid with
  | some f => refreshPressure (refreshTier s k.e k.q) (pgOf f)
  | none => s

/-- A read of the next deep cell of a queue completes (R257): its CRC, the re-reads, the loss of the cell. The mover waits
while the region's controller stands still. -/
def readDeep (s : State) (e q : Nat) (reads : List CellRead) : State :=
  match (queuePkts s e q).find? fun k => match k.deep with | some d => decide (d.reading ≠ []) | none => false with
  | none => s
  | some k =>
    match k.deep with
    | none => s
    | some d =>
      match d.reading with
      | [] => s
      | (c, _) :: _ =>
        let r := c.region
        let g := 16 + r / 224
        if !regionRuns s r then s
        else
        let ce := fun (s : State) => cellBack (dbfEvent (lastErr (s.add64 A.DBF_READ_CE_LO 1) 1 r) 1) k d
        match reads with
        | .good :: _ => cellBack s k d
        | .bad :: .good :: _ => ce (s.pmcEvent g 0x102 1)
        | .bad :: .bad :: .good :: _ => ce (failReread (s.pmcEvent g 0x102 2) r)
        | _ =>
          let s := failReread (failReread (s.pmcEvent g 0x102 2) r) r
          let s := dbfEvent (lastErr (s.add64 A.DBF_CELL_LOST_LO 1) 2 r) 2
          removePkt (slag (retireRegion s r) 9) k

/-- DBF.UNRETIRE with GO (R258). -/
def unretireRegion (s : State) (r : Nat) : State :=
  let l := s.buf.rereads.filter fun e => decide (e.1 ≠ r)
  if !regionRetired s r then s
  else
    let s := s.setBit (A.DBF_RETIRED (r / 32)) (r % 32) false
    let s := { s with retiredRegions := s.retiredRegions.filter (· ≠ r), buf := { s.buf with rereads := l } }
    s.setFld A.DBF_STAT 9 0 (s.fld A.DBF_STAT 9 0 - 1)

/-! The flush of a quench. -/

/-- One copy is freed by a quench (R115, R292, R311). -/
def quenchPkt (s : State) (p : Nat) (k : Pkt) : State :=
  let s := s.add64 (A.PORT_QUENCH_CNT_LO p) 1
  let s := if k.copy then ldlDrop s p else s
  match frameOf s k.fid with
  | some f => if f.ll then lldDrop s k 6 6 else removePkt (slag s 6) k
  | none => removePkt s k

/-- Every cell of the port's 17 queues is freed in both tiers (R115). The frame in transmission is abandoned, unless
the cause is ENABLE = 0. -/
def flushPort (s : State) (p : Nat) (disable : Bool) : State :=
  let l := s.buf.pkts.filter fun k => decide (k.e = p) && k.loc = .queue
  let s := l.foldl (fun s k => quenchPkt s p k) s
  let s := if disable then s
    else
      let s := match transmitting s p with
        | some k => removePkt (slag ((if k.copy then ldlDrop s p else s).add64 (A.PORT_QUENCH_CNT_LO p) 1) 6) k
        | none => s
      putEg s p { s.eg p with busy := none }
  let sp := s.buf.spill.filter fun e => decide (e / 17 ≠ p)
  { s with buf := { s.buf with spill := sp } }

/-- The cells queued for the port. -/
def portCells (s : State) (p : Nat) : Nat :=
  ((s.buf.pkts.filter fun k => decide (k.e = p) && queued k).map fun k => pktCru s k + pktDeep k).sum

end Sys2Proof.Machine
end

