-- ==== Sys2Proof/Machine/Ports.lean ====
section
/-! DEFINITION. The life of a port: effective type, bring-up, step-up and Clause 73, hold causes, UP, the quench,
degraded modes and modules (R94 to R102, R114 to R120). -/

namespace Sys2Proof.Machine

/-! The type that a port can bring up. -/

/-- The degraded types of `t` (R118): the same lane MODE, fewer lanes, healthy, allowed; widest first. -/
def degradedTypes (s : State) (p t : Nat) : List Nat :=
  ([1, 2, 3, 4, 5, 6, 7, 8, 9, 10, 11, 12] : List Nat).filter fun u =>
    decide (typeMode u = typeMode t) && decide (typeLanes u < typeLanes t) && portAllows s p u && lanesHealthy s p (typeLanes u)

/-- The type that fits a fixed port (R118, R119). -/
def fittingType (s : State) (p : Nat) : Option Nat :=
  let t := portType s p
  if t = 0 then none
  else if t = 13 then (if (List.range 8).any fun j => laneHealthy s (8 * p + j) then some 13 else none)
  else if lanesHealthy s p (typeLanes t) then some t
  else (degradedTypes s p t).head?

/-- A NO_LANES condition (R118, R119): port lane 0 is retired, or no type fits; on a trunk no lane is healthy. -/
def noLanes (s : State) (p : Nat) : Bool :=
  if portNeg s p = 0 then (fittingType s p).isNone else !laneHealthy s (8 * p)

def modManaged (s : State) (p : Nat) : Bool := s.bit (A.PORT_CFG p) 10

/-- The hold cause that stands against bring-up; 0: none. -/
def holdCause (s : State) (p : Nat) : Nat :=
  if (s.port p).shed then 1
  else if modManaged s p && !(s.port p).present then 5
  else if noLanes s p then 3
  else 0

/-- KMAX of R101. -/
def ownKmax (s : State) (p : Nat) : Nat :=
  (([8, 4, 2, 1] : List Nat).find? fun k => decide (k ≤ typeLanes (portType s p)) && lanesHealthy s p k).getD 0

/-- CAPS of R101. -/
def ownCaps (s : State) (p : Nat) : Nat :=
  let k := ownKmax s p
  bit01 (portAllows s p (typeOfWidth 4 k)) + 2 * bit01 (portAllows s p (typeOfWidth 5 k))

/-! Lanes. -/

/-- The rate that the port gives its lane `j`. -/
def givenMode (s : State) (p j : Nat) : Nat :=
  if !s.bit (A.PORT_STAT p) (16 + j) then 0
  else if typeEff s p = 13 then 3
  else if typeEff s p ≠ 0 then typeMode (typeEff s p)
  else if portNeg s p = 2 then 3
  else typeMode (portType s p)

/-- PHASE.VALID is 0 while the port offers no clock (R142). -/
def refreshPhase (s : State) (p : Nat) : State :=
  if (offeredLane s p).isNone && s.bit (A.PTP_PHASE p) 31 then s.setBit (A.PTP_PHASE p) 31 false else s

/-- Every lane takes the rate that the port gives it. -/
def applyLanes (s : State) (p : Nat) : State :=
  refreshPhase ((List.range 8).foldl (fun s j =>
    setLaneRate s (8 * p + j) (givenMode s p j) (decide (typeEff s p = 13))) s) p

/-- The port stops being a trunk: its sets, its mapping and what its link layer holds are gone. -/
def trunkDown (s : State) (p : Nat) : State :=
  ((putTrunk s p {}).wr (A.PORT_TRK_STAT p) 0 |>.wr (A.PORT_TRK_MAP p) 0).setBit (A.PORT_TRK_RTT p) 31 false

def setTypeEff (s : State) (p t : Nat) : State :=
  (if typeEff s p = 13 ∧ t ≠ 13 then trunkDown s p else s).setFld (A.PORT_STAT p) 27 24 t
def setUsed (s : State) (p mask : Nat) : State := s.setFld (A.PORT_STAT p) 23 16 mask
def setPortState (s : State) (p st : Nat) : State := s.setFld (A.PORT_STAT p) 31 28 st
def setHold (s : State) (p c : Nat) : State := s.setFld (A.PORT_STAT p) 15 12 c
def setDegraded (s : State) (p : Nat) (b : Bool) : State := s.setBit (A.PORT_STAT p) 9 b

/-- The port takes a type in effect, with its lanes. -/
def takeType (s : State) (p t : Nat) : State :=
  applyLanes (setUsed (setTypeEff s p t) p (2 ^ typeLanes t - 1)) p

/-- The lanes of the port go to MODE 0. -/
def lanesOff (s : State) (p : Nat) : State := applyLanes (setUsed (setTypeEff s p 0) p 0) p

/-- PENDING_ENABLE (R116). -/
def refreshPending (s : State) (p : Nat) : State :=
  s.setBit (A.PORT_STAT p) 11 (decide (portState s p = 3) && portEnabled s p && decide (holdCause s p = 0))

/-- PENDING_ENABLE follows every change of its terms during a quench (R116). -/
def refreshQuench (s : State) : State :=
  (List.range 64).foldl (fun s p => if portState s p = 3 then refreshPending s p else s) s

/-- The timers of bring-up stop. -/
def stopPort (s : State) (p : Nat) : State :=
  ((((((((s.stop (.anRestart p)).stop (.suPartner p)).stop (.suSlow p)).stop (.suQual p)).stop (.suFast p)).stop
    (.holdRetry p)).stop (.trunkAlign p)).stop (.trunkHello p)).stop (.conflictRetry p)

def setStage (s : State) (p : Nat) (st : StepUp) : State := putPort s p { s.port p with stage := st }

/-! Held. -/

/-- The port is held (R114). A step-up hold keeps port lane 0 at MODE 3, and a trunk's NODE_CONFLICT keeps its lanes
(R102, R112). -/
def enterHeld (s : State) (p c : Nat) : State :=
  let s := setHold (setPortState (stopPort s p) p 4) p c
  let s :=
    if c = 2 ∧ typeEff s p = 13 then s.start (.conflictRetry p) (2000 * ms)
    else if c = 2 ∨ c = 4 ∨ c = 6 then
      (applyLanes (setUsed (setTypeEff (setStage s p .off) p 0) p 1) p).start (.holdRetry p) (2000 * ms)
    else lanesOff (setStage s p .off) p
  portEvent s p 16

/-! Bring-up. -/

/-- The port's own step-up page (R99). -/
def pageBytes (s : State) (p : Nat) : List Nat :=
  let h := s.port p
  let b := [0x53, 0x55, 0x50, 1] ++ beBytes 2 (s.fld A.GLB_NODE_ID 15 0) ++ [0x00, 0x64, p, h.caps, h.kmax,
    bit01 h.acked + 2 * bit01 h.conflict] ++ List.replicate 16 0
  b ++ beBytes 4 (crc32c b)

/-- The four control blocks that carry a page in their payloads (R99). -/
def pageBlocks (b : List Nat) : List (Nat × List Nat) := (List.range 4).map fun i => (syncHeader true, slice b (8 * i) 8)

/-- An idle control block (PRESUMED: Clause 49 of IEEE 802.3, as IEEE formats in assumption 46). -/
def idleBlock : Nat × List Nat := (syncHeader true, [0x1E, 0, 0, 0, 0, 0, 0, 0])

/-- The control blocks that port lane 0 carries over and over from now on: the page, and an idle block behind it (R99). They
are put in behind the scrambler. The output records them where the page changes (DESIGN CHOICE, assumption 76). -/
def sendPage (s : State) (p : Nat) : State :=
  s.emit (.page p ((pageBlocks (pageBytes s p) ++ [idleBlock]).map fun b => (b.1, ofNats b.2)))

/-- SU_NRZ begins (R101, R102). -/
def startNrz (s : State) (p : Nat) : State :=
  let s := putPort s p { s.port p with stage := .nrz, page := [], pages := 0, acked := false, conflict := false, width := 0,
                                       fast := false, kmax := ownKmax s p, caps := ownCaps s p }
  let s := setHold (setPortState (stopPort s p) p 1) p 0
  sendPage ((applyLanes (setUsed (setTypeEff s p 0) p 1) p).start (.suPartner p) (2000 * ms)) p

/-- SU_SLOW begins. -/
def startSlow (s : State) (p : Nat) : State :=
  let s := setStage (stopPort s p) p .slow
  (takeType s p (typeOfWidth 4 (s.port p).width)).start (.suSlow p) (1000 * ms)

/-- Clause 73 begins (R98): negotiation runs on port lane 0. -/
def startAn (s : State) (p : Nat) : State := applyLanes (setUsed (setTypeEff s p 0) p 1) p

/-- T_LANES begins (R112): every healthy lane at MODE 3. -/
def startTrunk (s : State) (p : Nat) : State :=
  let m := ((List.range 8).map fun j => if laneHealthy s (8 * p + j) then 2 ^ j else 0).sum
  let s := setL1 (putTrunk s p {}) p 0
  let s := ((s.wr (A.PORT_TRK_STAT p) 0).wr (A.PORT_TRK_MAP p) 0).setBit (A.PORT_TRK_RTT p) 31 false
  let s := applyLanes (setUsed (setTypeEff s p 13) p m) p
  if (List.range 8).any fun j => inService s (8 * p + j) then s.setFld (A.PORT_TRK_STAT p) 2 0 1 else s

/-- The port re-forms at a type narrower than the configured one because of retired lanes (R118). -/
def markDegraded (s : State) (p t : Nat) : State :=
  if typeLanes t < typeLanes (portType s p) ∧ !lanesHealthy s p (typeLanes (portType s p)) then
    portEvent (setDegraded s p true) p 8
  else s

/-- Bring-up starts, or the port is held with the cause that stands against it (R114). -/
def startBringup (s : State) (p : Nat) : State :=
  let c := holdCause s p
  if c ≠ 0 then enterHeld s p c
  else
    let s := setHold (setPortState (setStage (stopPort s p) p .off) p 1) p 0
    let s := putPort s p { s.port p with resolved := 0, fec := 0 }
    if portType s p = 13 then startTrunk s p
    else if portNeg s p = 2 then startNrz s p
    else if portNeg s p = 1 then startAn s p
    else
      let t := (fittingType s p).getD 0
      markDegraded (takeType s p t) p t

/-- The port is enabled while the data path is not in RUN: it waits with its lanes off. -/
def parkPort (s : State) (p : Nat) : State :=
  lanesOff (setHold (setPortState (setStage (stopPort s p) p .off) p 1) p 0) p

/-- Bring-up of an enabled port, as soon as the data die is in RUN. -/
def bringUp (s : State) (p : Nat) : State := if inRun s then startBringup s p else parkPort s p

/-- The port is DISABLED. -/
def enterDisabled (s : State) (p : Nat) : State :=
  let s := setHold (setPortState (setStage (stopPort s p) p .off) p 0) p 0
  lanesOff (s.setBit (A.PORT_STAT p) 8 false) p

/-! UP. -/

/-- At UP the port signals the pressure of its groups anew (R262): a group under pressure stays under it as R261 has it. -/
def resignal (s : State) (p : Nat) : State :=
  (List.range 8).foldl (fun s c =>
    let s := refreshPg s (8 * p + c)
    if (s.pg (8 * p + c)).pressure && !isTrunk s p then sendPfc s p c (pfcQuanta s) else s) s

/-- DEGRADED at a bring-up (R118): it clears at the full configured type; on a trunk it says that the set is narrowed. -/
def upDegraded (s : State) (p : Nat) : State :=
  if typeEff s p = 13 then setDegraded s p (decide (s.fld (A.PORT_TRK_STAT p) 23 16 ≠ 255))
  else if typeEff s p = portType s p then setDegraded s p false else s

/-- The port enters UP (R114). -/
def enterUp (s : State) (p : Nat) : State :=
  let s := setStage (stopPort s p) p .off
  let s := upDegraded ((setHold (setPortState s p 2) p 0).setBit (A.PORT_STAT p) 10 true) p
  let s := ptpRestart s p
  let s := resignal (portEvent s p 1) p
  refreshMigration s

/-- The module's data path does not hold the port back (R120). -/
def moduleReady (s : State) (p : Nat) : Bool := !modManaged s p || (s.port p).modReady

/-- Every lane that the port uses is in SERVICE. -/
def lanesServe (s : State) (p : Nat) : Bool :=
  !(usedLanes s p).isEmpty && (usedLanes s p).all fun l => inService s l

/-- Link OK in BRINGUP of a fixed or resolved Ethernet port. -/
def linkUp (s : State) (p : Nat) : State :=
  if inRun s = true ∧ portState s p = 1 ∧ typeEff s p ≠ 0 ∧ typeEff s p ≠ 13 ∧ (s.port p).stage = .off ∧ lanesServe s p ∧ moduleReady s p then
    enterUp s p
  else s

/-! The quench. -/

/-- A frame that was being received when UP ended is dropped (R114). What already cuts through is cut short and
stomped. -/
def dropPartial (s : State) (p : Nat) : State :=
  let fs := s.buf.frames.filter fun f => decide (f.inPort = p) && !arrived s f
  let s := { s with cls := { s.cls with arriving := s.cls.arriving.filter (· ≠ p) } }
  fs.foldl (fun s f => cutFrame s f dropCut) s

/-- What a trunk's link layer holds when UP ends: what came in and is not classified is gone; what is being sent, and the link
itself, end with it unless the cause is ENABLE = 0 (R115). -/
def quenchTrunk (s : State) (p : Nat) (disable : Bool) : State :=
  let s := putTrunk s p { s.trunk p with delivered := [], taken := [], unreleased := [], partials := [], partialAt := [], early := [] }
  if disable then s
  else ((putTrunk s p { s.trunk p with streams := [] }).wr (A.PORT_TRK_STAT p) 0).setBit (A.PORT_TRK_RTT p) 31 false

/-- The port leaves UP, and its quench begins (R114, R115). `disable`: the cause is ENABLE = 0. -/
def startQuench (s : State) (p : Nat) (disable : Bool) : State :=
  if portState s p ≠ 2 then s
  else
    let bound := 10 * us + portCells s p * us / 4096
    let s := setPortState ((stopPort s p).setBit (A.PORT_STAT p) 10 false) p 3
    let s := putPort s p { s.port p with quench := s.now + bound, stage := .off }
    let s := (List.range 8).foldl (fun s c => s.stop (.pfcRepeat p c)) (putEg s p { s.eg p with pfc := [], acts := [], msgs := [] })
    let s := dropPartial (flushPort (portEvent s p 2) p disable) p
    let s := if typeEff s p = 13 then quenchTrunk s p disable else s
    refreshPending (refreshMigration (tbPortLost s p)) p

/-- The quench can end: what it lets complete has left; the records of a trunk have until its limit (R115). -/
def quenchOver (s : State) (p : Nat) : Bool :=
  decide (portState s p = 3) && (s.eg p).busy.isNone &&
    (!streamsWait s p || decide ((s.port p).quench ≤ s.now))

/-- The shed set takes or gives up a port (R39, R42): each change raises source 1. -/
def setShed (s : State) (p : Nat) (b : Bool) : State :=
  if (s.port p).shed = b then s
  else
    let s := putPort s p { s.port p with shed := b }
    let s := s.setBit (A.PWR_SHED (p / 32)) (p % 32) b
    let n := s.fld A.PWR_STAT 9 3
    (s.setFld A.PWR_STAT 9 3 (if b then n + 1 else n - 1)).raise 1

/-- The quench ends (R114 to R116). A restoration that waited for it takes effect (R43). -/
def quenchDone (s : State) (p : Nat) : State :=
  if !quenchOver s p then s
  else
    let s := if (s.port p).restore then setShed s p false else s
    let s := putPort s p { s.port p with restore := false, quench := 0 }
    let s := (portEvent s p 4).setBit (A.PORT_STAT p) 11 false
    if !portEnabled s p then enterDisabled s p else bringUp s p

/-! Software. -/

/-- The lanes of a port that is enabled leave TEST (R92). -/
def leaveTests (s : State) (p : Nat) : State :=
  (lanesOfPort p).foldl (fun s l =>
    if laneState s l = 9 then laneOff (setPrbsLock (s.setBit (A.LANE_TEST l) 0 false) l false) l else s) s

/-- PORT.CTRL.ENABLE is written (R92, R114, R116). Before the release, the port stays DISABLED (R47); during sleep entry
it waits for the wake (R117). -/
def writeEnable (s : State) (p : Nat) (b : Bool) : State :=
  if portEnabled s p = b then s
  else
    let s := s.setBit (A.PORT_CTRL p) 0 b
    if b then
      let s := leaveTests s p
      (if portState s p = 3 then refreshPending s p else if inRun s then startBringup s p
       else if bootState s = 8 then parkPort s p else s)
    else if portState s p = 2 then startQuench s p true
    else if portState s p = 3 then
      refreshPending (lanesOff (s.setBit (A.PORT_STAT p) 8 false) p) p
    else enterDisabled s p

/-- PORT.CTRL.ENABLE = 1 is rejected at a port without a type (R95). -/
def enableBad (s : State) (p : Nat) (b : Bool) : Bool := b && decide (portType s p = 0)

/-- PORT.CTRL.RESTART (R102, R114). -/
def restartPort (s : State) (p : Nat) : State :=
  let s := s.setBit (A.PORT_STAT p) 8 false
  if portState s p = 2 then startQuench s p false
  else if portState s p = 4 ∨ portState s p = 1 then bringUp s p
  else s

/-- A write of PORT.CFG that is rejected (R95, R246). -/
def portCfgBad (s : State) (p v : Nat) : Bool :=
  let t := bits v 3 0
  let neg := bits v 5 4
  decide (14 ≤ t) || decide (neg = 3) || decide (bits v 9 8 = 3) || !negAccepted t neg ||
    (decide (t = 13) && decide (8 ≤ ((List.range 64).filter fun q => decide (q ≠ p) && decide (portType s q = 13)).length)) ||
    (decide (t = 0) && portEnabled s p) ||
    (decide (t ≠ portType s p) && decide (sharedSize (s.setFld (A.PORT_CFG p) 3 0 t) < 131072))

/-- PORT.CFG is written (R97): a new TYPE, NEG or FEC25 is taken through a quench and bring-up. -/
def writePortCfg (s : State) (p v : Nat) : State :=
  let old := s.rd (A.PORT_CFG p)
  let s := s.wr (A.PORT_CFG p) (v &&& 0x00FF073F)
  let s := (List.range 8).foldl (fun s c => if old.testBit (16 + c) = v.testBit (16 + c) then s else refreshPg s (8 * p + c)) s
  let s := if bits old 3 0 = bits v 3 0 then s else refreshGlobal s
  if bits old 3 0 = bits v 3 0 ∧ bits old 5 4 = bits v 5 4 ∧ bits old 9 8 = bits v 9 8 then
    (if old.testBit 10 = v.testBit 10 then s
     else if portState s p = 2 ∧ holdCause s p = 5 then startQuench s p false
     else if portState s p = 4 ∧ portHold s p = 5 then bringUp s p
     else s)
  else if portState s p = 2 then startQuench s p false
  else if portState s p = 1 ∨ portState s p = 4 then bringUp s p
  else s

/-! Clause 73 (R98). -/

/-- The types that the port advertises. -/
def advertises (s : State) (p t : Nat) : Bool :=
  portAllows s p t && lanesHealthy s p (typeLanes t) &&
    (if portType s p ≤ 8 then decide (1 ≤ t ∧ t ≤ 8) else decide (9 ≤ t ∧ t ≤ 11))

/-- The Clause 73 priority order (PRESUMED: IEEE 802.3). -/
def anOrder : List Nat := [1, 3, 2, 5, 4, 7, 6, 8, 9, 10, 11]

/-- The port negotiates. -/
def negotiating (s : State) (p : Nat) : Bool :=
  decide (portState s p = 1) && decide (portNeg s p = 1) && decide (typeEff s p = 0) && s.bit (A.PORT_STAT p) 16

/-- The FEC abilities that the port advertises for E25_1, those that CFG.FEC25 names (R98): bit 0 Clause 74, bit 1
RS(528,514). -/
def advertisedFec (s : State) (p : Nat) : Nat :=
  match s.fld (A.PORT_CFG p) 9 8 with | 1 => 1 | 2 => 2 | _ => 0

/-- The FEC that both ends advertise, coded as CFG.FEC25. -/
def commonFec (s : State) (p partner : Nat) : Nat :=
  let c := advertisedFec s p &&& partner
  if c.testBit 1 then 2 else bit01 (c.testBit 0)

/-- Negotiation ends: the highest common ability with the common FEC, or a restart after 1 s. -/
def anComplete (s : State) (p common fec : Nat) : State :=
  if negotiating s p && !s.runs (.anRestart p) then
    match anOrder.find? fun t => advertises s p t && common.testBit t with
    | some t => markDegraded (takeType (putPort s p { s.port p with fec := commonFec s p fec }) p t) p t
    | none => s.start (.anRestart p) (1000 * ms)
  else s

/-- Negotiation restarts. -/
def anRestart (s : State) (p : Nat) : State :=
  if s.due (.anRestart p) then startAn (s.stop (.anRestart p)) p else s

/-! Step-up (R99 to R102). -/

/-- The page is valid (R100). -/
def pageValid (b : List Nat) : Bool :=
  decide (b.take 4 = [0x53, 0x55, 0x50, 1]) && decide (slice b 12 16 = List.replicate 16 0) &&
    decide (b.getD 10 0 ∈ ([1, 2, 4, 8] : List Nat)) && decide (beNat (slice b 28 4) = crc32c (b.take 28))

/-- A page apart from its FLAGS. -/
def pageBody (b : List Nat) : List Nat := b.take 11 ++ slice b 12 16

/-- Both pages carry ACK: the width and the final rate are agreed (R101), or the port is held with NO_COMMON. A STEP2_FAIL of
an earlier bring-up does not bear on the rate (DESIGN CHOICE, assumption 105). -/
def stepUpAgree (s : State) (p : Nat) (b : List Nat) : State :=
  let h := s.port p
  let k := Nat.min h.kmax (b.getD 10 0)
  let both := h.caps &&& b.getD 9 0
  if both.testBit 1 then startSlow (putPort s p { h with width := k, fast := true }) p
  else if both.testBit 0 then startSlow (putPort s p { h with width := k, fast := false }) p
  else enterHeld s p 6

/-- Four blocks carry a page where all of them are control blocks (R99). Data blocks belong to the stream behind the
descrambler. -/
def pageOf (blocks : List (BitVec 2 × List Byte)) : Option (List Nat) :=
  if blocks.all fun b => decide (b.1.toNat = syncHeader true) then some (toNats (blocks.flatMap (·.2))) else none

/-- A step-up page arrives (R100, R102). -/
def stepUpPage (s : State) (p : Nat) (b : List Nat) : State :=
  let h := s.port p
  if h.stage ≠ .nrz ∨ portState s p ≠ 1 ∨ !pageValid b then s
  else
    let n := if toNats h.page = pageBody b then h.pages + 1 else 1
    let s := putPort s p { h with page := ofNats (pageBody b), pages := n }
    let s := s.start (.suPartner p) (2000 * ms)
    if n < 3 then s
    else
      let node := beNat (slice b 4 2)
      let s := s.wr (A.PORT_PARTNER p) (2 ^ 31 + bits (b.getD 8 0) 5 0 * 2 ^ 16 + node)
      let clash := decide (node = s.fld A.GLB_NODE_ID 15 0)
      let s := if (s.port p).acked && !clash then s
        else sendPage (putPort s p { s.port p with acked := true, conflict := clash }) p
      if clash then enterHeld s p 2
      else if (b.getD 11 0).testBit 0 then stepUpAgree s p b
      else s

/-- No valid page for 2 s. -/
def stepUpNoPartner (s : State) (p : Nat) : State := if s.due (.suPartner p) then enterHeld s p 4 else s

/-- Link OK in SU_SLOW: QUAL. -/
def stepUpSlowOk (s : State) (p : Nat) : State :=
  if (s.port p).stage = .slow ∧ portState s p = 1 ∧ lanesServe s p then
    (setStage (s.stop (.suSlow p)) p .qual).start (.suQual p) (100 * ms)
  else s

/-- SU_SLOW without link for 1 s. -/
def stepUpSlowOut (s : State) (p : Nat) : State := if s.due (.suSlow p) then startNrz (portEvent s p 128) p else s

/-- QUAL is complete. -/
def stepUpQualified (s : State) (p : Nat) : State :=
  if s.due (.suQual p) then
    (if (s.port p).fast then
       (takeType (setStage (stopPort s p) p .fast) p (typeOfWidth 5 (s.port p).width)).start (.suFast p) (1000 * ms)
     else if moduleReady s p then
       enterUp (if (s.port p).width < typeLanes (portType s p) then markDegraded s p (typeEff s p) else s) p
     else s)
  else s

/-- Link OK in SU_FAST. -/
def stepUpFastOk (s : State) (p : Nat) : State :=
  if (s.port p).stage = .fast ∧ portState s p = 1 ∧ lanesServe s p ∧ moduleReady s p ∧ !s.due (.suFast p) then
    enterUp (if (s.port p).width < typeLanes (portType s p) then markDegraded s p (typeEff s p) else s) p
  else s

/-- SU_FAST without link for 1 s. -/
def stepUpFastOut (s : State) (p : Nat) : State :=
  if s.due (.suFast p) then
    startSlow (putPort (portEvent (s.setBit (A.PORT_STAT p) 8 true) p 128) p { s.port p with fast := false }) p
  else s

/-- A step-up hold is tried again (R102). -/
def stepUpRetry (s : State) (p : Nat) : State := if s.due (.holdRetry p) then bringUp s p else s

/-- An uncorrectable codeword in QUAL. -/
def stepUpCodeword (s : State) (p : Nat) : State :=
  if (s.port p).stage = .qual ∧ portState s p = 1 then s.start (.suQual p) (100 * ms) else s

/-- A link fault in QUAL. -/
def stepUpFault (s : State) (p : Nat) : State :=
  if (s.port p).stage = .qual ∧ portState s p = 1 then
    (setStage (s.stop (.suQual p)) p .slow).start (.suSlow p) (1000 * ms)
  else s

/-! What a change of a lane does to its port. -/

/-- REACH_OK (R110): the round trip does not exceed 62 block times minus 200 ns at the present width. -/
def refreshReach (s : State) (p : Nat) : State :=
  let n := activeLanes s p
  let rtt := s.fld (A.PORT_TRK_RTT p) 23 0
  s.setBit (A.PORT_TRK_STAT p) 3
    (s.bit (A.PORT_TRK_RTT p) 31 && decide (n ≠ 0) && decide ((rtt + 200) * 100 * n ≤ 62 * 16896))

/-- The transmit active set of a trunk changes (R106): WIDTH, and an empty set takes the port down. -/
def setActive (s : State) (p m : Nat) : State :=
  if s.fld (A.PORT_TRK_STAT p) 23 16 = m then s
  else
    let s := portEvent (portChanged (refreshReach (s.setFld (A.PORT_TRK_STAT p) 23 16 m) p) p) p 32
    if !portUp s p then s
    else if m = 0 then startQuench s p false
    else setDegraded s p (decide (m ≠ 255))

/-- Port lane `j` of a trunk has left SERVICE: it leaves both sets at once (R106). -/
def trunkLaneLeft (s : State) (p j : Nat) : State :=
  let h := s.trunk p
  let r := Map.get ({} : MarkerLane) h.lanes j
  let s := putTrunk s p { h with lanes := Map.put {} h.lanes j {} }
  let s := if r.locked then
      (s.setBit (A.PORT_TRK_STAT p) (8 + r.logical) false).setFld (A.PORT_TRK_MAP p) (4 * r.logical + 3) (4 * r.logical) 0
    else s
  let m := s.fld (A.PORT_TRK_STAT p) 23 16
  setActive s p (if m.testBit j then m - 2 ^ j else m)

/-- A used lane of the port is retired (R112, R118). -/
def retireEffect (s : State) (p : Nat) : State :=
  if portType s p = 13 then
    let s := setUsed s p (((List.range 8).map fun j =>
      if s.bit (A.PORT_STAT p) (16 + j) && laneHealthy s (8 * p + j) then 2 ^ j else 0).sum)
    (if noLanes s p && decide (portState s p = 1 ∨ portState s p = 4 ∧ portHold s p = 2) then enterHeld s p 3 else s)
  else if portState s p = 2 then startQuench (s.setBit (A.PORT_STAT p) 8 false) p false
  else if portState s p = 1 then bringUp s p
  else s

/-- What follows a step of lane `l`, given the states that it had before and the port's use of it. -/
def laneAfter (before s : State) (l : Nat) : State :=
  let p := portOfLane l
  let s := refreshPhase s p
  let s :=
    if typeEff s p = 13 then
      (if inService before l && !inService s l then trunkLaneLeft s p (l % 8)
       else if inService s l ∧ portState s p = 1 ∧ s.fld (A.PORT_TRK_STAT p) 2 0 = 0 then s.setFld (A.PORT_TRK_STAT p) 2 0 1
       else s)
    else s
  if laneState s l = 10 ∧ laneState before l ≠ 10 ∧ before.bit (A.PORT_STAT p) (16 + l % 8) then retireEffect s p else s

/-- A lane is unretired (R90, R118): a port held with NO_LANES tries again, and a trunk takes the lane. -/
def unretire (s : State) (l : Nat) : State :=
  if laneState s l ≠ 10 then s
  else
    let p := portOfLane l
    let s := if typeEff s p = 13 then s.setBit (A.PORT_STAT p) (16 + l % 8) true else s
    let s := unretireLane s l (givenMode s p (l % 8)) (decide (typeEff s p = 13))
    if portState s p = 4 ∧ portHold s p = 3 then bringUp s p else s

/-! Modules (R120). -/

/-- The sideband chain is scanned (R414): PRS_N and INT_N of every port, low where the module is there or asks. -/
def sidebandPort (s : State) (p : Nat) (here int : Bool) : State :=
  let h := s.port p
  let s := putPort s p { h with present := here, modInt := int, modReady := h.modReady && here }
  if !modManaged s p then s
  else if here then (if portState s p = 4 ∧ portHold s p = 5 then bringUp s p else refreshPending s p)
  else if portState s p = 2 then startQuench s p false
  else if portState s p = 1 ∧ inRun s then enterHeld s p 5
  else refreshPending s p

/-- The output bits of a scan: SEL_N, RESET_N and LPMODE of each port, port 63 first. What the firmware drives there in the
course of CMIS is open. -/
def sidebandOut (s : State) : State :=
  let (x, s) := s.draw
  s.emit (.sideband ((List.range 64).reverse.flatMap fun p => (List.range 3).map fun j => x / 2 ^ (3 * p + j) % 2))

def sidebandScan (s : State) (prs intN : Nat) : State :=
  let s := sidebandOut s
  (List.range 64).foldl (fun s p => sidebandPort s p (!prs.testBit p) (!intN.testBit p)) s

/-- The module of port `p` reaches DataPathActivated. -/
def moduleActivated (s : State) (p : Nat) : State :=
  if (s.port p).present then putPort s p { s.port p with modReady := true } else s

/-! Flow control on Ethernet ports (R113, R265). -/

/-- The classes on which a received PFC frame acts. -/
def pfcActs (s : State) (p vector : Nat) : List Nat :=
  (List.range 8).filter fun c => vector.testBit c && s.bit (A.PORT_CFG p) (16 + c)

/-- A received PFC frame. Quanta of 0 end a pause. -/
def pfcReceive (s : State) (p vector : Nat) (quanta : List Nat) : State :=
  if !portUp s p then s
  else
    let s := s.pmcEvent (runnerOfPort p) (0x045 + 16 * (p % 4)) 1
    if isTrunk s p || (pfcActs s p vector).isEmpty then s.add64 (A.PORT_PAUSE_RX_LO p) 1
    else
      (pfcActs s p vector).foldl (fun s c =>
        let q := quanta.getD c 0
        if q = 0 then s.stop (.pfcPause p c) else s.start (.pfcPause p c) (pauseNs s p q)) s

/-- A pause has elapsed. -/
def pfcExpire (s : State) (p c : Nat) : State := if s.due (.pfcPause p c) then s.stop (.pfcPause p c) else s

/-- Any other received MAC control frame (R96). -/
def macControl (s : State) (p : Nat) : State := if portUp s p then s.add64 (A.PORT_PAUSE_RX_LO p) 1 else s

/-- The XOFF of a class is repeated (R262). -/
def pfcRepeatTick (s : State) (p c : Nat) : State :=
  if s.due (.pfcRepeat p c) && portUp s p then sendPfc (s.stop (.pfcRepeat p c)) p c (pfcQuanta s) else s

end Sys2Proof.Machine
end

