-- ==== Sys2Proof/Machine/Parser.lean ====
section
/-! DEFINITION. The parser and the key (R228 to R231), the spread tag of a received frame (R277, R279), and the key
fields that a PINNED group hashes (R280). Frames are lists of byte values here, up to the end of the FCS. -/

namespace Sys2Proof.Machine

/-- The fields of the key (table Key layout), apart from those that the frame's arrival gives. -/
structure Key where
  outerOnly : Bool := false
  tunnel    : Bool := false
  frag      : Nat := 0
  ntags     : Nat := 0
  spread    : Bool := false
  l3        : Nat := 0
  l4        : Nat := 0
  subtype   : Nat := 0
  etherType : Nat := 0
  dmac      : Nat := 0
  smac      : Nat := 0
  tag0      : Nat := 0
  tag1      : Nat := 0
  dscp      : Nat := 0
  proto     : Nat := 0
  sip       : Nat := 0
  dip       : Nat := 0
  l4src     : Nat := 0
  l4dst     : Nat := 0
  deriving DecidableEq, Repr

/-- How far the parser came with a header: read, beyond the end of the frame, or beyond byte 255. -/
inductive Reach where
  | ok | trunc | deep
  deriving DecidableEq, Repr

/-- Whether a header that ends before byte `e` can be read: the nearer of the two limits decides. -/
def reach (d : List Nat) (e : Nat) : Reach :=
  if e ≤ d.length ∧ e ≤ 256 then .ok else if d.length ≤ 256 then .trunc else .deep

/-- The number of `n` bytes at byte `o` (R4). -/
def beAt (d : List Nat) (o n : Nat) : Nat := beNat (slice d o n)

def byteAt (d : List Nat) (o : Nat) : Nat := d.getD o 0

/-- The result of a part of the parse: a failure cause of R228, a header beyond byte 255, a tunnel that is not opened,
or what was read. -/
inductive Parse (α : Type) where
  | fail (cause : Nat)
  | deep
  | shut
  | ok (v : α)

/-- Goes on where a part was read. -/
def Parse.andThen {α β : Type} (x : Parse α) (f : α → Parse β) : Parse β :=
  match x with
  | .fail c => .fail c
  | .deep => .deep
  | .shut => .shut
  | .ok v => f v

/-- A header that ends before byte `e` is read. -/
def need (d : List Nat) (e : Nat) : Parse Unit :=
  match reach d e with
  | .ok => .ok ()
  | .trunc => .fail 1
  | .deep => .deep

/-- Layer 2: the place of the EtherType behind the tags, the tags, and whether a spread tag was present. -/
structure L2 where
  at_    : Nat
  tags   : List Nat
  spread : Bool
  deriving DecidableEq, Repr

/-- Walks the spread tag and the VLAN tags (table Headers the parser recognises). -/
def walkTags (d : List Nat) : Nat → L2 → Parse L2
  | 0, _ => .fail 2
  | fuel + 1, x =>
    let et := beAt d x.at_ 2
    if et = 0x88B5 ∧ byteAt d (x.at_ + 2) = 1 ∧ x.at_ + 2 < d.length then
      if x.spread then .fail 2
      else (need d (x.at_ + 14)).andThen fun _ => walkTags d fuel { x with at_ := x.at_ + 12, spread := true }
    else if et = 0x8100 ∨ et = 0x88A8 then
      if x.tags.length = 2 then .fail 2
      else (need d (x.at_ + 6)).andThen fun _ =>
        walkTags d fuel { x with at_ := x.at_ + 4, tags := x.tags ++ [beAt d (x.at_ + 2) 2] }
    else .ok x

def parseL2 (d : List Nat) : Parse L2 :=
  (need d 14).andThen fun _ => walkTags d 4 ⟨12, [], false⟩

/-- Layer 3. -/
structure L3 where
  kind  : Nat
  dscp  : Nat
  proto : Nat
  sip   : Nat
  dip   : Nat
  frag  : Nat
  stop  : Nat
  deriving DecidableEq, Repr

/-- The one's complement sum of 16-bit words, folded to 16 bits. -/
def onesSum (l : List Nat) (n : Nat) : Nat :=
  let t := ((List.range n).map fun i => beAt l (2 * i) 2).sum
  let t := t % 65536 + t / 65536
  t % 65536 + t / 65536

/-- FRAG from an offset and the more-fragments bit. -/
def fragOf (offset : Nat) (more : Bool) : Nat := if offset ≠ 0 then 2 else bit01 more

def parseV4 (d : List Nat) (o cfg : Nat) : Parse L3 :=
  (need d (o + 20)).andThen fun _ =>
    let ihl := byteAt d o % 16
    if byteAt d o / 16 ≠ 4 ∨ ihl < 5 then .fail 3
    else (need d (o + 4 * ihl)).andThen fun _ =>
      let tl := beAt d (o + 2) 2
      if tl < 4 * ihl ∨ d.length < o + tl then .fail 3
      else if cfg.testBit 18 && decide (onesSum (slice d o (4 * ihl)) (2 * ihl) ≠ 65535) then .fail 4
      else
        let ff := beAt d (o + 6) 2
        .ok ⟨1, byteAt d (o + 1), byteAt d (o + 9), beAt d (o + 12) 4, beAt d (o + 16) 4,
             fragOf (ff % 8192) (ff.testBit 13), o + 4 * ihl⟩

/-- The extension headers that the parser recognises. -/
def isExt (nh : Nat) : Bool := decide (nh ∈ ([0, 43, 44, 60, 51] : List Nat))

/-- The length of an extension header (PRESUMED: RFC 8200, RFC 4302). -/
def extLen (nh len : Nat) : Nat := if nh = 44 then 8 else if nh = 51 then (len + 2) * 4 else (len + 1) * 8

/-- Walks the extension headers: how many may follow, the next header, its place, and FRAG. -/
def walkExt (d : List Nat) : Nat → Nat → Nat → Nat → Parse (Nat × Nat × Nat)
  | n, nh, p, frag =>
    if !isExt nh then .ok (nh, p, frag)
    else
      match n with
      | 0 => .fail 6
      | m + 1 =>
        (need d (p + 2)).andThen fun _ =>
          let len := extLen nh (byteAt d (p + 1))
          (need d (p + len)).andThen fun _ =>
            let w := beAt d (p + 2) 2
            walkExt d m (byteAt d p) (p + len) (if nh = 44 then fragOf (w / 8) (w.testBit 0) else frag)

def parseV6 (d : List Nat) (o : Nat) : Parse L3 :=
  (need d (o + 40)).andThen fun _ =>
    if byteAt d o / 16 ≠ 6 ∨ d.length < o + 40 + beAt d (o + 4) 2 then .fail 5
    else (walkExt d 4 (byteAt d (o + 6)) (o + 40) 0).andThen fun x =>
      .ok ⟨2, beAt d o 2 / 16 % 256, x.1, beAt d (o + 8) 16, beAt d (o + 24) 16, x.2.2, x.2.1⟩

/-- An IP header at byte `o`. -/
def parseIp (d : List Nat) (o et cfg : Nat) : Parse L3 :=
  if et = 0x0800 then parseV4 d o cfg else parseV6 d o

/-- Layer 4: type, source, destination. -/
structure L4 where
  kind : Nat
  src  : Nat
  dst  : Nat
  deriving DecidableEq, Repr

/-- The layer 4 header behind an IP header. ICMP is recognised behind IPv4 alone. -/
def parseL4 (d : List Nat) (x : L3) : Parse L4 :=
  let p := x.stop
  if x.proto = 6 then
    (need d (p + 20)).andThen fun _ =>
      (need d (p + Nat.max 20 (4 * (byteAt d (p + 12) / 16)))).andThen fun _ => .ok ⟨1, beAt d p 2, beAt d (p + 2) 2⟩
  else if x.proto = 17 then (need d (p + 8)).andThen fun _ => .ok ⟨2, beAt d p 2, beAt d (p + 2) 2⟩
  else if x.proto = 58 ∨ (x.proto = 1 ∧ x.kind = 1) then
    (need d (p + 4)).andThen fun _ => .ok ⟨3, beAt d p 2, 0⟩
  else .ok ⟨15, 0, 0⟩

/-! Tunnels (R229). -/

/-- The inner headers of a tunnel: IP and L4, with TUN_ID and TUN_TYPE. -/
structure Inner where
  ip  : L3
  l4  : L4
  id  : Nat
  typ : Nat
  deriving DecidableEq, Repr

/-- The inner packet at byte `o`: it must not be a non-first fragment. -/
def openIp (d : List Nat) (o et cfg id typ : Nat) : Parse Inner :=
  if et ≠ 0x0800 ∧ et ≠ 0x86DD then .shut
  else (parseIp d o et cfg).andThen fun x =>
    if x.frag = 2 then .shut
    else (parseL4 d x).andThen fun y => .ok ⟨x, y, id, typ⟩

/-- The inner Ethernet header at byte `o`, with at most one VLAN tag. -/
def openEth (d : List Nat) (o cfg id typ : Nat) : Parse Inner :=
  (need d (o + 14)).andThen fun _ =>
    let et := beAt d (o + 12) 2
    if et = 0x8100 ∨ et = 0x88A8 then
      (need d (o + 18)).andThen fun _ => openIp d (o + 18) (beAt d (o + 16) 2) cfg id typ
    else openIp d (o + 14) et cfg id typ

/-- A GRE header at byte `p`. Its checksum, key and sequence words are optional (PRESUMED: RFC 2784, RFC 2890). -/
def openGre (d : List Nat) (p cfg : Nat) : Parse Inner :=
  if !cfg.testBit 17 then .shut
  else (need d (p + 4)).andThen fun _ =>
    let w := beAt d p 2
    let pt := beAt d (p + 2) 2
    if w % 8 ≠ 0 ∨ w.testBit 14 = true ∨ (pt ≠ 0x0800 ∧ pt ≠ 0x86DD ∧ pt ≠ 0x6558) then .shut
    else
      let c := 4 * bit01 (w.testBit 15)
      let k := 4 * bit01 (w.testBit 13)
      let q := p + 4 + c + k + 4 * bit01 (w.testBit 12)
      (need d q).andThen fun _ =>
        let id := if w.testBit 13 then beAt d (p + 4 + c) 4 else 0
        if pt = 0x6558 then openEth d q cfg id 1 else openIp d q pt cfg id 1

/-- A VXLAN header at byte `p` (PRESUMED: RFC 7348, where bit 3 of its first byte is the I flag). -/
def openVxlan (d : List Nat) (p cfg : Nat) : Parse Inner :=
  if !cfg.testBit 16 then .shut
  else (need d (p + 8)).andThen fun _ =>
    if !(byteAt d p).testBit 3 then .shut else openEth d (p + 8) cfg (beAt d (p + 4) 3) 2

/-- The key of the outermost headers alone (R230). -/
def outerKey (k : Key) : Key :=
  { k with outerOnly := true, tunnel := false, l4 := 0, l4src := 0, l4dst := 0 }

/-- The key of an opened tunnel (R231). -/
def innerKey (k : Key) (x : Inner) : Key :=
  { k with tunnel := true, l3 := x.ip.kind, dscp := x.ip.dscp, proto := x.ip.proto, sip := x.ip.sip, dip := x.ip.dip,
           frag := x.ip.frag, l4 := x.l4.kind, l4src := x.l4.src, l4dst := x.l4.dst, smac := x.id * 65536 + x.typ * 256 }

/-- What a tunnel makes of the key: opened, or the outermost headers. -/
def tunnelKey (k : Key) (x : Parse Inner) : Parse Key :=
  match x with
  | .fail c => .fail c
  | .ok v => .ok (innerKey k v)
  | _ => .ok (outerKey k)

/-- The key of an IP frame whose IP header is `x`. -/
def ipKey (d : List Nat) (cfg : Nat) (k : Key) (x : L3) : Parse Key :=
  let k := { k with l3 := x.kind, dscp := x.dscp, proto := x.proto, sip := x.sip, dip := x.dip, frag := x.frag }
  if x.frag = 2 ∨ x.proto = 4 ∨ x.proto = 41 ∨ x.proto = 115 then .ok (outerKey k)
  else if x.proto = 47 then (if x.frag ≠ 0 then .ok (outerKey k) else tunnelKey k (openGre d x.stop cfg))
  else
    match parseL4 d x with
    | .fail c => .fail c
    | .ok y =>
      let k4 := { k with l4 := y.kind, l4src := y.src, l4dst := y.dst }
      if y.kind = 2 ∧ y.dst = cfg % 65536 then
        (if x.frag ≠ 0 then .ok (outerKey k) else tunnelKey k4 (openVxlan d (x.stop + 8) cfg))
      else if y.kind = 2 ∧ y.dst = 6081 then .ok (outerKey k)
      else .ok k4
    | _ => .ok (outerKey k)

/-- The key of a frame under the parser setting `cfg`, or its failure cause (R228). -/
def parseKey (d : List Nat) (cfg : Nat) : Parse Key :=
  match parseL2 d with
  | .fail c => .fail c
  | .ok x =>
    let et := beAt d x.at_ 2
    let k : Key := { etherType := et, dmac := beAt d 0 6, smac := beAt d 6 6, ntags := x.tags.length, spread := x.spread,
                     tag0 := x.tags.getD 0 0, tag1 := x.tags.getD 1 0 }
    let o := x.at_ + 2
    if et = 0x88B5 then
      (if 256 < o + 33 then .fail 7
       else .ok { k with l3 := 3, subtype := byteAt d o, sip := beAt d (o + 1) 16, dip := beAt d (o + 17) 16 })
    else if et = 0x0806 then .ok { k with l3 := 4 }
    else if et = 0x0800 ∨ et = 0x86DD then
      match parseIp d o et cfg with
      | .fail c => .fail c
      | .ok ip => ipKey d cfg k ip
      | _ => .fail 7
    else .ok { k with l3 := 15 }
  | _ => .fail 7

/-- The 480 bits of the key (table Key layout), with the frame's port, pass and TS_FLAG. -/
def keyBits (k : Key) (port pass : Nat) (ts : Bool) : Nat :=
  port * 2 ^ 474 + pass * 2 ^ 472 + bit01 k.outerOnly * 2 ^ 471 + bit01 k.tunnel * 2 ^ 470 + k.frag * 2 ^ 468
    + k.ntags * 2 ^ 466 + bit01 ts * 2 ^ 465 + bit01 k.spread * 2 ^ 464 + k.l3 * 2 ^ 460 + k.l4 * 2 ^ 456
    + k.subtype * 2 ^ 448 + k.etherType * 2 ^ 432 + k.dmac * 2 ^ 384 + k.smac * 2 ^ 336 + k.tag0 * 2 ^ 320
    + k.tag1 * 2 ^ 304 + k.dscp * 2 ^ 296 + k.proto * 2 ^ 288 + k.sip * 2 ^ 160 + k.dip * 2 ^ 32 + k.l4src * 2 ^ 16
    + k.l4dst

/-- The fields that HASH_SEL selects from, by select bit (R280). A VID takes two bytes. -/
def hashFields (k : Key) : List (List Nat) :=
  [beBytes 6 k.dmac, beBytes 6 k.smac,
   beBytes 2 k.etherType ++ beBytes 2 (k.tag0 % 4096) ++ beBytes 2 (k.tag1 % 4096),
   beBytes 16 k.sip, beBytes 16 k.dip, [k.proto], beBytes 2 k.l4src ++ beBytes 2 k.l4dst,
   if k.tunnel then beBytes 6 k.smac else []]

/-- The key of a frame that was never classified: that of its own headers (R280). -/
def ownKey (d : List Nat) (cfg : Nat) : Key :=
  match parseKey d cfg with
  | .ok k => k
  | _ => { dmac := beAt d 0 6, smac := beAt d 6 6 }

/-! The spread tag (R277, R279). -/

/-- The frame carries a spread tag at bytes 12 to 23. -/
def hasTag (d : List Nat) : Bool :=
  decide (24 ≤ d.length) && decide (beAt d 12 2 = 0x88B5) && decide (byteAt d 14 = 1)

/-- The tag is well formed: VER and the reserved bits. -/
def tagGood (d : List Nat) : Bool :=
  decide (byteAt d 15 / 16 = 1) && decide (byteAt d 15 % 8 = 0) && decide (byteAt d 18 / 16 = 0) &&
    decide (byteAt d 22 / 8 = 0) && decide (byteAt d 23 / 16 = 0)

def tagOf (d : List Nat) : SpreadTag :=
  ⟨beAt d 16 2, beAt d 18 2 % 4096, beAt d 20 2, (byteAt d 15).testBit 3⟩

/-- The frame without its tag, with the FCS that it then has. -/
def withoutTag (fcs : List Nat → List Nat) (d : List Nat) : List Nat :=
  let body := d.take 12 ++ (d.take (d.length - 4)).drop 24
  body ++ fcs body

end Sys2Proof.Machine
end

