-- ==== Sys2Proof/Machine/PtpMsg.lean ====
section
/-! DEFINITION. The PTP messages that a port generates (R139, R145 to R147): their fields, their transport, and the
stamps of event messages. The formats are those of IEEE 1588-2019, IPv4, IPv6 and UDP (PRESUMED, assumption 81). -/

namespace Sys2Proof.Machine

/-! Messages. -/

/-- The controlField of a messageType. -/
def ptpControl (kind : Nat) : Nat := if kind = 0 then 0 else if kind = 1 then 1 else if kind = 8 then 2 else if kind = 9 then 3 else 5

/-- The logMessageInterval of a messageType. -/
def ptpLog (s : State) (p kind : Nat) : Nat :=
  let x := fun v => v + (if 8 ≤ v then 240 else 0)
  if kind = 0 ∨ kind = 8 then x (s.fld (A.PTP_CFG p) 27 24) else if kind = 9 then x (s.fld (A.PTP_CFG p) 31 28) else 0x7F

/-- The two-step option is in effect: on a trunk the bit is ignored (R147). -/
def twoStep (s : State) (p : Nat) : Bool := s.bit (A.PTP_CFG p) 4 && !isTrunk s p

/-- A message: the time `t` in its timestamp field in whole ns, rounded down, and its fraction with `corr` in the
correctionField (R147). -/
def ptpBytes (s : State) (p kind seq : Nat) (t : Nat) (corr : Int) (target : List Nat) : List Nat :=
  let body := beBytes 6 (t / secUnits % 2 ^ 48) ++ beBytes 4 (ftW0 t) ++ target
  let c := ofSigned 64 (((t % 65536 : Nat) : Int) + corr)
  [kind, 0x12] ++ beBytes 2 (34 + body.length) ++ [s.fld (A.PTP_CFG p) 23 16, 0,
    (if kind = 0 && twoStep s p then 2 else 0), 0] ++ beBytes 8 c ++ [0, 0, 0, 0] ++ portIdentity s p ++ beBytes 2 seq ++
    [ptpControl kind, ptpLog s p kind] ++ body

/-! Transports (R145). -/

/-- The checksum of IPv4 and UDP over bytes. -/
def inetSum (l : List Nat) : Nat := 65535 - onesSum l ((l.length + 1) / 2)

/-- The UDP port of a message: event messages 319, general ones 320. -/
def ptpUdp (kind : Nat) : Nat := if kind = 0 ∨ kind = 1 then 319 else 320

/-- The IPv4 packet to 224.0.1.129 from address `src`. -/
def overIp4 (src kind : Nat) (m : List Nat) : List Nat :=
  let dst := [224, 0, 1, 129]
  let n := 28 + m.length
  let head := fun c => [0x45, 0] ++ beBytes 2 n ++ [0, 0, 0x40, 0, 1, 17] ++ beBytes 2 c ++ beBytes 4 src ++ dst
  head (inetSum (head 0)) ++ beBytes 2 (ptpUdp kind) ++ beBytes 2 (ptpUdp kind) ++ beBytes 2 (8 + m.length) ++ [0, 0] ++ m

/-- The IPv6 packet to FF02::181 from address `src`. -/
def overIp6 (src kind : Nat) (m : List Nat) : List Nat :=
  let dst := [0xFF, 0x02] ++ List.replicate 12 0 ++ [0x01, 0x81]
  let n := 8 + m.length
  let udp := fun c => beBytes 2 (ptpUdp kind) ++ beBytes 2 (ptpUdp kind) ++ beBytes 2 n ++ beBytes 2 c ++ m
  let c := inetSum (beBytes 16 src ++ dst ++ beBytes 4 n ++ [0, 0, 0, 17] ++ udp 0)
  [0x60, 0, 0, 0] ++ beBytes 2 n ++ [17, 1] ++ beBytes 16 src ++ dst ++ udp (if c = 0 then 65535 else c)

/-- The frame of a message on the transport of PTP.CFG: multicast, with the port's source address, padded to 64 bytes. -/
def ptpFrame (s : State) (p addr kind : Nat) (m : List Nat) : List Nat :=
  let smac := beBytes 2 (s.fld (A.PORT_SMAC_HI p) 15 0) ++ beBytes 4 (s.rd (A.PORT_SMAC_LO p))
  let body := match s.fld (A.PTP_CFG p) 2 1 with
    | 0 => [0x01, 0x1B, 0x19, 0, 0, 0] ++ smac ++ [0x88, 0xF7] ++ m
    | 1 => [0x01, 0x00, 0x5E, 0x00, 0x01, 0x81] ++ smac ++ [0x08, 0x00] ++ overIp4 addr kind m
    | _ => [0x33, 0x33, 0, 0, 0x01, 0x81] ++ smac ++ [0x86, 0xDD] ++ overIp6 addr kind m
  let padded := body ++ List.replicate (60 - body.length) 0
  padded ++ fcsOf padded

/-- The source address of the port's IP packets, which the manual does not give. -/
def ptpAddr (s : State) : Nat × State := s.draw

/-! Sending. -/

/-- The message leaves with a flagged timestamp (R147). -/
def noteFlagged (s : State) (p : Nat) : State := if tsqFlagged (portTsq s p) then ptpEvent s p 8 else s

/-- A general message leaves: on an Ethernet port at the next frame boundary outside a reserved window (R301). -/
def sendGeneral (s : State) (p kind seq t : Nat) (corr : Int) (target : List Nat) : State :=
  let (a, s) := ptpAddr s
  let f := ptpFrame s p a kind (ptpBytes s p kind seq t corr target)
  if isTrunk s p then trunkRecord s p 7 false 0 f
  else serveControl (putEg s p { s.eg p with msgs := (s.eg p).msgs ++ [ofNats f] }) p

/-- The bytes of an event message that leaves at `t`: a Sync of a one-step port carries it, a two-step Sync and a
Delay_Req carry 0. -/
def eventBytes (s : State) (p : Nat) (e : PtpEvent) (t : Nat) : List Nat :=
  ptpFrame s p e.addr e.kind (ptpBytes s p e.kind e.seq (if e.kind = 0 && !twoStep s p then t else 0) 0 [])

/-- The egress timestamp of an event message is `t`: a Delay_Req keeps it as t3, and a two-step Sync is followed by its
Follow_Up. -/
def eventStamped (s : State) (p : Nat) (e : PtpEvent) (t : Nat) : State :=
  let s := noteFlagged s p
  if e.kind = 1 then (if (s.ptpOf p).reqSeq = (e.seq + 1) % 65536 then putPtp s p { s.ptpOf p with req := some t } else s)
  else if twoStep s p then sendGeneral s p 8 e.seq t 0 []
  else s

/-- A port can start an event message now: a trunk takes it as a record; an Ethernet port stands at a frame boundary, and the
message ends before the next reserved window (R301). -/
def mayStartEvent (s : State) (p kind seq : Nat) : Bool :=
  isTrunk s p || ((s.eg p).busy.isNone && beforeWindow s p 7 (eventBytes s p ⟨kind, seq, 0⟩ 0).length)

/-- An event message leaves an Ethernet port with the stamp of `st`, which keeps the port busy; on a trunk it waits for its
link block, which stamps it. -/
def sendEvent (s : State) (p kind seq : Nat) (st : TxStamp) : State :=
  let (a, s) := ptpAddr s
  let e : PtpEvent := ⟨kind, seq, a⟩
  if isTrunk s p then
    addRecord s p 7 ⟨frameRecord (eventBytes s p e 0), true, false, 0, some e, false⟩
  else
    let t := txTime s p st
    let b := eventBytes s p e t
    let s := putEg s p { s.eg p with busy := some (s.now + lineNs s p (b.length + 20)) }
    eventStamped (s.emit (.ptp p (ofNats b) t)) p e t

/-- The interval of a signed 4-bit logarithm, −7 to 0, in ns. -/
def ptpInterval (v : Nat) : Nat := 1000000000 / 2 ^ ((16 - v) % 16)

/-- A Sync leaves a port in MASTER when it is due and the line is free, at the interval of LOG_SYNC (R146, R147, R301). -/
def ptpSyncTx (s : State) (p : Nat) (st : TxStamp) : State :=
  let h := s.ptpOf p
  if ptpRuns s p && decide (ptpState s p = 6) && decide (h.syncAt ≤ s.now) && mayStartEvent s p 0 h.syncSeq then
    sendEvent (putPtp s p { h with syncSeq := (h.syncSeq + 1) % 65536
                                   syncAt := s.now + ptpInterval (s.fld (A.PTP_CFG p) 27 24) }) p 0 h.syncSeq st
  else s

/-- A Delay_Req leaves a slave port when it is due and the line is free, at the interval of LOG_DREQ (R146, R301). -/
def ptpDelayReqTx (s : State) (p : Nat) (st : TxStamp) : State :=
  let h := s.ptpOf p
  if ptpRuns s p && decide (8 ≤ ptpState s p) && decide (h.reqAt ≤ s.now) && mayStartEvent s p 1 h.reqSeq then
    sendEvent (putPtp s p { h with reqSeq := (h.reqSeq + 1) % 65536, req := none
                                   reqAt := s.now + ptpInterval (s.fld (A.PTP_CFG p) 31 28) }) p 1 h.reqSeq st
  else s

/-- A master port answers a Delay_Req (R146, R147): receiveTimestamp plus correctionField is t4, without the request's own
correction. -/
def ptpDelayReqRx (s : State) (p : Nat) (b : List Nat) (st : RxStamp) : State :=
  ptpMessage s p b [1] fun s =>
    if ptpState s p = 6 then sendGeneral s p 9 (msgSeq b) (rxTime s p st) (-(msgCorrection b)) (msgSource b) else s

end Sys2Proof.Machine
end

