-- ==== Sys2Proof/Machine/Trunk.lean ====
section
/-! DEFINITION. The Shoyx trunk: markers, lane mapping and deskew, active sets, link blocks, credits and bring-up
(R103 to R112, R297). -/

namespace Sys2Proof.Machine

def trunkState (s : State) (p : Nat) : Nat := s.fld (A.PORT_TRK_STAT p) 2 0
def setTrunkState (s : State) (p st : Nat) : State := s.setFld (A.PORT_TRK_STAT p) 2 0 st
def rxSet (s : State) (p : Nat) : Nat := s.fld (A.PORT_TRK_STAT p) 15 8

/-- The port runs as a trunk. -/
def runsTrunk (s : State) (p : Nat) : Bool := decide (typeEff s p = 13)

/-- The logical lanes whose own transmitters are in SERVICE: logical lane i leaves on port lane i (R103). -/
def serviceSet (s : State) (p : Nat) : Nat :=
  ((List.range 8).map fun j => if inService s (8 * p + j) then 2 ^ j else 0).sum

/-- The intersection of R106. -/
def targetSet (s : State) (p : Nat) : Nat := serviceSet s p &&& (rxSet s p &&& (s.trunk p).partner)

/-! Receive lanes: marker lock, mapping and deskew (R104, R105). -/

def markerLane (h : TrunkHidden) (j : Nat) : MarkerLane := Map.get {} h.lanes j

/-- The port lanes that are locked. -/
def lockedLanes (h : TrunkHidden) : List Nat := (List.range 8).filter fun j => (markerLane h j).locked

/-- The locked lanes whose LANE_ID no other locked lane carries. -/
def mappedLanes (h : TrunkHidden) : List Nat :=
  (lockedLanes h).filter fun j => ((lockedLanes h).filter fun i => decide ((markerLane h i).logical = (markerLane h j).logical)).length = 1

/-- The marker period in 2^-16 ns, to the nearest unit: 16 384 blocks of 66 bits at 25.78125 Gb/s. -/
def markerPeriod : Nat := 2748779069

/-- The markers of two lanes arrive within 160 ns of one another, in one period. -/
def skewOk (h : TrunkHidden) (i j : Nat) : Bool :=
  let d := ((markerLane h i).arrival + markerPeriod - (markerLane h j).arrival % markerPeriod) % markerPeriod
  decide (Nat.min d (markerPeriod - d) ≤ 160 * nsUnits)

/-- The subsets of a list. -/
def subsets : List Nat → List (List Nat)
  | [] => [[]]
  | x :: l => (subsets l).flatMap fun t => [x :: t, t]

/-- The mask of the logical lanes of port lanes. -/
def logicalMask (h : TrunkHidden) (l : List Nat) : Nat := (l.map fun j => 2 ^ (markerLane h j).logical).sum

/-- The lowest logical lane of port lanes. -/
def lowestLogical (h : TrunkHidden) (l : List Nat) : Nat := l.foldl (fun m j => Nat.min m (markerLane h j).logical) 8

/-- The set that the receiver keeps (R105): the largest, and among those of equal size the one with the lowest logical
lane. Of two that share it, the first in the order of `subsets` (DESIGN CHOICE, assumption 105). -/
def keptSet (h : TrunkHidden) : List Nat :=
  let good := (subsets (mappedLanes h)).filter fun l => l.all fun i => l.all fun j => skewOk h i j
  good.foldl (fun b l =>
    if b.length < l.length ∨ b.length = l.length ∧ lowestLogical h l < lowestLogical h b then l else b) []

/-- TRK_MAP. -/
def mapWord (h : TrunkHidden) : Nat :=
  ((mappedLanes h).map fun j => (8 + j) * 2 ^ (4 * (markerLane h j).logical)).sum

/-- The port lanes that are excluded for their skew. -/
def skewed (h : TrunkHidden) : List Nat := (mappedLanes h).filter fun j => !decide (j ∈ keptSet h)

/-- The receive set is formed again (R104, R105). -/
def trunkDeskew (s : State) (p : Nat) : State :=
  let h := s.trunk p
  let s := (s.wr (A.PORT_TRK_MAP p) (mapWord h)).setFld (A.PORT_TRK_STAT p) 15 8 (logicalMask h (keptSet h))
  let ev := (if (mappedLanes h).length < (lockedLanes h).length then 256 else 0) + (if (skewed h).isEmpty then 0 else 512)
  if ev = 0 then s else portEvent s p ev

/-- T_HELLO begins where the receive set is not empty. -/
def toHello (s : State) (p : Nat) : State :=
  if rxSet s p = 0 then s
  else
    let s := putTrunk s p { s.trunk p with hellos := 0, helloAt := 0 }
    (setTrunkState (s.stop (.trunkAlign p)) p 2).start (.trunkHello p) (10 * ms)

/-- Every lane in SERVICE is locked. -/
def allLocked (s : State) (p : Nat) : Bool :=
  (List.range 8).all fun j => !inService s (8 * p + j) || (markerLane (s.trunk p) j).locked

/-- What marker lock does in T_ALIGN. -/
def alignProgress (s : State) (p : Nat) : State :=
  if trunkState s p ≠ 1 then s
  else if allLocked s p then toHello s p
  else if s.runs (.trunkAlign p) || (lockedLanes (s.trunk p)).isEmpty then s
  else s.start (.trunkAlign p) (5 * ms)

/-- The bytes of a marker are valid: SIG, CHECK, and a logical lane. -/
def markerValid (b : List Nat) : Bool :=
  decide (b.take 3 = [0x4D, 0x52, 0x4B]) && decide (b.getD 3 0 ≤ 7) &&
    decide (beNat (slice b 6 2) = crc32c (b.take 6 ++ b.drop 8) % 65536)

/-- The bytes of an inverted marker: the complement of SIG. -/
def markerInverted (b : List Nat) : Bool := decide (b.take 3 = [0xB2, 0xAD, 0xB4])

/-- PHASE extended to 48-bit seconds (R135), by the second nearest to the local one. -/
def extendPhase (local0 : Nat) (b : List Nat) : Nat :=
  let sec := local0 / secUnits
  let d := toSigned 16 (beNat (slice b 8 2) + 65536 - sec % 65536)
  (((sec : Int) + d) % (2 ^ 48 : Int)).toNat * secUnits + beNat (slice b 10 4) * 65536 + beNat (slice b 14 2)

/-- The offset sample of a marker period (R135), from the lane whose clock the port offers: t_arr is taken at the reference
plane, which RX_ADJ moves (R137). -/
def markerSample (s : State) (p j : Nat) (b : List Nat) (arrival : Nat) : State :=
  let arrival := ftAdd arrival (-toSigned 32 (s.rd (A.PTP_RX_ADJ p)))
  if portUp s p && ptpEn s p && decide (offeredLane s p = some (8 * p + j)) then
    let theta : Int := (arrival : Int) - (extendPhase arrival b : Int) - (s.ptpOf p).dms
    let (s, ok) := portSample s p (portTsq s p) theta
    if ok && tb0Takes s p then phaseSample s 0 theta else s
  else s

/-- A valid marker arrives on port lane `j`. What it says of the partner's set and credits is kept. A locked lane loses marker
lock by a valid marker off the grid of 16 384 blocks, and by nothing else but leaving SERVICE (DESIGN CHOICE, assumption
105). -/
def goodMarker (s : State) (p j block : Nat) (b : List Nat) (arrival : Nat) : State :=
  let h := s.trunk p
  let m := markerLane h j
  let locked := match m.block with
    | none => false
    | some k => if m.locked then decide ((block - k) % 16384 = 0) else decide (block = k + 16384)
  let m' : MarkerLane := { block := some block, logical := b.getD 3 0, locked := locked, inverted := 0, arrival := arrival }
  let cred := (List.range 8).foldl (fun l c => Map.put 0 l c (beNat (slice b (16 + 2 * c) 2))) h.cred
  let s := putTrunk s p { h with lanes := Map.put {} h.lanes j m', cred := cred, partnerActive := b.getD 4 0 }
  let s := trunkDeskew s p
  markerSample (alignProgress s p) p j b arrival

/-- A lane marker arrives (R104). -/
def markerRx (s : State) (p j block sync0 : Nat) (b : List Nat) (arrival : Nat) : State :=
  let h := s.trunk p
  let m := markerLane h j
  if !runsTrunk s p || !inService s (8 * p + j) || decide (trunkState s p = 0) then s
  else if sync0 = 2 ∧ markerValid b then goodMarker s p j block b arrival
  else if sync0 = 1 ∧ markerInverted b then
    let n := m.inverted + 1
    let s' := putTrunk s p { h with lanes := Map.put {} h.lanes j { m with inverted := n } }
    if 2 ≤ n then laneAfter s (retrainLane (setLaneFlag s' (8 * p + j) 17 true) (8 * p + j)) (8 * p + j) else s'
  else s

/-! Markers out (R103, R106, R111). -/

/-- CRED of a class: the grant plus the released blocks; a lower grant is absorbed before CRED goes on. -/
def credOf (s : State) (p c : Nat) : Nat :=
  let h := s.trunk p
  let v := (Nat.min 32767 (s.fld (A.PORT_TRK_GRANT p c) 15 0) + Map.get 0 h.released c) % 65536
  let old := Map.get 0 h.credSent c
  if (v + 65536 - old) % 65536 < 32768 then v else old

/-- The bytes of a marker: `t` is the time at which its first bit leaves. -/
def markerBytes (lane active mseq t : Nat) (cred : List Nat) : List Nat :=
  let head := [0x4D, 0x52, 0x4B, lane, active, mseq]
  let rest := beBytes 2 (t / secUnits % 65536) ++ beBytes 4 (t % secUnits / 65536) ++ beBytes 2 (t % 65536) ++
    cred.flatMap fun c => beBytes 2 c
  head ++ beBytes 2 (crc32c (head ++ rest) % 65536) ++ rest

/-- The time at which a bit leaves port lane `j` now. -/
def laneTxTime (s : State) (p j : Nat) : Nat :=
  ftAdd (shownTime s 0) ((txDelay s (8 * p + j) : Int) + toSigned 32 (s.rd (A.PTP_TX_ADJ p)))

/-- The logical lanes that carry markers: every port lane in use whose transmitter is powered (R103). -/
def markedLanes (s : State) (p : Nat) : List Nat :=
  (List.range 8).filter fun j => s.bit (A.PORT_STAT p) (16 + j) && decide (2 ≤ laneState s (8 * p + j) ∧ laneState s (8 * p + j) ≤ 8)

/-- The markers are due. -/
def markerDue (s : State) (p : Nat) : Bool :=
  match (s.trunk p).markerAt with | none => true | some t => decide (t ≤ tb0 s)

/-- When the marker after the one that leaves now is due: 16 384 blocks later (R103). -/
def nextMarker (s : State) (h : TrunkHidden) : Nat :=
  let t := h.markerAt.getD (tb0 s)
  if tb0 s < t + markerPeriod then t + markerPeriod else tb0 s + markerPeriod

/-- The link carries blocks and markers of UP: the port is UP, or a quench by ENABLE = 0 lets what is being sent end (R115). -/
def linkOn (s : State) (p : Nat) : Bool :=
  portUp s p || decide (portState s p = 3) && decide (trunkState s p = 3) && streamsWait s p

/-- The markers of one period leave on every logical lane, once they are due. The set that the previous marker announced
is striped over from here on (R106). -/
def markerTx (s : State) (p : Nat) : State :=
  if !runsTrunk s p || portStalled s p || !markerDue s p then s
  else
    let h := s.trunk p
    let s := putTrunk s p { h with markerAt := some (nextMarker s h) }
    let s := if 2 ≤ trunkState s p then setActive s p (h.announced &&& serviceSet s p) else s
    if trunkState s p = 3 ∧ linkOn s p = false then s
    else
      let cred := (List.range 8).map fun c => credOf s p c
      let next := targetSet s p
      let h := s.trunk p
      let s := putTrunk s p { h with
        mseq := (h.mseq + 1) % 256, announced := next
        credSent := (List.range 8).foldl (fun l c => Map.put 0 l c (cred.getD c 0)) h.credSent }
      (markedLanes s p).foldl (fun s j => s.emit (.marker p j (ofNats (markerBytes j next h.mseq (laneTxTime s p j) cred)))) s

/-! Link blocks out (R107 to R109, R111). -/

/-- The bytes of a link block. -/
def blockBytes (btype ctl seq ack first fill : Nat) (payload : List Nat) : List Nat :=
  let b := [btype, ctl] ++ beBytes 2 seq ++ beBytes 2 ack ++ beBytes 2 first ++ beBytes 2 fill ++ [0, 0] ++ slice payload 0 512
  b ++ beBytes 4 (crc32c b)

/-- The set over which blocks are striped, rising: the active set, and in T_HELLO, as long as that is empty, the lanes
in SERVICE (R103; DESIGN CHOICE, assumption 77). -/
def activeList (s : State) (p : Nat) : List Nat :=
  bitsSet (if s.fld (A.PORT_TRK_STAT p) 23 16 = 0 then serviceSet s p else s.fld (A.PORT_TRK_STAT p) 23 16) 8

/-- The logical lanes of the 66 blocks of a link block, round robin from place `i` of the active set (R103). -/
def stripeLanes (l : List Nat) (i : Nat) : List Nat :=
  if l.isEmpty then [] else (List.range 66).map fun k => l.getD ((i + k) % l.length) 0

/-- The block leaves with the state of the receiver in its header, and its 66 blocks go round robin over the active
set. -/
def sendBlock (s : State) (p btype cls seq first fill : Nat) (rsync : Bool) (payload : List Nat) : State :=
  let h := s.trunk p
  let l := activeList s p
  let b := blockBytes btype (cls * 32 + bit01 h.discard * 16 + bit01 rsync * 8) seq h.expected first fill payload
  (putTrunk s p { h with stripe := (h.stripe + 66) % Nat.max 1 l.length, blockTime := h.blockTime + 1 }).emit
    (.link p (stripeLanes l h.stripe) (ofNats b))

/-- Fills a block from position `pos` on with the records of one kind: payload, FIRST, and what is left. -/
def fillBlock (ll : Bool) : List StreamRec → List Nat → Option Nat → List Nat × Option Nat × List StreamRec
  | [], acc, first => (acc, first, [])
  | r :: l, acc, first =>
    if 512 ≤ acc.length ∨ (r.ll ≠ ll) ∨ r.event.isSome then (acc, first, r :: l)
    else
      let room := 512 - acc.length
      let first := if r.fresh && first.isNone then some acc.length else first
      let out := acc ++ toNats (r.bytes.take room)
      if room < r.bytes.length then (out, first, { r with bytes := r.bytes.drop room, fresh := false } :: l)
      else fillBlock ll l out first

/-- The classes that may send a DATA block: records wait, and credit is held. -/
def sendable (s : State) (p : Nat) : List Nat :=
  (List.range 8).filter fun c => !(Map.get [] (s.trunk p).streams c).isEmpty && trunkCredit s p c

/-- Those whose next record is latency-locked: the link blocks that hold part of it are reserved for it (R297). -/
def sendableLl (s : State) (p : Nat) : List Nat :=
  (sendable s p).filter fun c => ((Map.get [] (s.trunk p).streams c).head?.map (·.ll)).getD false

/-- The egress timestamp of an event message with which the block that leaves now begins (R139): its point behind the
length word, on the lane that carries it. -/
def eventTime (s : State) (p : Nat) : Nat :=
  let l := activeList s p
  let n := Nat.max 1 l.length
  let i := (s.trunk p).stripe
  let t := afterMarker s p ((s.trunk p).blockAt.getD (tb0 s)) (pointTick n i 0)
  ftAdd (if inGap s then shownTime s 0 else t)
    ((txDelay s (8 * p + l.getD ((i + 14 / 8) % n) 0) : Int) + toSigned 32 (s.rd (A.PTP_TX_ADJ p)))

/-- The record of the event message with which the block begins, stamped as the block leaves. -/
def eventLead (s : State) (p : Nat) (o : Option PtpEvent) : State × List Nat :=
  match o with
  | none => (s, [])
  | some e =>
    let t := eventTime s p
    let b := eventBytes s p e t
    (eventStamped s p e t, beBytes 2 b.length ++ b)

/-- A new DATA block of class `c`. A latency-locked record starts at the offset that its target gives (R297). -/
def sendData (s : State) (p c : Nat) : State :=
  let recs := Map.get [] (s.trunk p).streams c
  let head := recs.head?.getD { bytes := [], fresh := false, ll := false }
  let (s, lead) := eventLead s p head.event
  let (payload, first, rest) := match head.event with
    | some _ => fillBlock false recs.tail lead (some 0)
    | none => fillBlock head.ll recs (List.replicate (if head.fresh then head.off else 0) 0) none
  let h := s.trunk p
  let b : LinkBlock := ⟨h.nextSeq, c, first.getD 0xFFFF, payload.length, ofNats payload, head.event⟩
  let s := sendBlock s p 0x5A c h.nextSeq b.first b.fill h.rsync payload
  putTrunk s p { h with
    nextSeq := (h.nextSeq + 1) % 65536, sent := Map.put 0 h.sent c ((Map.get 0 h.sent c + 1) % 65536)
    store := (h.store ++ [b]).drop ((h.store.length + 1) - 64), rsync := false
    unacked := h.unacked ++ [(h.nextSeq, c)], streams := Map.put [] h.streams c rest,
    naks := h.naks.filter fun e => decide (e.1 ≠ h.nextSeq) }

/-- A block of the store is sent again (R108). An event message in it is stamped anew (R139). -/
def resend (s : State) (p x : Nat) : State :=
  let h := s.trunk p
  match h.store.find? fun b => decide (b.seq = x) with
  | none => putTrunk s p { h with goback := none }
  | some b =>
    let n := (x + 1) % 65536
    let (s, lead) := eventLead s p b.event
    let s := sendBlock s p 0x5A b.cls b.seq b.first b.fill false (lead ++ (toNats b.payload).drop lead.length)
    let s := putTrunk s p { s.trunk p with goback := if n = h.nextSeq then none else some n }
    s.add64 (A.PORT_TRK_RESENT_LO p) 1

/-- A NULL block. -/
def sendNull (s : State) (p : Nat) : State := sendBlock s p 0x3C 0 (s.trunk p).nextSeq 0xFFFF 0 false []

/-- The link block in transmission has ended: link blocks follow back to back. -/
def blockDue (s : State) (p : Nat) : Bool :=
  match (s.trunk p).blockAt with | none => true | some t => decide (t + blockLen s p ≤ tb0 s)

/-- The transmitter can start a link block. -/
def canSend (s : State) (p : Nat) : Bool :=
  runsTrunk s p && decide (2 ≤ trunkState s p) && !portStalled s p && blockDue s p

/-- A link block starts, at its place on the grid of block times. -/
def startBlock (s : State) (p : Nat) : State := putTrunk s p { s.trunk p with blockAt := some (gridOf s p (tb0 s)).1 }

/-- The frame of a timed action waits in the stream of class 7 (R344). -/
def actionWaits (s : State) (p : Nat) : Bool :=
  decide (7 ∈ sendable s p) && (Map.get [] (s.trunk p).streams 7).any StreamRec.act

/-- The transmitter sends its next link block. A block that is reserved carries latency-locked records and nothing
else (R297). The frame of a timed action goes ahead of those of the queues (R344). -/
def blockTx (s : State) (p : Nat) : State :=
  if !canSend s p then s
  else
    let s := startBlock s p
    if trunkState s p = 2 then sendNull s p
    else if !linkOn s p then s
    else
      let s := windowOpen s p none
      match sendableLl s p, (s.trunk p).goback, sendable s p with
      | c :: _, _, _ => sendData s p c
      | [], some x, _ => resend s p x
      | [], none, [] => sendNull s p
      | [], none, c :: l =>
        if actionWaits s p then sendData s p 7 else let (d, s) := s.pick c (c :: l); sendData s p d

/-! Link blocks in (R108). -/

/-- One sequence number lies before another, modulo 2^16. -/
def seqBefore (a b : Nat) : Bool := decide ((b + 65536 - a) % 65536 ≠ 0) && decide ((b + 65536 - a) % 65536 < 32768)

/-- A NAK that names `x` (R108, R109): acted on at most once in 64 block times, and counted for `x` each time. A resend
begins in NORMAL only. -/
def nakRx (s : State) (p x : Nat) : State :=
  let h := s.trunk p
  let (n, t) := Map.get (0, 0) h.naks x
  if x = h.nextSeq ∨ n ≠ 0 ∧ h.blockTime < t + 64 then s
  else
    let n := n + 1
    let resends := decide (n < 3) && h.store.any fun b => decide (b.seq = x)
    if resends && h.goback.isSome then s
    else
    let h := { h with naks := Map.put (0, 0) h.naks x (n, h.blockTime) }
    if resends then putTrunk s p { h with goback := some x }
    else
      let lost := h.unacked.filter fun e => !seqBefore e.1 x
      let adj := lost.foldl (fun m e => Map.put 0 m e.2 ((Map.get 0 m e.2 + 1) % 65536)) h.adj
      putTrunk s p { h with goback := none, rsync := true, adj := adj, unacked := h.unacked.filter fun e => seqBefore e.1 x }

/-- ACK and NAK of a good header. -/
def headerRx (s : State) (p ack : Nat) (nak : Bool) : State :=
  let h := s.trunk p
  let s := putTrunk s p { h with unacked := h.unacked.filter fun e => !seqBefore e.1 ack,
                                 naks := h.naks.filter fun e => !seqBefore e.1 ack }
  if nak then nakRx s p ack else s

/-- Records taken out of a byte stream: the frames, what is left, and whether a length was out of range. -/
def takeRecords : Nat → List Nat → List (List Nat) × List Nat × Bool
  | 0, b => ([], b, false)
  | n + 1, b =>
    if b.length < 2 then ([], b, false)
    else
      let len := beNat (b.take 2)
      if len < 64 ∨ 16384 ≤ len then ([], [], true)
      else if b.length < 2 + len then ([], b, false)
      else
        let (fs, rest, bad) := takeRecords n (b.drop (2 + len))
        ((b.drop 2).take len :: fs, rest, bad)

/-- A frame that was classified while its record was coming in is complete now. One that turns out different from what
was classified is bad (R270). -/
def earlyComplete (s : State) (fid : Nat) (bytes : List Byte) : State :=
  match frameOf s fid with
  | none => s
  | some f =>
    let s := putFrame s { f with early := false, done := s.now }
    if f.bytes = bytes || f.tag.isSome then refreshGlobal s else cutFrame s { f with early := false, done := s.now } dropCut

/-- The first record of class `c`, which began at `o`, completes a frame that was classified before. -/
def takeEarly (s : State) (p c : Nat) (o : PartialStart) (fs : List (List Nat)) : State × List (List Nat) :=
  let h := s.trunk p
  match h.early.find? fun e => decide (e.1 = c), fs with
  | some e, b :: l =>
    (earlyComplete (putTrunk s p { h with early := h.early.erase e, taken := h.taken ++ [⟨c, o.block, h.accepted, e.2⟩] }) e.2 (ofNats b), l)
  | _, _ => (s, fs)

/-- The records that are coming in, of one class or of all, are discarded: the frames classified from them are cut short
(R108, R270). -/
def cutEarly (s : State) (p : Nat) (o : Option Nat) : State :=
  let h := s.trunk p
  let l := h.early.filter fun e => match o with | some c => decide (e.1 = c) | none => true
  let s := putTrunk s p { h with early := h.early.filter fun e => !decide (e ∈ l) }
  l.foldl (fun s e => match frameOf s e.2 with | some f => cutFrame s f dropCut | none => s) s

/-- The block that comes now, as the beginning of a record. -/
def thisBlock (s : State) (p : Nat) : PartialStart := ⟨(s.trunk p).accepted, tb0 s⟩

/-- Where the records of a class begin that end in this block: the first of them at `o`. -/
def deliveries (s : State) (p c : Nat) (o : PartialStart) : List (List Nat) → List Delivered
  | [] => []
  | f :: l => ⟨c, o.block, (s.trunk p).accepted, ofNats f, o.came⟩ :: deliveries s p c (thisBlock s p) l

/-- The frames of a class are delivered, the first of which began at `o`, and its partial record is kept. -/
def deliverTo (s : State) (p c : Nat) (o : PartialStart) (r : List (List Nat) × List Nat × Bool) : State :=
  let (s, fs) := takeEarly s p c o r.1
  let s := if r.2.2 then cutEarly s p (some c) else s
  let h := s.trunk p
  let o := if fs.length < r.1.length then thisBlock s p else o
  let left := if r.1.isEmpty then o else thisBlock s p
  let s := putTrunk s p { h with
    delivered := h.delivered ++ deliveries s p c o fs
    partials := Map.put [] h.partials c (ofNats r.2.1)
    partialAt := Map.put none h.partialAt c (if r.2.1.isEmpty then none else some left)
    skip := if r.2.2 then c :: h.skip.filter (· ≠ c) else h.skip }
  if r.2.2 then s.add64 (A.PORT_TRK_MALFORMED_LO p) 1 else s

/-- The records of a DATA block of class `c`. The block waits for its release until the frames that have a part in it have been
written or dropped (R111); one that comes under pressure is marked (R262). -/
def deliver (s : State) (p c first fill : Nat) (payload : List Nat) : State :=
  let n := (s.trunk p).accepted + 1
  let s := putTrunk s p { s.trunk p with accepted := n, unreleased := (s.trunk p).unreleased ++ [⟨c, n, (s.pg (8 * p + c)).pressure⟩] }
  let h := s.trunk p
  let start := Nat.min first fill
  let s :=
    if c ∈ h.skip then
      putTrunk s p { h with partials := Map.put [] h.partials c []
                            partialAt := Map.put none h.partialAt c none
                            skip := if first = 0xFFFF then h.skip else h.skip.filter (· ≠ c) }
    else if (Map.get [] h.partials c).isEmpty then s
    else deliverTo s p c ((Map.get none h.partialAt c).getD (thisBlock s p)) (takeRecords 10 (toNats (Map.get [] h.partials c) ++ payload.take start))
  let s := if c ∈ (s.trunk p).skip ∨ first = 0xFFFF then s
    else deliverTo s p c (thisBlock s p) (takeRecords 10 ((payload.take fill).drop start))
  releaseReady s p

/-- A good DATA block. -/
def dataRx (s : State) (p c seq first fill : Nat) (rsync : Bool) (payload : List Nat) : State :=
  let h := s.trunk p
  if rsync then
    let lost := (seq + 65536 - h.expected) % 65536
    let s := cutEarly s p none
    let h := s.trunk p
    let s := putTrunk s p { h with expected := (seq + 1) % 65536, discard := false, partials := [], partialAt := [] }
    deliver (portEvent (s.add64 (A.PORT_TRK_LOST_LO p) lost) p 64) p c first fill payload
  else if seq = h.expected then
    deliver (putTrunk s p { h with expected := (seq + 1) % 65536, discard := false }) p c first fill payload
  else putTrunk s p { h with discard := true }

/-- The trunk comes UP (R112): the counts of both directions restart from 0. -/
def trunkUp (s : State) (p : Nat) : State :=
  let h := s.trunk p
  let s := putTrunk s p { lanes := h.lanes, mseq := h.mseq, announced := h.announced, partner := h.partner, echo := h.echo,
                          cred := h.cred, partnerActive := h.partnerActive, markerAt := h.markerAt, blockAt := h.blockAt,
                          stripe := h.stripe, helloAt := h.helloAt }
  enterUp (setTrunkState s p 3) p

/-- The round trip that a HELLO gives, in ns. -/
def helloRtt (s : State) (b : List Nat) : Nat × State :=
  let d := (ftW0 (shownTime s 0) + 2000000000 - beNat (slice b 12 4) % 1000000000 - beNat (slice b 16 4) % 1000000000) % 1000000000
  if d < 2 ^ 24 then (d, s) else let (x, s) := s.draw; (x % 2 ^ 24, s)

/-- The active set is not empty both ways: the own one, and the one that the partner's latest marker announced (R112). -/
def setsBothWays (s : State) (p : Nat) : Bool := decide (activeLanes s p ≠ 0) && decide ((s.trunk p).partnerActive ≠ 0)

/-- A HELLO counts towards UP where it comes with an active set both ways (R112). -/
def countHello (s : State) (p : Nat) : State :=
  putTrunk s p { s.trunk p with hellos := if setsBothWays s p then (s.trunk p).hellos + 1 else 0 }

/-- A HELLO payload arrives (R107, R110, R112). -/
def helloRx (s : State) (p : Nat) (b : List Nat) : State :=
  if !runsTrunk s p || decide (trunkState s p < 2) then s
  else
    let node := beNat (slice b 0 2)
    let (rtt, s) := helloRtt s b
    let s := s.wr (A.PORT_PARTNER p) (2 ^ 31 + bits (b.getD 4 0) 5 0 * 2 ^ 16 + node)
    let s := refreshReach (s.wr (A.PORT_TRK_RTT p) (2 ^ 31 + rtt)) p
    let h := s.trunk p
    let s := putTrunk s p { h with partner := b.getD 5 0, echo := some (beNat (slice b 8 4), s.now) }
    if portState s p = 1 ∧ trunkState s p = 2 then
      if node = s.fld A.GLB_NODE_ID 15 0 then enterHeld s p 2
      else
        let s := countHello (s.start (.trunkHello p) (10 * ms)) p
        if inRun s = true ∧ 3 ≤ (s.trunk p).hellos ∧ setsBothWays s p ∧ moduleReady s p then trunkUp s p else s
    else s

/-- A link block arrives (R108). -/
def blockRx (s : State) (p : Nat) (b : List Nat) : State :=
  if !runsTrunk s p || decide (trunkState s p < 2) then s
  else
    let btype := b.getD 0 0
    let ok := decide (beNat (slice b 524 4) = crc32c (b.take 524)) && decide (btype ∈ ([0x5A, 0x3C, 0x96] : List Nat))
    if !ok then
      let s := s.add64 (A.PORT_TRK_CRC_LO p) 1
      if portUp s p then putTrunk s p { s.trunk p with discard := true } else s
    else
      let ctl := b.getD 1 0
      let s := if linkOn s p then headerRx s p (beNat (slice b 4 2)) (ctl.testBit 4) else s
      if btype = 0x96 then helloRx s p (slice b 12 512)
      else if btype = 0x5A ∧ portUp s p then
        dataRx s p (bits ctl 7 5) (beNat (slice b 2 2)) (beNat (slice b 6 2)) (Nat.min 512 (beNat (slice b 8 2)))
          (ctl.testBit 3) (slice b 12 512)
      else s

/-! HELLO out, and the timers of bring-up. -/

/-- The time from one HELLO to the next: 10 µs in T_HELLO, 100 µs in UP (table Trunk bring-up states). -/
def helloEvery (s : State) (p : Nat) : Nat := if trunkState s p = 2 then 10 * us else 100 * us

/-- A HELLO leaves as the next link block, once it is due and the block is not reserved (R107, R112, R297). Before the first
HELLO came, T_ECHO and T_TURN are 0 (DESIGN CHOICE, assumption 105). -/
def helloTx (s : State) (p : Nat) : State :=
  if !canSend s p || decide (s.now < (s.trunk p).helloAt) || !(sendableLl s p).isEmpty || (windowDue s p).isSome then s
  else
    let s := startBlock s p
    let h := s.trunk p
    let (e, turn) := match h.echo with
      | some (t, a) => (t, s.now - a)
      | none => (0, 0)
    let payload := beBytes 2 (s.fld A.GLB_NODE_ID 15 0) ++ [0, 0x64, p, rxSet s p, 0, 0] ++ beBytes 4 (ftW0 (shownTime s 0)) ++
      beBytes 4 e ++ beBytes 4 (turn % 2 ^ 32)
    let s := sendBlock s p 0x96 0 h.nextSeq 0xFFFF 0 false payload
    putTrunk s p { s.trunk p with helloAt := s.now + helloEvery s p }

/-- 5 ms after the first marker lock. -/
def alignTimeout (s : State) (p : Nat) : State :=
  if s.due (.trunkAlign p) then toHello (s.stop (.trunkAlign p)) p else s

/-- 10 ms without a HELLO. -/
def helloTimeout (s : State) (p : Nat) : State :=
  if s.due (.trunkHello p) && decide (trunkState s p = 2) then setTrunkState (s.stop (.trunkHello p)) p 1 else s

/-- A NODE_CONFLICT hold is tried again, unless another cause holds the port by now. -/
def conflictRetry (s : State) (p : Nat) : State :=
  if s.due (.conflictRetry p) && decide (portState s p = 4) then
    if holdCause s p ≠ 0 then enterHeld s p (holdCause s p)
    else toHello (setTrunkState (setHold (setPortState (s.stop (.conflictRetry p)) p 1) p 0) p 1) p
  else s

end Sys2Proof.Machine
end

