-- ==== Sys2Proof/Machine/Zones.lean ====
section
/-! DEFINITION. Zone faults and zone resets (R19 to R25, R91). -/

namespace Sys2Proof.Machine

/-- The writes that wait on their way to nodes of zone `z` complete with error responses. -/
def heldFail (s : State) (z : Nat) : State :=
  let mine := fun h : HeldWrite => decide (zoneOf h.addr = some z)
  (s.heldNodes.filter mine).foldl (fun s h => s.emit (.errorResponse h.req h.acc))
    { s with heldNodes := s.heldNodes.filter fun h => !mine h }

/-- Zone `z` enters fault (R19). -/
def zoneFail (s : State) (z : Nat) : State :=
  if zoneFault s z then s
  else ((heldFail (s.setBit A.GLB_ZONE_STAT (16 + z) true) z).record A.GLB_ZONE_EVT (2 ^ z)).raise (40 + z)

/-- A port is disabled and quenched (R21, R117). -/
def zoneDisable (s : State) (p : Nat) : State :=
  let s := s.setBit (A.PORT_CTRL p) 0 false
  if portState s p = 2 then startQuench s p true
  else if portState s p = 3 then refreshPending (lanesOff s p) p
  else enterDisabled s p

/-- Steps 1 and 2 of a zone reset, for a zone that is not in reset (R21, R25). A reset is accepted, and ends with
ZREADY, in every state of the data die (DESIGN CHOICE, assumption 70). -/
def zoneBegin (s : State) (z : Nat) (reimg : Bool) : State :=
  if zoneInReset s z then s
  else
    let s := (s.setBit A.GLB_ZONE_CTRL z true).setBit A.GLB_ZONE_CTRL (8 + z) reimg
    let s := (s.setBit A.GLB_ZONE_STAT (8 + z) true).setBit A.GLB_ZONE_STAT z false
    (portsOfZone z).foldl zoneDisable s

/-- A guarded write of ZONE_CTRL. -/
def zoneResets (s : State) (zrst zreimg : Nat) : State :=
  (bitsSet zrst 8).foldl (fun s z => zoneBegin s z (zreimg.testBit z)) s

/-- The last of the zone's quenches has ended. -/
def zoneQuenched (s : State) (z : Nat) : Bool := (portsOfZone z).all fun p => decide (portState s p ≠ 3)

/-- A lane after its node was reset: off, or retired where the retired set names it. -/
def laneCold (s : State) (l : Nat) : State :=
  let s := stopLane s l
  let s := { s with lanes := Map.put {} s.lanes l {} }
  if l ∈ s.retiredLanes then setLaneFlag (setLaneState s l 10) l 18 true else s

/-- Step 3 (R21, R91): the lanes are powered off, and the nodes take their reset values. -/
def zoneClear (s : State) (z : Nat) : State :=
  if !zoneInReset s z || decide (z ∈ s.zonesClear) || !zoneQuenched s z then s
  else
    let ps := portsOfZone z
    let s := (ps.flatMap lanesOfPort).foldl (fun s l => exitService s l) s
    let s := s.resetRegs fun a => decide (zoneOf a = some z)
    let s := (ps.flatMap lanesOfPort).foldl laneCold s
    let s := ps.foldl (fun s p =>
      let s := putPort (stopPort s p) p { shed := (s.port p).shed, present := (s.port p).present, modInt := (s.port p).modInt }
      let s := putTrunk s p {}
      refreshGlobal (putPtp s p {})) s
    { s with zonesClear := z :: s.zonesClear }

/-- Step 4 (R21). A replay that an earlier reset left to be done stays to be done (DESIGN CHOICE, assumption 70). -/
def zoneDone (s : State) (z : Nat) : State :=
  if !decide (z ∈ s.zonesClear) then s
  else
    let re := s.bit A.GLB_ZONE_CTRL (8 + z)
    let s := { s with zonesClear := s.zonesClear.filter (· ≠ z)
                      zonesReimg := if re then z :: s.zonesReimg.filter (· ≠ z) else s.zonesReimg }
    let s := (s.setBit A.GLB_ZONE_CTRL z false).setBit A.GLB_ZONE_CTRL (8 + z) false
    let s := ((s.setBit A.GLB_ZONE_STAT (8 + z) false).setBit A.GLB_ZONE_STAT (16 + z) false).setBit A.GLB_ZONE_STAT z true
    (s.record A.GLB_ZONE_EVT (2 ^ (8 + z))).raise (40 + z)

end Sys2Proof.Machine
end

