-- ==== Sys2Proof/Machine/Loops.lean ====
section
/-! DEFINITION. The island loops of the data die: loss of lock, relock, failed acquisitions (R182 to R184). -/

namespace Sys2Proof.Machine

/-- The number of a loop: CPLL0 to CPLL11, then 12 + p for port loop p. -/
def loopKey : Loop → Nat
  | .core i => i.val
  | .port p => 12 + p.val

def State.loopOf (s : State) (i : Nat) : LoopHidden := Map.get {} s.loops i
def putLoop (s : State) (i : Nat) (h : LoopHidden) : State := { s with loops := Map.put {} s.loops i h }

/-- Events of the loops: FAILED raises source 88 whatever EVT_EN holds. -/
def loopEvent (s : State) (mask : Nat) : State := s.event A.PLL_CPLL_EVT A.PLL_CPLL_EVT_EN 88 mask 0x2000

/-- PLL.PLOL of port loop p. -/
def setPlol (s : State) (p : Nat) (b : Bool) : State :=
  s.setBit (A.PLL_PLOL (p / 32)) (p % 32) b

/-- The classes of an Ethernet port with PFC. -/
def pfcClasses (s : State) (p : Nat) : List Nat := (List.range 8).filter fun c => s.bit (A.PORT_CFG p) (16 + c)

/-- An Ethernet port asserts XOFF on classes. -/
def xoffPort (s : State) (p : Nat) (cs : List Nat) : State :=
  if !portUp s p || isTrunk s p then s else cs.foldl (fun s c => sendPfc s p c (pfcQuanta s)) s

/-- One frame or cell is dropped by a loss of lock. -/
def lolDrop (s : State) : State := slag (s.add64 A.PLL_LOL_DROP_LO 1) 7

/-- A copy is dropped whole by a loss of lock. A latency-locked one is also reported, as not complete (R310). -/
def lolLose (s : State) (k : Pkt) : State :=
  if k.ll.isSome then lldDrop (s.add64 A.PLL_LOL_DROP_LO 1) k 11 7 else removePkt (lolDrop s) k

/-- The path of port `p` becomes stalled (R182): the frames that are arriving are cut short (R270), and XOFF goes out on
every class with PFC. A trunk withholds its releases. -/
def stallPort (s : State) (p : Nat) : State :=
  let fs := s.buf.frames.filter fun f => decide (f.inPort = p) && !arrived s f
  xoffPort (fs.foldl (fun s f => cutFrame s f lolLose) s) p (pfcClasses s p)

/-- The windows of port `p` that passed while its path stood still are missed under INCOMPLETE (R310). -/
def missWindows (s : State) (p : Nat) : State :=
  (s.buf.pkts.filter fun k => decide (k.e = p) && decide (k.q = 16) && k.loc = .queue).foldl (fun s k =>
    match frameOf s k.fid, k.ll with
    | some _, some w => if w.state = .granted ∧ w.start ≤ tb0 s then lldMiss s k w 11 else s
    | _, _ => s) s

/-- The path of port `p` runs again. -/
def unstallPort (s : State) (p : Nat) : State :=
  let s := missWindows s p
  if !portUp s p then s
  else
    (if isTrunk s p then List.range 8 else pfcClasses s p).foldl (fun s c =>
      if (s.pg (8 * p + c)).pressure then s else resumeClass s p c) s

/-- Ports whose path changes between two states. -/
def stallChanges (before s : State) : State :=
  (List.range 64).foldl (fun s p =>
    if portStalled before p = portStalled s p then s
    else if portStalled s p then stallPort s p else unstallPort s p) s

/-- The ports whose timestamps a loop makes unreliable (R183). -/
def lolOf (i : Nat) : List Nat := if i = 11 then List.range 64 else if 12 ≤ i then [i - 12] else []

/-- Loop `i` loses lock (R182, R183). -/
def loopLose (s : State) (i : Nat) : State :=
  if loopStopped s i then s
  else
    let s1 := putLoop s i { s.loopOf i with stopped := true }
    let s1 := if i < 12 then ((s1.setBit (A.PLL_CPLL_STAT i) 31 false).addSat (A.PLL_CPLL_STAT i) 23 16 1)
      else setPlol s1 (i - 12) true
    let s1 := { s1 with lolPorts := lolOf i ++ s1.lolPorts.filter fun p => !decide (p ∈ lolOf i) }
    loopEvent (stallChanges s (s1.start (.loop i) ms)) (if i < 12 then 2 ^ i else 2 ^ 12)

/-- A copy that waits between blocks in an island that stood still (R182): the slice's, the central one's, or that of the
port which sends it. -/
def inHandshake (i : Nat) (k : Pkt) (f : Frame) : Bool :=
  match k.loc with
  | .toAdmit => decide (i = 4) || decide (i = sliceOfPort f.inPort) && decide (f.inPort < 64)
  | .riserIn sl => decide (i = 4) || decide (i = sl)
  | .recirc sl => decide (i = sl)
  | .ladle _ => decide (i = 4)
  | .transmit => decide (i = 4) || decide (i = sliceOfPort k.e) || decide (i = 11) || decide (i = 12 + k.e)
  | _ => false

/-- A copy that waits for a cell which the mover asked a stack controller for more than 10 µs ago: controller `i` or the
central island stood still. -/
def staleCell (s : State) (i : Nat) (k : Pkt) : Bool :=
  match k.deep with
  | some d => d.reading.any fun c =>
      (decide (i = 4) || decide (i = 7 + c.1.region / 224)) && decide (c.2 + 10 * us < s.now)
  | none => false

/-- The island restarts: what entered a handshake more than 10 µs ago is dropped whole. -/
def dropStale (s : State) (i : Nat) : State :=
  s.buf.pkts.foldl (fun s k =>
    match frameOf s k.fid with
    | none => s
    | some f =>
      if staleCell s i k then removePkt (lolDrop s) k
      else if !inHandshake i k f then s
      else if k.came + 10 * us < s.now then
        (let s := if k.loc = .transmit then putEg s k.e { s.eg k.e with busy := none } else s
         lolLose s k)
      else if k.loc = .transmit then s
      else putPkt s { k with waited := true }) s

/-- Loop `i` relocks (R182). A failed loop does not. -/
def loopLock (s : State) (i : Nat) : State :=
  if !loopStopped s i || (s.loopOf i).failed then s
  else
    let s1 := putLoop (s.stop (.loop i)) i { s.loopOf i with stopped := false }
    let s1 := if i < 12 then s1.setBit (A.PLL_CPLL_STAT i) 31 true else setPlol s1 (i - 12) false
    stallChanges s (dropStale s1 i)

/-- The loop has failed for good (R184). -/
def loopFail (s : State) (i : Nat) : State :=
  let s := putLoop (s.stop (.loop i)) i { s.loopOf i with failed := true }
  let s := if i < 12 then s.setBit (A.PLL_CPLL_STAT i) 30 true else s
  let s := loopEvent s 0x2000
  if i = 6 then (List.range 8).foldl zoneFail s else s

/-- The loop has not relocked within 1 ms (R184). -/
def loopTimeout (s : State) (i : Nat) : State :=
  if !s.due (.loop i) then s
  else
    let fails := ((s.loopOf i).fails.filter fun t => decide (s.now < t + 10000 * ms)) ++ [s.now]
    let s := putLoop s i { s.loopOf i with fails := fails }
    if 3 ≤ fails.length then loopFail s i else s.start (.loop i) ms

/-- The local TB0 counter of port `p` is reloaded and verified (R183), once its loop and LSYN run. -/
def lolClear (s : State) (p : Nat) : State :=
  if loopStopped s (12 + p) || loopStopped s 11 then s
  else { s with lolPorts := s.lolPorts.filter (· ≠ p) }

/-- The firmware runs: its loop has not stopped (R184). -/
def firmwareRuns (s : State) : Bool := !loopStopped s 5

end Sys2Proof.Machine
end

