-- ==== Sys2Proof/Machine/Governor.lean ====
section
/-! DEFINITION. The power governor (R38 to R43, R181). -/

namespace Sys2Proof.Machine

def putPower (s : State) (h : PowerHidden) : State := { s with power := h }

/-- The governor acts: in every state of the data die but SLEEP (table Blocks in sleep). -/
def govActive (s : State) : Bool := !asleep s

def govLimited (s : State) : Bool := s.bit A.PWR_STAT 0
def capActive (s : State) : Bool := s.bit A.PWR_STAT 1
def clkRamped (s : State) : Bool := s.bit A.PWR_STAT 2

/-- A flag of PWR.STAT takes a value: each change raises source 1. -/
def setGov (s : State) (i : Nat) (b : Bool) : State := if s.bit A.PWR_STAT i = b then s else (s.setBit A.PWR_STAT i b).raise 1

/-- The user cap in W: 1 to 99 act as 100, values above 690 as 690. -/
def userCap (s : State) : Option Nat :=
  let c := s.fld A.PWR_GOV_CTRL 9 0
  if c = 0 then none else some (Nat.min 690 (Nat.max 100 c))

/-- The effective cap in mW (R38). -/
def effCap (s : State) : Option Nat :=
  match userCap s with
  | some c => some (1000 * (if govLimited s then Nat.min c 300 else c))
  | none => if govLimited s then some 300000 else none

/-- The sum of the samples of the last 100 µs, and their number. -/
def govSum (s : State) : Nat × Nat := (s.power.samples.sum, s.power.samples.length)

/-- The averaged power exceeds the effective cap, is at most, and is below 90 % of it. -/
def overCap (s : State) : Bool := match effCap s with | some c => decide (c * (govSum s).2 < (govSum s).1) | none => false
def atMost90 (s : State) : Bool := match effCap s with | some c => decide (10 * (govSum s).1 ≤ 9 * c * (govSum s).2) | none => true
def below90 (s : State) : Bool := match effCap s with | some c => decide (10 * (govSum s).1 < 9 * c * (govSum s).2) | none => true

/-! The ramp of the slice islands. -/

/-- Every slice loop is locked. -/
def slicesLocked (s : State) : Bool := (List.range 4).all fun i => !loopStopped s i

/-- A ramp starts, or waits for a ramp in progress or for the relock of a slice loop (R181). `down`: to 0.75 GHz. -/
def rampSlices (s : State) (down : Bool) : State :=
  if s.power.ramp.isNone && slicesLocked s then
    (putPower s { s.power with ramp := some down, nextRamp := none }).start .govRamp (500 * us)
  else putPower s { s.power with nextRamp := if s.power.ramp = some down then none else some down }

/-- A ramp that waits starts as soon as it can. -/
def rampPending (s : State) : State :=
  match s.power.nextRamp with
  | some d => if s.power.ramp.isNone && slicesLocked s then rampSlices s d else s
  | none => s

/-- The direction of the ramp in progress, or of the one that waits. -/
def rampGoal (s : State) : Option Bool := match s.power.nextRamp with | some d => some d | none => s.power.ramp

/-! Shedding and restoration. -/

/-- SHED_RANK of a port. -/
def shedRank (s : State) (p : Nat) : Nat := s.fld (A.PWR_SHED_RANK (p / 8)) (4 * (p % 8) + 3) (4 * (p % 8))

/-- The port that is shed next: the highest rank, and of equal ranks the highest number. -/
def nextShed (s : State) : Option Nat :=
  (List.range 64).foldl (fun o p =>
    if (s.port p).shed && !(s.port p).restore then o
    else match o with
      | none => some p
      | some q => if shedRank s q ≤ shedRank s p then some p else some q) none

/-- A port is shed (R39, R42): disabled and quenched, whatever its enable control says. -/
def shedPort (s : State) (p : Nat) : State :=
  let s := setShed (putPower s { s.power with shed := p :: s.power.shed }) p true
  let s := putPort s p { s.port p with restore := false }
  let st := portState s p
  if st = 2 then startQuench s p true
  else if st = 1 ∨ st = 4 then enterHeld s p 1
  else s

/-- A port is restored (R42, R43). -/
def restorePort (s : State) (p : Nat) : State :=
  let s := putPower s { s.power with shed := s.power.shed.filter (· ≠ p) }
  if portState s p = 3 then putPort s p { s.port p with restore := true }
  else
    let s := setShed s p false
    if portEnabled s p && decide (portState s p = 4) && decide (portHold s p = 1) then bringUp s p else s

/-- Nothing is left to restore. -/
def govFree (s : State) : State :=
  if !clkRamped s && (rampGoal s).isNone && s.power.shed.isEmpty then (setGov s 1 false).stop .govTick else s

/-- Restoration begins, or goes on: the slices first, then the ports, the first of them 20 µs after the slices' ramp
(DESIGN CHOICE, assumption 71). -/
def govRestore (s : State) : State :=
  if !capActive s then s
  else
    let s := s.stop .govBelow
    if clkRamped s || decide (rampGoal s = some true) then (if rampGoal s = some false then s else rampSlices (s.stop .govTick) false)
    else if s.power.shed.isEmpty then govFree s
    else if s.runs .govTick then s else s.start .govTick (20 * us)

/-- The governor looks at the averaged power and the cap (R39, R41). The first port is shed 20 µs after the end of the
ramp (DESIGN CHOICE, assumption 71). -/
def govEval (s : State) : State :=
  if !govActive s then s
  else if (effCap s).isNone then govRestore s
  else if overCap s then
    let s := setGov (s.stop .govBelow) 1 true
    if clkRamped s && (rampGoal s).isNone then (if s.runs .govTick then s else s.start .govTick (20 * us))
    else if rampGoal s = some true then s
    else rampSlices (s.stop .govTick) true
  else if below90 s then (if capActive s && !s.runs .govBelow then s.start .govBelow ms else s)
  else s.stop .govBelow

/-- One measurement of the input power, and of the two supplies (0.1 V). -/
def govSample (s : State) (mw vmain vka : Nat) : State :=
  let s := (s.setFld A.PWR_STAT 29 20 vmain).setFld A.PWR_STAT 19 10 vka
  govEval (putPower s { s.power with samples := (mw :: s.power.samples).take 10 })

/-- VIN_MAIN crosses the thresholds of the limit (R38). -/
def govLimit (s : State) (b : Bool) : State := govEval (setGov s 0 b)

/-- PWR.GOV_CTRL.CAP is written. -/
def writeCap (s : State) (v : Nat) : State := govEval (s.wr A.PWR_GOV_CTRL (v % 1024))

/-- The ramp of 500 µs ends. -/
def govRampDone (s : State) : State :=
  match s.power.ramp with
  | none => s
  | some d =>
    if !s.due .govRamp then s
    else
      let s := (putPower s { s.power with ramp := none }).stop .govRamp
      let s := (List.range 4).foldl (fun s i => s.setFld (A.PLL_CPLL_STAT i) 15 0 (if d then 750 else 1500)) s
      let s := rampPending (setGov s 2 d)
      if s.power.nextRamp.isSome || s.power.ramp.isSome then s
      else if d then govEval s else govRestore s

/-- 20 µs have passed while the cap is exceeded: one port is shed. -/
def govShed (s : State) : State :=
  if !s.due .govTick || !govActive s || !overCap s || !clkRamped s || (rampGoal s).isSome then s
  else
    match nextShed s with
    | some p => (shedPort s p).start .govTick (20 * us)
    | none => s.stop .govTick

/-- The averaged power has stayed below 90 % of the cap for 1 ms. -/
def govBelow (s : State) : State := if s.due .govBelow && govActive s then govRestore s else s

/-- 20 µs have passed during restoration: one port is restored. -/
def govRestoreOne (s : State) : State :=
  if !s.due .govTick || !govActive s || !atMost90 s || clkRamped s || (rampGoal s).isSome then s
  else
    match s.power.shed with
    | p :: _ =>
      let s := restorePort s p
      if s.power.shed.isEmpty then govFree s else s.start .govTick (20 * us)
    | [] => govFree s

end Sys2Proof.Machine
end

