-- ==== Sys2Proof/Machine/Ladle.lean ====
section
/-! DEFINITION. The Ladle's replication (R290 to R292) and the Riser's sequencing (R284 to R288). -/

namespace Sys2Proof.Machine

/-- Events of LDL. -/
def ldlEvent (s : State) (mask : Nat) : State := s.event A.LDL_EVT A.LDL_EVT_EN 774 mask 0

/-- The committed words of group `i` (R290). -/
def ladleEntry (s : State) (i : Nat) : List Nat := (List.range 4).map fun w => s.rd (A.TBL_LADLE i w)

/-- A frame for group `i` enters the Ladle's FIFO, or is dropped where the FIFO is full (R291). -/
def toLadle (s : State) (k : Pkt) (i : Nat) : State :=
  if 4096 ≤ (ladleFifo s).length then removePkt (ldlEvent (slag (s.add64 A.LDL_FIFO_FULL_LO 1) 14) 1) k
  else movePkt (s.add64 A.LDL_FRAMES_LO 1) { k with loc := .ladle (ladleEntry s i) }

/-- VALID, PRUNE and ALL_OR_NONE of an entry. -/
def entryValid (w : List Nat) : Bool := (w.getD 3 0).testBit 31
def entryPrunes (w : List Nat) : Bool := (w.getD 3 0).testBit 30
def entryAon (w : List Nat) : Bool := (w.getD 3 0).testBit 29

/-- The ports and the LAG groups of an entry. -/
def ladlePorts (w : List Nat) : List Nat := bitsSet (w.getD 0 0) 32 ++ (bitsSet (w.getD 1 0) 32).map (32 + ·)
def ladleLags (w : List Nat) : List Nat := bitsSet (w.getD 2 0) 32

/-- The copies of an entry that pruning leaves for a frame from port `p`: ports, then groups, each rising (R290, R291). -/
def ladleCopies (s : State) (w : List Nat) (p : Nat) : List Dest :=
  if entryPrunes w then
    ((ladlePorts w).filter (· ≠ p)).map Dest.port ++
      ((ladleLags w).filter fun g => (memberOf s g p).isNone).map Dest.lag
  else (ladlePorts w).map Dest.port ++ (ladleLags w).map Dest.lag

/-- One copy is made and goes to admission. -/
def makeCopy (s : State) (k : Pkt) (d : Dest) : State :=
  let (n, s) := freshId s
  { s with buf := { s.buf with pkts := s.buf.pkts ++ [{ k with id := n, dest := d, loc := .toAdmit, came := s.now, copy := true, via := none,
                                                               number := none, deep := none, ll := none }] } }

/-- The Ladle takes the frame at the head of its FIFO and makes its copies (R291). -/
def replicate (s : State) : State :=
  match ladleFifo s with
  | [] => s
  | k :: _ =>
    match k.loc, frameOf s k.fid with
    | .ladle w, some f =>
      if !entryValid w then removePkt (ldlEvent (slag (s.add64 A.LDL_INVALID_LO 1) 14) 2) k
      else
        let l := ladleCopies s w f.inPort
        let pruned := (ladlePorts w).length + (ladleLags w).length - l.length
        let s := if pruned = 0 then s else s.add64 A.LDL_PRUNED_LO pruned
        if l.isEmpty then removePkt (ldlEvent (slag (s.add64 A.LDL_EMPTY_LO 1) 14) 4) k
        else
          let s := (s.add64 A.LDL_COPIES_LO l.length).pmcEvent 21 0x280 l.length
          let s := if f.ll && entryAon w then
              { s with buf := { s.buf with aons := s.buf.aons ++ [AonHidden.mk f.id l.length []] } }
            else s
          removePkt (l.foldl (fun s d => makeCopy s k d) s) k
    | _, _ => dropPkt s k.id

/-- A frame that classification or the Riser lets go on: to the Ladle, or to admission. -/
def proceed (s : State) (k : Pkt) : State :=
  match k.dest with
  | .ladle i => toLadle s k i
  | _ => movePkt s { k with loc := .toAdmit }

/-! The Riser. -/

/-- Events of RSQ. -/
def rsqEvent (s : State) (mask : Nat) : State := s.event A.RSQ_EVT A.RSQ_EVT_EN 773 mask 0

def riserState (s : State) (c : Nat) : Nat := s.fld (A.RSQ_CTX_STAT c) 13 12
def riserExpect (s : State) (c : Nat) : Nat := s.fld (A.RSQ_CTX_STAT c) 31 16
def setRiserState (s : State) (c st : Nat) : State := s.setFld (A.RSQ_CTX_STAT c) 13 12 st
def setExpect (s : State) (c n : Nat) : State := s.setFld (A.RSQ_CTX_STAT c) 31 16 n

def heldNumbers (s : State) (c : Nat) : List Nat := (riserPkts s c).map (·.2) ++ riserMarks s c

/-- The distance of a number ahead of EXPECT. -/
def ahead (s : State) (c n : Nat) : Nat := (n + 65536 - riserExpect s c) % 65536

/-- A held number is released: a frame goes on, a placeholder goes away. -/
def releaseNumber (s : State) (c n : Nat) : State :=
  let l := s.buf.holders.filter fun h => !decide (h.c = c ∧ h.seq = n)
  let s := { s with buf := { s.buf with holders := l } }
  match (riserPkts s c).find? fun e => decide (e.2 = n) with
  | none => s
  | some (k, _) => proceed s { k with waited := true }

/-- drain(c) of R285: held EXPECT, EXPECT + 1, … are released. -/
def drain (s : State) (c : Nat) : Nat → State
  | 0 => s
  | fuel + 1 =>
    if riserExpect s c ∈ heldNumbers s c then
      drain (setExpect (releaseNumber s c (riserExpect s c)) c (riserExpect s c + 1)) c fuel
    else s

def drainAll (s : State) (c : Nat) : State := drain s c ((heldNumbers s c).length + 1)

/-- gap(c, n) of R285. -/
def gapTo (s : State) (c n : Nat) : State :=
  let d := ahead s c n
  if d = 0 then s
  else
    let s := (s.addSat (A.RSQ_CTX_CNT c) 31 16 d).add64 A.RSQ_GAPS_LO d
    rsqEvent (setExpect s c n) 1

/-- The number nearest to EXPECT among the held ones and the given ones. -/
def nearest (s : State) (c : Nat) (l : List Nat) : Option Nat :=
  (heldNumbers s c ++ l).foldl (fun o n =>
    match o with | none => some n | some m => if ahead s c n < ahead s c m then some n else some m) none

/-- Every held number is released in order of the sequence. -/
def releaseHeld (s : State) (c : Nat) : Nat → State
  | 0 => s
  | fuel + 1 =>
    match nearest s c [] with
    | none => s
    | some n => releaseHeld (releaseNumber s c n) c fuel

def releaseAll (s : State) (c : Nat) : State := releaseHeld s c ((heldNumbers s c).length)

/-- fits(c, f) of R285. -/
def riserFits (s : State) (c cells : Nat) : Bool :=
  decide (riserCells s c + cells ≤ 256) && decide (riserUse s + cells ≤ s.fld A.RSQ_CFG 19 0) && decide (64 ≤ freeShared s)

/-- The loop of R285 that makes room for number `n`; whether an overflow occurred. -/
def makeRoom (s : State) (c cells n : Nat) : Nat → State × Bool
  | 0 => (s, false)
  | fuel + 1 =>
    if riserFits s c cells then (s, false)
    else
      match nearest s c [n] with
      | none => (s, true)
      | some m =>
        let s := gapTo s c m
        if m = n then (s, true) else ((makeRoom (drainAll s c) c cells n fuel).1, true)

/-- A late number (R284, R285): counted, and a frame passed out of order or dropped. -/
def riserLate (s : State) (c : Nat) (o : Option Pkt) : State :=
  let s := rsqEvent ((s.addSat (A.RSQ_CTX_CNT c) 15 0 1).add64 A.RSQ_LATE_LO 1) 8
  match o with
  | none => s
  | some k => if s.bit (A.RSQ_CTX_CFG c) 30 then removePkt (slag s 14) k else proceed s k

/-- A duplicate of a held number. -/
def riserDup (s : State) (c : Nat) (o : Option Pkt) : State :=
  let d := Map.put 0 s.buf.dups c (Map.get 0 s.buf.dups c + 1)
  let s := { s with buf := { s.buf with dups := d } }.add64 A.RSQ_DUP_LO 1
  match o with
  | none => s
  | some k => removePkt (slag s 14) k

/-- A number in turn passes, and EXPECT goes on. -/
def riserPass (s : State) (c n : Nat) (o : Option Pkt) : State :=
  let s := match o with | some k => proceed s k | none => s
  drainAll (setExpect s c (n + 1)) c

/-- A number ahead of EXPECT is held: a placeholder without cells, a frame with its cells in the shared pool. -/
def riserHold (s : State) (c n : Nat) (o : Option Pkt) : State :=
  match o with
  | none => { s with buf := { s.buf with holders := s.buf.holders ++ [Placeholder.mk c n (tb0 s)] } }
  | some k =>
    match frameOf s k.fid with
    | none => s
    | some f =>
      let s := (storeFrame s f .held).pmcEvent 21 0x281 1
      refreshPressure (movePkt s { k with loc := .riser c n (tb0 s) }) (pgOf f)

/-- The sequencing of one number in context `c` (R285). -/
def riserSequence (s : State) (c n : Nat) (rst : Bool) (o : Option Pkt) (cells : Nat) : State :=
  let s := if rst then rsqEvent (setExpect (releaseAll s c) c n) 16 else s
  let s := if riserState s c = 1 then setRiserState (setExpect s c n) c 2 else s
  let d := ahead s c n
  if 32768 ≤ d then riserLate s c o
  else if d ≠ 0 ∧ n ∈ heldNumbers s c then riserDup s c o
  else if d = 0 then riserPass s c n o
  else
    match o with
    | none => riserHold s c n none
    | some k =>
      let (s, ovf) := makeRoom s c cells n ((heldNumbers s c).length + 2)
      let s := if ovf then rsqEvent s 4 else s
      if riserExpect s c = n then riserPass s c n (some k) else riserHold s c n (some k)

/-- The conditions of R279 for a tag at the Riser's intake. -/
def riserTakes (s : State) (x : Intake) : Bool :=
  let c := x.tag.flow
  let g := s.fld (A.RSQ_CTX_CFG c) 28 24
  decide (x.pass = 0) && s.bit (A.RSQ_CTX_CFG c) 31 && grpSpread s g && (memberOf s g x.inPort).isSome &&
    (!s.bit (A.RSQ_CTX_CFG c) 29 || decide (s.fld (A.RSQ_CTX_NODE c) 15 0 = x.tag.node))

/-- What waits first of each slice, in ring order from the pointer on; of those, the ones that came first. -/
def intakeHeads (s : State) : List Intake :=
  let l := (List.range 4).filterMap fun i => s.buf.intake.find? fun x => decide (x.slice = (s.buf.riserTurn + i) % 4)
  l.filter fun x => l.all fun y => decide (x.came ≤ y.came)

/-- What the intake takes next (R287): round robin over the slices; what carries RST goes first in its context. -/
def nextIntake (s : State) : Option Intake :=
  match intakeHeads s with
  | [] => none
  | x :: l => some (((x :: l).find? fun y => y.tag.rst && decide (y.tag.flow = x.tag.flow)).getD x)

/-- The port that admission would give a copy now. -/
def portFor (s : State) (k : Pkt) (f : Frame) : Option Nat :=
  match k.dest with
  | .port e => some e
  | .lag g =>
    if !grpEn s g then none
    else (if grpSpread s g then firstEligible s g (s.fld (A.SPR_GRP_STAT g) 19 16) else effMember s g (bucketOf s g f)).map (slotPort s g)
  | .ladle _ => none

/-- The Riser would pass the number at once: it is in turn, or late and not dropped. -/
def passesNow (s : State) (x : Intake) : Bool :=
  let c := x.tag.flow
  let d := ahead s c x.tag.seq
  !riserTakes s x || x.tag.rst || decide (riserState s c = 1) || decide (d = 0) ||
    (decide (32768 ≤ d) && !s.bit (A.RSQ_CTX_CFG c) 30)

/-- A frame with a bad FCS goes on only where it is leaving before its FCS comes (R268, R270, R285). Any other is lost at its
port, and its number is a gap (R289). -/
def badLeaves (s : State) (x : Intake) (k : Pkt) (f : Frame) : Bool :=
  passesNow s x && (match portFor s k f with
    | some e => portUp s e && cutsThrough s { k with e := e, q := f.tc } f
    | none => false)

/-- The Riser takes the next frame or placeholder (R279, R284, R287). -/
def riserTake (s : State) (x : Intake) (k : Option Pkt) : State :=
  if riserTakes s x then riserSequence s x.tag.flow x.tag.seq x.tag.rst k (k.elim 0 (pktCells s))
  else
    let s := s.add64 A.RSQ_BYPASS_LO 1
    match k with | some k => proceed s k | none => s

/-- What waits at the intake of the Riser comes to its context. -/
def riserArrive (s : State) : State :=
  match nextIntake s with
  | none => s
  | some x =>
    let s := { s with buf := { s.buf with intake := s.buf.intake.erase x, riserTurn := (x.slice + 1) % 4 } }
    let k := x.pkt.bind fun n => s.buf.pkts.find? fun k => decide (k.id = n)
    match k, k.bind fun k => frameOf s k.fid with
    | some k, some f => if f.bad && !badLeaves s x k f then removePkt s k else riserTake s x (some k)
    | _, _ => riserTake s x k

/-- TMO of a context in µs: 0 acts as 1, above 1 000 as 1 000. -/
def riserTmo (s : State) (c : Nat) : Nat := Nat.min 1000 (Nat.max 1 (s.fld (A.RSQ_CTX_CFG c) 9 0))

/-- The hold time of the oldest held frame of a context. -/
def oldestHeld (s : State) (c : Nat) : Option Nat :=
  (s.buf.pkts.filterMap fun k => match k.loc with | .riser d _ t => if d = c then some t else none | _ => none).foldl
    (fun o t => match o with | none => some t | some u => some (Nat.min t u)) none

/-- What waits at the intake for context `c` is taken, with what stands before it (R287). -/
def takeWaiting (c : Nat) : Nat → State → State
  | 0, s => s
  | n + 1, s => if s.buf.intake.any fun x => decide (x.tag.flow = c) then takeWaiting c n (riserArrive s) else s

/-- The oldest held frame has reached TMO (R286): the context gaps to the nearest held number and drains. An arrival for
the context goes first (R287). -/
def riserExpire (s : State) (c : Nat) : State :=
  let s := takeWaiting c s.buf.intake.length s
  match oldestHeld s c, nearest s c [] with
  | some t, some n =>
    if t + riserTmo s c * us * nsUnits ≤ tb0 s then rsqEvent (drainAll (gapTo s c n) c) 2 else s
  | _, _ => s

/-- The context is enabled (R288, CTXc_CNT). -/
def riserEnable (s : State) (c : Nat) : State :=
  let d := s.buf.dups.filter fun e => decide (e.1 ≠ c)
  setRiserState ({ s with buf := { s.buf with dups := d } }.wr (A.RSQ_CTX_CNT c) 0) c 1

/-- EN = 0: the held frames are released in sequence order, and the context is OFF (R288). -/
def riserDisable (s : State) (c : Nat) : State := setRiserState (releaseAll s c) c 0

/-- Sleep entry (R288): every context releases its frames, and each enabled context returns to UNSYNC. -/
def riserSleep (s : State) : State :=
  (List.range 4096).foldl (fun s c =>
    if riserState s c = 0 then s else setRiserState (releaseAll s c) c 1) s

/-- A TB0 step by `d` is left out of the hold times (R286). -/
def riserStep (s : State) (d : Int) : State :=
  let l := s.buf.pkts.map fun k => match k.loc with | .riser c n t => { k with loc := .riser c n (ftAdd t d) } | _ => k
  { s with buf := { s.buf with pkts := l } }

end Sys2Proof.Machine
end

