-- ==== Sys2Proof/Machine/Assay.lean ====
section
/-! DEFINITION. The Assay engine: intake, sources, windows, decisions and migration (R313 to R338). -/

namespace Sys2Proof.Machine

/-! Frames that the device injects. -/

/-- A frame without a heat enters through the auxiliary port (R294, R330): its bytes without FCS, its reference time, and
the true time at which its last cell is in the Crucible. -/
def injectFrame (s : State) (body : List Nat) (d : Dest) (tc : Nat) (ll : Bool) (tRef upAt slice : Nat) : State :=
  let bytes := body ++ fcsOf body
  let k := ownKey bytes (s.rd A.PRS_CFG)
  let (fid, s) := freshId s
  let (kid, s) := freshId s
  let f : Frame :=
    { id := fid, bytes := ofNats bytes, inPort := 64, tIn := tRef, tsq := 0, tRef := tRef, heat := none, slot := none,
      orphan := false, pass := 0, tc := tc, ll := ll, fields := hashFields k, frag := decide (k.frag ≠ 0),
      tag := none, done := upAt, bad := false, pool := .none, slice := slice }
  let s := addFrame s f
  proceed s ⟨kid, fid, d, 0, 0, .toAdmit, none, none, none, none, false, false, s.now⟩

/-- A frame of the host or the management complex reaches the auxiliary port, which carries 100 Gb/s (R294, R303). -/
def injectOuter (s : State) (x : Injected) : State :=
  let d := match x.dest with
    | .port e => Dest.port e.val | .lag g => Dest.lag g.val | .ladle i => Dest.ladle i.val
  if x.body.length < 60 ∨ 16379 < x.body.length then s
  else injectFrame s (toNats x.body) d x.tc.val x.ll (tb0 s) (s.now + (8 * (x.body.length + 4) + 99) / 100) 4

/-! Fields of a context. -/

def State.asyCtx (s : State) (c : Nat) : AsyCtx := Map.get {} s.asy.ctxs c
def putAsyCtx (s : State) (c : Nat) (h : AsyCtx) : State :=
  { s with asy := { s.asy with ctxs := Map.put {} s.asy.ctxs c h } }
def putAsy (s : State) (h : AsyHidden) : State := { s with asy := h }

/-- Events of the block, of the migration registers and of context `c`. -/
def asyEvent (s : State) (mask : Nat) : State := s.event A.ASY_EVT A.ASY_EVT_EN 896 mask 0
def migEvent (s : State) (mask : Nat) : State := s.event A.ASY_MIG_EVT A.ASY_MIG_EVT_EN 897 mask 2
def ctxEvent (s : State) (c mask : Nat) : State :=
  s.event (A.ASY_CTX_EVT c) (A.ASY_CTX_EVT_EN c) (928 + c / 8) mask 0

/-- A word that may be written at any time, as it applies to a window decided at `t` (R321). -/
def ctxWord (s : State) (c a t : Nat) : Nat :=
  ((s.asyCtx c).olds.filter fun o => decide (o.1 = a) && decide (t < o.2.2 + us * nsUnits)).foldl
    (fun _ o => o.2.1) (s.rd a)

/-- Such a word is written: the former one applies for 1 µs more. -/
def noteOld (s : State) (c a : Nat) : State :=
  let h := s.asyCtx c
  putAsyCtx s c { h with olds := (a, s.rd a, tb0 s) :: h.olds }

/-! Windows (R323). -/

/-- The FIXED window that covers `t`. -/
def fixedWindow (s : State) (c t : Nat) : Nat × Nat :=
  let w := Nat.max 1 (ctxW s c)
  if t < ctxOff s c then (0, ctxOff s c)
  else
    let b := ctxOff s c + (t - ctxOff s c) / w * w
    (b, b + w)

/-- The window of a counted record with t_p = `t`: its start and its end. -/
def windowAt (s : State) (c t : Nat) : Nat × Nat :=
  if ctxSliding s c then (t - ctxW s c, t) else fixedWindow s c t

/-- The window covers `t`. -/
def windowCovers (s : State) (c : Nat) (w : Nat × Nat) (t : Nat) : Bool :=
  decide (w.1 ≤ t) && (if ctxSliding s c then decide (t ≤ w.2) else decide (t < w.2))

/-- The engine slice that a window belongs to (R333), of those of the migration. -/
def windowSlice (s : State) (c : Nat) (w : Nat × Nat) : Nat :=
  match s.asy.mig with
  | some m => if m.c = c then (if (if ctxSliding s c then w.2 < m.t else w.2 ≤ m.t) then m.old else m.new) else ctxSlice s c
  | none => ctxSlice s c

/-- The window is not decided yet. -/
def undecided (s : State) (c : Nat) (w : Nat × Nat) : Bool := !decide (w.2 ∈ (s.asyCtx c).decided)

/-- The records of context `c` on slice `e`. -/
def histOf (s : State) (c e : Nat) : List AsyHist := s.asy.hist.filter fun r => decide (r.c = c) && decide (r.e = e)

/-- The records of context `c`, those that are still being copied at their new slice too (R334). -/
def liveRecords (s : State) (c : Nat) : List AsyHist :=
  s.asy.hist ++ (s.asy.copies.filter fun j => decide (j.c = c)).flatMap fun j => j.todo.map fun r => { r with e := j.e }

/-- The undecided windows of context `c`, one for each counted record of the slice that decides it. -/
def openWindows (s : State) (c : Nat) : List (Nat × Nat) :=
  ((liveRecords s c).filter fun r => decide (r.c = c) && !r.veto).filterMap fun r =>
    let w := windowAt s c r.tp
    if undecided s c w && decide (windowSlice s c w = r.e) then some w else none

/-- The record is still needed: a window that is not decided yet covers it, or can still come to cover it (R325). -/
def histNeeded (s : State) (open_ : List (Nat × Nat)) (c tp : Nat) : Bool :=
  let w := if ctxSliding s c then (tp, tp + ctxW s c) else fixedWindow s c tp
  (decide (tb0 s ≤ w.2 + ctxClose s c) && (undecided s c w || (ctxSliding s c && decide (tb0 s < w.2 + ctxClose s c)))) ||
    open_.any fun w => windowCovers s c w tp

/-- The records of context `c` that no window needs are freed, and so are the marks of lost ones. -/
def freeHist (s : State) (c : Nat) : State :=
  let w := openWindows s c
  putAsy s { s.asy with hist := s.asy.hist.filter fun r => !decide (r.c = c) || histNeeded s w c r.tp
                        marks := s.asy.marks.filter fun r => !decide (r.c = c) || histNeeded s w c r.tp }

/-- The contexts that hold records. -/
def histContexts (s : State) : List Nat := ((s.asy.hist.map AsyHist.c) ++ s.asy.marks.map AsyMark.c).dedup

/-- The records that no window needs any more are freed in every context. -/
def freeAll (s : State) : State := (histContexts s).foldl freeHist s

/-! Intake (R313 to R317). -/

/-- The bytes of record `k` of a primitive frame, whose subtype byte lies at `o`. -/
def primBytes (d : List Nat) (o k : Nat) : List Nat := (d.drop (o + 1 + 32 * k)).take 32

/-- The record is bad (R315). -/
def primBad (b : List Nat) : Bool :=
  decide (b.length < 32) || decide (byteAt b 0 / 16 ≠ 1) || decide (byteAt b 0 % 8 ≠ 0) ||
    decide (byteAt b 19 % 128 ≠ 0) || decide (beAt b 24 4 ≠ 0) || decide (beAt b 28 4 ≠ crc32c (b.take 28)) ||
    decide (1000000000 ≤ beAt b 10 4)

/-- The FTIME in frame order at byte `o` (R9). -/
def ftAtByte (b : List Nat) (o : Nat) : Nat := beAt b o 6 * secUnits + beAt b (o + 6) 4 * 65536 + beAt b (o + 10) 2

/-- A record enters an intake queue, or finds it full (R317). -/
def queueRec (s : State) (r : AsyRec) : State :=
  if (if r.q = 4 then 256 else 2048) ≤ (s.asy.recs.filter fun x => decide (x.q = r.q)).length then
    asyEvent (s.add64 A.ASY_INTAKE_DROP_LO 1) 8
  else putAsy s { s.asy with recs := s.asy.recs ++ [r] }

/-- A good record is read (R315). -/
def readRec (s : State) (f : AsyFrame) (b : List Nat) : State :=
  let t := ftAtByte b 4
  if tb0 s + 1010 * us * nsUnits < t then asyEvent (s.add64 A.ASY_FUTURE_LO 1) 32
  else queueRec s ⟨f.slice, beAt b 1 3, t, beAt b 16 2, (byteAt b 19).testBit 7, beAt b 20 4, f.tIn, f.tsq⟩

/-- The records of a primitive frame are unpacked (R315). -/
def unpack (f : AsyFrame) (d : List Nat) (o : Nat) : Nat → Nat → State → State
  | 0, _, s => s
  | n + 1, k, s =>
    let b := primBytes d o k
    if primBad b then asyEvent (s.add64 A.ASY_BAD_PRIM_LO 1) 2
    else
      let s := readRec s f b
      if (byteAt b 0).testBit 3 then
        (if k = 14 then asyEvent (s.add64 A.ASY_TRUNC_LO 1) 64 else unpack f d o n (k + 1) s)
      else s

/-- A frame steered by OP ASSAY leaves the data path (R316). -/
def toAssay (s : State) (f : AsyFrame) : State := putAsy s { s.asy with frames := s.asy.frames ++ [f] }

/-- The intake takes the next frame of a data slice (R316). The FCS at its end is no part of its records. -/
def intakeFrame (s : State) (slice : Nat) : State :=
  match s.asy.frames.find? fun f => decide (f.slice = slice) with
  | none => s
  | some f =>
    let s := putAsy s { s.asy with frames := s.asy.frames.erase f }
    if !s.bit A.ASY_CFG 31 || !f.prim then asyEvent (s.add64 A.ASY_BAD_FRAME_LO 1) 1
    else
      let b := toNats f.bytes
      let d := b.take (b.length - 4)
      match parseL2 b with
      | .ok x => unpack f d (x.at_ + 2) 15 0 s
      | _ => asyEvent (s.add64 A.ASY_BAD_FRAME_LO 1) 1

/-! Lookup (R318 to R320). -/

/-- The valid source entries of a channel. -/
def sourcesOf (s : State) (chan : Nat) : List Nat :=
  (s.regs.filter fun e => decide (A.TBL_SRC 0 0 ≤ e.1) && decide (e.1 < A.TBL_SRC 16384 0) &&
    decide (e.1 % 32 = 28) && e.2.toNat.testBit 31 && decide (e.2.toNat % 2 ^ 24 = chan)).map
    fun e => (e.1 - A.TBL_SRC 0 0) / 32

/-- t_p of a record for a context (R322), and whether it is flagged. -/
def recTime (s : State) (c : Nat) (r : AsyRec) : Nat := if ctxTin s c then r.tIn else r.tHit
def recFlagged (s : State) (c : Nat) (r : AsyRec) : Bool := r.bad || (ctxTin s c && tsqFlagged r.tsq)

/-- The engine slices that take a membership (R334), the second one as a twin. -/
def memSlices (s : State) (c t : Nat) : List (Nat × Bool) :=
  match s.asy.mig with
  | some m =>
    if m.c = c then
      (if m.t ≤ t then [(m.new, false)] else if m.t ≤ t + ctxW s c then [(m.old, false), (m.new, true)] else [(m.old, false)])
    else [(ctxSlice s c, false)]
  | none => [(ctxSlice s c, false)]

def mark (s : State) (c t : Nat) (late : Bool) : State :=
  putAsy s { s.asy with marks := s.asy.marks ++ [⟨c, t, late⟩] }

/-- A membership goes to the FIFO of its engine slice (R318). -/
def sendMem (s : State) (x : AsyMem) : State :=
  if 4096 ≤ (s.asy.fifo.filter fun y => decide (y.e = x.e)).length then
    asyEvent (mark (s.add64 A.ASY_ESL_DROP_LO 1) x.c (recTime s x.c x.r) false) 16
  else putAsy s { s.asy with fifo := s.asy.fifo ++ [x] }

/-- One slot of a source entry. -/
def sendSlot (s : State) (r : AsyRec) (i j : Nat) : State :=
  let w := s.rd (A.TBL_SRC i j)
  let c := bits w 23 16
  if !w.testBit 31 || !ctxEn s c then s
  else
    (memSlices s c (recTime s c r)).foldl (fun s e =>
      sendMem s ⟨e.1, c, j, w.testBit 30, bits w 15 0, r, e.2⟩) s

/-- A granted record is looked up (R320). -/
def lookupRec (s : State) (r : AsyRec) : State :=
  let s := (s.add64 A.ASY_PRIMS_LO 1).pmcEvent 21 0x284 1
  match sourcesOf s r.chan with
  | [] => asyEvent (s.add64 A.ASY_NO_SRC_LO 1) 4
  | l => l.foldl (fun s i => (List.range 4).foldl (fun s j => sendSlot s r i j) s) s

/-- The first non-empty queue at or after the pointer (R317). -/
def grantQueue (s : State) : Option Nat :=
  ((List.range 5).map fun i => (s.asy.pointer + i) % 5).find? fun q => s.asy.recs.any fun r => decide (r.q = q)

/-- One grant. -/
def grantOne (s : State) : State :=
  match grantQueue s with
  | none => s
  | some q =>
    match s.asy.recs.find? fun r => decide (r.q = q) with
    | none => s
    | some r =>
      lookupRec (putAsy s { s.asy with recs := s.asy.recs.erase r, pointer := (q + 1) % 5, used := s.asy.used + 3 }) r

/-- As many grants as the budget and the queues allow. -/
def grantMany : Nat → State → State
  | 0, s => s
  | n + 1, s => if (grantQueue s).isNone then s else grantMany n (grantOne s)

/-- The central clock of the intake that is commanded now: the one after the last, and none before those of this period. -/
def grantClock (s : State) : Nat := Nat.max (s.asy.grantAt + 1) (3 * (s.now / 2))

/-- One central clock of the intake (R317). The budget has grown by 8/3 in each clock since the last one. -/
def intakeGrant (s : State) : State :=
  let used := s.asy.used - 8 * (grantClock s - s.asy.grantAt)
  let s := putAsy s { s.asy with used := used, grantAt := grantClock s }
  grantMany ((9 - used) / 3) s

/-! Engine slices (R322, R324, R325). -/

/-- The ring of a context on a slice: its base and its size in records. -/
def ringOf (s : State) (c e : Nat) : Nat × Nat :=
  match s.asy.mig with
  | some m =>
    if m.c = c ∧ m.new = e then (m.base * 1024, m.size * 1024)
    else (s.fld (A.ASY_CTX_HIST c) 24 16 * 1024, s.fld (A.ASY_CTX_HIST c) 9 0 * 1024)
  | none => (s.fld (A.ASY_CTX_HIST c) 24 16 * 1024, s.fld (A.ASY_CTX_HIST c) 9 0 * 1024)

/-- The bytes of a record in its bank (R325). -/
def histBytes (r : AsyHist) : List Nat :=
  leBytes 2 (r.tp % 65536) ++ leBytes 4 (ftW0 r.tp) ++ leBytes 2 (r.tp / secUnits % 65536) ++ leBytes 3 r.chan
    ++ [bit01 r.veto * 128 + r.slot] ++ leBytes 2 r.amp ++ leBytes 2 r.weight

/-- The first record of the ring, from where it goes on, that no held record occupies. -/
def freePos (s : State) (c e : Nat) : Option Nat :=
  let (_, size) := ringOf s c e
  let at_ := Map.get 0 (s.asyCtx c).ring e
  let held := histOf s c e
  if size ≤ held.length then none
  else ((List.range (held.length + 1)).map fun i => (at_ + i) % Nat.max 1 size).find? fun p =>
    !(held.any fun r => decide (r.pos = p))

/-- A record is stored in the history and in the bank; `none`: the ring is full of records still needed. -/
def storeHist (s : State) (r : AsyHist) : Option State :=
  let s := freeHist s r.c
  match freePos s r.c r.e with
  | none => none
  | some p =>
    let (base, size) := ringOf s r.c r.e
    let h := s.asyCtx r.c
    let s := putAsyCtx s r.c { h with ring := Map.put 0 h.ring r.e ((p + 1) % Nat.max 1 size) }
    let r := { r with pos := p }
    some ((putAsy s { s.asy with hist := s.asy.hist ++ [r] }).putBank (2 + r.e) ((base + p) * 16) (histBytes r))

/-- The membership at the head of the FIFO of slice `e` reaches it. -/
def membership (s : State) (e : Nat) : State :=
  match s.asy.fifo.find? fun x => decide (x.e = e) with
  | none => s
  | some x =>
    let c := x.c
    let s := putAsy s { s.asy with fifo := s.asy.fifo.erase x }
    let t := recTime s c x.r
    if !ctxEn s c then s
    else if recFlagged s c x.r && s.bit (A.ASY_CTX_CFG c) 22 then
      (if x.twin then s else s.add64 (A.ASY_CTX_IGNORED_LO c) 1)
    else if t + ctxClose s c < tb0 s then
      (if x.twin then mark s c t true else ctxEvent (mark (s.add64 (A.ASY_CTX_LATE_LO c) 1) c t true) c 4)
    else
      match storeHist s ⟨e, c, 0, t, x.r.chan, x.veto, x.slot, x.r.amp, x.weight, recFlagged s c x.r, x.r.user⟩ with
      | some s => s
      | none => ctxEvent (mark (s.add64 (A.ASY_CTX_HIST_FULL_LO c) 1) c t false) c 8

/-! Decisions (R326). -/

/-- A decided window: its context, start, end, M, S, T_FIRST and flags. -/
structure Decision where
  c     : Nat
  start : Nat
  stop  : Nat
  m     : Nat
  sum   : Int
  first : Nat
  flags : Nat
  deriving DecidableEq, Repr

/-- AFLAGS (R327): LATE_IN, OVF, TSQ, MIGR. -/
def afLate : Nat := 128
def afOvf : Nat := 64
def afTsq : Nat := 32
def afMigr : Nat := 16

/-- t_dec of a decision. -/
def tDec (s : State) (d : Decision) : Nat := d.stop + ctxClose s d.c

/-- How many different numbers a list holds. -/
def distinct (l : List Nat) : Nat := l.eraseDups.length

/-- The window spans a migration time of its context (R333). -/
def spansMig (s : State) (c : Nat) (w : Nat × Nat) : Bool :=
  (s.asyCtx c).migT.any fun t => decide (w.1 < t) && (if ctxSliding s c then decide (t ≤ w.2) else decide (t < w.2))

/-- What a window holds: M, S, T_FIRST and the flags. -/
def windowSums (s : State) (c : Nat) (w : Nat × Nat) : Decision :=
  let e := windowSlice s c w
  let l := (histOf s c e).filter fun r => !r.veto && windowCovers s c w r.tp
  let m := if s.bit (A.ASY_CTX_CFG c) 26 then l.length else distinct (l.map AsyHist.chan)
  let term := fun (r : AsyHist) =>
    if s.bit (A.ASY_CTX_CFG c) 25 then toSigned 16 r.weight else toSigned 16 r.weight * (r.amp : Int)
  let sum := clampInt (-(2 ^ 47)) (2 ^ 47 - 1) ((l.map term).sum)
  let marks := s.asy.marks.filter fun k => decide (k.c = c) && windowCovers s c w k.tp
  ⟨c, w.1, w.2, m, sum, (l.map AsyHist.tp).foldl Nat.min w.2,
   afLate * bit01 (marks.any AsyMark.late) + afOvf * bit01 (marks.any fun k => !k.late)
     + afTsq * bit01 (l.any AsyHist.flagged) + afMigr * bit01 (spansMig s c w)⟩

/-- The window holds a record of a VETO membership. -/
def windowVeto (s : State) (c : Nat) (w : Nat × Nat) : Bool :=
  (histOf s c (windowSlice s c w)).any fun r => r.veto && windowCovers s c w r.tp

/-- The condition of the context holds (R326). -/
def decPass (s : State) (d : Decision) : Bool :=
  let t := tDec s d
  let word := fun a => ctxWord s d.c a t
  let okM := decide (bits (word (A.ASY_CTX_MTHR d.c)) 15 0 ≤ d.m)
  let thr := toSigned 48 (word (A.ASY_CTX_STHR_LO d.c) + bits (word (A.ASY_CTX_STHR_HI d.c)) 15 0 * 2 ^ 32)
  let okS := decide (thr ≤ d.sum)
  let cond := s.fld (A.ASY_CTX_CFG d.c) 24 23
  if cond = 0 then okM else if cond = 1 then okS else if cond = 2 then okM && okS else okM || okS

/-- The primitive record that a decision yields (R328). -/
def derivedRecord (s : State) (d : Decision) : List Nat :=
  let b := [0x10] ++ beBytes 3 (s.fld A.GLB_NODE_ID 15 0 * 256 + d.c) ++ ftBytes d.first ++ beBytes 2 (Nat.min d.m 65535)
    ++ [s.fld (A.ASY_CTX_TTYPE d.c) 7 0, if d.flags &&& (afTsq + afOvf) = 0 then 0 else 128]
    ++ beBytes 4 (s.rd (A.ASY_CTX_ACC_SEQ d.c)) ++ [0, 0, 0, 0]
  b ++ beBytes 4 (crc32c b)

/-- The 48 bytes of a trigger accept (R327). -/
def acceptBytes (s : State) (d : Decision) : List Nat :=
  let b := [0x04, 0x10] ++ beBytes 2 (s.fld A.GLB_NODE_ID 15 0) ++ [d.c, d.flags] ++ beBytes 4 (s.rd (A.ASY_CTX_ACC_SEQ d.c))
    ++ ftBytes d.stop ++ ftBytes d.first ++ beBytes 2 (Nat.min d.m 65535) ++ beBytes 6 (ofSigned 48 d.sum)
    ++ beBytes 2 (s.fld (A.ASY_CTX_TTYPE d.c) 15 0)
  b ++ beBytes 4 (crc32c b)

/-- The Ethernet header of the frames of a context. -/
def asyHeader (s : State) (c : Nat) : List Nat :=
  beBytes 6 (s.rd (A.ASY_CTX_DMAC_LO c) + s.fld (A.ASY_CTX_DMAC_HI c) 15 0 * 2 ^ 32)
    ++ beBytes 6 (s.rd A.ASY_SMAC_LO + s.fld A.ASY_SMAC_HI 15 0 * 2 ^ 32) ++ [0x88, 0xB5]

/-- The frame output of a decision (R327, R328, R330). -/
def issueFrame (s : State) (d : Decision) (body : List Nat) : State :=
  let w := s.rd (A.ASY_CTX_DEST d.c)
  let dest := if w.testBit 31 then Dest.ladle (bits w 13 0) else Dest.port (bits w 5 0)
  injectFrame s (asyHeader s d.c ++ body) dest (bits w 30 28) true (tDec s d) s.now (windowSlice s d.c (d.start, d.stop))

/-- The fire request of a decision (R331). An output that is not in RUN listens to none. -/
def issuePulse (s : State) (d : Decision) : State :=
  let k := s.fld (A.ASY_CTX_CFG d.c) 17 13
  let dly := Config.quot (ctxWord s d.c (A.ASY_CTX_PDLY d.c) (tDec s d) * 65536) 1000
  let fire := (if s.bit (A.ASY_CTX_CFG d.c) 18 then d.first else tDec s d) + dly
  match (s.out1 k).active with
  | some p => if p.mode = 2 ∧ p.base = 0 ∧ plsState s k = 2 then extRequest s k fire else asyEvent (s.add64 A.ASY_PLS_DROP_LO 1) 128
  | none => asyEvent (s.add64 A.ASY_PLS_DROP_LO 1) 128

/-- The outputs of a decided window (R329 to R332). -/
def issue (s : State) (d : Decision) : State :=
  let s := ctxEvent (s.add64 (A.ASY_CTX_ACCEPTS_LO d.c) 1) d.c 1
  let out := s.fld (A.ASY_CTX_CFG d.c) 21 20
  let s :=
    if out = 1 then issueFrame s d (acceptBytes s d)
    else if out = 2 then
      issueFrame s d ([0x02] ++ derivedRecord s d ++ List.replicate 13 0)
    else if out = 3 then
      let b := derivedRecord s d
      queueRec s ⟨4, beAt b 1 3, ftAtByte b 4, beAt b 16 2, (byteAt b 19).testBit 7, beAt b 20 4, tb0 s, 0⟩
    else s
  let s := if s.bit (A.ASY_CTX_CFG d.c) 19 then issuePulse s d else s
  if s.bit A.SNP_CFG 19 && decide (s.fld A.SNP_CFG 27 20 = d.c) then (trigger s 32 0 (tb0 s)).1 else s

/-- The window is decided (R326). -/
def decideWindow (s : State) (c : Nat) (w : Nat × Nat) : State :=
  let d := windowSums s c w
  let veto := windowVeto s c w
  let h := s.asyCtx c
  let s := putAsyCtx s c { h with decided := w.2 :: h.decided }
  if w.1 < s.asy.runAt then freeHist s c
  else
    let t := tDec s d
    let s := s.pmcEvent 21 0x285 1
    let s := if d.flags &&& afMigr = 0 then s else ctxEvent s c 16
    let s :=
      if !decPass s d then s
      else
        let s := s.add64 (A.ASY_CTX_PASSED_LO c) 1
        if veto then ctxEvent (s.add64 (A.ASY_CTX_VETOED_LO c) 1) c 2
        else
          let h := s.asyCtx c
          let hold := bits (ctxWord s c (A.ASY_CTX_HOLDOFF c) t) 19 0 * nsUnits
          if (match h.last with | some e => decide (w.2 < e + hold) | none => false) then s
          else
            let p := Nat.max 1 (bits (ctxWord s c (A.ASY_CTX_PRESCALE c) t) 23 0)
            if h.pcount + 1 < p then putAsyCtx s c { h with pcount := h.pcount + 1 }
            else
              let s := putAsyCtx s c { h with pcount := 0, last := some w.2 }
              issue (s.wr (A.ASY_CTX_ACC_SEQ c) (s.rd (A.ASY_CTX_ACC_SEQ c) + 1)) d
    freeHist s c

/-- The next window of a context to be decided: that of the earliest end. -/
def nextWindowOf (s : State) (c : Nat) : Option (Nat × Nat) :=
  (openWindows s c).foldl (fun o w => match o with | none => some w | some v => if w.2 < v.2 then some w else o) none

/-- The window waits for a copy (R334). -/
def waitsForCopy (s : State) (c : Nat) (w : Nat × Nat) : Bool :=
  s.asy.copies.any fun j => decide (j.c = c) && decide (windowSlice s c w = j.e)

/-- The next window of context `c`, where its t_dec has come and it need not wait. -/
def dueWindow (s : State) (c : Nat) : Option (Nat × Nat) :=
  match nextWindowOf s c with
  | none => none
  | some w => if !ctxEn s c || decide (tb0 s < w.2 + ctxClose s c) || waitsForCopy s c w then none else some w

/-! Contexts (R321). -/

/-- Two ranges overlap. -/
def rangesMeet (a n b m : Nat) : Bool := decide (a < b + m) && decide (b < a + n)

/-- The history region overlaps that of another enabled context on the slice, or a migration's target there. -/
def regionTaken (s : State) (c e base size : Nat) : Bool :=
  ((List.range 256).any fun d =>
    decide (d ≠ c) && ctxEn s d && decide (ctxSlice s d = e) &&
      rangesMeet base size (s.fld (A.ASY_CTX_HIST d) 24 16) (s.fld (A.ASY_CTX_HIST d) 9 0))
  || (match s.asy.mig with
      | some m => decide (m.new = e) && rangesMeet base size m.base m.size
      | none => false)

/-- A region that R321 refuses. -/
def regionBad (s : State) (c e base size : Nat) : Bool :=
  decide (size = 0) || decide (512 < base + size) || regionTaken s c e base size || !bankOn s (2 + e)

/-- A write of CFG with EN = 1 is rejected (R321). -/
def ctxEnableBad (s : State) (c v : Nat) : Bool :=
  let w := s.fld (A.ASY_CTX_WIN c) 19 0
  decide (w = 0) || decide (1000000 < w) || decide (w ≤ s.fld (A.ASY_CTX_OFF c) 19 0) ||
    decide (1000000 < s.fld (A.ASY_CTX_CLOSE c) 19 0) ||
    regionBad s c (bits v 29 28) (s.fld (A.ASY_CTX_HIST c) 24 16) (s.fld (A.ASY_CTX_HIST c) 9 0) ||
    (decide (bits v 21 20 ≠ 0) && !s.bit (A.ASY_CTX_DEST c) 31 && decide (64 ≤ s.fld (A.ASY_CTX_DEST c) 13 0))

/-- CTXc_STAT.STATE and ESLICE_EFF. -/
def setCtxStat (s : State) (c st e : Nat) : State :=
  (s.setFld (A.ASY_CTX_STAT c) 31 28 st).setFld (A.ASY_CTX_STAT c) 27 26 e

/-- The records, marks and memberships of a context are discarded. -/
def clearCtx (s : State) (c : Nat) : State :=
  putAsy s { s.asy with hist := s.asy.hist.filter fun r => decide (r.c ≠ c)
                        marks := s.asy.marks.filter fun r => decide (r.c ≠ c)
                        fifo := s.asy.fifo.filter fun x => decide (x.c ≠ c)
                        copies := s.asy.copies.filter fun j => decide (j.c ≠ c)
                        ctxs := Map.put {} s.asy.ctxs c { olds := (s.asyCtx c).olds } }

/-- The migration ends without a handover: its result, and the state of its context, all of whose windows are the old
slice's. -/
def endMig (s : State) (m : AsyMig) (result st : Nat) : State :=
  let s := putAsy s { s.asy with mig := none
                                 copies := s.asy.copies.filter fun j => !(decide (j.c = m.c) && decide (j.e = m.new)) }
  let s := putAsyCtx s m.c { s.asyCtx m.c with migT := (s.asyCtx m.c).migT.erase m.t }
  setCtxStat ((s.setFld A.ASY_MIG_STAT 31 28 0).setFld A.ASY_MIG_STAT 27 24 result) m.c st (ctxSlice s m.c)

/-- A migration ends FAILED (R335). -/
def failMig (s : State) : State :=
  match s.asy.mig with
  | none => s
  | some m => migEvent (endMig s m 4 (bit01 (ctxEn s m.c))) 2

/-- EN becomes 1: the prescale count, the holdoff and ACC_SEQ are cleared. Thresholds written less than 1 µs ago apply as
ever (R321). -/
def ctxEnable (s : State) (c v : Nat) : State :=
  let s := clearCtx ((s.wr (A.ASY_CTX_CFG c) (v &&& 0xFFFFE000)).wr (A.ASY_CTX_ACC_SEQ c) 0) c
  setCtxStat s c 1 (bits v 29 28)

/-- EN becomes 0: the history and every undecided window are discarded, and a migration of the context fails. -/
def ctxDisable (s : State) (c v : Nat) : State :=
  let s := s.wr (A.ASY_CTX_CFG c) (v &&& 0x7FFFE000)
  let s := match s.asy.mig with | some m => if m.c = c then failMig s else s | none => s
  setCtxStat (clearCtx s c) c 0 (bits v 29 28)

/-! Sources (R319). -/

/-- A commit of entry `i` with the words 0 to 7 is discarded. -/
def srcCommitBad (s : State) (i : Nat) (ws : List Nat) : Bool :=
  (List.range 4).any (fun j => decide (bits (ws.getD j 0) 29 24 ≠ 0)) ||
    (List.range 3).any (fun j => decide (ws.getD (4 + j) 0 ≠ 0)) || decide (bits (ws.getD 7 0) 30 24 ≠ 0) ||
    ((ws.getD 7 0).testBit 31 &&
      decide (4 ≤ ((sourcesOf s (bits (ws.getD 7 0) 23 0)).filter (· ≠ i)).length))

/-- The words of entry `i` are committed. -/
def srcCommit (s : State) (i : Nat) (ws : List Nat) : State :=
  (List.range 8).foldl (fun s j => s.wr (A.TBL_SRC i j) (ws.getD j 0)) s

/-! Migration (R333 to R335). -/

/-- A migration is held (R335). -/
def migHeld (s : State) : Bool := s.asy.mig.isSome

/-- A write of GO is rejected (R335). -/
def migBad (s : State) : Bool :=
  let w := s.rd A.ASY_MIG_CFG
  let c := bits w 31 24
  let t := s.rdTime A.ASY_MIG_T_W2
  migHeld s || !ctxEn s c || decide (bits w 23 22 = ctxSlice s c) ||
    regionBad s c (bits w 23 22) (bits w 18 10) (bits w 9 0) ||
    decide (t < tb0 s + 10 * us * nsUnits) || decide (tb0 s + 1000 * secUnits < t)

/-- The records of context `c` on slice `e`, those that are still being copied to it among them. -/
def recordsOf (s : State) (c e : Nat) : List AsyHist :=
  histOf s c e ++ (s.asy.copies.filter fun j => decide (j.c = c) && decide (j.e = e)).flatMap fun j =>
    j.todo.map fun r => { r with e := e }

/-- A membership that waits for the old slice as GO is accepted (R334): it goes to the new slice where its t_p is at or after
T, and to both from T − W on. -/
def migWaiting (s : State) (m : AsyMig) (x : AsyMem) : State :=
  let t := recTime s m.c x.r
  if x.c ≠ m.c ∨ x.e ≠ m.old then s
  else if m.t ≤ t then sendMem (putAsy s { s.asy with fifo := s.asy.fifo.erase x }) { x with e := m.new }
  else if m.t ≤ t + ctxW s m.c then sendMem s { x with e := m.new, twin := true }
  else s

/-- GO is accepted: the old slice starts to hand over the records from T − W on. In sleep entry, the migration ends at
once (R335). -/
def migGo (s : State) : State :=
  let w := s.rd A.ASY_MIG_CFG
  let c := bits w 31 24
  let t := s.rdTime A.ASY_MIG_T_W2
  let old := ctxSlice s c
  let todo := (recordsOf s c old).filter fun r => decide (t ≤ r.tp + ctxW s c)
  let copies := if todo.isEmpty then s.asy.copies else s.asy.copies ++ [⟨c, bits w 23 22, t, todo, false⟩]
  let m : AsyMig := ⟨c, old, bits w 23 22, bits w 18 10, bits w 9 0, t, false⟩
  let s := s.asy.fifo.foldl (fun s x => migWaiting s m x) (putAsy s { s.asy with mig := some m, copies := copies })
  let s := putAsyCtx s c { s.asyCtx c with migT := t :: (s.asyCtx c).migT }
  let s := setCtxStat (s.wr A.ASY_MIG_STAT (2 ^ 28)) c 2 old
  if inSleep s then failMig s else s

/-- A record is stored, or lost because the ring is full (R325). -/
def keepHist (s : State) (r : AsyHist) : State :=
  match storeHist s r with
  | some s => s
  | none => ctxEvent (mark (s.add64 (A.ASY_CTX_HIST_FULL_LO r.c) 1) r.c r.tp false) r.c 8

/-- A record is copied to the new slice; one from T on is there only (R334). -/
def copyHist (s : State) (j : AsyCopy) (r : AsyHist) : State :=
  let s := s.addSat A.ASY_MIG_STAT 19 0 1
  let s := if r.tp < j.t then s else putAsy s { s.asy with hist := s.asy.hist.erase r }
  keepHist s { r with e := j.e }

/-- A copy runs to its end. -/
def runCopy (s : State) (j : AsyCopy) : State :=
  let s := j.todo.foldl (fun s r => copyHist s j r) s
  putAsy s { s.asy with copies := s.asy.copies.erase j }

/-- A window waited for the copy. RESULT is that of the migration that was handed over. -/
def migLate (s : State) : State :=
  migEvent (if s.asy.mig.isNone then s.setFld A.ASY_MIG_STAT 27 24 2 else s) 4

/-- TB0 reaches T (R333). -/
def migReached (s : State) : State :=
  match s.asy.mig with
  | none => s
  | some m =>
    if m.reached || decide (tb0 s < m.t) then s
    else setCtxStat ((putAsy s { s.asy with mig := some { m with reached := true } }).setFld A.ASY_MIG_STAT 31 28 2) m.c 3 m.new

/-- A membership in flight to the old slice at the handover passes to the new one (R334), unless its twin is there: a
twin that waits takes its place. -/
def passFlight (s : State) (m : AsyMig) (l : List AsyMem) : List AsyMem :=
  l.filterMap fun x =>
    if x.c ≠ m.c then some x
    else if x.twin then some { x with twin := !(l.any fun y => decide ({ y with e := m.new, twin := true } = x)) }
    else if x.e ≠ m.old then some x
    else
      let t := recTime s m.c x.r
      let y := { x with e := m.new, twin := true }
      if m.t ≤ t + ctxW s m.c ∧ (y ∈ l ∨ (histOf s m.c m.new).any (fun r => decide (r.tp = t ∧ r.chan = x.r.chan ∧ r.slot = x.slot)) = true)
      then none else some { x with e := m.new }

/-- T + CLOSE of the migration has come. -/
def handoverDue (s : State) : Bool :=
  match s.asy.mig with
  | some m => decide (m.t + ctxClose s m.c ≤ tb0 s)
  | none => false

/-- T + CLOSE (R334): the windows of the old slice are decided; then the counts and the records in flight pass to the
new slice, and the old region is freed. -/
def migHandover (s : State) : State :=
  match s.asy.mig with
  | none => s
  | some m0 =>
    if !handoverDue s then s
    else
      let s := migReached s
      let s := (s.asy.copies.filter fun j => decide (j.c = m0.c) && decide (j.e = m0.old)).foldl runCopy s
      let s := (List.range (s.asy.hist.length + 1)).foldl (fun s _ =>
        match nextWindowOf s m0.c with
        | some w => if windowSlice s m0.c w = m0.old ∧ w.2 + ctxClose s m0.c ≤ tb0 s then decideWindow s m0.c w else s
        | none => s) s
      match s.asy.mig with
      | none => s
      | some m =>
        let c := m.c
        let s := (s.setFld (A.ASY_CTX_CFG c) 29 28 m.new).wr (A.ASY_CTX_HIST c) (m.base * 2 ^ 16 + m.size)
        let s := putAsy s { s.asy with
          hist := s.asy.hist.filter fun r => !(decide (r.c = c) && decide (r.e = m.old))
          fifo := passFlight s m s.asy.fifo
          mig := none }
        migEvent (setCtxStat ((s.setFld A.ASY_MIG_STAT 31 28 0).setFld A.ASY_MIG_STAT 27 24 1) c 1 m.new) 1

/-- CANCEL is discarded (R335). -/
def migCancelBad (s : State) : Bool :=
  match s.asy.mig with
  | some m => decide (m.t ≤ tb0 s)
  | none => true

/-- The context's next window is decided, or is found waiting for a copy. A handover that is due goes first (R334). -/
def decide1 (s : State) (c : Nat) : State :=
  let s := if handoverDue s && (match s.asy.mig with | some m => decide (m.c = c) | none => false) then migHandover s else s
  match nextWindowOf s c with
  | none => s
  | some w =>
    if !ctxEn s c || decide (tb0 s < w.2 + ctxClose s c) then s
    else
      match s.asy.copies.find? fun j => decide (j.c = c) && decide (windowSlice s c w = j.e) with
      | none => decideWindow s c w
      | some j =>
        if j.late then s
        else migLate (putAsy s { s.asy with copies := s.asy.copies.map fun i => if i = j then { j with late := true } else i })

/-- Of the given contexts, the one whose window is due first, by t_dec and then by its number. -/
def firstDue (s : State) (cs : List Nat) : Option (Nat × (Nat × Nat)) :=
  (cs.filterMap fun c => (dueWindow s c).map fun w => (c, w)).foldl (fun o x =>
    match o with
    | none => some x
    | some y => if x.2.2 + ctxClose s x.1 < y.2.2 + ctxClose s y.1 then some x else some y) none

/-- Every window of the contexts whose t_dec has come is decided, in t_dec order (R337), with the handover in its place. -/
def decideDue (cs : List Nat) : Nat → State → State
  | 0, s => s
  | n + 1, s =>
    let o := firstDue s cs
    let handsOver := handoverDue s && (match s.asy.mig, o with
      | some m, some x => decide (m.c ∈ cs) && decide (m.t + ctxClose s m.c ≤ x.2.2 + ctxClose s x.1)
      | some m, none => decide (m.c ∈ cs)
      | none, _ => false)
    if handsOver then decideDue cs n (migHandover s)
    else
      match o with
      | none => s
      | some x => decideDue cs n (decideWindow s x.1 x.2)

/-- The time of TB0 was stepped (R337): the windows that a forward step passed over are decided at once. -/
def assayStep (s : State) : State :=
  if inSleep s || !islandRuns s 4 then s
  else freeAll (decideDue (histContexts s) (s.asy.hist.length + 2) s)

/-- The copy that was begun first ends, and the windows that waited for it are decided (R334). -/
def migCopied (s : State) : State :=
  match s.asy.copies with
  | [] => s
  | j :: _ =>
    let waited := (openWindows s j.c).any fun w => decide (windowSlice s j.c w = j.e) && decide (w.2 + ctxClose s j.c < tb0 s)
    let s := runCopy s j
    let s := if waited && !j.late then migLate s else s
    decideDue [j.c] (s.asy.hist.length + 2) s

/-- CANCEL before T: the context stays on its old slice, with every record. -/
def migCancel (s : State) : State :=
  match s.asy.mig with
  | none => s
  | some m =>
    let back := (histOf s m.c m.new).filter fun r => decide (m.t ≤ r.tp)
    let s := putAsy s { s.asy with
      hist := s.asy.hist.filter fun r => !(decide (r.c = m.c) && decide (r.e = m.new))
      fifo := (s.asy.fifo.filter fun x => !(decide (x.c = m.c) && x.twin)).map fun x =>
        if x.c = m.c then { x with e := m.old } else x }
    let s := endMig s m 3 1
    back.foldl (fun s r => keepHist s { r with e := m.old }) s

/-- Sleep entry (R336): the engine stops, history and undecided windows are discarded, and a migration fails. -/
def assaySleep (s : State) : State :=
  let s := failMig s
  putAsy s { s.asy with frames := [], recs := [], fifo := [], hist := [], marks := [], copies := [],
                        ctxs := (s.asy.ctxs.map fun e => (e.1, { e.2 with decided := [], ring := [], migT := [] })).filter
                          fun e => decide (e.2 ≠ {}) }

/-- The data die is in RUN again after sleep. -/
def assayWake (s : State) : State := putAsy s { s.asy with runAt := tb0 s }

end Sys2Proof.Machine
end

