-- ==== Sys2Proof/Machine/Heats.lean ====
section
/-! DEFINITION. Heats: slot states, LOAD and SEAL, commits and their results, the heat of a frame, references and
drains; and the errors of Mould entries (R232, R235, R237 to R243). -/

namespace Sys2Proof.Machine

def putCls (s : State) (h : ClsHidden) : State := { s with cls := h }

/-- Events of HEAT: COMMIT_FAIL and DRAIN_FORCED raise source 768 whatever EVT_EN holds. -/
def heatEvent (s : State) (mask : Nat) : State := s.event A.HEAT_EVT A.HEAT_EVT_EN 768 mask 0x50

/-- Events of PRS and CLS: MOULD_UE raises source 769 whatever EVT_EN holds. -/
def clsEvent (s : State) (mask : Nat) : State := s.event A.CLS_EVT A.CLS_EVT_EN 769 mask 8

/-! Slot states: 0 EMPTY, 1 LOADING, 2 SEALING, 3 SEALED, 4 BAD, 5 ACTIVE, 6 DRAINING. -/

def slotState (s : State) (x : Nat) : Nat := s.fld A.HEAT_STAT (26 + 3 * x) (24 + 3 * x)
def setSlotState (s : State) (x st : Nat) : State := s.setFld A.HEAT_STAT (26 + 3 * x) (24 + 3 * x) st
def slotHeat (s : State) (x : Nat) : Nat := s.fld (A.HEAT_SLOT_NUM x) 15 0

/-- The slot of the active heat. -/
def activeSlot (s : State) : Option Nat :=
  if s.bit A.HEAT_STAT 31 then some (s.fld A.HEAT_STAT 23 23) else none

/-- The loading slot (R237). -/
def loadingSlot (s : State) : Nat :=
  match activeSlot s with
  | some x => 1 - x
  | none => 0

/-- HEAT.STAT.COMMIT follows the record. -/
def setCommit (s : State) (o : Option HeatRec) : State :=
  (putCls s { s.cls with commit := o }).setFld A.HEAT_STAT 22 21
    (match o with | none => 0 | some r => if r.waiting then 2 else 1)

/-! Mould entries (R233). -/

/-- The TBL address of a slot's first entry, and of the next slot's. -/
def mouldBase (x : Nat) : Nat := A.TBL_MOULD (32768 * x) 0

/-- The valid entries of a slot, by rising index. -/
def validEntries (s : State) (x : Nat) : List Nat :=
  ((s.regs.filter fun e => decide (mouldBase x ≤ e.1) && decide (e.1 < mouldBase (x + 1)) && decide (e.1 % 128 = 124) &&
    (s.rd e.1).testBit 27).map fun e => (e.1 - mouldBase x) / 128).insertionSort (· ≤ ·)

def entryWord (s : State) (x e w : Nat) : Nat := s.rd (A.TBL_MOULD (32768 * x + e) w)

/-- The action word of an entry. -/
def entryAction (s : State) (x e : Nat) : Nat := entryWord s x e 15 + entryWord s x e 31 * 2 ^ 32

/-- VALUE, with `b` = 0, or MASK, with `b` = 16, as 480 bits. -/
def entryBits (s : State) (x e b : Nat) : Nat :=
  ((List.range 15).map fun w => entryWord s x e (b + w) * 2 ^ (32 * w)).sum

/-- The entry matches the key (R232). -/
def entryMatches (s : State) (x e key : Nat) : Bool := decide (key &&& entryBits s x e 16 = entryBits s x e 0)

/-- The first matching entry of a slot. -/
def winner (s : State) (x key : Nat) : Option Nat := (validEntries s x).find? fun e => entryMatches s x e key

/-! Entry errors (R235). -/

def badKey (slice x e : Nat) : Nat := 65536 * slice + 32768 * x + e

/-- The entry has an uncorrectable error in the copy of a slice. -/
def entryBad (s : State) (slice x e : Nat) : Bool := decide (badKey slice x e ∈ s.cls.bad)

/-- The slot becomes BAD, unless it is ACTIVE or DRAINING, or holds nothing sealed. -/
def slotBad (s : State) (x cause e : Nat) : State :=
  let s := s.wr (A.HEAT_SLOT_SEAL x) (2 ^ 31 + cause * 2 ^ 16 + e)
  if slotState s x = 2 ∨ slotState s x = 3 then heatEvent (setSlotState s x 4) 2 else s

/-! Commits (R239, R242). -/

/-- The first whole microsecond of TB0 at least 2 µs from now. -/
def commitTime (s : State) : Nat :=
  let u := us * nsUnits
  (tb0 s + 2 * u + u - 1) / u * u

/-- CMT_INFO of a request. -/
def cmtInfo (result heat : Nat) (timed : Bool) : Nat := result * 2 ^ 28 + bit01 timed * 2 ^ 23 + heat

/-- A record ends with a result, which a timed action takes up (R242, R349). -/
def finishCommit (s : State) (r : HeatRec) (result : Nat) : State :=
  let s := (setCommit s none).wr A.HEAT_CMT_INFO (cmtInfo result r.heat r.timed.isSome)
  let s := match r.timed with
    | some k => putCls s { s.cls with results := s.cls.results ++ [(k, result)] }
    | none => s
  heatEvent s (if result = 1 ∨ result = 3 then 4 else if result = 2 then 8 else 16)

/-- A commit request: BUSY while a record is held (R239). -/
def requestCommit (s : State) (heat t : Nat) (timed : Option Nat) : State :=
  match s.cls.commit with
  | some _ =>
    let s := s.setFld A.HEAT_CMT_INFO 31 28 7
    let s := heatEvent (s.setFld A.HEAT_CMT_INFO 15 0 heat) 16
    (match timed with
     | some k => putCls s { s.cls with results := s.cls.results ++ [(k, 7)] }
     | none => s)
  | none =>
    let s := (s.wrTime A.HEAT_CMT_W2 t).wr A.HEAT_CMT_INFO (cmtInfo 0 heat timed.isSome)
    setCommit s (some ⟨heat, t, timed, false, none⟩)

/-- At T − 1 µs, the loading slot is examined (R242). A record that is examined has its result, which T brings, or it
waits. -/
def examineCommit (s : State) : State :=
  match s.cls.commit with
  | none => s
  | some r =>
    if r.waiting || r.verdict.isSome || decide (tb0 s + us * nsUnits < r.t) then s
    else
      let x := loadingSlot s
      let st := slotState s x
      if (match activeSlot s with | some y => decide (slotHeat s y = r.heat) | none => false) then
        setCommit s (some { r with verdict := some 3 })
      else if st = 3 then setCommit s (some { r with verdict := some (if slotHeat s x = r.heat then 1 else 4) })
      else if st = 4 then setCommit s (some { r with verdict := some 5 })
      else setCommit s (some { r with waiting := true })

/-- A WAITING record when the loading slot has reached SEALED or BAD: it executes at the first whole microsecond at
least 2 µs from now, or fails. -/
def settleWaiting (s : State) : State :=
  match s.cls.commit with
  | none => s
  | some r =>
    if !r.waiting || r.verdict.isSome then s
    else
      let x := loadingSlot s
      if slotState s x = 4 then finishCommit s r 5
      else if slotState s x = 3 then
        (if slotHeat s x = r.heat then setCommit s (some { r with t := commitTime s, verdict := some 2 }) else finishCommit s r 4)
      else s

/-- The commit executes (R240): the slot becomes ACTIVE, and the former one DRAINING. `arriving`: the ports of the frames that
are arriving with a timestamp before T, one entry a frame, as far as no block holds them yet (R241; DEDUCED, assumption
87). -/
def activate (s : State) (r : HeatRec) (arriving : List Nat) : State :=
  let x := loadingSlot s
  let old := activeSlot s
  let s := match old with
    | some y =>
      let s := setSlotState s y 6
      putCls s { s.cls with drainAt := s.now, arriving := arriving }
    | none => s
  let s := ((setSlotState s x 5).setBit A.HEAT_STAT 31 true).setFld A.HEAT_STAT 23 23 x
  let s := (s.setFld A.HEAT_STAT 15 0 r.heat).wrTime A.HEAT_CMT_W2 r.t
  putCls s { s.cls with lastT := some (r.t, old.isSome) }

/-- T has come (R240, R242). A timed commit whose T falls in sleep fails (R67). -/
def executeCommit (s : State) (arriving : List Nat) : State :=
  match s.cls.commit with
  | none => s
  | some r =>
    match r.verdict with
    | none => s
    | some v =>
      if tb0 s < r.t then s
      else if inSleep s && r.timed.isSome then finishCommit s r 9
      else if v = 1 ∨ v = 2 then
        (if slotState s (loadingSlot s) = 3 then finishCommit (activate s r arriving) r v else finishCommit s r 5)
      else finishCommit s r v

/-- A WAITING record has waited for WAIT (R242). -/
def commitTimeout (s : State) : State :=
  match s.cls.commit with
  | none => s
  | some r =>
    if r.waiting && r.verdict.isNone && decide (r.t + Nat.max 1 (s.fld A.HEAT_CFG 15 0) * ms * nsUnits ≤ tb0 s) then
      finishCommit s r 6
    else s

/-- An uncorrectable entry is rewritten from the next healthy copy; without one the slot is BAD. -/
def rewriteEntry (s : State) (slice x e : Nat) : State :=
  if !entryBad s slice x e then s
  else if ([1, 2, 3] : List Nat).any fun i => !entryBad s ((slice + i) % 4) x e then
    putCls s { s.cls with bad := s.cls.bad.filter (· ≠ badKey slice x e) }
  else settleWaiting (slotBad s x 7 e)

/-- The scrubber, or a lookup, finds an error. -/
def scrubEntry (s : State) (slice x e : Nat) (f : EccFault) : State :=
  match f with
  | .single => clsEvent s 4
  | .uncorrectable =>
    let s := putCls s { s.cls with bad := badKey slice x e :: s.cls.bad.filter (· ≠ badKey slice x e) }
    clsEvent (s.add64 A.CLS_MOULD_ERR_LO 1) 8

/-! Operations (R237, R238). -/

/-- LOAD is accepted. -/
def loadOk (s : State) : Bool := decide (slotState s (loadingSlot s) = 0)

def heatLoad (s : State) (heat : Nat) : State :=
  let x := loadingSlot s
  let s := setSlotState s x 1
  let s := ((s.wr (A.HEAT_SLOT_NUM x) heat).wr (A.HEAT_SLOT_SEAL x) 0).resetRegs fun a =>
    decide (A.TBL_HITS_LO (32768 * x) ≤ a) && decide (a < A.TBL_HITS_LO (32768 * x + 32768))
  putCls s { s.cls with clearing := x :: s.cls.clearing.filter (· ≠ x)
                        waiting := s.cls.waiting.filter fun e => !(decide (mouldBase x ≤ e.1) && decide (e.1 < mouldBase (x + 1))) }

/-- The clearing of a slot ends: its entries are 0, and the writes that waited complete. -/
def clearSlot (s : State) (x : Nat) : State :=
  let mine := fun a => decide (mouldBase x ≤ a) && decide (a < mouldBase (x + 1))
  let w := s.cls.waiting.filter fun e => mine e.1
  let s := s.resetRegs mine
  let s := putCls s { s.cls with clearing := s.cls.clearing.filter (· ≠ x)
                                 waiting := s.cls.waiting.filter fun e => !mine e.1
                                 bad := s.cls.bad.filter fun k => decide (k / 32768 % 2 ≠ x) }
  w.foldl (fun s e => s.wr e.1 e.2) s

def heatCleared (s : State) : State := s.cls.clearing.foldl clearSlot s

/-- A TBL write of an entry is accepted: its slot is LOADING. -/
def mouldWriteOk (s : State) (a : Nat) : Bool := decide (slotState s ((a - mouldBase 0) / 0x400000) = 1)

def mouldWrite (s : State) (a v : Nat) : State :=
  let x := (a - mouldBase 0) / 0x400000
  if x ∈ s.cls.clearing then putCls s { s.cls with waiting := s.cls.waiting ++ [(a, v)] } else s.wr a v

/-- SEAL, DISCARD and CANCEL are accepted. -/
def sealOk (s : State) : Bool := decide (slotState s (loadingSlot s) = 1)
def discardOk (s : State) : Bool :=
  decide (1 ≤ slotState s (loadingSlot s) ∧ slotState s (loadingSlot s) ≤ 4) && s.cls.commit.isNone
def cancelOk (s : State) : Bool := s.cls.commit.isSome

def heatSeal (s : State) : State := setSlotState s (loadingSlot s) 2

def heatDiscard (s : State) : State :=
  let x := loadingSlot s
  (setSlotState s x 0).setBit (A.HEAT_SLOT_SEAL x) 31 false

def heatCancel (s : State) : State :=
  match s.cls.commit with
  | some r => finishCommit s r 8
  | none => s

/-- The cause for which an entry is refused (R238); 0: none. -/
def refusal (s : State) (x e : Nat) : Nat :=
  let a := entryAction s x e
  let op := bits a 63 60
  let dest := bits a 31 16
  let lim := if op = 1 then 64 else if op = 2 then 16384 else if op = 3 then 32 else 1
  if 9 ≤ op then 1
  else if lim ≤ dest then 2
  else if a.testBit 54 && !decide (1 ≤ op ∧ op ≤ 3) then 3
  else if bits a 52 49 < 2 && (decide (op = 4) || a.testBit 53) then 4
  else if bits a 48 32 ≠ 0 ∨ bits a 15 0 ≠ 0 then 5
  else if entryBits s x e 0 &&& entryBits s x e 16 ≠ entryBits s x e 0 then 6
  else 0

/-- The little-endian bytes of the 32 768 entries of a slot, in index order. -/
def slotBytes (s : State) (x : Nat) : List Nat :=
  (List.range 1048576).flatMap fun w => leBytes 4 (s.rd (mouldBase x + 4 * w))

/-- The check of a SEALING slot ends (R238), and a WAITING commit settles. -/
def heatSealed (s : State) : State :=
  let x := loadingSlot s
  if slotState s x ≠ 2 ∨ x ∈ s.cls.clearing then s
  else
    match (validEntries s x).find? fun e => decide (refusal s x e ≠ 0) with
    | some e => settleWaiting (slotBad s x (refusal s x e) e)
    | none =>
      let s := (s.wr (A.HEAT_SLOT_CRC x) (crc32c (slotBytes s x))).wr (A.HEAT_SLOT_SEAL x) 0
      settleWaiting (heatEvent (setSlotState s x 3) 1)

/-! The heat of a frame, and references (R240, R241). -/

/-- The frame's former heat was emptied by force: T of that commit is after its timestamp. -/
def heatLost (s : State) (t : Nat) : Bool :=
  match s.cls.forced with | some u => decide (t < u) | none => false

/-- The slot under whose heat a frame with ingress timestamp `t` is classified; none: no heat was active. -/
def slotFor (s : State) (t : Nat) : Option Nat :=
  match activeSlot s with
  | none => none
  | some x =>
    match s.cls.lastT with
    | none => some x
    | some (u, had) =>
      if decide (u ≤ t) || heatLost s t then some x
      else if !had then none
      else if slotState s (1 - x) = 6 then some (1 - x)
      else some x

/-- T of the last commit that executed. -/
def lastCommit (s : State) : Nat := (s.cls.lastT.map Prod.fst).getD 0

/-- A frame of port `p` with timestamp `t` comes to classification: one that was arriving at the commit no longer is. -/
def countArrival (s : State) (p t : Nat) : State :=
  if t < lastCommit s then putCls s { s.cls with arriving := s.cls.arriving.erase p } else s

/-- The last frame of a DRAINING slot has gone, those not yet classified among them. -/
def heatDrained (s : State) (x : Nat) : State :=
  if slotState s x = 6 ∧ slotRefs s x = 0 then settleWaiting (heatEvent (setSlotState s x 0) 32) else s

/-- The slot has been DRAINING for DRAIN_TMO, as the field reads now; 0: never. -/
def drainOver (s : State) : Bool :=
  let tmo := s.fld A.HEAT_CFG 31 16
  decide (tmo ≠ 0) && decide (s.cls.drainAt + tmo * ms ≤ s.now)

/-- DRAIN_TMO: the slot is emptied, and its frames become orphans. -/
def heatForced (s : State) (x : Nat) : State :=
  if slotState s x = 6 ∧ drainOver s then
    let fs := s.buf.frames.map fun f => if f.slot = some x then { f with slot := none, orphan := true } else f
    let s := { s with buf := { s.buf with frames := fs }
                      asy := { s.asy with frames := s.asy.frames.map fun f => if f.slot = some x then { f with slot := none } else f } }
    let s := putCls s { s.cls with forced := some (lastCommit s), arriving := [] }
    settleWaiting (heatEvent (setSlotState s x 0) 64)
  else s

/-- What a BARRIER with CHK_HEAT asks (R343): the loading slot is SEALED with that heat and that CRC. -/
def barrierHolds (s : State) (heat crc : Nat) : Bool :=
  let x := loadingSlot s
  decide (slotState s x = 3) && decide (slotHeat s x = heat) && decide (s.rd (A.HEAT_SLOT_CRC x) = crc)

end Sys2Proof.Machine
end

