-- ==== Sys2Proof/Machine/Rings.lean ====
section
/-! DEFINITION. Host rings, the capture store and telemetry (R388, R389, R397). -/

namespace Sys2Proof.Machine

def ringEn (s : State) (r : Nat) : Bool := s.bit (A.HOST_RING_CFG r) 31

/-- N of a ring. For a LOG2N below 4 the size is open. -/
def ringSize (s : State) (r : Nat) : Nat :=
  let n := s.fld (A.HOST_RING_CFG r) 19 16
  2 ^ (if n < 4 then Config.ringLog2 n else n)

/-- The ring is full (R388), or it does not run. -/
def ringFull (s : State) (r : Nat) : Bool :=
  !ringEn s r || decide ((s.rd (A.HOST_RING_PROD r) + 1) % ringSize s r = s.fld (A.HOST_RING_CONS r) 15 0)

/-- PHASE of the next entry. -/
def ringPhase (s : State) (r : Nat) : Nat := if r ∈ s.host.even then 0 else 1

/-- The address of the next entry. -/
def ringAddr (s : State) (r : Nat) : Nat :=
  s.rd (A.HOST_RING_BASE_LO r) + s.rd (A.HOST_RING_BASE_HI r) * 2 ^ 32
    + s.rd (A.HOST_RING_PROD r) * (if r = 0 then 2048 else 128)

/-- PROD goes on; after the last entry the pass changes. -/
def ringAdvance (s : State) (r : Nat) : State :=
  let p := s.rd (A.HOST_RING_PROD r) + 1
  if p < ringSize s r then s.wr (A.HOST_RING_PROD r) p
  else
    let e := if r ∈ s.host.even then s.host.even.filter (· ≠ r) else r :: s.host.even
    { s with host := { s.host with even := e } }.wr (A.HOST_RING_PROD r) 0

/-- An entry is written to a ring that is not full; its first word without PHASE. -/
def ringWrite (s : State) (r : Nat) (w0 : Nat) (rest : List Nat) : State :=
  let bytes := leBytes 4 (w0 + ringPhase s r * 2 ^ 31) ++ rest
  let s := s.emit (.hostWrite (ringAddr s r % 2 ^ 64) (ofNats bytes))
  ((ringAdvance s r).pmcEvent 22 0x303 1).raise (960 + r)

/-- EN = 1 is written (R388, R389): PROD and CONS are 0, and the first pass begins. -/
def ringStart (s : State) (r : Nat) : State :=
  let s := (s.wr (A.HOST_RING_PROD r) 0).wr (A.HOST_RING_CONS r) 0
  let per := s.rd (A.HOST_RING_TEL_PER r)
  { s with host := { s.host with
                     even := s.host.even.filter (· ≠ r)
                     telSeq := Map.put 0 s.host.telSeq r 0
                     telNext := if r = 0 then s.host.telNext
                       else Map.put 0 s.host.telNext r (tb0 s + per * us * nsUnits) } }

/-- A write of RINGr_CFG is rejected (R388): LOG2N changes while the ring runs. -/
def ringCfgBad (s : State) (r v : Nat) : Bool := ringEn s r && decide (bits v 19 16 ≠ s.fld (A.HOST_RING_CFG r) 19 16)

/-- RINGr_CFG is written. -/
def writeRingCfg (s : State) (r v : Nat) : State :=
  let s := s.wr (A.HOST_RING_CFG r) (v &&& 0x800F0000)
  if v.testBit 31 then ringStart s r else s

/-! Ring 0 and the capture store. -/

/-- An entry of ring 0 behind its first word (R389). -/
def puntRest (f : Frame) : List Nat :=
  leBytes 4 ((f.heat.getD 0) * 2 ^ 16 + bit01 f.heat.isSome * 2 ^ 15 + f.tsq % 256)
    ++ leBytes 4 (ftW2 f.tIn) ++ leBytes 4 (ftW1 f.tIn) ++ leBytes 4 (ftW0 f.tIn) ++ List.replicate 44 0
    ++ (toNats f.bytes).take 1984

/-- Its first word, without PHASE. -/
def puntWord (f : Frame) (reason : Nat) : Nat := reason * 2 ^ 24 + f.inPort % 64 * 2 ^ 16 + frameLen f % 2 ^ 14

/-- The capture store is full (R397). -/
def captFull (s : State) : Bool :=
  decide (16384 ≤ s.fld A.MEM_CAPT_STAT 14 0) || !bankOn s 6 || !bankOn s 7

/-- A frame is written to the capture store. -/
def captWrite (s : State) (f : Frame) : State :=
  let i := s.fld A.MEM_CAPT_STAT 29 16
  let s := s.putBank (6 + i / 8192) (i % 8192 * 2048) (leBytes 4 (puntWord f 0) ++ puntRest f)
  (s.setFld A.MEM_CAPT_STAT 29 16 ((i + 1) % 16384)).setFld A.MEM_CAPT_STAT 14 0 (s.fld A.MEM_CAPT_STAT 14 0 + 1)

/-- A write of CAPT_RD frees the records from the old read index up to the new one (R397). An index beyond the records
that are held frees all of them. -/
def writeCaptRd (s : State) (v : Nat) : State :=
  let n := (v % 16384 + 16384 - s.rd A.MEM_CAPT_RD) % 16384
  let held := s.fld A.MEM_CAPT_STAT 14 0
  (s.wr A.MEM_CAPT_RD (v % 16384)).setFld A.MEM_CAPT_STAT 14 0 (held - n)

/-! Telemetry. -/

/-- The telemetry ring is due for its next sample. -/
def telDue (s : State) (r : Nat) : Bool :=
  decide (1 ≤ r) && ringEn s r && decide (Map.get 0 s.host.telNext r ≤ tb0 s)

/-- One record of a group, or its loss on a full ring. -/
def telRecord (s : State) (r g t : Nat) : State :=
  let n := Map.get 0 s.host.telSeq r
  if ringFull s r then s.add64 (A.HOST_RING_DROP_LO r) 1
  else
    let rest := leBytes 4 (ftW2 t) ++ leBytes 4 (ftW1 t) ++ leBytes 4 (ftW0 t) ++ leBytes 8 (s.rd64 (A.PMC_CYC_LO g))
      ++ ((List.range 8).flatMap fun j => leBytes 8 (s.rd64 (A.PMC_CTR_LO g j))) ++ List.replicate 40 0
    let s := ringWrite s r (g * 2 ^ 16 + n % 65536) rest
    { s with host := { s.host with telSeq := Map.put 0 s.host.telSeq r ((n + 1) % 65536) } }

/-- A sample of a telemetry ring (R389): one record per group, in ascending order. -/
def telSample (s : State) (r : Nat) : State :=
  if !telDue s r then s
  else
    let t := tb0 s
    let per := Nat.max 1 (s.rd (A.HOST_RING_TEL_PER r))
    let s := { s with host := { s.host with
      telNext := Map.put 0 s.host.telNext r (Map.get 0 s.host.telNext r + per * us * nsUnits) } }
    (bitsSet (s.rd (A.HOST_RING_TEL_GRP r)) 24).foldl (fun s g => telRecord s r g t) s

/-- Sleep entry: the rings stop. -/
def ringsStop (s : State) : State :=
  (List.range 32).foldl (fun s r => if ringEn s r then s.setBit (A.HOST_RING_CFG r) 31 false else s) s

end Sys2Proof.Machine
end

