-- ==== Sys2Proof/Machine/Classify.lean ====
section
/-! DEFINITION. Classification: what reaches it, the lookup, actions, default actions, punts, capture and
recirculation (R227, R232 to R236, R240, R243, R271, R279, R284). -/

namespace Sys2Proof.Machine

/-! Punt buckets (R236): bucket 16 is the global one. Tokens are counted in 1/1000000 token, so that a fill at RATE
thousand frames/s for t ns is RATE × t. -/

/-- The register of a bucket, and its rate in thousands of frames/s. -/
def puntReg (b : Nat) : Nat := if b = 16 then A.CLS_PUNT_GLB else A.CLS_PUNT_BKT b
def puntRate (s : State) (b : Nat) : Nat :=
  if b = 16 then Nat.min 4000 (s.fld (puntReg b) 31 16) else s.fld (puntReg b) 31 16

/-- The depth of a bucket: BURST 0 acts as 1. -/
def puntDepth (s : State) (b : Nat) : Nat := Nat.max 1 (s.fld (puntReg b) 15 0) * 1000000

/-- The tokens of a bucket: a bucket that nothing has drawn from is full. -/
def puntTokens (s : State) (b : Nat) : Nat :=
  match Map.get 0 s.cls.tokens b with
  | 0 => puntDepth s b
  | n + 1 => Nat.min n (puntDepth s b)

def setTokens (s : State) (b n : Nat) : State :=
  putCls s { s.cls with tokens := Map.put 0 s.cls.tokens b (if puntDepth s b ≤ n then 0 else n + 1) }

/-- Every bucket fills for the time that the island has run since it was last filled. -/
def puntRefill (s : State) : State :=
  let ns := s.buf.ran - s.cls.filled
  let s := (List.range 17).foldl (fun s b => setTokens s b (puntTokens s b + puntRate s b * ns)) s
  putCls s { s.cls with filled := s.buf.ran }

/-- PUNT_BKT or PUNT_GLB is written: the bucket keeps its tokens, as far as the new depth holds them. -/
def writePunt (s : State) (b v : Nat) : State :=
  let s := puntRefill s
  (putCls s { s.cls with tokens := Map.put 0 s.cls.tokens b (puntTokens s b + 1) }).wr (puntReg b) (v &&& maskOf (puntReg b))

/-- Both buckets give a token for reason `r`. -/
def puntOk (s : State) (r : Nat) : Bool :=
  decide (puntRate s r ≠ 0) && decide (puntRate s 16 ≠ 0) && decide (1000000 ≤ puntTokens s r) &&
    decide (1000000 ≤ puntTokens s 16)

/-- A punt, or a punt copy, under reason `r` (R236, R388): the state, and whether its buckets accepted it. -/
def punt (s : State) (f : Frame) (r : Nat) : State × Bool :=
  let s := puntRefill s
  if puntOk s r then
    let s := setTokens (setTokens s r (puntTokens s r - 1000000)) 16 (puntTokens s 16 - 1000000)
    let s := (s.add64 (A.CLS_PUNT_OK_LO r) 1).pmcEvent (runnerOfPort f.inPort) 0x013 1
    if ringFull s 0 then (clsEvent (slag (s.add64 A.CLS_RING_DROP_LO 1) 15) 32, true)
    else (ringWrite s 0 (puntWord f r) (puntRest f), true)
  else (clsEvent (s.add64 (A.CLS_PUNT_XS_LO r) 1) 2, false)

/-! Where a classified frame goes. -/

/-- What the Riser gets of a tagged frame (R284): the frame itself, or a placeholder. A frame on a later pass comes there
too, and bypasses it (R279). -/
def toRiser (s : State) (f : Frame) (pkt : Option Nat) : State :=
  match f.tag with
  | none => s
  | some t =>
    { s with buf := { s.buf with intake := s.buf.intake ++ [⟨sliceOfPort f.inPort, t, f.inPort, pkt, f.pass, s.now⟩] } }

/-- The frame goes on to its destination, by way of the Riser where it is tagged and not latency-locked. -/
def forward (s : State) (k : Pkt) (f : Frame) (d : Dest) (tc : Nat) (ll : Bool) : State :=
  let s := putFrame s { f with tc := tc, ll := ll, tRef := f.tIn }
  let k := { k with dest := d }
  if f.tag.isSome && !ll then toRiser (movePkt s { k with loc := .riserIn (sliceOfPort f.inPort) }) f (some k.id)
  else proceed (toRiser s f none) k

/-- The frame ends here; its number goes to the Riser. -/
def finish (s : State) (k : Pkt) (f : Frame) : State := removePkt (toRiser s f none) k

/-- The frame is written to the capture store, or dropped where that is full (R234, R397). -/
def capture (s : State) (k : Pkt) (f : Frame) : State :=
  if captFull s then finish (slag (s.add64 A.CLS_CAPT_DROP_LO 1) 15) k f else finish (captWrite s f) k f

/-- The port default action for cause `c` (R234). -/
def defaultAction (s : State) (k : Pkt) (f : Frame) (c : Nat) : State :=
  let s := s.add64 (A.CLS_DEF_LO (c - 1)) 1
  let w := s.rd (A.CLS_PDEF f.inPort)
  match bits w 1 0 with
  | 0 => finish (slag s 1) k f
  | 1 => forward s k f (.port (bits w 13 8)) (bits w 18 16) false
  | 2 => let (s, ok) := punt s f 1; finish (if ok then s else slag s 15) k f
  | _ => capture s k f

/-- A punt whose refusal takes the port default action (R236). -/
def puntOrDefault (s : State) (k : Pkt) (f : Frame) (r : Nat) : State :=
  let (s, ok) := punt s f r
  if ok then finish s k f else defaultAction s k f 2

/-- RECIRC (R243, R271). -/
def recirculate (s : State) (k : Pkt) (f : Frame) : State :=
  if f.pass = 3 then finish (clsEvent (slag (s.add64 A.CLS_RECIRC_LIMIT_LO 1) 10) 16) k f
  else if freeRecirc s < 64 then finish (qmEvent (slag s 10) 32) k f
  else toRiser (movePkt (storeFrame s f .recirc) { k with loc := .recirc (sliceOfPort f.inPort) }) f none

/-- OP ASSAY (R316): the frame leaves the data path. -/
def steer (s : State) (k : Pkt) (f : Frame) (key : Key) : State :=
  let s := s.pmcEvent (runnerOfPort f.inPort) 0x014 1
  let s := toAssay s ⟨sliceOfPort f.inPort, f.bytes, f.tIn, f.tsq, decide (key.l3 = 3) && decide (key.subtype = 2), f.slot⟩
  finish s k f

/-! The lookup. -/

/-- What the lookup of a frame finds. -/
inductive Found where
  | fail (cause : Nat)
  | noHeat
  | error
  | miss
  | hit (entry : Nat)
  deriving DecidableEq, Repr

/-- PRS.CFG as it applies to a frame parsed now: a write takes 1 µs. -/
def prsCfg (s : State) : Nat :=
  (s.cls.prsOld.filter fun e => decide (s.now < e.2 + us)).foldl (fun _ e => e.1) (s.rd A.PRS_CFG)

/-- The lookup of a frame whose bytes are `d` (R228, R232, R235, R240). -/
def lookupFrame (s : State) (f : Frame) (d : List Nat) : Found × Key :=
  match parseKey d (prsCfg s) with
  | .fail c => (.fail c, {})
  | .ok k =>
    match f.slot with
    | none => (.noHeat, k)
    | some x =>
      match winner s x (keyBits k f.inPort f.pass (tsqFlagged f.tsq)) with
      | none => (.miss, k)
      | some e => (if entryBad s (sliceOfPort f.inPort) x e then .error else .hit e, k)
  | _ => (.fail 7, {})

/-- The class that an entry gives its frame. -/
def classOf (s : State) (f : Frame) (key : Key) (a : Nat) : Nat :=
  if a.testBit 55 then bits a 58 56
  else if key.ntags = 0 then s.fld (A.CLS_PDEF f.inPort) 18 16
  else bits key.tag0 15 13

/-- Where an entry forwards a frame. -/
def destOf (a : Nat) : Dest :=
  if bits a 63 60 = 1 then .port (bits a 21 16) else if bits a 63 60 = 2 then .ladle (bits a 29 16) else .lag (bits a 20 16)

/-- The operation of the winning entry (table Operations). -/
def operate (s : State) (k : Pkt) (f : Frame) (key : Key) (a : Nat) : State :=
  match bits a 63 60 with
  | 0 => finish (slag s 1) k f
  | 1 => forward s k f (destOf a) (classOf s f key a) (a.testBit 54)
  | 2 => forward s k f (destOf a) (classOf s f key a) (a.testBit 54)
  | 3 => forward s k f (destOf a) (classOf s f key a) (a.testBit 54)
  | 4 => puntOrDefault s k f (bits a 52 49)
  | 5 => capture s k f
  | 6 => steer s k f key
  | 7 => recirculate s k f
  | _ => defaultAction s k f 5

/-- What was found acts on the frame (R228, R232, R234 to R236). -/
def applyFound (s : State) (k : Pkt) (f : Frame) (key : Key) (x : Found) : State :=
  let g := runnerOfPort f.inPort
  match x with
  | .fail c => defaultAction (clsEvent ((s.add64 (A.PRS_FAIL_LO (c - 1)) 1).pmcEvent g 0x012 1) 1) k f 1
  | .noHeat => defaultAction s k f 3
  | .error => defaultAction s k f 4
  | .miss => puntOrDefault ((s.add64 A.CLS_MISS_LO 1).pmcEvent g 0x011 1) k f 0
  | .hit e =>
    let slot := f.slot.getD 0
    let s := s.add64 (A.TBL_HITS_LO (32768 * slot + e)) 1
    let a := entryAction s slot e
    let s := if a.testBit 53 then (let (s, ok) := punt s f (bits a 52 49); if ok then s else slag s 15) else s
    operate s k f key a

/-! What reaches the classifier (R227). -/

/-- The transport of an IEEE 1588 message: 0 Ethernet, 1 UDP/IPv4, 2 UDP/IPv6 (R145). -/
def ptpTransport (s : State) (d : List Nat) : Option Nat :=
  match parseKey d (prsCfg s) with
  | .ok k =>
    if k.etherType = 0x88F7 then some 0
    else if k.tunnel = false ∧ k.l4 = 2 ∧ (k.l4dst = 319 ∨ k.l4dst = 320) then
      (if k.l3 = 1 then some 1 else if k.l3 = 2 then some 2 else none)
    else none
  | _ => none

/-- The frame is taken out before parsing: what it does comes by the command of its block. -/
def takenOut (s : State) (p : Nat) (d : List Nat) : Bool :=
  match parseL2 d with
  | .ok x =>
    let et := beAt d x.at_ 2
    decide (et = 0x8808) || (decide (et = 0x88B5) && decide (byteAt d (x.at_ + 2) = 3 ∨ byteAt d (x.at_ + 2) = 5)) ||
      (ptpEn s p && decide (ptpTransport s d = some (s.fld (A.PTP_CFG p) 2 1)))
  | _ => false

/-- The record of a class that is coming in is that of the frame: its length, and at least 64 bytes, have come. -/
def comingIn (h : TrunkHidden) (c : Nat) (bytes : List Byte) : Bool :=
  let b := toNats (Map.get [] h.partials c)
  decide (66 ≤ b.length) && decide (beNat (b.take 2) = bytes.length) && decide (b.drop 2 = toNats (bytes.take (b.length - 2))) &&
    !(h.early.any fun e => decide (e.1 = c))

/-- On a trunk, the frame is one that its link blocks delivered, or are delivering: whether they still are. It becomes
frame `id`, and the block in which it ends is not released before that one is written or dropped (R111). -/
def takeDelivered (s : State) (p id : Nat) (bytes : List Byte) : Option (State × Bool) :=
  if typeEff s p ≠ 13 then some (s, false)
  else
    let h := s.trunk p
    match h.delivered.find? fun e => decide (e.bytes = bytes) with
    | some e =>
      some (putTrunk s p { h with delivered := h.delivered.erase e, taken := h.taken ++ [⟨e.cls, e.first, e.last, id⟩] }, false)
    | none =>
      match (List.range 8).find? fun c => comingIn h c bytes with
      | some c => some (putTrunk s p { h with early := h.early ++ [(c, id)] }, true)
      | none => none

/-- The frame that the runner forms from received bytes (R138, R140, R240, R244, R279). -/
def receivedFrame (s : State) (p id : Nat) (bytes : List Byte) (st : RxStamp) (sinceSof : Nat) : Frame :=
  let d := toNats bytes
  let stored := if hasTag d then withoutTag fcsOf d else d
  let t := rxTime s p st
  let slot := slotFor s t
  let key := ownKey d (prsCfg s)
  { id := id, bytes := ofNats stored, inPort := p, tIn := t, tsq := portTsq s p, tRef := t,
    heat := slot.map (slotHeat s), slot := slot, orphan := false, pass := 0, tc := 0, ll := false,
    fields := hashFields key, frag := decide (key.frag ≠ 0), tag := if hasTag d && tagGood d then some (tagOf d) else none,
    done := s.now + (lineNs s p d.length - sinceSof), bad := !fcsGood d, pool := .none, slice := sliceOfPort p }

/-- A frame whose FCS is bad can leave only where it is forwarded while it arrives (R268, R270), a tagged one where the Riser
passes it at once (R285). -/
def mayCutThrough (s : State) (f : Frame) (x : Found) : Bool :=
  !arrived s f &&
    (match x with
     | .hit e =>
       let a := entryAction s (f.slot.getD 0) e
       !a.testBit 54 && decide (bits a 63 60 = 1 ∨ bits a 63 60 = 3)
     | .fail _ => decide (s.fld (A.CLS_PDEF f.inPort) 1 0 = 1)
     | .noHeat => decide (s.fld (A.CLS_PDEF f.inPort) 1 0 = 1)
     | .error => decide (s.fld (A.CLS_PDEF f.inPort) 1 0 = 1)
     | .miss => decide (s.fld (A.CLS_PDEF f.inPort) 1 0 = 1) && !puntOk (puntRefill s) 0)

/-- The frame enters the data path, and what the lookup found acts on it. -/
def enterFrame (s : State) (f : Frame) (d : List Nat) (x : Found) (key : Key) : State :=
  let (kid, s) := freshId s
  let k : Pkt := ⟨kid, f.id, .port 0, 0, 0, .toAdmit, none, none, none, none, false, false, s.now⟩
  let s := addFrame s f
  let s := { s with buf := { s.buf with pkts := s.buf.pkts ++ [k] } }
  let s := s.pmcEvent (runnerOfPort f.inPort) 0x010 1
  let s := if hasTag d && !tagGood d then rsqEvent (s.add64 A.RSQ_BAD_TAG_LO 1) 32 else s
  applyFound s k f key x

/-- A frame whose path is stalled (R182), or that arrives during sleep entry (R63), is dropped. -/
def dropReceived (s : State) (p : Nat) : Option State :=
  if bootState s = 8 then some (slag s 11)
  else if portStalled s p then some (slag (s.add64 A.PLL_LOL_DROP_LO 1) 7)
  else none

/-- A received frame (R227, R232). -/
def classifyFrame (s : State) (p : Nat) (bytes : List Byte) (st : RxStamp) (sinceSof : Nat) : State :=
  if !portUp s p then s
  else
    let before := unclassified s (lastCommit s)
    let (id, s) := freshId s
    match takeDelivered s p id bytes with
    | none => s
    | some (s, early) =>
      let s := if before = unclassified s (lastCommit s) then countArrival s p (rxTime s p st) else s
      let d := toNats bytes
      let g := runnerOfPort p
      let j := 0x040 + 16 * (p % 4)
      let f := { receivedFrame s p id bytes st sinceSof with early := early }
      let s := (s.pmcEvent g j 1).pmcEvent g (j + 1) (frameLen f)
      let s := if f.bad then s.pmcEvent g (j + 4) 1 else s
      match dropReceived s p with
      | some t => releaseReady (if f.bad then s else t) p
      | none =>
        if takenOut s p d then releaseReady s p
        else
          let (x, key) := lookupFrame s f d
          if f.bad && !mayCutThrough s f x then releaseReady s p else releaseReady (enterFrame s f d x key) p

/-- The recirculation path of a slice still moves a frame (R271). -/
def pathBusy (s : State) (slice : Nat) : Bool := decide (50 * s.now < Map.get 0 s.buf.recirc slice)

/-- The path moves `n` bytes from now on, at 400 Gb/s. -/
def takePath (s : State) (slice n : Nat) : State :=
  { s with buf := { s.buf with recirc := Map.put 0 s.buf.recirc slice (50 * s.now + n) } }

/-- The frame at the head of a slice's recirculation path is looked up again (R243, R271). `ecc`: what the read of its
first cell finds. -/
def reenterFrame (s : State) (slice : Nat) (ecc : Option EccFault) : State :=
  if loopStopped s slice then s
  else
    match s.buf.pkts.find? fun k => k.loc = .recirc slice with
    | none => s
    | some k =>
      match frameOf s k.fid with
      | none => dropPkt s k.id
      | some f => if pathBusy s slice then s else withEcc (takePath s slice (frameLen f)) ecc k false fun s =>
        let s := (f.banks.take 1).foldl (grantRead 5) s
        let f := { f with pass := f.pass + 1, pool := .none }
        let s := (s.add64 A.QM_RCX_PASSES_LO 1).pmcEvent (runnerOfPort f.inPort) 0x015 1
        let s := refreshGlobal (putFrame s f)
        if f.orphan then removePkt (slag (s.add64 A.HEAT_ORPHAN_LO 1) 12) k
        else
          let (x, key) := lookupFrame s f (toNats f.bytes)
          applyFound s k f key x

/-- PRS.CFG is written. -/
def writePrsCfg (s : State) (v : Nat) : State :=
  (putCls s { s.cls with prsOld := (s.rd A.PRS_CFG, s.now) :: s.cls.prsOld.filter fun e => decide (s.now < e.2 + us) }).wr A.PRS_CFG (v % 2 ^ 19)

end Sys2Proof.Machine
end

