-- ==== Sys2Proof/Machine/Mailbox.lean ====
section
/-! DEFINITION. The mailbox (R386, R387), the PCIe link and the MSI-X masks (R382, R384). -/

namespace Sys2Proof.Machine

/-! The mailbox. States: 0 IDLE, 1 BUSY, 2 DONE. -/

def mbxState (s : State) : Nat := s.fld A.HOST_MBX_STAT 1 0
def setMbx (s : State) (st : Nat) : State := s.wr A.HOST_MBX_STAT st

/-- A write of MBX_DB is rejected (R386). -/
def mbxBad (s : State) (v : Nat) : Bool :=
  decide (1 < (bitsSet v 3).length) || (v.testBit 0 && decide (mbxState s ≠ 0)) || (v.testBit 1 && decide (mbxState s ≠ 2))

/-- RING, ACK or ABORT. -/
def mbxDoor (s : State) (v : Nat) : State :=
  if v.testBit 0 then (setMbx { s with host := { s.host with saveRan := saveBusy s } } 1).raise 1022
  else if v.testBit 1 ∨ v.testBit 2 then setMbx s 0
  else s

/-- The boot ROM serves the mailbox: in FAILED and RECOVERY. -/
def romServes (s : State) : Bool := decide (bootState s = 6 ∨ bootState s = 7)

/-- The firmware serves the mailbox: it is started, and the management cores are not halted. -/
def firmwareServes (s : State) : Bool := s.boot.started && !decide (bootState s = 9 ∨ bootState s = 10)

/-- A word of the request. -/
def mbxArg (s : State) (w : Nat) : Nat := s.rd (A.HOST_MBX_REQ w)

/-- The flash device on SPI_CS`d`_N. -/
def flashDev (s : State) (d : Nat) : Option FlashDev := if d = 0 then s.boot.flash0 else if d = 1 then s.boot.flash1 else none

def flashSize (s : State) (d : Nat) : Option Nat := (flashDev s d).map (·.size)

/-- The bytes of a device from `a` to `a + n − 1` touch the trim region (R62). -/
def touchesTrim (s : State) (d a n : Nat) : Bool :=
  match flashSize s d with
  | none => false
  | some size =>
    let low := if d = 0 && s.boot.flash1.isNone then size - 2 ^ 22 else size - 2 ^ 21
    decide (low < a + n)

/-- How many argument words a command takes (R387); `none`: no such command. -/
def mbxArgs (s : State) (cmd : Nat) : Option Nat :=
  if cmd = 0x0001 ∨ cmd = 0x0002 then some 0
  else if cmd = 0x0010 then some 3
  else if cmd = 0x0011 then some 2
  else if cmd = 0x0012 then some (3 + (mbxArg s 3 + 3) / 4)
  else if cmd = 0x0020 then some 4
  else if cmd = 0x0021 then some (4 + (mbxArg s 4 + 3) / 4)
  else none

/-- An argument is out of range. -/
def mbxArgBad (s : State) (cmd : Nat) : Bool :=
  let a := mbxArg s
  if cmd = 0x0010 then decide (1 < a 1 ∨ a 3 = 0 ∨ 240 < a 3)
  else if cmd = 0x0011 then decide (1 < a 1 ∨ a 2 % 4096 ≠ 0)
  else if cmd = 0x0012 then decide (1 < a 1 ∨ a 3 = 0 ∨ 240 < a 3 ∨ 256 < a 2 % 256 + a 3)
  else if cmd = 0x0020 ∨ cmd = 0x0021 then decide (63 < a 1 ∨ 65535 < a 2 ∨ 255 < a 3 ∨ a 4 = 0 ∨ 128 < a 4)
  else false

/-- The status of the request (R386, R387), given whether the flash or the module answered: 0 OK, 1 BAD_CMD, 2 BAD_ARG,
3 BUSY, 4 IO_ERR, 5 NOT_ALLOWED. -/
def mbxStatus (s : State) (ioOk : Bool) : Nat :=
  let cmd := bits (mbxArg s 0) 31 16
  let len := bits (mbxArg s 0) 15 8
  match mbxArgs s cmd with
  | none => 1
  | some n =>
    if romServes s && !decide (cmd = 1 ∨ (0x10 ≤ cmd ∧ cmd ≤ 0x12)) then 1
    else if len ≠ n ∨ 63 < len ∨ mbxArgBad s cmd = true then 2
    else if cmd < 0x10 then 0
    else if cmd < 0x20 then
      if s.host.saveRan then 3
      else if (cmd = 0x11 && touchesTrim s (mbxArg s 1) (mbxArg s 2) 4096)
          || (cmd = 0x12 && touchesTrim s (mbxArg s 1) (mbxArg s 2) (mbxArg s 3)) then 5
      else if (flashSize s (mbxArg s 1)).isNone || !ioOk then 4
      else 0
    else if !(Map.get ({} : PortHidden) s.ports (mbxArg s 1)).present || !ioOk then 4
    else 0

/-- The response words of a request that is OK; `data` is what the flash or the module answered. -/
def mbxWords (s : State) (data : List Nat) : List Nat :=
  let cmd := bits (mbxArg s 0) 31 16
  if cmd = 1 then
    (if romServes s then [0, Config.romBuild.toNat] else [Config.firmwareVersion.toNat, Config.firmwareBuild.toNat])
  else if cmd = 2 then
    [A.TCO_HEALTH 0, A.TCO_HEALTH 1, A.TCO_STAT, A.TIM_TB_STAT 0, A.REF_SEL_STAT, A.DBF_STAT].map (fun a => (viewReg s (some .mgmt) a).getD 0)
      ++ [(s.now - s.boot.released) / 1000000000]
  else if cmd = 0x10 then (List.range ((mbxArg s 3 + 3) / 4)).map fun i => data.getD i 0
  else if cmd = 0x20 then (List.range ((mbxArg s 4 + 3) / 4)).map fun i => data.getD i 0
  else []

/-- The data bytes of a request, from word `w` on. -/
def mbxBytes (s : State) (w n : Nat) : List Byte :=
  ofNats (((List.range ((n + 3) / 4)).flatMap fun i => leBytes 4 (mbxArg s (w + i))).take n)

/-- What a request that is OK does outside the device. -/
def mbxAct (s : State) : State :=
  let cmd := bits (mbxArg s 0) 31 16
  if cmd = 0x11 then s.emit (.flashErase (mbxArg s 1) (mbxArg s 2))
  else if cmd = 0x12 then s.emit (.flashProgram (mbxArg s 1) (mbxArg s 2) (mbxBytes s 4 (mbxArg s 3)))
  else if cmd = 0x21 then s.emit (.cmisWrite (mbxArg s 1) (mbxArg s 2) (mbxArg s 3) (mbxBytes s 5 (mbxArg s 4)))
  else s

/-- Words are written to MBX_RSP from word `w` on. -/
def putResponse (s : State) (w : Nat) : List Nat → State
  | [] => s
  | v :: l => putResponse (s.wr (A.HOST_MBX_RSP w) v) (w + 1) l

/-- The firmware, or the boot ROM, answers the request (R386). -/
def mbxRespond (s : State) (data : List Nat) (ioOk : Bool) : State :=
  if mbxState s ≠ 1 ∨ ((romServes s || firmwareServes s) && firmwareRuns s) = false then s
  else
    let st := mbxStatus s ioOk
    let l := if st = 0 then mbxWords s data else []
    let s := if st = 0 then mbxAct s else s
    let s := putResponse s 0 ((st * 2 ^ 16 + l.length * 2 ^ 8 + mbxArg s 0 % 256) :: l)
    (setMbx s 2).raise 1023

/-! The link. -/

/-- A message that was held goes out, unless its vector is masked by now. -/
def sendHeld (s : State) (n : Nat) : State :=
  if vectorMasked s n then s.setBit A.HOST_PBA n true else routeMsix s n

/-- The link is in L0, and the function in D0: the held messages are sent in order. -/
def hostLinkUp (s : State) : State :=
  let l := s.int.held
  l.foldl sendHeld { s with int := { s.int with held := [], link := .l0 } }

def linkL1 (s : State) : State :=
  match s.int.link with
  | .l0 => { s with int := { s.int with link := .l1 } }
  | _ => s

def linkL1Exit (s : State) : State :=
  match s.int.link with
  | .l1Exit => (hostLinkUp s).pmcEvent 22 0x304 1
  | .l1 => (hostLinkUp s).pmcEvent 22 0x304 1
  | _ => s

/-- The host writes D3hot, with PME_En, to the function's power state (R384). -/
def linkD3 (s : State) (pmeEn : Bool) : State :=
  if s.int.link = .down then s else { s with int := { s.int with link := .d3hot, pmeEn := pmeEn } }

def linkD0 (s : State) : State :=
  match s.int.link with
  | .d3hot => hostLinkUp s
  | _ => s

/-- A vector whose message is held in the Pending Bit Array is sent once nothing masks it. -/
def unmask (s : State) (n : Nat) : State :=
  if s.bit A.HOST_PBA n && !vectorMasked s n then routeMsix (s.setBit A.HOST_PBA n false) n else s

/-- The mask of a vector, or of the function, is written (R382). -/
def writeMask (s : State) (v : Option Nat) (mask : Bool) : State :=
  match v with
  | some n => unmask (s.setBit (A.HOST_MSIX_CTL n) 0 mask) n
  | none => (List.range 32).foldl unmask { s with int := { s.int with funcMask := mask } }

end Sys2Proof.Machine
end

