-- ==== Sys2Proof/Machine/Power.lean ====
section
/-! DEFINITION. Supplies, resets and the start of the data die (R34 to R46, R90, R258, R394, R398, R419, R423). -/

namespace Sys2Proof.Machine

/-! What a reset of the data die keeps. -/

/-- The status registers of the loops on the data die: CPLL0 to CPLL10 and the port loops. -/
def loopOnDataDie (a : Nat) : Bool :=
  ((List.range 11).any fun i => decide (a = A.PLL_CPLL_STAT i)) || decide (a = A.PLL_PLOL 0 ∨ a = A.PLL_PLOL 1)

/-- The registers of the banks of the timing die. -/
def bankOnTimingDie (a : Nat) : Bool :=
  ([8, 9] : List Nat).any fun b => decide (a = A.MEM_BANK_CTRL b ∨ a = A.MEM_BANK_STAT b)

/-- The register keeps its value through a reset of the data die. -/
def survives (a : Nat) : Bool := (onTimingDie a && !loopOnDataDie a) || bankOnTimingDie a

/-- The timer belongs to the timing die. -/
def timerSurvives : Timer → Bool
  | .tbHold _ => true
  | .snapOut => true
  | .refQual _ => true
  | .refWtr => true
  | .synRelock _ => true
  | .synRetry _ => true
  | .synSeg _ => true
  | .loop i => decide (i = 11)
  | .tdcWin _ => true
  | .tdcRearm _ => true
  | .coreTrack => true
  | .calBusy => true
  | .calSave => true
  | .bankChange b => decide (b = 8 ∨ b = 9)
  | _ => false

/-- The scratchpad banks of the data die. -/
def dataBanks : List Nat := [0, 1, 2, 3, 4, 5, 6, 7, 10, 11]

/-- The blocks of the data die hold nothing: what no register holds is that of the reset. -/
def clearHidden (s : State) : State :=
  let p := s.power
  { s with
    timers := s.timers.filter fun e => timerSurvives e.1
    staged := []
    guardHost := []
    guardMgmt := []
    lanes := []
    int := {}
    pmcWraps := []
    shadows := []
    ptps := []
    loops := s.loops.filter fun e => e.1 = 11
    lolPorts := if loopStopped s 11 then List.range 64 else []
    snp := {}
    banks := s.banks.filter fun e => !dataBanks.contains e.1
    buf := {}
    ports := []
    trunks := []
    zonesClear := []
    zonesReimg := []
    heldNodes := []
    heldMgmt := []
    cls := {}
    asy := {}
    host := {}
    march := none
    tac := {}
    boot := {}
    power := { ka := p.ka, main := p.main, mainAt := p.mainAt, downTill := p.downTill, resetN := p.resetN,
               tap := p.tap, tapHold := p.tapHold, cells := p.cells, cause := p.cause, hot := p.hot } }

/-- The retired sets of keep-alive storage stand again in the registers (R90, R258). -/
def placeRetired (s : State) : State :=
  let s := s.retiredLanes.foldl (fun s l => setLaneFlag (setLaneState s l 10) l 18 true) s
  s.retiredRegions.foldl (fun s r =>
    (s.setBit (A.DBF_RETIRED (r / 32)) (r % 32) true).setFld A.DBF_STAT 9 0 (s.fld A.DBF_STAT 9 0 + 1)) s

/-- The data die is reset: it stands still, its blocks at their reset values, its banks undefined. The repair maps of
the banks and the trims are kept (R45, R398). PWR.STAT.LIMITED is cleared with the rest, whatever VIN_MAIN is then (DESIGN
CHOICE, assumption 104). -/
def dieReset (s : State) : State :=
  let trim := s.bit A.GLB_BOOT_STAT 14
  let spares := (List.range 12).map fun b => s.fld (A.MEM_BANK_STAT b) 22 16
  let s := tbDataDieStops (if saveBusy s then saveFail s else s)
  let s := clearHidden (s.resetRegs fun a => !survives a)
  let s := dataBanks.foldl (fun s b => s.clearBank b false) s
  let s := dataBanks.foldl (fun s b => s.setFld (A.MEM_BANK_STAT b) 22 16 (spares.getD b 0)) s
  placeRetired (s.setBit A.GLB_BOOT_STAT 14 trim)

/-- A cold start or a timing reset: the whole module is reset. True time, the supplies, the pins, the heat of the die and
the record of the outputs, in which pulses in progress end, are not part of that. -/
def coldReset (s : State) (cause : Nat) : State :=
  let p := s.power
  { State.reset with
    pending := s.pending
    now := s.now
    draws := s.draws + 1
    out := (finishPulses s).out
    gatePins := s.gatePins
    banks := dataBanks.map fun b => (b, { undefd := s.draws + 1 })
    power := { ka := p.ka, main := p.main, mainAt := p.mainAt, downTill := p.downTill, resetN := p.resetN,
               tap := p.tap, tapHold := p.tapHold, cells := p.cells, cause := cause, hot := p.hot && decide (cause ≠ 0) } }

/-! The start. -/

/-- The conditions of R34 hold, and nothing holds the data die (R44, R419, R423). -/
def canStart (s : State) : Bool :=
  let p := s.power
  p.ka && p.main && decide (p.mainAt + ms ≤ s.now) && decide (p.downTill ≤ s.now) && p.resetN && !p.tapHold && !p.hot && coreRuns s

/-- STATE changes; each change raises source 0. -/
def setBoot (s : State) (st : Nat) : State := (s.setFld A.GLB_BOOT_STAT 3 0 st).raise 0

/-- The data die starts: FUSE, with its cause. A cold or timing start reads the trim region. -/
def dieStart (s : State) : State :=
  if s.power.die || !canStart s then s
  else
    let c := s.power.cause
    let s := { s with power := { s.power with die := true, startAt := s.now, trimDue := decide (c = 0 ∨ c = 4) } }
    setBoot (s.setFld A.GLB_BOOT_STAT 31 28 c) 1

/-- The cause that the next start reports: a cold start or a timing reset that still waits for its start stays the
cause, and so does a loss of VIN_MAIN before a pin. -/
def nextCause (s : State) (c : Nat) : Nat :=
  if s.power.die then c
  else if s.power.cause = 0 ∨ s.power.cause = 4 ∨ s.power.cause = 2 then s.power.cause else c

/-- The data die is reset, and its next start will report a cause. -/
def warmDown (s : State) (c : Nat) : State :=
  let n := nextCause s c
  let s := dieReset s
  { s with power := { s.power with cause := n } }

/-- A warm reset by software, or by a timed action: the data die starts again at once. -/
def warmReset (s : State) : State := if s.power.die then dieStart (warmDown s 3) else s

/-- A timing reset: the timing die starts again, and the data die follows. -/
def timingReset (s : State) : State := coldReset s 4

/-- VIN_MAIN falls below its loss threshold: power is removed within 10 µs (R37). -/
def mainLoss (s : State) : State :=
  let s := warmDown s 2
  { s with power := { s.power with main := false, downTill := s.now + 10 * us } }

/-- The data-die junction is too hot (R419): as for a loss of VIN_MAIN, which is still present. No start comes before the
junction has cooled down. -/
def thermalTrip (s : State) : State :=
  let s := warmDown s 2
  { s with power := { s.power with downTill := s.now + 10 * us, hot := true } }

/-- The conditions of R34 hold; `cool`: the junction lies below 110 °C (R419). -/
def startDie (s : State) (cool : Bool) : State :=
  let t := if cool then { s with power := { s.power with hot := false } } else s
  if !s.power.die && canStart t then dieStart t else s

/-- VIN_MAIN rises above its start threshold. -/
def mainRise (s : State) : State :=
  if s.power.main then s else { s with power := { s.power with main := true, mainAt := s.now } }

/-- VIN_KA is lost (R36): the timing die stops, and what it held is gone. -/
def kaLoss (s : State) : State :=
  let s := coldReset s 0
  { s with power := { s.power with ka := false, downTill := s.now + 10 * us } }

/-- VIN_KA rises: a cold start. -/
def kaRise (s : State) : State :=
  if s.power.ka then s
  else
    let s := coldReset s 0
    { s with power := { s.power with ka := true } }

/-- RESET_N is low for 1 µs, and rises (R44). -/
def resetNLow (s : State) : State :=
  if !s.power.resetN then s
  else
    let s := warmDown s 1
    { s with power := { s.power with resetN := false } }
def resetNHigh (s : State) : State := dieStart { s with power := { s.power with resetN := true } }

/-- A PCIe hot reset or a function-level reset: the HOST block and the host interface. -/
def hostReset (s : State) : State :=
  let s := s.resetRegs fun a => decide (0x70000 ≤ a ∧ a < 0x80000)
  { s with host := {}, guardHost := [], int := { s.int with held := [], link := if s.int.link = .down then .down else .l0, funcMask := false, pmeEn := false } }

/-! The test port (R422, R423). -/

/-- IDCODE. -/
def idcode (s : State) : Nat := s.fld A.GLB_FUSE_INFO 15 12 * 2 ^ 28 + 0x64 * 2 ^ 12 + 1

/-- The data register of the current instruction after Capture-DR, the cell at TDO first. CLAMP and HIGHZ select the bypass
register (PRESUMED: IEEE 1149.1, assumption 108). -/
def tapRegister (s : State) (pins : List Bool) : List Bool :=
  match s.power.tap with
  | .idcode => (List.range 32).map fun i => (idcode s).testBit i
  | .samplePreload | .extest => pins
  | .bypass | .clamp | .highz => [false]

/-- A scan (R422): the register shifts from TDI to TDO, and Update-DR takes it to the boundary cells where it is theirs. -/
def tapScan (s : State) (x : TapScan) : State :=
  let l := tapRegister s x.pins.toList ++ x.tdi
  let s := s.emit (.tdo (l.take x.tdi.length))
  if s.power.tap = .samplePreload ∨ s.power.tap = .extest then
    { s with power := { s.power with cells := l.drop x.tdi.length } }
  else s

/-- An instruction becomes current: EXTEST, CLAMP and HIGHZ hold the data die as RESET_N low does. -/
def tapInstr (s : State) (i : TapInstr) : State :=
  let s := { s with power := { s.power with tap := i } }
  match i with
  | .bypass => s
  | .idcode => s
  | .samplePreload => s
  | .extest | .clamp | .highz =>
    let s := if s.power.tapHold then s else warmDown s 1
    { s with power := { s.power with tapHold := true } }

/-- The test access port is reset. -/
def tapReset (s : State) : State := dieStart { s with power := { s.power with tap := .idcode, tapHold := false } }

end Sys2Proof.Machine
end

