-- ==== Sys2Proof/Machine/Scratch.lean ====
section
/-! DEFINITION. The scratchpad banks: states, errors, repair and the march (R394 to R399); the performance counters'
control (R390 to R393); and the commands of SNP (R369 to R373). -/

namespace Sys2Proof.Machine

/-! Banks. -/

/-- Events of MEM: UE and BANK_FAILED raise source 56 whatever EVT_EN holds. The block lies on the data die: while that has
no power, an error of a bank of the timing die is recorded nowhere (R14). -/
def memEvent (s : State) (mask : Nat) : State :=
  if s.power.die then s.event A.MEM_EVT A.MEM_EVT_EN 56 mask 0x28 else s

def State.bank (s : State) (b : Nat) : BankHidden := Map.get {} s.banks b
def putBankH (s : State) (b : Nat) (h : BankHidden) : State := { s with banks := Map.put {} s.banks b h }
def setBankState (s : State) (b st : Nat) : State := s.setFld (A.MEM_BANK_STAT b) 31 28 st
def setBankPending (s : State) (b : Nat) (p : Bool) : State := s.setBit (A.MEM_BANK_STAT b) 27 p

/-- Bank 2 + e is used by an enabled context or by a held migration (R395). -/
def assayUses (s : State) (e : Nat) : Bool :=
  ((List.range 256).any fun c => ctxEn s c && decide (ctxSlice s c = e)) ||
    (match s.asy.mig with | some m => decide (m.old = e ∨ m.new = e) | none => false)

/-- The host may not take bank `b` out of ON (R395). -/
def bankKept (s : State) (b : Nat) : Bool :=
  if b ≤ 1 then true
  else if b ≤ 5 then assayUses s (b - 2)
  else if b ≤ 7 then false
  else if b ≤ 9 then decide (snpPhase s ≠ 0)
  else (List.range 31).any fun r => ringEn s (r + 1)

/-- A write of BANKb_CTRL is rejected. -/
def bankWriteBad (s : State) (r : Req) (b v : Nat) : Bool :=
  decide (v % 4 = 3) ||
    (decide (r = .host) && bankKept s b && (decide (b ≤ 1) || decide (8 ≤ b ∧ b ≤ 9) || decide (v % 4 ≠ 1)))

/-- A change of state begins, where one is asked for. -/
def bankBegin (s : State) (b req : Nat) : State :=
  if bankState s b = req then s
  else putBankH (setBankState s b 3) b { s.bank b with goal := some req }

/-- A request (R394): started, or held behind the change in progress. A bank in FAILED stays there. -/
def bankRequest (s : State) (b v : Nat) : State :=
  let s := s.wr (A.MEM_BANK_CTRL b) (v % 4)
  match bankState s b with
  | 3 => setBankPending (putBankH s b { s.bank b with held := some (v % 4) }) b true
  | 4 => s
  | _ => bankBegin s b (v % 4)

/-- The change ends, and a held request is acted on. -/
def bankChanged (s : State) (b : Nat) : State :=
  let h := s.bank b
  match h.goal with
  | none => s
  | some g =>
    let s := putBankH (setBankState s b g) b { h with goal := none, held := none }
    let s := if g = 0 then s.clearBank b false else s
    match h.held with
    | none => s
    | some v => bankBegin (setBankPending s b false) b v

/-! Errors and repair (R398). -/

/-- A row is repaired: the events that this records besides. Without a spare, the bank enters FAILED. -/
def repairRow (s : State) (b row mask : Nat) : State :=
  let h := s.bank b
  let n := s.fld (A.MEM_BANK_STAT b) 22 16
  if n < 64 then
    memEvent (putBankH (s.setFld (A.MEM_BANK_STAT b) 22 16 (n + 1)) b
      { h with errors := h.errors.filter fun e => decide (e.1 ≠ row) }) (mask ||| 16)
  else
    memEvent (putBankH (setBankPending (setBankState s b 4) b false) b { h with goal := none, held := none }) (mask ||| 32)

/-- A corrected error of a word. -/
def bankCorrected (s : State) (b word : Nat) : State :=
  let h := s.bank b
  let row := word / 128
  let l := (h.errors.filter fun e => decide (s.now < e.2 + 10000 * ms)) ++ [(row, s.now)]
  let s := putBankH (s.addSat (A.MEM_BANK_STAT b) 15 0 1) b { h with errors := l }
  if 3 ≤ (l.filter fun e => decide (e.1 = row)).length then repairRow s b row 4 else memEvent s 4

/-- An uncorrectable word: written as 0, and its row repaired. -/
def bankUncorrectable (s : State) (b word : Nat) : State :=
  let s := s.putBank b (8 * word) (List.replicate 8 0)
  let s := if s.power.die then s.wr A.MEM_LAST_ERR (2 ^ 31 + b * 2 ^ 24 + word) else s
  repairRow s b (word / 128) 8

/-- An error of a word of a bank that has power. -/
def bankError (s : State) (b word : Nat) (ue : Bool) : State :=
  if (bankState s b = 1 ∨ bankState s b = 3) ∧ 8 * word < bankSize b then (if ue then bankUncorrectable s b word else bankCorrected s b word) else s

/-! The march (R399). -/

/-- A GO is rejected. -/
def marchBad (s : State) (v : Nat) : Bool :=
  s.march.isSome || (bitsSet v 12).any fun b => !bankOn s b || (!v.testBit 30 && bankKept s b)

/-- The march runs on the banks of a mask. A destructive one overwrites them. -/
def marchStart (s : State) (banks : Nat) (preserving : Bool) : State :=
  let s := { s with march := some (banks, preserving) }.wr A.MEM_MARCH_STAT (2 ^ 31)
  if preserving then s else (bitsSet banks 12).foldl (fun s b => s.clearBank b false) s

/-- A guarded write of MARCH_CTRL. -/
def writeMarch (s : State) (v : Nat) : State :=
  let s := s.wr A.MEM_MARCH_CTRL (v &&& 0x40000FFF)
  if v.testBit 31 then marchStart s (v % 4096) (v.testBit 30) else s

/-- The rows of the banks of a mask that failed, each once. -/
def marchRows (banks : Nat) (failing : List (Nat × Nat)) : List (Nat × Nat) :=
  ((failing.filter fun e => banks.testBit e.1).map fun e => (e.1, e.2 % (bankSize e.1 / 1024))).dedup

/-- The march ends: its failing rows are repaired, and a destructive one leaves its banks at 0. -/
def marchEnd (s : State) (failing : List (Nat × Nat)) : State :=
  match s.march with
  | none => s
  | some (banks, preserving) =>
    let l := marchRows banks failing
    let s := if preserving then s else (bitsSet banks 12).foldl (fun s b => s.clearBank b true) s
    let s := l.foldl (fun s e => repairRow s e.1 e.2 2) { s with march := none }
    let fault := (List.range 12).filter fun b => l.any fun e => decide (e.1 = b)
    memEvent (s.wr A.MEM_MARCH_STAT (banks * 2 ^ 12 + (fault.map fun b => 2 ^ b).sum)) 1

/-- WIN_SEL names a bank that does not exist (R396). -/
def winSelBad (v : Nat) : Bool := decide (12 ≤ bits v 19 16)

/-! Performance counters. -/

def pmcFreeze (s : State) : State := s.setBit A.PMC_STAT 31 true
def pmcRun (s : State) : State := s.setBit A.PMC_STAT 31 false

/-- Every counter is copied into its shadow. -/
def pmcSnap (s : State) : State :=
  (List.range 24).foldl (fun s g =>
    (List.range 18).foldl (fun s j => s.wr (A.PMC_SHADOW g j) (s.rd (A.PMC_CYC_LO g + 4 * j))) s) s

/-- A write of PMC.CTRL. With FREEZE and RUN together, which of them acts last is open. -/
def pmcCtrl (s : State) (v : Nat) : State :=
  let s := if v.testBit 2 then pmcSnap s else s
  if v.testBit 0 && v.testBit 1 then (let (b, s) := s.pick false [false, true]; if b then pmcFreeze s else pmcRun s)
  else if v.testBit 0 then pmcFreeze s else if v.testBit 1 then pmcRun s else s

/-- The nine counters of each named group become 0. -/
def pmcClear (s : State) (mask : Nat) : State :=
  (bitsSet mask 24).foldl (fun s g => (List.range 18).foldl (fun s j => s.wr (A.PMC_CYC_LO g + 4 * j) 0) s) s

/-- The event number is not valid for the group (R390). -/
def pmcSelBad (g ev : Nat) : Bool :=
  !(decide (ev ≤ 1) ||
    (if g < 16 then decide (0x010 ≤ ev ∧ ev ≤ 0x019) || decide (0x040 ≤ ev ∧ ev < 0x080 ∧ ev % 16 ≤ 6)
     else if g < 20 then decide (0x100 ≤ ev ∧ ev ≤ 0x103)
     else if g = 20 then decide (0x200 ≤ ev ∧ ev ≤ 0x203)
     else if g = 21 then decide (0x280 ≤ ev ∧ ev ≤ 0x285)
     else if g = 22 then decide (0x300 ≤ ev ∧ ev ≤ 0x304)
     else decide (0x380 ≤ ev ∧ ev ≤ 0x383)))

/-- A wrap is recorded (R392): counter `j`, or 8 for the cycle counter. -/
def pmcWrap (s : State) (g j : Nat) : State :=
  if (g, j) ∈ s.pmcWraps then
    { s with pmcWraps := s.pmcWraps.erase (g, j) }.event (A.PMC_G_EVT g) (A.PMC_G_EVT_EN g) (776 + g) (2 ^ j) 0
  else s

/-! SNP. -/

/-- A write of SNP.CFG is rejected. -/
def snpCfgBad (s : State) (v : Nat) : Bool := decide (snpPhase s ≠ 0) || decide (bits v 9 0 = 52)

/-- The section of a list word lies within one block instance of register space (R369). -/
def sectionOk (v : Nat) : Bool :=
  let a := bits v 22 0 * 4
  let z := a + 4 * bits v 30 23
  match blockOf a with
  | none => false
  | some b => decide (b.base < 0x2000000) && decide (z < b.base + b.size) && decide ((a - b.base) / b.stride = (z - b.base) / b.stride)

/-- A write of SNP.LISTi is rejected (R369). -/
def snpListBad (s : State) (i v : Nat) : Bool :=
  decide (snpPhase s ≠ 0) ||
    (v.testBit 31 && (!sectionOk v || decide (65536 < ingotLength (s.wr (A.SNP_LIST i) v))))

def writeSnpList (s : State) (i v : Nat) : State :=
  let s := s.wr (A.SNP_LIST i) v
  s.wr A.SNP_LIST_WORDS (ingotLength s)

def snpTrig (s : State) : State := (trigger s 1 0 (tb0 s)).1

/-- The scheduled trigger fires, and disarms. -/
def snpFire (s : State) : State :=
  (trigger (s.setBit A.SNP_STAT 27 false) 4 (s.rd A.SNP_AT_TAG) (s.rdTime A.SNP_AT_W2)).1

/-- AT_ARM (R370): a time that has passed fires at once. -/
def snpArm (s : State) : State :=
  if s.rdTime A.SNP_AT_W2 < tb0 s then snpEvent (snpFire s) 8 else s.setBit A.SNP_STAT 27 true

def snpDisarm (s : State) : State := s.setBit A.SNP_STAT 27 false

/-- A write of SNP.CTRL. With AT_ARM and AT_DISARM together, which of them acts last is open. -/
def snpCtrl (s : State) (v : Nat) : State :=
  let s := if v.testBit 0 then snpTrig s else s
  if v.testBit 1 && v.testBit 2 then (let (b, s) := s.pick false [false, true]; if b then snpArm s else snpDisarm s)
  else if v.testBit 1 then snpArm s else if v.testBit 2 then snpDisarm s else s

/-- SNP.AT is reached while the trigger is armed. -/
def snpReached (s : State) : State :=
  if s.bit A.SNP_STAT 27 && decide (s.rdTime A.SNP_AT_W2 ≤ tb0 s) then snpFire s else s

/-- An edge on SNAP_IN (R370): its time is known to 1 ns. -/
def snpEdge (s : State) (rising : Bool) : State :=
  if s.bit A.SNP_CFG 16 && (rising != s.bit A.SNP_CFG 28) then
    let (x, s) := s.draw
    (trigger s 2 0 (ftAdd (tb0 s) ((x % (2 * nsUnits + 1) : Nat) - (nsUnits : Int)))).1
  else s

/-- The copy of the latched words ends. -/
def snpCopied (s : State) : State := if snpPhase s = 2 then finishIngot s else s

/-- A write of SNP.FREE: each slot whose bit is 1 becomes empty. -/
def snpFree (s : State) (high : Bool) (v : Nat) : State :=
  (bitsSet v 32).foldl (fun s i => setSlot s (32 * bit01 high + i) false) s

end Sys2Proof.Machine
end

