-- ==== Sys2Proof/Machine/Tac.lean ====
section
/-! DEFINITION. System-wide timed actions (R339 to R356, R426). -/

namespace Sys2Proof.Machine

/-- Events of TAC: FAILED and REJECTED raise source 48 whatever EVT_EN holds. -/
def tacEvent (s : State) (mask : Nat) : State := s.event A.TAC_EVT A.TAC_EVT_EN 48 mask 0x0C

def putTac (s : State) (h : TacHidden) : State := { s with tac := h }

/-- Bit `p` of a LO, HI pair whose LO word lies at the address. -/
def pairBit (s : State) (lo p : Nat) : Bool := s.bit (lo + 4 * (p / 32)) (p % 32)
def setPairBit (s : State) (lo p : Nat) (b : Bool) : State := s.setBit (lo + 4 * (p / 32)) (p % 32) b

/-! The tree at one node (R339, R340). -/

/-- The upstream port; without one the node is a root. -/
def upPort (s : State) : Option Nat := if srcSel s 0 = 1 && portUp s (tb0Port s) then some (tb0Port s) else none

/-- The port is downstream. -/
def isDown (s : State) (p : Nat) : Bool :=
  portUp s p && s.bit (A.PORT_PARTNER p) 31 && decide (ptpState s p = 6) && !pairBit s A.TAC_DOWN_EXCL_LO p

def downPorts (s : State) : List Nat := (List.range 64).filter (isDown s)
def expectedPorts (s : State) : List Nat := (List.range 64).filter (pairBit s A.TAC_EXPECT_LO)

/-- The depth of the node. -/
def tacDepth (s : State) : Nat := s.fld A.TAC_STAT 28 24

/-- TAC.DOWN, TAC.EXPECT, and the place of the node in TAC.STAT follow the ports. -/
def refreshTree (s : State) : State :=
  let s := (List.range 64).foldl (fun s p =>
    let d := isDown s p
    let s := if d && !pairBit s A.TAC_DOWN_LO p then setPairBit s A.TAC_EXPECT_LO p true else s
    let s := if pairBit s A.TAC_DOWN_EXCL_LO p && pairBit s A.TAC_EXPECT_LO p then setPairBit s A.TAC_EXPECT_LO p false else s
    if d = pairBit s A.TAC_DOWN_LO p then s else setPairBit s A.TAC_DOWN_LO p d) s
  match upPort s with
  | some p => (s.setBit A.TAC_STAT 23 false).setFld A.TAC_STAT 21 16 p
  | none => ((s.setBit A.TAC_STAT 23 true).setFld A.TAC_STAT 21 16 0).setFld A.TAC_STAT 28 24 0

/-- The firmware writes the depth: the stepsRemoved of the best master. A root has depth 0. -/
def writeDepth (s : State) (steps : Nat) : State :=
  if (upPort s).isSome then s.setFld A.TAC_STAT 28 24 (Nat.min 31 steps) else s

/-- A write of EXPECT_CLR. -/
def expectClear (s : State) (high : Bool) (v : Nat) : State :=
  (bitsSet v 32).foldl (fun s i => setPairBit s A.TAC_EXPECT_LO (32 * bit01 high + i) false) s

/-! Frames (R341, R342, R352). -/

/-- The per-hop budget in ns: 0 acts as 1. -/
def tacHop (s : State) : Nat := Nat.max 1 (s.fld A.TAC_CFG 15 0)

def nodeId (s : State) : Nat := s.fld A.GLB_NODE_ID 15 0

/-- A frame with the Ethernet header of R341 around a payload. -/
def tacFrame (s : State) (payload : List Nat) : List Nat :=
  let d := List.replicate 6 255 ++ beBytes 6 (s.rd A.TAC_SMAC_LO + s.fld A.TAC_SMAC_HI 15 0 * 2 ^ 32) ++ [0x88, 0xB5] ++ payload
  d ++ fcsOf d

/-- A payload with its CHECK. -/
def withCheck (l : List Nat) : List Nat := l ++ beBytes 4 (crc32c l)

/-- The payload of an announcement, with its REPORT bit as the originator set it. -/
def announcement (a : TacAct) (asked : Bool) (hops : Nat) : List Nat :=
  withCheck ([3, 0x10 + bit01 a.lateOk * 8 + bit01 asked * 4] ++ beBytes 2 a.orig ++ beBytes 2 a.actId ++ [hops % 256, a.kind]
    ++ ftBytes a.t ++ beBytes 4 a.wait ++ a.args)

/-- The frame leaves port `p` ahead of the queues and past their shapers, at the next frame boundary; on a trunk it is a
record of class 7, under the credit of that class (R344, R353). -/
def sendAction (s : State) (p : Nat) (d : List Nat) : State :=
  if isTrunk s p then trunkRecord (countSent s p d.length) p 7 false 0 d
  else serveControl (putEg s p { s.eg p with acts := (s.eg p).acts ++ [ofNats d] }) p

/-- ARGS keep their ranges, and what the KIND does not use is 0 (R342, R343). -/
def argsOk (kind : Nat) (a : List Nat) : Bool :=
  let zeroFrom := fun n => (a.drop n).all fun b => decide (b = 0)
  let b := fun i => a.getD i 0
  if kind = 1 then zeroFrom 2
  else if kind = 2 then zeroFrom 4
  else if kind = 3 then decide (b 0 = 0) && zeroFrom 4
  else if kind = 4 then decide (b 8 ≤ 1) && zeroFrom 9
  else if kind = 5 then zeroFrom 8
  else if kind = 6 then decide (b 0 = 1 ∨ b 0 = 2) && zeroFrom 3
  else if kind = 7 then decide (b 0 ≤ 1 ∧ b 1 = 0) && zeroFrom 8
  else if kind = 8 then zeroFrom 4
  else false

/-- A number of `n` bytes in ARGS from byte `i` on. -/
def argNat (a : TacAct) (i n : Nat) : Nat := beNat (slice a.args i n)

/-- The action that the payload of an announcement names, if it is well formed. -/
def readAnnounce (b : List Nat) : Option TacAct :=
  let vf := byteAt b 1
  let wait := beAt b 20 4
  let args := slice b 24 32
  let kind := byteAt b 7
  let warm := decide (kind = 6) && decide (args.getD 0 0 = 1)
  if vf / 16 = 1 ∧ vf % 4 = 0 ∧ beAt b 56 4 = crc32c (b.take 56) ∧ beAt b 14 4 < 1000000000 ∧ wait ≤ 10000000 ∧ 60 ≤ b.length
      ∧ argsOk kind args = true then
    some { id := 0, slot := none, orig := beAt b 2 2, actId := beAt b 4 2, hops := byteAt b 6, kind := kind,
           t := ftAtByte b 8, lateOk := vf.testBit 3, report := vf.testBit 2 && decide (wait ≠ 0) && !warm, wait := wait, args := args,
           src := none, result := none, begun := false, late := false, sent := [], heard := [], lost := 0, sums := List.replicate 6 0,
           first := none, closed := false }
  else none

/-! The action table. -/

def actOf (s : State) (id : Nat) : Option TacAct := s.tac.acts.find? fun a => decide (a.id = id)
def slotAct (s : State) (k : Nat) : Option TacAct := s.tac.acts.find? fun a => decide (a.slot = some k)

def putAct (s : State) (a : TacAct) : State :=
  putTac s { s.tac with acts := s.tac.acts.map fun b => if b.id = a.id then a else b }

/-- The last 64 of a list. -/
def last64 {α : Type} (l : List α) : List α := l.drop (l.length - 64)

/-- SCHEDULED: T has not come, and no result stands yet. -/
def isScheduled (a : TacAct) : Bool := a.result.isNone && !a.begun

/-- An action leaves the table: an announcement that asked for reports counts as reported. -/
def evict (s : State) (a : TacAct) : State :=
  putTac s { s.tac with acts := s.tac.acts.filter (fun b => decide (b.id ≠ a.id))
                        done := if a.report then last64 (s.tac.done ++ [(a.orig, a.actId)]) else s.tac.done }

/-- An entry is used again. An action whose result is not final runs on without an entry. -/
def giveUpEntry (s : State) (a : TacAct) : State :=
  if a.result.isSome then evict s a else putAct s { a with slot := none }

/-- The entries that a new action can take: those whose action is neither SCHEDULED nor awaits reports (R345). -/
def freeSlots (s : State) : List Nat :=
  (List.range 16).filter fun k => match slotAct s k with | some a => a.closed && !isScheduled a | none => true

/-- STATE of an entry: 1 SCHEDULED, 2 awaiting reports, 3 reported or final. -/
def entryState (a : TacAct) : Nat := if a.closed then 3 else if isScheduled a then 1 else 2

/-- RESULT of an entry: PENDING where it was reported so. -/
def entryResult (a : TacAct) : Nat := a.result.getD (if a.closed && a.report then 9 else 0xFF)

/-- The words of an entry. -/
def writeEntry (s : State) (a : TacAct) : State :=
  match a.slot with
  | none => s
  | some k =>
    let s := s.wr (A.TAC_SLOT k 0) (2 ^ 31 + entryState a * 2 ^ 28 + a.kind * 2 ^ 24 + a.hops % 256 * 2 ^ 16 + a.actId)
    let s := s.wr (A.TAC_SLOT k 1) (entryResult a * 2 ^ 24 + a.orig)
    ((s.wr (A.TAC_SLOT k 2) (ftW2 a.t)).wr (A.TAC_SLOT k 3) (ftW1 a.t)).wr (A.TAC_SLOT k 4) (ftW0 a.t)

/-! Results and reports (R348, R349, R353 to R355). -/

/-- The events of a final result. -/
def resultEvents (r : Nat) : Nat :=
  if r = 0 then 1 else if r = 1 then 3 else if r = 2 ∨ r = 4 then 8 else if r = 3 then 9 else 4

/-- A result becomes final. -/
def setResult (s : State) (id r : Nat) : State :=
  match actOf s id with
  | none => s
  | some a => if a.result.isSome then s else tacEvent (putAct s { a with result := some r, begun := true }) (resultEvents r)

/-- Which count of a report a result adds to: DONE, LATE, FAILED, REJECTED, PENDING. -/
def resultClass (r : Nat) : Nat :=
  if r = 0 then 0 else if r = 1 then 1 else if r ≤ 4 then 2 else if r ≤ 8 then 3 else 4

/-- The result that a report gives now. -/
def ownResult (a : TacAct) : Nat := a.result.getD 9

/-- The missing reports of this node: ports that did not report, left UP, or were expected and not reached. -/
def ownMissing (a : TacAct) : Nat := a.lost + (a.sent.filter fun p => !decide (p ∈ a.heard)).length

/-- The six counts of a report. -/
def reportSums (a : TacAct) : List Nat :=
  let own := resultClass (ownResult a)
  (List.range 6).map fun i => a.sums.getD i 0 + (if i = own then 1 else 0) + (if i = 5 then ownMissing a else 0)

/-- The lower of two nodes that are not DONE. -/
def lowerNode (o : Option (Nat × Nat)) (n c : Nat) : Option (Nat × Nat) :=
  match o with
  | some (m, d) => if n < m then some (n, c) else some (m, d)
  | none => some (n, c)

/-- F_NODE and F_CODE of a report. -/
def reportFirst (s : State) (a : TacAct) : Nat × Nat :=
  let o := if ownResult a = 0 then a.first else lowerNode a.first (nodeId s) (ownResult a)
  o.getD (0xFFFF, 0xFF)

/-- The payload of a report (R352). -/
def reportPayload (s : State) (a : TacAct) : List Nat :=
  let n := reportSums a
  withCheck ([5, 0x10] ++ beBytes 2 a.orig ++ beBytes 2 a.actId ++ [a.hops % 256, a.kind] ++ ftBytes a.t
    ++ beBytes 2 (nodeId s) ++ [0, 0] ++ ((n.take 5).flatMap fun x => beBytes 4 x)
    ++ beBytes 2 (Nat.min 0xFFFF (n.getD 5 0)) ++ beBytes 2 (reportFirst s a).1 ++ [(reportFirst s a).2, 0, 0, 0])

/-- The originator's counts (R354). -/
def writeOwn (s : State) (a : TacAct) : State :=
  let n := reportSums a
  let s := (List.range 5).foldl (fun s i => s.wr (A.TAC_RES_DONE + 4 * i) (n.getD i 0)) s
  let s := s.wr A.TAC_RES_MISS (if a.report then Nat.min 0xFFFF (n.getD 5 0) else 0)
  tacEvent (s.wr A.TAC_RES_FIRST ((reportFirst s a).1 * 2 ^ 16 + (reportFirst s a).2)) 16

/-- The report deadline D_h on TB0. -/
def deadlineOf (s : State) (a : TacAct) : Nat := a.t + a.wait * us * nsUnits - a.hops * tacHop s * nsUnits

/-- The report, or the originator's counts, are due (R353, R354). The report of a result of FAILED_SLEEP waits for RUN
(R355). -/
def reportDue (s : State) (a : TacAct) : Bool :=
  if a.closed || (a.report && a.src.isSome && inSleep s && decide (a.result = some 4)) then false
  else if a.report then
    (a.result.isSome && a.sent.all fun p => decide (p ∈ a.heard)) || decide (deadlineOf s a ≤ tb0 s)
  else a.result.isSome

/-- The node sends its report; the originator writes its counts. -/
def closeAct (s : State) (a : TacAct) : State :=
  let s := if a.report && decide (0 < ownMissing a) then tacEvent s 64 else s
  let s := if s.tac.own = some a.id then writeOwn s a else s
  let s := match a.src with
    | some p => if a.report && portUp s p then sendAction s p (tacFrame s (reportPayload s a)) else s
    | none => s
  putAct s { a with closed := true }

/-- Ports that leave UP before they reported count as missing at once. -/
def dropLost (s : State) (a : TacAct) : TacAct :=
  let gone := a.sent.filter fun p => !portUp s p && !decide (p ∈ a.heard)
  if a.closed || gone.isEmpty then a
  else { a with lost := a.lost + gone.length, sent := a.sent.filter fun p => !decide (p ∈ gone) }

/-- The result of a timed commit (R349). A commit executed late is LATE where it took effect. -/
def commitResult (s : State) (id r : Nat) : Nat :=
  let late := match actOf s id with | some a => a.late | none => false
  if r = 1 ∨ r = 3 then bit01 late else if r = 2 then 1 else if r = 9 then 4 else 2

/-- The results that the commits left are taken up. -/
def takeResults (s : State) : State :=
  let l := s.cls.results
  l.foldl (fun s e => setResult s e.1 (commitResult s e.1 e.2)) (putCls s { s.cls with results := [] })

/-- One action after a change at the node. -/
def settleAct (s : State) (id : Nat) : State :=
  match actOf s id with
  | none => s
  | some a =>
    let b := dropLost s a
    let s := putAct s b
    let s := if reportDue s b then closeAct s b else s
    match actOf s id with
    | none => s
    | some c => if c.closed && c.slot.isNone && c.result.isSome && !decide (s.tac.own = some c.id) then evict s c else writeEntry s c

/-- ORIG_STAT.STATE: 0 none, 1 SCHEDULED, 2 COLLECTING, 3 COMPLETE. -/
def ownState (s : State) : Nat :=
  match s.tac.own with
  | none => 0
  | some id => match actOf s id with
    | none => 3
    | some a => if a.closed then 3 else if isScheduled a then 1 else 2

/-- The TAC block follows the ports, the heats and time. -/
def tacSettle (s : State) : State :=
  let s := takeResults (refreshTree s)
  let s := (s.tac.acts.map (·.id)).foldl settleAct s
  let s := s.setFld A.TAC_STAT 4 0 (s.tac.acts.filter isScheduled).length
  s.setFld A.TAC_ORIG_STAT 3 0 (ownState s)

/-! Execution (R346 to R348). -/

/-- The action takes effect with no result yet: that of a heat commit comes with its record. -/
def beginAct (s : State) (a : TacAct) : State := putAct s { a with begun := true }

/-- A result of an action executed at T, or late: DONE is then LATE. -/
def endAct (s : State) (a : TacAct) (r : Nat) : State := setResult (beginAct s a) a.id (if a.late && decide (r = 0) then 1 else r)

/-- What is done in some places only (R348). -/
def mixResult (skipped done_ : Bool) : Nat := if !skipped then 0 else if done_ then 3 else 2

/-- The commit record of the action reaches its T. -/
def doHeatCommit (s : State) (a : TacAct) (arriving : List Nat) : State :=
  match s.cls.commit with
  | none => s
  | some r =>
    if r.timed ≠ some a.id then s
    else if inSleep s then finishCommit (beginAct s a) r 9
    else executeCommit (examineCommit (beginAct s a)) arriving

/-- PORT_ENABLE: the ports of a zone in reset, and for an enable those without a type, are passed over. A port of a zone in
fault is not: no access of R19 takes place (DESIGN CHOICE, assumption 70). -/
def portSkipped (s : State) (on : Bool) (p : Nat) : Bool := zoneInReset s (zoneOfPort p) || (on && decide (portType s p = 0))

def doPortEnable (s : State) (a : TacAct) : State :=
  let ps := bitsSet (argNat a 0 8) 64
  let on := decide (argNat a 8 1 = 1)
  let todo := ps.filter fun p => !portSkipped s on p
  let t := todo.foldl (fun s p => writeEnable s p on) s
  endAct t a (mixResult (decide (todo.length < ps.length)) (!todo.isEmpty))

/-- PLS.ARM is written: the outputs whose ARM is accepted take their sets, and a rejected one raises ACCESS_ERR. -/
def writeArm (s : State) (r : Req) (mask : Nat) : State :=
  let bad := armBad s mask
  let s := armOutputs s mask
  if bad.isEmpty then s else rejected s r A.PLS_ARM

def doPulse (s : State) (a : TacAct) : State :=
  endAct (writeArm (stopOutputs s (argNat a 4 4)) .mgmt (argNat a 0 4)) a 0

/-- A warm reset, or the resets of the zones that are not in reset. -/
def doReset (s : State) (a : TacAct) : State :=
  if argNat a 0 1 = 1 then warmReset s
  else
    let zs := bitsSet (argNat a 1 1) 8
    let todo := zs.filter fun z => !zoneInReset s z
    endAct (zoneResets s (argNat a 1 1) (argNat a 2 1)) a (mixResult (decide (todo.length < zs.length)) (!todo.isEmpty))

def doSnapshot (s : State) (a : TacAct) : State :=
  if s.bit A.SNP_CFG 17 then
    let (s, ok) := trigger s 8 (argNat a 0 4) a.t
    endAct s a (if ok then 0 else 2)
  else endAct s a 2

def doCounterClear (s : State) (a : TacAct) : State := endAct (pmcClear s (argNat a 0 4)) a 0

def doBarrier (s : State) (a : TacAct) : State :=
  let ok := argNat a 0 1 = 0 || barrierHolds s (argNat a 2 2) (argNat a 4 4)
  endAct s a (if ok then 0 else 2)

/-- CANCEL: the action it names, if that is still SCHEDULED, ends FAILED, and its commit record goes with it. -/
def doCancel (s : State) (a : TacAct) : State :=
  match s.tac.acts.find? fun b =>
      decide (b.orig = argNat a 0 2 ∧ b.actId = argNat a 2 2 ∧ b.id ≠ a.id ∧ a.t ≤ b.t) && isScheduled b with
  | none => endAct s a 2
  | some b =>
    let s := endAct s b 2
    let s := match s.cls.commit with
      | some r => if r.timed = some b.id then finishCommit s r 8 else s
      | none => s
    endAct s a 0

/-- The action takes effect. `arriving`: as for a commit at its T. -/
def doAct (s : State) (a : TacAct) (arriving : List Nat) : State :=
  if a.kind = 1 then doHeatCommit s a arriving
  else if inSleep s && decide (a.kind ≠ 5) then endAct s a 4
  else if a.kind = 2 then doSnapshot s a
  else if a.kind = 3 then doCounterClear s a
  else if a.kind = 4 then doPortEnable s a
  else if a.kind = 5 then doPulse s a
  else if a.kind = 6 then doReset s a
  else if a.kind = 7 then doBarrier s a
  else if a.kind = 8 then doCancel s a
  else s

/-- The order of the kinds at one T (R347). -/
def kindRank (kind : Nat) : Nat := [9, 3, 1, 2, 4, 5, 6, 7, 0].getD kind 9

/-- Action `a` comes before `b`. -/
def actBefore (a b : TacAct) : Bool :=
  decide (a.t < b.t) || (decide (a.t = b.t) && (decide (kindRank a.kind < kindRank b.kind) ||
    (decide (kindRank a.kind = kindRank b.kind) && decide (a.id < b.id))))

/-- T has come for the action. -/
def actDue (s : State) (a : TacAct) : Bool := isScheduled a && decide (a.t ≤ tb0 s)

/-- The island that executes an action (R346): the zone controllers for PORT_ENABLE and a zone RESET, the central island
otherwise. -/
def actLoop (a : TacAct) : Nat := if a.kind = 4 ∨ (a.kind = 6 ∧ argNat a 0 1 = 2) then 6 else 4

/-- It is the turn of action `a` (R347): none that comes before it is due. One with an earlier T whose island has no clock
(R346) holds up no other. -/
def actTurn (s : State) (a : TacAct) : Bool :=
  s.tac.acts.all fun b => !actDue s b || !actBefore b a || (decide (b.t < a.t) && loopStopped s (actLoop b))

/-- The commit record reaches its T (R240): that of a timed action when it is the action's turn. -/
def commitAtT (s : State) (arriving : List Nat) : State :=
  match s.cls.commit.bind fun r => r.timed.bind (actOf s) with
  | some a => if isScheduled a && !actTurn s a then s else executeCommit s arriving
  | none => executeCommit s arriving

/-- Entry `k` takes effect at its T, if it holds an action of that kind whose turn it is. -/
def executeEntry (s : State) (k kind : Nat) (arriving : List Nat) : State :=
  match slotAct s k with
  | none => s
  | some a =>
    if a.kind = kind ∧ actDue s a = true ∧ actTurn s a = true then doAct s a arriving else s

/-! Arrival and forwarding (R344, R345, R426). -/

/-- The announcement is forwarded on every downstream port, and the expected set is taken. -/
def forwardAct (s : State) (a : TacAct) (asked local_ : Bool) : State × TacAct :=
  if local_ then (s, a)
  else
    let down := if s.bit A.TAC_CFG 31 then downPorts s else []
    let lost := ((expectedPorts s).filter fun p => !decide (p ∈ down)).length
    let s := down.foldl (fun s p => sendAction s p (tacFrame s (announcement a asked a.hops))) s
    (s, { a with sent := if a.report then down else [], lost := if a.report then lost else 0 })

/-- The decision of R345: a rejection code, or whether the action is executed at once. -/
def decideAct (s : State) (a : TacAct) : Option Nat × Bool :=
  if 16 < tacDepth s ∨ 16 < a.hops then (some 7, false)
  else if !s.bit A.TAC_CFG 31 then (some 8, false)
  else if a.t ≤ tb0 s then (if a.lateOk then (none, true) else (some 5, false))
  else if (freeSlots s).isEmpty then (some 6, false)
  else (none, false)

/-- The action is entered in the table, where an entry is free; an entry that is used again gives up its action. -/
def enterAct (s : State) (a : TacAct) (full : Bool) : State :=
  if full || (freeSlots s).isEmpty then putTac s { s.tac with acts := s.tac.acts ++ [{ a with slot := none }] }
  else
    let (k, s) := s.pick 0 (freeSlots s)
    let s := match slotAct s k with | some b => giveUpEntry s b | none => s
    putTac s { s.tac with acts := s.tac.acts ++ [{ a with slot := some k }] }

/-- A node takes up an action: it forwards it, decides, and executes it at once or schedules it. -/
def acceptAct (s : State) (a : TacAct) (asked local_ own : Bool) : State :=
  let (d, late) := decideAct s a
  let a := { a with id := s.tac.next, late := late }
  let s := putTac s { s.tac with next := s.tac.next + 1, recent := last64 (s.tac.recent ++ [(a.orig, a.actId)])
                                 own := if own then some a.id else s.tac.own }
  let (s, a) := forwardAct s a asked local_
  let a := if d = some 6 then { a with lost := a.lost + a.sent.length, sent := [] } else a
  let s := enterAct s a (decide (d = some 6))
  match d with
  | some r => setResult s a.id r
  | none =>
    if late then
      (match actOf s a.id with
       | some b => if b.kind = 1 then requestCommit (beginAct s b) (argNat b 0 2) (commitTime s) (some b.id) else doAct s b []
       | none => s)
    else if a.kind = 1 then examineCommit (requestCommit s (argNat a 0 2) a.t (some a.id))
    else s

/-- A received frame that is for TAC: its payload, and the state with the frame counted. A frame whose FCS is bad, or
whose path drops it, goes no further; one whose record is still coming in is not there yet. -/
def tacReceive (s : State) (p : Nat) (bytes : List Byte) (sub : Nat) : State × Option (List Nat) :=
  let d := toNats bytes
  match parseL2 d with
  | .ok x =>
    if !portUp s p || decide (beAt d x.at_ 2 ≠ 0x88B5) || decide (byteAt d (x.at_ + 2) ≠ sub) then (s, none)
    else
      match takeDelivered s p 0 bytes with
      | none => (s, none)
      | some (_, true) => (s, none)
      | some (s, false) =>
        let s := releaseReady s p
        let g := runnerOfPort p
        let j := 0x040 + 16 * (p % 4)
        let s := (s.pmcEvent g j 1).pmcEvent g (j + 1) d.length
        if !fcsGood d then (s.pmcEvent g (j + 4) 1, none)
        else match dropReceived s p with
          | some t => (t, none)
          | none => (s.add64 A.TAC_RX_LO 1, some ((d.take (d.length - 4)).drop (x.at_ + 2)))
  | _ => (s, none)

/-- A malformed frame. -/
def tacBad (s : State) : State := tacEvent (s.add64 A.TAC_BAD_LO 1) 32

/-- An announcement arrives (R342). -/
def tacAnnounce (s : State) (p : Nat) (bytes : List Byte) : State :=
  match tacReceive s p bytes 3 with
  | (s, none) => s
  | (s, some b) =>
    match readAnnounce b with
    | none => tacBad s
    | some a =>
      if upPort s ≠ some p then s.add64 A.TAC_WRONG_PORT_LO 1
      else if (a.orig, a.actId) ∈ s.tac.recent then s.add64 A.TAC_DUP_LO 1
      else acceptAct s { a with hops := a.hops + 1, src := some p } ((byteAt b 1).testBit 2) false false

/-- A report is well formed. -/
def reportOk (b : List Nat) : Bool :=
  decide (byteAt b 1 = 0x10) && decide (beAt b 22 2 = 0) && decide (beAt b 49 3 = 0) && decide (56 ≤ b.length) &&
    decide (beAt b 52 4 = crc32c (b.take 52))

/-- The counts of a report are added. -/
def sumReport (a : TacAct) (p : Nat) (b : List Nat) : TacAct :=
  let n := ((List.range 5).map fun i => beAt b (24 + 4 * i) 4) ++ [beAt b 44 2]
  { a with heard := p :: a.heard, sums := (List.range 6).map fun i => a.sums.getD i 0 + n.getD i 0,
           first := if byteAt b 48 = 0xFF then a.first else lowerNode a.first (beAt b 46 2) (byteAt b 48) }

/-- A report arrives (R352, R353). -/
def tacReport (s : State) (p : Nat) (bytes : List Byte) : State :=
  match tacReceive s p bytes 5 with
  | (s, none) => s
  | (s, some b) =>
    if !reportOk b then tacBad s
    else
      let key := (beAt b 2 2, beAt b 4 2)
      match s.tac.acts.reverse.find? fun a => decide ((a.orig, a.actId) = key) with
      | some a =>
        if a.closed && a.report then tacEvent (s.add64 A.TAC_REP_LATE_LO 1) 64
        else if p ∈ a.heard then s.add64 A.TAC_DUP_LO 1
        else if p ∈ a.sent then putAct s (sumReport a p b)
        else s.add64 A.TAC_WRONG_PORT_LO 1
      | none =>
        if key ∈ s.tac.done then tacEvent (s.add64 A.TAC_REP_LATE_LO 1) 64 else s.add64 A.TAC_WRONG_PORT_LO 1

/-! Origination (R350, R351). -/

/-- An action that this node originated is not complete. -/
def ownBusy (s : State) : Bool := decide (ownState s = 1 ∨ ownState s = 2)

def origArgs (s : State) : List Nat := (List.range 8).flatMap fun w => beBytes 4 (s.rd (A.TAC_ORIG_ARG w))

/-- A GO with the word `v` is rejected. -/
def goBad (s : State) (v : Nat) : Bool :=
  let lead := (s.fld A.TAC_CFG 20 16 * tacHop s + 10 * us) * nsUnits
  decide (s.rdTime A.TAC_ORIG_T_W2 < tb0 s + lead) || !argsOk (bits v 11 8) (origArgs s) || ownBusy s ||
    (v.testBit 2 && v.testBit 3) || decide (10000000 < s.rd A.TAC_ORIG_WAIT) ||
    decide (1000000000 ≤ s.rd A.TAC_ORIG_T_W0)

/-- A guarded write of ORIG_CTRL that is not rejected. -/
def originate (s : State) (v : Nat) : State :=
  let s := s.wr A.TAC_ORIG_CTRL (v &&& 0xF0E)
  if !v.testBit 0 then s
  else
    let id := s.fld A.TAC_ORIG_STAT 31 16
    let kind := bits v 11 8
    let args := origArgs s
    let wait := s.rd A.TAC_ORIG_WAIT
    let warm := decide (kind = 6) && decide (args.getD 0 0 = 1)
    let a : TacAct :=
      { id := 0, slot := none, orig := nodeId s, actId := id, hops := 0, kind := kind, t := s.rdTime A.TAC_ORIG_T_W2,
        lateOk := v.testBit 1, report := v.testBit 2 && decide (wait ≠ 0) && !warm, wait := wait, args := args, src := none,
        result := none, begun := false, late := false, sent := [], heard := [], lost := 0, sums := List.replicate 6 0, first := none,
        closed := false }
    let s := s.setFld A.TAC_ORIG_STAT 31 16 (id + 1)
    acceptAct s a (v.testBit 2) (v.testBit 3) true

/-- The report deadline of entry `k` has come (R353). -/
def tacDeadline (s : State) (k : Nat) : State :=
  match slotAct s k with
  | none => s
  | some a => if reportDue s a then closeAct s a else s

/-- The data die is in RUN again (R355): a report whose deadline has passed is not sent. -/
def tacWake (s : State) : State :=
  s.tac.acts.foldl (fun s a =>
    if !a.closed && a.report && a.src.isSome && decide (a.result = some 4) && decide (deadlineOf s a ≤ tb0 s) then putAct s { a with closed := true } else s) s

end Sys2Proof.Machine
end

