-- ==== Sys2Proof/Machine/Sleep.lean ====
section
/-! DEFINITION. Sleep entry, sleep and wake (R63 to R69, R117, R385). -/

namespace Sys2Proof.Machine

/-! Entry. -/

/-- Sleep entry begins: XOFF on the ports, the drain, and the engines that stop (R63, R131, R288, R336). -/
def sleepBegin (s : State) : State :=
  let s := setBoot s 8
  let s := putPower s { s.power with wanted := false, drained := false, wakeHeld := false, frozen := pmcFrozen s }
  let s := (List.range 64).foldl (fun s p => xoffPort s p (List.range 8)) s
  let s := assaySleep (riserSleep (tbDataDieStops s))
  s.start .sleepDrain (s.fld A.PWR_SLEEP_CFG 15 0 * us)

/-- A zone is in reset. -/
def anyZoneReset (s : State) : Bool := decide (s.fld A.GLB_ZONE_STAT 15 8 ≠ 0)

/-- An accepted ENTER: entry waits for a zone reset in progress (R68). -/
def sleepEnter (s : State) : State :=
  if anyZoneReset s then putPower s { s.power with wanted := true } else sleepBegin s

/-- The last zone reset has completed, and an accepted ENTER waits for it. -/
def sleepAfterZone (s : State) : State := if s.power.wanted && inRun s && !anyZoneReset s then sleepBegin s else s

/-- A port is quenched for sleep, with ENABLE unchanged (R117): one that is not UP stops where it stands. The type that
it ran at is kept for the wake. -/
def sleepPort (s : State) (p : Nat) : State :=
  let st := portState s p
  if st = 2 then
    let s := putPort s p { s.port p with resolved := typeEff s p }
    startQuench s p false
  else if st = 1 ∨ st = 4 then parkPort (putPort s p { s.port p with resolved := 0 }) p
  else s

/-- DRAIN has passed: every port is quenched. -/
def sleepDrained (s : State) : State :=
  if bootState s ≠ 8 ∨ s.due .sleepDrain = false then s
  else
    let s := putPower (s.stop .sleepDrain) { s.power with drained := true }
    (List.range 64).foldl sleepPort s

/-- A bank that is ON goes to RETENTION; a change in progress ends first. -/
def bankSleep (s : State) (b : Nat) : State :=
  let s := bankChanged (bankChanged s b) b
  if bankOn s b then putBankH (setBankState s b 2) b { s.bank b with wasOn := true } else s

/-- At wake, a bank that was ON returns to ON. -/
def bankWake (s : State) (b : Nat) : State :=
  if (s.bank b).wasOn then putBankH (setBankState s b 1) b { s.bank b with wasOn := false } else s

/-- The HBM3E stacks enter self-refresh, and leave it. -/
def hbmSleep (s : State) : State := if s.fld A.DBF_STAT 31 28 = 2 then s.setFld A.DBF_STAT 31 28 3 else s
def hbmWake (s : State) : State := if s.fld A.DBF_STAT 31 28 = 3 then s.setFld A.DBF_STAT 31 28 2 else s

/-- The lanes power off; a retired one stays so. -/
def lanesSleep (s : State) : State :=
  let s := (List.range 512).foldl (fun s l => if laneState s l = 0 ∨ laneState s l = 10 then s else laneOff s l) s
  (List.range 64).foldl refreshPhase s

/-! Wake. -/

/-- The lanes that the port uses return on their table sets (R66). -/
def wakeLanes (s : State) (p : Nat) : State :=
  (usedLanes s p).foldl (fun s l => s.putLane l { s.lane l with waking := decide (laneState s l = 1) }) s

/-- An enabled port that was UP powers its lanes up at the type that it ran at, unless the governor holds it. -/
def wakePort (s : State) (p : Nat) : State :=
  let t := (s.port p).resolved
  if portState s p ≠ 1 ∨ t = 0 ∨ holdCause s p ≠ 0 then s
  else if t = 13 then wakeLanes (startTrunk s p) p
  else wakeLanes (takeType s p t) p

/-- Wake starts, with the wake time tw. -/
def startWake (s : State) (tw : Nat) : State :=
  let s := setBoot s 10
  (List.range 64).foldl wakePort (putPower s { s.power with tw := tw, wakeHeld := false })

/-- A wake event (R65). During SLEEP_ENTRY it is held (R68). -/
def wakeEvent (s : State) (tw : Nat) : State :=
  if bootState s = 9 then startWake s tw
  else if bootState s = 8 then putPower s { s.power with wakeHeld := true }
  else s

/-- PWR.WAKE_TIME is enabled and has come. -/
def wakeTimeDue (s : State) : Bool := s.bit A.PWR_SLEEP_CFG 16 && decide (s.rdTime A.PWR_WAKE_W2 ≤ tb0 s)

/-- TB0 reaches PWR.WAKE_TIME. Where the time had passed when WAKE_TIMED was enabled in SLEEP, it is the wake time tw all the
same, so RUN may follow at once (DESIGN CHOICE, assumption 104). -/
def wakeTimed (s : State) : State := if wakeTimeDue s then wakeEvent s (s.rdTime A.PWR_WAKE_W2) else s

/-- A timing-die alarm, and an edge on SNAP_IN. -/
def wakeAlarm (s : State) : State := if s.bit A.PWR_SLEEP_CFG 18 then wakeEvent s (tb0 s) else s
def wakeSnap (s : State) (rising : Bool) : State := if rising && s.bit A.PWR_SLEEP_CFG 17 then wakeEvent s (tb0 s) else s

/-- Entry is complete (R63, R385): what is coalesced is delivered, the rings stop, banks go to RETENTION, counters
stand still, lanes are off; the Assay engine holds nothing (R336). A wake event that waits, or a wake time that has passed, wakes at once. -/
def sleepEntered (s : State) : State :=
  if bootState s ≠ 8 ∨ s.power.drained = false ∨ ((List.range 64).any fun p => decide (portState s p = 3)) = true then s
  else
    let s := (List.range 35).foldl (fun s t => if targetCount s t = 0 then s else coalesceFire s t) s
    let s := ringsStop (snpCopied (latchUpTo (assaySleep s) (s.now + 40)))
    let s := hbmSleep ((List.range 12).foldl bankSleep s)
    let s := (setBoot (pmcFreeze (lanesSleep s)) 9).raise 2
    if s.power.wakeHeld || wakeTimeDue s then startWake s (tb0 s) else s

/-- A port at the wake: one whose partner is ready forwards; any other goes on with its bring-up (R66). -/
def wakePortUp (s : State) (p : Nat) (ready : Bool) : State :=
  if portState s p ≠ 1 then s
  else if ready && decide (holdCause s p = 0) && decide (typeEff s p = 13) && decide (targetSet s p ≠ 0) then
    trunkUp (setActive (putTrunk (setTrunkState s p 2) p { s.trunk p with announced := targetSet s p }) p (targetSet s p)) p
  else if ready && decide (holdCause s p = 0) && decide (typeEff s p ≠ 13 ∧ typeEff s p ≠ 0) && lanesServe s p then enterUp s p
  else startBringup s p

/-- Lanes that were in TEST return to it. -/
def wakeTests (s : State) : State :=
  (List.range 512).foldl (fun s l => if s.bit (A.LANE_TEST l) 0 then writeLaneTest s l (s.rd (A.LANE_TEST l)) 0 false else s) s

/-- tw + 25 ms, within 1 µs: RUN. -/
def wakeDone (s : State) (ready : Nat) : State :=
  if bootState s ≠ 10 ∨ tb0 s + us * nsUnits < s.power.tw + 25 * ms * nsUnits then s
  else
    let s := hbmWake ((List.range 12).foldl bankWake s)
    let s := if s.power.frozen then s else pmcRun s
    let s := wakeTests (assayWake (setBoot s 5))
    let s := (List.range 64).foldl (fun s p => wakePortUp s p (ready.testBit p)) s
    tacWake (putPower s { s.power with drained := false })

end Sys2Proof.Machine
end

