-- ==== Sys2Proof/Machine/Boot.lean ====
section
/-! DEFINITION. Start-up: the states of the data die, images and their sections (R46 to R62). The REGSCRIPT records and
TABLE chunks, which write through the bus, follow in Script. -/

namespace Sys2Proof.Machine

def putBoot (s : State) (h : BootHidden) : State := { s with boot := h }

/-! Images. -/

/-- The image that is being attempted: 0 A, 1 B. -/
def bootImage (s : State) : Nat := s.boot.order.headD 0

/-- ERR_A or ERR_B. -/
def setImageErr (s : State) (i c : Nat) : State :=
  if i = 0 then s.setFld A.GLB_BOOT_STAT 11 8 c else s.setFld A.GLB_BOOT_STAT 7 4 c

/-- What the loading of one image holds is cleared. -/
def clearImage (h : BootHidden) : BootHidden :=
  { order := h.order, hbmDone := h.hbmDone, loaded := h.loaded, flash0 := h.flash0, flash1 := h.flash1 }

/-- The data die is FAILED: all ports and lanes are off. -/
def bootFail (s : State) : State := lanesSleep (setBoot (putBoot s (clearImage { s.boot with order := [] })) 6)

/-- The blocks that FALLBACK leaves as they are: GLB, PWR, INT and HOST. -/
def keptInFallback (a : Nat) : Bool := decide (a < 0x30000) || decide (0x70000 ≤ a ∧ a < 0x80000)

/-- FALLBACK resets the other blocks of the data die. The trained stacks stay trained. -/
def blocksReset (s : State) : State :=
  let trained := s.fld A.DBF_STAT 31 24
  let spares := (List.range 12).map fun b => s.fld (A.MEM_BANK_STAT b) 22 16
  let t := clearHidden s
  let t := { t with int := s.int, host := s.host, power := s.power, boot := { s.boot with loaded := false }, guardHost := s.guardHost, loops := s.loops, lolPorts := s.lolPorts,
                    timers := s.timers.filter fun e => timerSurvives e.1 || (match e.1 with
                      | .coalesce _ => true | .govTick => true | .govBelow => true
                      | .govRamp => true | .loop _ => true | _ => false) }
  let t := t.resetRegs fun a => !onTimingDie a && !bankOnTimingDie a && !keptInFallback a
  let t := dataBanks.foldl (fun s b => s.clearBank b false) t
  let t := dataBanks.foldl (fun s b => s.setFld (A.MEM_BANK_STAT b) 22 16 (spares.getD b 0)) t
  placeRetired ((t.setFld A.DBF_STAT 31 24 trained).setFld A.GLB_ZONE_STAT 7 0 0)

/-- The image fails with a code: FALLBACK while another one remains in the order, else FAILED. -/
def imageFail (s : State) (c : Nat) : State :=
  let s := setImageErr s (bootImage s) c
  let s := putBoot s (clearImage { s.boot with order := s.boot.order.tail })
  if s.boot.order.isEmpty then bootFail s else (blocksReset (setBoot s 4)).start .fallback (5 * ms)

/-- The loops of the data die, and LSYN, lock. The HBM3E interface clock is open. -/
def lockLoops (s : State) : State :=
  let f := [1500, 1500, 1500, 1500, 1500, 1000, 500]
  (List.range 12).foldl (fun s i =>
    if loopStopped s i then s
    else
      let (mhz, s) := if i < 7 then (f.getD i 0, s) else if i = 11 then (Config.quot 625 4, s) else s.draw
      (s.setBit (A.PLL_CPLL_STAT i) 31 true).setFld (A.PLL_CPLL_STAT i) 15 0 mhz) s

/-- The host's link trains at step FUSE, where PE_REFCLK is present (R46). It is trained at the end of the step
(DESIGN CHOICE, assumption 72). -/
def trainHost (s : State) (refclk : Bool) : State :=
  if refclk then { s with int := { s.int with link := .l0 } } else s

/-- The fuses are read, and BOOT_SEL is sampled (R48). -/
def fusesRead (s : State) (ok : Bool) (sel : Nat) (refclk : Bool) : State :=
  if !s.power.die || decide (bootState s ≠ 1) then s
  else
    let s := trainHost s refclk
    let s := lockLoops (s.setFld A.GLB_BOOT_STAT 17 16 sel)
    let order := if sel = 0 then [0, 1] else if sel = 1 then [1, 0] else if sel = 2 then [0] else []
    let s := putBoot s { s.boot with order := order }
    if ok then setBoot s 2 else bootFail s

/-! Flash devices (R49). -/

/-- The device that an SFDP describes: the signature, and the density, 4-byte addresses and quad reads of the Basic Flash
Parameter Table. The places of these items are those of JESD216 (PRESUMED, assumption 73). -/
def sfdpDev (b : List Nat) : Option FlashDev :=
  let word := fun i => leNat (slice b (leNat (slice b 12 3) + 4 * i) 4)
  let density := if (word 1).testBit 31 then 2 ^ (word 1 % 2 ^ 31) else word 1 + 1
  let quad := if (word 0).testBit 21 then some (bits (word 2) 15 8, bits (word 2) 4 0 + bits (word 2) 7 5)
    else if (word 0).testBit 22 then some (bits (word 2) 31 24, bits (word 2) 20 16 + bits (word 2) 23 21)
    else none
  if leNat (slice b 0 4) ≠ 0x50444653 then none else some ⟨density / 8, bits (word 0) 18 17, quad⟩

/-! Header and section table (R55 to R57). -/

/-- One entry of the section table. Bits [15:1] of SFLAGS are not looked at (DESIGN CHOICE, assumption 74). -/
def sectAt (t : List Nat) (i : Nat) : Sect :=
  let o := 16 * i
  ⟨leNat (slice t o 2), (leNat (slice t (o + 2) 2)).testBit 0, leNat (slice t (o + 8) 4), leNat (slice t (o + 12) 4)⟩

def sectOffset (t : List Nat) (i : Nat) : Nat := leNat (slice t (16 * i + 4) 4)

/-- Where the trim region of a device begins (R62). -/
def trimStart (s : State) (i : Nat) : Nat :=
  let size := (flashSize s i).getD 0
  if i = 0 && s.boot.flash1.isNone then size - 2 ^ 22 else size - 2 ^ 21

/-- Lengths, offsets, alignment and overlap of an image. A SECT_COUNT outside 1 to 64 counts as a bad length (DESIGN
CHOICE, assumption 74). -/
def layoutBad (s : State) (h t : List Nat) : Bool :=
  let n := leNat (slice h 6 2)
  let len := leNat (slice h 8 4)
  let ok := fun i =>
    let o := sectOffset t i
    let l := (sectAt t i).len
    decide (o % 256 = 0) && decide (256 + 16 * n ≤ o) && decide (0 < l) && decide (o + l ≤ len) &&
      (List.range i).all fun j => decide (o + l ≤ sectOffset t j) || decide (sectOffset t j + (sectAt t j).len ≤ o)
  decide (n < 1 ∨ 64 < n) || decide (trimStart s (bootImage s) < len) || decide (len < 256 + 16 * n) || !(List.range n).all ok

/-- The codes of what is wrong with a header and its table. -/
def headerCodes (s : State) (h t : List Nat) : List Nat :=
  let n := leNat (slice h 6 2)
  let fw := ((List.range n).map fun i => sectAt t i).filter fun x => decide (x.type = 1)
  let c2 := decide (leNat (slice h 0 4) ≠ 0x4D494A46)
  let c3 := decide (leNat (slice h 0xFC 4) ≠ crc32c (h.take 0xFC))
  let c4 := decide (leNat (slice h 4 2) ≠ 1) || decide (2 ≤ leNat (slice h 0x10 4)) || !((h.drop 0x18).take 224).all fun b => decide (b = 0)
  let c5 := decide (leNat (slice h 0x0C 2) ≠ s.fld A.GLB_FUSE_INFO 31 16)
  let c7 := decide (leNat (slice h 0xF8 4) ≠ crc32c (t.take (16 * n)))
  let c11 := decide (fw.length ≠ 1) || fw.any fun x => decide (4 * 2 ^ 20 < x.len)
  [(c2, 2), (c3, 3), (c4, 4), (c5, 5), (layoutBad s h t, 6), (c7, 7), (c11, 11)].filterMap fun e => if e.1 then some e.2 else none

/-- LOAD begins with a valid header: the zone controllers serve accesses, and the flag MARCH runs a destructive march. -/
def enterLoad (s : State) (h t : List Nat) : State :=
  let n := leNat (slice h 6 2)
  let s := if bootState s = 3 then s else setBoot s 3
  let s := setImageErr (s.setFld A.GLB_ZONE_STAT 7 0 0xFF) (bootImage s) 0
  let s := if s.fld A.DBF_STAT 31 28 = 0 then s.setFld A.DBF_STAT 31 28 1 else s
  let s := putBoot s { clearImage s.boot with loaded := true, sects := (List.range n).map fun i => sectAt t i, nodeId := leNat (slice h 0x0E 2) }
  if (leNat (slice h 0x10 4)).testBit 0 then marchStart s 0xFFF false else s

/-- The header of the image in turn is read, in FLASH or FALLBACK, or in LOAD after a GO. -/
def attempt (s : State) (h t : List Nat) : State :=
  if (flashDev s (bootImage s)).isNone then imageFail s 1
  else
    match headerCodes s h t with
    | [] => enterLoad s h t
    | c :: l => let (d, s) := s.pick c (c :: l); imageFail s d

/-- The SFDP, and the header and section table of an image, are read (R48, R49, R55). FALLBACK uses the SFDP that was
read before. -/
def headerRead (s : State) (sfdp0 sfdp1 h t : List Nat) : State :=
  let st := bootState s
  let sized := putBoot s { s.boot with flash0 := sfdpDev sfdp0, flash1 := sfdpDev sfdp1, awaiting := false }
  if !s.power.die then s
  else if st = 2 then (if s.fld A.GLB_BOOT_STAT 17 16 = 3 then setBoot sized 7 else attempt sized h t)
  else if st = 3 ∧ s.boot.awaiting = true then attempt sized h t
  else if st = 4 ∧ s.boot.awaiting = true then attempt (putBoot s { s.boot with awaiting := false }) h t
  else s

/-- The reset of FALLBACK has ended: the next image's header is read. -/
def fallbackDone (s : State) : State :=
  if decide (bootState s = 4) && s.due .fallback then putBoot (s.stop .fallback) { s.boot with awaiting := true } else s

/-- A guarded GO, in FAILED or RECOVERY (R53): LOAD, in which the zone controllers serve accesses (R47). -/
def bootGo (s : State) (sel : Nat) : State :=
  let order := if sel = 0 then [0, 1] else if sel = 1 then [1, 0] else if sel = 2 then [0] else [1]
  let s := s.setFld A.GLB_ZONE_STAT 7 0 0xFF
  setBoot (putBoot s { clearImage s.boot with loaded := true, order := order, awaiting := true }) 3

/-! Sections. -/

/-- The section in turn. -/
def currentSect (s : State) : Option Sect := s.boot.sects[s.boot.index]?

/-- The next section is in turn. -/
def nextSect (s : State) : State := putBoot (s.stop .bootWait) { s.boot with index := s.boot.index + 1, script := none, chunks := none }

/-- The section in turn fails with a code (R51): the image with it, or it is skipped. -/
def sectFail (s : State) (c : Nat) : State :=
  match currentSect s with
  | none => s
  | some x =>
    let s := s.setFld A.GLB_BOOT_STAT 23 18 s.boot.index
    if x.req || decide (x.type = 1) then imageFail (s.stop .bootWait) c
    else nextSect ((putBoot s { s.boot with skipped := s.boot.skipped ++ [s.boot.index] }).setBit A.GLB_BOOT_STAT 15 true)

/-- The records of a REGSCRIPT section: OP, ADDR, VALUE. -/
def scriptRecs (b : List Nat) : List (Nat × Nat × Nat) :=
  (List.range (b.length / 12)).map fun i => (leNat (slice b (12 * i) 4), leNat (slice b (12 * i + 4) 4), leNat (slice b (12 * i + 8) 4))

/-- The record in turn has an undefined operation, or waits for a time out of range (R52). -/
def recordBad (e : Nat × Nat × Nat) : Bool :=
  decide (e.1 = 0 ∨ 3 < e.1) || (decide (e.1 = 3) && decide (e.2.2 < 1 ∨ 100000 < e.2.2))

/-- The records that remain: none left ends the section, once no guard sequence that a record began is open, and one that
cannot be applied fails it. -/
def scriptGoes (s : State) (l : List (Nat × Nat × Nat)) : State :=
  match l with
  | [] => if s.guardMgmt.isEmpty then nextSect s else putBoot s { s.boot with script := some [] }
  | e :: _ => if recordBad e then sectFail s 9 else putBoot s { s.boot with script := some l }

/-- An EQTABLE entry that is not ignored (R59). -/
def eqUsed (b : List Nat) : Bool := decide (leNat (slice b 0 2) ≤ 511) && decide (byteAt b 2 ≤ 2) && decide (byteAt b 3 = 1)

/-- An entry is stored in its lane's table (R59, R77): VALID only where it keeps the ranges. -/
def loadEq (s : State) (b : List Nat) : State :=
  let l := leNat (slice b 0 2)
  let m := byteAt b 2
  let ws := (List.range 7).map fun w => eqWord w (leNat (slice b (4 + 4 * w) 4))
  let s := (List.range 7).foldl (fun s w => s.wr (A.LANE_EQ_TBL l m w) (ws.getD w 0)) s
  s.setBit (A.LANE_EQ_VALID l) m (eqInRange ws)

/-- The entries of a section: the first one of each lane and mode. -/
def loadEqs : List (List Nat) → List (Nat × Nat) → State → State
  | [], _, s => s
  | b :: l, seen, s =>
    let k := (leNat (slice b 0 2), byteAt b 2)
    if !eqUsed b || decide (k ∈ seen) then loadEqs l seen s else loadEqs l (k :: seen) (loadEq s b)

def eqEntries (b : List Nat) : List (List Nat) := (List.range (b.length / 32)).map fun i => slice b (32 * i) 32

/-- An EQTABLE section that R57 does not allow: a second one, too many entries, or one that is not whole. -/
def eqBad (s : State) (b : List Nat) : Bool :=
  decide (1536 < b.length / 32) || decide (b.length % 32 ≠ 0) ||
    (s.boot.sects.take s.boot.index).any fun x => decide (x.type = 3)

/-- A section whose CRC matches is applied (R57). A REGSCRIPT section that is not made of whole records fails before any of
them is applied (DESIGN CHOICE, assumption 74). -/
def applySect (s : State) (x : Sect) (b : List Nat) : State :=
  if x.type = 1 then nextSect (putBoot s { s.boot with firmware := ofNats b })
  else if x.type = 2 then (if b.length % 12 ≠ 0 then sectFail s 9 else scriptGoes s (scriptRecs b))
  else if x.type = 3 then (if eqBad s b then sectFail s 9 else nextSect (loadEqs (eqEntries b) [] s))
  else if x.type = 4 then putBoot s { s.boot with chunks := some (ofNats b) }
  else if x.type = 5 then nextSect s
  else sectFail s 10

/-- A section can be read now. The entries of an EQTABLE go through the zone controllers (R182). -/
def sectionReady (s : State) : Bool :=
  decide (bootState s = 3) && !s.boot.awaiting && s.march.isNone && s.boot.script.isNone && s.boot.chunks.isNone &&
    (match currentSect s with | some x => decide (x.type ≠ 3) || islandRuns s 6 | none => false)

/-- The section in turn is read, and read once more on a mismatch (R50). With the last section, the trim region is read
where that is due (R45, R225). -/
def sectionLoad (s : State) (p q trim0 trim1 : List Nat) : State :=
  match currentSect s with
  | none => s
  | some x =>
    if !sectionReady s then s
    else
      let s := if s.power.trimDue && decide (s.boot.index + 1 = s.boot.sects.length) then
          putPower (trimLoad s trim0 trim1) { s.power with trimDue := false }
        else s
      let good := fun b : List Nat => decide (b.length = x.len) && decide (crc32c b = x.crc)
      if good p then applySect s x p else if good q then applySect s x q else sectFail s 8

/-- Every section has been applied. -/
def sectionsDone (s : State) : Bool :=
  decide (bootState s = 3) && !s.boot.awaiting && !s.boot.sects.isEmpty && decide (s.boot.sects.length ≤ s.boot.index) &&
    s.march.isNone

/-- The firmware, of at most 4 MiB (R57), is loaded into the banks of the management complex and started, and NODE_ID is
written (R61). It stands from byte 0 of bank 0 on, and the rest of the two banks is open (DEDUCED, assumption 39). -/
def firmwareStart (s : State) : State :=
  if !sectionsDone s || s.boot.started then s
  else
    let s := ((s.clearBank 0 false).clearBank 1 false).putBank 0 0 ((toNats s.boot.firmware).take (bankSize 0))
    let s := (putBoot s { s.boot with started := true }).wr A.GLB_NODE_ID (s.boot.nodeId % 65536)
    s.start .fwReady (100 * ms)

/-- The sources that the firmware serves (R377). -/
def firmwareSources : List Nat := 0 :: 1022 :: ((List.range 8).map (40 + ·) ++ (List.range 64).map (704 + ·))

/-- The firmware reports ready: it has set FW on the sources it serves (R377; when it does is DEDUCED, assumption 39). -/
def firmwareReady (s : State) : State :=
  if s.boot.started && s.runs .fwReady then
    let s := firmwareSources.foldl (fun s i => s.setBit (A.INT_SRC i) 30 true) s
    putBoot (s.stop .fwReady) { s.boot with ready := true }
  else s

/-- It did not within 100 ms. -/
def firmwareTimeout (s : State) : State :=
  if decide (bootState s = 3) && s.due .fwReady then imageFail (s.stop .fwReady) 12 else s

/-- The training of the HBM3E stacks has ended (R259). -/
def hbmTrained (s : State) (ok : Nat) : State :=
  if !s.power.die || s.boot.hbmDone || decide (5 ≤ bootState s) then s
  else
    let s := putBoot (s.setFld A.DBF_STAT 27 24 ok) { s.boot with hbmDone := true }
    let s := s.setFld A.DBF_STAT 31 28 (if ok % 16 = 0 then 4 else 2)
    if ok % 16 = 15 then s else dbfEvent s 16

/-- The release: RUN, with the ingot slots scanned (R374), and port bring-up (R47). -/
def dieRelease (s : State) : State :=
  if decide (bootState s = 3) && s.boot.ready && s.boot.hbmDone && decide (s.power.startAt + 60 * ms ≤ s.now) then
    let s := (scanSlots s).setFld A.GLB_BOOT_STAT 13 12 (bootImage s + 1)
    let s := setBoot (putBoot s { s.boot with released := s.now }) 5
    (List.range 64).foldl (fun s p => if portEnabled s p then startBringup s p else s) s
  else s

end Sys2Proof.Machine
end

