-- ==== Sys2Proof/Machine/Writes.lean ====
section
/-! DEFINITION. What a write of a register word does, block by block: the rejections of R32, and the effects that the
owning chapters give. A register that no case here names takes the value (R12). -/

namespace Sys2Proof.Machine

/-- The outcome of a write at its register: the value is taken and nothing else follows, the write is rejected (R32),
or it leads to a state. -/
inductive WriteRes where
  | plain
  | refuse
  | does (s : State)

/-- The register takes the implemented bits of the value. -/
def takeWord (s : State) (a v : Nat) : State := s.wr a (v &&& maskOf a)

def WriteRes.of (o : Option State) : WriteRes :=
  match o with
  | some s => .does s
  | none => .refuse

def refuseIf (b : Bool) (r : WriteRes) : WriteRes := if b then .refuse else r

/-- What follows the ports, the time bases and the timed actions settles. The ports and the TAC block are on the data
die, which changes nothing while it has no power (R14). -/
def settle (s : State) : State :=
  let t := settleSteps (refreshRcvd s)
  if !t.power.die then t
  else if loopStopped t 4 then refreshQuench t
  else tacSettle (refreshQuench t)

/-- Two controls that one write sets together: which of them acts last is open. -/
def eitherOrder (s : State) (f g : State → State) : State :=
  let (b, s) := s.pick false [false, true]
  if b then g (f s) else f (g s)

/-! GLB, PWR and INT. -/

def writeGlb (s : State) (a v : Nat) : WriteRes :=
  if a = A.GLB_AERR_CLR then .does (if v.testBit 0 then s.setBit A.GLB_AERR_INFO 31 false else s) else .plain

def writePwr (s : State) (a v : Nat) : WriteRes :=
  if a = A.PWR_GOV_CTRL then .does (settle (writeCap s (v % 1024))) else .plain

/-- INT.SWSET (R376, R377): the named source is raised, if a chapter assigns it; a source of the firmware only by the
firmware. -/
def softRaise (s : State) (r : Req) (v : Nat) : WriteRes :=
  refuseIf (decide (r = .host) && s.bit (A.INT_SRC (v % 1024)) 30) (.does (if sourceAssigned (v % 1024) then s.raise (v % 1024) else s))

/-- INT.SRCi is written (R377). -/
def writeSrc (s : State) (r : Req) (i v : Nat) : WriteRes :=
  let old := s.rd (A.INT_SRC i)
  let w := if r = .host then v &&& 0x800F003F else v &&& 0xC00F003F
  let moved := decide (bits w 5 0 ≠ bits old 5 0) || decide (bits w 19 16 ≠ bits old 19 16)
  refuseIf (decide (34 < bits w 5 0) || (old.testBit 31 && moved) || (decide (r = .host) && old.testBit 30))
    (let s := s.wr (A.INT_SRC i) w
     let s := if w.testBit 31 then s else entryLost (setPend s i false) (bits old 5 0) i
     .does (if moved then retarget (retarget s (bits old 5 0)) (bits w 5 0) else s))

/-- Tt_CFG is written: a deliverable source of a SERVING target is notified at once (R379). -/
def writeTargetCfg (s : State) (t v : Nat) : State :=
  let s := takeWord s (A.INT_T_CFG t) v
  if targetState s t = 2 then notifyBest s t else s

def writeClaim (s : State) (r : Req) (t v : Nat) : WriteRes :=
  refuseIf (!(targetRequester t r && claimOk s t (v % 1024))) (.does (claimSource s t (v % 1024)))

def writeEoi (s : State) (r : Req) (t v : Nat) : WriteRes :=
  refuseIf (!(targetRequester t r && eoiOk s t (v % 1024))) (.does (endSource s t (v % 1024)))

def writeInt (s : State) (r : Req) (a v : Nat) : WriteRes :=
  if a = A.INT_SWSET then softRaise s r v
  else
    match entryOf a (A.INT_SRC 0) 4 1024 with
    | some i => writeSrc s r i v
    | none =>
    match entryOf a (A.INT_T_CFG 0) 0x10 35 with
    | some t => .does (writeTargetCfg s t v)
    | none =>
    match entryOf a (A.INT_T_CLAIM 0) 0x10 35 with
    | some t => writeClaim s r t v
    | none =>
    match entryOf a (A.INT_T_EOI 0) 0x10 35 with
    | some t => writeEoi s r t v
    | none => .plain

/-! PMC, SNP and MEM. -/

/-- The entry of a two-dimensional array of registers. -/
def entryOf2 (a base stride n step m : Nat) : Option (Nat × Nat) :=
  if base ≤ a ∧ (a - base) / stride < n ∧ (a - base) % stride / step < m ∧ (a - base) % stride % step = 0 then
    some ((a - base) / stride, (a - base) % stride / step) else none

def writePmc (s : State) (a v : Nat) : WriteRes :=
  if a = A.PMC_CTRL then .does (pmcCtrl s v)
  else if a = A.PMC_CLR then .does (pmcClear s (v % 2 ^ 24))
  else
    match entryOf2 a (A.PMC_G_SEL 0 0) 0x40 24 4 8 with
    | some (g, _) => refuseIf (pmcSelBad g (v % 1024)) .plain
    | none => .plain

def writeSnp (s : State) (a v : Nat) : WriteRes :=
  if a = A.SNP_CFG then refuseIf (snpCfgBad s (v &&& 0xFFFF03FF)) .plain
  else if a = A.SNP_CTRL then .does (snpCtrl s v)
  else if a = A.SNP_FREE 0 then .does (snpFree s false v)
  else if a = A.SNP_FREE 1 then .does (snpFree s true v)
  else
    match entryOf a (A.SNP_LIST 0) 4 512 with
    | some i => refuseIf (snpListBad s i v) (.does (writeSnpList s i v))
    | none => .plain

def writeMem (s : State) (r : Req) (a v : Nat) : WriteRes :=
  if a = A.MEM_WIN_SEL then refuseIf (winSelBad v) .plain
  else if a = A.MEM_CAPT_RD then .does (writeCaptRd s v)
  else if A.MEM_WIN 0 ≤ a then .refuse
  else
    match entryOf a (A.MEM_BANK_CTRL 0) 0x10 12 with
    | some b => refuseIf (bankWriteBad s r b v) (.does (bankRequest s b v))
    | none => .plain

/-! TAC and HOST. -/

/-- The ORIG registers, which are rejected while the action originated here is not complete (R351). -/
def inOrig (a : Nat) : Bool := decide (A.TAC_ORIG_T_W2 ≤ a) && decide (a < A.TAC_ORIG_ARG 8)

def writeTac (s : State) (a v : Nat) : WriteRes :=
  if a = A.TAC_CFG then
    refuseIf (decide (bits v 20 16 = 0) || decide (16 < bits v 20 16)) (.does (settle (takeWord s a v)))
  else if a = A.TAC_DOWN_EXCL_LO ∨ a = A.TAC_DOWN_EXCL_HI then .does (settle (takeWord s a v))
  else if a = A.TAC_EXPECT_CLR_LO then .does (settle (expectClear s false v))
  else if a = A.TAC_EXPECT_CLR_HI then .does (settle (expectClear s true v))
  else if inOrig a then refuseIf (ownBusy s) .plain
  else .plain

def writeHost (s : State) (r : Req) (a v : Nat) : WriteRes :=
  if a = A.HOST_MBX_DB then refuseIf (mbxBad s v) (.does (mbxDoor s v))
  else if (entryOf a (A.HOST_MBX_REQ 0) 4 64).isSome then refuseIf (decide (r = .host) && decide (mbxState s = 1)) .plain
  else
    match entryOf a (A.HOST_RING_CFG 0) 0x40 32 with
    | some q => refuseIf (ringCfgBad s q v) (.does (writeRingCfg s q v))
    | none =>
    if a = A.HOST_RING_TEL_GRP 0 then .does s
    else
    match entryOf a (A.HOST_RING_TEL_PER 0) 0x40 32 with
    | some _ => refuseIf (decide (v % 2 ^ 24 < 10)) .plain
    | none =>
    match (entryOf a (A.HOST_RING_BASE_LO 0) 0x40 32).or (entryOf a (A.HOST_RING_BASE_HI 0) 0x40 32) with
    | some q => refuseIf (ringEn s q) .plain
    | none =>
    match entryOf a (A.HOST_MSIX_CTL 0) 0x10 32 with
    | some n => .does (writeMask s (some n) (v.testBit 0))
    | none => .plain

/-! TIM, REF and PLL. -/

/-- TIM.TBn_SRC is written (R123): SRC = 1 of TB1 to TB7, and 9 to 15, are rejected. -/
def writeTbSrc (s : State) (n v : Nat) : WriteRes :=
  refuseIf (decide (9 ≤ bits v 3 0) || (decide (bits v 3 0 = 1) && decide (n ≠ 0)))
    (.does (settle (changeSource s n (v &&& maskOf (tbSrc n)))))

/-- Registers of TIM with an effect of their own. TBn_HOLD has none: a timer that runs keeps the TMO that it was started
with until the next accepted sample (DESIGN CHOICE, assumption 106). -/
def writeTim (s : State) (a v : Nat) : WriteRes :=
  if a = A.TIM_LATCH then .does (latchTbs s (v % 256))
  else
    match entryOf a A.TIM_TB0_SRC 0x40 8 with
    | some n => writeTbSrc s n v
    | none =>
    match entryOf a (A.TIM_TB_RATE_MAN 0) 0x40 8 with
    | some n => .of (writeRateMan s n v)
    | none => .plain

def writeRef (s : State) (a v : Nat) : WriteRes :=
  if a = A.REF_SEL_CTRL then .of ((writeSelCtrl s (v &&& 0xFFFF0077)).map settle)
  else if a = A.REF_SUSP_CLR then .does (settle (suspClear s (v % 64)))
  else
    match entryOf a (A.REF_CFG 0) 0x20 6 with
    | some k => .does (settle (writeRefCfg s k (v &&& 0x80000F01)))
    | none =>
    match entryOf a (A.REF_FREQ 0) 0x20 4 with
    | some k => .of ((writeRefFreq s k v).map settle)
    | none => .plain

/-- The configuration register of a synthesizer at the offset in its block. -/
def synRegAt (o : Nat) : Option SynReg :=
  [(0x00, SynReg.cfg), (0x04, .n), (0x08, .sub), (0x0C, .od), (0x10, .frame), (0x14, .offset), (0x18, .align), (0x1C, .nt),
   (0x20, .ntSub)].lookup o

/-- A configuring write of a synthesizer (R170, R177, R178). -/
def writeSynReg (s : State) (k : Nat) (reg : SynReg) (v : Nat) : WriteRes :=
  let w := v &&& maskOf (synRegAddr k reg)
  refuseIf (synRejects s k reg w) (.does (synWrite s k reg w))

/-- SYNk_RAMP is written (R175 to R177). A GO can be rejected; with STOP beside it, their order is open. -/
def writeRamp (s : State) (k v : Nat) : WriteRes :=
  let t := s.setBit (A.PLL_SYN_RAMP k) 1 (v.testBit 1)
  if v.testBit 0 then
    refuseIf (rampRejects s k)
      (.does (if v.testBit 2 then eitherOrder t (fun s => rampGo s k) (fun s => rampStop s k) else rampGo t k))
  else .does (if v.testBit 2 then rampStop t k else t)

def writePll (s : State) (a v : Nat) : WriteRes :=
  match entryOf2 a (A.PLL_RAMP_SEG 0 0) 0x40 8 4 16 with
  | some (k, _) => refuseIf (synRamping s k || synWaits s k) .plain
  | none =>
    if A.PLL_SYN_CFG 0 ≤ a ∧ a < A.PLL_SYN_CFG 8 then
      let k := (a - A.PLL_SYN_CFG 0) / 0x40
      let o := (a - A.PLL_SYN_CFG 0) % 0x40
      match synRegAt o with
      | some reg => writeSynReg s k reg v
      | none => if o = 0x24 then writeRamp s k v else .plain
    else .plain

/-! PLS, TDC, TCO and CAL. -/

/-- PLS.OUTk_CFG is written: the reserved values of ALIGN and ALIGN_SRC are rejected. -/
def writeOut (s : State) (k v : Nat) : WriteRes :=
  refuseIf (decide (bits v 22 21 = 3) || decide (5 ≤ bits v 20 18)) (.does (writeOutCfg s k (v &&& 0xFFFFE000)))

/-- OUTk_CTRL: ARM, which can be rejected, and STOP. -/
def writeOutCtrl (s : State) (k v : Nat) : WriteRes :=
  if v.testBit 0 then
    refuseIf (armRejects s k)
      (.does (if v.testBit 1 then eitherOrder s (fun s => armAccept s k) (fun s => stopOutput s k) else armAccept s k))
  else .does (if v.testBit 1 then stopOutput s k else s)

def writePls (s : State) (r : Req) (a v : Nat) : WriteRes :=
  if a = A.PLS_ARM then .does (writeArm s r v)
  else if a = A.PLS_STOP then .does (stopOutputs s v)
  else
    match entryOf a (A.PLS_OUT_CFG 0) 0x40 32 with
    | some k => writeOut s k v
    | none =>
    match entryOf a (A.PLS_OUT_CTRL 0) 0x40 32 with
    | some k => writeOutCtrl s k v
    | none => .plain

/-- CHi_CTRL: ARM and ABORT, and STAT_GO. -/
def writeTdcCtrl (s : State) (i v : Nat) : State :=
  let s := if v.testBit 0 && v.testBit 1 then eitherOrder s (fun s => softArm s i) (fun s => softAbort s i)
    else if v.testBit 0 then softArm s i else if v.testBit 1 then softAbort s i else s
  if v.testBit 2 then statGo s i else s

def writeTdc (s : State) (a v : Nat) : WriteRes :=
  if a = A.TDC_ARM_ALL then .does ((bitsSet v 16).foldl softArm s)
  else if a = A.TDC_GATE_CFG then .does (writeGateCfg s v)
  else
    match entryOf a (A.TDC_CH_CFG 0) 0x200 16 with
    | some i => .of (writeTdcCfg s i (v &&& 0xFFFFFB00))
    | none =>
    match (entryOf a (A.TDC_CH_THR 0) 0x200 16).or (entryOf a (A.TDC_CH_WIN 0) 0x200 16) with
    | some i => refuseIf (tdcBusy s i) .plain
    | none =>
    match entryOf a (A.TDC_CH_STAT_CFG 0) 0x200 16 with
    | some i => refuseIf (tdcBusy s i || decide (bits v 28 24 = 0)) .plain
    | none =>
    match entryOf a (A.TDC_CH_CTRL 0) 0x200 16 with
    | some i => .does (writeTdcCtrl s i v)
    | none => .plain

/-- CAL.CTRL: GO, which can be rejected, and ABORT. -/
def writeCalCtrl (s : State) (v : Nat) : WriteRes :=
  if v.testBit 0 then
    refuseIf (calGoRejects s) (.does (if v.testBit 1 then eitherOrder s calGo calAbort else calGo s))
  else .does (if v.testBit 1 then calAbort s else s)

def writeCal (s : State) (a v : Nat) : WriteRes :=
  if a = A.CAL_CTRL then writeCalCtrl s v
  else if a = A.CAL_SEL then refuseIf (decide (bits v 9 8 = 3)) .plain
  else .plain

/-! Lanes, ports and PTP. -/

/-- LANE.TEST is written: rejected where TEST_EN is set while the port is enabled, and for the values of R92. -/
def writeTest (s : State) (l v : Nat) : WriteRes :=
  let p := portOfLane l
  refuseIf (laneTestBad v || (v.testBit 0 && portEnabled s p))
    (.does (settle (laneAfter s (writeLaneTest s l v (givenMode s p (l % 8)) (decide (typeEff s p = 13))) l)))

def writeLane (s : State) (a v : Nat) : WriteRes :=
  let l := (a - A.LANE_CTRL 0) / 0x1000
  let o := (a - A.LANE_CTRL 0) % 0x1000
  if o = 0 then .does (settle (laneAfter s (writeLaneCtrl s l v) l))
  else if o = 0x44 then .of ((writeEqValid s l (v % 8)).map fun t => settle (laneAfter s t l))
  else if o = 0x200 then writeTest s l v
  else
    match entryOf2 o 0x100 0x20 3 4 7 with
    | some (m, w) => .of ((writeEqWord s l m w v).map fun t => settle (laneAfter s t l))
    | none => .plain

/-- PORT.CTRL is written: ENABLE, and RESTART. -/
def writePortCtrl (s : State) (p v : Nat) : WriteRes :=
  refuseIf (enableBad s p (v.testBit 0))
    (let s := writeEnable s p (v.testBit 0)
     .does (settle (if v.testBit 1 then restartPort s p else s)))

def writePort (s : State) (a v : Nat) : WriteRes :=
  let p := (a - A.PORT_CFG 0) / 0x4000
  let o := (a - A.PORT_CFG 0) % 0x4000
  if o = 0 then refuseIf (portCfgBad s p (v &&& 0x00FF073F)) (.does (settle (writePortCfg s p v)))
  else if o = 8 then writePortCtrl s p v
  else if o = 4 then .does (settle (takeWord s a v))
  else .plain

def writePtp (s : State) (a v : Nat) : WriteRes :=
  let p := (a - A.PTP_CFG 0) / 0x800
  if (a - A.PTP_CFG 0) % 0x800 = 0 then
    refuseIf (ptpCfgBad (v &&& 0xFFFF0037)) (.does (settle (writePtpCfg s p (v &&& 0xFFFF0037))))
  else .plain

/-! PRS, CLS, HEAT and their tables. -/

def writePrs (s : State) (a v : Nat) : WriteRes :=
  if a = A.PRS_CFG then .does (writePrsCfg s (v &&& maskOf a))
  else if a = A.CLS_PUNT_GLB then .does (writePunt s 16 v)
  else match entryOf a (A.CLS_PUNT_BKT 0) 4 16 with
    | some b => .does (writePunt s b v)
    | none => .plain

/-! QM, DBF, SPR, RSQ and LLD. -/

/-- A port is not DISABLED. -/
def anyPortOn (s : State) : Bool := (List.range 64).any fun p => decide (portState s p ≠ 0)

/-- The pools may not leave fewer than 131 072 shared cells (R246). -/
def sharedTooSmall (s : State) : Bool := decide (sharedSize s < 131072)

/-- The conditions of R261 follow new limits. -/
def refreshLimits (s : State) : State := (List.range 512).foldl refreshPg (refreshGlobal s)

/-- The cells of a queue that stand in staging on their way to the deep tier. -/
def stagedCells (s : State) (e q : Nat) : Nat :=
  ((queuePkts s e q).map fun k => match k.deep with | some d => d.staged | none => 0).sum

/-- QM.OCC_SEL captures the occupancy of a queue and of a priority group; OCC_DEEP has the staging in it. -/
def captureOcc (s : State) (v : Nat) : State :=
  let e := bits v 13 8
  let q := bits v 4 0
  let g := 8 * e + q % 8
  let c := q % 8
  let s := takeWord s A.QM_OCC_SEL v
  let shaped := decide (portTokens s e < 0) || (decide (q < 16) && decide (classTokens s e c < 0))
  let head := (queuePkts s e q).head?
  let hol := match head with
    | some k => k.loc = .queue && decide (pktCru s k < pktCells s k)
    | none => false
  let flags := bit01 (inSpill s e q) * 2 ^ 28 + bit01 (s.runs (.pfcPause e c)) * 8 +
    bit01 (isTrunk s e && !trunkCredit s e c) * 4 + bit01 shaped * 2 + bit01 hol
  let pressed := (s.pg g).pressure
  let pg := bit01 (pressed && !isTrunk s e) * 2 ^ 31 + bit01 (pressed && isTrunk s e) * 2 ^ 30 + pgCount s g % 2 ^ 20
  let s1 := (s.wr A.QM_OCC_CRU (cruUse s e q)).wr A.QM_OCC_DEEP (deepUse s e q + stagedCells s e q)
  ((s1.wr A.QM_OCC_Q flags).wr A.QM_OCC_PG pg).wr A.QM_OCC_PG_HDRM (s.pg g).headroom

/-- A pool, or a guarantee, is rejected while a port is on, and where too little would stay shared (R246). -/
def writePool (s : State) (a v : Nat) : WriteRes :=
  let t := takeWord s a v
  refuseIf (anyPortOn s || decide (v % 2 ^ 20 < 64) || sharedTooSmall t) (.does (refreshLimits t))

def writeProfile (s : State) (a v : Nat) : WriteRes :=
  let t := takeWord s a v
  if bits v 15 0 = s.fld a 15 0 then .plain
  else refuseIf (anyPortOn s || sharedTooSmall t) (.does (refreshLimits t))

/-- The registers of one port in QM: a queue's profile changes only while the port is DISABLED. -/
def writeQmPort (s : State) (p a o v : Nat) : WriteRes :=
  if o = 4 ∨ o = 8 then
    let t := takeWord s a v
    refuseIf (decide (portState s p ≠ 0) || sharedTooSmall t) (.does (refreshLimits t))
  else if o = 0xC then .does (refreshLimits (takeWord s a v))
  else if a = A.QM_P_SHAPE p ∨ (entryOf a (A.QM_P_CSHAPE p 0) 4 8).isSome then .does (takeWord (refillPort s p) a v)
  else .plain

def writeQm (s : State) (a v : Nat) : WriteRes :=
  if a ≤ A.QM_POOL_RCX then writePool s a v
  else if a = A.QM_GLB_TH then refuseIf (decide (bits v 31 16 ≤ bits v 15 0)) (.does (refreshLimits (takeWord s a v)))
  else if a = A.QM_OCC_SEL then refuseIf (decide (16 < bits v 4 0)) (.does (captureOcc s v))
  else if (entryOf a (A.QM_QPROF_A 0) 0x10 8).isSome then writeProfile s a v
  else if (entryOf a (A.QM_PGPROF_A 0) 8 8).isSome then
    refuseIf (decide (bits v 15 0 ≤ bits v 31 16)) (.does (refreshLimits (takeWord s a v)))
  else if A.QM_P_CFG 0 ≤ a then writeQmPort s ((a - A.QM_P_CFG 0) / 0x80) a ((a - A.QM_P_CFG 0) % 0x80) v
  else .plain

/-- SPR.GRPg_CFG (R274, R275, R278): enabling the group restarts its pointer and the numbering of its flows. -/
def writeGroup (s : State) (g v : Nat) : WriteRes :=
  let on := grpEn s g
  refuseIf (decide (v % 8 ≠ 0) || (on && decide (v.testBit 30 ≠ grpSpread s g)))
    (let s := takeWord s (A.SPR_GRP_CFG g) v
     .does (refreshMigration (if v.testBit 31 && !on then restartFlows (s.setFld (A.SPR_GRP_STAT g) 19 16 0) g else s)))

/-- SPR.GRPg_MEMm: a port is a member of one group only (R274). -/
def writeMember (s : State) (g m v : Nat) : WriteRes :=
  let twice := (List.range 32).any fun h => decide (h ≠ g) && (memberOf s h (bits v 5 0)).isSome
  refuseIf (v.testBit 31 && twice) (.does (refreshMigration (takeWord s (A.SPR_GRP_MEM g m) v)))

/-- RSQ.CTXc_CFG (R288). -/
def writeCtxCfg (s : State) (c v : Nat) : WriteRes :=
  let old := s.rd (A.RSQ_CTX_CFG c)
  let t := takeWord s (A.RSQ_CTX_CFG c) v
  if old.testBit 31 && v.testBit 31 then refuseIf (decide (bits old 29 24 ≠ bits v 29 24)) (.does t)
  else if old.testBit 31 then .does (riserDisable t c)
  else if v.testBit 31 then .does (riserEnable t c)
  else .does t

def writeSpr (s : State) (a v : Nat) : WriteRes :=
  match entryOf a (A.SPR_GRP_CFG 0) 0x80 32 with
  | some g => writeGroup s g v
  | none =>
  match entryOf a (A.SPR_GRP_CTRL 0) 0x80 32 with
  | some g => .does (if v.testBit 0 then restartFlows s g else s)
  | none =>
  match entryOf2 a (A.SPR_GRP_MEM 0 0) 0x80 32 4 16 with
  | some (g, m) => writeMember s g m v
  | none =>
  match entryOf a (A.RSQ_CTX_CFG 0) 0x10 4096 with
  | some c => writeCtxCfg s c v
  | none =>
  match entryOf a (A.RSQ_CTX_NODE 0) 0x10 4096 with
  | some c => refuseIf (s.bit (A.RSQ_CTX_CFG c) 31) .plain
  | none => .plain

/-- A write of LLD.L_i_e applies from 1 µs after it; the former word is kept for that long. -/
def writePair (s : State) (a v : Nat) : State :=
  let old := s.buf.lOld.filter fun o => decide (s.now < o.2.2 + us)
  takeWord { s with buf := { s.buf with lOld := old ++ [(a, s.rd a, s.now)] } } a v

def writeLld (s : State) (a v : Nat) : WriteRes :=
  if A.LLD_L 0 0 ≤ a then
    refuseIf (v.testBit 31 && (decide (bits v 19 0 < 600) || decide (1000000 < bits v 19 0))) (.does (writePair s a v))
  else
    match entryOf a (A.LLD_P_CFG 0) 0x40 64 with
    | some _ => refuseIf (decide (100 < v % 128)) .plain
    | none => .plain

/-! ASY. -/

/-- ASY.CTXc_CFG (R321). A write of EN = 1 over EN = 1 changes no other field, and clears the counts. -/
def writeAsyCfg (s : State) (c v : Nat) : WriteRes :=
  let old := s.rd (A.ASY_CTX_CFG c)
  if old.testBit 31 && v.testBit 31 then
    refuseIf (decide (old ≠ v &&& 0xFFFFE000))
      (.does (putAsyCtx (s.wr (A.ASY_CTX_ACC_SEQ c) 0) c { s.asyCtx c with pcount := 0, last := none }))
  else if old.testBit 31 then .does (ctxDisable s c v)
  else if v.testBit 31 then refuseIf (ctxEnableBad s c v) (.does (ctxEnable s c v))
  else .plain

/-- Offsets of a context's registers that apply to windows decided 1 µs later: MTHR, STHR, PRESCALE, HOLDOFF, PDLY. -/
def ctxDelayed (o : Nat) : Bool := decide (0x10 ≤ o ∧ o ≤ 0x20) || decide (o = 0x38)

/-- Offsets of those that are rejected while EN is 1: WIN, OFF, CLOSE, HIST, DEST, DMAC and TTYPE. -/
def ctxFixed (o : Nat) : Bool := decide (4 ≤ o ∧ o ≤ 0xC) || decide (0x24 ≤ o ∧ o ≤ 0x34)

def writeAsyCtx (s : State) (c o a v : Nat) : WriteRes :=
  if o = 0 then writeAsyCfg s c v
  else if ctxFixed o then refuseIf (ctxEn s c) .plain
  else if ctxDelayed o then .does (takeWord (noteOld s c a) a v)
  else .plain

/-- MIG_CTRL: GO, which can be rejected, and CANCEL. -/
def writeMigCtrl (s : State) (v : Nat) : WriteRes :=
  if v.testBit 0 && v.testBit 1 then refuseIf (migBad s) (.does (eitherOrder s migGo migCancel))
  else if v.testBit 0 then refuseIf (migBad s) (.does (migGo s))
  else if v.testBit 1 then refuseIf (migCancelBad s) (.does (migCancel s))
  else .does s

def writeAsy (s : State) (a v : Nat) : WriteRes :=
  if a = A.ASY_MIG_CFG ∨ a = A.ASY_MIG_T_W2 ∨ a = A.ASY_MIG_T_W1 ∨ a = A.ASY_MIG_T_W0 then refuseIf (migHeld s) .plain
  else if a = A.ASY_MIG_CTRL then writeMigCtrl s v
  else if A.ASY_CTX_CFG 0 ≤ a then writeAsyCtx s ((a - A.ASY_CTX_CFG 0) / 0x80) ((a - A.ASY_CTX_CFG 0) % 0x80) a v
  else .plain

/-! The TBL window. -/

/-- The entry staged by a requester in a table whose last word is word `n`, one more than its number, stands at the last
word of entry 0, and its words at the others of entry 0 (R290, R319). -/
def stageOf (s : State) (r : Req) (addr : Nat → Nat → Nat) (n : Nat) : Nat :=
  (Map.get 0 s.staged (2 * addr 0 n + reqNum r)).toNat

def stagedWord (s : State) (r : Req) (addr : Nat → Nat → Nat) (j : Nat) : Nat :=
  (Map.get 0 s.staged (2 * addr 0 j + reqNum r)).toNat

def putStaged (s : State) (k : Nat) (v : Nat) : State := { s with staged := Map.put 0 s.staged k (BitVec.ofNat 32 v) }

/-- The staging is loaded with an entry's committed words. -/
def loadStage (s : State) (r : Req) (addr : Nat → Nat → Nat) (n i : Nat) : State :=
  (List.range n).foldl (fun s j => putStaged s (2 * addr 0 j + reqNum r) (s.rd (addr i j)))
    (putStaged s (2 * addr 0 n + reqNum r) (i + 1))

/-- A word before the last one is staged. -/
def stageWord (s : State) (r : Req) (addr : Nat → Nat → Nat) (n i j v : Nat) : State :=
  let s := if stageOf s r addr n = i + 1 then s else loadStage s r addr n i
  putStaged s (2 * addr 0 j + reqNum r) v

/-- The words that a write of the last word commits. -/
def stagedEntry (s : State) (r : Req) (addr : Nat → Nat → Nat) (n i v : Nat) : List Nat :=
  (List.range n).map (fun j => if stageOf s r addr n = i + 1 then stagedWord s r addr j else s.rd (addr i j)) ++ [v]

/-- A Ladle commit that would give more than 64 copies (R290). -/
def ladleBad (ws : List Nat) : Bool :=
  decide (64 < (bitsSet (ws.getD 0 0) 32).length + (bitsSet (ws.getD 1 0) 32).length + (bitsSet (ws.getD 2 0) 32).length)

def commitLadle (s : State) (r : Req) (i v : Nat) : WriteRes :=
  let ws := stagedEntry s r A.TBL_LADLE 3 i (v &&& 0xE0000000)
  refuseIf (ladleBad ws)
    (.does (loadStage ((List.range 4).foldl (fun s j => s.wr (A.TBL_LADLE i j) (ws.getD j 0)) s) r A.TBL_LADLE 3 i))

def commitSource (s : State) (r : Req) (i v : Nat) : WriteRes :=
  let ws := stagedEntry s r A.TBL_SRC 7 i v
  refuseIf (srcCommitBad s i ws) (.does (loadStage (srcCommit s i ws) r A.TBL_SRC 7 i))

def writeTbl (s : State) (r : Req) (a v : Nat) : WriteRes :=
  if a < A.TBL_HITS_LO 0 then refuseIf (!mouldWriteOk s a) (.does (mouldWrite s a v))
  else
    match entryOf2 a (A.TBL_LADLE 0 0) 0x10 16384 4 4 with
    | some (i, j) => if j = 3 then commitLadle s r i v else .does (stageWord s r A.TBL_LADLE 3 i j v)
    | none =>
    match entryOf2 a (A.TBL_SRC 0 0) 0x20 16384 4 8 with
    | some (i, j) => if j = 7 then commitSource s r i v else .does (stageWord s r A.TBL_SRC 7 i j v)
    | none => if A.TBL_PIN 0 0 ≤ a then .does (refreshMigration (takeWord s a v)) else .plain

/-! The block that holds the register. -/

/-- What the write of a word does at the register of the address. -/
def writeEffect (s : State) (r : Req) (a v : Nat) : WriteRes :=
  if a < 0x10000 then writeGlb s a v
  else if a < 0x20000 then writePwr s a v
  else if a < 0x30000 then writeInt s r a v
  else if a < 0x40000 then writePmc s a v
  else if a < 0x50000 then writeSnp s a v
  else if a < 0x60000 then writeMem s r a v
  else if a < 0x70000 then writeTac s a v
  else if a < 0x80000 then writeHost s r a v
  else if a < 0x110000 then .plain
  else if a < 0x120000 then writeTim s a v
  else if a < 0x130000 then writeRef s a v
  else if a < 0x140000 then writePll s a v
  else if a < 0x150000 then writePls s r a v
  else if a < 0x160000 then writeTdc s a v
  else if a < 0x180000 then writeCal s a v
  else if a < 0x200000 then writePtp s a v
  else if a < 0x300000 then writePrs s a v
  else if a < 0x380000 then writeQm s a v
  else if a < 0x3C0000 then .plain
  else if a < 0x400000 then writeSpr s a v
  else if a < 0x440000 then writeLld s a v
  else if a < 0x800000 then writeAsy s a v
  else if a < 0x1000000 then writePort s a v
  else if a < 0x2000000 then writeLane s a v
  else writeTbl s r a v

end Sys2Proof.Machine
end

