-- ==== Sys2Proof/Machine/Bus.lean ====
section
/-! DEFINITION. Writes on the bus: which accesses complete and reach their register (R21, R47, R64, R358, R359), guard
sequences (R362), the access types (R10 to R13, R364, R365) and the apertures (R368). A write answers the state, and
whether it completed without an error response. -/

namespace Sys2Proof.Machine

/-! Which block answers. -/

/-- The block of the address answers the requester now (R47, R64). -/
def gateOpen (s : State) (r : Req) (a : Nat) : Bool :=
  let st := bootState s
  if st = 5 ∨ st = 8 then true
  else if st = 9 ∨ st = 10 then alwaysOn a || onTimingDie a
  else alwaysOn a || (decide (r = .mgmt) && s.boot.loaded)

/-- An access of the requester comes to the data die: it runs, and the host has a link (R46). -/
def reaches (s : State) (r : Req) : Bool := s.power.die && (decide (r = .mgmt) || decide (s.int.link ≠ .down))

/-- An access of the management complex waits in its island while that stands still (R182). -/
def waitsAtCore (s : State) (r : Req) : Bool := decide (r = .mgmt) && loopStopped s 5

/-- The zone of the address is in reset, is in fault (R20, R21). -/
def zoneRefuses (s : State) (a : Nat) : Bool := match zoneOf a with | some z => zoneInReset s z | none => false
def zoneFails (s : State) (a : Nat) : Bool := match zoneOf a with | some z => zoneFault s z | none => false

/-- An access waits on its way to the node of an address (R26, R182). -/
def nodeWaits (s : State) (a : Nat) : Bool := !zoneRefuses s a && !zoneFails s a && !nodeRuns s a

/-- The apertures (R357): PORT for all ports and groups 0 to 7, and LANE for all lanes and groups 0 to 7. -/
def isPortAperture (a : Nat) : Bool := decide (0x900000 ≤ a ∧ a < 0x904000) || decide (0x940000 ≤ a ∧ a < 0x960000)
def isLaneAperture (a : Nat) : Bool := decide (0x1200000 ≤ a ∧ a < 0x1201000) || decide (0x1210000 ≤ a ∧ a < 0x1218000)

/-- The address lies in a row of the BAR0 map (R358). -/
def mapped (a : Nat) : Bool := (blockOf a).isSome || isPortAperture a || isLaneAperture a

/-- The address lies in the TBL window. -/
def inTbl (a : Nat) : Bool := decide (0x2000000 ≤ a ∧ a < 0x3000000)

/-- The block instance that holds the address: its first address. -/
def blockStart (a : Nat) : Nat :=
  match blockOf a with
  | some b => b.base + (a - b.base) / b.stride * b.stride
  | none => a

/-! Guard sequences (R362). -/

/-- The sequences of a requester that wait for their complement. -/
def guardsOf (s : State) : Req → List GuardSeq
  | .host => s.guardHost
  | .mgmt => s.guardMgmt

def putGuards (s : State) (r : Req) (l : List GuardSeq) : State :=
  match r with
  | .host => { s with guardHost := l }
  | .mgmt => { s with guardMgmt := l }

/-- The sequence is pending in the block instance of the address. -/
def GuardSeq.inBlock (q : GuardSeq) (a : Nat) : Bool := decide (blockStart q.addr = blockStart a)

/-- The sequence that a requester has pending in the block instance of an address. -/
def guardAt (s : State) (r : Req) (a : Nat) : Option GuardSeq := (guardsOf s r).find? (·.inBlock a)

/-- A requester's sequence in the block instance of an address is dropped. -/
def dropGuard (s : State) (r : Req) (a : Nat) : State := putGuards s r ((guardsOf s r).filter fun q => !q.inBlock a)

/-- The first write of a sequence: the complement is awaited for 1 µs. -/
def beginGuard (s : State) (r : Req) (a v : Nat) : State :=
  putGuards s r (⟨a, BitVec.ofNat 32 v, s.now + us⟩ :: guardsOf s r)

/-- A requester's sequence in the block instance of an address fails: both of its writes are discarded. -/
def guardFails (s : State) (r : Req) (a : Nat) : State :=
  match guardAt s r a with
  | some q => guardErr (dropGuard s r a) r q.addr
  | none => s

/-- A write to a block instance breaks the sequences that are pending there, but for the one that it completes. -/
def breakGuards (s : State) (a : Nat) (keep : Option Req) : State :=
  ([.host, .mgmt] : List Req).foldl (fun s r => if keep = some r then s else guardFails s r a) s

/-- What follows a switch-over, or the failure of the only core. -/
def swoAfter (before s : State) : State :=
  calDegraded (if inGap s && !inGap before then wakeAlarm (calGapBegin s) else s)

/-- GLB.BOOT_CTRL: GO only in FAILED and RECOVERY (R53). -/
def guardedBoot (s : State) (r : Req) (a v : Nat) : State :=
  if v.testBit 0 then
    (if bootState s = 6 ∨ bootState s = 7 then bootGo (takeWord s a (v &&& 6)) (bits v 2 1) else rejected s r a)
  else takeWord s a v

/-- PWR.RST_CTRL (R45): a timing reset includes what a warm reset does. -/
def guardedReset (s : State) (v : Nat) : State :=
  if v.testBit 1 then timingReset s else if v.testBit 0 then warmReset s else s

/-- PWR.SLEEP_CTRL: ENTER only in RUN (R63), and WAKE (R65). -/
def guardedSleep (s : State) (r : Req) (a v : Nat) : State :=
  if v.testBit 0 then
    (if !inRun s then rejected s r a
     else if v.testBit 1 then eitherOrder s sleepEnter (fun s => wakeEvent s (tb0 s)) else sleepEnter s)
  else if v.testBit 1 then wakeEvent s (tb0 s)
  else s

/-- TCO.CTRL: SWITCH, which needs the other core in STANDBY (R211), and the repairs (R215). -/
def guardedCore (s : State) (r : Req) (a v : Nat) : State :=
  if v.testBit 0 && !switchOk s then rejected s r a
  else
    let t := if v.testBit 1 then coreRepair s 0 else s
    let t := if v.testBit 2 then coreRepair t 1 else t
    swoAfter s (if v.testBit 0 then takeOver t 4 else t)

/-- HEAT.CTRL: exactly one operation (R237, R239). HEAT keeps the value of the last pair that was not discarded. -/
def guardedHeat (s : State) (r : Req) (a v : Nat) : State :=
  let heat := bits v 31 16
  let t := s.wr a (heat * 2 ^ 16)
  match v % 32 with
  | 1 => if loadOk s then heatLoad t heat else rejected s r a
  | 2 => if sealOk s then heatSeal t else rejected s r a
  | 4 => requestCommit t heat (commitTime s) none
  | 8 => if discardOk s then heatDiscard t else rejected s r a
  | 16 => if cancelOk s then heatCancel t else rejected s r a
  | _ => rejected s r a

/-- DBF.UNRETIRE: a region up to 895 (R258). -/
def guardedUnretire (s : State) (r : Req) (a v : Nat) : State :=
  if 895 < v % 1024 then rejected s r a
  else
    let s := s.wr a (v % 1024)
    if v.testBit 31 then unretireRegion s (v % 1024) else s

/-- TAC.ORIG_CTRL (R350, R351). -/
def guardedOrig (s : State) (r : Req) (a v : Nat) : State :=
  if ownBusy s || (v.testBit 0 && goBad s v) then rejected s r a else settle (originate s v)

/-- LANE.FAULT_CTRL of lane `l`. -/
def guardedFault (s : State) (l v : Nat) : State :=
  let t := if v.testBit 1 then clearFailTotal s l else s
  if v.testBit 0 then settle (laneAfter s (unretire t l) l) else t

/-- An accepted guard sequence: the register takes the value and acts as its own rules give. -/
def guardedEffect (s : State) (r : Req) (a v : Nat) : State :=
  if a = A.GLB_ZONE_CTRL then settle (zoneResets s (v % 256) (v / 256 % 256))
  else if a = A.GLB_BOOT_CTRL then guardedBoot s r a v
  else if a = A.PWR_RST_CTRL then guardedReset s v
  else if a = A.PWR_SLEEP_CTRL then guardedSleep s r a v
  else if a = A.PMC_UPAGE then takeWord s a v
  else if a = A.MEM_MARCH_CTRL then (if v.testBit 31 && marchBad s v then rejected s r a else writeMarch s v)
  else if a = A.TAC_ORIG_CTRL then guardedOrig s r a v
  else if a = A.TCO_CTRL then guardedCore s r a v
  else if a = A.TIM_ARM then armTbs s (v % 256)
  else if a = A.TDC_UNRETIRE then tdcUnretire s (v % 2 ^ 16)
  else if a = A.CAL_SAVE_CTRL then (if v.testBit 0 then (if saveOk s then saveStart s else rejected s r a) else s)
  else if a = A.HEAT_CTRL then settle (guardedHeat s r a v)
  else if a = A.DBF_UNRETIRE then guardedUnretire s r a v
  else if A.LANE_FAULT_CTRL 0 ≤ a then guardedFault s ((a - A.LANE_FAULT_CTRL 0) / 0x1000) v
  else takeWord s a v

/-- The address is the complement address of a GRD register. -/
def isComplement (a : Nat) : Bool :=
  match rowOf (a ^^^ 0x800) with
  | some row => decide (row.acc = .grd)
  | none => false

/-- A write to a complement address: it completes the requester's sequence, or it fails. -/
def complementWrite (s : State) (r : Req) (a v : Nat) : State :=
  match guardAt s r a with
  | some q =>
    if q.addr = a ^^^ 0x800 then
      let s := breakGuards s a (some r)
      if decide (s.now ≤ q.till) && decide (v + q.value.toNat = 2 ^ 32 - 1) then
        guardedEffect (dropGuard s r a) r q.addr q.value.toNat
      else guardFails s r a
    else guardErr (breakGuards s a none) r a
  | none => guardErr (breakGuards s a none) r a

/-- The complement has not come 1 µs after the first write. -/
def guardExpire (s : State) (r : Req) : State :=
  ((guardsOf s r).filter fun q => decide (q.till ≤ s.now)).foldl (fun s q => guardFails s r q.addr) s

/-! One register. -/

/-- A commit of an FTIME register, whose W0 lies at the address (R10, R11, R128). -/
def commitTo (s : State) (a t : Nat) : Option State :=
  match entryOf a (A.TIM_TB_SET_W0 0) 0x10 8 with
  | some n => if setStepOk s n then some (settle (setStep (s.wrTime (a - 8) t) n t)) else none
  | none => some (s.wrTime (a - 8) t)

/-- A write of word `w` of an FTIME register: W2 and W1 are staged, and W0 commits (R10, R11). -/
def writeTime (s : State) (r : Req) (acc a w v : Nat) : State :=
  match writeEffect s r a v with
  | .refuse => rejected s r acc
  | _ =>
    if w = 0 then
      (if 1000000000 ≤ v then rejected s r acc
       else
        let staged := fun b => (Map.get 0 s.staged (2 * b + reqNum r)).toNat
        match commitTo s a (ftOfWords (staged (a - 8)) (staged (a - 4)) v) with
        | some t => t
        | none => rejected s r acc)
    else putStaged s (2 * a + reqNum r) v

/-- A write of an RW or WO register. -/
def writePlain (s : State) (r : Req) (acc a v : Nat) (wo : Bool) : State :=
  match writeEffect s r a v with
  | .plain => if wo then s else takeWord s a v
  | .refuse => rejected s r acc
  | .does t => t

/-- A write reaches the address `a` of a node: `acc` is the address that the requester wrote, and `ap` says whether the
write came through an aperture (R13, R365). An aperture write that lands on a complement address is reported as NOT_BCW
(DESIGN CHOICE, assumption 69). -/
def regWrite (s : State) (r : Req) (acc a v : Nat) (ap : Bool) : State :=
  match rowOf a with
  | none =>
    if isComplement a then
      (if ap then accessErr (breakGuards s a none) 6 r acc else complementWrite s r a v)
    else accessErr (breakGuards s a none) 4 r acc
  | some row =>
    let s := breakGuards s a none
    if ap && !row.bcw then accessErr s 6 r acc
    else
      match row.acc with
      | .ro => s
      | .window => rejected s r acc
      | .grd => beginGuard s r a v
      | .sqc => if sqcAhead s a v then accessErr s 8 r acc else s.writeBack a v
      | .cnt => takeWord s a v
      | .ftime w => writeTime s r acc a w v
      | .rw => writePlain s r acc a v false
      | .wo => writePlain s r acc a v true

/-- A write waits on its way to a node (R26, R182). -/
def holdWrite (s : State) (h : HeldWrite) : State := { s with heldNodes := s.heldNodes ++ [h] }

/-- A write through the node of an address: a zone in reset refuses it (R21), and a zone in fault completes it with an
error response (R20). -/
def nodeWrite (s : State) (r : Req) (acc a v : Nat) (ap : Bool) : State × Bool :=
  if zoneRefuses s a then (accessErr s 7 r acc, true)
  else if zoneFails s a then (s, false)
  else if nodeRuns s a then (regWrite s r acc a v ap, true)
  else (holdWrite s ⟨r, acc, a, v, ap⟩, true)

/-- A REGSCRIPT section is being applied. -/
def scriptOpen (s : State) : Bool := decide (bootState s = 3) && s.boot.script.isSome

/-- The section that a record belongs to fails, where a write of the host has broken the guard sequence of the record
(R52). -/
def recordBreaks (before : State) (r : Req) (t : State) : State :=
  if decide (r = .host) && scriptOpen before && scriptOpen t && decide (t.guardMgmt.length < before.guardMgmt.length) then
    sectFail (putBoot t { t.boot with script := none }) 9
  else t

/-- An island runs again: the writes that waited go on, in their order, or wait at the next island. -/
def heldWrites (s : State) : State :=
  s.heldNodes.foldl (fun s h =>
    let (t, ok) := nodeWrite s h.req h.acc h.addr h.v h.ap
    recordBreaks s h.req (if ok then t else t.emit (.errorResponse h.req h.acc))) { s with heldNodes := [] }

/-! Apertures (R16, R93, R121, R368). -/

def maskBits (s : State) (reg : Nat → Nat) (n : Nat) : List Nat :=
  (List.range n).flatMap fun k => (bitsSet (s.rd (reg k)) 32).map (32 * k + ·)

/-- The members of a PORT or LANE aperture, rising. -/
def portMembers (s : State) (a : Nat) : List Nat :=
  if a < 0x940000 then List.range 64 else maskBits s (A.GLB_PORT_GRP ((a - 0x940000) / 0x4000)) 2
def laneMembers (s : State) (a : Nat) : List Nat :=
  if a < 0x1210000 then List.range 512 else maskBits s (A.GLB_LANE_GRP ((a - 0x1210000) / 0x1000)) 16

/-- A write to one place for each member, rising. -/
def writeEach (r : Req) (acc v : Nat) (place : Nat → Nat) : List Nat → State → State × Bool
  | [], s => (s, true)
  | p :: l, s =>
    let (s, ok) := nodeWrite s r acc (place p) v true
    let (s, ok') := writeEach r acc v place l s
    (s, ok && ok')

/-- PWR.SHED_RANK: the rank of each member port. -/
def writeRanks (s : State) (v : Nat) (l : List Nat) : State :=
  l.foldl (fun s p =>
    let a := A.PWR_SHED_RANK (p / 8)
    (breakGuards s a none).setFld a (4 * (p % 8) + 3) (4 * (p % 8)) (v % 16)) s

/-- The offset of a PORT aperture reaches nodes behind the zone controllers (R425). -/
def zoneOffset (o : Nat) : Bool := decide (o < 0x2000) || decide (0x3800 ≤ o)

/-- The node that offset `o` of a PORT aperture reaches for member `p` (table PORT aperture layout). -/
def portPlace (o p : Nat) : Nat :=
  if o < 0x2000 then 0x800000 + 0x4000 * p + o
  else if o < 0x2080 then 0x301000 + 0x80 * p + (o - 0x2000)
  else 0x180000 + 0x800 * p + (o - 0x3800)

/-- A write of offset `o` of a PORT aperture for the members `l`. An aperture without members reaches nothing (R368). -/
def portAperture (s : State) (r : Req) (acc o v : Nat) (l : List Nat) : State × Bool :=
  if o < 0x2080 ∨ 0x3800 ≤ o then writeEach r acc v (portPlace o) l s
  else if o = 0x2080 then (writeRanks s v l, true)
  else if l.isEmpty then (s, true)
  else (accessErr s 4 r acc, true)

/-- The node that offset `o` of a LANE aperture reaches for member `l`. -/
def lanePlace (o l : Nat) : Nat := 0x1000000 + 0x1000 * l + o

/-- The nodes that a write of an address reaches. -/
def accessNodes (s : State) (a : Nat) : List Nat :=
  if isPortAperture a then (portMembers s a).map (portPlace (a % 0x4000))
  else if isLaneAperture a then (laneMembers s a).map (lanePlace (a % 0x1000))
  else [a]

/-- A write of an address waits somewhere. -/
def accessWaits (s : State) (a : Nat) : Bool := (accessNodes s a).any (nodeWaits s)

/-- A write of one word at an address, an aperture's or a register's. -/
def wordWrite (s : State) (r : Req) (a v : Nat) : State × Bool :=
  if isPortAperture a then portAperture s r a (a % 0x4000) v (portMembers s a)
  else if isLaneAperture a then writeEach r a v (lanePlace (a % 0x1000)) (laneMembers s a) s
  else nodeWrite s r a a v false

/-! Whole accesses (R358, R359). -/

/-- How many words the access writes, or the kind of its error (table Access outcomes). -/
inductive Width where
  | words (n : Nat)
  | error (kind : Nat)
  deriving DecidableEq, Repr

/-- The address names a GRD register. -/
def isGrd (a : Nat) : Bool :=
  match rowOf a with
  | some row => decide (row.acc = .grd)
  | none => false

def accessWidth (a bytes : Nat) : Width :=
  if bytes < 4 ∧ a % 4 + bytes ≤ 4 then .error 1
  else if inTbl a then
    (if a % 4 ≠ 0 ∨ bytes % 4 ≠ 0 then .error 2 else if a % 64 + bytes ≤ 64 then .words (bytes / 4) else .error 3)
  else if 8 < bytes then .error 3
  else if bytes = 4 ∧ a % 4 = 0 then .words 1
  else if bytes = 8 ∧ a % 8 = 0 then (if isGrd a || isGrd (a + 4) then .error 3 else .words 2)
  else .error 2

/-- Consecutive words are written in ascending address order. -/
def writeWords (r : Req) (a : Nat) : List Word → State → State × Bool
  | [], s => (s, true)
  | v :: l, s =>
    let (s, ok) := wordWrite s r a v.toNat
    let (s, ok') := writeWords r (a + 4) l s
    (s, ok && ok')

/-- `n` register writes of the host are counted (R390). -/
def heard (s : State) (r : Req) (n : Nat) : State := if r = .host then s.pmcEvent 22 0x302 n else s

/-- An access that comes to the bus. A write that its width discards, or that a zone in reset refuses, breaks no guard
sequence (DESIGN CHOICE, assumption 69). -/
def busAccess (s : State) (r : Req) (a bytes : Nat) (data : List Word) : State × Bool :=
  if !mapped a || !gateOpen s r a then (s.emit (.errorResponse r a), false)
  else
    let s := heard s r 1
    match accessWidth a bytes with
    | .error k => (accessErr s k r a, true)
    | .words n =>
      let (s, ok) := writeWords r a (data.take n) s
      (if ok then s else s.emit (.errorResponse r a), ok)

/-- A write access. A data die that does not run answers nothing. -/
def busWrite (s : State) (r : Req) (a bytes : Nat) (data : List Word) : State × Bool :=
  if !reaches s r then (s, false)
  else if waitsAtCore s r then ({ s with heldMgmt := s.heldMgmt ++ [⟨a, bytes, data, false⟩] }, true)
  else
    let (t, ok) := busAccess s r a bytes data
    (recordBreaks s r t, ok)

/-- A write of one word. -/
def write32 (s : State) (r : Req) (a v : Nat) : State := (busWrite s r a 4 [BitVec.ofNat 32 v]).1

/-- Both writes of a guard sequence meet the node of the register. A zone in reset refuses each of them, and a zone in
fault answers each with an error response (R20, R21). -/
def guardedNode (s : State) (r : Req) (a v : Nat) : State :=
  if zoneRefuses s a then accessErr (accessErr s 7 r a) 7 r (a ^^^ 0x800)
  else if zoneFails s a then (s.emit (.errorResponse r a)).emit (.errorResponse r (a ^^^ 0x800))
  else if nodeRuns s a then guardedEffect s r a v
  else holdWrite (holdWrite s ⟨r, a, a, v, false⟩) ⟨r, a ^^^ 0x800, a ^^^ 0x800, 2 ^ 32 - 1 - v, false⟩

/-- An accepted guard sequence: its two writes as one step (R362, DESIGN CHOICE, assumption 5). What was pending in the
block is broken off. -/
def guardedWrite (s : State) (r : Req) (a v : Nat) : State :=
  if !reaches s r then s
  else if waitsAtCore s r then { s with heldMgmt := s.heldMgmt ++ [⟨a, 4, [BitVec.ofNat 32 v], true⟩] }
  else if !gateOpen s r a then (s.emit (.errorResponse r a)).emit (.errorResponse r (a ^^^ 0x800))
  else recordBreaks s r (guardedNode (breakGuards (heard s r 2) a none) r a v)

/-- The management complex runs again: its accesses that waited go on, in their order. -/
def heldAccesses (s : State) : State :=
  s.heldMgmt.foldl (fun s h =>
    if h.guarded then guardedWrite s .mgmt h.addr (h.data.headD 0).toNat
    else (busWrite s .mgmt h.addr h.bytes h.data).1) { s with heldMgmt := [] }

end Sys2Proof.Machine
end

