-- ==== Sys2Proof/Machine/Script.lean ====
section
/-! DEFINITION. What the image writes through the bus: REGSCRIPT records (R52, R58), TABLE chunks (R60), and the replay
after a zone reset (R425). Its writes are those of the management complex (R366). -/

namespace Sys2Proof.Machine

/-- A write pair to a GRD register (R362). -/
def guardPair (s : State) (r : Req) (a v : Nat) : State × Bool :=
  let (s, ok) := busWrite s r a 4 [BitVec.ofNat 32 v]
  let (s, ok') := busWrite s r (a ^^^ 0x800) 4 [BitVec.ofNat 32 (2 ^ 32 - 1 - v % 2 ^ 32)]
  (s, ok && ok')

/-- GLB.BOOT_CTRL, PWR.RST_CTRL and PWR.SLEEP_CTRL with their complement addresses, which no record may write. -/
def scriptForbidden (a : Nat) : Bool :=
  decide (a % 2 ^ 32 ∈ [0x18, 0x818, 0x10040, 0x10840, 0x10050, 0x10850])

/-- Access errors counted so far. -/
def errCount (s : State) : Nat := s.rd64 A.GLB_AERR_CNT_LO

/-- A write of `a` raised an error: AERR_CNT shows it, but where the write sets AERR_CNT itself, which can only break a
guard sequence in GLB. -/
def raisedErr (before s : State) (a : Nat) : Bool :=
  if a = A.GLB_AERR_CNT_LO ∨ a = A.GLB_AERR_CNT_LO + 4 then (guardAt before .host a).isSome || (guardAt before .mgmt a).isSome
  else decide (errCount s ≠ errCount before)

/-- A REGSCRIPT record that writes `a` has been applied: the next record is in turn, or the section fails (R52). -/
def recordEnds (before : State) (a : Nat) (res : State × Bool) (l : List (Nat × Nat × Nat)) : State :=
  if !res.2 || raisedErr before res.1 a then sectFail (putBoot res.1 { res.1.boot with script := none }) 9
  else scriptGoes res.1 l

/-- The record in turn, in LOAD. One whose write would wait on its way to a node waits itself (R182). -/
def recordNow (s : State) : Option ((Nat × Nat × Nat) × List (Nat × Nat × Nat)) :=
  match s.boot.script with
  | some (e :: l) => if bootState s ≠ 3 || (decide (e.1 ≠ 3) && accessWaits s e.2.1) then none else some (e, l)
  | _ => none

/-- A WRITE record is applied. -/
def scriptWrite (s : State) : State :=
  match recordNow s with
  | some (e, l) =>
    if e.1 ≠ 1 then s
    else if scriptForbidden e.2.1 then sectFail s 9
    else recordEnds s e.2.1 (busWrite s .mgmt e.2.1 4 [BitVec.ofNat 32 e.2.2]) l
  | none => s

/-- A GUARDED record is applied. -/
def scriptGuarded (s : State) : State :=
  match recordNow s with
  | some (e, l) =>
    if e.1 ≠ 2 then s
    else if scriptForbidden e.2.1 then sectFail s 9
    else recordEnds s e.2.1 (guardPair s .mgmt e.2.1 e.2.2) l
  | none => s

/-- The complement of a requester's sequence has not come in 1 µs (R362). The GUARD_ERR of one that a record of the
REGSCRIPT section began fails the section (R52). -/
def guardTimeout (s : State) (r : Req) : State :=
  let t := guardExpire s r
  if decide (r = .mgmt) && decide (bootState s = 3) && s.boot.script.isSome && decide (errCount t ≠ errCount s) then
    sectFail (putBoot t { t.boot with script := none }) 9
  else t

/-- A WAIT record begins, and ends. -/
def scriptWait (s : State) : State :=
  match recordNow s with
  | some (e, _) => if e.1 ≠ 3 || s.runs .bootWait then s else s.start .bootWait (e.2.2 * us)
  | none => s

def scriptWaitDone (s : State) : State :=
  match recordNow s with
  | some (e, l) => if e.1 = 3 && s.due .bootWait then scriptGoes (s.stop .bootWait) l else s
  | none => s

/-- The regions of the TBL window (table TBL regions). -/
def tblRegions : List (Nat × Nat) :=
  [(0, 0x800000), (0x800000, 0x80000), (0x900000, 0x40000), (0x940000, 0x2000), (0xA00000, 0x80000)]

/-- A chunk of a TABLE section can be written (R60). -/
def chunkOk (b : List Nat) : Bool :=
  let o := leNat (slice b 0 4)
  let n := leNat (slice b 4 4)
  decide (8 ≤ b.length) && decide (o % 4 = 0) && decide (n % 4 = 0) && decide (8 + n ≤ b.length) &&
    tblRegions.any fun g => decide (g.1 ≤ o) && decide (o + n ≤ g.1 + g.2)

/-- The words of a chunk. -/
def chunkWords (b : List Nat) : List Word :=
  (List.range (leNat (slice b 4 4) / 4)).map fun i => BitVec.ofNat 32 (leNat (slice b (8 + 4 * i) 4))

/-- The chunk in turn is written through the TBL window; one that fails ends the section (R60). -/
def tableNext (s : State) : State :=
  match s.boot.chunks with
  | none => s
  | some l =>
    if bootState s ≠ 3 || !islandRuns s 4 then s
    else
      let b := toNats l
      let fail := fun s : State => sectFail (putBoot s { s.boot with chunks := none }) 9
      if !chunkOk b then fail s
      else
        let (t, ok) := writeWords .mgmt (0x2000000 + leNat (slice b 0 4)) (chunkWords b) s
        if !ok || decide (errCount t ≠ errCount s) then fail t
        else
          let rest := l.drop (8 + leNat (slice b 4 4))
          if rest.isEmpty then nextSect t else putBoot t { t.boot with chunks := some rest }

/-! The replay (R425). -/

/-- A WRITE record, where it reaches zone `z`. One whose address is not aligned is an access like any other (R359). -/
def replayWrite (s : State) (z a v : Nat) : State :=
  if zoneOf a = some z then (busWrite s .mgmt a 4 [BitVec.ofNat 32 v]).1
  else if !((isPortAperture a || isLaneAperture a) && (accessNodes s a).any fun x => decide (zoneOf x = some z)) then s
  else if a % 4 ≠ 0 then (busWrite s .mgmt a 4 [BitVec.ofNat 32 v]).1
  else if !gateOpen s .mgmt a then s
  else if isPortAperture a then
    (portAperture s .mgmt a (a % 0x4000) v ((portMembers s a).filter fun p => decide (zoneOfPort p = z))).1
  else
    (writeEach .mgmt a v (lanePlace (a % 0x1000)) ((laneMembers s a).filter fun l => decide (zoneOfLane l = z)) s).1

/-- An EQTABLE entry in the zone. As a zone in reset or in fault takes no write, it does not take an entry (R20, R21). -/
def replayEq (s : State) (b : List Nat) : State :=
  let a := A.LANE_EQ_TBL (leNat (slice b 0 2)) (byteAt b 2) 0
  if zoneRefuses s a then accessErr s 7 .mgmt a
  else if zoneFails s a then s.emit (.errorResponse .mgmt a)
  else loadEq s b

/-- The records in order; an EQTABLE entry counts where its lane lies in the zone, and the first one of a lane and mode. -/
def replay (z : Nat) : List ReplayRec → List (Nat × Nat) → State → State
  | [], _, s => s
  | e :: l, seen, s =>
    match e with
    | .write n a v => replay z l seen (if n ∈ s.boot.skipped then s else replayWrite s z a.toNat v.toNat)
    | .guarded n a v =>
      replay z l seen (if n ∈ s.boot.skipped ∨ zoneOf a.toNat ≠ some z then s else (guardPair s .mgmt a.toNat v.toNat).1)
    | .eq n b =>
      let b := toNats b
      let k := (leNat (slice b 0 2), byteAt b 2)
      if n ∈ s.boot.skipped ∨ eqUsed b = false ∨ zoneOfLane k.1 ≠ z ∨ k ∈ seen then replay z l seen s
      else replay z l (k :: seen) (replayEq s b)

/-- Step 5 of a zone reset with ZREIMG: the firmware, once it has been started from an image, applies the image's settings of
the zone again. It waits for the zone controllers' island (R182). -/
def zoneReplay (s : State) (z : Nat) (recs : List ReplayRec) : State :=
  if z ∈ s.zonesReimg ∧ s.boot.started = true ∧ s.fld A.GLB_BOOT_STAT 13 12 ≠ 0 ∧ islandRuns s 6 = true then
    settle (replay z recs [] { s with zonesReimg := s.zonesReimg.filter (· ≠ z) })
  else s

end Sys2Proof.Machine
end

