-- ==== Sys2Proof/Machine/Run.lean ====
section
/-! DEFINITION. How a command ends: it goes to the next state, with the queue and true time as they were; and what the
commands of a part of the device need before they act. -/

namespace Sys2Proof.Machine

/-- A command that does not pass time ends in `t`. The queue belongs to the step. -/
def done (s t : State) : Host.Outcome State Fault Refusal := .next { t with pending := s.pending, now := s.now }

/-- An event of the data die, which is nothing while the data die has no power (R14, R37). -/
def onDie (s : State) (f : State → State) : Host.Outcome State Fault Refusal := done s (if s.power.die then f s else s)

/-- An event of the timing die, which VIN_KA supplies (R14, R36). -/
def onKeep (s : State) (f : State → State) : Host.Outcome State Fault Refusal := done s (if s.power.ka then f s else s)

/-- TCLK runs: VIN_KA is present and a core drives it (R14, R35). -/
def tclkRuns (s : State) : Bool := s.power.ka && coreRuns s

/-- An event of the engines that TCLK drives. -/
def onTclk (s : State) (f : State → State) : Host.Outcome State Fault Refusal := done s (if tclkRuns s then f s else s)

/-- An event of blocks of the data die that are off in sleep (table Blocks in sleep). -/
def onAwake (s : State) (f : State → State) : Host.Outcome State Fault Refusal :=
  done s (if s.power.die && !asleep s then f s else s)

/-- An event in an island of the data die: while its loop is unlocked, and in sleep, the island keeps its state (R63,
R182). -/
def onIsland (s : State) (i : Nat) (f : State → State) : Host.Outcome State Fault Refusal :=
  done s (if s.power.die && islandRuns s i then f s else s)

/-- An event of the central island. -/
def onCentral (s : State) (f : State → State) : Host.Outcome State Fault Refusal := onIsland s 4 f

/-- An event of the Assay engine, which stands still from sleep entry to the wake (R336). -/
def onEngine (s : State) (f : State → State) : Host.Outcome State Fault Refusal :=
  onCentral s fun s => if inSleep s then s else f s

/-- An event that the firmware brings about. -/
def onFirmware (s : State) (f : State → State) : Host.Outcome State Fault Refusal := onIsland s 5 f

/-- An event of the zone controllers. -/
def onZones (s : State) (f : State → State) : Host.Outcome State Fault Refusal := onIsland s 6 f

/-- An event in the island of port `p`. -/
def onPort (s : State) (p : Nat) (f : State → State) : Host.Outcome State Fault Refusal :=
  done s (if s.power.die && portIslandRuns s p then f s else s)

/-- An event of the egress path of port `p`: its runner, in the slice's island, reads the cells from the central island
and hands the frame to the island of the port. -/
def onEgress (s : State) (p : Nat) (f : State → State) : Host.Outcome State Fault Refusal :=
  done s (if s.power.die && portIslandRuns s p && islandRuns s (sliceOfPort p) && islandRuns s 4 then f s else s)

/-- An event of lane `l`, with what it does to the lane's port. -/
def onLane (s : State) (l : Nat) (f : State → State) : Host.Outcome State Fault Refusal :=
  onAwake s fun s => settle (laneAfter s (f s) l)

/-- An event of the timing cores, with what a switch-over in it brings about. -/
def onCores (s : State) (f : State → State) : Host.Outcome State Fault Refusal :=
  onKeep s fun s => settle (swoAfter s (f s))

end Sys2Proof.Machine
end

