-- ==== Sys2Proof/Machine/RunAssay.lean ====
section
/-! DEFINITION. The commands of the Assay engine (R313 to R338). -/

namespace Sys2Proof.Machine

/-- A frame enters the intake (R313 to R316). -/
def execAssayIntakeFrame (slice : Fin 4) (s : State) : Host.Outcome State Fault Refusal :=
  onEngine s fun s => intakeFrame s slice.val

/-- The intake grants records (R317, R318, R320). -/
def execAssayIntakeGrant (s : State) : Host.Outcome State Fault Refusal := onEngine s intakeGrant

/-- A membership reaches its engine slice (R324). -/
def execAssayMembership (e : Fin 4) (s : State) : Host.Outcome State Fault Refusal := onEngine s fun s => membership s e.val

/-- t_dec of a window has come (R326 to R332, R337, R338). -/
def execAssayDecide (c : Fin 256) (s : State) : Host.Outcome State Fault Refusal := onEngine s fun s => decide1 s c.val

/-- A write of word 7 of a source table entry (R319). -/
def execAssaySourceCommit (q : Req) (i : Fin 16384) (v : Word) (s : State) : Host.Outcome State Fault Refusal :=
  done s (write32 s q (A.TBL_SRC i.val 7) v.toNat)

/-- A write of CTXc_CFG that sets EN (R321). -/
def execAssayContextEnable (q : Req) (c : Fin 256) (v : Word) (s : State) : Host.Outcome State Fault Refusal :=
  done s (write32 s q (A.ASY_CTX_CFG c.val) v.toNat)

/-- A write of CTXc_CFG that clears EN (R321). -/
def execAssayContextDisable (q : Req) (c : Fin 256) (v : Word) (s : State) : Host.Outcome State Fault Refusal :=
  done s (write32 s q (A.ASY_CTX_CFG c.val) v.toNat)

/-- A write of MIG_CTRL.GO (R333 to R335). -/
def execAssayMigGo (q : Req) (s : State) : Host.Outcome State Fault Refusal := done s (write32 s q A.ASY_MIG_CTRL 1)

/-- A write of MIG_CTRL.CANCEL (R335). -/
def execAssayMigCancel (q : Req) (s : State) : Host.Outcome State Fault Refusal := done s (write32 s q A.ASY_MIG_CTRL 2)

/-- The copy of the old records ends (R334, R338). -/
def execAssayMigCopyDone (s : State) : Host.Outcome State Fault Refusal := onEngine s migCopied

/-- T + CLOSE of a migration (R334, R338). -/
def execAssayMigHandover (s : State) : Host.Outcome State Fault Refusal := onEngine s migHandover

/-- T of a migration (R333). -/
def execAssayMigTReached (s : State) : Host.Outcome State Fault Refusal := onEngine s migReached

end Sys2Proof.Machine
end

