-- ==== Sys2Proof/Machine/RunBus.lean ====
section
/-! DEFINITION. The commands of the register accesses and of the zones (R5 to R25, R357 to R367, R425). -/

namespace Sys2Proof.Machine

/-- A register write (R12). -/
def execRegisterWrite (q : Req) (addr : BitVec 32) (bytes : Nat) (data : List Word) (s : State) :
    Host.Outcome State Fault Refusal := done s (busWrite s q addr.toNat bytes data).1

/-- A write of W0 of an FTIME register (R10, R11). -/
def execFtimeCommit (q : Req) (addr : BitVec 32) (w0 : Word) (s : State) : Host.Outcome State Fault Refusal :=
  done s (write32 s q addr.toNat w0.toNat)

/-- The first write of a guard sequence (R362). -/
def execGuardFirstWrite (q : Req) (addr : BitVec 32) (v : Word) (s : State) : Host.Outcome State Fault Refusal :=
  done s (write32 s q addr.toNat v.toNat)

/-- The complement write of a guard sequence (R362), at the complement address. -/
def execGuardComplementWrite (q : Req) (addr : BitVec 32) (v : Word) (s : State) : Host.Outcome State Fault Refusal :=
  done s (write32 s q addr.toNat v.toNat)

/-- The complement has not come in 1 µs (R362). -/
def execGuardTimeout (q : Req) (s : State) : Host.Outcome State Fault Refusal := onDie s fun s => settle (guardTimeout s q)

/-- A write of a SEQ value to an SQC register (R364). -/
def execSqcWriteBack (q : Req) (addr : BitVec 32) (v : Word) (s : State) : Host.Outcome State Fault Refusal :=
  done s (write32 s q addr.toNat v.toNat)

/-- A write through an aperture (R13, R16, R357). -/
def execApertureWrite (q : Req) (addr : BitVec 32) (v : Word) (s : State) : Host.Outcome State Fault Refusal :=
  done s (write32 s q addr.toNat v.toNat)

/-- A write of GLB.AERR_CLR (R367). -/
def execAerrClr (q : Req) (v : Word) (s : State) : Host.Outcome State Fault Refusal :=
  done s (write32 s q A.GLB_AERR_CLR v.toNat)

/-- The access starts a timeout at zone `z`: its block answers, and the zone is neither in reset nor in fault. -/
def startsTimeout (s : State) (r : Req) (a z : Nat) : Bool := gateOpen s r a && !zoneInReset s z && !zoneFault s z

/-- The zone enters fault, and the access completes with an error response (R19). -/
def timedOut (s : State) (r : Req) (a z : Nat) : State := (zoneFail s z).emit (.errorResponse r a)

/-- A write through an aperture at the members outside zone `z`, where it reaches a node behind controller `z` at all. No
member of zone `z` keeps the word, one before the node that timed out neither (DESIGN CHOICE, assumption 104). -/
def writeOthers (s : State) (r : Req) (a z v : Nat) : Option State :=
  if isPortAperture a then
    (if zoneOffset (a % 0x4000) && (portMembers s a).any fun p => decide (zoneOfPort p = z) then
      some (portAperture s r a (a % 0x4000) v ((portMembers s a).filter fun p => decide (zoneOfPort p ≠ z))).1
    else none)
  else if isLaneAperture a && (laneMembers s a).any fun l => decide (zoneOfLane l = z) then
    some (writeEach r a v (lanePlace (a % 0x1000))
      ((laneMembers s a).filter fun l => decide (zoneOfLane l ≠ z)) s).1
  else none

/-- An access is not completed in time at a node of zone `z` (R19): the zone enters fault, a read answers with an error
response, and a write is discarded there. Through an aperture it takes effect in the other zones. A node in reset, and a
zone in fault, start no timeout. -/
def accessTimeout (s : State) (r : Req) (a z : Nat) (data : Option Word) : State :=
  if !startsTimeout s r a z then s
  else
    match zoneOf a, data with
    | some z', _ => if z' = z then timedOut s r a z else s
    | none, some v => match writeOthers s r a z v.toNat with | some t => recordBreaks s r (timedOut t r a z) | none => s
    | none, none => s

/-- ZONE_TMO has passed over an access at a node of zone `z` (R19): a write of `data`, or a read. -/
def execZoneAccessTimeout (q : Req) (addr : BitVec 32) (z : Fin 8) (data : Option Word) (s : State) :
    Host.Outcome State Fault Refusal :=
  onDie s fun s =>
    let s := if q = .host then s.pmcEvent 22 (if data.isSome then 0x302 else 0x301) 1 else s
    accessTimeout s q addr.toNat z.val data

/-- The check logic of a zone controller finds an error (R19). -/
def execZoneCheckError (z : Fin 8) (s : State) : Host.Outcome State Fault Refusal := onZones s fun s => zoneFail s z.val

/-- A guarded write of ZONE_CTRL (R21, R25). -/
def execZoneReset (q : Req) (zrst zreimg : BitVec 8) (s : State) : Host.Outcome State Fault Refusal :=
  done s (guardedWrite s q A.GLB_ZONE_CTRL (zreimg.toNat * 256 + zrst.toNat))

/-- The last quench of a zone in reset has ended (R21, R91). -/
def execZoneResetQuenched (z : Fin 8) (s : State) : Host.Outcome State Fault Refusal :=
  onDie s fun s => settle (zoneClear s z.val)

/-- A zone reset completes (R21). An accepted sleep that waited for it begins (R68). -/
def execZoneResetDone (z : Fin 8) (s : State) : Host.Outcome State Fault Refusal :=
  onDie s fun s => settle (sleepAfterZone (zoneDone s z.val))

/-- The image's settings of a zone are applied again (R425). -/
def execZoneReimage (z : Fin 8) (recs : List ReplayRec) (s : State) : Host.Outcome State Fault Refusal :=
  onFirmware s fun s => zoneReplay s z.val recs

end Sys2Proof.Machine
end

