-- ==== Sys2Proof/Machine/RunCore.lean ====
section
/-! DEFINITION. The commands of the timing cores and of calibration (R207 to R226). -/

namespace Sys2Proof.Machine

/-- A core ends INIT (R207). With the first ACTIVE core, LSYN locks to 156.25 MHz. -/
def coreStarts (s : State) (c : Nat) (ok : Bool) : State :=
  let t := coreInit (coresEnter s) c ok
  if coreRuns t && !coreRuns s && !loopStopped s 11 then
    (t.setBit (A.PLL_CPLL_STAT 11) 31 true).setFld (A.PLL_CPLL_STAT 11) 15 0 (Config.quot 625 4)
  else t

/-- A core ends INIT (R35, R207, R208). -/
def execCoreInitDone (core : Fin 2) (ok : Bool) (s : State) : Host.Outcome State Fault Refusal :=
  onKeep s fun s => coreStarts s core.val ok

/-- The tracking core measures ε (R209): `drift` is how far the master loops moved against each other, in 2^-48 ns. -/
def execTrackingMeasure (drift : Int) (s : State) : Host.Outcome State Fault Refusal := onKeep s fun s => trackMeasure s drift

/-- ε stayed within TRK_LIM for 1 s (R209). -/
def execCoreSyncTracked (s : State) : Host.Outcome State Fault Refusal := onKeep s coreTracked

/-- The master loop of the active core unlocks (R210, R212, R216). -/
def execSwoMasterUnlock (s : State) : Host.Outcome State Fault Refusal := onCores s fun s => activeFails s 1

/-- An on-line check of the active core fails (R210, R213, R216). -/
def execSwoCheckFail (s : State) : Host.Outcome State Fault Refusal := onCores s fun s => activeFails s 2

/-- The heartbeat of the active core is missing (R210, R216). -/
def execSwoHeartbeatMissing (s : State) : Host.Outcome State Fault Refusal := onCores s fun s => activeFails s 3

/-- A guarded TCO.CTRL.SWITCH (R210, R211). -/
def execSwitch (q : Req) (s : State) : Host.Outcome State Fault Refusal := done s (guardedWrite s q A.TCO_CTRL 1)

/-- The gap ends (R196, R212). A calibration that waited for it goes on. -/
def execSwoGapEnd (s : State) : Host.Outcome State Fault Refusal :=
  onKeep s fun s => if inGap s then calGapEnd (gapEnd s) else s

/-- A self-test slot (R214). -/
def execSelftestSlot (item : Fin 8) (first second : Bool) (s : State) : Host.Outcome State Fault Refusal :=
  onKeep s fun s => selftest s item.val first second

/-- A guarded TCO.CTRL REPAIR (R215): bit c of the mask is core c. -/
def execRepair (q : Req) (mask : BitVec 2) (s : State) : Host.Outcome State Fault Refusal :=
  done s (guardedWrite s q A.TCO_CTRL (2 * mask.toNat))

/-- 60 s after a failure (R215). -/
def execCoreAutoRepair (core : Fin 2) (s : State) : Host.Outcome State Fault Refusal := onKeep s fun s => autoRepair s core.val

/-- A write of CAL.CTRL.GO (R217, R218, R222). -/
def execCalGo (q : Req) (s : State) : Host.Outcome State Fault Refusal := done s (write32 s q A.CAL_CTRL 1)

/-- A write of CAL.CTRL.ABORT (R219). -/
def execCalAbort (q : Req) (s : State) : Host.Outcome State Fault Refusal := done s (write32 s q A.CAL_CTRL 2)

/-- A measurement of the held item is complete (R87, R200, R217 to R221). -/
def execCalMeasurementDone (values : List Int) (s : State) : Host.Outcome State Fault Refusal :=
  onTclk s fun s => calMeasured s values

/-- A precondition of the held item is broken (R219). -/
def execCalPreconditionBroken (s : State) : Host.Outcome State Fault Refusal := onTclk s calPrecondition

/-- 10 ms after the hold, a measurement still runs (R218). -/
def execCalBusyTimeout (s : State) : Host.Outcome State Fault Refusal := onTclk s calBusyOut

/-- A guarded CAL.SAVE_CTRL.SAVE (R226). -/
def execSave (q : Req) (s : State) : Host.Outcome State Fault Refusal := done s (guardedWrite s q A.CAL_SAVE_CTRL 1)

/-- A flash step of the save completes (R226). -/
def execCalSaveFlashOpDone (ok : Bool) (s : State) : Host.Outcome State Fault Refusal := onDie s fun s => saveStep s ok

/-- A sector or page stays busy beyond its limit (R226). -/
def execCalSaveTimeout (s : State) : Host.Outcome State Fault Refusal := onDie s saveTimeout

end Sys2Proof.Machine
end

