-- ==== Sys2Proof/Machine/RunFrame.lean ====
section
/-! DEFINITION. The commands of classification and of the heats (R227 to R243, R271). -/

namespace Sys2Proof.Machine

/-- A runner takes a received frame (R27, R138, R140, R227 to R236, R240, R243, R268, R271, R279). -/
def execFrameClassify (p : Fin 64) (bytes : List Byte) (st : RxStamp) (sinceSof : Nat) (s : State) :
    Host.Outcome State Fault Refusal :=
  onDie s fun s => classifyFrame s p.val bytes st sinceSof

/-- The scrubber, or a lookup, finds an error in an entry of a slice (R235). -/
def execMouldScrub (slice : Fin 4) (slot : Fin 2) (entry : Fin 32768) (fault : EccFault) (s : State) :
    Host.Outcome State Fault Refusal :=
  onIsland s slice.val fun s => scrubEntry s slice.val slot.val entry.val fault

/-- An uncorrectable entry is rewritten from another slice (R235). -/
def execMouldEntryRewrite (slice : Fin 4) (slot : Fin 2) (entry : Fin 32768) (s : State) :
    Host.Outcome State Fault Refusal :=
  onIsland s slice.val fun s => settle (rewriteEntry s slice.val slot.val entry.val)

/-- A TBL write of a Mould word (R233, R237): the offset in the TBL window. -/
def execMouldEntryWrite (q : Req) (offset : Fin 8388608) (v : Word) (s : State) : Host.Outcome State Fault Refusal :=
  done s (write32 s q (0x2000000 + offset.val) v.toNat)

/-- A guarded HEAT.CTRL LOAD (R237). -/
def execLoad (q : Req) (heat : BitVec 16) (s : State) : Host.Outcome State Fault Refusal :=
  done s (guardedWrite s q A.HEAT_CTRL (heat.toNat * 2 ^ 16 + 1))

/-- The loading slot has been cleared (R237). -/
def execHeatLoadClearDone (s : State) : Host.Outcome State Fault Refusal := onCentral s heatCleared

/-- A guarded HEAT.CTRL SEAL (R237, R238). -/
def execSeal (q : Req) (s : State) : Host.Outcome State Fault Refusal := done s (guardedWrite s q A.HEAT_CTRL 2)

/-- The check of the seal ends (R238, R242). -/
def execHeatSealDone (s : State) : Host.Outcome State Fault Refusal := onCentral s fun s => settle (heatSealed s)

/-- A guarded HEAT.CTRL DISCARD (R237). -/
def execDiscard (q : Req) (s : State) : Host.Outcome State Fault Refusal := done s (guardedWrite s q A.HEAT_CTRL 8)

/-- A guarded HEAT.CTRL COMMIT (R239). -/
def execCommit (q : Req) (heat : BitVec 16) (s : State) : Host.Outcome State Fault Refusal :=
  done s (guardedWrite s q A.HEAT_CTRL (heat.toNat * 2 ^ 16 + 4))

/-- A guarded HEAT.CTRL CANCEL (R239). -/
def execCancel (q : Req) (s : State) : Host.Outcome State Fault Refusal := done s (guardedWrite s q A.HEAT_CTRL 16)

/-- The examination at T − 1 µs (R242). -/
def execHeatCommitExamine (s : State) : Host.Outcome State Fault Refusal := onCentral s fun s => settle (examineCommit s)

/-- The commit at T (R240, R347), with the ports of the frames that are arriving with a timestamp before T (R241). -/
def execHeatCommitExecute (arriving : List (Fin 64)) (s : State) : Host.Outcome State Fault Refusal :=
  onCentral s fun s => settle (commitAtT s (arriving.map Fin.val))

/-- A WAITING commit has waited for HEAT.CFG.WAIT (R242). -/
def execHeatCommitWaitTimeout (s : State) : Host.Outcome State Fault Refusal := onCentral s fun s => settle (commitTimeout s)

/-- The last frame of a DRAINING slot has gone (R241). -/
def execHeatDrainDone (slot : Fin 2) (s : State) : Host.Outcome State Fault Refusal :=
  onCentral s fun s => settle (heatDrained s slot.val)

/-- DRAIN_TMO has passed (R241). -/
def execHeatDrainTimeout (slot : Fin 2) (s : State) : Host.Outcome State Fault Refusal :=
  onCentral s fun s => settle (heatForced s slot.val)

/-- A recirculated frame enters its next pass (R243, R248, R271). -/
def execRecircReentry (slice : Fin 4) (ecc : Option EccFault) (s : State) : Host.Outcome State Fault Refusal :=
  onIsland s slice.val fun s => reenterFrame s slice.val ecc

/-- The punt buckets fill (R236). -/
def execPuntBucketRefill (s : State) : Host.Outcome State Fault Refusal := onCentral s puntRefill

end Sys2Proof.Machine
end

