-- ==== Sys2Proof/Machine/RunLane.lean ====
section
/-! DEFINITION. The commands of the lanes (R70 to R92). -/

namespace Sys2Proof.Machine

/-! Steps of a lane alone; what they do to the port follows in `onLane`. -/

/-- Power-up completes (table Lane states): RESUME when waking from sleep, else SIGNAL_WAIT. -/
def lanePowered (s : State) (l : Nat) : State :=
  if laneState s l ≠ 1 then s
  else if (s.lane l).waking then (setLaneState s l 8).start (.laneResume l) (2 * ms)
  else toSignalWait s l

/-- Signal detect has been held for 1 ms. The 100 ms after a failed attempt pass first (R89). -/
def laneSignal (s : State) (l : Nat) : State :=
  if laneState s l = 9 then setLaneFlag s l 24 true
  else if !laneLive s l then s
  else
    let s := setLaneFlag s l 24 true
    if laneState s l = 2 && !s.runs (.laneRetry l) then toCdrAcq s l else s

/-- Signal detect is lost (R85): no failed attempt. POWERUP and RESUME go on, and TEST does. -/
def laneSignalLost (s : State) (l : Nat) : State :=
  if laneState s l = 9 then setPrbsLock (setLaneFlag (setLaneFlag s l 24 false) l 23 false) l false
  else if !laneLive s l then s
  else if laneState s l = 1 ∨ laneState s l = 8 then setLaneFlag s l 24 false
  else toSignalWait (exitService s l) l

/-- The CDR is locked, with the word-boundary position `phase` (R86). -/
def cdrLocked (s : State) (l phase : Nat) : State := (setLaneFlag s l 23 true).setFld (A.LANE_DESER l) 7 0 phase

/-- The CDR locks in an attempt: ADAPT, with its limit of 100 ms. Where the PMD clause has link training, `training` is the
partner's precoding request (R73). In TEST the checker locks with the CDR (DESIGN CHOICE, assumption 75). -/
def laneLocks (s : State) (l phase : Nat) (training : Option Bool) : State :=
  if laneState s l = 9 then setPrbsLock (cdrLocked s l phase) l (s.bit (A.LANE_TEST l) 2)
  else if laneState s l = 3 && s.runs (.laneCdr l) then
    let s := (setLaneState (cdrLocked (s.stop (.laneCdr l)) l phase) l 4).start (.laneAdapt l) (100 * ms)
    match training with
    | some pre =>
      if mayTrain s l then setPrecode (s.putLane l { s.lane l with training := true, trained := false, trainedPre := pre }) l
      else setPrecode (noTraining s l) l
    | none => setPrecode (noTraining s l) l
  else s

/-- No CDR lock in 2 ms. -/
def laneCdrOut (s : State) (l : Nat) : State :=
  if laneState s l = 3 && s.due (.laneCdr l) then failAttempt s l 1 else s

/-- The receiver has an adapted result (R80). -/
def takeAdapted (s : State) (l : Nat) (w : List Word) : State :=
  (List.range 7).foldl (fun s i => s.wr (A.LANE_EQ_ADP l i) (eqWord i (w.getD i 0).toNat)) s

/-- Adaptation converges: in ADAPT, CHECK follows, and training that runs ends with the partner's last precoding request.
In RECOVER_HOLD and TEST it goes on (R80). -/
def laneAdapted (s : State) (l : Nat) (w : List Word) (pre : Bool) : State :=
  if laneState s l = 4 then
    let s := takeAdapted (s.stop (.laneAdapt l)) l w
    let h := s.lane l
    let s := if h.training then
        s.putLane l { h with training := false, trained := true, trainedTx := w.getD 0 0, trainedPre := pre }
      else s
    setLaneState (setPrecode s l) l 5
  else if laneState s l = 7 ∨ laneState s l = 9 then takeAdapted s l w
  else s

/-- Adaptation, or training, has not converged in its limit. Where training runs, the limit is that of its clause, which
the manual does not give. -/
def laneAdaptOut (s : State) (l : Nat) : State :=
  if laneState s l = 4 && (s.due (.laneAdapt l) || (s.lane l).training) then failAttempt s l 2 else s

/-- CHECK ends. -/
def laneChecked (s : State) (l : Nat) : State := if laneState s l = 5 then finishCheck s l else s

/-- 1 s has passed in RECOVER_HOLD. -/
def laneRecheck (s : State) (l : Nat) : State :=
  if laneState s l = 7 && s.due (.laneRecheck l) then startCheck s l else s

/-- 100 ms after a failed attempt. -/
def laneRetry (s : State) (l : Nat) : State :=
  if s.due (.laneRetry l) && (laneState s l = 3 || laneState s l = 2) then toCdrAcq (s.stop (.laneRetry l)) l else s

/-- SERVICE ends by a loss of `cause`. -/
def laneDrops (s : State) (l cause : Nat) : State := if inService s l then dropFromService s l cause else s

/-- The CDR loses lock: SERVICE ends, and in TEST the checker loses its lock too. -/
def cdrLost (s : State) (l : Nat) : State :=
  if laneState s l = 9 then setPrbsLock (setLaneFlag s l 23 false) l false else laneDrops s l 3

/-- Block lock of a trunk lane, after 64 consecutive valid sync headers (R74). -/
def blockLocks (s : State) (l : Nat) (headers : List Nat) : State :=
  if laneFlag s l 14 && laneFlag s l 23 && givesBlockLock headers then setLaneFlag s l 22 true else s

/-- Block lock is lost, by 16 invalid sync headers within 64 blocks (R74, R85). -/
def blockUnlocks (s : State) (l : Nat) (headers : List Nat) : State :=
  if !laneFlag s l 22 || !losesBlockLock headers then s
  else if inService s l then dropFromService (setLaneFlag s l 22 false) l 4
  else setLaneFlag s l 22 false

/-- Errors attributed to the lane within 1 ms (R85); ERR_LIM = 0 disables the limit. In TEST they are those of the checker,
and only TEST_ERR counts them. -/
def laneErrors (s : State) (l n : Nat) : State :=
  if laneState s l = 9 then (if s.bit (A.LANE_TEST l) 2 then s.add64 (A.LANE_TEST_ERR_LO l) n else s) else
  let lim := s.fld (A.LANE_MON l) 31 16
  let s := countLaneErrors s l n
  if lim ≠ 0 ∧ lim ≤ n then laneDrops s l 5 else s

/-- In RESUME, the CDR locks on the table set: SERVICE, where the set is valid (R77). -/
def laneResumes (s : State) (l phase : Nat) : State :=
  if laneState s l ≠ 8 then s
  else
    let s := cdrLocked (setLaneFlag s l 24 true) l phase
    if eqValid s l (eqSet (laneMode s l)) then enterService s l else s

/-- RESUME has not locked in 2 ms. -/
def laneResumeOut (s : State) (l : Nat) : State :=
  if laneState s l = 8 && s.due (.laneResume l) then
    toCdrAcq ((s.stop (.laneResume l)).putLane l { s.lane l with waking := false }) l
  else s

/-- A bit slip in SERVICE (R86). -/
def laneSlip (s : State) (l : Nat) : State :=
  if inService s l then setDlyValid (s.putLane l { s.lane l with noSlip := false }) l else s

/-! The commands. -/

/-- Lane power-up completes (R85, R66). -/
def execLanePowerupDone (l : Fin 512) (s : State) : Host.Outcome State Fault Refusal := onLane s l.val fun s => lanePowered s l.val

/-- Signal detect has been held for 1 ms (R85). -/
def execLaneSignalDetect (l : Fin 512) (s : State) : Host.Outcome State Fault Refusal := onLane s l.val fun s => laneSignal s l.val

/-- Signal detect is lost (R85). -/
def execLaneSignalLoss (l : Fin 512) (s : State) : Host.Outcome State Fault Refusal := onLane s l.val fun s => laneSignalLost s l.val

/-- The CDR locks in CDR_ACQ (R85, R86). -/
def execLaneCdrLock (l : Fin 512) (phase : BitVec 8) (training : Option Bool) (s : State) :
    Host.Outcome State Fault Refusal :=
  onLane s l.val fun s => laneLocks s l.val phase.toNat training

/-- No CDR lock within 2 ms (R89). -/
def execCdrAcqTimeout (l : Fin 512) (s : State) : Host.Outcome State Fault Refusal := onLane s l.val fun s => laneCdrOut s l.val

/-- Adaptation converges (R73, R80, R85). -/
def execAdaptConverged (l : Fin 512) (adapted : Vector Word 7) (txPrecode : Bool) (s : State) :
    Host.Outcome State Fault Refusal :=
  onLane s l.val fun s => laneAdapted s l.val adapted.toList txPrecode

/-- Adaptation or training has not converged (R89). -/
def execAdaptTimeout (l : Fin 512) (s : State) : Host.Outcome State Fault Refusal := onLane s l.val fun s => laneAdaptOut s l.val

/-- CHECK compares (R79, R81, R82, R84). -/
def execLaneCheckDone (l : Fin 512) (s : State) : Host.Outcome State Fault Refusal := onLane s l.val fun s => laneChecked s l.val

/-- CHECK is repeated (R81, R85). -/
def execLaneRecheckTimer (l : Fin 512) (s : State) : Host.Outcome State Fault Refusal := onLane s l.val fun s => laneRecheck s l.val

/-- CDR lock is lost in SERVICE (R85, R89). -/
def execLaneCdrLoss (l : Fin 512) (s : State) : Host.Outcome State Fault Refusal := onLane s l.val fun s => cdrLost s l.val

/-- Block lock of a trunk lane (R74). -/
def execBlockLockAcquired (l : Fin 512) (headers : List (BitVec 2)) (s : State) : Host.Outcome State Fault Refusal :=
  onLane s l.val fun s => blockLocks s l.val (headers.map BitVec.toNat)

/-- Block lock is lost (R74, R89). -/
def execBlockLockLoss (l : Fin 512) (headers : List (BitVec 2)) (s : State) : Host.Outcome State Fault Refusal :=
  onLane s l.val fun s => blockUnlocks s l.val (headers.map BitVec.toNat)

/-- The errors of 1 ms (R85, R89). -/
def execLaneErrorLimit (l : Fin 512) (errors : Nat) (s : State) : Host.Outcome State Fault Refusal :=
  onLane s l.val fun s => laneErrors s l.val errors

/-- 100 ms after a failed attempt (R89). -/
def execLaneRetryTimer (l : Fin 512) (s : State) : Host.Outcome State Fault Refusal := onLane s l.val fun s => laneRetry s l.val

/-- The CDR locks in RESUME (R85). -/
def execResumeLock (l : Fin 512) (phase : BitVec 8) (s : State) : Host.Outcome State Fault Refusal :=
  onLane s l.val fun s => laneResumes s l.val phase.toNat

/-- RESUME without lock (R85). -/
def execResumeTimeout (l : Fin 512) (s : State) : Host.Outcome State Fault Refusal := onLane s l.val fun s => laneResumeOut s l.val

/-- A write of LANE.CTRL.RETRAIN (R85). -/
def execRetrain (q : Req) (l : Fin 512) (s : State) : Host.Outcome State Fault Refusal :=
  done s (write32 s q (A.LANE_CTRL l.val) (s.rd (A.LANE_CTRL l.val) + 0x8000))

/-- A write of LANE.CTRL (R73, R75, R85). -/
def execLaneCtrlWrite (q : Req) (l : Fin 512) (v : Word) (s : State) : Host.Outcome State Fault Refusal :=
  done s (write32 s q (A.LANE_CTRL l.val) v.toNat)

/-- A write of a table word (R76, R77, R83, R84). -/
def execLaneEqTableWrite (q : Req) (l : Fin 512) (m : Fin 3) (w : Fin 7) (v : Word) (s : State) :
    Host.Outcome State Fault Refusal :=
  done s (write32 s q (A.LANE_EQ_TBL l.val m.val w.val) v.toNat)

/-- A write of LANE.EQ_VALID (R77, R84). -/
def execLaneEqValidWrite (q : Req) (l : Fin 512) (v : Word) (s : State) : Host.Outcome State Fault Refusal :=
  done s (write32 s q (A.LANE_EQ_VALID l.val) v.toNat)

/-- A write of LANE.TEST (R92). -/
def execLaneTestWrite (q : Req) (l : Fin 512) (v : Word) (s : State) : Host.Outcome State Fault Refusal :=
  done s (write32 s q (A.LANE_TEST l.val) v.toNat)

/-- A guarded LANE.FAULT_CTRL.UNRETIRE (R90). -/
def execUnretire (q : Req) (l : Fin 512) (s : State) : Host.Outcome State Fault Refusal :=
  done s (guardedWrite s q (A.LANE_FAULT_CTRL l.val) 1)

/-- A guarded LANE.FAULT_CTRL.CLR_TOTAL (R90). -/
def execClrTotal (q : Req) (l : Fin 512) (s : State) : Host.Outcome State Fault Refusal :=
  done s (guardedWrite s q (A.LANE_FAULT_CTRL l.val) 2)

/-- A bit slip (R86). -/
def execLaneBitSlip (l : Fin 512) (s : State) : Host.Outcome State Fault Refusal := onLane s l.val fun s => laneSlip s l.val

end Sys2Proof.Machine
end

