-- ==== Sys2Proof/Machine/RunPort.lean ====
section
/-! DEFINITION. The commands of the ports, the trunks and the modules (R94 to R121, R414). -/

namespace Sys2Proof.Machine

/-- A write of PORT.CFG (R94, R95, R97). -/
def execPortCfgWrite (q : Req) (p : Fin 64) (v : Word) (s : State) : Host.Outcome State Fault Refusal :=
  done s (write32 s q (A.PORT_CFG p.val) v.toNat)

/-- A write of PORT.CTRL.ENABLE (R92, R95, R114 to R116). -/
def execPortEnableWrite (q : Req) (p : Fin 64) (enable : Bool) (s : State) : Host.Outcome State Fault Refusal :=
  done s (write32 s q (A.PORT_CTRL p.val) (bit01 enable))

/-- A write of PORT.CTRL.RESTART (R102, R114), with ENABLE as it is. -/
def execRestart (q : Req) (p : Fin 64) (s : State) : Host.Outcome State Fault Refusal :=
  done s (write32 s q (A.PORT_CTRL p.val) (2 + bit01 (portEnabled s p.val)))

/-- Link OK in BRINGUP (R114). -/
def execPortLinkUp (p : Fin 64) (s : State) : Host.Outcome State Fault Refusal := onPort s p.val fun s => settle (linkUp s p.val)

/-- The link is lost in UP (R114, R115). -/
def execPortLinkLoss (p : Fin 64) (s : State) : Host.Outcome State Fault Refusal :=
  onPort s p.val fun s => if portUp s p.val then settle (startQuench s p.val false) else s

/-- The quench ends (R114 to R116). -/
def execQuenchDone (p : Fin 64) (s : State) : Host.Outcome State Fault Refusal := onPort s p.val fun s => settle (quenchDone s p.val)

/-- Clause 73 auto-negotiation ends (R98): the partner's technology abilities, by port type, and its FEC abilities for
E25_1. -/
def execAnComplete (p : Fin 64) (common : BitVec 16) (fec : BitVec 2) (s : State) : Host.Outcome State Fault Refusal :=
  onPort s p.val fun s => settle (anComplete s p.val common.toNat fec.toNat)

/-- Negotiation restarts (R98). -/
def execAnRestartTimer (p : Fin 64) (s : State) : Host.Outcome State Fault Refusal := onPort s p.val fun s => settle (anRestart s p.val)

/-- Four blocks of port lane 0 in which a step-up page can stand (R99 to R102): sync header and payload. -/
def execStepupPageRx (p : Fin 64) (blocks : List (BitVec 2 × List Byte)) (s : State) : Host.Outcome State Fault Refusal :=
  onPort s p.val fun s => match pageOf blocks with | some b => settle (stepUpPage s p.val b) | none => s

/-- No valid page in 2 s (R102). -/
def execStepupNoPartnerTimeout (p : Fin 64) (s : State) : Host.Outcome State Fault Refusal :=
  onPort s p.val fun s => settle (stepUpNoPartner s p.val)

/-- Link OK in SU_SLOW (R102). -/
def execStepupSlowLinkOk (p : Fin 64) (s : State) : Host.Outcome State Fault Refusal :=
  onPort s p.val fun s => settle (stepUpSlowOk s p.val)

/-- SU_SLOW without link for 1 s (R102). -/
def execStepupSlowTimeout (p : Fin 64) (s : State) : Host.Outcome State Fault Refusal :=
  onPort s p.val fun s => settle (stepUpSlowOut s p.val)

/-- QUAL is complete (R102). -/
def execStepupQualDone (p : Fin 64) (s : State) : Host.Outcome State Fault Refusal :=
  onPort s p.val fun s => settle (stepUpQualified s p.val)

/-- Link OK in SU_FAST (R102). -/
def execStepupFastLinkOk (p : Fin 64) (s : State) : Host.Outcome State Fault Refusal :=
  onPort s p.val fun s => settle (stepUpFastOk s p.val)

/-- SU_FAST without link for 1 s (R102). -/
def execStepupFastTimeout (p : Fin 64) (s : State) : Host.Outcome State Fault Refusal :=
  onPort s p.val fun s => settle (stepUpFastOut s p.val)

/-- A step-up hold is tried again (R102). -/
def execStepupHoldRetry (p : Fin 64) (s : State) : Host.Outcome State Fault Refusal :=
  onPort s p.val fun s => settle (stepUpRetry s p.val)

/-- The markers of a period leave (R103, R106, R111). -/
def execTrunkMarkerTx (p : Fin 64) (s : State) : Host.Outcome State Fault Refusal := onPort s p.val fun s => settle (markerTx s p.val)

/-- A lane marker arrives (R104 to R106, R111, R135). -/
def execTrunkMarkerRx (p : Fin 64) (lane : Fin 8) (block : Nat) (sync0 : BitVec 2) (bytes : List Byte) (arrival : Nat)
    (s : State) : Host.Outcome State Fault Refusal :=
  onPort s p.val fun s => settle (markerRx s p.val lane.val block sync0.toNat (toNats bytes) arrival)

/-- A link block leaves (R107 to R109, R111). -/
def execTrunkBlockTx (p : Fin 64) (s : State) : Host.Outcome State Fault Refusal := onPort s p.val fun s => settle (blockTx s p.val)

/-- A link block arrives (R107 to R111). The frames that it completes wait for FRAME_CLASSIFY, which carries their
stamps. -/
def execTrunkBlockRx (p : Fin 64) (bytes : List Byte) (s : State) : Host.Outcome State Fault Refusal :=
  onPort s p.val fun s => settle (blockRx s p.val (toNats bytes))

/-- A HELLO leaves (R107, R112). -/
def execTrunkHelloTx (p : Fin 64) (s : State) : Host.Outcome State Fault Refusal := onPort s p.val fun s => helloTx s p.val

/-- A HELLO arrives (R106, R107, R110, R112). -/
def execTrunkHelloRx (p : Fin 64) (bytes : List Byte) (s : State) : Host.Outcome State Fault Refusal :=
  onPort s p.val fun s => settle (helloRx s p.val (toNats bytes))

/-- 5 ms after the first marker lock (R112). -/
def execTrunkAlignTimeout (p : Fin 64) (s : State) : Host.Outcome State Fault Refusal :=
  onPort s p.val fun s => settle (alignTimeout s p.val)

/-- 10 ms without a HELLO (R112). -/
def execTrunkHelloTimeout (p : Fin 64) (s : State) : Host.Outcome State Fault Refusal :=
  onPort s p.val fun s => settle (helloTimeout s p.val)

/-- A NODE_CONFLICT hold of a trunk is tried again (R112). -/
def execTrunkConflictRetry (p : Fin 64) (s : State) : Host.Outcome State Fault Refusal :=
  onPort s p.val fun s => settle (conflictRetry s p.val)

/-- A PFC frame arrives (R113, R265). -/
def execPfcFrameRx (p : Fin 64) (vector : BitVec 8) (quanta : Vector (BitVec 16) 8) (s : State) :
    Host.Outcome State Fault Refusal :=
  onPort s p.val fun s => pfcReceive s p.val vector.toNat (quanta.toList.map (·.toNat))

/-- A pause has elapsed (R113). -/
def execPfcPauseExpiry (p : Fin 64) (c : Fin 8) (s : State) : Host.Outcome State Fault Refusal :=
  onPort s p.val fun s => pfcExpire s p.val c.val

/-- A PAUSE or other MAC control frame arrives (R96). Its opcode does not matter. -/
def execMacControlRx (p : Fin 64) (opcode : BitVec 16) (s : State) : Host.Outcome State Fault Refusal :=
  onPort s p.val fun s => if opcode = 0x0101 then s else macControl s p.val

/-- The sideband chain is scanned (R120, R414). -/
def execSidebandScan (prsN intN : BitVec 64) (s : State) : Host.Outcome State Fault Refusal :=
  onAwake s fun s => settle (sidebandScan s prsN.toNat intN.toNat)

/-- A module reaches DataPathActivated (R120). -/
def execModuleDatapathActivated (p : Fin 64) (s : State) : Host.Outcome State Fault Refusal :=
  onFirmware s fun s => settle (moduleActivated s p.val)

/-- An uncorrectable codeword in QUAL (R102). -/
def execStepupQualCodewordError (p : Fin 64) (s : State) : Host.Outcome State Fault Refusal :=
  onPort s p.val fun s => stepUpCodeword s p.val

/-- A link fault in QUAL (R102). -/
def execStepupQualLinkFault (p : Fin 64) (s : State) : Host.Outcome State Fault Refusal :=
  onPort s p.val fun s => settle (stepUpFault s p.val)

end Sys2Proof.Machine
end

