-- ==== Sys2Proof/Machine/RunPower.lean ====
section
/-! DEFINITION. The commands of the supplies, resets, start-up, governor and sleep (R34 to R69, R259, R419). The boot ROM,
which reads and applies an image, runs in the island of the management complex. -/

namespace Sys2Proof.Machine

/-- VIN_KA rises (R35). -/
def execVinKaRise (s : State) : Host.Outcome State Fault Refusal := done s (kaRise s)

/-- VIN_KA falls (R36). -/
def execVinKaLoss (s : State) : Host.Outcome State Fault Refusal := onKeep s kaLoss

/-- VIN_MAIN falls below its loss threshold (R37). -/
def execVinMainLoss (s : State) : Host.Outcome State Fault Refusal := done s (if s.power.main then mainLoss s else s)

/-- The data-die junction is too hot (R419). -/
def execThermalTrip (s : State) : Host.Outcome State Fault Refusal := onDie s thermalTrip

/-- The conditions of R34 hold: the data die starts, after a thermal trip only where its junction lies below 110 °C
(R419). -/
def execDataDieStart (cool : Bool) (s : State) : Host.Outcome State Fault Refusal := done s (startDie s cool)

/-- RESET_N is low for 1 µs (R44). -/
def execResetNAssert (s : State) : Host.Outcome State Fault Refusal := done s (resetNLow s)

/-- RESET_N rises (R44). -/
def execResetNRelease (s : State) : Host.Outcome State Fault Refusal := done s (resetNHigh s)

/-- A guarded PWR.RST_CTRL.WARM (R45). -/
def execWarmReset (q : Req) (s : State) : Host.Outcome State Fault Refusal := done s (guardedWrite s q A.PWR_RST_CTRL 1)

/-- A guarded PWR.RST_CTRL.TIMING (R45). -/
def execTimingReset (q : Req) (s : State) : Host.Outcome State Fault Refusal := done s (guardedWrite s q A.PWR_RST_CTRL 2)

/-- A PCIe hot reset or function-level reset (R46). -/
def execHostReset (s : State) : Host.Outcome State Fault Refusal := onDie s hostReset

/-- The fuses have been read (R46, R48). -/
def execFuseReadDone (ok : Bool) (bootSel : Fin 4) (refclk : Bool) (s : State) : Host.Outcome State Fault Refusal :=
  onDie s fun s => settle (fusesRead s ok bootSel.val refclk)

/-- SFDP, header and section table have been read (R48, R49, R55 to R57). -/
def execImageHeaderRead (sfdp0 sfdp1 header table : List Byte) (s : State) : Host.Outcome State Fault Refusal :=
  onFirmware s fun s => settle (headerRead s (toNats sfdp0) (toNats sfdp1) (toNats header) (toNats table))

/-- A section's payload has been read (R50, R51, R57, R59, R225). -/
def execSectionLoad (payload reread trim0 trim1 : List Byte) (s : State) : Host.Outcome State Fault Refusal :=
  onFirmware s fun s => settle (sectionLoad s (toNats payload) (toNats reread) (toNats trim0) (toNats trim1))

/-- A WRITE record (R52, R58). -/
def execRegscriptWrite (s : State) : Host.Outcome State Fault Refusal := onFirmware s scriptWrite

/-- A GUARDED record (R52, R58). -/
def execRegscriptGuarded (s : State) : Host.Outcome State Fault Refusal := onFirmware s scriptGuarded

/-- A WAIT record (R58). -/
def execRegscriptWait (s : State) : Host.Outcome State Fault Refusal := onFirmware s scriptWait

/-- The pause of a WAIT record has passed (R58). -/
def execRegscriptWaitDone (s : State) : Host.Outcome State Fault Refusal := onFirmware s scriptWaitDone

/-- A TABLE chunk (R60). -/
def execTableChunk (s : State) : Host.Outcome State Fault Refusal := onFirmware s tableNext

/-- The firmware is loaded and started (R61). -/
def execFirmwareStart (s : State) : Host.Outcome State Fault Refusal := onFirmware s firmwareStart

/-- The firmware reports ready (R47). -/
def execFirmwareReady (s : State) : Host.Outcome State Fault Refusal := onFirmware s firmwareReady

/-- The firmware has not reported ready in 100 ms (R47). -/
def execFirmwareReadyTimeout (s : State) : Host.Outcome State Fault Refusal := onDie s fun s => settle (firmwareTimeout s)

/-- HBM3E training ends (R259). -/
def execHbmTrainingDone (ok : BitVec 4) (s : State) : Host.Outcome State Fault Refusal := onDie s fun s => hbmTrained s ok.toNat

/-- The data die enters RUN (R47). -/
def execDataDieRelease (s : State) : Host.Outcome State Fault Refusal := onDie s fun s => settle (dieRelease s)

/-- The reset of FALLBACK ends (R48). -/
def execFallbackResetDone (s : State) : Host.Outcome State Fault Refusal := onDie s fallbackDone

/-- A guarded GLB.BOOT_CTRL GO (R53). -/
def execBootGo (q : Req) (sel : BitVec 2) (s : State) : Host.Outcome State Fault Refusal :=
  done s (guardedWrite s q A.GLB_BOOT_CTRL (2 * sel.toNat + 1))

/-- The 10 µs sample of input power and supply voltages (R39, R41). -/
def execGovPowerSample (mw : Nat) (vmain vka : BitVec 10) (s : State) : Host.Outcome State Fault Refusal :=
  onDie s fun s => settle (govSample s mw vmain.toNat vka.toNat)

/-- The governor limit becomes active (R38, R40). -/
def execGovLimitEntry (s : State) : Host.Outcome State Fault Refusal := onDie s fun s => settle (govLimit s true)

/-- The governor limit becomes inactive (R38). -/
def execGovLimitExit (s : State) : Host.Outcome State Fault Refusal := onDie s fun s => settle (govLimit s false)

/-- The next port is shed (R39, R42). -/
def execGovShedTick (s : State) : Host.Outcome State Fault Refusal := onDie s fun s => settle (govShed s)

/-- Power has stayed below 90 % of the cap for 1 ms (R41). -/
def execGovBelowCapTimeout (s : State) : Host.Outcome State Fault Refusal := onDie s fun s => settle (govBelow s)

/-- The next shed port is restored (R41 to R43). -/
def execGovRestoreTick (s : State) : Host.Outcome State Fault Refusal := onDie s fun s => settle (govRestoreOne s)

/-- A write of PWR.GOV_CTRL (R41). -/
def execGovCapWrite (q : Req) (v : Word) (s : State) : Host.Outcome State Fault Refusal :=
  done s (write32 s q A.PWR_GOV_CTRL v.toNat)

/-- The ramp of the slice loops ends (R39, R181). -/
def execGovClockRampDone (s : State) : Host.Outcome State Fault Refusal := onDie s fun s => settle (govRampDone s)

/-- A guarded PWR.SLEEP_CTRL.ENTER (R63). -/
def execSleepEnter (q : Req) (s : State) : Host.Outcome State Fault Refusal := done s (guardedWrite s q A.PWR_SLEEP_CTRL 1)

/-- The drain time ends (R63, R117). -/
def execSleepDrainDone (s : State) : Host.Outcome State Fault Refusal := onDie s fun s => settle (sleepDrained s)

/-- Sleep entry is complete (R63, R68). -/
def execSleepEntryComplete (s : State) : Host.Outcome State Fault Refusal := onDie s fun s => settle (sleepEntered s)

/-- A guarded PWR.SLEEP_CTRL.WAKE (R65). -/
def execSleepWake (q : Req) (s : State) : Host.Outcome State Fault Refusal := done s (guardedWrite s q A.PWR_SLEEP_CTRL 2)

/-- TB0 reaches PWR.WAKE_TIME (R65). -/
def execWakeTimeReached (s : State) : Host.Outcome State Fault Refusal := onDie s fun s => settle (wakeTimed s)

/-- 25 ms after the wake time (R66, R117). -/
def execWakeComplete (ready : BitVec 64) (s : State) : Host.Outcome State Fault Refusal :=
  onDie s fun s => settle (wakeDone s ready.toNat)

/-- VIN_MAIN rises (R34, R68). -/
def execVinMainRise (s : State) : Host.Outcome State Fault Refusal := done s (mainRise s)

end Sys2Proof.Machine
end

