-- ==== Sys2Proof/Machine/RunPulse.lean ====
section
/-! DEFINITION. The commands of the pulse outputs and the interval converters (R187 to R206). -/

namespace Sys2Proof.Machine

/-- A write of PLS.ARM (R187 to R190). -/
def execPlsArm (q : Req) (mask : Word) (s : State) : Host.Outcome State Fault Refusal := done s (write32 s q A.PLS_ARM mask.toNat)

/-- A write of PLS.STOP (R189). -/
def execPlsStop (q : Req) (mask : Word) (s : State) : Host.Outcome State Fault Refusal := done s (write32 s q A.PLS_STOP mask.toNat)

/-- A write of OUTk_CFG (R187, R189). -/
def execPlsDisable (q : Req) (k : Fin 32) (v : Word) (s : State) : Host.Outcome State Fault Refusal :=
  done s (write32 s q (A.PLS_OUT_CFG k.val) v.toNat)

/-- A rising edge falls due (R192, R194, R195). -/
def execPlsRisingEdge (k : Fin 32) (s : State) : Host.Outcome State Fault Refusal := onTclk s fun s => plsRise s k.val

/-- A falling edge falls due (R189, R190, R192). -/
def execPlsFallingEdge (k : Fin 32) (s : State) : Host.Outcome State Fault Refusal := onTclk s fun s => plsFall s k.val

/-- A fire request (R193). -/
def execPlsExtRequest (k : Fin 32) (fire : Nat) (s : State) : Host.Outcome State Fault Refusal :=
  onTclk s fun s => extRequest s k.val fire

/-- An edge of the alignment source, at its land (R195). -/
def execPlsAlignEdge (k : Fin 32) (falling : Bool) (late : Fin 2000) (s : State) : Host.Outcome State Fault Refusal :=
  onTclk s fun s => plsAlign s k.val falling late.val

/-- The trim of a pulse output is installed (R198, R221). -/
def execPlsTrimInstall (k : Fin 32) (s : State) : Host.Outcome State Fault Refusal := onTclk s fun s => calPulseInstall s k.val

/-- A write of TDC.ARM_ALL (R201). -/
def execTdcArm (q : Req) (mask : BitVec 16) (s : State) : Host.Outcome State Fault Refusal :=
  done s (write32 s q A.TDC_ARM_ALL mask.toNat)

/-- A write of CHi_CTRL.ABORT (R201). -/
def execTdcAbort (q : Req) (i : Fin 16) (s : State) : Host.Outcome State Fault Refusal :=
  done s (write32 s q (A.TDC_CH_CTRL i.val) 2)

/-- An edge of a gate (R201). -/
def execTdcGateEdge (g : Fin 4) (high : Bool) (fine : Fin 256) (s : State) : Host.Outcome State Fault Refusal :=
  onTclk s fun s => gateEdge s g.val high fine.val

/-- An edge on TDCINi (R201). -/
def execTdcInputEdge (i : Fin 16) (falling taken : Bool) (fine : Fin 256) (s : State) : Host.Outcome State Fault Refusal :=
  onTclk s fun s => inputEdge s i.val falling taken fine.val

/-- WIN after the start has passed (R201). -/
def execTdcWindowExpiry (i : Fin 16) (s : State) : Host.Outcome State Fault Refusal := onTclk s fun s => windowEnd s i.val

/-- The results of a measurement are stored (R202, R203, R205, R206). -/
def execTdcMeasStore (i : Fin 16) (codesAgree : Bool) (s : State) : Host.Outcome State Fault Refusal :=
  onTclk s fun s => measStore s i.val codesAgree

/-- 20 ns after the end of a measurement (R201). -/
def execTdcRearmTimer (i : Fin 16) (s : State) : Host.Outcome State Fault Refusal := onTclk s fun s => tdcRearm s i.val

/-- A write of CHi_CTRL.STAT_GO (R205). -/
def execStatGo (q : Req) (i : Fin 16) (s : State) : Host.Outcome State Fault Refusal :=
  done s (write32 s q (A.TDC_CH_CTRL i.val) 4)

/-- A guarded TDC.UNRETIRE (R206). -/
def execTdcUnretire (q : Req) (mask : BitVec 16) (s : State) : Host.Outcome State Fault Refusal :=
  done s (guardedWrite s q A.TDC_UNRETIRE mask.toNat)

/-- A write of CHi_CFG (R201). -/
def execTdcChannelEnable (q : Req) (i : Fin 16) (v : Word) (s : State) : Host.Outcome State Fault Refusal :=
  done s (write32 s q (A.TDC_CH_CFG i.val) v.toNat)

end Sys2Proof.Machine
end

