-- ==== Sys2Proof/Machine/RunQueue.lean ====
section
/-! DEFINITION. The commands of the buffers, the queues and the deep tier (R244 to R273). -/

namespace Sys2Proof.Machine

/-- The first cell of a frame asks for admission (R252 to R254, R260 to R263, R272, R275 to R282); before it, a frame that
the host or the management complex injects joins those that wait (R247, R294). -/
def execFrameAdmit (injected : Option Injected) (s : State) : Host.Outcome State Fault Refusal :=
  onCentral s fun s => admitNext (match injected with | some x => injectOuter s x | none => s)

/-- An announced pause is half over (R262). -/
def execPfcXoffRepeat (p : Fin 64) (c : Fin 8) (s : State) : Host.Outcome State Fault Refusal :=
  onPort s p.val fun s => pfcRepeatTick s p.val c.val

/-- A frame boundary (R266), or an ECC error in a cell of a frame that is to leave or is leaving (R248). -/
def selectFrame (s : State) (p : Nat) (ecc : Option EccFault) (firstCellLeft : Bool) : State :=
  match ecc, firstCellLeft with
  | none, _ => egressSelect s p
  | some e, false => egressEcc s p e
  | some .single, true => if (transmitting s p).isSome then eccSingle s else s
  | some .uncorrectable, true => egressStomp s p

/-- A port serves its queues (R27, R139, R248, R251, R266 to R270, R277). -/
def execEgressFrameSelect (p : Fin 64) (ecc : Option EccFault) (firstCellLeft : Bool) (s : State) :
    Host.Outcome State Fault Refusal :=
  onEgress s p.val fun s => selectFrame s p.val ecc firstCellLeft

/-- A frame or copy has left (R241, R250, R260 to R262). -/
def execFrameDepart (p : Fin 64) (s : State) : Host.Outcome State Fault Refusal :=
  onEgress s p.val fun s => if txDone s p.val then departFrame s p.val else s

/-- The shapers fill (R267). -/
def execShaperRefill (s : State) : Host.Outcome State Fault Refusal :=
  onCentral s fun s => (List.range 64).foldl refillPort s

/-- The mover writes a staged cell (R248, R255). -/
def execDeepCellWrite (region : Fin 896) (ecc : Option EccFault) (s : State) : Host.Outcome State Fault Refusal :=
  onCentral s fun s => if regionRuns s region.val then writeDeep s region.val ecc else s

/-- The mover reads a deep cell back (R254, R256). -/
def execDeepPrefetchRead (s : State) : Host.Outcome State Fault Refusal := onCentral s prefetchDeep

/-- A deep cell has been read (R257, R258). -/
def execDeepCellRead (p : Fin 64) (q : Fin 16) (reads : Vector CellRead 3) (s : State) :
    Host.Outcome State Fault Refusal :=
  onCentral s fun s => readDeep s p.val q.val reads.toList

/-- A guarded DBF.UNRETIRE with GO (R258). -/
def execDbfUnretire (q : Req) (region : BitVec 10) (s : State) : Host.Outcome State Fault Refusal :=
  done s (guardedWrite s q A.DBF_UNRETIRE (2 ^ 31 + region.toNat))

end Sys2Proof.Machine
end

