-- ==== Sys2Proof/Machine/RunSpread.lean ====
section
/-! DEFINITION. The commands of spreading, the Riser, the Ladle and latency-locked delivery (R274 to R312). -/

namespace Sys2Proof.Machine

/-- A tagged frame, or a placeholder, reaches its Riser context (R284, R285, R287). -/
def execRiserFrameArrival (s : State) : Host.Outcome State Fault Refusal := onCentral s riserArrive

/-- The oldest held frame of a context has reached TMO (R286, R287). -/
def execRiserTimeout (c : Fin 4096) (s : State) : Host.Outcome State Fault Refusal := onCentral s fun s => riserExpire s c.val

/-- A write of CTXc_CFG that clears EN (R288). -/
def execRiserContextDisable (q : Req) (c : Fin 4096) (v : Word) (s : State) : Host.Outcome State Fault Refusal :=
  done s (write32 s q (A.RSQ_CTX_CFG c.val) v.toNat)

/-- A write of CTXc_CFG that sets EN (R288). -/
def execRiserContextEnable (q : Req) (c : Fin 4096) (v : Word) (s : State) : Host.Outcome State Fault Refusal :=
  done s (write32 s q (A.RSQ_CTX_CFG c.val) v.toNat)

/-- A write of GRPg_CTRL.RST_SEQ (R278). -/
def execRstSeq (q : Req) (g : Fin 32) (s : State) : Host.Outcome State Fault Refusal :=
  done s (write32 s q (A.SPR_GRP_CTRL g.val) 1)

/-- A write of GRPg_CFG (R274, R278). -/
def execLagGroupEnable (q : Req) (g : Fin 32) (v : Word) (s : State) : Host.Outcome State Fault Refusal :=
  done s (write32 s q (A.SPR_GRP_CFG g.val) v.toNat)

/-- A write of GRPg_MEMm (R274, R282, R283). -/
def execLagMemberWrite (q : Req) (g : Fin 32) (m : Fin 16) (v : Word) (s : State) : Host.Outcome State Fault Refusal :=
  done s (write32 s q (A.SPR_GRP_MEM g.val m.val) v.toNat)

/-- A TBL write of a word of a pin table (R280, R282). -/
def execPinTableWrite (q : Req) (g : Fin 32) (w : Fin 64) (v : Word) (s : State) : Host.Outcome State Fault Refusal :=
  done s (write32 s q (A.TBL_PIN g.val w.val) v.toNat)

/-- A hold whose bucket has no frame left on the old member ends (R282). -/
def holdEnds (s : State) (g b : Nat) : State :=
  match holdOf s g b with
  | some h => if onMember s g b h.old then s else releaseHold s g b
  | none => s

/-- No frame of the bucket remains on the old member (R282). -/
def execMigrationHoldEnd (g : Fin 32) (bucket : BitVec 8) (s : State) : Host.Outcome State Fault Refusal :=
  onCentral s fun s => holdEnds s g.val bucket.toNat

/-- A hold has reached MIG_CFG.TMO (R282). -/
def holdExpires (s : State) (g b : Nat) : State :=
  if s.due (.migration g b) && (holdOf s g b).isSome then sprEvent (releaseHold s g b) 4 else s

/-- A migration hold times out (R282). -/
def execMigrationHoldTimeout (g : Fin 32) (bucket : BitVec 8) (s : State) : Host.Outcome State Fault Refusal :=
  onCentral s fun s => holdExpires s g.val bucket.toNat

/-- A draining member has no frames left (R283). -/
def execMemberOut (g : Fin 32) (m : Fin 16) (s : State) : Host.Outcome State Fault Refusal :=
  onCentral s fun s => if memberGone s g.val m.val then memberLeaves s g.val m.val else s

/-- A write of word 0, 1 or 2 of a Ladle group entry (R290). -/
def execLadleGroupStage (q : Req) (i : Fin 16384) (w : Fin 3) (v : Word) (s : State) : Host.Outcome State Fault Refusal :=
  done s (write32 s q (A.TBL_LADLE i.val w.val) v.toNat)

/-- A write of word 3 of a Ladle group entry (R290). -/
def execLadleGroupCommit (q : Req) (i : Fin 16384) (v : Word) (s : State) : Host.Outcome State Fault Refusal :=
  done s (write32 s q (A.TBL_LADLE i.val 3) v.toNat)

/-- The Ladle makes the copies of a frame (R250, R275, R291 to R293). -/
def execLadleReplicate (s : State) : Host.Outcome State Fault Refusal := onCentral s replicate

/-- A latency-locked frame or copy asks for its window (R294, R295, R298 to R300, R307). -/
def execLldReserve (p : Fin 64) (s : State) : Host.Outcome State Fault Refusal := onCentral s fun s => lldReserve s p.val

/-- A window starts (R296, R297, R302, R305). The port's island must run to take the frame. -/
def execLldWindowStart (p : Fin 64) (ecc : Option EccFault) (s : State) : Host.Outcome State Fault Refusal :=
  onEgress s p.val fun s => windowOpen s p.val ecc

/-- A late frame has found no window in 1 ms (R304). -/
def execLldLateExpiry (p : Fin 64) (s : State) : Host.Outcome State Fault Refusal := onCentral s fun s => lldExpire s p.val

end Sys2Proof.Machine
end

