-- ==== Sys2Proof/Machine/RunSynth.lean ====
section
/-! DEFINITION. The commands of the synthesizers and the island loops (R170 to R184). -/

namespace Sys2Proof.Machine

/-- A write of a synthesizer's configuration (R170, R177 to R179). -/
def execSynCfgWrite (q : Req) (k : Fin 8) (reg : SynReg) (v : Word) (s : State) : Host.Outcome State Fault Refusal :=
  done s (write32 s q (synRegAddr k.val reg) v.toNat)

/-- An OUT_EN change takes effect (R171). -/
def execSynOutputEnableApply (k : Fin 8) (s : State) : Host.Outcome State Fault Refusal := onTclk s fun s => synOutApply s k.val

/-- Lock is lost (R173, R177). -/
def execSynLockLost (k : Fin 8) (s : State) : Host.Outcome State Fault Refusal := onTclk s fun s => synLoseLock s k.val

/-- Lock is regained (R173). -/
def execSynRelocked (k : Fin 8) (s : State) : Host.Outcome State Fault Refusal := onTclk s fun s => synRelock s k.val

/-- Relock has not completed in 1 ms (R173). -/
def execSynRelockTimeout (k : Fin 8) (s : State) : Host.Outcome State Fault Refusal := onTclk s fun s => synRelockFail s k.val

/-- Relock is tried again in FAULT (R173). -/
def execSynRelockRetry (k : Fin 8) (s : State) : Host.Outcome State Fault Refusal := onTclk s fun s => synRetry s k.val

/-- A write of SYNk_RAMP.GO (R175, R176), with AT. -/
def execSynRampGo (q : Req) (k : Fin 8) (atTime : Bool) (s : State) : Host.Outcome State Fault Refusal :=
  done s (write32 s q (A.PLL_SYN_RAMP k.val) (1 + 2 * bit01 atTime))

/-- The followed time base reaches SYNk_AT (R175). -/
def execSynRampAt (k : Fin 8) (s : State) : Host.Outcome State Fault Refusal :=
  onTclk s fun s => if inGap s then s else rampAt s k.val

/-- A segment of a ramp ends (R175). -/
def execSynRampSegmentEnd (k : Fin 8) (s : State) : Host.Outcome State Fault Refusal :=
  onTclk s fun s => if inGap s then s else rampSegEnd s k.val

/-- A write of SYNk_RAMP.STOP (R177), with AT as it is. -/
def execSynRampStop (q : Req) (k : Fin 8) (s : State) : Host.Outcome State Fault Refusal :=
  done s (write32 s q (A.PLL_SYN_RAMP k.val) (4 + 2 * bit01 (s.bit (A.PLL_SYN_RAMP k.val) 1)))

/-- An edge of the alignment source, at its land (R178 to R180). Edges in a gap are not admitted (R212). -/
def execSynAlignEdge (k : Fin 8) (falling : Bool) (late : Fin 2000) (s : State) : Host.Outcome State Fault Refusal :=
  onTclk s fun s => if inGap s then s else synAlign s k.val falling late.val

/-- The slew has absorbed the error (R179). -/
def execSynAlignSlewDone (k : Fin 8) (s : State) : Host.Outcome State Fault Refusal := onTclk s fun s => synSlewDone s k.val

/-- The first lock (R173). -/
def execSynLockAcquired (k : Fin 8) (s : State) : Host.Outcome State Fault Refusal := onTclk s fun s => synLock s k.val

/-! Island loops. LSYN is on the timing die, and the others are on the data die. -/

/-- An event of a loop. -/
def onLoop (s : State) (i : Loop) (f : State → State) : Host.Outcome State Fault Refusal :=
  if loopKey i = 11 then onKeep s f else onDie s f

/-- The latest frame or control frame of a port, first in the list, does not reach the partner. -/
def spoilLast (p : Nat) : List Out → List Out
  | [] => []
  | .frame q b t :: l => if q = p then .frame q [] t :: l else .frame q b t :: spoilLast p l
  | .action q b :: l => if q = p then .action q [] :: l else .action q b :: spoilLast p l
  | .pfc q d a v n :: l => if q = p then l else .pfc q d a v n :: spoilLast p l
  | o :: l => o :: spoilLast p l

/-- The frame that port `p` transmits is lost on the line (R183). The link blocks of a trunk are sent again (R108). -/
def spoilTx (s : State) (p : Nat) : State :=
  if (s.eg p).busy.isSome && !isTrunk s p then { s with out := (spoilLast p s.out.reverse).reverse } else s

/-- A loop loses lock: its island stops, and what its ports transmit is lost. -/
def loopLost (s : State) (i : Nat) : State := if loopStopped s i then s else (lolOf i).foldl spoilTx (loopLose s i)

/-- A loop loses lock (R26, R182, R183). -/
def execIslandLoopLockLoss (i : Loop) (s : State) : Host.Outcome State Fault Refusal := onLoop s i fun s => loopLost s (loopKey i)

/-- Loop `i` relocks: the accesses that waited for its island go on. -/
def loopRestart (s : State) (i : Nat) : State :=
  let t := heldWrites (loopLock s i)
  if i = 5 ∧ loopStopped t 5 = false then heldAccesses t else t

/-- A loop relocks (R182). A ramp of the slice clocks that waited starts (R181). -/
def execIslandLoopRelock (i : Loop) (s : State) : Host.Outcome State Fault Refusal :=
  onLoop s i fun s => rampPending (settle (loopRestart s (loopKey i)))

/-- A loop has not relocked in 1 ms (R19, R184). -/
def execIslandLoopRelockTimeout (i : Loop) (s : State) : Host.Outcome State Fault Refusal :=
  onLoop s i fun s => loopTimeout s (loopKey i)

/-- The local TB0 counter of a port is reloaded and verified (R183). -/
def execLolFlagClear (p : Fin 64) (s : State) : Host.Outcome State Fault Refusal := onDie s fun s => lolClear s p.val

end Sys2Proof.Machine
end

