-- ==== Sys2Proof/Machine/RunSystem.lean ====
section
/-! DEFINITION. The commands of ingots, interrupts, the host interface, counters, memory and the test port (R368 to
R400, R422, R423). -/

namespace Sys2Proof.Machine

/-! Ingots. -/

/-- A write of SNP.CTRL.TRIG (R370 to R372). -/
def execTrig (q : Req) (s : State) : Host.Outcome State Fault Refusal := done s (write32 s q A.SNP_CTRL 1)

/-- A write of SNP.CTRL.AT_ARM (R370). -/
def execAtArm (q : Req) (s : State) : Host.Outcome State Fault Refusal := done s (write32 s q A.SNP_CTRL 2)

/-- A write of SNP.CTRL.AT_DISARM (R370). -/
def execAtDisarm (q : Req) (s : State) : Host.Outcome State Fault Refusal := done s (write32 s q A.SNP_CTRL 4)

/-- The central clock reaches SNP.AT (R370). -/
def execSnpAtReached (s : State) : Host.Outcome State Fault Refusal := onCentral s snpReached

/-- An edge on SNAP_IN (R65, R370). -/
def execSnapInEdge (rising : Bool) (s : State) : Host.Outcome State Fault Refusal :=
  onDie s fun s => settle (wakeSnap (snpEdge s rising) rising)

/-- The copy of the latched words ends (R372). -/
def execSnpCopyDone (s : State) : Host.Outcome State Fault Refusal := onCentral s snpCopied

/-- A write of SNP.FREE (R373). -/
def execSnpFreeSlot (q : Req) (high : Bool) (v : Word) (s : State) : Host.Outcome State Fault Refusal :=
  done s (write32 s q (A.SNP_FREE (bit01 high)) v.toNat)

/-! Interrupts. -/

/-- A source is raised (R370, R377 to R379, R383). One that no chapter assigns is never raised (R376). -/
def execSourceRaise (src : Fin 1024) (s : State) : Host.Outcome State Fault Refusal :=
  onDie s fun s => if sourceAssigned src.val then s.raise src.val else s

/-- A write of INT.SWSET (R377). -/
def execSwset (q : Req) (v : Word) (s : State) : Host.Outcome State Fault Refusal := done s (write32 s q A.INT_SWSET v.toNat)

/-- A write of INT.SRCi (R377). -/
def execIntSourceCfgWrite (q : Req) (i : Fin 1024) (v : Word) (s : State) : Host.Outcome State Fault Refusal :=
  done s (write32 s q (A.INT_SRC i.val) v.toNat)

/-- A write of Tt_CLAIM (R378, R381). -/
def execClaim (q : Req) (t : Fin 35) (v : Word) (s : State) : Host.Outcome State Fault Refusal :=
  done s (write32 s q (A.INT_T_CLAIM t.val) v.toNat)

/-- A write of Tt_EOI (R378, R379, R381). -/
def execEoi (q : Req) (t : Fin 35) (v : Word) (s : State) : Host.Outcome State Fault Refusal :=
  done s (write32 s q (A.INT_T_EOI t.val) v.toNat)

/-- TIME of a target has passed (R383). -/
def execIntCoalesceTimeout (t : Fin 35) (s : State) : Host.Outcome State Fault Refusal :=
  onDie s fun s => if s.due (.coalesce t.val) then coalesceFire s t.val else s

/-! The PCIe link. -/

/-- The link reaches L0 (R384). -/
def execPcieL1ExitDone (s : State) : Host.Outcome State Fault Refusal := onDie s linkL1Exit

/-- The function returns to D0 (R384). -/
def execPcieD0Return (s : State) : Host.Outcome State Fault Refusal := onDie s linkD0

/-- The link enters L1 (R384). -/
def execPcieL1Entry (s : State) : Host.Outcome State Fault Refusal := onDie s linkL1

/-- The function enters D3hot, with PME_En as the host writes it (R384). -/
def execPcieD3hotEntry (pmeEn : Bool) (s : State) : Host.Outcome State Fault Refusal := onDie s fun s => linkD3 s pmeEn

/-- A vector mask, or the function mask, is written (R382). The vector table is in HOST, and the function mask in the
function's own configuration. -/
def execMsixMaskWrite (vec : Option (Fin 32)) (mask : Bool) (s : State) : Host.Outcome State Fault Refusal :=
  match vec with
  | some n => done s (write32 s .host (A.HOST_MSIX_CTL n.val) (bit01 mask))
  | none => onDie s fun s => writeMask s none mask

/-! The mailbox: the host writes the request words and rings the doorbell (R386, R387). -/

/-- The words from MBX_REQ word `w` on are written by the host. -/
def requestWords (s : State) (w : Nat) : List Nat → State
  | [] => s
  | v :: l => requestWords (write32 s .host (A.HOST_MBX_REQ w) v) (w + 1) l

/-- A request: its command, tag and arguments, and the doorbell. -/
def request (s : State) (cmd : Nat) (tag : Byte) (args : List Word) : State :=
  let head := cmd * 2 ^ 16 + args.length % 256 * 2 ^ 8 + tag.toNat
  write32 (requestWords s 0 (head :: args.map (·.toNat))) .host A.HOST_MBX_DB 1

/-- GET_VERSION (R387). -/
def execGetVersion (tag : Byte) (s : State) : Host.Outcome State Fault Refusal := done s (request s 0x0001 tag [])

/-- GET_HEALTH (R387). -/
def execGetHealth (tag : Byte) (s : State) : Host.Outcome State Fault Refusal := done s (request s 0x0002 tag [])

/-- FLASH_READ (R387). -/
def execFlashRead (tag : Byte) (dev addr len : Word) (s : State) : Host.Outcome State Fault Refusal :=
  done s (request s 0x0010 tag [dev, addr, len])

/-- FLASH_ERASE (R62, R387). -/
def execFlashErase (tag : Byte) (dev addr : Word) (s : State) : Host.Outcome State Fault Refusal :=
  done s (request s 0x0011 tag [dev, addr])

/-- FLASH_PROGRAM (R62, R387). -/
def execFlashProgram (tag : Byte) (dev addr len : Word) (data : List Word) (s : State) :
    Host.Outcome State Fault Refusal := done s (request s 0x0012 tag ([dev, addr, len] ++ data))

/-- CMIS_READ (R387). -/
def execCmisRead (tag : Byte) (port bankPage offset len : Word) (s : State) : Host.Outcome State Fault Refusal :=
  done s (request s 0x0020 tag [port, bankPage, offset, len])

/-- CMIS_WRITE (R387). -/
def execCmisWrite (tag : Byte) (port bankPage offset len : Word) (data : List Word) (s : State) :
    Host.Outcome State Fault Refusal := done s (request s 0x0021 tag ([port, bankPage, offset, len] ++ data))

/-- The firmware, or the boot ROM, answers (R386, R387): `data` and `ioOk` are what the flash or the module gave. -/
def execMbxResponse (data : List Word) (ioOk : Bool) (s : State) : Host.Outcome State Fault Refusal :=
  onFirmware s fun s => mbxRespond s (data.map (·.toNat)) ioOk

/-- A write of MBX_DB.ACK (R386). -/
def execAck (q : Req) (s : State) : Host.Outcome State Fault Refusal := done s (write32 s q A.HOST_MBX_DB 2)

/-- A write of MBX_DB.ABORT (R386). -/
def execAbort (q : Req) (s : State) : Host.Outcome State Fault Refusal := done s (write32 s q A.HOST_MBX_DB 4)

/-! Rings. -/

/-- A write of RINGr_CFG (R388). -/
def execRingEnable (q : Req) (ring : Fin 32) (v : Word) (s : State) : Host.Outcome State Fault Refusal :=
  done s (write32 s q (A.HOST_RING_CFG ring.val) v.toNat)

/-- TEL_PER of a ring has passed (R389). -/
def execTelemetrySample (ring : Fin 32) (s : State) : Host.Outcome State Fault Refusal := onCentral s fun s => telSample s ring.val

/-! Counters. -/

/-- PMC.CTRL FREEZE (R391). -/
def execFreeze (q : Req) (s : State) : Host.Outcome State Fault Refusal := done s (write32 s q A.PMC_CTRL 1)

/-- PMC.CTRL RUN (R391). -/
def execRun (q : Req) (s : State) : Host.Outcome State Fault Refusal := done s (write32 s q A.PMC_CTRL 2)

/-- PMC.CTRL SNAP (R391). -/
def execSnap (q : Req) (s : State) : Host.Outcome State Fault Refusal := done s (write32 s q A.PMC_CTRL 4)

/-- A write of PMC.CLR (R391). -/
def execPmcGroupClear (q : Req) (v : Word) (s : State) : Host.Outcome State Fault Refusal :=
  done s (write32 s q A.PMC_CLR v.toNat)

/-- A wrap of a counter is recorded (R392): counter `j`, or 8 for the cycle counter. In SLEEP the block is off. -/
def execPmcCounterWrap (g : Fin 24) (j : Fin 9) (s : State) : Host.Outcome State Fault Refusal :=
  onDie s fun s => if asleep s then s else pmcWrap s g.val j.val

/-- A guarded write of PMC.UPAGE (R393). -/
def execUpage (q : Req) (v : Word) (s : State) : Host.Outcome State Fault Refusal :=
  done s (guardedWrite s q A.PMC_UPAGE v.toNat)

/-! Memory. -/

/-- A write of BANKb_CTRL (R394). -/
def execBankStateRequest (q : Req) (b : Fin 12) (v : Word) (s : State) : Host.Outcome State Fault Refusal :=
  done s (write32 s q (A.MEM_BANK_CTRL b.val) v.toNat)

/-- An event of a bank, on the die that holds it: banks 8 and 9 are on the timing die. -/
def onBank (s : State) (b : Nat) (f : State → State) : Host.Outcome State Fault Refusal :=
  if b = 8 ∨ b = 9 then onKeep s f else onDie s f

/-- A bank state change completes (R68, R394). -/
def execBankStateChangeDone (b : Fin 12) (s : State) : Host.Outcome State Fault Refusal := onBank s b.val fun s => bankChanged s b.val

/-- An ECC error of a word of a bank (R395, R398). -/
def execBankEccError (b : Fin 12) (word : Nat) (uncorrectable : Bool) (s : State) : Host.Outcome State Fault Refusal :=
  onBank s b.val fun s => bankError s b.val word uncorrectable

/-- A guarded write of MEM.MARCH_CTRL (R399). -/
def execMarchGo (q : Req) (v : Word) (s : State) : Host.Outcome State Fault Refusal :=
  done s (guardedWrite s q A.MEM_MARCH_CTRL v.toNat)

/-- A march ends, with the rows that failed (R399). In SLEEP none goes on. -/
def execMarchDone (failing : List (Fin 12 × Nat)) (s : State) : Host.Outcome State Fault Refusal :=
  onDie s fun s => if asleep s then s else marchEnd s (failing.map fun e => (e.1.val, e.2))

/-- A write of MEM.CAPT_RD (R397). -/
def execCaptRd (q : Req) (v : Word) (s : State) : Host.Outcome State Fault Refusal :=
  done s (write32 s q A.MEM_CAPT_RD v.toNat)

/-! The test port. -/

/-- An instruction of the test port becomes current, and a scan of its data register may follow (R422, R423). -/
def execTapInstruction (i : TapInstr) (scan : Option TapScan) (s : State) : Host.Outcome State Fault Refusal :=
  done s (match scan with | some x => tapScan (tapInstr s i) x | none => tapInstr s i)

/-- The test port is reset (R423). -/
def execTapReset (s : State) : Host.Outcome State Fault Refusal := done s (tapReset s)

end Sys2Proof.Machine
end

