-- ==== Sys2Proof/Machine/RunTac.lean ====
section
/-! DEFINITION. The commands of the timed system actions (R339 to R355, R426). -/

namespace Sys2Proof.Machine

/-- An announcement arrives (R30, R339 to R346, R426). -/
def execTacAnnounceRx (p : Fin 64) (bytes : List Byte) (s : State) : Host.Outcome State Fault Refusal :=
  onPort s p.val fun s => settle (tacAnnounce s p.val bytes)

/-- The island that executes the action of entry `k`. -/
def actIsland (s : State) (k : Nat) : Nat := ((slotAct s k).map actLoop).getD 4

/-- The action of entry `k` takes effect at its T, if it is of the kind (R343, R346 to R348). While the loop of its island
is unlocked it waits for a clock (R182, R346); in sleep its time is looked at as ever (R67). -/
def atT (s : State) (k kind : Nat) (arriving : List Nat := []) : Host.Outcome State Fault Refusal :=
  onDie s fun s => if loopStopped s (actIsland s k) then s else settle (executeEntry s k kind arriving)

/-- KIND 1 (R343, R349), with the ports of the frames that are arriving with a timestamp before T (R241). -/
def execHeatCommit (k : Fin 16) (arriving : List (Fin 64)) (s : State) : Host.Outcome State Fault Refusal :=
  atT s k.val 1 (arriving.map Fin.val)

/-- KIND 2 (R343, R371). -/
def execSnapshot (k : Fin 16) (s : State) : Host.Outcome State Fault Refusal := atT s k.val 2

/-- KIND 3 (R343, R391). -/
def execCounterClear (k : Fin 16) (s : State) : Host.Outcome State Fault Refusal := atT s k.val 3

/-- KIND 4 (R22, R116, R343). -/
def execPortEnable (k : Fin 16) (s : State) : Host.Outcome State Fault Refusal := atT s k.val 4

/-- KIND 5 (R190, R191, R343). -/
def execPulse (k : Fin 16) (s : State) : Host.Outcome State Fault Refusal := atT s k.val 5

/-- KIND 6 (R22, R343). -/
def execReset (k : Fin 16) (s : State) : Host.Outcome State Fault Refusal := atT s k.val 6

/-- KIND 7 (R343). -/
def execBarrier (k : Fin 16) (s : State) : Host.Outcome State Fault Refusal := atT s k.val 7

/-- KIND 8 (R343). -/
def execTacCancel (k : Fin 16) (s : State) : Host.Outcome State Fault Refusal := atT s k.val 8

/-- A report arrives (R352, R353). -/
def execTacReportRx (p : Fin 64) (bytes : List Byte) (s : State) : Host.Outcome State Fault Refusal :=
  onPort s p.val fun s => settle (tacReport s p.val bytes)

/-- The report deadline of entry `k` (R353). -/
def execTacReportDeadline (k : Fin 16) (s : State) : Host.Outcome State Fault Refusal :=
  onDie s fun s => if loopStopped s 4 then s else settle (tacDeadline s k.val)

/-- A guarded write of TAC.ORIG_CTRL (R350, R351). -/
def execTacOriginate (q : Req) (v : Word) (s : State) : Host.Outcome State Fault Refusal :=
  done s (guardedWrite s q A.TAC_ORIG_CTRL v.toNat)

/-- A write of EXPECT_CLR (R340). -/
def execTacExpectClear (q : Req) (high : Bool) (v : Word) (s : State) : Host.Outcome State Fault Refusal :=
  done s (write32 s q (if high then A.TAC_EXPECT_CLR_HI else A.TAC_EXPECT_CLR_LO) v.toNat)

end Sys2Proof.Machine
end

