-- ==== Sys2Proof/Machine/RunTime.lean ====
section
/-! DEFINITION. The commands of time: time bases, PTP and references (R122 to R168). -/

namespace Sys2Proof.Machine

/-! True time passes. -/

/-- The slice clocks are between 1.5 GHz and 0.75 GHz (R181). -/
def slicesRamping (s : State) : Bool := s.power.ramp.isSome

/-- The clocks of an island in `n` periods of TCLK: those of counter group `g` (R390). Of the islands whose frequency the
manual does not state, and of a slice in a ramp, the number is open. -/
def islandClocks (s : State) (g n : Nat) : Nat × State :=
  if g < 16 then
    (if loopStopped s (g / 4) then (0, s)
     else if slicesRamping s then (let (x, s) := s.draw; (3 * n / 2 + x % (3 * n - 3 * n / 2 + 1), s))
     else if clkRamped s then (Config.quot (3 * n) 2, s)
     else (3 * n, s))
  else if g < 20 then (if loopStopped s (7 + (g - 16)) then (0, s) else s.draw)
  else if g < 22 then (if loopStopped s 4 then (0, s) else (3 * n, s))
  else if g = 22 then s.draw
  else (if tclkRuns s then n else 0, s)

/-- The cycle counter of a group: 64 bits (R390, R392). -/
def cycleAdd (s : State) (g n : Nat) : State :=
  let v := s.rd64 (A.PMC_CYC_LO g) + n
  let s := s.wr64 (A.PMC_CYC_LO g) (v % 2 ^ 64)
  if 2 ^ 64 ≤ v then { s with pmcWraps := s.pmcWraps ++ [(g, 8)] } else s

/-- A counter of group `g` that selects the event gets an open number of at most `k`: what single structures do in a
clock is no state of the model (DESIGN CHOICE, assumption 61). -/
def openEvent (s : State) (g ev k : Nat) : State :=
  if (List.range 8).any fun j => decide (s.fld (A.PMC_G_SEL g j) 9 0 = ev) then
    let (x, s) := s.draw
    s.pmcEvent g ev (x % (k + 1))
  else s

/-- For how much of the next `d` ns a class of port `p` is under PFC pause. -/
def pausedNs (s : State) (p d : Nat) : Nat :=
  ((List.range 8).map fun c => match s.timer (.pfcPause p c) with | some t => t - s.now | none => 0).foldl Nat.max 0 |> Nat.min d

/-- In `n` periods, `k` clocks of the island of runner `g`: the clocks in which one of its ports is under PFC pause, and
those in which it leaves one of its two lookup slots idle or waits for a bank (R390). -/
def runnerClocks (s : State) (g n k : Nat) : State :=
  let s := (List.range 4).foldl (fun s i =>
    let d := pausedNs s (4 * g + i) (2 * n)
    if d = 0 then s else s.pmcEvent g (0x046 + 16 * i) (Config.quot (k * d) (2 * n))) s
  openEvent (openEvent s g 0x016 (2 * k)) g 0x019 k

/-- The host's register reads, which change nothing else (R360) and are no commands: how many came while time passed is
open (R390; DESIGN CHOICE, assumption 61). -/
def hostReads (s : State) : State :=
  if decide (s.int.link ≠ .down) && (List.range 8).any fun j => decide (s.fld (A.PMC_G_SEL 22 j) 9 0 = 0x301) then
    let (x, s) := s.draw
    s.pmcEvent 22 0x301 x
  else s

/-- The clocks of every group are counted, unless the counters stand still (R391). -/
def countClocks (s : State) (n : Nat) : State :=
  if !s.power.die || pmcFrozen s then s
  else
    (List.range 24).foldl (fun s g =>
      let (k, s) := islandClocks s g n
      let s := (cycleAdd s g k).pmcEvent g 1 k
      if g < 16 then runnerClocks s g n k
      else if g < 20 then (if demandAt s (g - 16) then openEvent s g 0x103 k else s)
      else if g = 22 then hostReads s
      else s) s

/-- The engines that TCLK drives advance by `n` periods: the time bases, the outputs that follow them, and the alignment
of the pulse outputs. -/
def clockAdvance (s : State) (n : Nat) : State := alignsDue (synsAdvance s (advanceAll s n) n) (s.now + 2 * n)

/-- What `n` periods of TCLK, 2 ns each, bring. -/
def timePasses (s : State) (n : Nat) : State :=
  let s := if s.power.die && !asleep s then latchUpTo s (s.now + 2 * n) else s
  let s := if s.power.ka then coresEnter s else s
  let s := if s.power.die && islandRuns s 4 then { s with buf := { s.buf with ran := s.buf.ran + 2 * n } } else s
  countClocks (if tclkRuns s then clockAdvance s n else s) n

/-- After time has passed: the records of the Assay engine that no window needs any more are free (R325); where a frame
has come in whole, the cells held back for it are free (R252), and the global condition follows (R261). -/
def arrivals (before s : State) : State :=
  if !s.power.die || !islandRuns s 4 then s
  else
    let s := freeAll s
    if s.buf.frames.any (fun f => arrived s f && !arrived before f) then refreshGlobal s else s

/-- Time passes (R122, R124, R153): the one command that moves true time. -/
def execTbAdvance (periods : Nat) (s : State) : Host.Outcome State Fault Refusal :=
  let t := { timePasses s periods with now := s.now + 2 * periods }
  .next { arrivals s t with pending := s.pending, now := s.now + 2 * periods }

/-! Time bases. -/

/-- A read of TBn_TIME_W2 captures the time base (R125). -/
def timeRead (s : State) (r : Req) (n : Nat) : State :=
  if !gateOpen s r (A.TIM_TB_TIME_W2 n) then s.emit (.errorResponse r (A.TIM_TB_TIME_W2 n))
  else captureShadow (if r = .host then s.pmcEvent 22 0x301 1 else s) r n

/-- A read of TBn_TIME_W2 (R125). -/
def execTbTimeRead (q : Req) (n : Fin 8) (s : State) : Host.Outcome State Fault Refusal :=
  onDie s fun s => if waitsAtCore s q then s else timeRead s q n.val

/-- A write of TIM.LATCH (R126). -/
def execLatch (q : Req) (mask : Word) (s : State) : Host.Outcome State Fault Refusal :=
  done s (write32 s q A.TIM_LATCH mask.toNat)

/-- A guarded TIM.ARM (R127). -/
def execArm (q : Req) (mask : BitVec 8) (s : State) : Host.Outcome State Fault Refusal :=
  done s (guardedWrite s q A.TIM_ARM mask.toNat)

/-- A commit of TBn_SET_W0 (R10, R11, R128). -/
def execTbSetStep (q : Req) (n : Fin 8) (w0 : Word) (s : State) : Host.Outcome State Fault Refusal :=
  done s (write32 s q (A.TIM_TB_SET_W0 n.val) w0.toNat)

/-- At the instant X, TB0 and every local counter move by D (R128), with what follows them (R197, R286, R310, R337). A step
whose X falls in a switch-over gap waits for its end (R212). -/
def tb0Step (s : State) : State :=
  match (s.tb 0).step with
  | none => s
  | some (d, x) =>
    if inGap s || decide (tb0 s < x) then s
    else
      let t := followStep s 0 d
      if s.power.die then
        let e : Int := (tb0 t : Int) - (tb0 s : Int)
        assayStep (lldStep (riserStep t e) x e)
      else t

/-- The instant X of a TB0 step (R128). -/
def execTb0StepApply (s : State) : Host.Outcome State Fault Refusal := onKeep s fun s => settle (tb0Step s)

/-- A write of TBn_SRC (R123, R424). -/
def execTbSrcWrite (q : Req) (n : Fin 8) (v : Word) (s : State) : Host.Outcome State Fault Refusal :=
  done s (write32 s q (tbSrc n.val) v.toNat)

/-- A received Sync, with its Follow_Up (R127, R129, R130, R135, R136). -/
def execPtpSyncSample (p : Fin 64) (sync follow : List Byte) (st : RxStamp) (s : State) : Host.Outcome State Fault Refusal :=
  onPort s p.val fun s => settle (ptpSync s p.val (toNats sync) (toNats follow) st)

/-- An edge of a PPS reference (R127, R129, R130, R135, R155). -/
def execPpsEdgeSample (k : Fin 4) (falling : Bool) (s : State) : Host.Outcome State Fault Refusal :=
  onKeep s fun s => settle (ppsEdge s k.val falling)

/-- A frequency estimate (R133, R135). -/
def execFreqEstimate (n : Fin 8) (ppt : Int) (s : State) : Host.Outcome State Fault Refusal :=
  onKeep s fun s => settle (freqSample s n.val ppt)

/-- No sample for TMO (R131). -/
def execTbHoldTimeout (n : Fin 8) (s : State) : Host.Outcome State Fault Refusal :=
  onKeep s fun s => if s.due (.tbHold n.val) then enterHoldover s n.val else s

/-! PTP. -/

/-- A Sync leaves (R146, R147). -/
def execPtpSyncTx (p : Fin 64) (st : TxStamp) (s : State) : Host.Outcome State Fault Refusal :=
  onPort s p.val fun s => ptpSyncTx s p.val st

/-- A Delay_Req leaves (R146). -/
def execPtpDelayReqTx (p : Fin 64) (st : TxStamp) (s : State) : Host.Outcome State Fault Refusal :=
  onPort s p.val fun s => ptpDelayReqTx s p.val st

/-- A Delay_Req arrives (R146, R147). -/
def execPtpDelayReqRx (p : Fin 64) (message : List Byte) (st : RxStamp) (s : State) : Host.Outcome State Fault Refusal :=
  onPort s p.val fun s => ptpDelayReqRx s p.val (toNats message) st

/-- A Delay_Resp arrives (R147, R148): its receiveTimestamp plus its correctionField is t4. -/
def execPtpDelayRespRx (p : Fin 64) (message : List Byte) (s : State) : Host.Outcome State Fault Refusal :=
  onPort s p.val fun s => ptpDelayResp s p.val (toNats message)

/-- A PTP message that the FX64 does not support arrives (R145). -/
def execPtpMessageDiscard (p : Fin 64) (message : List Byte) (s : State) : Host.Outcome State Fault Refusal :=
  onPort s p.val fun s => ptpUnsupported s p.val (toNats message)

/-- An Announce or Signaling message arrives (R146). -/
def execPtpGeneralRx (p : Fin 64) (message : List Byte) (s : State) : Host.Outcome State Fault Refusal :=
  onPort s p.val fun s => settle (ptpGeneral s p.val message)

/-- Best-master selection (R131, R134, R340). The firmware makes it once it runs. -/
def execBmcaSelect (port : Option (Fin 64)) (states : List (Fin 64 × Fin 10)) (steps : Nat) (s : State) :
    Host.Outcome State Fault Refusal :=
  onFirmware s fun s => if s.boot.started then settle (writeDepth (bmca s port states) steps) else s

/-- The phase detector of a port reports (R142). -/
def execPortPhaseMeasure (p : Fin 64) (phase : BitVec 24) (ppt : Int) (s : State) : Host.Outcome State Fault Refusal :=
  onPort s p.val fun s => phaseMeasure s p.val phase.toNat ppt

/-! References. -/

/-- XO_IN is lost (R154). -/
def execXoLoss (s : State) : Host.Outcome State Fault Refusal := onKeep s xoLost

/-- XO_IN has returned (R154). -/
def execXoRecover (s : State) : Host.Outcome State Fault Refusal := onKeep s xoBack

/-- A reference shows no edge (R157, R159 to R168): its loss is an alarm that can wake the FX64 (R65). -/
def referenceLost (s : State) (k : Nat) : State :=
  let t := refInactive s k
  if refState t k = 1 ∧ refState s k ≠ 1 then wakeAlarm t else t

/-- A reference shows no edge for its activity limit (R157). -/
def execRefInactive (k : Fin 6) (s : State) : Host.Outcome State Fault Refusal := onKeep s fun s => settle (referenceLost s k.val)

/-- A frequency measurement (R157, R158). -/
def execRefFreqMeasure (k : Fin 6) (ppt : Int) (s : State) : Host.Outcome State Fault Refusal :=
  onKeep s fun s => settle (refMeasure s k.val ppt)

/-- The qualification timer expires (R157 to R164). -/
def execRefQualDone (k : Fin 6) (s : State) : Host.Outcome State Fault Refusal := onKeep s fun s => settle (refQualified s k.val)

/-- A write of REF.SUSP_CLR (R158). -/
def execSuspClr (q : Req) (v : Word) (s : State) : Host.Outcome State Fault Refusal :=
  done s (write32 s q A.REF_SUSP_CLR v.toNat)

/-- A write of REFk_CFG (R157). -/
def execRefCfgWrite (q : Req) (k : Fin 6) (v : Word) (s : State) : Host.Outcome State Fault Refusal :=
  done s (write32 s q (A.REF_CFG k.val) v.toNat)

/-- The first phase measurement of the target of a SWITCH (R159, R161, R165). -/
def execRefSwitchAcquired (s : State) : Host.Outcome State Fault Refusal := onKeep s fun s => settle (selAcquired s)

/-- The wait-to-restore timer expires (R164, R168). -/
def execRefWtrExpiry (s : State) : Host.Outcome State Fault Refusal := onKeep s fun s => settle (wtrExpire s)

/-- A write of REF.SEL_CTRL (R167). -/
def execRefSelWrite (q : Req) (v : Word) (s : State) : Host.Outcome State Fault Refusal :=
  done s (write32 s q A.REF_SEL_CTRL v.toNat)

end Sys2Proof.Machine
end

