-- ==== Sys2Proof/Machine/Dispatch.lean ====
section
/-! DEFINITION. Dispatch: one arm per command, each one call of its meaning. -/

namespace Sys2Proof.Machine

/-- The effect of a command on everything but the queue. -/
def exec (i : Instr) (s : State) : Host.Outcome State Fault Refusal :=
  match i with
  | .registerWrite q addr bytes data => Sys2Proof.Machine.execRegisterWrite q addr bytes data s
  | .ftimeCommit q addr w0 => Sys2Proof.Machine.execFtimeCommit q addr w0 s
  | .guardFirstWrite q addr v => Sys2Proof.Machine.execGuardFirstWrite q addr v s
  | .guardComplementWrite q addr v => Sys2Proof.Machine.execGuardComplementWrite q addr v s
  | .guardTimeout q => Sys2Proof.Machine.execGuardTimeout q s
  | .sqcWriteBack q addr v => Sys2Proof.Machine.execSqcWriteBack q addr v s
  | .apertureWrite q addr v => Sys2Proof.Machine.execApertureWrite q addr v s
  | .aerrClr q v => Sys2Proof.Machine.execAerrClr q v s
  | .zoneAccessTimeout q addr z data => Sys2Proof.Machine.execZoneAccessTimeout q addr z data s
  | .zoneCheckError z => Sys2Proof.Machine.execZoneCheckError z s
  | .zoneReset q zrst zreimg => Sys2Proof.Machine.execZoneReset q zrst zreimg s
  | .zoneResetQuenched z => Sys2Proof.Machine.execZoneResetQuenched z s
  | .zoneResetDone z => Sys2Proof.Machine.execZoneResetDone z s
  | .zoneReimage z recs => Sys2Proof.Machine.execZoneReimage z recs s
  | .vinKaRise => Sys2Proof.Machine.execVinKaRise s
  | .vinKaLoss => Sys2Proof.Machine.execVinKaLoss s
  | .vinMainLoss => Sys2Proof.Machine.execVinMainLoss s
  | .thermalTrip => Sys2Proof.Machine.execThermalTrip s
  | .dataDieStart cool => Sys2Proof.Machine.execDataDieStart cool s
  | .resetNAssert => Sys2Proof.Machine.execResetNAssert s
  | .resetNRelease => Sys2Proof.Machine.execResetNRelease s
  | .warmReset q => Sys2Proof.Machine.execWarmReset q s
  | .timingReset q => Sys2Proof.Machine.execTimingReset q s
  | .hostReset => Sys2Proof.Machine.execHostReset s
  | .fuseReadDone ok bootSel refclk => Sys2Proof.Machine.execFuseReadDone ok bootSel refclk s
  | .imageHeaderRead sfdp0 sfdp1 header table => Sys2Proof.Machine.execImageHeaderRead sfdp0 sfdp1 header table s
  | .sectionLoad payload reread trim0 trim1 => Sys2Proof.Machine.execSectionLoad payload reread trim0 trim1 s
  | .regscriptWrite => Sys2Proof.Machine.execRegscriptWrite s
  | .regscriptGuarded => Sys2Proof.Machine.execRegscriptGuarded s
  | .regscriptWait => Sys2Proof.Machine.execRegscriptWait s
  | .regscriptWaitDone => Sys2Proof.Machine.execRegscriptWaitDone s
  | .tableChunk => Sys2Proof.Machine.execTableChunk s
  | .firmwareStart => Sys2Proof.Machine.execFirmwareStart s
  | .firmwareReady => Sys2Proof.Machine.execFirmwareReady s
  | .firmwareReadyTimeout => Sys2Proof.Machine.execFirmwareReadyTimeout s
  | .hbmTrainingDone ok => Sys2Proof.Machine.execHbmTrainingDone ok s
  | .dataDieRelease => Sys2Proof.Machine.execDataDieRelease s
  | .fallbackResetDone => Sys2Proof.Machine.execFallbackResetDone s
  | .bootGo q sel => Sys2Proof.Machine.execBootGo q sel s
  | .govPowerSample mw vmain vka => Sys2Proof.Machine.execGovPowerSample mw vmain vka s
  | .govLimitEntry => Sys2Proof.Machine.execGovLimitEntry s
  | .govLimitExit => Sys2Proof.Machine.execGovLimitExit s
  | .govShedTick => Sys2Proof.Machine.execGovShedTick s
  | .govBelowCapTimeout => Sys2Proof.Machine.execGovBelowCapTimeout s
  | .govRestoreTick => Sys2Proof.Machine.execGovRestoreTick s
  | .sleepEnter q => Sys2Proof.Machine.execSleepEnter q s
  | .sleepDrainDone => Sys2Proof.Machine.execSleepDrainDone s
  | .sleepEntryComplete => Sys2Proof.Machine.execSleepEntryComplete s
  | .sleepWake q => Sys2Proof.Machine.execSleepWake q s
  | .wakeTimeReached => Sys2Proof.Machine.execWakeTimeReached s
  | .wakeComplete ready => Sys2Proof.Machine.execWakeComplete ready s
  | .lanePowerupDone l => Sys2Proof.Machine.execLanePowerupDone l s
  | .laneSignalDetect l => Sys2Proof.Machine.execLaneSignalDetect l s
  | .laneSignalLoss l => Sys2Proof.Machine.execLaneSignalLoss l s
  | .laneCdrLock l phase training => Sys2Proof.Machine.execLaneCdrLock l phase training s
  | .cdrAcqTimeout l => Sys2Proof.Machine.execCdrAcqTimeout l s
  | .adaptConverged l adapted txPrecode => Sys2Proof.Machine.execAdaptConverged l adapted txPrecode s
  | .adaptTimeout l => Sys2Proof.Machine.execAdaptTimeout l s
  | .laneCheckDone l => Sys2Proof.Machine.execLaneCheckDone l s
  | .laneRecheckTimer l => Sys2Proof.Machine.execLaneRecheckTimer l s
  | .laneCdrLoss l => Sys2Proof.Machine.execLaneCdrLoss l s
  | .blockLockAcquired l headers => Sys2Proof.Machine.execBlockLockAcquired l headers s
  | .blockLockLoss l headers => Sys2Proof.Machine.execBlockLockLoss l headers s
  | .laneErrorLimit l errors => Sys2Proof.Machine.execLaneErrorLimit l errors s
  | .laneRetryTimer l => Sys2Proof.Machine.execLaneRetryTimer l s
  | .resumeLock l phase => Sys2Proof.Machine.execResumeLock l phase s
  | .resumeTimeout l => Sys2Proof.Machine.execResumeTimeout l s
  | .retrain q l => Sys2Proof.Machine.execRetrain q l s
  | .laneCtrlWrite q l v => Sys2Proof.Machine.execLaneCtrlWrite q l v s
  | .laneEqTableWrite q l m w v => Sys2Proof.Machine.execLaneEqTableWrite q l m w v s
  | .laneEqValidWrite q l v => Sys2Proof.Machine.execLaneEqValidWrite q l v s
  | .laneTestWrite q l v => Sys2Proof.Machine.execLaneTestWrite q l v s
  | .unretire q l => Sys2Proof.Machine.execUnretire q l s
  | .clrTotal q l => Sys2Proof.Machine.execClrTotal q l s
  | .portCfgWrite q p v => Sys2Proof.Machine.execPortCfgWrite q p v s
  | .portEnableWrite q p enable => Sys2Proof.Machine.execPortEnableWrite q p enable s
  | .restart q p => Sys2Proof.Machine.execRestart q p s
  | .portLinkUp p => Sys2Proof.Machine.execPortLinkUp p s
  | .portLinkLoss p => Sys2Proof.Machine.execPortLinkLoss p s
  | .quenchDone p => Sys2Proof.Machine.execQuenchDone p s
  | .anComplete p common fec => Sys2Proof.Machine.execAnComplete p common fec s
  | .anRestartTimer p => Sys2Proof.Machine.execAnRestartTimer p s
  | .stepupPageRx p page => Sys2Proof.Machine.execStepupPageRx p page s
  | .stepupNoPartnerTimeout p => Sys2Proof.Machine.execStepupNoPartnerTimeout p s
  | .stepupSlowLinkOk p => Sys2Proof.Machine.execStepupSlowLinkOk p s
  | .stepupSlowTimeout p => Sys2Proof.Machine.execStepupSlowTimeout p s
  | .stepupQualDone p => Sys2Proof.Machine.execStepupQualDone p s
  | .stepupFastLinkOk p => Sys2Proof.Machine.execStepupFastLinkOk p s
  | .stepupFastTimeout p => Sys2Proof.Machine.execStepupFastTimeout p s
  | .stepupHoldRetry p => Sys2Proof.Machine.execStepupHoldRetry p s
  | .trunkMarkerTx p => Sys2Proof.Machine.execTrunkMarkerTx p s
  | .trunkMarkerRx p lane block sync0 bytes arrival => Sys2Proof.Machine.execTrunkMarkerRx p lane block sync0 bytes arrival s
  | .trunkBlockTx p => Sys2Proof.Machine.execTrunkBlockTx p s
  | .trunkBlockRx p bytes => Sys2Proof.Machine.execTrunkBlockRx p bytes s
  | .trunkHelloTx p => Sys2Proof.Machine.execTrunkHelloTx p s
  | .trunkHelloRx p bytes => Sys2Proof.Machine.execTrunkHelloRx p bytes s
  | .trunkAlignTimeout p => Sys2Proof.Machine.execTrunkAlignTimeout p s
  | .trunkHelloTimeout p => Sys2Proof.Machine.execTrunkHelloTimeout p s
  | .trunkConflictRetry p => Sys2Proof.Machine.execTrunkConflictRetry p s
  | .pfcFrameRx p vector quanta => Sys2Proof.Machine.execPfcFrameRx p vector quanta s
  | .pfcPauseExpiry p c => Sys2Proof.Machine.execPfcPauseExpiry p c s
  | .macControlRx p opcode => Sys2Proof.Machine.execMacControlRx p opcode s
  | .sidebandScan prsN intN => Sys2Proof.Machine.execSidebandScan prsN intN s
  | .moduleDatapathActivated p => Sys2Proof.Machine.execModuleDatapathActivated p s
  | .tbAdvance periods => Sys2Proof.Machine.execTbAdvance periods s
  | .tbTimeRead q n => Sys2Proof.Machine.execTbTimeRead q n s
  | .latch q mask => Sys2Proof.Machine.execLatch q mask s
  | .arm q mask => Sys2Proof.Machine.execArm q mask s
  | .tbSetStep q n w0 => Sys2Proof.Machine.execTbSetStep q n w0 s
  | .tb0StepApply => Sys2Proof.Machine.execTb0StepApply s
  | .tbSrcWrite q n v => Sys2Proof.Machine.execTbSrcWrite q n v s
  | .ptpSyncSample p sync follow st => Sys2Proof.Machine.execPtpSyncSample p sync follow st s
  | .ppsEdgeSample k falling => Sys2Proof.Machine.execPpsEdgeSample k falling s
  | .freqEstimate n ppt => Sys2Proof.Machine.execFreqEstimate n ppt s
  | .tbHoldTimeout n => Sys2Proof.Machine.execTbHoldTimeout n s
  | .ptpSyncTx p st => Sys2Proof.Machine.execPtpSyncTx p st s
  | .ptpDelayReqTx p st => Sys2Proof.Machine.execPtpDelayReqTx p st s
  | .ptpDelayReqRx p message st => Sys2Proof.Machine.execPtpDelayReqRx p message st s
  | .ptpDelayRespRx p message => Sys2Proof.Machine.execPtpDelayRespRx p message s
  | .ptpMessageDiscard p message => Sys2Proof.Machine.execPtpMessageDiscard p message s
  | .ptpGeneralRx p message => Sys2Proof.Machine.execPtpGeneralRx p message s
  | .bmcaSelect port states steps => Sys2Proof.Machine.execBmcaSelect port states steps s
  | .portPhaseMeasure p phase ppt => Sys2Proof.Machine.execPortPhaseMeasure p phase ppt s
  | .xoLoss => Sys2Proof.Machine.execXoLoss s
  | .xoRecover => Sys2Proof.Machine.execXoRecover s
  | .refInactive k => Sys2Proof.Machine.execRefInactive k s
  | .refFreqMeasure k ppt => Sys2Proof.Machine.execRefFreqMeasure k ppt s
  | .refQualDone k => Sys2Proof.Machine.execRefQualDone k s
  | .suspClr q v => Sys2Proof.Machine.execSuspClr q v s
  | .refCfgWrite q k v => Sys2Proof.Machine.execRefCfgWrite q k v s
  | .refSwitchAcquired => Sys2Proof.Machine.execRefSwitchAcquired s
  | .refWtrExpiry => Sys2Proof.Machine.execRefWtrExpiry s
  | .refSelWrite q v => Sys2Proof.Machine.execRefSelWrite q v s
  | .synCfgWrite q k reg v => Sys2Proof.Machine.execSynCfgWrite q k reg v s
  | .synOutputEnableApply k => Sys2Proof.Machine.execSynOutputEnableApply k s
  | .synLockLost k => Sys2Proof.Machine.execSynLockLost k s
  | .synRelocked k => Sys2Proof.Machine.execSynRelocked k s
  | .synRelockTimeout k => Sys2Proof.Machine.execSynRelockTimeout k s
  | .synRelockRetry k => Sys2Proof.Machine.execSynRelockRetry k s
  | .synRampGo q k atTime => Sys2Proof.Machine.execSynRampGo q k atTime s
  | .synRampAt k => Sys2Proof.Machine.execSynRampAt k s
  | .synRampSegmentEnd k => Sys2Proof.Machine.execSynRampSegmentEnd k s
  | .synRampStop q k => Sys2Proof.Machine.execSynRampStop q k s
  | .synAlignEdge k falling late => Sys2Proof.Machine.execSynAlignEdge k falling late s
  | .synAlignSlewDone k => Sys2Proof.Machine.execSynAlignSlewDone k s
  | .islandLoopLockLoss k => Sys2Proof.Machine.execIslandLoopLockLoss k s
  | .islandLoopRelock k => Sys2Proof.Machine.execIslandLoopRelock k s
  | .islandLoopRelockTimeout k => Sys2Proof.Machine.execIslandLoopRelockTimeout k s
  | .lolFlagClear p => Sys2Proof.Machine.execLolFlagClear p s
  | .plsArm q mask => Sys2Proof.Machine.execPlsArm q mask s
  | .plsStop q mask => Sys2Proof.Machine.execPlsStop q mask s
  | .plsDisable q k v => Sys2Proof.Machine.execPlsDisable q k v s
  | .plsRisingEdge k => Sys2Proof.Machine.execPlsRisingEdge k s
  | .plsFallingEdge k => Sys2Proof.Machine.execPlsFallingEdge k s
  | .plsExtRequest k fire => Sys2Proof.Machine.execPlsExtRequest k fire s
  | .plsAlignEdge k falling late => Sys2Proof.Machine.execPlsAlignEdge k falling late s
  | .plsTrimInstall k => Sys2Proof.Machine.execPlsTrimInstall k s
  | .tdcArm q mask => Sys2Proof.Machine.execTdcArm q mask s
  | .tdcAbort q k => Sys2Proof.Machine.execTdcAbort q k s
  | .tdcGateEdge g high fine => Sys2Proof.Machine.execTdcGateEdge g high fine s
  | .tdcInputEdge k falling taken fine => Sys2Proof.Machine.execTdcInputEdge k falling taken fine s
  | .tdcWindowExpiry k => Sys2Proof.Machine.execTdcWindowExpiry k s
  | .tdcMeasStore k codesAgree => Sys2Proof.Machine.execTdcMeasStore k codesAgree s
  | .tdcRearmTimer k => Sys2Proof.Machine.execTdcRearmTimer k s
  | .statGo q k => Sys2Proof.Machine.execStatGo q k s
  | .tdcUnretire q mask => Sys2Proof.Machine.execTdcUnretire q mask s
  | .coreInitDone core ok => Sys2Proof.Machine.execCoreInitDone core ok s
  | .trackingMeasure drift => Sys2Proof.Machine.execTrackingMeasure drift s
  | .coreSyncTracked => Sys2Proof.Machine.execCoreSyncTracked s
  | .swoMasterUnlock => Sys2Proof.Machine.execSwoMasterUnlock s
  | .swoCheckFail => Sys2Proof.Machine.execSwoCheckFail s
  | .swoHeartbeatMissing => Sys2Proof.Machine.execSwoHeartbeatMissing s
  | .switch q => Sys2Proof.Machine.execSwitch q s
  | .swoGapEnd => Sys2Proof.Machine.execSwoGapEnd s
  | .selftestSlot item first second => Sys2Proof.Machine.execSelftestSlot item first second s
  | .repair q mask => Sys2Proof.Machine.execRepair q mask s
  | .coreAutoRepair core => Sys2Proof.Machine.execCoreAutoRepair core s
  | .calGo q => Sys2Proof.Machine.execCalGo q s
  | .calAbort q => Sys2Proof.Machine.execCalAbort q s
  | .calMeasurementDone values => Sys2Proof.Machine.execCalMeasurementDone values s
  | .calPreconditionBroken => Sys2Proof.Machine.execCalPreconditionBroken s
  | .calBusyTimeout => Sys2Proof.Machine.execCalBusyTimeout s
  | .save q => Sys2Proof.Machine.execSave q s
  | .calSaveFlashOpDone ok => Sys2Proof.Machine.execCalSaveFlashOpDone ok s
  | .calSaveTimeout => Sys2Proof.Machine.execCalSaveTimeout s
  | .frameClassify p bytes st sinceSof => Sys2Proof.Machine.execFrameClassify p bytes st sinceSof s
  | .mouldScrub slice slot entry fault => Sys2Proof.Machine.execMouldScrub slice slot entry fault s
  | .mouldEntryRewrite slice slot entry => Sys2Proof.Machine.execMouldEntryRewrite slice slot entry s
  | .mouldEntryWrite q offset v => Sys2Proof.Machine.execMouldEntryWrite q offset v s
  | .load q heat => Sys2Proof.Machine.execLoad q heat s
  | .heatLoadClearDone => Sys2Proof.Machine.execHeatLoadClearDone s
  | .seal q => Sys2Proof.Machine.execSeal q s
  | .heatSealDone => Sys2Proof.Machine.execHeatSealDone s
  | .discard q => Sys2Proof.Machine.execDiscard q s
  | .commit q heat => Sys2Proof.Machine.execCommit q heat s
  | .cancel q => Sys2Proof.Machine.execCancel q s
  | .heatCommitExamine => Sys2Proof.Machine.execHeatCommitExamine s
  | .heatCommitExecute l => Sys2Proof.Machine.execHeatCommitExecute l s
  | .heatCommitWaitTimeout => Sys2Proof.Machine.execHeatCommitWaitTimeout s
  | .heatDrainDone slot => Sys2Proof.Machine.execHeatDrainDone slot s
  | .heatDrainTimeout slot => Sys2Proof.Machine.execHeatDrainTimeout slot s
  | .frameAdmit injected => Sys2Proof.Machine.execFrameAdmit injected s
  | .pfcXoffRepeat p c => Sys2Proof.Machine.execPfcXoffRepeat p c s
  | .egressFrameSelect p ecc firstCellLeft => Sys2Proof.Machine.execEgressFrameSelect p ecc firstCellLeft s
  | .frameDepart p => Sys2Proof.Machine.execFrameDepart p s
  | .shaperRefill => Sys2Proof.Machine.execShaperRefill s
  | .deepCellWrite region ecc => Sys2Proof.Machine.execDeepCellWrite region ecc s
  | .deepPrefetchRead => Sys2Proof.Machine.execDeepPrefetchRead s
  | .deepCellRead p q reads => Sys2Proof.Machine.execDeepCellRead p q reads s
  | .dbfUnretire q region => Sys2Proof.Machine.execDbfUnretire q region s
  | .recircReentry slice ecc => Sys2Proof.Machine.execRecircReentry slice ecc s
  | .riserFrameArrival => Sys2Proof.Machine.execRiserFrameArrival s
  | .riserTimeout c => Sys2Proof.Machine.execRiserTimeout c s
  | .riserContextDisable q c v => Sys2Proof.Machine.execRiserContextDisable q c v s
  | .rstSeq q g => Sys2Proof.Machine.execRstSeq q g s
  | .migrationHoldEnd g bucket => Sys2Proof.Machine.execMigrationHoldEnd g bucket s
  | .migrationHoldTimeout g bucket => Sys2Proof.Machine.execMigrationHoldTimeout g bucket s
  | .memberOut g m => Sys2Proof.Machine.execMemberOut g m s
  | .ladleGroupStage q k w v => Sys2Proof.Machine.execLadleGroupStage q k w v s
  | .ladleGroupCommit q k v => Sys2Proof.Machine.execLadleGroupCommit q k v s
  | .ladleReplicate => Sys2Proof.Machine.execLadleReplicate s
  | .lldReserve p => Sys2Proof.Machine.execLldReserve p s
  | .lldWindowStart p ecc => Sys2Proof.Machine.execLldWindowStart p ecc s
  | .lldLateExpiry p => Sys2Proof.Machine.execLldLateExpiry p s
  | .assayIntakeFrame slice => Sys2Proof.Machine.execAssayIntakeFrame slice s
  | .assayIntakeGrant => Sys2Proof.Machine.execAssayIntakeGrant s
  | .assayMembership e => Sys2Proof.Machine.execAssayMembership e s
  | .assayDecide c => Sys2Proof.Machine.execAssayDecide c s
  | .assaySourceCommit q k v => Sys2Proof.Machine.execAssaySourceCommit q k v s
  | .assayContextEnable q c v => Sys2Proof.Machine.execAssayContextEnable q c v s
  | .assayContextDisable q c v => Sys2Proof.Machine.execAssayContextDisable q c v s
  | .assayMigGo q => Sys2Proof.Machine.execAssayMigGo q s
  | .assayMigCancel q => Sys2Proof.Machine.execAssayMigCancel q s
  | .assayMigCopyDone => Sys2Proof.Machine.execAssayMigCopyDone s
  | .assayMigHandover => Sys2Proof.Machine.execAssayMigHandover s
  | .tacAnnounceRx p bytes => Sys2Proof.Machine.execTacAnnounceRx p bytes s
  | .heatCommit k l => Sys2Proof.Machine.execHeatCommit k l s
  | .snapshot k => Sys2Proof.Machine.execSnapshot k s
  | .counterClear k => Sys2Proof.Machine.execCounterClear k s
  | .portEnable k => Sys2Proof.Machine.execPortEnable k s
  | .pulse k => Sys2Proof.Machine.execPulse k s
  | .reset k => Sys2Proof.Machine.execReset k s
  | .barrier k => Sys2Proof.Machine.execBarrier k s
  | .tacCancel k => Sys2Proof.Machine.execTacCancel k s
  | .tacReportRx p bytes => Sys2Proof.Machine.execTacReportRx p bytes s
  | .tacReportDeadline k => Sys2Proof.Machine.execTacReportDeadline k s
  | .tacOriginate q v => Sys2Proof.Machine.execTacOriginate q v s
  | .tacExpectClear q high v => Sys2Proof.Machine.execTacExpectClear q high v s
  | .trig q => Sys2Proof.Machine.execTrig q s
  | .atArm q => Sys2Proof.Machine.execAtArm q s
  | .atDisarm q => Sys2Proof.Machine.execAtDisarm q s
  | .snpAtReached => Sys2Proof.Machine.execSnpAtReached s
  | .snapInEdge rising => Sys2Proof.Machine.execSnapInEdge rising s
  | .snpCopyDone => Sys2Proof.Machine.execSnpCopyDone s
  | .snpFreeSlot q high v => Sys2Proof.Machine.execSnpFreeSlot q high v s
  | .sourceRaise src => Sys2Proof.Machine.execSourceRaise src s
  | .swset q v => Sys2Proof.Machine.execSwset q v s
  | .intSourceCfgWrite q k v => Sys2Proof.Machine.execIntSourceCfgWrite q k v s
  | .claim q t v => Sys2Proof.Machine.execClaim q t v s
  | .eoi q t v => Sys2Proof.Machine.execEoi q t v s
  | .intCoalesceTimeout t => Sys2Proof.Machine.execIntCoalesceTimeout t s
  | .pcieL1ExitDone => Sys2Proof.Machine.execPcieL1ExitDone s
  | .pcieD0Return => Sys2Proof.Machine.execPcieD0Return s
  | .getVersion tag => Sys2Proof.Machine.execGetVersion tag s
  | .getHealth tag => Sys2Proof.Machine.execGetHealth tag s
  | .flashRead tag dev addr len => Sys2Proof.Machine.execFlashRead tag dev addr len s
  | .flashErase tag dev addr => Sys2Proof.Machine.execFlashErase tag dev addr s
  | .flashProgram tag dev addr len data => Sys2Proof.Machine.execFlashProgram tag dev addr len data s
  | .cmisRead tag port bankPage offset len => Sys2Proof.Machine.execCmisRead tag port bankPage offset len s
  | .cmisWrite tag port bankPage offset len data => Sys2Proof.Machine.execCmisWrite tag port bankPage offset len data s
  | .mbxResponse data ioOk => Sys2Proof.Machine.execMbxResponse data ioOk s
  | .ack q => Sys2Proof.Machine.execAck q s
  | .abort q => Sys2Proof.Machine.execAbort q s
  | .ringEnable q ring v => Sys2Proof.Machine.execRingEnable q ring v s
  | .telemetrySample ring => Sys2Proof.Machine.execTelemetrySample ring s
  | .freeze q => Sys2Proof.Machine.execFreeze q s
  | .run q => Sys2Proof.Machine.execRun q s
  | .snap q => Sys2Proof.Machine.execSnap q s
  | .pmcGroupClear q v => Sys2Proof.Machine.execPmcGroupClear q v s
  | .pmcCounterWrap g j => Sys2Proof.Machine.execPmcCounterWrap g j s
  | .upage q v => Sys2Proof.Machine.execUpage q v s
  | .bankStateRequest q b v => Sys2Proof.Machine.execBankStateRequest q b v s
  | .bankStateChangeDone b => Sys2Proof.Machine.execBankStateChangeDone b s
  | .bankEccError b word uncorrectable => Sys2Proof.Machine.execBankEccError b word uncorrectable s
  | .marchGo q v => Sys2Proof.Machine.execMarchGo q v s
  | .marchDone failing => Sys2Proof.Machine.execMarchDone failing s
  | .captRd q v => Sys2Proof.Machine.execCaptRd q v s
  | .tapInstruction k scan => Sys2Proof.Machine.execTapInstruction k scan s
  | .tapReset => Sys2Proof.Machine.execTapReset s
  | .vinMainRise => Sys2Proof.Machine.execVinMainRise s
  | .govCapWrite q v => Sys2Proof.Machine.execGovCapWrite q v s
  | .govClockRampDone => Sys2Proof.Machine.execGovClockRampDone s
  | .laneBitSlip l => Sys2Proof.Machine.execLaneBitSlip l s
  | .stepupQualCodewordError p => Sys2Proof.Machine.execStepupQualCodewordError p s
  | .stepupQualLinkFault p => Sys2Proof.Machine.execStepupQualLinkFault p s
  | .synLockAcquired k => Sys2Proof.Machine.execSynLockAcquired k s
  | .tdcChannelEnable q k v => Sys2Proof.Machine.execTdcChannelEnable q k v s
  | .puntBucketRefill => Sys2Proof.Machine.execPuntBucketRefill s
  | .riserContextEnable q c v => Sys2Proof.Machine.execRiserContextEnable q c v s
  | .lagGroupEnable q g v => Sys2Proof.Machine.execLagGroupEnable q g v s
  | .lagMemberWrite q g m v => Sys2Proof.Machine.execLagMemberWrite q g m v s
  | .pinTableWrite q g w v => Sys2Proof.Machine.execPinTableWrite q g w v s
  | .assayMigTReached => Sys2Proof.Machine.execAssayMigTReached s
  | .pcieL1Entry => Sys2Proof.Machine.execPcieL1Entry s
  | .pcieD3hotEntry pmeEn => Sys2Proof.Machine.execPcieD3hotEntry pmeEn s
  | .msixMaskWrite vec mask => Sys2Proof.Machine.execMsixMaskWrite vec mask s

end Sys2Proof.Machine
end

