-- ==== Sys2Proof/Machine/Package.lean ====
section
/-! DEFINITION. The package: the land grid and its signals (R400 to R403), the pulls of the pins (R409) and what they do in
each state (R407, R408). -/

namespace Sys2Proof.Machine

/-! The land grid. -/

/-- A place of the land grid: row index and column, each from 1 to 96. -/
structure Land where
  row : Nat
  col : Nat
  deriving DecidableEq, Repr

/-- A land is present at the place (R400). -/
def landPresent (l : Land) : Bool :=
  decide (1 ≤ l.row ∧ l.row ≤ 96 ∧ 1 ≤ l.col ∧ l.col ≤ 96) &&
    !decide (25 ≤ l.row ∧ l.row ≤ 72 ∧ 25 ≤ l.col ∧ l.col ≤ 72)

/-- The sequence that letters the rows (R401). -/
def rowLetters : List Char :=
  ['A', 'B', 'C', 'D', 'E', 'F', 'G', 'H', 'J', 'K', 'L', 'M', 'N', 'P', 'T', 'U', 'V', 'W', 'Y']

/-- The letters of row index `n` (R401). -/
def rowName (n : Nat) : List Char :=
  let low := rowLetters.getD ((n - 1) % 19) 'A'
  if n ≤ 19 then [low] else [rowLetters.getD ((n - 1) / 19 - 1) 'A', low]

/-- The lands of one lane: transmit pair, receive pair and the two grounds. -/
structure LaneLands where
  txP : Land
  txN : Land
  rxP : Land
  rxN : Land
  gnd1 : Land
  gnd2 : Land
  deriving DecidableEq, Repr

/-- The lands of lane `l` (table Lane lands, R402). -/
def laneLands (l : Nat) : LaneLands :=
  let k := l % 128
  match l / 128 with
  | 0 => let b := k / 32; let j := k % 32
    ⟨⟨2 * b + 1, 3 * j + 1⟩, ⟨2 * b + 1, 3 * j + 2⟩, ⟨2 * b + 2, 3 * j + 1⟩, ⟨2 * b + 2, 3 * j + 2⟩,
      ⟨2 * b + 1, 3 * j + 3⟩, ⟨2 * b + 2, 3 * j + 3⟩⟩
  | 1 => let b := k / 16; let j := k % 16
    ⟨⟨25 + 3 * j, 96 - 2 * b⟩, ⟨26 + 3 * j, 96 - 2 * b⟩, ⟨25 + 3 * j, 95 - 2 * b⟩, ⟨26 + 3 * j, 95 - 2 * b⟩,
      ⟨27 + 3 * j, 96 - 2 * b⟩, ⟨27 + 3 * j, 95 - 2 * b⟩⟩
  | 2 => let b := k / 32; let j := k % 32
    ⟨⟨96 - 2 * b, 96 - 3 * j⟩, ⟨96 - 2 * b, 95 - 3 * j⟩, ⟨95 - 2 * b, 96 - 3 * j⟩, ⟨95 - 2 * b, 95 - 3 * j⟩,
      ⟨96 - 2 * b, 94 - 3 * j⟩, ⟨95 - 2 * b, 94 - 3 * j⟩⟩
  | _ => let b := k / 16; let j := k % 16
    ⟨⟨72 - 3 * j, 1 + 2 * b⟩, ⟨71 - 3 * j, 1 + 2 * b⟩, ⟨72 - 3 * j, 2 + 2 * b⟩, ⟨71 - 3 * j, 2 + 2 * b⟩,
      ⟨70 - 3 * j, 1 + 2 * b⟩, ⟨70 - 3 * j, 2 + 2 * b⟩⟩

/-- The die that a signal belongs to (table Signal lands). -/
inductive Die where
  | timing
  | power
  | data
  deriving DecidableEq, Repr

/-- The signals beside the lanes (table Signal lands). `neg` names the _N leg of a pair, and `i` the place in the order of
the table's row. -/
inductive Signal where
  | plsout (k : Fin 32) (neg : Bool)
  | clkout (k : Fin 8) (neg : Bool)
  | refin (k : Fin 4) (neg : Bool)
  | xoIn (neg : Bool)
  | syncIn
  | lockaA
  | lockaB
  | resetN
  | tdcin (i : Fin 16)
  | tdcGate (g : Fin 4)
  | vinKa (i : Fin 16)
  | vinMain (i : Fin 288)
  | peTx (n : Fin 4) (neg : Bool)
  | peRx (n : Fin 4) (neg : Bool)
  | peRefclk (neg : Bool)
  | spi (i : Fin 7)
  | modScl (k : Fin 8)
  | modSda (k : Fin 8)
  | modSb (i : Fin 3)
  | testPort (i : Fin 5)
  | intN
  | bootSel (i : Fin 2)
  | snapIn
  | snapOut
  | tdiode (cathode : Bool)
  deriving DecidableEq, Repr

/-- One row further for the _N leg of a pair that stands in two rows. -/
def leg (row : Nat) (neg : Bool) : Nat := if neg then row + 1 else row

/-- The land of a signal (table Signal lands, R403). -/
def signalLand : Signal → Land
  | .plsout k neg => ⟨leg 10 neg, 2 * k.val + 17⟩
  | .clkout k neg => ⟨leg 13 neg, 4 * k.val + 33⟩
  | .refin k neg => ⟨leg 13 neg, 4 * k.val + 65⟩
  | .xoIn neg => ⟨leg 13 neg, 81⟩
  | .syncIn => ⟨13, 85⟩
  | .lockaA => ⟨13, 89⟩
  | .lockaB => ⟨14, 89⟩
  | .resetN => ⟨13, 93⟩
  | .tdcin i => ⟨16, 4 * i.val + 17⟩
  | .tdcGate g => ⟨16, 4 * g.val + 81⟩
  | .vinKa i => ⟨18 + i.val / 8, i.val % 8 + 1⟩
  | .vinMain i => ⟨77 + i.val / 96, i.val % 96 + 1⟩
  | .peTx n neg => ⟨leg 83 neg, 4 * n.val + 5⟩
  | .peRx n neg => ⟨leg 85 neg, 4 * n.val + 5⟩
  | .peRefclk neg => ⟨leg 83 neg, 25⟩
  | .spi i => ⟨87, 2 * i.val + 33⟩
  | .modScl k => ⟨87, 49 + 2 * k.val⟩
  | .modSda k => ⟨88, 49 + 2 * k.val⟩
  | .modSb i => ⟨87, 67 + 2 * i.val⟩
  | .testPort i => ⟨88, 33 + 2 * i.val⟩
  | .intN => ⟨88, 67⟩
  | .bootSel i => ⟨88, 71 + 2 * i.val⟩
  | .snapIn => ⟨88, 75⟩
  | .snapOut => ⟨88, 77⟩
  | .tdiode cathode => ⟨88, if cathode then 83 else 81⟩

/-- All signals beside the lanes. -/
def Signal.all : List Signal :=
  let both := fun (f : Bool → Signal) => [f false, f true]
  (List.finRange 32).flatMap (fun k => both (.plsout k)) ++ (List.finRange 8).flatMap (fun k => both (.clkout k))
    ++ (List.finRange 4).flatMap (fun k => both (.refin k)) ++ both .xoIn ++ [.syncIn, .lockaA, .lockaB, .resetN]
    ++ (List.finRange 16).map .tdcin ++ (List.finRange 4).map .tdcGate ++ (List.finRange 16).map .vinKa
    ++ (List.finRange 288).map .vinMain ++ (List.finRange 4).flatMap (fun n => both (.peTx n))
    ++ (List.finRange 4).flatMap (fun n => both (.peRx n)) ++ both .peRefclk ++ (List.finRange 7).map .spi
    ++ (List.finRange 8).map .modScl ++ (List.finRange 8).map .modSda ++ (List.finRange 3).map .modSb
    ++ (List.finRange 5).map .testPort ++ [.intN] ++ (List.finRange 2).map .bootSel ++ [.snapIn, .snapOut]
    ++ both .tdiode

/-- The lane's four signal lands. -/
def LaneLands.signals (x : LaneLands) : List Land := [x.txP, x.txN, x.rxP, x.rxN]

/-- The land is GND: neither a lane nor another signal uses it (R403). -/
def isGnd (l : Land) : Bool :=
  landPresent l && !((List.range 512).any fun n => decide (l ∈ (laneLands n).signals)) &&
    !(Signal.all.any fun g => decide (signalLand g = l))

/-- The level to which a pin pulls itself (R409): RESET_N, TMS and TDI up; BOOT_SEL0, BOOT_SEL1, TCK and TRST_N down. The
test port is TCK, TMS, TDI, TDO, TRST_N. -/
def pinPull : Signal → Option Bool
  | .resetN => some true
  | .testPort i => if i = 1 ∨ i = 2 then some true else if i = 0 ∨ i = 4 then some false else none
  | .bootSel _ => some false
  | _ => none

def signalDie : Signal → Die
  | .plsout _ _ | .clkout _ _ | .refin _ _ | .xoIn _ | .syncIn | .lockaA | .lockaB | .resetN | .tdcin _ | .tdcGate _
  | .vinKa _ => .timing
  | .vinMain _ => .power
  | .peTx _ _ | .peRx _ _ | .peRefclk _ | .spi _ | .modScl _ | .modSda _ | .modSb _ | .testPort _ | .intN | .bootSel _
  | .snapIn | .snapOut | .tdiode _ => .data

/-! Pins (table Pin states by supply and state, R407, R408). -/

/-- The groups of pins that the table names. -/
inductive PinGroup where
  | clkPls
  | lockA
  | spiClk
  | spiSelect
  | spiData
  | dataOut
  | tdo
  | openDrain
  | transmitters
  deriving DecidableEq, Repr

/-- What the pins of a group do. -/
inductive PinState where
  | highImpedance
  | released
  | programmed
  | programmedLowWhenDisabled
  | driven
  | drivenHighBetweenAccesses
  | drivenInCommandAndWrite
  | drivenInShift
  | openDrain
  | perLinkState
  | fromBoundaryRegister
  deriving DecidableEq, Repr

/-- The column of the table that the state lies in; none before the timing die is READY, and in a state of the data die that
the table does not name. -/
def pinColumn (s : State) : Option (Fin 3) :=
  if !s.power.ka then some 0
  else if !coreRuns s then none
  else if !s.power.die then some 1
  else if inRun s || decide (bootState s = 9 ∨ bootState s = 10) then some 2
  else none

/-- The table's entry. -/
def pinTable (g : PinGroup) (c : Fin 3) : PinState :=
  match g, c with
  | .clkPls, 0 => .highImpedance
  | .clkPls, 1 => .programmedLowWhenDisabled
  | .clkPls, 2 => .programmed
  | .lockA, 0 => .highImpedance
  | .lockA, _ => .driven
  | .spiClk, 2 => .driven
  | .spiClk, _ => .highImpedance
  | .spiSelect, 2 => .drivenHighBetweenAccesses
  | .spiSelect, _ => .highImpedance
  | .spiData, 2 => .drivenInCommandAndWrite
  | .spiData, _ => .highImpedance
  | .dataOut, 2 => .driven
  | .dataOut, _ => .highImpedance
  | .tdo, 2 => .drivenInShift
  | .tdo, _ => .highImpedance
  | .openDrain, 2 => .openDrain
  | .openDrain, _ => .released
  | .transmitters, 2 => .perLinkState
  | .transmitters, _ => .highImpedance

/-! The boundary register (R422). -/

/-- The pins that the boundary register covers, in its order, the cell at TDO first: the LVC18, LVC-T and OD pins of the data
die, but for those of the test port itself, one cell each (DESIGN CHOICE, assumption 107). -/
def boundaryPins : List Signal :=
  (List.finRange 7).map .spi ++ (List.finRange 8).map .modScl ++ (List.finRange 8).map .modSda ++ (List.finRange 3).map .modSb ++
    [.intN] ++ (List.finRange 2).map .bootSel ++ [.snapIn, .snapOut]

/-- The group drives pins that the boundary register covers. -/
def inBoundary : PinGroup → Bool
  | .spiClk | .spiSelect | .spiData | .dataOut | .openDrain => true
  | .clkPls | .lockA | .tdo | .transmitters => false

/-- EXTEST and CLAMP drive the pins from the boundary register; HIGHZ drives none. -/
def tapDrives (i : TapInstr) : Bool := decide (i = .extest) || decide (i = .clamp)

/-- The level that the boundary register drives at a pin: an open-drain pin is only pulled low, and an input is not driven. -/
def boundaryLevel (s : State) (g : Signal) : Option Bool :=
  if !(s.power.main && tapDrives s.power.tap) then none
  else
    match g with
    | .bootSel _ | .snapIn => none
    | .modScl _ | .modSda _ | .intN => if s.power.cells.getD (boundaryPins.idxOf g) true then none else some false
    | _ => (boundaryPins.zip s.power.cells).lookup g

/-- What the pins of a group do. -/
def pinState (s : State) (g : PinGroup) : Option PinState :=
  if s.power.ka && s.power.main && inBoundary g && tapDrives s.power.tap then some .fromBoundaryRegister
  else (pinColumn s).map (pinTable g)

/-- INT_N is low while its target is in ENTRY (R382). -/
def intNLow (s : State) : Bool := s.power.die && decide (targetState s 34 = 1)

/-- The interrupt lines of the management cores (R382). -/
def mpcLine (s : State) (c : Fin 2) : Bool := s.power.die && decide (targetState s c.val = 1)

end Sys2Proof.Machine
end

