-- ==== Sys2Proof/Machine/Read.lean ====
section
/-! DEFINITION. Reads on the bus: what an access reads, and whether it completes without an error response (R20, R21, R47,
R64, R358, R359, R368, R396). A read changes nothing (R360), so these are observations of a state; the one read that does,
of TBn_TIME_W2, is a command. -/

namespace Sys2Proof.Machine

/-- The data of a read that completes with an error response. -/
def allOnes : Nat := 2 ^ 32 - 1

/-- The word at an address, and whether the read completes. A zone in reset reads 0 with an error response (R21). -/
def wordRead (s : State) (r : Req) (a : Nat) : Nat × Bool :=
  if isPortAperture a || isLaneAperture a then (allOnes, false)
  else
    let plain := match viewReg s (some r) a with | some v => (v, true) | none => (allOnes, false)
    if zoneRefuses s a then (0, false) else if zoneFails s a then (allOnes, false) else plain

/-- Consecutive words are read in ascending address order. -/
def readWords (s : State) (r : Req) (a : Nat) : Nat → List Nat × Bool
  | 0 => ([], true)
  | n + 1 =>
    let (v, ok) := wordRead s r a
    let (l, ok') := readWords s r (a + 4) n
    (v :: l, ok && ok')

/-- The byte lanes of a narrow read: the containing word's bytes, and 0 in the other lanes. -/
def laneBytes (v o bytes : Nat) : Nat := v / 2 ^ (8 * o) % 2 ^ (8 * bytes) * 2 ^ (8 * o)

/-- The words of a read are on their way to a node where they wait (R26, R182). -/
def readWaits (s : State) (a n : Nat) : Bool := (List.range n).any fun k => nodeWaits s (a + 4 * k)

/-- A read access (table Access outcomes): the words, the lower address first, and whether it completes without an error
response. A data die that does not run, or a host without a link, gets no answer, and neither does a read that waits. -/
def busRead (s : State) (r : Req) (a bytes : Nat) : Option (List Nat × Bool) :=
  if !reaches s r || waitsAtCore s r then none
  else if !mapped a || !gateOpen s r a then some ([allOnes], false)
  else
    match accessWidth a bytes with
    | .error 1 =>
      if readWaits s (a - a % 4) 1 then none else
      let (v, ok) := wordRead s r (a - a % 4); some ([laneBytes v (a % 4) bytes], ok)
    | .error _ => some ([allOnes], false)
    | .words n => if readWaits s a n then none else some (readWords s r a n)

end Sys2Proof.Machine
end

