-- ==== Sys2Proof/WellFormed.lean ====
section
/-! DEFINITION. Which commands are well formed: the operands that a constructor's types leave too wide. A command that
is not well formed is none that the outside can send; the manual's own rejections are not tested here, since a
command that the manual rejects is well formed and has a meaning. -/

namespace Sys2Proof

/-- A time in 2^-16 ns that FTIME can hold (R7). -/
def isTime (t : Nat) : Bool := decide (t < 2 ^ 48 * (1000000000 * 65536))

/-- The stamp's time is an FTIME. -/
def RxStamp.ok (x : RxStamp) : Bool := isTime x.tu

def TxStamp.ok (x : TxStamp) : Bool := isTime x.tu

/-- The command is well formed. -/
def Instr.wellFormed : Instr → Bool
  | .registerWrite _ _ bytes data => decide (0 < bytes) && decide (data.length = (bytes + 3) / 4)
  | .trunkMarkerRx _ _ _ _ bytes arrival => decide (bytes.length = 32) && isTime arrival
  | .trunkBlockRx _ bytes => decide (bytes.length = 528)
  | .trunkHelloRx _ bytes => decide (bytes.length ≤ 512)
  | .stepupPageRx _ blocks => decide (blocks.length = 4) && blocks.all fun b => decide (b.2.length = 8)
  | .ptpSyncSample _ _ _ st => st.ok
  | .ptpDelayReqRx _ _ st => st.ok
  | .ptpSyncTx _ st => st.ok
  | .ptpDelayReqTx _ st => st.ok
  | .plsExtRequest _ fire => isTime fire
  | .frameClassify _ bytes st _ => decide (0 < bytes.length) && decide (bytes.length ≤ 16384) && st.ok
  | .frameAdmit (some x) => decide (60 ≤ x.body.length) && decide (x.body.length ≤ 16379)
  | .imageHeaderRead _ _ header _ => decide (header.length = 256)
  | .flashProgram _ _ _ _ data => decide (data.length ≤ 60)
  | .cmisWrite _ _ _ _ _ data => decide (data.length ≤ 59)
  | .bankEccError b word _ =>
    decide (word * 8 < (if b.val ≤ 1 then 4 else if b.val ≤ 5 then 8 else if b.val ≤ 7 then 16
      else if b.val ≤ 9 then 8 else 4) * 2 ^ 20)
  | _ => true

end Sys2Proof
end

