-- ==== Sys2Proof/Safety.lean ====
section
/-! DEFINITION. What a safe run is, and the terms that statements about the machine use: a command that completes, and an
address that takes a requester's accesses. -/

namespace Sys2Proof.Machine

/-- The register file and the banks' contents are in canonical form. -/
def State.canonical (s : State) : Bool := Map.wf resetOf s.regs && Memory.wf s

/-- From `s` on, `n` steps answer next states. -/
def SafeRun : Nat → State → Prop
  | 0, _ => True
  | n + 1, s => ∃ t, step s = .next t ∧ SafeRun n t

/-- The command completes in `t`; the queue and true time stay. -/
def Ends (c : Instr) (s t : State) : Prop := exec c s = .next { t with pending := s.pending, now := s.now }

/-- The command completes in a state of which `P` holds, and in which the queue and true time are as they were. -/
def EndsWith (c : Instr) (s : State) (P : State → Prop) : Prop :=
  ∃ t, exec c s = .next t ∧ t.pending = s.pending ∧ t.now = s.now ∧ P t

/-- The zone of the address, if it has one, is neither in reset nor in fault, and the islands that lead to its node are
clocked (R20, R21, R182). -/
def State.nodeOpen (s : State) (a : Nat) : Bool := !zoneRefuses s a && !zoneFails s a && nodeRuns s a

/-- An access of the requester to the address is served (R21, R47, R64), and no guard sequence is pending (R362). -/
def State.listens (s : State) (r : Req) (a : Nat) : Bool :=
  reaches s r && !waitsAtCore s r && gateOpen s r a && s.nodeOpen a && s.guardHost.isEmpty && s.guardMgmt.isEmpty

/-- The registers that the count of a host write can change: the counters of group 22 (R390). -/
def countsHost (a : Nat) : Bool := decide (A.PMC_CTR_LO 22 0 ≤ a) && decide (a < A.PMC_CYC_LO 23)

/-- Every register but those that `p` names reads in `t` as in `s`. -/
def RegsKept (s t : State) (p : Nat → Bool) : Prop := ∀ a, p a = false → t.rd a = s.rd a

/-- No byte of a scratchpad bank changes. -/
def BanksKept (s t : State) : Prop := ∀ b i, t.bankByte b i = s.bankByte b i

/-- The port's circuits run: the data die is started and the port's island loop is locked. -/
def State.portRuns (s : State) (p : Nat) : Bool := s.power.die && portIslandRuns s p

/-- The circuits of the egress path of the port run: its own, its slice's and the central island's. -/
def State.egressRuns (s : State) (p : Nat) : Bool :=
  s.power.die && portIslandRuns s p && Machine.islandRuns s (sliceOfPort p) && Machine.islandRuns s 4

/-- The data die is started and does not sleep. -/
def State.awake (s : State) : Bool := s.power.die && !asleep s

/-- The machine's invariant: every waiting command is one that the outside can send, and true time lies on the grid of
TCLK's periods. -/
def State.inv (s : State) : Prop := (∀ c ∈ s.pending, c.wellFormed = true) ∧ s.now % 2 = 0

/-- The commands that a device without any supply answers: the supplies, the pins, the test port, and the passing of
time. -/
def outsideCommand : Instr → Bool
  | .vinKaRise | .vinMainRise | .vinMainLoss | .resetNAssert | .resetNRelease | .tapInstruction _ _ | .tapReset
  | .tbAdvance _ => true
  | _ => false

/-- The commands of the timing die and of the supplies, pins and time: a data die that does not run does not stop them. -/
def timingDieCommand : Instr → Bool
  | .vinKaLoss | .dataDieStart _ | .tb0StepApply | .ppsEdgeSample _ _ | .freqEstimate _ _ | .tbHoldTimeout _ | .xoLoss | .xoRecover
  | .refInactive _ | .refFreqMeasure _ _ | .refQualDone _ | .refSwitchAcquired | .refWtrExpiry | .synOutputEnableApply _
  | .synLockLost _ | .synRelocked _ | .synRelockTimeout _ | .synRelockRetry _ | .synRampAt _ | .synRampSegmentEnd _
  | .synAlignEdge _ _ _ | .synAlignSlewDone _ | .synLockAcquired _ | .islandLoopLockLoss (.core 11)
  | .islandLoopRelock (.core 11) | .islandLoopRelockTimeout (.core 11) | .plsRisingEdge _ | .plsFallingEdge _
  | .plsExtRequest _ _ | .plsAlignEdge _ _ _ | .plsTrimInstall _ | .tdcGateEdge _ _ _ | .tdcInputEdge _ _ _ _
  | .tdcWindowExpiry _ | .tdcMeasStore _ _ | .tdcRearmTimer _ | .coreInitDone _ _ | .trackingMeasure _ | .coreSyncTracked
  | .swoMasterUnlock | .swoCheckFail | .swoHeartbeatMissing | .swoGapEnd | .selftestSlot _ _ _ | .coreAutoRepair _
  | .calMeasurementDone _ | .calPreconditionBroken | .calBusyTimeout | .bankStateChangeDone 8 | .bankStateChangeDone 9
  | .bankEccError 8 _ _ | .bankEccError 9 _ _ => true
  | c => outsideCommand c

/-- A write that the register's own rules decide: where they reject it (R32) the register stays, with ACCESS_ERR, and
otherwise it leads to the state that `t` gives. The host's write is counted first. -/
def Decided (c : Instr) (s : State) (r : Req) (a : Nat) (bad : State → Bool) (t : State → State) : Prop :=
  (bad (heard s r 1) = true → Ends c s (rejected (heard s r 1) r a)) ∧
  (bad (heard s r 1) = false → Ends c s (t (heard s r 1)))

/-- The circuits of the island `i` of the data die run: the data die is started and awake, and the island's loop is
locked. -/
def State.islandRuns (s : State) (i : Nat) : Bool := s.power.die && Machine.islandRuns s i

end Sys2Proof.Machine
end

