-- ==== Sys2Proof/Certificates/Slice0/Obligations.lean ====
section
/-! DEFINITION. The statements for the provers. -/

open Sys2Proof Sys2Proof.Machine

/-! The queue, the step and the whole machine. -/

/-- A step takes the command at the front of the queue and runs it on the state with the queue's rest; with nothing
waiting it changes nothing, which is the model's choice (assumption 1). -/
def Obligations.StepRunsTheFrontCommand : Prop :=
  (∀ (c : Instr) (rest : List Instr) (s : State), s.pending = c :: rest → step s = exec c { s with pending := rest }) ∧
  (∀ s : State, s.pending = [] → step s = .next s)

/-- Every command completes, leaves the queue to the step, and leaves true time to TB_ADVANCE, which moves it by two
nanoseconds for each period of TCLK; and so no run stops. That a command whose condition fails changes nothing is the
model's choice (assumption 9), and so is that only TB_ADVANCE moves true time (assumption 2). -/
def Obligations.EveryCommandCompletes : Prop :=
  (∀ (c : Instr) (s : State), ∃ t, exec c s = .next t ∧ t.pending = s.pending ∧
     t.now = s.now + (match c with | .tbAdvance n => 2 * n | _ => 0)) ∧
  (∀ (n : Nat) (s : State), SafeRun n s)

/-- Every step keeps the register file and the contents of the banks in canonical form, in states that no run reaches
too. The form is how the model stores registers and the scratchpad banks: equal contents are equal data. -/
def Obligations.StepKeepsCanonicalForm : Prop :=
  ∀ s t : State, s.canonical = true → step s = .next t → t.canonical = true

/-- Every step keeps the invariant, in states that no run reaches too, and takes at most one command;
StepKeepsCanonicalForm says the same of the stored maps. The queue (assumption 1) and true time, which only TB_ADVANCE
moves (assumption 2), are the model's choices. -/
def Obligations.StepKeepsInvariant : Prop :=
  ∀ s t : State, State.inv s → step s = .next t → State.inv t ∧ t.pending = s.pending.tail ∧ s.now ≤ t.now

/-- The invariant holds right after reset, and the register file and the banks are in canonical form. -/
def Obligations.ResetMeetsInvariant : Prop :=
  State.inv State.reset ∧ State.reset.canonical = true

/-- Right after reset nothing waits, both supplies are present and the data die has not started, nothing is listed in
the banks, the banks on the data die hold undefined bytes and the Snapshot store holds zeros, and every register but
GLB.BOOT_STAT reads the reset value of the register map. The byte values and the supplies are the model's choices
(assumptions 3 and 4), and so are the empty queue (assumption 62), and that no timer runs and nothing was sent
(assumption 67). -/
def Obligations.ResetStateIsAsStated : Prop :=
  State.reset.pending = [] ∧ State.reset.out = [] ∧ State.reset.timers = [] ∧ State.reset.mem = [] ∧
  State.reset.power.ka = true ∧ State.reset.power.main = true ∧ State.reset.power.die = false ∧
  (∀ i, i < 2 ^ 24 → State.reset.bankByte 8 i = 0 ∧ State.reset.bankByte 9 i = 0) ∧
  (∀ b, b < 8 ∨ b = 10 ∨ b = 11 → ∀ i, i < 2 ^ 24 → State.reset.bankByte b i = Config.bankByte b i 1) ∧
  (∀ a, a ≠ A.GLB_BOOT_STAT → State.reset.rd a = (resetOf a).toNat) ∧
  (∀ a row, rowOf a = some row → row.fuse = false → a ≠ A.GLB_BOOT_STAT → State.reset.rd a = row.reset % 2 ^ 32) ∧
  State.reset.fld A.GLB_BOOT_STAT 3 0 = 1

/-- With both dies unpowered, no command but those of the supplies, the pins and time changes anything; and while the
data die does not run, no command of the data die, register accesses included, changes anything (R14, R37). -/
def Obligations.StoppedDiesAreInert : Prop :=
  (∀ (c : Instr) (s : State), s.power.die = false → s.power.ka = false → outsideCommand c = false → exec c s = .next s) ∧
  (∀ (c : Instr) (s : State), s.power.die = false → timingDieCommand c = false → exec c s = .next s)

/-! Register accesses. -/

/-- A write by the type of its register and by its width (R12, R358, R359): an RW register whose block gives the write
no meaning of its own takes the implemented bits of the value, an RO register discards it, a counter is set to it, and a
WO register acts on it and reads 0; what no register takes, or what is too narrow, misaligned or too wide, is turned
away; a pair and a burst are written word by word. That a write is counted before it is served (assumption 16), the
order in which the outcomes of an access are decided (assumption 13) and the widths that no row covers (assumption 18)
are the model's readings. -/
def Obligations.RegisterWriteByType : Prop :=
  (∀ (s : State) (r : Req) (a : BitVec 32) (v : Word) (row : RegRow),
     s.listens r a.toNat = true → a.toNat % 4 = 0 → rowOf a.toNat = some row → row.acc = .rw →
     (writeEffect (heard s r 1) r a.toNat v.toNat = .plain) →
     EndsWith (.registerWrite r a 4 [v]) s fun t =>
       t.rd a.toNat = v.toNat &&& row.mask ∧ RegsKept s t (fun b => decide (b = a.toNat) || (countsHost b && decide (r = .host))) ∧
       BanksKept s t ∧ t.timers = s.timers ∧ t.out = s.out ∧
       (Map.wf resetOf s.regs = true → Map.wf resetOf t.regs = true)) ∧
  (∀ (s : State) (r : Req) (a : BitVec 32) (v : Word) (row : RegRow),
     s.listens r a.toNat = true → a.toNat % 4 = 0 → rowOf a.toNat = some row → row.acc = .ro →
     Ends (.registerWrite r a 4 [v]) s (heard s r 1)) ∧
  (∀ (s : State) (r : Req) (a : BitVec 32) (v : Word) (row : RegRow),
     s.listens r a.toNat = true → a.toNat % 4 = 0 → rowOf a.toNat = some row → row.acc = .cnt →
     EndsWith (.registerWrite r a 4 [v]) s fun t =>
       t.rd a.toNat = v.toNat &&& row.mask ∧ RegsKept s t (fun b => decide (b = a.toNat) || (countsHost b && decide (r = .host))) ∧
       BanksKept s t ∧ t.timers = s.timers ∧ t.out = s.out) ∧
  (∀ (s : State) (r : Req) (a : BitVec 32) (v : Word) (row : RegRow), rowOf a.toNat = some row → row.acc = .wo →
     viewReg s (some r) a.toNat = some 0 ∧
     (s.listens r a.toNat = true → a.toNat % 4 = 0 →
       let u := heard s r 1
       (∀ t, writeEffect u r a.toNat v.toNat = .does t → Ends (.registerWrite r a 4 [v]) s t) ∧
       (writeEffect u r a.toNat v.toNat = .refuse → Ends (.registerWrite r a 4 [v]) s (accessErr u 5 r a.toNat)))) ∧
  (∀ (s : State) (r : Req) (a : BitVec 32) (bytes : Nat) (data : List Word),
     reaches s r = true → waitsAtCore s r = false →
     let c := Instr.registerWrite r a bytes data
     let u := heard s r 1
     let errs := fun k => Ends c s (accessErr u k r a.toNat)
     (mapped a.toNat = false → Ends c s (s.emit (.errorResponse r a.toNat))) ∧
     (mapped a.toNat = true → gateOpen s r a.toNat = true →
       (bytes < 4 → a.toNat % 4 + bytes ≤ 4 → errs 1) ∧
       (bytes < 4 → 4 < a.toNat % 4 + bytes → errs 2) ∧
       (inTbl a.toNat = false →
         (4 ≤ bytes → bytes ≤ 8 → ¬(bytes = 4 ∧ a.toNat % 4 = 0) → ¬(bytes = 8 ∧ a.toNat % 8 = 0) → errs 2) ∧
         (bytes = 8 → a.toNat % 8 = 0 → isGrd a.toNat = true ∨ isGrd (a.toNat + 4) = true → errs 3) ∧
         (8 < bytes → errs 3)) ∧
       (inTbl a.toNat = true →
         (4 ≤ bytes → a.toNat % 4 ≠ 0 ∨ bytes % 4 ≠ 0 → errs 2) ∧
         (4 ≤ bytes → a.toNat % 4 = 0 → bytes % 4 = 0 → 64 < a.toNat % 64 + bytes → errs 3)) ∧
       (bytes = 4 → a.toNat % 4 = 0 → data.length = 1 → s.listens r a.toNat = true → isPortAperture a.toNat = false →
         isLaneAperture a.toNat = false → rowOf a.toNat = none → isComplement a.toNat = false → errs 4))) ∧
  (∀ (s : State) (r : Req) (a : BitVec 32) (v w : Word) (row row' : RegRow),
    s.listens r a.toNat = true → s.nodeOpen (a.toNat + 4) = true → a.toNat % 8 = 0 → inTbl a.toNat = false →
    rowOf a.toNat = some row → row.acc = .rw → rowOf (a.toNat + 4) = some row' → row'.acc = .rw →
    writeEffect (heard s r 1) r a.toNat v.toNat = .plain →
    writeEffect ((heard s r 1).wr a.toNat (v.toNat &&& row.mask)) r (a.toNat + 4) w.toNat = .plain →
    EndsWith (.registerWrite r a 8 [v, w]) s fun t =>
      t.rd a.toNat = v.toNat &&& row.mask ∧ t.rd (a.toNat + 4) = w.toNat &&& row'.mask ∧
      RegsKept s t (fun b => decide (b = a.toNat) || decide (b = a.toNat + 4) || (countsHost b && decide (r = .host)))) ∧
  (∀ (s : State) (r : Req) (a : BitVec 32) (data : List Word),
    reaches s r = true → waitsAtCore s r = false → gateOpen s r a.toNat = true → mapped a.toNat = true →
    inTbl a.toNat = true → a.toNat % 4 = 0 → 0 < data.length → a.toNat % 64 + 4 * data.length ≤ 64 →
    let each := (data.zipIdx).foldl (fun (x : State × Bool) e =>
      let y := wordWrite x.1 r (a.toNat + 4 * e.2) e.1.toNat
      (y.1, x.2 && y.2)) (heard s r 1, true)
    Ends (.registerWrite r a (4 * data.length) data) s
      (recordBreaks s r (if each.2 then each.1 else each.1.emit (.errorResponse r a.toNat))))

/-- W2 and W1 of an FTIME register are staged for the requester that writes them, and W0 commits the three words at
once, or is refused (R10, R11): for every FTIME register but TBn_SET, whose commit is a step of a time base; a refused
commit also of TBn_SET. That a word never staged commits as 0 is the model's reading (assumption 20). -/
def Obligations.FtimeCommit : Prop :=
  (∀ (s : State) (r : Req) (a : BitVec 32) (v : Word) (row : RegRow) (w : Nat),
    s.listens r a.toNat = true → a.toNat % 4 = 0 → rowOf a.toNat = some row → row.acc = .ftime w → w ≠ 0 →
    writeEffect (heard s r 1) r a.toNat v.toNat = .plain →
    EndsWith (.registerWrite r a 4 [v]) s fun t =>
      Map.get 0 t.staged (2 * a.toNat + reqNum r) = v ∧ RegsKept s t (fun b => countsHost b && decide (r = .host))) ∧
  (∀ (s : State) (r : Req) (a : BitVec 32) (w0 : Word) (row : RegRow),
    s.listens r a.toNat = true → a.toNat % 4 = 0 → 8 ≤ a.toNat → rowOf a.toNat = some row → row.acc = .ftime 0 →
    writeEffect (heard s r 1) r a.toNat w0.toNat = .plain → w0.toNat < 1000000000 →
    entryOf a.toNat (A.TIM_TB_SET_W0 0) 0x10 8 = none →
    EndsWith (.ftimeCommit r a w0) s fun t =>
      t.rd a.toNat = w0.toNat ∧
      t.rd (a.toNat - 4) = (Map.get 0 s.staged (2 * (a.toNat - 4) + reqNum r)).toNat ∧
      t.rd (a.toNat - 8) = (Map.get 0 s.staged (2 * (a.toNat - 8) + reqNum r)).toNat ∧
      RegsKept s t (fun b => decide (a.toNat - 8 ≤ b) && decide (b ≤ a.toNat) || (countsHost b && decide (r = .host)))) ∧
  (∀ (s : State) (r : Req) (a : BitVec 32) (w0 : Word) (row : RegRow),
    s.listens r a.toNat = true → a.toNat % 4 = 0 → rowOf a.toNat = some row → row.acc = .ftime 0 → 1000000000 ≤ w0.toNat →
    let t := accessErr (heard s r 1) 5 r a.toNat
    Ends (.ftimeCommit r a w0) s t ∧ t.staged = s.staged ∧
      ∀ b, a.toNat - 8 ≤ b → b ≤ a.toNat → t.rd b = s.rd b)

/-- A guard sequence (R362): its first write waits, and changes no register; the complement, in time and with no write
to the block between them, makes the register act on the value; a wrong complement or 1 µs without it is a GUARD_ERR. -/
def Obligations.GuardSequence : Prop :=
  (∀ (s : State) (r : Req) (a : BitVec 32) (v : Word) (row : RegRow),
    s.listens r a.toNat = true → a.toNat % 4 = 0 → rowOf a.toNat = some row → row.acc = .grd →
    EndsWith (.guardFirstWrite r a v) s fun t =>
      guardAt t r a.toNat = some ⟨a.toNat, v, s.now + us⟩ ∧
      RegsKept s t (fun b => countsHost b && decide (r = .host))) ∧
  (∀ (s : State) (r : Req) (a : BitVec 32) (v : Word) (q : GuardSeq),
    reaches s r = true → waitsAtCore s r = false → gateOpen s r a.toNat = true → s.nodeOpen a.toNat = true →
    a.toNat % 4 = 0 → guardAt s r a.toNat = some q → q.addr = a.toNat ^^^ 0x800 →
    guardAt s (match r with | .host => .mgmt | .mgmt => .host) a.toNat = none →
    isPortAperture a.toNat = false → isLaneAperture a.toNat = false → mapped a.toNat = true → rowOf a.toNat = none →
    isComplement a.toNat = true →
    (s.now ≤ q.till → v = ~~~ q.value →
      Ends (.guardComplementWrite r a v) s
        (recordBreaks s r (guardedEffect (dropGuard (heard s r 1) r a.toNat) r q.addr q.value.toNat))) ∧
    ((q.till < s.now ∨ v ≠ ~~~ q.value) →
      Ends (.guardComplementWrite r a v) s (guardErr (dropGuard (heard s r 1) r a.toNat) r q.addr))) ∧
  (∀ (s : State) (r : Req) (q : GuardSeq),
    s.power.die = true → bootState s ≠ 3 → guardsOf s r = [q] → q.till ≤ s.now →
    Ends (.guardTimeout r) s (settle (guardErr (putGuards s r []) r q.addr)))

/-- Writes back to SQC registers, writes through the apertures and the clear of the captured error (R13, R16, R364,
R367, R368): a SEQ that is not ahead clears, one that is ahead is refused; an aperture write reaches every member in
ascending order; AERR_CLR frees the capture. What a broken sequence does is the model's reading (assumption 15). -/
def Obligations.BusCommands : Prop :=
  (∀ (s : State) (r : Req) (a : BitVec 32) (v : Word) (row : RegRow),
     s.listens r a.toNat = true → a.toNat % 4 = 0 → rowOf a.toNat = some row → row.acc = .sqc →
     (sqcAhead (heard s r 1) a.toNat v.toNat = false →
       Ends (.sqcWriteBack r a v) s ((heard s r 1).writeBack a.toNat v.toNat)) ∧
     (sqcAhead (heard s r 1) a.toNat v.toNat = true →
       Ends (.sqcWriteBack r a v) s (accessErr (heard s r 1) 8 r a.toNat))) ∧
  (∀ (s : State) (r : Req) (a : BitVec 32) (v : Word),
    reaches s r = true → waitsAtCore s r = false → gateOpen s r a.toNat = true → isLaneAperture a.toNat = true →
    a.toNat % 4 = 0 →
    let w := writeEach r a.toNat v.toNat (lanePlace (a.toNat % 0x1000))
      (laneMembers (heard s r 1) a.toNat) (heard s r 1)
    Ends (.apertureWrite r a v) s (recordBreaks s r (if w.2 then w.1 else w.1.emit (.errorResponse r a.toNat)))) ∧
  (∀ (s : State) (r : Req) (a : BitVec 32) (v : Word),
    reaches s r = true → waitsAtCore s r = false → gateOpen s r a.toNat = true → isPortAperture a.toNat = true →
    a.toNat % 4 = 0 →
    let w := portAperture (heard s r 1) r a.toNat (a.toNat % 0x4000) v.toNat (portMembers (heard s r 1) a.toNat)
    Ends (.apertureWrite r a v) s (recordBreaks s r (if w.2 then w.1 else w.1.emit (.errorResponse r a.toNat)))) ∧
  (∀ (s : State) (r : Req) (v : Word), s.listens r A.GLB_AERR_CLR = true →
    EndsWith (.aerrClr r v) s fun t =>
      t.bit A.GLB_AERR_INFO 31 = (s.bit A.GLB_AERR_INFO 31 && !v.toNat.testBit 0) ∧
      RegsKept s t (fun b => decide (b = A.GLB_AERR_INFO) || (countsHost b && decide (r = .host))))

/-- An event bit that hardware records again after software has read the register survives the write back of what was
read, and one that was not recorded again does not (R364). -/
def Obligations.WriteBackKeepsNewerEvents : Prop :=
  ∀ (s : State) (evt m1 m2 i : Nat), m1 < 2 ^ 24 → m2 < 2 ^ 24 → m1 ≠ 0 → i < 24 → m1.testBit i = true →
    let s1 := s.record evt m1
    let s2 := s1.record evt m2
    (s2.writeBack evt (s1.rd evt)).bit evt i = m2.testBit i

/-- Zones (R19 to R25, R425): an access that is not completed in time, and a check error, put the zone in fault; a reset
begins, clears the nodes once its quenches have ended, completes and replays its image records; a write to a zone in
reset is discarded with kind ZONE_RESET; and bits of zones already in reset have no effect. That a zone in reset is
decided before one in fault and before the type of the access is the model's reading (assumption 13), and a guarded
reset as one step of two writes is its choice (assumption 5); so is what an aperture write that times out leaves
(assumption 104). -/
def Obligations.ZoneCommands : Prop :=
  (∀ (s : State) (r : Req) (a : BitVec 32) (z : Fin 8) (data : Option Word),
    s.power.die = true →
    let u := if r = .host then s.pmcEvent 22 (if data.isSome then 0x302 else 0x301) 1 else s
    gateOpen u r a.toNat = true → zoneInReset u z.val = false → zoneFault u z.val = false →
    (zoneOf a.toNat = some z.val →
      Ends (.zoneAccessTimeout r a z data) s ((zoneFail u z.val).emit (.errorResponse r a.toNat))) ∧
    (∀ (v : Word) (t : State), zoneOf a.toNat = none → data = some v → writeOthers u r a.toNat z.val v.toNat = some t →
      Ends (.zoneAccessTimeout r a z data) s (recordBreaks u r ((zoneFail t z.val).emit (.errorResponse r a.toNat))))) ∧
  (∀ (s : State) (z : Fin 8), s.islandRuns 6 = true → zoneFault s z.val = false →
    Ends (.zoneCheckError z) s
      (((heldFail (s.setBit A.GLB_ZONE_STAT (16 + z.val) true) z.val).record A.GLB_ZONE_EVT (2 ^ z.val)).raise (40 + z.val))) ∧
  (∀ (s : State) (r : Req) (zrst zreimg : BitVec 8), s.listens r A.GLB_ZONE_CTRL = true →
    Ends (.zoneReset r zrst zreimg) s (settle (zoneResets (heard s r 2) zrst.toNat zreimg.toNat))) ∧
  (∀ (s : State) (z : Fin 8), s.power.die = true → Ends (.zoneResetQuenched z) s (settle (zoneClear s z.val))) ∧
  (∀ (s : State) (z : Fin 8), s.power.die = true → Ends (.zoneResetDone z) s (settle (sleepAfterZone (zoneDone s z.val)))) ∧
  (∀ (s : State) (z : Fin 8) (recs : List ReplayRec), s.islandRuns 5 = true → islandRuns s 6 = true → z.val ∈ s.zonesReimg →
    s.boot.started = true → s.fld A.GLB_BOOT_STAT 13 12 ≠ 0 →
    Ends (.zoneReimage z recs) s
      (settle (replay z.val recs [] { s with zonesReimg := s.zonesReimg.filter (· ≠ z.val) }))) ∧
  (∀ (s : State) (r : Req) (a : BitVec 32) (v : Word) (z : Nat),
     reaches s r = true → waitsAtCore s r = false → gateOpen s r a.toNat = true → a.toNat % 4 = 0 → mapped a.toNat = true →
     zoneOf a.toNat = some z →
     zoneInReset s z = true →
     Ends (.registerWrite r a 4 [v]) s (accessErr (heard s r 1) 7 r a.toNat)) ∧
  (∀ (s : State) (r : Req) (zrst zreimg : BitVec 8), s.listens r A.GLB_ZONE_CTRL = true →
     (∀ z, z < 8 → zrst.toNat.testBit z = true → zoneInReset s z = true) →
     Ends (.zoneReset r zrst zreimg) s (settle (heard s r 2)))

/-! Supplies, start-up, the governor and sleep. -/

/-- Supplies, the pins' resets, the start of the data die, the host's reset and the guarded resets (R34 to R37, R44 to
R46, R53, R419). That the highest of several causes counts, that a warm reset acts at once, and that DATA_DIE_START says
when a die has cooled down are the model's readings (assumption 36); the guarded resets as one step are its choice
(assumption 5). -/
def Obligations.SupplyAndResetCommands : Prop :=
  (∀ s : State, s.power.ka = false → EndsWith .vinKaRise s fun t =>
    t.power.ka = true ∧ t.power.die = false ∧ t.power.cause = 0 ∧ t.power.main = s.power.main ∧ t.mem = [] ∧
      ∀ a, a ≠ A.GLB_BOOT_STAT → t.rd a = (resetOf a).toNat) ∧
  (∀ s : State, s.power.ka = true → EndsWith .vinKaLoss s fun t =>
    t.power.ka = false ∧ t.power.die = false ∧ t.power.downTill = s.now + 10 * us ∧ t.mem = [] ∧ t.trims = [] ∧
      ∀ a, a ≠ A.GLB_BOOT_STAT → t.rd a = (resetOf a).toNat) ∧
  (∀ s : State, s.power.main = true → EndsWith .vinMainLoss s fun t =>
    t.power.main = false ∧ t.power.ka = s.power.ka ∧ t.power.die = false ∧ t.power.cause = nextCause s 2 ∧
      t.power.downTill = s.now + 10 * us) ∧
  (∀ s : State, s.power.die = true → EndsWith .thermalTrip s fun t =>
    t.power.main = s.power.main ∧ t.power.ka = s.power.ka ∧ t.power.die = false ∧ t.power.cause = 2 ∧
      t.power.downTill = s.now + 10 * us ∧ t.power.hot = true) ∧
  (∀ s : State, s.power.main = false → EndsWith .vinMainRise s fun t =>
    t.power.main = true ∧ t.power.mainAt = s.now ∧ RegsKept s t (fun _ => false) ∧ BanksKept s t) ∧
  (∀ (s : State) (cool : Bool), s.power.die = false →
    let k := if cool then { s with power := { s.power with hot := false } } else s
    let d := decide (s.power.cause = 0 ∨ s.power.cause = 4)
    let u := { k with power := { k.power with die := true, startAt := s.now, trimDue := d } }
    (canStart k = true → Ends (.dataDieStart cool) s (setBoot (u.setFld A.GLB_BOOT_STAT 31 28 s.power.cause) 1)) ∧
    (s.power.hot = true → cool = false → Ends (.dataDieStart cool) s s)) ∧
  (∀ s : State, s.power.resetN = true → EndsWith .resetNAssert s fun t =>
    t.power.resetN = false ∧ t.power.die = false ∧ t.power.ka = s.power.ka ∧ t.power.cause = nextCause s 1) ∧
  (∀ s : State, s.power.resetN = false → Ends .resetNRelease s (dieStart { s with power := { s.power with resetN := true } })) ∧
  (∀ s : State, s.power.die = true → EndsWith .hostReset s fun t =>
    (∀ a, 0x70000 ≤ a → a < 0x80000 → t.rd a = (resetOf a).toNat) ∧
      RegsKept s t (fun a => decide (0x70000 ≤ a ∧ a < 0x80000)) ∧ BanksKept s t) ∧
  (∀ (s : State) (r : Req), s.listens r A.PWR_RST_CTRL = true →
    Ends (.warmReset r) s (dieStart (warmDown (heard s r 2) 3))) ∧
  (∀ (s : State) (r : Req), s.listens r A.PWR_RST_CTRL = true → EndsWith (.timingReset r) s fun t =>
    t.power.die = false ∧ t.power.cause = 4 ∧ t.power.ka = s.power.ka ∧ t.power.main = s.power.main ∧ t.mem = [] ∧
      t.trims = [] ∧ ∀ a, a ≠ A.GLB_BOOT_STAT → t.rd a = (resetOf a).toNat) ∧
  (∀ (s : State) (r : Req) (sel : BitVec 2), s.listens r A.GLB_BOOT_CTRL = true →
    let u := heard s r 2
    bootState u = 6 ∨ bootState u = 7 →
    Ends (.bootGo r sel) s (bootGo (takeWord u A.GLB_BOOT_CTRL (2 * sel.toNat)) sel.toNat))

/-- The start of the data die up to its release, with the records of the REGSCRIPT section and the chunks of the TABLE
section (R46 to R62, R259). The FW bits at FIRMWARE_READY and the place of the firmware are the model's readings
(assumption 39), the host's link at the end of FUSE its choice (assumption 72), and the layout of the SFDP is presumed
(assumption 73). -/
def Obligations.StartUpCommands : Prop :=
  (∀ (s : State) (ok refclk : Bool) (sel : Fin 4), s.power.die = true → bootState s = 1 →
    let l := lockLoops ((trainHost s refclk).setFld A.GLB_BOOT_STAT 17 16 sel.val)
    let u := putBoot l { l.boot with order := [[0, 1], [1, 0], [0], []].getD sel.val [] }
    Ends (.fuseReadDone ok sel refclk) s (settle (if ok then setBoot u 2 else bootFail u))) ∧
  (∀ (s : State) (sfdp0 sfdp1 : List Byte) (h t : List Byte), s.islandRuns 5 = true →
    let u := putBoot s
      { s.boot with flash0 := sfdpDev (toNats sfdp0), flash1 := sfdpDev (toNats sfdp1), awaiting := false }
    let c := Instr.imageHeaderRead sfdp0 sfdp1 h t
    (bootState s = 2 → s.fld A.GLB_BOOT_STAT 17 16 = 3 → Ends c s (settle (setBoot u 7))) ∧
    (bootState s = 2 → s.fld A.GLB_BOOT_STAT 17 16 ≠ 3 → Ends c s (settle (attempt u (toNats h) (toNats t)))) ∧
    (bootState s = 3 → s.boot.awaiting = true → Ends c s (settle (attempt u (toNats h) (toNats t)))) ∧
    (bootState s = 4 → s.boot.awaiting = true →
      Ends c s (settle (attempt (putBoot s { s.boot with awaiting := false }) (toNats h) (toNats t))))) ∧
  (∀ (s : State) (b c t0 t1 : List Byte) (x : Sect), s.islandRuns 5 = true → currentSect s = some x → sectionReady s = true →
    let u := if s.power.trimDue && decide (s.boot.index + 1 = s.boot.sects.length) then
        putPower (trimLoad s (toNats t0) (toNats t1)) { s.power with trimDue := false }
      else s
    let good := fun b : List Nat => decide (b.length = x.len) && decide (crc32c b = x.crc)
    Ends (.sectionLoad b c t0 t1) s
      (settle (if good (toNats b) then applySect u x (toNats b) else if good (toNats c) then applySect u x (toNats c)
        else sectFail u 8))) ∧
  (∀ s : State, s.islandRuns 5 = true → sectionsDone s = true → s.boot.started = false → EndsWith .firmwareStart s fun t =>
    t.boot.started = true ∧ t.rd A.GLB_NODE_ID = s.boot.nodeId % 65536 ∧ t.timer .fwReady = some (s.now + 100 * ms) ∧
      RegsKept s t (fun a => decide (a = A.GLB_NODE_ID)) ∧
      (∀ i, i < s.boot.firmware.length → i < 4 * 2 ^ 20 → (t.bankByte 0 i).toNat = byteAt (toNats s.boot.firmware) i) ∧
      ∀ b i, 2 ≤ b → i < 2 ^ 24 → t.bankByte b i = s.bankByte b i) ∧
  (∀ s : State, s.islandRuns 5 = true → s.boot.started = true → s.runs .fwReady = true →
    EndsWith .firmwareReady s fun t => t.boot.ready = true ∧ t.runs .fwReady = false ∧
      (∀ i ∈ firmwareSources, t.bit (A.INT_SRC i) 30 = true) ∧
      RegsKept s t (fun a => firmwareSources.any fun i => decide (a = A.INT_SRC i))) ∧
  (∀ s : State, s.power.die = true → bootState s = 3 → s.due .fwReady = true →
    Ends .firmwareReadyTimeout s (settle (imageFail (s.stop .fwReady) 12))) ∧
  (∀ (s : State) (ok : BitVec 4), s.power.die = true → s.boot.hbmDone = false → bootState s < 5 →
    let u := (putBoot (s.setFld A.DBF_STAT 27 24 ok.toNat) { s.boot with hbmDone := true }).setFld A.DBF_STAT 31 28
      (if ok = 0 then 4 else 2)
    Ends (.hbmTrainingDone ok) s (if ok = 15 then u else dbfEvent u 16)) ∧
  (∀ s : State, s.power.die = true → bootState s = 3 → s.boot.ready = true → s.boot.hbmDone = true →
    s.power.startAt + 60 * ms ≤ s.now →
    let u := (scanSlots s).setFld A.GLB_BOOT_STAT 13 12 (bootImage s + 1)
    Ends .dataDieRelease s (settle ((List.range 64).foldl (fun s p => if portEnabled s p then startBringup s p else s)
      (setBoot (putBoot u { u.boot with released := u.now }) 5)))) ∧
  (∀ s : State, s.power.die = true → bootState s = 4 → s.due .fallback = true → EndsWith .fallbackResetDone s fun t =>
    t.boot.awaiting = true ∧ t.runs .fallback = false ∧ RegsKept s t (fun _ => false)) ∧
  (∀ (s : State) (a v : Nat) (l : List (Nat × Nat × Nat)), s.islandRuns 5 = true → bootState s = 3 →
    s.boot.script = some ((1, a, v) :: l) → scriptForbidden a = false → accessWaits s a = false →
    Ends .regscriptWrite s (recordEnds s a (busWrite s .mgmt a 4 [BitVec.ofNat 32 v]) l)) ∧
  (∀ (s : State) (a v : Nat) (l : List (Nat × Nat × Nat)), s.islandRuns 5 = true → bootState s = 3 →
    s.boot.script = some ((2, a, v) :: l) → scriptForbidden a = false → accessWaits s a = false →
    Ends .regscriptGuarded s (recordEnds s a (guardPair s .mgmt a v) l)) ∧
  (∀ (s : State) (a v : Nat) (l : List (Nat × Nat × Nat)), s.islandRuns 5 = true → bootState s = 3 →
    s.boot.script = some ((3, a, v) :: l) → s.runs .bootWait = false → EndsWith .regscriptWait s fun t =>
      t.timer .bootWait = some (s.now + v * us) ∧ t.boot = s.boot ∧ RegsKept s t (fun _ => false)) ∧
  (∀ (s : State) (a v : Nat) (l : List (Nat × Nat × Nat)), s.islandRuns 5 = true → bootState s = 3 →
    s.boot.script = some ((3, a, v) :: l) → s.due .bootWait = true →
    Ends .regscriptWaitDone s (scriptGoes (s.stop .bootWait) l)) ∧
  (∀ (s : State) (l : List Byte), s.islandRuns 5 = true → islandRuns s 4 = true → bootState s = 3 → s.boot.chunks = some l → chunkOk (toNats l) = true →
    let w := writeWords .mgmt (0x2000000 + leNat (slice (toNats l) 0 4)) (chunkWords (toNats l)) s
    w.2 = true → errCount w.1 = errCount s →
    let rest := l.drop (8 + leNat (slice (toNats l) 4 4))
    Ends .tableChunk s (if rest.isEmpty then nextSect w.1 else putBoot w.1 { w.1.boot with chunks := some rest }))

/-- The governor (R38 to R43) and sleep (R63 to R68): samples, limits, shed and restored ports, the order of shedding,
the slice clocks' ramp; entry, drain, SLEEP, wake and the return to RUN. The window of ten samples and the states in
which the governor acts are the model's readings (assumption 42), the first tick of shedding and restoring is its choice
(assumption 71), and so are the readings of sleep (assumption 41). -/
def Obligations.GovernorAndSleepCommands : Prop :=
  (∀ (s : State) (mw : Nat) (m k : BitVec 10), s.power.die = true →
    let u := (s.setFld A.PWR_STAT 29 20 m.toNat).setFld A.PWR_STAT 19 10 k.toNat
    Ends (.govPowerSample mw m k) s
      (settle (govEval (putPower u { u.power with samples := (mw :: u.power.samples).take 10 })))) ∧
  (∀ s : State, s.power.die = true → Ends .govLimitEntry s (settle (govEval (setGov s 0 true)))) ∧
  (∀ s : State, s.power.die = true → Ends .govLimitExit s (settle (govEval (setGov s 0 false)))) ∧
  (∀ (s : State) (p : Nat), s.power.die = true → s.due .govTick = true → govActive s = true → overCap s = true →
    clkRamped s = true → rampGoal s = none → nextShed s = some p →
    Ends .govShedTick s (settle ((shedPort s p).start .govTick (20 * us)))) ∧
  (∀ s : State, s.power.die = true → s.due .govBelow = true → govActive s = true →
    Ends .govBelowCapTimeout s (settle (govRestore s))) ∧
  (∀ (s : State) (p : Nat) (l : List Nat), s.power.die = true → s.due .govTick = true → govActive s = true →
    atMost90 s = true → clkRamped s = false → rampGoal s = none → s.power.shed = p :: l →
    let u := restorePort s p
    Ends .govRestoreTick s (settle (if u.power.shed.isEmpty then govFree u else u.start .govTick (20 * us)))) ∧
  (∀ (s : State) (r : Req) (v : Word), s.listens r A.PWR_GOV_CTRL = true →
    Ends (.govCapWrite r v) s (settle (govEval ((heard s r 1).wr A.PWR_GOV_CTRL (v.toNat % 1024))))) ∧
  (∀ (s : State) (d : Bool), s.power.die = true → s.power.ramp = some d → s.due .govRamp = true →
    let f := (List.range 4).foldl (fun s i => s.setFld (A.PLL_CPLL_STAT i) 15 0 (if d then 750 else 1500))
      ((putPower s { s.power with ramp := none }).stop .govRamp)
    let u := rampPending (setGov f 2 d)
    Ends .govClockRampDone s (settle
      (if u.power.nextRamp.isSome || u.power.ramp.isSome then u else if d then govEval u else govRestore u))) ∧
  (∀ (s : State) (p : Nat), nextShed s = some p →
     let open_ := fun q => !(s.port q).shed || (s.port q).restore
     p < 64 ∧ open_ p = true ∧
     ∀ q, q < 64 → open_ q = true → shedRank s q < shedRank s p ∨ (shedRank s q = shedRank s p ∧ q ≤ p)) ∧
  (∀ (s : State) (r : Req), s.listens r A.PWR_SLEEP_CTRL = true → inRun s = true →
    Ends (.sleepEnter r) s (sleepEnter (heard s r 2))) ∧
  (∀ s : State, s.power.die = true → bootState s = 8 → s.due .sleepDrain = true →
    let u := s.stop .sleepDrain
    Ends .sleepDrainDone s (settle ((List.range 64).foldl sleepPort (putPower u { u.power with drained := true })))) ∧
  (∀ s : State, s.power.die = true → bootState s = 8 → s.power.drained = true → (∀ p, p < 64 → portState s p ≠ 3) →
    Ends .sleepEntryComplete s (settle (sleepEntered s))) ∧
  (∀ (s : State) (r : Req), s.listens r A.PWR_SLEEP_CTRL = true → bootState s = 9 →
    Ends (.sleepWake r) s (startWake (heard s r 2) (tb0 (heard s r 2)))) ∧
  (∀ s : State, s.power.die = true → wakeTimeDue s = true → bootState s = 9 →
    Ends .wakeTimeReached s (settle (startWake s (s.rdTime A.PWR_WAKE_W2)))) ∧
  (∀ (s : State) (ready : BitVec 64), s.power.die = true → bootState s = 10 →
    s.power.tw + 25 * ms * nsUnits ≤ tb0 s + us * nsUnits →
    Ends (.wakeComplete ready) s (settle (wakeDone s ready.toNat)))

/-! Lanes and ports. -/

/-- The events of a lane (R73 to R89, table Lane states): each moves a lane that stands in the state that takes it, and
the lane's port follows. ADAPT_TIMEOUT at any time while training runs, the retry timer's states and CDR loss in SERVICE
only are the model's readings (assumption 33); RESUME without a valid set and the checker errors of TEST are its choices
(assumption 75). -/
def Obligations.LaneCommands : Prop :=
  (∀ (s : State) (l : Fin 512), s.awake = true → laneState s l.val = 1 →
    ((s.lane l.val).waking = false →
      Ends (.lanePowerupDone l) s (settle (laneAfter s (toSignalWait s l.val) l.val))) ∧
    ((s.lane l.val).waking = true →
      Ends (.lanePowerupDone l) s
        (settle (laneAfter s ((setLaneState s l.val 8).start (.laneResume l.val) (2 * ms)) l.val)))) ∧
  (∀ (s : State) (l : Fin 512), s.awake = true → laneLive s l.val = true →
    let u := setLaneFlag s l.val 24 true
    Ends (.laneSignalDetect l) s
      (settle (laneAfter s (if laneState u l.val = 2 ∧ u.runs (.laneRetry l.val) = false then toCdrAcq u l.val else u) l.val))) ∧
  (∀ (s : State) (l : Fin 512), s.awake = true → laneLive s l.val = true →
    Ends (.laneSignalLoss l) s (settle (laneAfter s
      (if laneState s l.val = 1 ∨ laneState s l.val = 8 then setLaneFlag s l.val 24 false
        else toSignalWait (exitService s l.val) l.val) l.val))) ∧
  (∀ (s : State) (l : Fin 512) (ph : BitVec 8) (training : Option Bool), s.awake = true → laneState s l.val = 3 →
    s.runs (.laneCdr l.val) = true →
    let u := (setLaneState (cdrLocked (s.stop (.laneCdr l.val)) l.val ph.toNat) l.val 4).start (.laneAdapt l.val) (100 * ms)
    (∀ pre, training = some pre → mayTrain u l.val = true →
      Ends (.laneCdrLock l ph training) s (settle (laneAfter s
        (setPrecode (u.putLane l.val { u.lane l.val with training := true, trained := false, trainedPre := pre }) l.val)
        l.val))) ∧
    (training = none ∨ mayTrain u l.val = false →
      Ends (.laneCdrLock l ph training) s (settle (laneAfter s (setPrecode (noTraining u l.val) l.val) l.val)))) ∧
  (∀ (s : State) (l : Fin 512), s.awake = true → laneState s l.val = 3 → s.due (.laneCdr l.val) = true →
    Ends (.cdrAcqTimeout l) s (settle (laneAfter s (failAttempt s l.val 1) l.val))) ∧
  (∀ (s : State) (l : Fin 512) (w : Vector Word 7) (pre : Bool), s.awake = true → laneState s l.val = 4 →
    let u := takeAdapted (s.stop (.laneAdapt l.val)) l.val w.toList
    let h := u.lane l.val
    let u := if h.training then
        u.putLane l.val { h with training := false, trained := true, trainedTx := w[0], trainedPre := pre } else u
    Ends (.adaptConverged l w pre) s
      (settle (laneAfter s (setLaneState (setPrecode u l.val) l.val 5) l.val))) ∧
  (∀ (s : State) (l : Fin 512), s.awake = true → laneState s l.val = 4 →
    s.due (.laneAdapt l.val) = true ∨ (s.lane l.val).training = true →
    Ends (.adaptTimeout l) s (settle (laneAfter s (failAttempt s l.val 2) l.val))) ∧
  (∀ (s : State) (l : Fin 512), s.awake = true → laneState s l.val = 5 →
    Ends (.laneCheckDone l) s (settle (laneAfter s (finishCheck s l.val) l.val))) ∧
  (∀ (s : State) (l : Fin 512), s.awake = true → laneState s l.val = 7 → s.due (.laneRecheck l.val) = true →
    Ends (.laneRecheckTimer l) s
      (settle (laneAfter s (startCheck s l.val) l.val))) ∧
  (∀ (s : State) (l : Fin 512), s.awake = true → laneState s l.val = 3 ∨ laneState s l.val = 2 →
    s.due (.laneRetry l.val) = true →
    Ends (.laneRetryTimer l) s (settle (laneAfter s (toCdrAcq (s.stop (.laneRetry l.val)) l.val) l.val))) ∧
  (∀ (s : State) (l : Fin 512), s.awake = true → laneState s l.val = 6 →
    Ends (.laneCdrLoss l) s (settle (laneAfter s (dropFromService s l.val 3) l.val))) ∧
  (∀ (s : State) (l : Fin 512), s.awake = true → laneFlag s l.val 14 = true → laneFlag s l.val 23 = true →
    ∀ h : List (BitVec 2), Ends (.blockLockAcquired l h) s (settle (laneAfter s
      (if givesBlockLock (h.map BitVec.toNat) then setLaneFlag s l.val 22 true else s) l.val))) ∧
  (∀ (s : State) (l : Fin 512) (h : List (BitVec 2)), s.awake = true → laneFlag s l.val 22 = true →
    losesBlockLock (h.map BitVec.toNat) = true →
    Ends (.blockLockLoss l h) s (settle (laneAfter s
      (if laneState s l.val = 6 then dropFromService (setLaneFlag s l.val 22 false) l.val 4 else setLaneFlag s l.val 22 false)
      l.val))) ∧
  (∀ (s : State) (l : Fin 512) (n : Nat), s.awake = true → laneState s l.val = 9 →
    Ends (.laneErrorLimit l n) s (settle (laneAfter s
      (if s.bit (A.LANE_TEST l.val) 2 then s.add64 (A.LANE_TEST_ERR_LO l.val) n else s) l.val))) ∧
  (∀ (s : State) (l : Fin 512) (n : Nat), s.awake = true → laneState s l.val ≠ 9 →
    let lim := s.fld (A.LANE_MON l.val) 31 16
    Ends (.laneErrorLimit l n) s (settle (laneAfter s
      (if lim ≠ 0 ∧ lim ≤ n then laneDrops (countLaneErrors s l.val n) l.val 5 else countLaneErrors s l.val n) l.val))) ∧
  (∀ (s : State) (l : Fin 512) (ph : BitVec 8), s.awake = true → laneState s l.val = 8 →
    let u := cdrLocked (setLaneFlag s l.val 24 true) l.val ph.toNat
    Ends (.resumeLock l ph) s (settle (laneAfter s
      (if eqValid u l.val (eqSet (laneMode u l.val)) then enterService u l.val else u) l.val))) ∧
  (∀ (s : State) (l : Fin 512), s.awake = true → laneState s l.val = 8 → s.due (.laneResume l.val) = true →
    Ends (.resumeTimeout l) s (settle (laneAfter s
      (toCdrAcq ((s.stop (.laneResume l.val)).putLane l.val { s.lane l.val with waking := false }) l.val) l.val))) ∧
  (∀ (s : State) (l : Fin 512), s.awake = true → laneState s l.val = 6 →
    Ends (.laneBitSlip l) s (settle (laneAfter s
      (setDlyValid (s.putLane l.val { s.lane l.val with noSlip := false }) l.val) l.val)))

/-- Writes of a lane's registers (R72, R73, R76, R77, R83 to R85, R90, R92): LANE.CTRL with RETRAIN, the table words and
EQ_VALID where no valid set breaks a range, LANE.TEST where its value is allowed and the port is not enabled, rejected
otherwise, and the guarded UNRETIRE and CLR_TOTAL. That TEST_EN with RATE 0, 6 or 7 is rejected is the model's choice
(assumption 105). -/
def Obligations.LaneWrites : Prop :=
  (∀ (s : State) (r : Req) (l : Fin 512) (v : Word), s.listens r (A.LANE_CTRL l.val) = true →
    let u := heard s r 1
    Ends (.laneCtrlWrite r l v) s (settle (laneAfter u (writeLaneCtrl u l.val v.toNat) l.val))) ∧
  (∀ (s : State) (r : Req) (l : Fin 512), s.listens r (A.LANE_CTRL l.val) = true →
    let u := heard s r 1
    Ends (.retrain r l) s
      (settle (laneAfter u (writeLaneCtrl u l.val ((s.rd (A.LANE_CTRL l.val) + 0x8000) % 2 ^ 32)) l.val))) ∧
  (∀ (s : State) (r : Req) (l : Fin 512) (m : Fin 3) (w : Fin 7) (v : Word),
    s.listens r (A.LANE_EQ_TBL l.val m.val w.val) = true →
    let u := heard s r 1
    (∀ t, writeEqWord u l.val m.val w.val v.toNat = some t →
      Ends (.laneEqTableWrite r l m w v) s (settle (laneAfter u t l.val))) ∧
    (writeEqWord u l.val m.val w.val v.toNat = none →
      Ends (.laneEqTableWrite r l m w v) s (rejected u r (A.LANE_EQ_TBL l.val m.val w.val)))) ∧
  (∀ (s : State) (r : Req) (l : Fin 512) (v : Word), s.listens r (A.LANE_EQ_VALID l.val) = true →
    let u := heard s r 1
    (∀ t, writeEqValid u l.val (v.toNat % 8) = some t →
      Ends (.laneEqValidWrite r l v) s (settle (laneAfter u t l.val))) ∧
    (writeEqValid u l.val (v.toNat % 8) = none →
      Ends (.laneEqValidWrite r l v) s (rejected u r (A.LANE_EQ_VALID l.val)))) ∧
  (∀ (s : State) (r : Req) (l : Fin 512) (v : Word), s.listens r (A.LANE_TEST l.val) = true →
    let u := heard s r 1
    let p := portOfLane l.val
    (laneTestBad v.toNat = false → (v.toNat.testBit 0 && portEnabled u p) = false →
      Ends (.laneTestWrite r l v) s (settle (laneAfter u
        (writeLaneTest u l.val v.toNat (givenMode u p (l.val % 8)) (decide (typeEff u p = 13))) l.val))) ∧
    (laneTestBad v.toNat = true ∨ (v.toNat.testBit 0 = true ∧ portEnabled u p = true) →
      Ends (.laneTestWrite r l v) s (rejected u r (A.LANE_TEST l.val)))) ∧
  (∀ (s : State) (r : Req) (l : Fin 512), s.listens r (A.LANE_FAULT_CTRL l.val) = true →
    let u := heard s r 2
    Ends (.unretire r l) s (settle (laneAfter u (unretire u l.val) l.val))) ∧
  (∀ (s : State) (r : Req) (l : Fin 512), s.listens r (A.LANE_FAULT_CTRL l.val) = true →
    EndsWith (.clrTotal r l) s fun t =>
      t.fld (A.LANE_FAULT l.val) 23 16 = 0 ∧ t.fld (A.LANE_FAULT l.val) 7 4 = 0 ∧
      RegsKept s t (fun a => decide (a = A.LANE_FAULT l.val) || (countsHost a && decide (r = .host))) ∧ BanksKept s t)

/-- Writes of a port's registers and its link (R92 to R98, R102, R114 to R120): a rejected value leaves the register;
link up and loss, the end of a quench, negotiation, the module and its sideband chain. The order of the common types is
presumed (assumption 46), and the FEC that both ends have is the model's choice (assumption 76). -/
def Obligations.PortCommands : Prop :=
  (∀ (s : State) (r : Req) (p : Fin 64) (v : Word), s.listens r (A.PORT_CFG p.val) = true →
    let u := heard s r 1
    (portCfgBad u p.val (v.toNat &&& 0x00FF073F) = false →
      Ends (.portCfgWrite r p v) s (settle (writePortCfg u p.val v.toNat))) ∧
    (portCfgBad u p.val (v.toNat &&& 0x00FF073F) = true →
      Ends (.portCfgWrite r p v) s (rejected u r (A.PORT_CFG p.val)))) ∧
  (∀ (s : State) (r : Req) (p : Fin 64) (b : Bool), s.listens r (A.PORT_CTRL p.val) = true →
    let u := heard s r 1
    (enableBad u p.val b = false → Ends (.portEnableWrite r p b) s (settle (writeEnable u p.val b))) ∧
    (enableBad u p.val b = true → Ends (.portEnableWrite r p b) s (rejected u r (A.PORT_CTRL p.val)))) ∧
  (∀ (s : State) (r : Req) (p : Fin 64), s.listens r (A.PORT_CTRL p.val) = true →
    let u := heard s r 1
    enableBad u p.val (portEnabled s p.val) = false →
    Ends (.restart r p) s (settle (restartPort u p.val))) ∧
  (∀ (s : State) (p : Fin 64), s.portRuns p.val = true → inRun s = true → portState s p.val = 1 → typeEff s p.val ≠ 0 →
    typeEff s p.val ≠ 13 → (s.port p.val).stage = .off → lanesServe s p.val = true → moduleReady s p.val = true →
    Ends (.portLinkUp p) s (settle (enterUp s p.val))) ∧
  (∀ (s : State) (p : Fin 64), s.portRuns p.val = true → portUp s p.val = true →
    Ends (.portLinkLoss p) s (settle (startQuench s p.val false))) ∧
  (∀ (s : State) (p : Fin 64), s.portRuns p.val = true → quenchOver s p.val = true →
    Ends (.quenchDone p) s (settle (quenchDone s p.val))) ∧
  (∀ (s : State) (p : Fin 64) (common : BitVec 16) (fec : BitVec 2), s.portRuns p.val = true → negotiating s p.val = true →
    s.runs (.anRestart p.val) = false →
    (∀ t, (anOrder.find? fun t => advertises s p.val t && common.toNat.testBit t) = some t →
      let u := putPort s p.val { s.port p.val with fec := commonFec s p.val fec.toNat }
      Ends (.anComplete p common fec) s (settle (markDegraded (takeType u p.val t) p.val t))) ∧
    ((anOrder.find? fun t => advertises s p.val t && common.toNat.testBit t) = none →
      Ends (.anComplete p common fec) s (settle (s.start (.anRestart p.val) (1000 * ms))))) ∧
  (∀ (s : State) (p : Fin 64), s.portRuns p.val = true → s.due (.anRestart p.val) = true →
    Ends (.anRestartTimer p) s (settle (startAn (s.stop (.anRestart p.val)) p.val))) ∧
  (∀ (s : State) (prs int : BitVec 64), s.awake = true →
    Ends (.sidebandScan prs int) s (settle ((List.range 64).foldl
      (fun s p => sidebandPort s p (!prs.toNat.testBit p) (!int.toNat.testBit p)) (sidebandOut s)))) ∧
  (∀ (s : State) (p : Fin 64), s.islandRuns 5 = true → (s.port p.val).present = true →
    Ends (.moduleDatapathActivated p) s (settle (putPort s p.val { s.port p.val with modReady := true })))

/-- Received pauses and MAC control frames (R96, R113, R262, R265), and step-up (R99 to R102). That a page comes as the
four control blocks that can hold it is the model's choice (assumption 76), and so is what STEP2_FAIL leaves to a later
bring-up (assumption 105). -/
def Obligations.PauseAndStepUpCommands : Prop :=
  (∀ (s : State) (p : Fin 64) (v : BitVec 8) (q : Vector (BitVec 16) 8), s.portRuns p.val = true → portUp s p.val = true →
    let u := s.pmcEvent (runnerOfPort p.val) (0x045 + 16 * (p.val % 4)) 1
    (isTrunk u p.val = true ∨ (pfcActs u p.val v.toNat).isEmpty = true →
      Ends (.pfcFrameRx p v q) s (u.add64 (A.PORT_PAUSE_RX_LO p.val) 1)) ∧
    (isTrunk u p.val = false → (pfcActs u p.val v.toNat).isEmpty = false →
      Ends (.pfcFrameRx p v q) s ((pfcActs u p.val v.toNat).foldl (fun s c =>
        let n := (q.toList.map (·.toNat)).getD c 0
        if n = 0 then s.stop (.pfcPause p.val c) else s.start (.pfcPause p.val c) (pauseNs s p.val n)) u))) ∧
  (∀ (s : State) (p : Fin 64) (c : Fin 8), s.portRuns p.val = true → s.due (.pfcPause p.val c.val) = true →
    EndsWith (.pfcPauseExpiry p c) s fun t =>
      t.runs (.pfcPause p.val c.val) = false ∧ (∀ x, x ≠ .pfcPause p.val c.val → t.timer x = s.timer x) ∧
      RegsKept s t (fun _ => false) ∧ BanksKept s t) ∧
  (∀ (s : State) (p : Fin 64) (o : BitVec 16), s.portRuns p.val = true → portUp s p.val = true → o ≠ 0x0101 →
    EndsWith (.macControlRx p o) s fun t =>
      t.rd64 (A.PORT_PAUSE_RX_LO p.val) = (s.rd64 (A.PORT_PAUSE_RX_LO p.val) + 1) % 2 ^ 64 ∧
      RegsKept s t (fun a => decide (a = A.PORT_PAUSE_RX_LO p.val) || decide (a = A.PORT_PAUSE_RX_LO p.val + 4)) ∧
      BanksKept s t ∧ t.timers = s.timers) ∧
  (∀ (s : State) (p : Fin 64) (c : Fin 8), s.portRuns p.val = true → s.due (.pfcRepeat p.val c.val) = true →
    portUp s p.val = true →
    Ends (.pfcXoffRepeat p c) s (sendPfc (s.stop (.pfcRepeat p.val c.val)) p.val c.val (pfcQuanta s))) ∧
  (∀ (s : State) (p : Fin 64) (blocks : List (BitVec 2 × List Byte)), s.portRuns p.val = true →
    (s.port p.val).stage = .nrz → portState s p.val = 1 →
    (∀ b, pageOf blocks = some b → pageValid b = true →
      Ends (.stepupPageRx p blocks) s (settle (stepUpPage s p.val b))) ∧
    ((∃ x ∈ blocks, x.1 ≠ 0b10) → Ends (.stepupPageRx p blocks) s s)) ∧
  (∀ (s : State) (p : Fin 64), s.portRuns p.val = true → s.due (.suPartner p.val) = true →
    Ends (.stepupNoPartnerTimeout p) s (settle (enterHeld s p.val 4))) ∧
  (∀ (s : State) (p : Fin 64), s.portRuns p.val = true → (s.port p.val).stage = .slow → portState s p.val = 1 →
    lanesServe s p.val = true →
    Ends (.stepupSlowLinkOk p) s
      (settle ((setStage (s.stop (.suSlow p.val)) p.val .qual).start (.suQual p.val) (100 * ms)))) ∧
  (∀ (s : State) (p : Fin 64), s.portRuns p.val = true → s.due (.suSlow p.val) = true →
    Ends (.stepupSlowTimeout p) s (settle (startNrz (portEvent s p.val 128) p.val))) ∧
  (∀ (s : State) (p : Fin 64), s.portRuns p.val = true → s.due (.suQual p.val) = true →
    ((s.port p.val).fast = true → Ends (.stepupQualDone p) s (settle
      ((takeType (setStage (stopPort s p.val) p.val .fast) p.val (typeOfWidth 5 (s.port p.val).width)).start
        (.suFast p.val) (1000 * ms)))) ∧
    ((s.port p.val).fast = false → moduleReady s p.val = true → Ends (.stepupQualDone p) s (settle (enterUp
      (if (s.port p.val).width < typeLanes (portType s p.val) then markDegraded s p.val (typeEff s p.val) else s) p.val)))) ∧
  (∀ (s : State) (p : Fin 64), s.portRuns p.val = true → (s.port p.val).stage = .fast → portState s p.val = 1 →
    lanesServe s p.val = true → moduleReady s p.val = true → s.due (.suFast p.val) = false →
    Ends (.stepupFastLinkOk p) s (settle (enterUp
      (if (s.port p.val).width < typeLanes (portType s p.val) then markDegraded s p.val (typeEff s p.val) else s) p.val))) ∧
  (∀ (s : State) (p : Fin 64), s.portRuns p.val = true → s.due (.suFast p.val) = true →
    let u := portEvent (s.setBit (A.PORT_STAT p.val) 8 true) p.val 128
    Ends (.stepupFastTimeout p) s (settle (startSlow (putPort u p.val { s.port p.val with fast := false }) p.val))) ∧
  (∀ (s : State) (p : Fin 64), s.portRuns p.val = true → s.due (.holdRetry p.val) = true →
    Ends (.stepupHoldRetry p) s (settle (bringUp s p.val))) ∧
  (∀ (s : State) (p : Fin 64), s.portRuns p.val = true → (s.port p.val).stage = .qual → portState s p.val = 1 →
    EndsWith (.stepupQualCodewordError p) s fun t =>
      t.timer (.suQual p.val) = some (s.now + 100 * ms) ∧ RegsKept s t (fun _ => false) ∧ BanksKept s t) ∧
  (∀ (s : State) (p : Fin 64), s.portRuns p.val = true → (s.port p.val).stage = .qual → portState s p.val = 1 →
    Ends (.stepupQualLinkFault p) s
      (settle ((setStage (s.stop (.suQual p.val)) p.val .slow).start (.suSlow p.val) (1000 * ms))))

/-- Trunks (R103 to R112): markers, link blocks and HELLOs leave and arrive, and their limits pass. In a block a
latency-locked record goes first, then a resend, a record of a timed action, NULL or DATA: this order, the grid of the
blocks and the period of the markers on TB0 are the model's choices (assumptions 77, 78 and 105). -/
def Obligations.TrunkCommands : Prop :=
  (∀ (s : State) (p : Fin 64), s.portRuns p.val = true → runsTrunk s p.val = true → 1 ≤ trunkState s p.val →
    portStalled s p.val = false → markerDue s p.val = true → Ends (.trunkMarkerTx p) s (settle (markerTx s p.val))) ∧
  (∀ (s : State) (p : Fin 64) (j : Fin 8) (n : Nat) (b : List Byte) (t : Nat), s.portRuns p.val = true →
    runsTrunk s p.val = true → inService s (8 * p.val + j.val) = true → trunkState s p.val ≠ 0 → markerValid (toNats b) = true →
    Ends (.trunkMarkerRx p j n 2 b t) s (settle (goodMarker s p.val j.val n (toNats b) t))) ∧
  (∀ (s : State) (p : Fin 64), s.portRuns p.val = true → canSend s p.val = true →
    let u := startBlock s p.val
    (trunkState u p.val = 2 → Ends (.trunkBlockTx p) s (settle (sendNull u p.val))) ∧
    (trunkState u p.val ≠ 2 → linkOn u p.val = true →
      let w := windowOpen u p.val none
      (∀ c l, sendableLl w p.val = c :: l → Ends (.trunkBlockTx p) s (settle (sendData w p.val c))) ∧
      (sendableLl w p.val = [] →
        (∀ x, (w.trunk p.val).goback = some x → Ends (.trunkBlockTx p) s (settle (resend w p.val x))) ∧
        ((w.trunk p.val).goback = none → sendable w p.val = [] → Ends (.trunkBlockTx p) s (settle (sendNull w p.val))) ∧
        ((w.trunk p.val).goback = none → actionWaits w p.val = true →
          Ends (.trunkBlockTx p) s (settle (sendData w p.val 7))) ∧
        (∀ c, (w.trunk p.val).goback = none → sendable w p.val = [c] →
          Ends (.trunkBlockTx p) s (settle (sendData w p.val c)))))) ∧
  (∀ (s : State) (p : Fin 64) (b : List Byte), s.portRuns p.val = true → runsTrunk s p.val = true →
    2 ≤ trunkState s p.val → Ends (.trunkBlockRx p b) s (settle (blockRx s p.val (toNats b)))) ∧
  (∀ (s : State) (p : Fin 64), s.portRuns p.val = true → runsTrunk s p.val = true → canSend s p.val = true →
    (s.trunk p.val).helloAt ≤ s.now → sendableLl s p.val = [] → windowDue s p.val = none →
    Ends (.trunkHelloTx p) s (helloTx s p.val)) ∧
  (∀ (s : State) (p : Fin 64) (b : List Byte), s.portRuns p.val = true → runsTrunk s p.val = true →
    2 ≤ trunkState s p.val → Ends (.trunkHelloRx p b) s (settle (helloRx s p.val (toNats b)))) ∧
  (∀ (s : State) (p : Fin 64), s.portRuns p.val = true → s.due (.trunkAlign p.val) = true →
    Ends (.trunkAlignTimeout p) s (settle (toHello (s.stop (.trunkAlign p.val)) p.val))) ∧
  (∀ (s : State) (p : Fin 64), s.portRuns p.val = true → s.due (.trunkHello p.val) = true → trunkState s p.val = 2 →
    Ends (.trunkHelloTimeout p) s (settle (setTrunkState (s.stop (.trunkHello p.val)) p.val 1))) ∧
  (∀ (s : State) (p : Fin 64), s.portRuns p.val = true → s.due (.conflictRetry p.val) = true → portState s p.val = 4 →
    (holdCause s p.val = 0 → Ends (.trunkConflictRetry p) s (settle (toHello
      (setTrunkState (setHold (setPortState (s.stop (.conflictRetry p.val)) p.val 1) p.val 0) p.val 1) p.val))) ∧
    (holdCause s p.val ≠ 0 → Ends (.trunkConflictRetry p) s (settle (enterHeld s p.val (holdCause s p.val)))))

/-! Time bases, PTP and references. -/

/-- FTIME's three words hold a time without loss (R7, R8): a time below the format's end is read back from its words,
and words whose nanoseconds are below one second are read back from their time. -/
def Obligations.FtimeWordsRoundTrip : Prop :=
  (∀ t : Nat, t < ftWrap → ftOfWords (ftW2 t) (ftW1 t) (ftW0 t) = t) ∧
  (∀ w2 w1 w0 : Nat, w2 < 2 ^ 32 → w1 < 2 ^ 32 → w0 < 1000000000 →
    ftOfWords w2 w1 w0 < ftWrap ∧ ftW2 (ftOfWords w2 w1 w0) = w2 ∧ ftW1 (ftOfWords w2 w1 w0) = w1 ∧
      ftW0 (ftOfWords w2 w1 w0) = w0)

/-- TB_ADVANCE (R122): while TCLK runs, each period moves a time base whose rate is steady by 2 ns × (1 + RATE × 10⁻¹²),
exactly, the part below the accumulator's last bit carried on; without TCLK no time base moves; and j then k periods
leave every time base where j + k periods do. That true time moves by 2 ns a period, without TCLK too, is the model's
choice (assumption 2). -/
def Obligations.TimeBaseAdvance : Prop :=
  (∀ (s : State) (k n : Nat), tclkRuns s = true → n < 8 → (s.tb n).target = tbRate s n →
    ∃ t, exec (.tbAdvance k) s = .next t ∧ t.now = s.now + 2 * k ∧ t.pending = s.pending ∧
      t.tb n = advanceAcc (s.tb n) (tbRate s n) k ∧ tbRate t n = tbRate s n ∧ BanksKept s t) ∧
  (∀ (s : State) (k n : Nat), tclkRuns s = false → n < 8 →
    ∃ t, exec (.tbAdvance k) s = .next t ∧ t.now = s.now + 2 * k ∧ t.pending = s.pending ∧ t.tb n = s.tb n) ∧
  (∀ (h : TbHidden) (rate : Int) (k : Nat), -rateMax ≤ rate → h.acc < ftWrap * 2 ^ 32 →
    let g := advanceAcc h rate k
    g.acc < ftWrap * 2 ^ 32 ∧ g.residue < 1000000000000 ∧
    ∃ wraps : Nat, ((g.acc + wraps * (ftWrap * 2 ^ 32) : Nat) : Int) * 1000000000000 + (g.residue : Int) =
      (h.acc : Int) * 1000000000000 + (h.residue : Int) + 2 * 2 ^ 48 * (1000000000000 + rate) * (k : Int)) ∧
  (∀ (s s1 s2 s3 : State) (j k n : Nat), n < 8 → (∀ m, m < 8 → (s.tb m).target = tbRate s m) →
     exec (.tbAdvance j) s = .next s1 → exec (.tbAdvance k) s1 = .next s2 → exec (.tbAdvance (j + k)) s = .next s3 →
     s2.tb n = s3.tb n ∧ s2.now = s3.now)

/-- Reads, latches, arms, steps and sources of the time bases (R11, R123, R125 to R133, R135, R424). A change of source
to one that is lost, TMO during a wait and the integral at LOCKED are the model's choices (assumption 106). -/
def Obligations.TimeBaseCommands : Prop :=
  (∀ (s : State) (r : Req) (n : Fin 8), s.power.die = true → waitsAtCore s r = false →
    gateOpen s r (A.TIM_TB_TIME_W2 n.val) = true →
    EndsWith (.tbTimeRead r n) s fun t =>
      (Map.get 0 t.shadows (2 * n.val + reqNum r) = shownTime s n.val) ∧
      (∀ k, k ≠ 2 * n.val + reqNum r → Map.get 0 t.shadows k = Map.get 0 s.shadows k) ∧
      RegsKept s t (fun a => countsHost a && decide (r = .host)) ∧ BanksKept s t ∧ t.tbs = s.tbs) ∧
  (∀ (s : State) (r : Req) (v : Word), s.listens r A.TIM_LATCH = true →
    EndsWith (.latch r v) s fun t =>
      (∀ n, n < 8 → v.toNat.testBit n = true → shownTime s n < ftWrap → t.rdTime (A.TIM_TB_LAT_W2 n) = shownTime s n) ∧
      (∀ n, n < 8 → v.toNat.testBit n = false → t.rdTime (A.TIM_TB_LAT_W2 n) = s.rdTime (A.TIM_TB_LAT_W2 n)) ∧ t.tbs = s.tbs) ∧
  (∀ (s : State) (r : Req) (m : BitVec 8), s.listens r A.TIM_ARM = true →
    EndsWith (.arm r m) s fun t =>
      (∀ n, n < 8 → tbArmed t n = (tbArmed s n || m.toNat.testBit n)) ∧ t.tbs = s.tbs ∧ BanksKept s t) ∧
  (∀ (s : State) (r : Req) (n : Fin 8) (w0 : Word), s.listens r (A.TIM_TB_SET_W0 n.val) = true → w0.toNat < 1000000000 →
    let u := heard s r 1
    let a := A.TIM_TB_SET_W0 n.val
    let x := ftOfWords (Map.get 0 s.staged (2 * (a - 8) + reqNum r)).toNat (Map.get 0 s.staged (2 * (a - 4) + reqNum r)).toNat
      w0.toNat
    (tbArmed s n.val = true → stepPend s n.val = false →
      Ends (.tbSetStep r n w0) s (settle (setStep (u.wrTime (a - 8) x) n.val x))) ∧
    (tbArmed s n.val = false → Ends (.tbSetStep r n w0) s (rejected u r a))) ∧
  (∀ (s : State) (d : Int) (x : Nat), s.power.ka = true → s.power.die = true → (s.tb 0).step = some (d, x) →
    inGap s = false → x ≤ tb0 s →
    let t := followStep s 0 d
    Ends .tb0StepApply s (settle
      (assayStep (lldStep (riserStep t ((tb0 t : Int) - (tb0 s : Int))) x ((tb0 t : Int) - (tb0 s : Int)))))) ∧
  (∀ (s : State) (r : Req) (n : Fin 8) (v : Word), s.listens r (tbSrc n.val) = true →
    let u := heard s r 1
    let bad := 9 ≤ bits v.toNat 3 0 ∨ (bits v.toNat 3 0 = 1 ∧ n.val ≠ 0)
    (¬bad → Ends (.tbSrcWrite r n v) s (settle (changeSource u n.val (v.toNat &&& maskOf (tbSrc n.val))))) ∧
    (bad → Ends (.tbSrcWrite r n v) s (rejected u r (tbSrc n.val)))) ∧
  (∀ (s : State) (k : Fin 4), s.power.ka = true → refPps s k.val = true → refState s k.val ≠ 0 →
    annealHolds s 7 k.val = false →
    Ends (.ppsEdgeSample k (s.bit (A.REF_CFG k.val) 0)) s (settle ((List.range 8).foldl
      (fun s n => if takesRef s n k.val then phaseSample s n (ppsTheta s n k.val) else s) (s.setBit (A.REF_STAT k.val) 27 true)))) ∧
  (∀ (s : State) (n : Fin 8) (ppt : Int), s.power.ka = true → srcRateOnly s (srcSel s n.val) = true →
    (∃ k, k < 6 ∧ takesRef s n.val k = true ∧ refSees s k = true) →
    (n.val ∉ s.refs.spoilt → Ends (.freqEstimate n ppt) s (settle (rateSample s n.val ppt))) ∧
    (n.val ∈ s.refs.spoilt → Ends (.freqEstimate n ppt) s
      (settle { s with refs := { s.refs with spoilt := s.refs.spoilt.filter (· ≠ n.val) } }))) ∧
  (∀ (s : State) (n : Fin 8), s.power.ka = true → s.due (.tbHold n.val) = true →
    Ends (.tbHoldTimeout n) s (enterHoldover s n.val))

/-- PTP (R131, R134 to R136, R142, R145 to R148, R340), its messages as the bytes of frames, and references (R154 to
R168). The codes of states and messages and their layouts are presumed from IEEE 1588 (assumptions 45 and 81), and the
spacing of Sync and Delay_Req is the model's choice (assumption 81). -/
def Obligations.PtpAndReferenceCommands : Prop :=
  (∀ (s : State) (p : Fin 64) (m f : List Byte) (st : RxStamp), s.portRuns p.val = true → ptpRuns s p.val = true →
    let b := toNats m
    let g := toNats f
    (msgTaken s p.val b = false → Ends (.ptpSyncSample p m f st) s (settle (ptpDiscard s p.val))) ∧
    (msgTaken s p.val b = true → msgKind b = 0 → msgTwoStep b = false →
      Ends (.ptpSyncSample p m f st) s (settle (syncSample s p.val (msgTime b) st))) ∧
    (msgTaken s p.val b = true → msgKind b = 0 → msgTwoStep b = true → msgTaken s p.val g = true → msgKind g = 8 →
      msgSeq g = msgSeq b →
      Ends (.ptpSyncSample p m f st) s (settle (syncSample s p.val (msgTime g + msgCorrection b) st)))) ∧
  (∀ (s : State) (p : Fin 64) (st : TxStamp), s.portRuns p.val = true → ptpRuns s p.val = true → ptpState s p.val = 6 →
    (s.ptpOf p.val).syncAt ≤ s.now → mayStartEvent s p.val 0 (s.ptpOf p.val).syncSeq = true →
    let h := s.ptpOf p.val
    let d := ptpInterval (s.fld (A.PTP_CFG p.val) 27 24)
    Ends (.ptpSyncTx p st) s
      (sendEvent (putPtp s p.val { h with syncSeq := (h.syncSeq + 1) % 65536, syncAt := s.now + d }) p.val 0 h.syncSeq st)) ∧
  (∀ (s : State) (p : Fin 64) (st : TxStamp), s.portRuns p.val = true → ptpRuns s p.val = true → 8 ≤ ptpState s p.val →
    (s.ptpOf p.val).reqAt ≤ s.now → mayStartEvent s p.val 1 (s.ptpOf p.val).reqSeq = true →
    let h := s.ptpOf p.val
    let d := ptpInterval (s.fld (A.PTP_CFG p.val) 31 28)
    Ends (.ptpDelayReqTx p st) s
      (sendEvent (putPtp s p.val { h with reqSeq := (h.reqSeq + 1) % 65536, req := none, reqAt := s.now + d }) p.val 1
        h.reqSeq st)) ∧
  (∀ (s : State) (p : Fin 64) (m : List Byte) (st : RxStamp), s.portRuns p.val = true → ptpRuns s p.val = true →
    ptpState s p.val = 6 → msgTaken s p.val (toNats m) = true → msgKind (toNats m) = 1 →
    Ends (.ptpDelayReqRx p m st) s
      (sendGeneral s p.val 9 (msgSeq (toNats m)) (rxTime s p.val st) (-(msgCorrection (toNats m))) (msgSource (toNats m)))) ∧
  (∀ (s : State) (p : Fin 64) (m : List Byte), s.portRuns p.val = true → ptpRuns s p.val = true →
    8 ≤ ptpState s p.val → msgTaken s p.val (toNats m) = true → msgKind (toNats m) = 9 →
    msgTarget (toNats m) = portIdentity s p.val → (msgSeq (toNats m) + 1) % 65536 = (s.ptpOf p.val).reqSeq →
    Ends (.ptpDelayRespRx p m) s (delayExchange s p.val (msgTime (toNats m)))) ∧
  (∀ (s : State) (p : Fin 64) (m : List Byte), s.portRuns p.val = true → ptpRuns s p.val = true →
    msgTaken s p.val (toNats m) = false →
    EndsWith (.ptpMessageDiscard p m) s fun t =>
      t.rd64 (A.PTP_DISCARDS_LO p.val) = (s.rd64 (A.PTP_DISCARDS_LO p.val) + 1) % 2 ^ 64 ∧
      RegsKept s t (fun a => decide (a = A.PTP_DISCARDS_LO p.val) || decide (a = A.PTP_DISCARDS_LO p.val + 4)) ∧
      BanksKept s t ∧ t.ptps = s.ptps) ∧
  (∀ (s : State) (p : Fin 64) (m : List Byte), s.portRuns p.val = true → ptpRuns s p.val = true →
    msgTaken s p.val (toNats m) = true → msgKind (toNats m) = 11 ∨ msgKind (toNats m) = 12 →
    let u := putPtp s p.val { s.ptpOf p.val with general := m }
    Ends (.ptpGeneralRx p m) s
      (settle (if l1On u p.val && decide (msgKind (toNats m) = 12) && msgTlv 0x8001 (toNats m) then drawL1 u p.val else u))) ∧
  (∀ (s : State) (port : Option (Fin 64)) (l : List (Fin 64 × Fin 10)) (n : Nat), s.islandRuns 5 = true →
    s.boot.started = true →
    Ends (.bmcaSelect port l n) s (settle (writeDepth (bmca s port l) n))) ∧
  (∀ (s : State) (p : Fin 64) (ph : BitVec 24) (ppt : Int), s.portRuns p.val = true → (offeredLane s p.val).isSome = true →
    EndsWith (.portPhaseMeasure p ph ppt) s fun t =>
      t.rd (A.PTP_PHASE p.val) = 2 ^ 31 + ph.toNat ∧ t.rd (A.PTP_FREQ p.val) = ofSigned 32 ppt ∧
      RegsKept s t (fun a => decide (a = A.PTP_PHASE p.val) || decide (a = A.PTP_FREQ p.val)) ∧ BanksKept s t) ∧
  (∀ s : State, s.power.ka = true → s.bit A.REF_XO_STAT 0 = false →
    Ends .xoLoss s (refEvent (s.setBit A.REF_XO_STAT 0 true) 64)) ∧
  (∀ s : State, s.power.ka = true → EndsWith .xoRecover s fun t =>
    t.bit A.REF_XO_STAT 0 = false ∧ RegsKept s t (fun a => decide (a = A.REF_XO_STAT)) ∧ BanksKept s t) ∧
  (∀ (s : State) (k : Fin 6), s.power.ka = true → refState s k.val ≠ 0 →
    Ends (.refInactive k) s (settle (referenceLost s k.val))) ∧
  (∀ (s : State) (k : Fin 6) (ppt : Int), s.power.ka = true → refState s k.val ≠ 0 →
    Ends (.refFreqMeasure k ppt) s (settle (refMeasure s k.val ppt))) ∧
  (∀ (s : State) (k : Fin 6), s.power.ka = true → refState s k.val = 2 → s.due (.refQual k.val) = true →
    Ends (.refQualDone k) s (settle (refChanged (refToValid s k.val)))) ∧
  (∀ (s : State) (r : Req) (v : Word), s.listens r A.REF_SUSP_CLR = true →
    Ends (.suspClr r v) s (settle (suspClear (heard s r 1) (v.toNat % 64)))) ∧
  (∀ (s : State) (r : Req) (k : Fin 6) (v : Word), s.listens r (A.REF_CFG k.val) = true →
    Ends (.refCfgWrite r k v) s (settle (writeRefCfg (heard s r 1) k.val (v.toNat &&& 0x80000F01)))) ∧
  (∀ s : State, s.power.ka = true → selState s = 1 → refSees s (selCur s) = true →
    Ends .refSwitchAcquired s
      (settle (wtrEval (checkSources (refEvent (s.setFld A.REF_SEL_STAT 31 28 2) 2))))) ∧
  (∀ s : State, s.power.ka = true → selState s = 2 → s.due .refWtr = true → refValid s (wtrRef s) = true →
    Ends .refWtrExpiry s (settle (selSwitch (refEvent s 4) (wtrRef s)))) ∧
  (∀ (s : State) (r : Req) (v : Word), s.listens r A.REF_SEL_CTRL = true →
    let u := heard s r 1
    (∀ t, writeSelCtrl u (v.toNat &&& 0xFFFF0077) = some t → Ends (.refSelWrite r v) s (settle t)) ∧
    (writeSelCtrl u (v.toNat &&& 0xFFFF0077) = none → Ends (.refSelWrite r v) s (rejected u r A.REF_SEL_CTRL)))

/-! Clocks, pulses and intervals. -/

/-- Synthesizers (R170 to R180) and island loops (R182 to R184). ALIGNED after a step or a slew (assumption 43) and what
a stopped island loses (assumption 35) are the model's readings; the phase and the edge at which OUT_EN acts are its
choices (assumption 82). -/
def Obligations.SynthAndLoopCommands : Prop :=
  (∀ (s : State) (r : Req) (k : Fin 8) (reg : SynReg) (v : Word),
    let a := synRegAddr k.val reg
    s.listens r a = true → Decided (.synCfgWrite r k reg v) s r a
      (fun u => synRejects u k.val reg (v.toNat &&& maskOf a)) (fun u => synWrite u k.val reg (v.toNat &&& maskOf a))) ∧
  (∀ (s : State) (k : Fin 8), tclkRuns s = true → (s.syn k.val).turn = .fell →
    EndsWith (.synOutputEnableApply k) s fun t =>
    (t.syn k.val).outOn = (s.bit (A.PLL_SYN_CFG k.val) 30 && decide (2 ≤ synState s k.val ∧ synState s k.val ≤ 4)) ∧
      (t.syn k.val).turn = .idle ∧ (∀ j, j ≠ k.val → t.syn j = s.syn j) ∧ RegsKept s t (fun _ => false) ∧ BanksKept s t) ∧
  (∀ (s : State) (k : Fin 8), tclkRuns s = true →
    (synState s k.val = 2 → Ends (.synLockLost k) s
      (toRelock (setAligned (slewStop (synEvent s k.val 1) k.val) k.val false) k.val)) ∧
    (synState s k.val = 3 →
      let u := setAligned (slewStop (rampAbort (synEvent s k.val 1) k.val) k.val) k.val false
      Ends (.synLockLost k) s (toRelock (putSyn u k.val { u.syn k.val with present := some (synNt u k.val) }) k.val))) ∧
  (∀ (s : State) (k : Fin 8), tclkRuns s = true →
    let u := synEvent (drawPhase (((setSynState s k.val 2).stop (.synRelock k.val)).stop (.synRetry k.val)) k.val) k.val 2
    (synState s k.val = 4 → Ends (.synRelocked k) s u) ∧ (synState s k.val = 5 → Ends (.synRelocked k) s (outSoon u k.val))) ∧
  (∀ (s : State) (k : Fin 8), tclkRuns s = true → synState s k.val = 4 → s.due (.synRelock k.val) = true →
    let u := (setSynState s k.val 5).stop (.synRelock k.val)
    Ends (.synRelockTimeout k) s
      ((synEvent (putSyn u k.val { u.syn k.val with outOn := false }) k.val 128).start (.synRetry k.val) (10 * ms))) ∧
  (∀ (s : State) (k : Fin 8), tclkRuns s = true → synState s k.val = 5 → s.due (.synRetry k.val) = true →
    EndsWith (.synRelockRetry k) s fun t =>
      t.timer (.synRetry k.val) = some (s.now + 10 * ms) ∧ RegsKept s t (fun _ => false) ∧ BanksKept s t) ∧
  (∀ (s : State) (r : Req) (k : Fin 8) (b : Bool), s.listens r (A.PLL_SYN_RAMP k.val) = true →
    Decided (.synRampGo r k b) s r (A.PLL_SYN_RAMP k.val) (fun u => rampRejects u k.val)
      (fun u => rampGo (u.setBit (A.PLL_SYN_RAMP k.val) 1 b) k.val)) ∧
  (∀ (s : State) (k : Fin 8), tclkRuns s = true → inGap s = false → synWaits s k.val = true → synAtReached s k.val = true →
    Ends (.synRampAt k) s (rampStart s k.val)) ∧
  (∀ (s : State) (k : Fin 8), tclkRuns s = true → inGap s = false → synRamping s k.val = true → s.due (.synSeg k.val) = true →
    let j := s.fld (A.PLL_SYN_STAT k.val) 23 16
    (15 ≤ j ∨ segDur s k.val (j + 1) = 0 → Ends (.synRampSegmentEnd k) s (rampEnd s k.val)) ∧
    (j < 15 → segDur s k.val (j + 1) ≠ 0 → EndsWith (.synRampSegmentEnd k) s fun t =>
      t.fld (A.PLL_SYN_STAT k.val) 23 16 = j + 1 ∧ (t.syn k.val).done = (s.syn k.val).done + segShare s k.val j ∧
      t.timer (.synSeg k.val) = some (s.now + segDur s k.val (j + 1)) ∧
      RegsKept s t (fun a => decide (a = A.PLL_SYN_STAT k.val)) ∧ BanksKept s t)) ∧
  (∀ (s : State) (r : Req) (k : Fin 8), s.listens r (A.PLL_SYN_RAMP k.val) = true →
    let u := heard s r 1
    Ends (.synRampStop r k) s
      (rampStop (u.setBit (A.PLL_SYN_RAMP k.val) 1 (s.bit (A.PLL_SYN_RAMP k.val) 1)) k.val)) ∧
  (∀ (s : State) (k : Fin 8) (f : Bool) (late : Fin 2000), tclkRuns s = true → inGap s = false →
    alignAdmits s k.val f = true →
    let e := (alignError s k.val late.val).1
    let w := (alignError s k.val late.val).2
    let u := slewStop (putSyn (w.wr (A.PLL_SYN_ALERR k.val) (ofSigned 32 e)) k.val { w.syn k.val with once := false }) k.val
    let near := e.natAbs ≤ u.fld (A.PLL_SYN_ALIGN k.val) 15 0
    let step := u.bit (A.PLL_SYN_CFG k.val) 30 = false ∨ u.bit (A.PLL_SYN_CFG k.val) 20 = true
    (near → Ends (.synAlignEdge k f late) s (synEvent (setAligned u k.val true) k.val 64)) ∧
    (¬near → step → Ends (.synAlignEdge k f late) s (synEvent (setAligned (stepPhase u k.val e) k.val true) k.val 32)) ∧
    (¬near → ¬step → Ends (.synAlignEdge k f late) s
      (setAligned (slewBegin u k.val e) k.val false))) ∧
  (∀ (s : State) (k : Fin 8) (ppb : Nat), tclkRuns s = true → (s.syn k.val).slewing = some (0, ppb) →
    EndsWith (.synAlignSlewDone k) s fun t =>
      t.bit (A.PLL_SYN_STAT k.val) 27 = true ∧ (t.syn k.val).slewing = none ∧
      RegsKept s t (fun a => decide (a = A.PLL_SYN_STAT k.val)) ∧ BanksKept s t) ∧
  (∀ (s : State) (k : Fin 8), tclkRuns s = true → synState s k.val = 1 → EndsWith (.synLockAcquired k) s fun t =>
    synState t k.val = 2 ∧ RegsKept s t (fun a => decide (a = A.PLL_SYN_STAT k.val)) ∧ BanksKept s t) ∧
  (∀ (s : State) (i : Loop), (if loopKey i = 11 then s.power.ka else s.power.die) = true → loopStopped s (loopKey i) = false →
    EndsWith (.islandLoopLockLoss i) s fun t =>
      t = { (lolOf (loopKey i)).foldl spoilTx (loopLose s (loopKey i)) with pending := s.pending, now := s.now } ∧
      loopStopped t (loopKey i) = true) ∧
  (∀ (s : State) (i : Loop), (if loopKey i = 11 then s.power.ka else s.power.die) = true → loopStopped s (loopKey i) = true →
    (s.loopOf (loopKey i)).failed = false → Ends (.islandLoopRelock i) s
      (rampPending (settle (loopRestart s (loopKey i))))) ∧
  (∀ (s : State) (i : Loop), (if loopKey i = 11 then s.power.ka else s.power.die) = true → s.due (.loop (loopKey i)) = true →
    let h := s.loopOf (loopKey i)
    let fails := (h.fails.filter fun t => decide (s.now < t + 10000 * ms)) ++ [s.now]
    let u := putLoop s (loopKey i) { h with fails := fails }
    (fails.length < 3 → Ends (.islandLoopRelockTimeout i) s (u.start (.loop (loopKey i)) ms)) ∧
    (3 ≤ fails.length → Ends (.islandLoopRelockTimeout i) s (loopFail u (loopKey i)))) ∧
  (∀ (s : State) (p : Fin 64), s.portRuns p.val = true → EndsWith (.lolFlagClear p) s fun t =>
    t.lolPorts = s.lolPorts.filter (· ≠ p.val) ∧ RegsKept s t (fun _ => false) ∧ BanksKept s t)

/-- Pulse outputs (R187 to R198): armed, stopped and disabled, edges in each mode, fire requests, alignment and the
installation of a trim. One ACCESS_ERR for an ARM with several rejected outputs and the refusal of ALIGN 3 and ALIGN_SRC
5 to 7 (assumption 19), and the shifts of the grid and what counts as MISSED (assumption 31) are the model's readings.
-/
def Obligations.PulseCommands : Prop :=
  (∀ (s : State) (r : Req) (m : Word), s.listens r A.PLS_ARM = true →
    let u := heard s r 1
    let t := armOutputs u m.toNat
    ((∀ k, k < 32 → m.toNat.testBit k = true → armRejects u k = false) → Ends (.plsArm r m) s t) ∧
    ((∃ k, k < 32 ∧ m.toNat.testBit k = true ∧ armRejects u k = true) → Ends (.plsArm r m) s (rejected t r A.PLS_ARM))) ∧
  (∀ (s : State) (r : Req) (m : Word), s.listens r A.PLS_STOP = true →
    Ends (.plsStop r m) s ((bitsSet m.toNat 32).foldl stopOutput (heard s r 1))) ∧
  (∀ (s : State) (r : Req) (k : Fin 32) (v : Word), s.listens r (A.PLS_OUT_CFG k.val) = true →
    Decided (.plsDisable r k v) s r (A.PLS_OUT_CFG k.val)
      (fun _ => decide (bits v.toNat 22 21 = 3) || decide (5 ≤ bits v.toNat 20 18))
      (fun u =>
        let t := u.wr (A.PLS_OUT_CFG k.val) (v.toNat &&& 0xFFFFE000)
        if v.toNat.testBit 31 then t
        else if plsLevel (stopOutput t k.val) k.val then stopOutput t k.val
        else plsIdle (stopOutput t k.val) k.val)) ∧
  (∀ (s : State) (k : Fin 32) (p : PlsSet) (t : Nat), tclkRuns s = true → inGap s = false → (s.out1 k.val).fall = none →
    (s.out1 k.val).active = some p → plsState s k.val = 1 ∨ plsState s k.val = 2 → (s.out1 k.val).stopping = false →
    t ≤ tbFine s p.base →
    (p.mode ≤ 1 → (s.out1 k.val).queue = [] → (s.out1 k.val).next = some t → Ends (.plsRisingEdge k) s (riseGrid s k.val p t)) ∧
    (p.mode = 3 → (s.out1 k.val).queue = [] → (s.out1 k.val).next = some t → Ends (.plsRisingEdge k) s (riseBurst s k.val p t)) ∧
    (p.mode = 2 → (s.out1 k.val).queue.head? = some t → Ends (.plsRisingEdge k) s (riseExt s k.val p t))) ∧
  (∀ (s : State) (k : Fin 32) (p : PlsSet) (t : Nat), tclkRuns s = true → inGap s = false →
    (s.out1 k.val).active = some p → (s.out1 k.val).fall = some t → t ≤ tbFine s p.base →
    Ends (.plsFallingEdge k) s (endPulse s k.val p t)) ∧
  (∀ (s : State) (k : Fin 32) (fire : Nat) (p : PlsSet), tclkRuns s = true → (s.out1 k.val).active = some p → p.mode = 2 →
    plsState s k.val = 2 → (s.out1 k.val).stopping = false →
    let h := s.out1 k.val
    let t := fire * ftU
    let fits := tbFine s p.base + 100 * nsU ≤ t ∧ h.queue.length < 16 ∧
      (earlierFall h p t = 0 ∨ earlierFall h p t + 2 * nsU ≤ t)
    (fits → EndsWith (.plsExtRequest k fire) s fun u =>
      (u.out1 k.val).queue = h.queue.filter (fun x => decide (x ≤ t)) ++ [t] ++ h.queue.filter (fun x => decide (t < x)) ∧
      u.fld (A.PLS_OUT_STAT k.val) 20 16 = h.queue.length + 1 ∧ (∀ j, j ≠ k.val → u.out1 j = s.out1 j) ∧
      RegsKept s u (fun a => decide (a = A.PLS_OUT_STAT k.val)) ∧ BanksKept s u) ∧
    (¬fits → Ends (.plsExtRequest k fire) s (dropExt s k.val))) ∧
  (∀ (s : State) (k : Fin 32) (f : Bool) (late : Fin 2000) (p : PlsSet), tclkRuns s = true →
    (s.out1 k.val).active = some p → plsAlignAdmits s k.val p f = true →
    let x := tbAt s p.base late.val
    let e := (pulseError s k.val p x).1
    let w := (pulseError s k.val p x).2.wr (A.PLS_ALERR k.val) (ofSigned 32 (wholePs e))
    let u := putOut w k.val { w.out1 k.val with once := false }
    (e.natAbs ≤ 5 * psU → Ends (.plsAlignEdge k f late) s
      (putOut u k.val { u.out1 k.val with alignAt := some (u.now + (late.val + 999) / 1000 + 200) })) ∧
    (5 * psU < e.natAbs → Ends (.plsAlignEdge k f late) s (shiftGrid u k.val p (x + us * nsU) e))) ∧
  (∀ (s : State) (k : Fin 32) (x : TrimRec), tclkRuns s = true → s.cal.install = some x → calState s = 4 →
    calIndex s = k.val → plsQuiet s k.val = true → inGap s = false →
    Ends (.plsTrimInstall k) s (calNext (noteOk (calRelease (setTrim s 6 0 k.val x)) x.temp)))

/-- What a rising edge of a schedule leaves (R192): the edge goes out, FIRED counts it, the output is RUNNING with its
level high, and the falling edge is due WIDTH later. Only an edge that ends an alignment can raise an event besides. -/
def Obligations.RisingEdgeEmitted : Prop :=
  ∀ (s : State) (k : Nat) (p : PlsSet) (t : Nat), k < 32 →
    let u := emitRise s k p t
    Out.pulse k true ((t + psU / 2) / psU) ∈ u.out ∧
    ((s.out1 k).shifted = false → u.out = s.out ++ [.pulse k true ((t + psU / 2) / psU)] ∧ BanksKept s u) ∧
    u.rd (A.PLS_OUT_FIRED k) = (s.rd (A.PLS_OUT_FIRED k) + 1) % 2 ^ 32 ∧
    plsState u k = 2 ∧ plsLevel u k = true ∧ (u.out1 k).fall = some (t + p.widthU) ∧
    (∀ j, j ≠ k → u.out1 j = s.out1 j)

/-- Interval measurement (R201 to R206): channels arm, start at an edge of their input, end and are stored. The K and N
frozen at STAT_GO, a write of the polarity as an edge and the arming after UNRETIRE are the model's readings (assumption
84). -/
def Obligations.TdcCommands : Prop :=
  (∀ (s : State) (r : Req) (m : BitVec 16), s.listens r A.TDC_ARM_ALL = true →
    Ends (.tdcArm r m) s ((bitsSet m.toNat 16).foldl softArm (heard s r 1))) ∧
  (∀ (s : State) (r : Req) (i : Fin 16), s.listens r (A.TDC_CH_CTRL i.val) = true →
    let u := heard s r 1
    (tdcMode u i.val = 2 → tdcState u i.val = 3 → Ends (.tdcAbort r i) s (measEnd u i.val)) ∧
    (tdcMode u i.val = 2 → tdcState u i.val = 2 → Ends (.tdcAbort r i) s (setTdcState u i.val 1)) ∧
    (tdcMode u i.val ≠ 2 → Ends (.tdcAbort r i) s u)) ∧
  (∀ (s : State) (g : Fin 4) (b : Bool) (fine : Fin 256), tclkRuns s = true →
    let u := setGatePin s g.val b
    let raw := s.now / 2 * 256 + fine.val
    (gateLevel u g.val = gateLevel s g.val ∨ inGap s = true → Ends (.tdcGateEdge g b fine) s u) ∧
    (gateLevel u g.val ≠ gateLevel s g.val → inGap s = false → Ends (.tdcGateEdge g b fine) s ((List.range 16).foldl
      (fun s i => if tdcGate s i = g.val then (if gateLevel s g.val then gateActive s i raw else gateInactive s i raw)
        else s) u))) ∧
  (∀ (s : State) (i : Fin 16) (f tk : Bool) (fine : Fin 256), tclkRuns s = true → inGap s = false →
    tdcEn s i.val = true → tdcSlope s i.val = 2 ∨ tdcSlope s i.val = bit01 f →
    Ends (.tdcInputEdge i f tk fine) s
      ((List.range 16).foldl (fun s j => channelEdge s j i.val (s.now / 2 * 256 + fine.val) f tk) s)) ∧
  (∀ (s : State) (i : Fin 16), tclkRuns s = true → tdcState s i.val = 3 → s.due (.tdcWin i.val) = true →
    Ends (.tdcWindowExpiry i) s (measEnd s i.val)) ∧
  (∀ (s : State) (i : Fin 16) (m : Meas) (l : List Meas), tclkRuns s = true → (s.tdc i.val).ended = m :: l →
    let u := putTdc s i.val { s.tdc i.val with ended := l }
    let fails := tdcFails u i.val ++ [s.now]
    let w := tdcEvent (putTdc u i.val { u.tdc i.val with fails := fails }) i.val 16
    Ends (.tdcMeasStore i true) s (storeMeas u i.val m) ∧
    (fails.length < 3 ∨ tdcState w i.val = 5 → Ends (.tdcMeasStore i false) s w) ∧
    (3 ≤ fails.length → tdcState w i.val ≠ 5 → Ends (.tdcMeasStore i false) s (tdcRetire w i.val))) ∧
  (∀ (s : State) (i : Fin 16), tclkRuns s = true → tdcState s i.val = 1 → s.due (.tdcRearm i.val) = true →
    EndsWith (.tdcRearmTimer i) s fun t =>
      tdcState t i.val = (if tdcMode s i.val = 3 ∨ levelOpen s i.val = true then 2 else 1) ∧
      t.runs (.tdcRearm i.val) = false ∧ t.tdcs = s.tdcs ∧
      RegsKept s t (fun a => decide (a = A.TDC_CH_STAT i.val)) ∧ BanksKept s t) ∧
  (∀ (s : State) (r : Req) (i : Fin 16), s.listens r (A.TDC_CH_CTRL i.val) = true → EndsWith (.statGo r i) s fun t =>
    statRun t i.val = true ∧ t.rd (A.TDC_CH_N_USED i.val) = 0 ∧ t.rd (A.TDC_CH_N_SKIP i.val) = 0 ∧
    (t.tdc i.val).sum = 0 ∧ (t.tdc i.val).squares = 0 ∧ (t.tdc i.val).statN = statN s i.val ∧
    RegsKept s t (fun a => decide (a = A.TDC_CH_STAT i.val) || decide (a = A.TDC_CH_N_USED i.val) ||
      decide (a = A.TDC_CH_N_SKIP i.val) || (countsHost a && decide (r = .host))) ∧ BanksKept s t) ∧
  (∀ (s : State) (r : Req) (m : BitVec 16), s.listens r A.TDC_UNRETIRE = true →
    Ends (.tdcUnretire r m) s (tdcUnretire (heard s r 2) m.toNat)) ∧
  (∀ (s : State) (r : Req) (i : Fin 16) (v : Word), s.listens r (A.TDC_CH_CFG i.val) = true →
    let u := heard s r 1
    (∀ t, writeTdcCfg u i.val (v.toNat &&& 0xFFFFFB00) = some t → Ends (.tdcChannelEnable r i v) s t) ∧
    (writeTdcCfg u i.val (v.toNat &&& 0xFFFFFB00) = none →
      Ends (.tdcChannelEnable r i v) s (rejected u r (A.TDC_CH_CFG i.val))))

/-- The timing cores (R207 to R216) and calibration (R198, R217 to R226). When the Drag enters INIT, the single tracking
error and its correction (assumption 85) and the flash steps of a save (assumption 86) are the model's readings; the
rounding that the manual leaves open is its choice (assumption 7). -/
def Obligations.CoreAndCalCommands : Prop :=
  (∀ (s : State) (c : Fin 2), s.power.ka = true → coreState (coresEnter s) c.val = 1 →
    let u := coresEnter s
    (coreRuns u = true ∨ c.val ∈ u.tco.repaired → Ends (.coreInitDone c true) s (coreSync u c.val)) ∧
    (coreRuns u = false → c.val ∉ u.tco.repaired → loopStopped s 11 = false → c.val = 0 ∨ 2 ≤ coreState u 0 →
      let t := (setCore u c.val 4).setFld A.TCO_STAT 0 0 c.val
      Ends (.coreInitDone c true) s ((t.setBit (A.PLL_CPLL_STAT 11) 31 true).setFld (A.PLL_CPLL_STAT 11) 15 0 (Config.quot 625 4))) ∧
    Ends (.coreInitDone c false) s (coreFail u c.val)) ∧
  (∀ (s : State) (e : Int) (c : Nat), s.power.ka = true → trackingCore s = some c → s.tco.trackAt ≤ s.now →
    let eps := s.tco.lag + e
    let h := epsOf eps
    let u := ({ s with tco := { s.tco with lag := trackCorrect eps, trackAt := s.now + us } } : State).wr A.TCO_TRK_ERR
      (ofSigned 32 (clampInt (-(2 ^ 31)) (2 ^ 31 - 1) (halfPs h 16)))
    let near := withinTrack u h
    (coreState s c = 2 → near = true → s.runs .coreTrack = true → Ends (.trackingMeasure e) s u) ∧
    (coreState s c = 2 → near = true → s.runs .coreTrack = false →
      Ends (.trackingMeasure e) s (u.start .coreTrack (1000 * ms))) ∧
    (coreState s c = 2 → near = false → Ends (.trackingMeasure e) s (u.stop .coreTrack)) ∧
    (coreState s c = 3 → near = true → Ends (.trackingMeasure e) s (setMisses u 0)) ∧
    (coreState s c = 3 → near = false → s.tco.misses < 15 → Ends (.trackingMeasure e) s (setMisses u (s.tco.misses + 1))) ∧
    (coreState s c = 3 → near = false → 15 ≤ s.tco.misses →
      Ends (.trackingMeasure e) s (tcoEvent (setCore (setMisses u 0) c 2) 8))) ∧
  (∀ (s : State) (c : Nat), s.power.ka = true → trackingCore s = some c → coreState s c = 2 → s.due .coreTrack = true →
    Ends .coreSyncTracked s (tcoEvent (setCore (setMisses (s.stop .coreTrack) 0) c 3) 4)) ∧
  (∀ s : State, s.power.ka = true → coreState s (activeCore s) = 4 ∨ coreState s (activeCore s) = 6 →
    ((trackingCore s).isSome = true →
      Ends .swoMasterUnlock s (settle (swoAfter s (takeOver s 1))) ∧
      Ends .swoCheckFail s (settle (swoAfter s (takeOver s 2))) ∧
      Ends .swoHeartbeatMissing s (settle (swoAfter s (takeOver s 3)))) ∧
    (trackingCore s = none →
      Ends .swoMasterUnlock s (settle (swoAfter s (degrade s true))) ∧
      Ends .swoCheckFail s (settle (swoAfter s (degrade s false))) ∧
      Ends .swoHeartbeatMissing s (settle (swoAfter s (degrade s false))))) ∧
  (∀ (s : State) (r : Req), s.listens r A.TCO_CTRL = true →
    let u := heard s r 2
    (switchOk u = true → Ends (.switch r) s (swoAfter u (takeOver u 4))) ∧
    (switchOk u = false → Ends (.switch r) s (rejected u r A.TCO_CTRL))) ∧
  (∀ s : State, s.power.ka = true → inGap s = true → Ends .swoGapEnd s (calGapEnd (gapEnd s))) ∧
  (∀ (s : State) (item : Fin 8) (again : Bool) (c : Nat), s.power.ka = true → trackingCore s = some c → inGap s = false →
    item ≠ 0 →
    (item ≠ 7 → Ends (.selftestSlot item true again) s s) ∧
    (item = 7 → Ends (.selftestSlot item true again) s (s.setFld (A.TCO_HEALTH c) 23 0 (s.fld (A.TCO_HEALTH c) 23 0 + 1))) ∧
    (item ≠ 7 → Ends (.selftestSlot item false false) s (coreFail (noteTestFail s c item.val) c)) ∧
    (let u := tcoEvent (noteTestFail s c item.val) 64
     item ≠ 7 → Ends (.selftestSlot item false true) s (if 3 ≤ (testFails u c).length then coreFail u c else u))) ∧
  (∀ (s : State) (r : Req) (m : BitVec 2), s.listens r A.TCO_CTRL = true →
    let u := heard s r 2
    let v := if m.toNat.testBit 0 then coreRepair u 0 else u
    Ends (.repair r m) s (swoAfter u (if m.toNat.testBit 1 then coreRepair v 1 else v))) ∧
  (∀ (s : State) (c : Fin 2), s.power.ka = true → s.bit A.TCO_CFG 0 = true → coreState s c.val = 5 →
    Map.get 0 s.tco.failedAt c.val + 60000 * ms ≤ s.now → coreFails s c.val < 3 →
    EndsWith (.coreAutoRepair c) s fun t =>
      coreState t c.val = 1 ∧ RegsKept s t (fun a => decide (a = A.TCO_STAT)) ∧ BanksKept s t) ∧
  (∀ (s : State) (r : Req), s.listens r A.CAL_CTRL = true →
    Decided (.calGo r) s r A.CAL_CTRL calGoRejects (fun u =>
      calNext (({ u with cal := { u.cal with todo := calItems u } } : State).wr A.CAL_COUNT 0))) ∧
  (∀ (s : State) (r : Req), s.listens r A.CAL_CTRL = true →
    let u := heard s r 1
    (calState u = 0 → Ends (.calAbort r) s u) ∧
    (calState u ≠ 0 → Ends (.calAbort r) s
      (calEvent (setCalState { calRelease u with cal := { (calRelease u).cal with todo := [] } } 0) 64))) ∧
  (∀ (s : State) (v : List Int), tclkRuns s = true → calState s = 2 → inGap s = false →
    (calBroken s = true → Ends (.calMeasurementDone v) s (calReject s 8)) ∧
    (calBroken s = false → (calKind s = 4 ∨ calKind s = 5 → tdcState s (calIndex s) = 4) → s.cal.m1 = none → Ends (.calMeasurementDone v) s { s with cal := { s.cal with m1 := some v } }) ∧
    (∀ x, calBroken s = false → (calKind s = 4 ∨ calKind s = 5 → tdcState s (calIndex s) = 4) → s.cal.m1 = some x → Ends (.calMeasurementDone v) s (calDecide s x v))) ∧
  (∀ s : State, tclkRuns s = true → calBroken s = true → Ends .calPreconditionBroken s (calReject s 8)) ∧
  (∀ s : State, tclkRuns s = true → calState s = 2 → calKind s = 4 ∨ calKind s = 5 → s.due .calBusy = true →
    tdcState s (calIndex s) = 3 → Ends .calBusyTimeout s (calReject s 7)) ∧
  (∀ (s : State) (r : Req), s.listens r A.CAL_SAVE_CTRL = true →
    let u := heard s r 2
    (saveOk u = true → Ends (.save r) s (saveStart u)) ∧
    (saveOk u = false → Ends (.save r) s (rejected u r A.CAL_SAVE_CTRL))) ∧
  (∀ (s : State) (c : Nat) (l : List Nat), s.power.die = true → s.cal.saving = c :: l →
    ((copyPlace s c).isNone = true → ∀ ok, Ends (.calSaveFlashOpDone ok) s s) ∧
    ((copyPlace s c).isSome = true →
    (s.cal.steps ≤ 1 → Ends (.calSaveFlashOpDone true) s (saveCopyDone s c l)) ∧
    (1 < s.cal.steps →
      Ends (.calSaveFlashOpDone true) s (saveTimer { s with cal := { s.cal with steps := s.cal.steps - 1 } })) ∧
    (s.cal.steps = 1 → Ends (.calSaveFlashOpDone false) s (saveFail s)))) ∧
  (∀ (s : State) (c : Nat) (l : List Nat), s.power.die = true → s.cal.saving = c :: l → saveBusy s = true →
    s.due .calSave = true → EndsWith .calSaveTimeout s fun t =>
      saveBusy t = false ∧ t.cal.saving = [] ∧ t.runs .calSave = false ∧ Map.get 0 t.cal.gens c = 0 ∧ t.trims = s.trims)

/-- A switch-over (R210, R212): the tracking core becomes the active one, the gap is shown, and SWO_INFO counts it and
gives its cause. -/
def Obligations.SwitchOver : Prop :=
  ∀ (s : State) (cause : Nat), 1 ≤ cause → cause ≤ 4 → coreState s (activeCore s) = 4 →
    coreState s (1 - activeCore s) = 2 ∨ coreState s (1 - activeCore s) = 3 →
    let t := takeOver s cause
    activeCore t = 1 - activeCore s ∧ coreState t (activeCore t) = 4 ∧
    coreState t (activeCore s) = (if cause = 4 then 2 else 5) ∧ inGap t = true ∧
    t.fld A.TCO_SWO_INFO 3 0 = cause

/-- The trim region's image (R223, R224): a copy is a header of 64 bytes and a record of 16 bytes for each of the 2 173
items, each with its checksum. -/
def Obligations.TrimCopyLayout : Prop :=
  ∀ (s : State) (gen : Nat), let b := copyBytes s gen
    itemCount = 2173 ∧ b.length = 64 + 16 * itemCount ∧ leNat (slice b 0 4) = 0x52544A46 ∧
    leNat (slice b 6 2) = itemCount ∧ leNat (slice b 8 4) = gen % 2 ^ 32 ∧ leNat (slice b 0x3C 4) = crc32c (b.take 0x3C)

/-! Classification and heats. -/

/-- Received and recirculated frames and the punt buckets (R227, R236, R243, R248), and Mould entries (R233, R235,
R237). What a received frame does at classification is ReceivedFrameEnters. That the buckets fill while the island runs
(assumption 88) and what an uncorrectable cell of a recirculated frame does (assumption 89) are the model's readings. -/
def Obligations.ClassifyAndMouldCommands : Prop :=
  (∀ (s : State) (p : Fin 64) (b : List Byte) (st : RxStamp) (t : Nat), s.power.die = true → portUp s p.val = true →
    Ends (.frameClassify p b st t) s (classifyFrame s p.val b st t)) ∧
  (∀ (s : State) (slice : Fin 4) (k : Pkt) (f : Frame), s.islandRuns slice.val = true →
    (s.buf.pkts.find? fun k => k.loc = .recirc slice.val) = some k → frameOf s k.fid = some f →
    let v := takePath s slice.val (frameLen f)
    let next := fun (s : State) =>
      let g := { f with pass := f.pass + 1, pool := .none }
      let u := refreshGlobal (putFrame
        (((((f.banks.take 1).foldl (grantRead 5) s)).add64 A.QM_RCX_PASSES_LO 1).pmcEvent (runnerOfPort f.inPort) 0x015 1) g)
      let x := lookupFrame u g (toNats f.bytes)
      if f.orphan then removePkt (slag (u.add64 A.HEAT_ORPHAN_LO 1) 12) k else applyFound u k g x.2 x.1
    (pathBusy s slice.val = false →
      Ends (.recircReentry slice none) s (next v) ∧
      Ends (.recircReentry slice (some .single)) s (next (qmEvent (v.add64 A.QM_CRU_CE_LO 1) 8)) ∧
      Ends (.recircReentry slice (some .uncorrectable)) s
        (removePkt (slag (qmEvent (v.add64 A.QM_CRU_UE_LO 1) 16) 8) k)) ∧
    (pathBusy s slice.val = true → ∀ ecc, Ends (.recircReentry slice ecc) s s)) ∧
  (∀ s : State, s.islandRuns 4 = true → EndsWith .puntBucketRefill s fun t =>
    (∀ b, b < 17 →
      puntTokens t b = Nat.min (puntTokens s b + puntRate s b * (s.buf.ran - s.cls.filled)) (puntDepth s b)) ∧
    t.cls.filled = s.buf.ran ∧ RegsKept s t (fun _ => false) ∧ BanksKept s t) ∧
  (∀ (s : State) (slice : Fin 4) (x : Fin 2) (e : Fin 32768), s.islandRuns slice.val = true →
    Ends (.mouldScrub slice x e .single) s (clsEvent s 4) ∧
    EndsWith (.mouldScrub slice x e .uncorrectable) s fun t =>
      entryBad t slice.val x.val e.val = true ∧
      t.rd64 A.CLS_MOULD_ERR_LO = (s.rd64 A.CLS_MOULD_ERR_LO + 1) % 2 ^ 64 ∧ t.bit A.CLS_EVT 3 = true) ∧
  (∀ (s : State) (slice : Fin 4) (x : Fin 2) (e : Fin 32768), s.islandRuns slice.val = true →
    entryBad s slice.val x.val e.val = true →
    ((∃ i, 1 ≤ i ∧ i ≤ 3 ∧ entryBad s ((slice.val + i) % 4) x.val e.val = false) →
      Ends (.mouldEntryRewrite slice x e) s
        (settle (putCls s { s.cls with bad := s.cls.bad.filter (· ≠ badKey slice.val x.val e.val) }))) ∧
    ((∀ i, 1 ≤ i → i ≤ 3 → entryBad s ((slice.val + i) % 4) x.val e.val = true) →
      Ends (.mouldEntryRewrite slice x e) s (settle (settleWaiting (slotBad s x.val 7 e.val))))) ∧
  (∀ (s : State) (r : Req) (o : Fin 8388608) (v : Word), s.listens r (0x2000000 + o.val) = true → o.val % 4 = 0 →
    rowOf (0x2000000 + o.val) ≠ none →
    let u := heard s r 1
    let x := o.val / 0x400000
    (slotState u x = 1 → x ∉ u.cls.clearing → Ends (.mouldEntryWrite r o v) s (u.wr (0x2000000 + o.val) v.toNat)) ∧
    (slotState u x = 1 → x ∈ u.cls.clearing → Ends (.mouldEntryWrite r o v) s
      (putCls u { u.cls with waiting := u.cls.waiting ++ [(0x2000000 + o.val, v.toNat)] })) ∧
    (slotState u x ≠ 1 → Ends (.mouldEntryWrite r o v) s (rejected u r (0x2000000 + o.val))))

/-- A frame received in a data path that runs, on a port with no trunk, is counted, and one whose destination bytes
carry a good checksum, that nothing takes out, enters the lookup under the heat that its receive time gives (R227, R232,
R240). -/
def Obligations.ReceivedFrameEnters : Prop :=
  ∀ (s : State) (p : Fin 64) (b : List Byte) (st : RxStamp) (t : Nat),
    portUp s p.val = true → typeEff s p.val ≠ 13 → bootState s ≠ 8 → portStalled s p.val = false →
    let id := (freshId s).1
    let u := countArrival (freshId s).2 p.val (rxTime (freshId s).2 p.val st)
    let f := receivedFrame u p.val id b st t
    let g := runnerOfPort p.val
    let j := 0x040 + 16 * (p.val % 4)
    let w := (u.pmcEvent g j 1).pmcEvent g (j + 1) (frameLen f)
    f.bad = false → takenOut w p.val (toNats b) = false →
    classifyFrame s p.val b st t =
      releaseReady (enterFrame w f (toNats b) (lookupFrame w f (toNats b)).1 (lookupFrame w f (toNats b)).2) p.val

/-- An entry matches a key where its VALID bit is 1 and (K AND MASK) = VALUE; the lowest matching index of the slot that
the frame's heat names wins, and without a match the lookup is a miss (R232). -/
def Obligations.WinningEntry : Prop :=
  ∀ (s : State) (x key : Nat), x < 2 →
    let valid := fun e => (s.rd (A.TBL_MOULD (32768 * x + e) 31)).testBit 27
    let value := fun e => ((List.range 15).map fun w => s.rd (A.TBL_MOULD (32768 * x + e) w) * 2 ^ (32 * w)).sum
    let mask := fun e => ((List.range 15).map fun w => s.rd (A.TBL_MOULD (32768 * x + e) (16 + w)) * 2 ^ (32 * w)).sum
    let hit := fun e => valid e = true ∧ key &&& mask e = value e
    (∀ e, winner s x key = some e ↔ e < 32768 ∧ hit e ∧ ∀ e', e' < e → ¬hit e') ∧
    (winner s x key = none ↔ ∀ e, e < 32768 → ¬hit e) ∧
    (∀ (f : Frame) (d : List Nat) (k : Key), f.slot = some x → parseKey d (prsCfg s) = .ok k →
      keyBits k f.inPort f.pass (tsqFlagged f.tsq) = key → winner s x key = none → (lookupFrame s f d).1 = .miss)

/-- The guarded operations of HEAT.CTRL, and what happens to a heat (R237 to R242). A guarded operation as one step is
the model's choice (assumption 5), and the end of a drain its reading (assumption 87). -/
def Obligations.HeatCommands : Prop :=
  (∀ (s : State) (r : Req), s.listens r A.HEAT_CTRL = true →
     let u := heard s r 2
     let x := loadingSlot u
     let kept := fun h => u.wr A.HEAT_CTRL (h * 2 ^ 16)
     (∀ h : BitVec 16,
       (slotState u x = 0 → Ends (.load r h) s (settle (heatLoad (kept h.toNat) h.toNat))) ∧
       (slotState u x ≠ 0 → Ends (.load r h) s (settle (rejected u r A.HEAT_CTRL))) ∧
       Ends (.commit r h) s (settle (requestCommit (kept h.toNat) h.toNat (commitTime u) none))) ∧
     (slotState u x = 1 → Ends (.seal r) s (settle (heatSeal (kept 0)))) ∧
     (slotState u x ≠ 1 → Ends (.seal r) s (settle (rejected u r A.HEAT_CTRL))) ∧
     (1 ≤ slotState u x → slotState u x ≤ 4 → u.cls.commit = none →
       Ends (.discard r) s (settle (heatDiscard (kept 0)))) ∧
     (slotState u x = 0 ∨ 4 < slotState u x ∨ u.cls.commit.isSome = true →
       Ends (.discard r) s (settle (rejected u r A.HEAT_CTRL))) ∧
     (∀ c, u.cls.commit = some c → Ends (.cancel r) s (settle (finishCommit (kept 0) c 8))) ∧
     (u.cls.commit = none → Ends (.cancel r) s (settle (rejected u r A.HEAT_CTRL)))) ∧
  (∀ s : State, s.islandRuns 4 = true → Ends .heatLoadClearDone s (s.cls.clearing.foldl clearSlot s)) ∧
  (∀ s : State, s.islandRuns 4 = true → slotState s (loadingSlot s) = 2 → loadingSlot s ∉ s.cls.clearing →
    let x := loadingSlot s
    (∀ e, ((validEntries s x).find? fun e => decide (refusal s x e ≠ 0)) = some e →
      Ends .heatSealDone s (settle (settleWaiting (slotBad s x (refusal s x e) e)))) ∧
    ((∀ e, e ∈ validEntries s x → refusal s x e = 0) →
      let u := (s.wr (A.HEAT_SLOT_CRC x) (crc32c (slotBytes s x))).wr (A.HEAT_SLOT_SEAL x) 0
      Ends .heatSealDone s (settle (settleWaiting (heatEvent (setSlotState u x 3) 1))))) ∧
  (∀ (s : State) (c : HeatRec), s.islandRuns 4 = true → s.cls.commit = some c → c.waiting = false → c.verdict = none →
    c.t ≤ tb0 s + us * nsUnits →
    let x := loadingSlot s
    let st := slotState s x
    let same := ∃ y, activeSlot s = some y ∧ slotHeat s y = c.heat
    (same → Ends .heatCommitExamine s (settle (setCommit s (some { c with verdict := some 3 })))) ∧
    (¬same → st = 3 → Ends .heatCommitExamine s
      (settle (setCommit s (some { c with verdict := some (if slotHeat s x = c.heat then 1 else 4) })))) ∧
    (¬same → st = 4 → Ends .heatCommitExamine s (settle (setCommit s (some { c with verdict := some 5 })))) ∧
    (¬same → st ≠ 3 → st ≠ 4 → Ends .heatCommitExamine s (settle (setCommit s (some { c with waiting := true }))))) ∧
  (∀ (s : State) (c : HeatRec) (v : Nat) (l : List (Fin 64)), s.islandRuns 4 = true → s.cls.commit = some c →
    c.verdict = some v → c.t ≤ tb0 s →
    let go := Instr.heatCommitExecute l
    let turn := ∀ a, c.timed.bind (actOf s) = some a → isScheduled a = true → actTurn s a = true
    (¬turn → Ends go s (settle s)) ∧
    (turn → inSleep s = true → c.timed.isSome = true → Ends go s (settle (finishCommit s c 9))) ∧
    (turn → (inSleep s = true → c.timed = none) →
    (v = 1 ∨ v = 2 → slotState s (loadingSlot s) = 3 →
      Ends go s (settle (finishCommit (activate s c (l.map Fin.val)) c v))) ∧
    (v = 1 ∨ v = 2 → slotState s (loadingSlot s) ≠ 3 → Ends go s (settle (finishCommit s c 5))) ∧
    (v ≠ 1 → v ≠ 2 → Ends go s (settle (finishCommit s c v))))) ∧
  (∀ (s : State) (c : HeatRec), s.islandRuns 4 = true → s.cls.commit = some c → c.waiting = true → c.verdict = none →
    c.t + Nat.max 1 (s.fld A.HEAT_CFG 15 0) * ms * nsUnits ≤ tb0 s →
    Ends .heatCommitWaitTimeout s (settle (finishCommit s c 6))) ∧
  (∀ (s : State) (x : Fin 2), s.islandRuns 4 = true → slotState s x.val = 6 → slotRefs s x.val = 0 →
    Ends (.heatDrainDone x) s (settle (settleWaiting (heatEvent (setSlotState s x.val 0) 32)))) ∧
  (∀ (s : State) (x : Fin 2), s.islandRuns 4 = true → slotState s x.val = 6 → s.fld A.HEAT_CFG 31 16 ≠ 0 →
    s.cls.drainAt + s.fld A.HEAT_CFG 31 16 * ms ≤ s.now →
    Ends (.heatDrainTimeout x) s (settle (heatForced s x.val)))

/-- A commit makes the loading slot ACTIVE and the former active slot DRAINING (R240). -/
def Obligations.CommitActivates : Prop :=
  ∀ (s : State) (c : HeatRec) (arriving : List Nat), let x := loadingSlot s; let t := activate s c arriving
    slotState t x = 5 ∧ activeSlot t = some x ∧ t.fld A.HEAT_STAT 15 0 = c.heat % 2 ^ 16 ∧
    (∀ y, activeSlot s = some y → y ≠ x ∧ slotState t y = 6) ∧ BanksKept s t ∧ t.buf = s.buf

/-! Queues, groups and delivery. -/

/-- Admission, injection, service and departure of frames and the shapers (R247, R248, R250, R252, R266, R267, R275,
R276, R294), and the deep tier's mover (R255 to R258). The first channel of a queue is open (assumption 60); the drop of
a staged cell under CRU_ECC (assumption 89), the order and the rate of the mover (assumption 95) and frames of the host
by FRAME_ADMIT (assumption 96) are the model's readings. -/
def Obligations.QueueAndDeepTierCommands : Prop :=
  (∀ (s : State) (k : Pkt) (f : Frame), s.islandRuns 4 = true → nextAdmit s = some k → frameOf s k.fid = some f →
    (∀ e, k.dest = .port e → Ends (.frameAdmit none) s (admitAt s { k with e := e } f)) ∧
    (∀ g, k.dest = .lag g → grpEn s g = false → Ends (.frameAdmit none) s (noMember s k f)) ∧
    (∀ g m, k.dest = .lag g → grpEn s g = true → grpSpread s g = true →
      firstEligible s g (s.fld (A.SPR_GRP_STAT g) 19 16) = some m →
      Ends (.frameAdmit none) s
        (admitAt (s.setFld (A.SPR_GRP_STAT g) 19 16 (m + 1)) { k with e := slotPort s g m, via := some (g, m, none) } f)) ∧
    (∀ g, k.dest = .lag g → grpEn s g = true → grpSpread s g = true →
      firstEligible s g (s.fld (A.SPR_GRP_STAT g) 19 16) = none → Ends (.frameAdmit none) s (noMember s k f)) ∧
    (∀ g, k.dest = .lag g → grpEn s g = true → grpSpread s g = false → Ends (.frameAdmit none) s (admitPinned s k f g))) ∧
  (∀ (s : State) (x : Injected), s.islandRuns 4 = true → 60 ≤ x.body.length → x.body.length ≤ 16379 →
    let d : Dest := match x.dest with
      | .port e => .port e.val
      | .lag g => .lag g.val
      | .ladle i => .ladle i.val
    Ends (.frameAdmit (some x)) s (admitNext
      (injectFrame s (toNats x.body) d x.tc.val x.ll (tb0 s) (s.now + (8 * (x.body.length + 4) + 99) / 100) 4))) ∧
  (∀ (s : State) (p : Fin 64), s.egressRuns p.val = true →
    (∀ q h k n f b, let u := serveControl s p.val
      portUp u p.val = true → (u.eg p.val).busy = none → selectQueue u p.val = some (q, h) →
      eligibleHead u p.val q = some (k, n) → frameOf u k.fid = some f →
      Ends (.egressFrameSelect p none b) s (startTx (deduct (putEg u p.val h) p.val (q % 8) n) k f (tb0 u) 0)) ∧
    (∀ q h k n, selectQueue s p.val = some (q, h) → eligibleHead s p.val q = some (k, n) →
      Ends (.egressFrameSelect p (some .single) false) s (egressSelect (qmEvent (s.add64 A.QM_CRU_CE_LO 1) 8) p.val) ∧
      Ends (.egressFrameSelect p (some .uncorrectable) false) s
        (removePkt (slag (qmEvent (s.add64 A.QM_CRU_UE_LO 1) 16) 8) k)) ∧
    (∀ k, transmitting s p.val = some k →
      Ends (.egressFrameSelect p (some .single) true) s (qmEvent (s.add64 A.QM_CRU_CE_LO 1) 8) ∧
      ∀ f, frameOf s k.fid = some f → Ends (.egressFrameSelect p (some .uncorrectable) true) s
        (stompAs (qmEvent (s.add64 A.QM_CRU_UE_LO 1) 16) k f f))) ∧
  (∀ (s : State) (p : Fin 64) (k : Pkt) (f : Frame), s.egressRuns p.val = true → txDone s p.val = true →
    let u := putEg s p.val { s.eg p.val with busy := none }
    transmitting u p.val = some k → frameOf u k.fid = some f →
    (f.early = false → Ends (.frameDepart p) s (serveControl (removePkt u k) p.val)) ∧
    (f.early = true → Ends (.frameDepart p) s (serveControl (removePkt (cutFrame u f dropCut) k) p.val))) ∧
  (∀ s : State, s.islandRuns 4 = true → EndsWith .shaperRefill s fun t =>
    (∀ p, p < 64 → let ns := s.buf.ran - (s.eg p).filled
      (t.eg p).tokens = shaperFill (s.rd (A.QM_P_SHAPE p)) (s.eg p).tokens ns ∧
      (t.eg p).filled = s.buf.ran ∧ (t.eg p).busy = (s.eg p).busy ∧
      ∀ c, c < 8 → Map.get 0 (t.eg p).ctokens c = shaperFill (s.rd (A.QM_P_CSHAPE p c)) (Map.get 0 (s.eg p).ctokens c) ns) ∧
    RegsKept s t (fun _ => false) ∧ BanksKept s t) ∧
  (∀ (s : State) (x : Fin 896) (k : Pkt) (d : DeepCells) (f : Frame), s.islandRuns 4 = true → regionRuns s x.val = true →
    nextStaged s = some k → k.deep = some d → frameOf s k.fid = some f →
    regionAvailable s x.val = true → regionUse s x.val < 262144 →
    (∀ c, nextChannel s (17 * k.e + k.q) = some c → c = x.val / 7) →
    (deepLimit s < deepRate s (recentMoves s s.buf.written) → ∀ ecc, Ends (.deepCellWrite x ecc) s (dbfEvent s 8)) ∧
    (deepRate s (recentMoves s s.buf.written) ≤ deepLimit s →
      Ends (.deepCellWrite x none) s (cellWritten s k d f x.val) ∧
      Ends (.deepCellWrite x (some .single)) s (cellWritten (qmEvent (s.add64 A.QM_CRU_CE_LO 1) 8) k d f x.val) ∧
      Ends (.deepCellWrite x (some .uncorrectable)) s
        (removePkt (slag (qmEvent (s.add64 A.QM_CRU_UE_LO 1) 16) 8) k))) ∧
  (∀ (s : State) (k : Pkt) (d : DeepCells) (x : StoredCell) (l : List StoredCell), s.islandRuns 4 = true →
    nextFetch s = some k → k.deep = some d → d.stored = x :: l → regionRuns s x.region = true →
    deepRate s (recentMoves s s.buf.fetched) ≤ deepLimit s →
    let u := putPkt s { k with deep := some { d with stored := l, reading := d.reading ++ [(x, s.now)] } }
    let b := { u.buf with fetched := recentMoves u u.buf.fetched, fetching := some k.id, fetchTurn := 17 * k.e + k.q }
    Ends .deepPrefetchRead s
      ((({ u with buf := b } : State).add64 A.DBF_CELLS_RD_LO 1).pmcEvent (16 + x.region / 224) 0x101 1)) ∧
  (∀ (s : State) (p : Fin 64) (q : Fin 16) (v : Vector CellRead 3) (k : Pkt) (d : DeepCells) (x : StoredCell) (t : Nat)
      (l : List (StoredCell × Nat)), s.islandRuns 4 = true → regionRuns s x.region = true →
    ((queuePkts s p.val q.val).find? fun k => match k.deep with | some d => decide (d.reading ≠ []) | none => false) = some k →
    k.deep = some d → d.reading = (x, t) :: l →
    let r := x.region
    let ce := fun (s : State) => cellBack (dbfEvent (lastErr (s.add64 A.DBF_READ_CE_LO 1) 1 r) 1) k d
    let twice := s.pmcEvent (16 + r / 224) 0x102 2
    (v[0] = .good → Ends (.deepCellRead p q v) s (cellBack s k d)) ∧
    (v[0] = .bad → v[1] = .good → Ends (.deepCellRead p q v) s (ce (s.pmcEvent (16 + r / 224) 0x102 1))) ∧
    (v[0] = .bad → v[1] = .bad → v[2] = .good → Ends (.deepCellRead p q v) s (ce (failReread twice r))) ∧
    (v[0] = .bad → v[1] = .bad → v[2] = .bad →
      let u := failReread (failReread twice r) r
      let w := dbfEvent (lastErr (u.add64 A.DBF_CELL_LOST_LO 1) 2 r) 2
      Ends (.deepCellRead p q v) s (removePkt (slag (retireRegion w r) 9) k))) ∧
  (∀ (s : State) (r : Req) (x : BitVec 10), s.listens r A.DBF_UNRETIRE = true →
    let u := heard s r 2
    (x.toNat ≤ 895 → Ends (.dbfUnretire r x) s (unretireRegion (u.wr A.DBF_UNRETIRE x.toNat) x.toNat)) ∧
    (895 < x.toNat → Ends (.dbfUnretire r x) s (rejected u r A.DBF_UNRETIRE)))

/-- A shaper's bucket never holds more than its depth, a fill never takes tokens away, and a shaper of rate 0 holds
nothing back (R267). -/
def Obligations.ShaperBounds : Prop :=
  ∀ (w : Nat) (tokens : Int) (ns ns' : Nat),
    (bits w 19 0 ≠ 0 → tokens ≤ shaperDepth w →
      tokens ≤ shaperFill w tokens ns ∧ shaperFill w tokens ns ≤ shaperDepth w ∧
      shaperFill w (shaperFill w tokens ns) ns' = shaperFill w tokens (ns + ns')) ∧
    (bits w 19 0 = 0 → shaperOk w (shaperFill w tokens ns) = true)

/-- The port serves the strict class of the highest number that has an eligible queue, before any class that shares the
rest (R266). -/
def Obligations.StrictClassFirst : Prop :=
  ∀ (s : State) (p c : Nat), c < 8 → s.bit (A.QM_P_SCHED p) c = true → (chooseQueue s p c).isSome = true →
    (∀ d, c < d → d < 8 → s.bit (A.QM_P_SCHED p) d = true → chooseQueue s p d = none) →
    selectQueue s p = chooseQueue s p c

/-- LAG groups (R274 to R283) and the Riser (R279 to R288). The restart of a group that is enabled (assumption 19), the
intake's clock and the count of later passes (assumption 97) and the release of holds (assumption 98) are the model's
readings. -/
def Obligations.SpreadAndRiserCommands : Prop :=
  (∀ (s : State) (r : Req) (g : Fin 32), s.listens r (A.SPR_GRP_CTRL g.val) = true → EndsWith (.rstSeq r g) s fun t =>
    (∀ c, c < 8 → flowOf t g.val c = (0, true)) ∧ (∀ h c, c < 8 → h ≠ g.val → flowOf t h c = flowOf s h c) ∧
    RegsKept s t (fun a => countsHost a && decide (r = .host)) ∧ BanksKept s t) ∧
  (∀ (s : State) (r : Req) (g : Fin 32) (v : Word), s.listens r (A.SPR_GRP_CFG g.val) = true →
    Decided (.lagGroupEnable r g v) s r (A.SPR_GRP_CFG g.val)
      (fun u => decide (v.toNat % 8 ≠ 0) || (grpEn u g.val && decide (v.toNat.testBit 30 ≠ grpSpread u g.val)))
      (fun u =>
        let t := takeWord u (A.SPR_GRP_CFG g.val) v.toNat
        refreshMigration (if v.toNat.testBit 31 && !grpEn u g.val then
          restartFlows (t.setFld (A.SPR_GRP_STAT g.val) 19 16 0) g.val else t))) ∧
  (∀ (s : State) (r : Req) (g : Fin 32) (m : Fin 16) (v : Word), s.listens r (A.SPR_GRP_MEM g.val m.val) = true →
    Decided (.lagMemberWrite r g m v) s r (A.SPR_GRP_MEM g.val m.val)
      (fun u => v.toNat.testBit 31 &&
        (List.range 32).any fun h => decide (h ≠ g.val) && (memberOf u h (bits v.toNat 5 0)).isSome)
      (fun u => refreshMigration (takeWord u (A.SPR_GRP_MEM g.val m.val) v.toNat))) ∧
  (∀ (s : State) (r : Req) (g : Fin 32) (w : Fin 64) (v : Word), s.listens r (A.TBL_PIN g.val w.val) = true →
    Ends (.pinTableWrite r g w v) s (refreshMigration (takeWord (heard s r 1) (A.TBL_PIN g.val w.val) v.toNat))) ∧
  (∀ (s : State) (g : Fin 32) (b : BitVec 8) (h : MigHold), s.islandRuns 4 = true → holdOf s g.val b.toNat = some h →
    onMember s g.val b.toNat h.old = false → Ends (.migrationHoldEnd g b) s (releaseHold s g.val b.toNat)) ∧
  (∀ (s : State) (g : Fin 32) (b : BitVec 8) (h : MigHold), s.islandRuns 4 = true → holdOf s g.val b.toNat = some h →
    s.due (.migration g.val b.toNat) = true →
    Ends (.migrationHoldTimeout g b) s (sprEvent (releaseHold s g.val b.toNat) 4)) ∧
  (∀ (s : State) (g : Fin 32) (m : Fin 16), s.islandRuns 4 = true → memberGone s g.val m.val = true →
    Ends (.memberOut g m) s (memberLeaves s g.val m.val)) ∧
  (∀ (s : State) (x : Intake), s.islandRuns 4 = true → nextIntake s = some x →
    let u := { s with buf := { s.buf with intake := s.buf.intake.erase x, riserTurn := (x.slice + 1) % 4 } }
    let k := x.pkt.bind fun n => u.buf.pkts.find? fun k => decide (k.id = n)
    let lost := fun j : Pkt => ∃ f, frameOf u j.fid = some f ∧ f.bad = true ∧ badLeaves u x j f = false
    (∀ j, k = some j → lost j → Ends .riserFrameArrival s (removePkt u j)) ∧
    ((∀ j, k = some j → ¬lost j) →
      (riserTakes u x = true → Ends .riserFrameArrival s
        (riserSequence u x.tag.flow x.tag.seq x.tag.rst k (k.elim 0 (pktCells u)))) ∧
      (riserTakes u x = false → k = none → Ends .riserFrameArrival s (u.add64 A.RSQ_BYPASS_LO 1)) ∧
      (∀ j, riserTakes u x = false → k = some j → Ends .riserFrameArrival s (proceed (u.add64 A.RSQ_BYPASS_LO 1) j)))) ∧
  (∀ (s : State) (c : Fin 4096) (t n : Nat), s.islandRuns 4 = true → oldestHeld s c.val = some t → nearest s c.val [] = some n →
    t + riserTmo s c.val * us * nsUnits ≤ tb0 s → (∀ y, y ∈ s.buf.intake → y.tag.flow ≠ c.val) →
    Ends (.riserTimeout c) s (rsqEvent (drainAll (gapTo s c.val n) c.val) 2)) ∧
  (∀ (s : State) (r : Req) (c : Fin 4096) (v : Word), s.listens r (A.RSQ_CTX_CFG c.val) = true →
    let u := heard s r 1
    let w := takeWord u (A.RSQ_CTX_CFG c.val) v.toNat
    let on := s.bit (A.RSQ_CTX_CFG c.val) 31
    (v.toNat.testBit 31 = true → on = false → Ends (.riserContextEnable r c v) s (riserEnable w c.val)) ∧
    (v.toNat.testBit 31 = true → on = true →
      (bits (s.rd (A.RSQ_CTX_CFG c.val)) 29 24 = bits v.toNat 29 24 → Ends (.riserContextEnable r c v) s w) ∧
      (bits (s.rd (A.RSQ_CTX_CFG c.val)) 29 24 ≠ bits v.toNat 29 24 →
        Ends (.riserContextEnable r c v) s (rejected u r (A.RSQ_CTX_CFG c.val)))) ∧
    (v.toNat.testBit 31 = false → on = true → Ends (.riserContextDisable r c v) s (riserDisable w c.val)) ∧
    (v.toNat.testBit 31 = false → on = false → Ends (.riserContextDisable r c v) s w))

/-- A bucket's effective member is its pinned slot where that is eligible, and otherwise the first eligible slot after
it, wrapping from 15 to 0; there is none where no slot is eligible (R281). -/
def Obligations.EffectiveMember : Prop :=
  ∀ (s : State) (g b : Nat), b < 256 → pinnedSlot s g b < 16 ∧
    (slotEligible s g (pinnedSlot s g b) = true → effMember s g b = some (pinnedSlot s g b)) ∧
    (slotEligible s g (pinnedSlot s g b) = false →
      (∀ m, effMember s g b = some m → m < 16 ∧ slotEligible s g m = true ∧
        ∀ j, j < 16 → slotEligible s g j = true →
          (m + 16 - pinnedSlot s g b) % 16 ≤ (j + 16 - pinnedSlot s g b) % 16) ∧
      (effMember s g b = none ↔ ∀ j, j < 16 → slotEligible s g j = false))

/-- A frame or copy for a group without an eligible member, or not enabled, is dropped under slag cause 14, REPL,
counted in SPR.NO_MEMBER, and NO_MEMBER is recorded (R276). A copy of an ALL_OR_NONE frame counts in the frame's verdict
too. -/
def Obligations.NoEligibleMember : Prop :=
  ∀ (s : State) (k : Pkt) (f : Frame) (g : Nat), s.islandRuns 4 = true → nextAdmit s = some k → k.dest = .lag g →
    frameOf s k.fid = some f → (f.ll = false ∨ aonOf s f.id = none) →
    let gone := fun u : State => removePkt (sprEvent (slag (u.add64 A.SPR_NO_MEMBER_LO 1) 14) 1) k
    (grpEn s g = false → EndsWith (.frameAdmit none) s fun t => t = { gone s with pending := s.pending, now := s.now }) ∧
    (grpEn s g = true → (∀ j, j < 16 → slotEligible s g j = false) →
      (grpSpread s g = true → Ends (.frameAdmit none) s (gone s)) ∧
      (grpSpread s g = false → Ends (.frameAdmit none) s (gone (checkBucket s g (bucketOf s g f)))))

/-- In a context that holds nothing, a number in turn passes: its copy, whatever cells it has, goes on, and EXPECT is
the next number, modulo 65 536 (R285). The first number of a context in UNSYNC and one with RST are in turn. -/
def Obligations.RiserInOrder : Prop :=
  ∀ (s : State) (c n : Nat) (rst : Bool) (o : Option Pkt) (cells : Nat), c < 4096 → heldNumbers s c = [] →
    riserState s c = 1 ∨ (riserState s c = 2 ∧ (rst = true ∨ riserExpect s c = n)) →
    let r := if rst then rsqEvent (setExpect s c n) 16 else s
    let u := if riserState s c = 1 then setRiserState (setExpect r c n) c 2 else r
    let v := match o with | some k => proceed u k | none => u
    let t := riserSequence s c n rst o cells
    t = setExpect v c (n + 1) ∧ riserExpect t c = (n + 1) % 65536 ∧ riserState t c = 2 ∧ heldNumbers t c = [] ∧
    (o = none → rst = false → RegsKept s t (fun a => decide (a = A.RSQ_CTX_STAT c)) ∧ t.buf = s.buf)

/-- The Ladle (R290, R291), what its pruning leaves, and the latency-locked queue (R294 to R305). An uncorrectable cell
of a latency-locked copy (assumption 89) is the model's reading; order, grid and BUSY for an open record (assumption 78)
and how a copy is counted (assumption 79) are its choices. -/
def Obligations.LadleAndLldCommands : Prop :=
  (∀ (s : State) (r : Req) (i : Fin 16384) (w : Fin 3) (v : Word), s.listens r (A.TBL_LADLE i.val w.val) = true →
    EndsWith (.ladleGroupStage r i w v) s fun t =>
      stagedWord t r A.TBL_LADLE w.val = v.toNat ∧ stageOf t r A.TBL_LADLE 3 = i.val + 1 ∧
      RegsKept s t (fun a => countsHost a && decide (r = .host)) ∧ BanksKept s t) ∧
  (∀ (s : State) (r : Req) (i : Fin 16384) (v : Word), s.listens r (A.TBL_LADLE i.val 3) = true →
    let ws := stagedEntry (heard s r 1) r A.TBL_LADLE 3 i.val (v.toNat &&& 0xE0000000)
    (ladleBad ws = false → EndsWith (.ladleGroupCommit r i v) s fun t =>
      (∀ j, j < 4 → t.rd (A.TBL_LADLE i.val j) = ws.getD j 0 % 2 ^ 32) ∧
      RegsKept s t (fun a => (decide (A.TBL_LADLE i.val 0 ≤ a) && decide (a ≤ A.TBL_LADLE i.val 3)) ||
        (countsHost a && decide (r = .host))) ∧ BanksKept s t) ∧
    (ladleBad ws = true → Ends (.ladleGroupCommit r i v) s (rejected (heard s r 1) r (A.TBL_LADLE i.val 3)))) ∧
  (∀ (s : State) (k : Pkt) (i : Nat), (ladleFifo s).length < 4096 →
    toLadle s k i = movePkt (s.add64 A.LDL_FRAMES_LO 1)
      { k with loc := .ladle ((List.range 4).map fun w => s.rd (A.TBL_LADLE i w)) }) ∧
  (∀ (s : State) (k : Pkt) (f : Frame) (w : List Nat) (l : List Pkt), s.islandRuns 4 = true → ladleFifo s = k :: l →
    k.loc = .ladle w → frameOf s k.fid = some f →
    ((w.getD 3 0).testBit 31 = false →
      Ends .ladleReplicate s (removePkt (ldlEvent (slag (s.add64 A.LDL_INVALID_LO 1) 14) 2) k)) ∧
    ((w.getD 3 0).testBit 31 = true →
      let copies := ladleCopies s w f.inPort
      let pruned := (ladlePorts w).length + (ladleLags w).length - copies.length
      let u := if pruned = 0 then s else s.add64 A.LDL_PRUNED_LO pruned
      (copies = [] → Ends .ladleReplicate s (removePkt (ldlEvent (slag (u.add64 A.LDL_EMPTY_LO 1) 14) 4) k)) ∧
      (copies ≠ [] → f.ll = false → Ends .ladleReplicate s (removePkt (copies.foldl (fun s d => makeCopy s k d)
        ((u.add64 A.LDL_COPIES_LO copies.length).pmcEvent 21 0x280 copies.length)) k)))) ∧
  (∀ (s : State) (w : List Nat) (p : Nat), (w.getD 3 0).testBit 30 = true →
     Dest.port p ∉ ladleCopies s w p ∧ (∀ g, Dest.lag g ∈ ladleCopies s w p → memberOf s g p = none) ∧
     (∀ q, q ≠ p → (Dest.port q ∈ ladleCopies s w p ↔ q ∈ ladlePorts w))) ∧
  (∀ (s : State) (p : Fin 64) (k : Pkt) (f : Frame) (w : LlInfo), s.islandRuns 4 = true → nextReserve s p.val = some k →
    frameOf s k.fid = some f → k.ll = some w →
    (w.state = .late → Ends (.lldReserve p) s (reserveLate s k f w)) ∧
    (w.state ≠ .late → Ends (.lldReserve p) s (reserveAt s k f w))) ∧
  (∀ (s : State) (p : Fin 64) (k : Pkt) (f : Frame) (w : LlInfo) (ecc : Option EccFault), s.egressRuns p.val = true →
    windowDue s p.val = some k → frameOf s k.fid = some f → k.ll = some w →
    (portUp s p.val = false → Ends (.lldWindowStart p ecc) s (lldDrop s k 6 5)) ∧
    (portUp s p.val = true → pktComplete s k = false → Ends (.lldWindowStart p ecc) s (lldMiss s k w 11)) ∧
    (portUp s p.val = true → pktComplete s k = true →
      (typeEff s p.val = 13 → trunkCredit s p.val f.tc = true ∧ recordOpen s p.val f.tc = false) →
      Ends (.lldWindowStart p none) s (windowStart s k f w) ∧
      Ends (.lldWindowStart p (some .single)) s (windowStart (qmEvent (s.add64 A.QM_CRU_CE_LO 1) 8) k f w) ∧
      Ends (.lldWindowStart p (some .uncorrectable)) s (lldDrop (qmEvent (s.add64 A.QM_CRU_UE_LO 1) 16) k 11 8)) ∧
    (portUp s p.val = true → pktComplete s k = true → typeEff s p.val = 13 → trunkCredit s p.val f.tc = false →
      Ends (.lldWindowStart p ecc) s (lldMiss s k w 12)) ∧
    (portUp s p.val = true → pktComplete s k = true → typeEff s p.val = 13 → trunkCredit s p.val f.tc = true →
      recordOpen s p.val f.tc = true → Ends (.lldWindowStart p ecc) s (lldMiss s k w 10))) ∧
  (∀ (s : State) (p : Fin 64), s.islandRuns 4 = true → Ends (.lldLateExpiry p) s (lldExpire s p.val))

/-- A copy gets a window at its target only where every condition of R299 and R300 holds (R304). -/
def Obligations.ReservedWindowIsFree : Prop :=
  ∀ (s : State) (k : Pkt) (f : Frame) (w : LlInfo), reserveCause s k f w = 0 →
    w.entry.testBit 31 = true ∧ (tsqHold f = true → s.bit (A.LLD_P_CFG k.e) 31 = false) ∧
    tb0 s < w.tgt ∧ w.tgt ≤ tb0 s + 1010 * us * nsUnits ∧ portUp s k.e = true ∧ lastWindowEnd s k.e ≤ w.start ∧
    busyEnd s k.e ≤ w.start ∧ (windowPkts s k.e).length < 256 ∧ shareOk s k.e w.start (w.stop - w.start) = true ∧
    (∀ x, x ∈ portWindows s k.e → x.1 + x.2 ≤ w.start)

/-! Assay and timed actions. -/

/-- Assay (R313 to R338): frames are taken in, records granted and sent to their engine slices, windows decided,
contexts and sources configured, and a context migrates. The clocks of the intake and when records are freed (assumption
99), windows decided once (assumption 100), late copies in a migration (assumption 101), the engine in sleep (assumption
102) and EN 1 over EN 1 (assumption 19) are the model's readings. -/
def Obligations.AssayCommands : Prop :=
  (∀ (s : State) (slice : Fin 4) (f : AsyFrame), s.islandRuns 4 = true → inSleep s = false →
    (s.asy.frames.find? fun f => decide (f.slice = slice.val)) = some f →
    let u := putAsy s { s.asy with frames := s.asy.frames.erase f }
    let b := toNats f.bytes
    (s.bit A.ASY_CFG 31 = false ∨ f.prim = false →
      Ends (.assayIntakeFrame slice) s (asyEvent (u.add64 A.ASY_BAD_FRAME_LO 1) 1)) ∧
    (∀ x, s.bit A.ASY_CFG 31 = true → f.prim = true → parseL2 b = .ok x →
      Ends (.assayIntakeFrame slice) s (unpack f (b.take (b.length - 4)) (x.at_ + 2) 15 0 u))) ∧
  (∀ s : State, s.islandRuns 4 = true → inSleep s = false →
    let used := s.asy.used - 8 * (grantClock s - s.asy.grantAt)
    Ends .assayIntakeGrant s (grantMany ((9 - used) / 3) (putAsy s { s.asy with used := used, grantAt := grantClock s }))) ∧
  (∀ (s : State) (e : Fin 4) (x : AsyMem), s.islandRuns 4 = true → inSleep s = false →
    (s.asy.fifo.find? fun x => decide (x.e = e.val)) = some x →
    let u := putAsy s { s.asy with fifo := s.asy.fifo.erase x }
    let t := recTime u x.c x.r
    let ignored := recFlagged u x.c x.r = true ∧ u.bit (A.ASY_CTX_CFG x.c) 22 = true
    let plain := ctxEn u x.c = true ∧ ¬ignored
    (ctxEn u x.c = false → Ends (.assayMembership e) s u) ∧
    (ctxEn u x.c = true → ignored → x.twin = false →
      Ends (.assayMembership e) s (u.add64 (A.ASY_CTX_IGNORED_LO x.c) 1)) ∧
    (plain → t + ctxClose u x.c < tb0 u → x.twin = false → Ends (.assayMembership e) s
      (ctxEvent (mark (u.add64 (A.ASY_CTX_LATE_LO x.c) 1) x.c t true) x.c 4)) ∧
    (∀ v, plain → tb0 u ≤ t + ctxClose u x.c →
      storeHist u ⟨e.val, x.c, 0, t, x.r.chan, x.veto, x.slot, x.r.amp, x.weight, recFlagged u x.c x.r, x.r.user⟩ = some v →
      Ends (.assayMembership e) s v) ∧
    (plain → tb0 u ≤ t + ctxClose u x.c →
      storeHist u ⟨e.val, x.c, 0, t, x.r.chan, x.veto, x.slot, x.r.amp, x.weight, recFlagged u x.c x.r, x.r.user⟩ = none →
      Ends (.assayMembership e) s
        (ctxEvent (mark (u.add64 (A.ASY_CTX_HIST_FULL_LO x.c) 1) x.c t false) x.c 8))) ∧
  (∀ (s : State) (c : Fin 256) (w : Nat × Nat), s.islandRuns 4 = true → inSleep s = false →
    (∀ m, s.asy.mig = some m → m.c = c.val → tb0 s < m.t + ctxClose s m.c) → nextWindowOf s c.val = some w →
    ctxEn s c.val = true → w.2 + ctxClose s c.val ≤ tb0 s →
    let copy := s.asy.copies.find? fun j => decide (j.c = c.val) && decide (windowSlice s c.val w = j.e)
    (copy = none → Ends (.assayDecide c) s (decideWindow s c.val w)) ∧
    (∀ j, copy = some j → j.late = true → Ends (.assayDecide c) s s) ∧
    (∀ j, copy = some j → j.late = false → Ends (.assayDecide c) s (migLate
      (putAsy s { s.asy with copies := s.asy.copies.map fun i => if i = j then { j with late := true } else i })))) ∧
  (∀ (s : State) (r : Req) (i : Fin 16384) (v : Word), s.listens r (A.TBL_SRC i.val 7) = true →
    let u := heard s r 1
    let ws := stagedEntry u r A.TBL_SRC 7 i.val v.toNat
    (srcCommitBad u i.val ws = false → EndsWith (.assaySourceCommit r i v) s fun t =>
      (∀ j, j < 8 → t.rd (A.TBL_SRC i.val j) = ws.getD j 0 % 2 ^ 32) ∧
      RegsKept s t (fun a => (decide (A.TBL_SRC i.val 0 ≤ a) && decide (a ≤ A.TBL_SRC i.val 7)) ||
        (countsHost a && decide (r = .host))) ∧ BanksKept s t) ∧
    (srcCommitBad u i.val ws = true → Ends (.assaySourceCommit r i v) s (rejected u r (A.TBL_SRC i.val 7)))) ∧
  (∀ (s : State) (r : Req) (c : Fin 256) (v : Word), s.listens r (A.ASY_CTX_CFG c.val) = true →
    let u := heard s r 1
    let on := s.bit (A.ASY_CTX_CFG c.val) 31
    (v.toNat.testBit 31 = true → on = false → ctxEnableBad u c.val v.toNat = false →
      Ends (.assayContextEnable r c v) s (ctxEnable u c.val v.toNat)) ∧
    (v.toNat.testBit 31 = true → on = false → ctxEnableBad u c.val v.toNat = true →
      Ends (.assayContextEnable r c v) s (rejected u r (A.ASY_CTX_CFG c.val))) ∧
    (v.toNat.testBit 31 = true → on = true → s.rd (A.ASY_CTX_CFG c.val) ≠ v.toNat &&& 0xFFFFE000 →
      Ends (.assayContextEnable r c v) s (rejected u r (A.ASY_CTX_CFG c.val))) ∧
    (v.toNat.testBit 31 = false → on = true → Ends (.assayContextDisable r c v) s (ctxDisable u c.val v.toNat))) ∧
  (∀ (s : State) (r : Req), s.listens r A.ASY_MIG_CTRL = true →
    Decided (.assayMigGo r) s r A.ASY_MIG_CTRL migBad migGo ∧ Decided (.assayMigCancel r) s r A.ASY_MIG_CTRL migCancelBad migCancel) ∧
  (∀ (s : State) (j : AsyCopy) (l : List AsyCopy), s.islandRuns 4 = true → inSleep s = false → s.asy.copies = j :: l →
    let waited := (openWindows s j.c).any fun w =>
      decide (windowSlice s j.c w = j.e) && decide (w.2 + ctxClose s j.c < tb0 s)
    let u := j.todo.foldl (fun s r => copyHist s j r) s
    let v := putAsy u { u.asy with copies := u.asy.copies.erase j }
    let w := if waited && !j.late then migLate v else v
    Ends .assayMigCopyDone s (decideDue [j.c] (w.asy.hist.length + 2) w)) ∧
  (∀ (s : State) (m : AsyMig), s.islandRuns 4 = true → inSleep s = false → s.asy.mig = some m →
    (m.t + ctxClose s m.c ≤ tb0 s → Ends .assayMigHandover s (migHandover s)) ∧
    (m.reached = false → m.t ≤ tb0 s → Ends .assayMigTReached s
      (setCtxStat ((putAsy s { s.asy with mig := some { m with reached := true } }).setFld A.ASY_MIG_STAT 31 28 2) m.c 3 m.new)))

/-- The windows of a context (R323): a FIXED window covers its record and is as long as W, but for the one before the
first boundary; windows of one context are equal or apart; a SLIDING window ends at its record and reaches W back. -/
def Obligations.AssayWindows : Prop :=
  ∀ (s : State) (c t u : Nat), 0 < ctxW s c →
    (ctxSliding s c = false → windowCovers s c (windowAt s c t) t = true ∧
      (ctxOff s c ≤ t → (windowAt s c t).2 = (windowAt s c t).1 + ctxW s c ∧
        ((windowAt s c t).1 - ctxOff s c) % ctxW s c = 0) ∧
      (windowAt s c t = windowAt s c u ∨ (windowAt s c t).2 ≤ (windowAt s c u).1 ∨ (windowAt s c u).2 ≤ (windowAt s c t).1)) ∧
    (ctxSliding s c = true → windowAt s c t = (t - ctxW s c, t) ∧ windowCovers s c (windowAt s c t) t = true)

/-- Timed actions at their T (R343, R346 to R348), announcements, reports and origination (R339 to R345, R350 to R353).
That an action waits while its island's loop is unlocked, and what a full table does with a late one, are the model's
readings (assumption 103). -/
def Obligations.TimedActionCommands : Prop :=
  (∀ (s : State) (k : Fin 16) (x : TacAct), s.power.die = true → slotAct s k.val = some x → actDue s x = true →
     actTurn s x = true →
     let island := if x.kind = 4 ∨ (x.kind = 6 ∧ argNat x 0 1 = 2) then 6 else 4
     let runs := fun (kind : Nat) (c : Instr) (t : State) => x.kind = kind →
       (loopStopped s island = false → Ends c s (settle t)) ∧ (loopStopped s island = true → Ends c s s)
     (∀ l, runs 1 (.heatCommit k l) (doHeatCommit s x (l.map Fin.val))) ∧
     runs 5 (.pulse k) (endAct (writeArm (stopOutputs s (argNat x 4 4)) .mgmt (argNat x 0 4)) x 0) ∧
     (inSleep s = false →
       runs 2 (.snapshot k) (doSnapshot s x) ∧
       runs 3 (.counterClear k) (endAct (pmcClear s (argNat x 0 4)) x 0) ∧
       runs 4 (.portEnable k) (doPortEnable s x) ∧
       runs 6 (.reset k) (doReset s x) ∧
       (let ok := argNat x 0 1 = 0 ∨ barrierHolds s (argNat x 2 2) (argNat x 4 4) = true;
         (ok → runs 7 (.barrier k) (endAct s x 0)) ∧ (¬ok → runs 7 (.barrier k) (endAct s x 2))) ∧
       runs 8 (.tacCancel k) (doCancel s x)) ∧
     (inSleep s = true →
       runs 2 (.snapshot k) (endAct s x 4) ∧ runs 3 (.counterClear k) (endAct s x 4) ∧
       runs 4 (.portEnable k) (endAct s x 4) ∧ runs 6 (.reset k) (endAct s x 4) ∧
       runs 7 (.barrier k) (endAct s x 4) ∧ runs 8 (.tacCancel k) (endAct s x 4))) ∧
  (∀ (s u : State) (p : Fin 64) (b : List Byte) (d : List Nat), s.portRuns p.val = true →
    tacReceive s p.val b 3 = (u, some d) →
    (readAnnounce d = none → Ends (.tacAnnounceRx p b) s (settle (tacBad u))) ∧
    (∀ x, readAnnounce d = some x →
      (upPort u ≠ some p.val → Ends (.tacAnnounceRx p b) s (settle (u.add64 A.TAC_WRONG_PORT_LO 1))) ∧
      (upPort u = some p.val → (x.orig, x.actId) ∈ u.tac.recent →
        Ends (.tacAnnounceRx p b) s (settle (u.add64 A.TAC_DUP_LO 1))) ∧
      (upPort u = some p.val → (x.orig, x.actId) ∉ u.tac.recent → Ends (.tacAnnounceRx p b) s
        (settle (acceptAct u { x with hops := x.hops + 1, src := some p.val } ((byteAt d 1).testBit 2) false false))))) ∧
  (∀ (s u : State) (p : Fin 64) (b : List Byte) (d : List Nat), s.portRuns p.val = true →
    tacReceive s p.val b 5 = (u, some d) →
    let found := u.tac.acts.reverse.find? fun a => decide ((a.orig, a.actId) = (beAt d 2 2, beAt d 4 2))
    (reportOk d = false → Ends (.tacReportRx p b) s (settle (tacBad u))) ∧
    (∀ x, reportOk d = true → found = some x →
      (x.closed = true → x.report = true → Ends (.tacReportRx p b) s (settle (tacEvent (u.add64 A.TAC_REP_LATE_LO 1) 64))) ∧
      (x.closed = false → p.val ∈ x.heard → Ends (.tacReportRx p b) s (settle (u.add64 A.TAC_DUP_LO 1))) ∧
      (x.closed = false → p.val ∉ x.heard → p.val ∈ x.sent →
        Ends (.tacReportRx p b) s (settle (putAct u (sumReport x p.val d)))) ∧
      (x.closed = false → p.val ∉ x.heard → p.val ∉ x.sent →
        Ends (.tacReportRx p b) s (settle (u.add64 A.TAC_WRONG_PORT_LO 1))))) ∧
  (∀ (s : State) (k : Fin 16) (x : TacAct), s.power.die = true → loopStopped s 4 = false → slotAct s k.val = some x →
    reportDue s x = true →
    Ends (.tacReportDeadline k) s (settle (closeAct s x))) ∧
  (∀ (s : State) (r : Req) (v : Word), s.listens r A.TAC_ORIG_CTRL = true →
    let u := heard s r 2
    let bad := ownBusy u = true ∨ (v.toNat.testBit 0 = true ∧ goBad u v.toNat = true)
    (bad → Ends (.tacOriginate r v) s (rejected u r A.TAC_ORIG_CTRL)) ∧
    (¬bad → Ends (.tacOriginate r v) s (settle (originate u v.toNat)))) ∧
  (∀ (s : State) (r : Req) (high : Bool) (v : Word),
    s.listens r (if high then A.TAC_EXPECT_CLR_HI else A.TAC_EXPECT_CLR_LO) = true →
    Ends (.tacExpectClear r high v) s (settle (expectClear (heard s r 1) high v.toNat)))

/-! Codes. -/

/-- What a lane's transmitter puts on the line, a receiver of the same mode, precoding and polarity gives back (R72 to
R75); and the markers and the step-up page that a port sends are valid, the page also as the control blocks that carry
it, a marker giving its receiver the time at which it left (R99, R103, R135). -/
def Obligations.LineCodeRoundTrip : Prop :=
  (∀ (s r : State) (l m last : Nat) (b : List Bool),
    isPam4 (laneMode s l) = isPam4 (laneMode r m) → laneFlag s l 16 = laneFlag r m 15 →
    s.bit (A.LANE_CTRL l) 3 = rxInverted r m → (isPam4 (laneMode s l) = true → b.length % 2 = 0) →
    lineBits r m last (lineSymbols s l last b) = b) ∧
  (∀ (past b : List Bool), descramble past (scramble past b) = b) ∧
  (∀ (c : Bool) (past b : List Bool), validHeader (syncHeader c) = true ∧
    block66 c past b = c :: (!c) :: scramble past b) ∧
  (∀ b : List Bool, b.length % 2 = 0 → grayUnmap (grayMap b) = b ∧ ∀ x, x ∈ grayMap b → x < 4) ∧
  (∀ (lane active mseq t : Nat) (cred : List Nat), lane < 8 →
    let b := markerBytes lane active mseq t cred
    markerValid b = true ∧ b.getD 3 0 = lane ∧ b.getD 4 0 = active ∧ b.getD 5 0 = mseq ∧
    (cred.length = 8 → b.length = 32) ∧
    (∀ now, t < ftWrap → now < ftWrap → (t / secUnits : Int) < now / secUnits + 32768 →
      (now / secUnits : Int) ≤ t / secUnits + 32768 → extendPhase now b = t)) ∧
  (∀ (s : State) (p : Nat), (s.port p).kmax ∈ ([1, 2, 4, 8] : List Nat) →
    let b := pageBytes s p
    pageValid b = true ∧ b.length = 32 ∧ beNat (slice b 4 2) = s.fld A.GLB_NODE_ID 15 0 ∧ b.getD 8 0 = p ∧
    b.getD 9 0 = (s.port p).caps ∧ b.getD 10 0 = (s.port p).kmax ∧
    (p < 64 → (s.port p).caps < 256 → pageOf ((pageBlocks b).map fun x => (BitVec.ofNat 2 x.1, ofNats x.2)) = some b))

/-- An announcement that a node sends carries the action without loss (R341): read back, it names the same originator,
action, kind, time, arguments and wait, and the same LATE_OK. -/
def Obligations.AnnouncementRoundTrip : Prop :=
  ∀ x : TacAct, x.orig < 2 ^ 16 → x.actId < 2 ^ 16 → x.hops < 256 → x.kind < 256 → x.t < ftWrap → x.wait ≤ 10000000 →
    x.args.length = 32 → (∀ n, n ∈ x.args → n < 256) → argsOk x.kind x.args = true →
    ∃ y, readAnnounce (announcement x x.report x.hops) = some y ∧ y.orig = x.orig ∧ y.actId = x.actId ∧ y.hops = x.hops ∧
      y.kind = x.kind ∧ y.t = x.t ∧ y.args = x.args ∧ y.wait = x.wait ∧ y.lateOk = x.lateOk ∧
      (announcement x x.report x.hops).length = 60

/-! Ingots, interrupts and the host. -/

/-- Ingots (R370 to R373) and interrupts (R376 to R384). A rejected write that also clears EN, the offers at a source
that moves, and a raise or SWSET of a source that no chapter assigns are the model's readings (assumption 25); which
triggers share a clock is its reading too (assumption 49). -/
def Obligations.IngotAndInterruptCommands : Prop :=
  (∀ (s : State) (r : Req), s.listens r A.SNP_CTRL = true →
    let u := heard s r 1
    Ends (.trig r) s (trigger u 1 0 (tb0 u)).1 ∧
    (tb0 u ≤ u.rdTime A.SNP_AT_W2 → Ends (.atArm r) s (u.setBit A.SNP_STAT 27 true)) ∧
    (u.rdTime A.SNP_AT_W2 < tb0 u → Ends (.atArm r) s (snpEvent (snpFire u) 8)) ∧
    Ends (.atDisarm r) s (u.setBit A.SNP_STAT 27 false)) ∧
  (∀ s : State, s.islandRuns 4 = true → s.bit A.SNP_STAT 27 = true → s.rdTime A.SNP_AT_W2 ≤ tb0 s →
    Ends .snpAtReached s (trigger (s.setBit A.SNP_STAT 27 false) 4 (s.rd A.SNP_AT_TAG) (s.rdTime A.SNP_AT_W2)).1) ∧
  (∀ (s : State) (b : Bool), s.power.die = true → Ends (.snapInEdge b) s (settle (wakeSnap (snpEdge s b) b))) ∧
  (∀ s : State, s.islandRuns 4 = true → snpPhase s = 2 → Ends .snpCopyDone s (finishIngot s)) ∧
  (∀ (s : State) (r : Req) (b : Bool) (v : Word), s.listens r (A.SNP_FREE (bit01 b)) = true →
    EndsWith (.snpFreeSlot r b v) s fun t =>
      (∀ k, k < 64 → slotBit t A.SNP_VALID k =
        (slotBit s A.SNP_VALID k && !(decide (k / 32 = bit01 b) && v.toNat.testBit (k % 32)))) ∧
      RegsKept s t (fun a => decide (a = A.SNP_VALID (bit01 b)) || decide (a = A.SNP_STAT) || (countsHost a && decide (r = .host))) ∧
      BanksKept s t) ∧
  (∀ (s : State) (i : Fin 1024), s.power.die = true →
    (sourceAssigned i.val = true → Ends (.sourceRaise i) s (s.raise i.val)) ∧
    (sourceAssigned i.val = false → Ends (.sourceRaise i) s s)) ∧
  (∀ (s : State) (r : Req) (v : Word), s.listens r A.INT_SWSET = true →
    Decided (.swset r v) s r A.INT_SWSET (fun u => decide (r = .host) && u.bit (A.INT_SRC (v.toNat % 1024)) 30)
      (fun u => if sourceAssigned (v.toNat % 1024) = true then u.raise (v.toNat % 1024) else u)) ∧
  (∀ (s : State) (r : Req) (i : Fin 1024) (v : Word), s.listens r (A.INT_SRC i.val) = true →
    let a := A.INT_SRC i.val
    let w := if r = .host then v.toNat &&& 0x800F003F else v.toNat &&& 0xC00F003F
    let moved := fun u : State => decide (bits w 5 0 ≠ bits (u.rd a) 5 0) || decide (bits w 19 16 ≠ bits (u.rd a) 19 16)
    Decided (.intSourceCfgWrite r i v) s r a
      (fun u => decide (34 < bits w 5 0) || ((u.rd a).testBit 31 && moved u) || (decide (r = .host) && (u.rd a).testBit 30))
      (fun u =>
        let old := bits (u.rd a) 5 0
        let t := if w.testBit 31 then u.wr a w else entryLost (setPend (u.wr a w) i.val false) old i.val
        if moved u then retarget (retarget t old) (bits w 5 0) else t)) ∧
  (∀ (s : State) (r : Req) (t : Fin 35) (v : Word), s.listens r (A.INT_T_CLAIM t.val) = true →
    Decided (.claim r t v) s r (A.INT_T_CLAIM t.val)
      (fun u => !(targetRequester t.val r && claimOk u t.val (v.toNat % 1024)))
      (fun u => claimSource u t.val (v.toNat % 1024))) ∧
  (∀ (s : State) (r : Req) (t : Fin 35) (v : Word), s.listens r (A.INT_T_EOI t.val) = true →
    Decided (.eoi r t v) s r (A.INT_T_EOI t.val)
      (fun u => !(targetRequester t.val r && eoiOk u t.val (v.toNat % 1024)))
      (fun u => endSource u t.val (v.toNat % 1024))) ∧
  (∀ (s : State) (t : Fin 35), s.power.die = true → s.due (.coalesce t.val) = true →
    Ends (.intCoalesceTimeout t) s (coalesceFire s t.val)) ∧
  (∀ (s : State) (n : Fin 32) (b : Bool), s.listens .host (A.HOST_MSIX_CTL n.val) = true →
    Ends (.msixMaskWrite (some n) b) s (writeMask (heard s .host 1) (some n.val) b)) ∧
  (∀ (s : State) (b : Bool), s.power.die = true → Ends (.msixMaskWrite none b) s
    ((List.range 32).foldl unmask { s with int := { s.int with funcMask := b } })) ∧
  (∀ s : State, s.power.die = true →
    (s.int.link = .l1 ∨ s.int.link = .l1Exit → Ends .pcieL1ExitDone s ((hostLinkUp s).pmcEvent 22 0x304 1)) ∧
    (s.int.link = .d3hot → Ends .pcieD0Return s (hostLinkUp s)) ∧
    (s.int.link = .l0 → Ends .pcieL1Entry s { s with int := { s.int with link := .l1 } }) ∧
    (∀ b, (s.int.link ≠ .down → Ends (.pcieD3hotEntry b) s { s with int := { s.int with link := .d3hot, pmeEn := b } }) ∧
      (s.int.link = .down → Ends (.pcieD3hotEntry b) s s)) ∧
    (s.int.link = .down → Ends .pcieL1ExitDone s s ∧ Ends .pcieD0Return s s ∧ Ends .pcieL1Entry s s))

/-- A trigger is accepted while the block is enabled: as a further source of the ingot that began in the same clock, or
as a new ingot where the block is idle, in RUN, with a slot whose bank is ON; its words are then being latched or
copied. One that is not accepted is counted as missed, with its cause (R370, R371, R372). -/
def Obligations.TriggerOutcome : Prop :=
  ∀ (s : State) (src tag t : Nat),
    ((trigger s src tag t).2 = true ↔ s.bit A.SNP_CFG 31 = true ∧ (sameClock s = true ∨ (snpPhase s = 0 ∧ inRun s = true ∧
      ∃ k, nextSlot s = some k ∧ bankOn s (8 + k / 32) = true))) ∧
    ((trigger s src tag t).2 = true → sameClock s = false →
      snpPhase (trigger s src tag t).1 = 1 ∨ snpPhase (trigger s src tag t).1 = 2) ∧
    (s.bit A.SNP_CFG 31 = true → sameClock s = true → snpPhase s ≠ 0 ∧
      snpPhase (trigger s src tag t).1 = snpPhase s ∧ (trigger s src tag t).1.snp.src = s.snp.src ||| src) ∧
    ((trigger s src tag t).2 = false → ∃ c, 1 ≤ c ∧ c ≤ 5 ∧ (trigger s src tag t).1 = missTrigger s src c)

/-- A target's running priority is the highest of its active sources, and 0 with none; a source is deliverable where it
is PENDING and enabled with a priority above the threshold and the running priority, so one of priority 0 is never
delivered: its raise sets its bit in INT.PENDw and does nothing else at any target (R379). -/
def Obligations.RunningPriority : Prop :=
  ∀ (s : State) (t : Nat),
    (∀ j, j < 1024 → srcAct s j = true → srcTarget s j = t → srcPrio s j ≤ runningPrio s t) ∧
    (runningPrio s t = 0 ∨ ∃ j, j < 1024 ∧ srcAct s j = true ∧ srcTarget s j = t ∧ srcPrio s j = runningPrio s t) ∧
    (∀ i, deliverable s t i = true ↔ srcPend s i = true ∧ srcAct s i = false ∧ srcEn s i = true ∧ srcTarget s i = t ∧
      s.fld (A.INT_T_CFG t) 3 0 < srcPrio s i ∧ runningPrio s t < srcPrio s i) ∧
    (∀ i, i < 1024 → srcPrio s i = 0 → srcLive s i = true → deliverable s t i = false ∧
      raiseSource s i = s.setBit (A.INT_PEND (i / 32)) (i % 32) true)

/-- The mailbox's requests, their answers, ACK and ABORT, and the rings (R386 to R389). A request row that writes the
words and rings in one step, and the effects of flash and module operations at the response, are the model's readings
(assumption 64). -/
def Obligations.HostCommands : Prop :=
  (∀ (s : State) (tag : Byte), s.listens .host A.HOST_MBX_DB = true →
     let sent := fun (c : Instr) (cmd : Nat) (args : List Word) => args.length ≤ 63 →
       (mbxState s = 0 → EndsWith c s fun t =>
         mbxState t = 1 ∧ t.rd (A.HOST_MBX_REQ 0) = cmd * 2 ^ 16 + args.length * 2 ^ 8 + tag.toNat ∧
         ∀ i, i < args.length → t.rd (A.HOST_MBX_REQ (i + 1)) = (args.getD i 0).toNat) ∧
       (mbxState s ≠ 0 → EndsWith c s fun t => mbxState t = mbxState s ∧
         (mbxState s = 1 → ∀ i, i < 64 → t.rd (A.HOST_MBX_REQ i) = s.rd (A.HOST_MBX_REQ i)))
     sent (.getVersion tag) 0x0001 [] ∧ sent (.getHealth tag) 0x0002 [] ∧
     (∀ d a n, sent (.flashRead tag d a n) 0x0010 [d, a, n]) ∧
     (∀ d a, sent (.flashErase tag d a) 0x0011 [d, a]) ∧
     (∀ d a n l, sent (.flashProgram tag d a n l) 0x0012 ([d, a, n] ++ l)) ∧
     (∀ p b o n, sent (.cmisRead tag p b o n) 0x0020 [p, b, o, n]) ∧
     (∀ p b o n l, sent (.cmisWrite tag p b o n l) 0x0021 ([p, b, o, n] ++ l))) ∧
  (∀ (s : State) (data : List Word) (ok : Bool), s.islandRuns 5 = true → mbxState s = 1 →
    romServes s = true ∨ firmwareServes s = true →
    let st := mbxStatus s ok
    let l := if st = 0 then mbxWords s (data.map (·.toNat)) else []
    let u := if st = 0 then mbxAct s else s
    Ends (.mbxResponse data ok) s
      ((setMbx (putResponse u 0 ((st * 2 ^ 16 + l.length * 2 ^ 8 + mbxArg u 0 % 256) :: l)) 2).raise 1023)) ∧
  (∀ (s : State) (r : Req), s.listens r A.HOST_MBX_DB = true →
    Decided (.ack r) s r A.HOST_MBX_DB (fun u => decide (mbxState u ≠ 2)) (fun u => setMbx u 0) ∧
    Ends (.abort r) s (setMbx (heard s r 1) 0)) ∧
  (∀ (s : State) (r : Req) (n : Fin 32) (v : Word), s.listens r (A.HOST_RING_CFG n.val) = true →
    Decided (.ringEnable r n v) s r (A.HOST_RING_CFG n.val)
      (fun u => ringEn u n.val && decide (bits v.toNat 19 16 ≠ u.fld (A.HOST_RING_CFG n.val) 19 16))
      (fun u =>
        let t := u.wr (A.HOST_RING_CFG n.val) (v.toNat &&& 0x800F0000)
        if v.toNat.testBit 31 then ringStart t n.val else t)) ∧
  (∀ (s : State) (n : Fin 32), s.islandRuns 4 = true → telDue s n.val = true →
    let per := Nat.max 1 (s.rd (A.HOST_RING_TEL_PER n.val))
    let next := Map.put 0 s.host.telNext n.val (Map.get 0 s.host.telNext n.val + per * us * nsUnits)
    Ends (.telemetrySample n) s ((bitsSet (s.rd (A.HOST_RING_TEL_GRP n.val)) 24).foldl
      (fun u g => telRecord u n.val g (tb0 s)) { s with host := { s.host with telNext := next } }))

/-- Counters (R391 to R393), banks (R394 to R399) and the test port (R422, R423). The end of a March test gives every
bank its status, its failed rows and its contents (R399). The order of the boundary register is the model's choice
(assumption 107), and what each instruction shifts is presumed from IEEE 1149.1 (assumption 108). -/
def Obligations.CounterBankAndTestPortCommands : Prop :=
  (∀ (s : State) (r : Req), s.listens r A.PMC_CTRL = true →
    let u := heard s r 1
    Ends (.freeze r) s (u.setBit A.PMC_STAT 31 true) ∧ Ends (.run r) s (u.setBit A.PMC_STAT 31 false) ∧
    EndsWith (.snap r) s fun t =>
      (∀ g j, g < 24 → j < 18 → t.rd (A.PMC_SHADOW g j) = u.rd (A.PMC_CYC_LO g + 4 * j)) ∧
      RegsKept u t (fun a => decide (A.PMC_SHADOW 0 0 ≤ a) && decide (a < A.PMC_SHADOW 24 0)) ∧ BanksKept s t) ∧
  (∀ (s : State) (r : Req) (v : Word), s.listens r A.PMC_CLR = true → EndsWith (.pmcGroupClear r v) s fun t =>
    (∀ g j, g < 24 → j < 18 → v.toNat.testBit g = true → t.rd (A.PMC_CYC_LO g + 4 * j) = 0) ∧
    RegsKept (heard s r 1) t (fun a => (List.range 24).any fun g =>
      v.toNat.testBit g && decide (A.PMC_CYC_LO g ≤ a) && decide (a < A.PMC_CYC_LO g + 72)) ∧ BanksKept s t) ∧
  (∀ (s : State) (g : Fin 24) (j : Fin 9), s.awake = true → (g.val, j.val) ∈ s.pmcWraps →
    Ends (.pmcCounterWrap g j) s (({ s with pmcWraps := s.pmcWraps.erase (g.val, j.val) } : State).event (A.PMC_G_EVT g.val)
      (A.PMC_G_EVT_EN g.val) (776 + g.val) (2 ^ j.val) 0)) ∧
  (∀ (s : State) (r : Req) (v : Word), s.listens r A.PMC_UPAGE = true → EndsWith (.upage r v) s fun t =>
    t.bit A.PMC_UPAGE 0 = v.toNat.testBit 0 ∧
    RegsKept (heard s r 2) t (fun a => decide (a = A.PMC_UPAGE)) ∧ BanksKept s t) ∧
  (∀ (s : State) (r : Req) (b : Fin 12) (v : Word), s.listens r (A.MEM_BANK_CTRL b.val) = true →
    Decided (.bankStateRequest r b v) s r (A.MEM_BANK_CTRL b.val) (fun u => bankWriteBad u r b.val v.toNat) (fun u =>
      let t := u.wr (A.MEM_BANK_CTRL b.val) (v.toNat % 4)
      if bankState t b.val = 3 then setBankPending (putBankH t b.val { t.bank b.val with held := some (v.toNat % 4) }) b.val true
      else if bankState t b.val = 4 then t else bankBegin t b.val (v.toNat % 4))) ∧
  (∀ (s : State) (b : Fin 12) (g : Nat), (if b.val = 8 ∨ b.val = 9 then s.power.ka else s.power.die) = true →
    (s.bank b.val).goal = some g → (s.bank b.val).held = none →
    let u := putBankH (setBankState s b.val g) b.val { s.bank b.val with goal := none, held := none }
    Ends (.bankStateChangeDone b) s (if g = 0 then u.clearBank b.val false else u)) ∧
  (∀ (s : State) (b : Fin 12) (w : Nat), (if b.val = 8 ∨ b.val = 9 then s.power.ka else s.power.die) = true →
    bankState s b.val = 1 ∨ bankState s b.val = 3 → 8 * w < bankSize b.val →
    Ends (.bankEccError b w true) s (bankUncorrectable s b.val w) ∧
    Ends (.bankEccError b w false) s (bankCorrected s b.val w)) ∧
  (∀ (s : State) (r : Req) (v : Word), s.listens r A.MEM_MARCH_CTRL = true →
    let u := heard s r 2
    let bad := v.toNat.testBit 31 = true ∧ marchBad u v.toNat = true
    (bad → Ends (.marchGo r v) s (rejected u r A.MEM_MARCH_CTRL)) ∧
    (¬bad → v.toNat.testBit 31 = true → Ends (.marchGo r v) s
      (marchStart (u.wr A.MEM_MARCH_CTRL (v.toNat &&& 0x40000FFF)) (v.toNat % 4096) (v.toNat.testBit 30))) ∧
    (¬bad → v.toNat.testBit 31 = false → Ends (.marchGo r v) s (u.wr A.MEM_MARCH_CTRL (v.toNat &&& 0x40000FFF)))) ∧
  (∀ (s : State) (l : List (Fin 12 × Nat)) (banks : Nat) (keep : Bool), s.awake = true → s.march = some (banks, keep) →
    banks < 4096 →
    let rows := marchRows banks (l.map fun e => (e.1.val, e.2))
    EndsWith (.marchDone l) s fun t =>
      t.march = none ∧ t.bit A.MEM_MARCH_STAT 31 = false ∧ t.bit A.MEM_EVT 0 = true ∧
      (rows ≠ [] → t.bit A.MEM_EVT 1 = true) ∧
      ∀ b, b < 12 → let k := (rows.filter fun e => decide (e.1 = b)).length
        let spares := s.fld (A.MEM_BANK_STAT b) 22 16
        t.bit A.MEM_MARCH_STAT (12 + b) = banks.testBit b ∧ t.bit A.MEM_MARCH_STAT b = decide (0 < k) ∧
        (spares ≤ 64 → t.fld (A.MEM_BANK_STAT b) 22 16 = Nat.min 64 (spares + k)) ∧
        bankState t b = (if 0 < k ∧ 64 < spares + k then 4 else bankState s b) ∧
        (keep = false → banks.testBit b = true → ∀ i, i < 2 ^ 24 → t.bankByte b i = 0) ∧
        (keep = true ∨ banks.testBit b = false → b ≠ 8 → b ≠ 9 → ∀ i, i < 2 ^ 24 → t.bankByte b i = s.bankByte b i)) ∧
  (∀ (s : State) (r : Req) (v : Word), s.listens r A.MEM_CAPT_RD = true → EndsWith (.captRd r v) s fun t =>
    t.rd A.MEM_CAPT_RD = v.toNat % 16384 ∧
    t.fld A.MEM_CAPT_STAT 14 0 =
      s.fld A.MEM_CAPT_STAT 14 0 - (v.toNat % 16384 + 16384 - s.rd A.MEM_CAPT_RD) % 16384 ∧
    RegsKept s t (fun a => decide (a = A.MEM_CAPT_RD) || decide (a = A.MEM_CAPT_STAT) || (countsHost a && decide (r = .host))) ∧
    BanksKept s t) ∧
  (∀ (s : State) (i : TapInstr) (scan : Option TapScan), EndsWith (.tapInstruction i scan) s fun t =>
    t.power.tap = i ∧ t.power.ka = s.power.ka ∧ t.power.main = s.power.main ∧
    (i = .bypass ∨ i = .idcode ∨ i = .samplePreload → t.power.die = s.power.die ∧ RegsKept s t (fun _ => false)) ∧
    (i = .extest ∨ i = .clamp ∨ i = .highz → t.power.tapHold = true ∧ (s.power.tapHold = false → t.power.die = false)) ∧
    (∀ x, scan = some x →
      (i = .samplePreload ∨ i = .extest → t.power.cells = (x.pins.toList ++ x.tdi).drop x.tdi.length) ∧
      (i ≠ .samplePreload → i ≠ .extest → t.power.cells = s.power.cells) ∧
      (i = .idcode → s.power.tapHold = false → x.tdi.length = 32 → t.out = s.out ++
        [.tdo ((List.range 32).map fun n => (s.fld A.GLB_FUSE_INFO 15 12 * 2 ^ 28 + 0x64 * 2 ^ 12 + 1).testBit n)]))) ∧
  (∀ s : State, EndsWith .tapReset s fun t =>
    t.power.tap = .idcode ∧ t.power.tapHold = false ∧ t.power.ka = s.power.ka ∧ t.power.main = s.power.main)

/-! Rules of the spec, each stated whole. -/

/-- A guarded GO is accepted only in FAILED and RECOVERY, where it starts LOAD with the image order of SEL; in any other
state it is discarded, with an ACCESS_ERR (R53). -/
def Obligations.GuardedBootGo : Prop :=
  ∀ (s : State) (r : Req) (sel : BitVec 2), s.listens r A.GLB_BOOT_CTRL = true →
    (bootState s = 6 ∨ bootState s = 7 → EndsWith (.bootGo r sel) s fun t =>
      bootState t = 3 ∧ t.boot.order = (if sel = 0 then [0, 1] else if sel = 1 then [1, 0] else if sel = 2 then [0] else [1]) ∧
      t.boot.awaiting = true) ∧
    (bootState s ≠ 6 → bootState s ≠ 7 → Ends (.bootGo r sel) s (accessErr (heard s r 2) 5 r A.GLB_BOOT_CTRL))

/-- In SLEEP, an access of any width to a block that is off completes with an error response: a read gives all ones, and
a write changes nothing (R64). Which blocks are off where the table Blocks in sleep does not say (assumption 17), and
that this comes before the width of the access (assumption 13), are the model's readings. -/
def Obligations.SleepingBlockAccess : Prop :=
  ∀ (s : State) (r : Req) (a : BitVec 32) (bytes : Nat) (data : List Word), reaches s r = true →
    waitsAtCore s r = false → bootState s = 9 →
    mapped a.toNat = true → ¬(a.toNat < 0x30000 ∨ (0x70000 ≤ a.toNat ∧ a.toNat < 0x80000)) →
    ¬(0x100000 ≤ a.toNat ∧ a.toNat < 0x180000) →
    busRead s r a.toNat bytes = some ([0xFFFFFFFF], false) ∧
    Ends (.registerWrite r a bytes data) s (s.emit (.errorResponse r a.toNat))

/-- The user page of the counters mirrors the live counters of the 24 groups where EN is 1 and reads 0 where it is 0,
and it starts at a 4 KiB boundary (R393). -/
def Obligations.UserPageMirror : Prop :=
  A.PMC_USER 0 = 0x38000 ∧ A.PMC_USER 0 % 4096 = 0 ∧
  (∀ (s : State) (r : Req) (o : Nat), o < 0x1000 → o % 4 = 0 → reaches s r = true → waitsAtCore s r = false →
    islandRuns s 4 = true → gateOpen s r (A.PMC_USER 0) = true → s.bit A.PMC_UPAGE 0 = false → busRead s r (A.PMC_USER 0 + o) 4 = some ([0], true)) ∧
  ∀ (s : State) (r : Req) (g j : Nat), g < 24 → j < 18 → reaches s r = true → gateOpen s r (A.PMC_USER 0) = true →
    s.bit A.PMC_UPAGE 0 = true → let o := A.PMC_CYC_LO g + 4 * j - A.PMC_CYC_LO 0
    busRead s r (A.PMC_USER 0 + o) 4 = busRead s r (A.PMC_CYC_LO g + 4 * j) 4

/-- MEM.WIN reads the page of the bank that WIN_SEL names; a bank that is not ON gives an error response and all ones,
and a write to the window is discarded with an ACCESS_ERR (R396). The kind of this error (assumption 19) and that the
write counts as a host write (assumption 16) are the model's readings. -/
def Obligations.BankWindow : Prop :=
  A.MEM_WIN 0 = 0x58000 ∧
  ∀ (s : State) (r : Req) (a : BitVec 32) (v : Word), 0x58000 ≤ a.toNat → a.toNat < 0x60000 → a.toNat % 4 = 0 →
    s.listens r a.toNat = true →
    let b := s.fld A.MEM_WIN_SEL 19 16
    let i := s.fld A.MEM_WIN_SEL 8 0 * 0x8000 + (a.toNat - 0x58000)
    (bankState s b = 1 → busRead s r a.toNat 4 = some ([(s.bankByte b i).toNat + (s.bankByte b (i + 1)).toNat * 2 ^ 8 +
      (s.bankByte b (i + 2)).toNat * 2 ^ 16 + (s.bankByte b (i + 3)).toNat * 2 ^ 24], true)) ∧
    (bankState s b ≠ 1 → busRead s r a.toNat 4 = some ([0xFFFFFFFF], false)) ∧
    Ends (.registerWrite r a 4 [v]) s (accessErr (heard s r 1) 5 r a.toNat)
end

