-- ==== Sys2Proof/Laws/Run.lean ====
section
/-! SUPPORT. How a command ends: what `done` and the guards of Machine/Run.lean answer, said once. -/

namespace Sys2Proof.Machine

variable {s t : State} {f : State → State}

@[simp] theorem done_eq_next (s t : State) :
    done s t = .next { t with pending := s.pending, now := s.now } := rfl

/-- A state that has the queue and true time of `s` is where `done` ends. -/
theorem done_of_kept (hp : t.pending = s.pending) (hn : t.now = s.now) : done s t = .next t := by
  cases t
  cases hp
  cases hn
  rfl

theorem done_self (s : State) : done s s = .next s := done_of_kept rfl rfl

theorem ends_of_exec {c : Instr} (h : exec c s = done s t) : Ends c s t := h

/-- A command that ends in `t` ends in a state of which everything holds that holds of `t` with the old queue and time. -/
theorem Ends.endsWith {c : Instr} {P : State → Prop} (h : Ends c s t) (hp : P { t with pending := s.pending, now := s.now }) :
    EndsWith c s P := ⟨_, h, rfl, rfl, hp⟩

/-! The guards: what they run where their condition holds, and that nothing changes where it does not. -/

theorem onDie_on (h : s.power.die = true) : onDie s f = done s (f s) := by simp [onDie, h]

theorem onDie_off (h : s.power.die = false) : onDie s f = .next s := by
  simp only [onDie, h, Bool.false_eq_true, if_false]; exact done_self s

theorem onKeep_on (h : s.power.ka = true) : onKeep s f = done s (f s) := by simp [onKeep, h]

theorem onKeep_off (h : s.power.ka = false) : onKeep s f = .next s := by
  simp only [onKeep, h, Bool.false_eq_true, if_false]; exact done_self s

theorem onTclk_on (h : tclkRuns s = true) : onTclk s f = done s (f s) := by simp [onTclk, h]

theorem onTclk_off (h : tclkRuns s = false) : onTclk s f = .next s := by
  simp only [onTclk, h, Bool.false_eq_true, if_false]; exact done_self s

theorem onIsland_on {i : Nat} (h : s.islandRuns i = true) : onIsland s i f = done s (f s) := by
  simp only [State.islandRuns] at h; simp [onIsland, h]

theorem onIsland_off {i : Nat} (h : s.islandRuns i = false) : onIsland s i f = .next s := by
  simp only [State.islandRuns] at h
  simp only [onIsland, h, Bool.false_eq_true, if_false]; exact done_self s

theorem onCentral_on (h : s.islandRuns 4 = true) : onCentral s f = done s (f s) := onIsland_on h

theorem onFirmware_on (h : s.islandRuns 5 = true) : onFirmware s f = done s (f s) := onIsland_on h

theorem onPort_on {p : Nat} (h : s.portRuns p = true) : onPort s p f = done s (f s) := by
  simp only [State.portRuns] at h; simp [onPort, h]

theorem onPort_off {p : Nat} (h : s.portRuns p = false) : onPort s p f = .next s := by
  simp only [State.portRuns] at h
  simp only [onPort, h, Bool.false_eq_true, if_false]; exact done_self s

theorem onEgress_on {p : Nat} (h : s.egressRuns p = true) : onEgress s p f = done s (f s) := by
  simp only [State.egressRuns] at h; simp only [onEgress, h, if_true]

theorem onEgress_off {p : Nat} (h : s.egressRuns p = false) : onEgress s p f = .next s := by
  simp only [State.egressRuns] at h
  simp only [onEgress, h, Bool.false_eq_true, if_false]; exact done_self s

theorem onAwake_on (h : s.awake = true) : onAwake s f = done s (f s) := by
  simp only [State.awake] at h; simp only [onAwake, h, if_true]

theorem onAwake_off (h : s.awake = false) : onAwake s f = .next s := by
  simp only [State.awake] at h
  simp only [onAwake, h, Bool.false_eq_true, if_false]; exact done_self s

theorem onLane_on {l : Nat} (h : s.awake = true) : onLane s l f = done s (settle (laneAfter s (f s) l)) := onAwake_on h

theorem onEngine_on (h : s.islandRuns 4 = true) (hs : inSleep s = false) : onEngine s f = done s (f s) := by
  simp [onEngine, onCentral_on h, hs]

theorem onCores_on (h : s.power.ka = true) : onCores s f = done s (settle (swoAfter s (f s))) := onKeep_on h

/-! A data die that does not run takes no access. -/

theorem write32_off {r : Req} {a v : Nat} (h : s.power.die = false) : write32 s r a v = s := by
  simp [write32, busWrite, reaches, h]

theorem guardedWrite_off {r : Req} {a v : Nat} (h : s.power.die = false) : guardedWrite s r a v = s := by
  simp [guardedWrite, reaches, h]

/-! Runs. -/

theorem safeRun_of_steps (h : ∀ s, ∃ t, step s = .next t) (n : Nat) (s : State) : SafeRun n s := by
  induction n generalizing s with
  | zero => trivial
  | succ n ih => obtain ⟨t, ht⟩ := h s; exact ⟨t, ht, ih t⟩

end Sys2Proof.Machine
end

