-- ==== Sys2Proof/Laws/Maps.lean ====
section
/-! SUPPORT. Sorted maps and the banks' cells: what is written is read, every other entry stays, and the canonical form
is kept. -/

namespace Sys2Proof.Machine

variable {α : Type}

@[simp] theorem map_get_nil (d : α) (a : Nat) : Map.get d [] a = d := rfl

theorem map_get_set_self (d : α) (m : List (Nat × α)) (a : Nat) (v : α) : Map.get d (Map.set m a v) a = v := by
  induction m with
  | nil => simp [Map.set, Map.get]
  | cons e m ih =>
    obtain ⟨k, w⟩ := e
    simp only [Map.set]
    split
    · simp [Map.get]
    · split
      · simp [Map.get]
      · rename_i h
        rw [Map.get, if_neg (Ne.symm h)]
        exact ih

theorem map_get_set_ne (d : α) (m : List (Nat × α)) {a b : Nat} (v : α) (h : b ≠ a) :
    Map.get d (Map.set m a v) b = Map.get d m b := by
  induction m with
  | nil => simp [Map.set, Map.get, Ne.symm h]
  | cons e m ih =>
    obtain ⟨k, w⟩ := e
    simp only [Map.set]
    split
    · simp [Map.get, Ne.symm h]
    · split
      · rename_i h1
        subst h1
        simp [Map.get, Ne.symm h]
      · simp only [Map.get, ih]

theorem map_get_filter_self (d : α) (m : List (Nat × α)) (a : Nat) :
    Map.get d (m.filter fun e => decide (e.1 ≠ a)) a = d := by
  induction m with
  | nil => rfl
  | cons e m ih =>
    obtain ⟨k, w⟩ := e
    by_cases h : k = a
    · simpa [List.filter, h] using ih
    · simpa [List.filter, h, Map.get] using ih

theorem map_get_filter_ne (d : α) (m : List (Nat × α)) {a b : Nat} (h : b ≠ a) :
    Map.get d (m.filter fun e => decide (e.1 ≠ a)) b = Map.get d m b := by
  induction m with
  | nil => rfl
  | cons e m ih =>
    obtain ⟨k, w⟩ := e
    by_cases h1 : k = a
    · subst h1
      simpa [List.filter, Map.get, Ne.symm h] using ih
    · simp only [List.filter, h1, decide_not, decide_false, Bool.not_false, Map.get] at ih ⊢
      simp [ih]

/-- What is put is read back. -/
@[simp] theorem map_get_put_self [DecidableEq α] (d : α) (m : List (Nat × α)) (a : Nat) (v : α) :
    Map.get d (Map.put d m a v) a = v := by
  unfold Map.put
  split
  · rename_i h
    rw [map_get_filter_self, h]
  · exact map_get_set_self d m a v

/-- Every other entry stays. -/
@[simp] theorem map_get_put_ne [DecidableEq α] (d d' : α) (m : List (Nat × α)) {a b : Nat} (v : α) (h : b ≠ a) :
    Map.get d' (Map.put d m a v) b = Map.get d' m b := by
  unfold Map.put
  split
  · exact map_get_filter_ne d' m h
  · exact map_get_set_ne d' m v h

theorem map_get_put [DecidableEq α] (d : α) (m : List (Nat × α)) (a b : Nat) (v : α) :
    Map.get d (Map.put d m a v) b = if b = a then v else Map.get d m b := by
  split
  · rename_i h
    rw [h, map_get_put_self]
  · rename_i h
    rw [map_get_put_ne d d m v h]

/-! The canonical form. -/

theorem map_wfFrom_mono [DecidableEq α] (d : Nat → α) (m : List (Nat × α)) {lo lo' : Nat} (h : lo' ≤ lo)
    (w : Map.wfFrom d lo m = true) : Map.wfFrom d lo' m = true := by
  cases m with
  | nil => rfl
  | cons e m =>
    obtain ⟨k, v⟩ := e
    simp only [Map.wfFrom, Bool.and_eq_true, decide_eq_true_eq] at w ⊢
    exact ⟨⟨by omega, w.1.2⟩, w.2⟩

theorem map_wfFrom_filter [DecidableEq α] (d : Nat → α) (p : Nat × α → Bool) (m : List (Nat × α)) :
    ∀ lo, Map.wfFrom d lo m = true → Map.wfFrom d lo (m.filter p) = true := by
  induction m with
  | nil => intro lo _; rfl
  | cons e m ih =>
    obtain ⟨k, v⟩ := e
    intro lo w
    simp only [Map.wfFrom, Bool.and_eq_true, decide_eq_true_eq] at w
    by_cases hp : p (k, v) = true
    · simp only [List.filter, hp, Map.wfFrom, Bool.and_eq_true, decide_eq_true_eq]
      exact ⟨w.1, ih _ w.2⟩
    · simp only [List.filter, hp]
      exact map_wfFrom_mono d _ (by omega) (ih _ w.2)

theorem map_wfFrom_set [DecidableEq α] (d : Nat → α) (m : List (Nat × α)) (a : Nat) (v : α) (hv : v ≠ d a) :
    ∀ lo, lo ≤ a → Map.wfFrom d lo m = true → Map.wfFrom d lo (Map.set m a v) = true := by
  induction m with
  | nil => intro lo hlo _; simp [Map.set, Map.wfFrom, hv, hlo]
  | cons e m ih =>
    obtain ⟨k, w⟩ := e
    intro lo hlo hw
    simp only [Map.wfFrom, Bool.and_eq_true, decide_eq_true_eq] at hw
    simp only [Map.set]
    split
    · rename_i h
      simp only [Map.wfFrom, Bool.and_eq_true, decide_eq_true_eq]
      exact ⟨⟨hlo, hv⟩, ⟨by omega, hw.1.2⟩, hw.2⟩
    · split
      · rename_i h
        subst h
        simp only [Map.wfFrom, Bool.and_eq_true, decide_eq_true_eq]
        exact ⟨⟨hlo, hv⟩, hw.2⟩
      · simp only [Map.wfFrom, Bool.and_eq_true, decide_eq_true_eq]
        exact ⟨hw.1, ih _ (by omega) hw.2⟩

/-- A put keeps the canonical form. -/
theorem map_wf_put [DecidableEq α] (d : Nat → α) (m : List (Nat × α)) (a : Nat) (v : α) (h : Map.wf d m = true) :
    Map.wf d (Map.put (d a) m a v) = true := by
  unfold Map.wf Map.put at *
  split
  · exact map_wfFrom_filter d _ m 0 h
  · rename_i hv
    exact map_wfFrom_set d m a v hv 0 (Nat.zero_le a) h

theorem map_wf_filter [DecidableEq α] (d : Nat → α) (p : Nat × α → Bool) (m : List (Nat × α)) (h : Map.wf d m = true) :
    Map.wf d (m.filter p) = true := map_wfFrom_filter d p m 0 h

/-! Cells. -/

theorem cells_get_eq (m : List Host.Cell) (a : Nat) : Cells.get m a = Map.get none (m.map fun e => (e.1, some e.2)) a := by
  induction m with
  | nil => rfl
  | cons e m ih => simp only [Cells.get, List.map, Map.get, ih]

theorem cells_map_set (m : List Host.Cell) (a : Nat) (v : Byte) :
    (Map.set m a v).map (fun e => (e.1, some e.2)) = Map.set (m.map fun e => (e.1, some e.2)) a (some v) := by
  induction m with
  | nil => rfl
  | cons e m ih =>
    obtain ⟨k, w⟩ := e
    simp only [Map.set, List.map]
    split
    · rfl
    · split
      · rfl
      · simp [ih]

theorem cells_map_filter (m : List Host.Cell) (a : Nat) :
    (m.filter fun e => decide (e.1 ≠ a)).map (fun e => (e.1, some e.2)) =
      (m.map fun e => (e.1, some e.2)).filter fun e => decide (e.1 ≠ a) := by
  induction m with
  | nil => rfl
  | cons e m ih =>
    obtain ⟨k, w⟩ := e
    by_cases h : k = a <;> simp [List.filter, h] <;> simpa using ih

/-- A byte that is put is read back, over its background. -/
theorem cells_get_put_self (d : Option Byte) (m : List Host.Cell) (a : Nat) (v : Byte) :
    (Cells.get (Cells.put d m a v) a).or d = some v := by
  unfold Cells.put
  split
  · rename_i h
    rw [cells_get_eq, cells_map_filter, map_get_filter_self]
    simp [h]
  · rw [cells_get_eq, cells_map_set, map_get_set_self]
    rfl

theorem cells_get_put_ne (d : Option Byte) (m : List Host.Cell) {a b : Nat} (v : Byte) (h : b ≠ a) :
    Cells.get (Cells.put d m a v) b = Cells.get m b := by
  unfold Cells.put
  split
  · rw [cells_get_eq, cells_map_filter, map_get_filter_ne _ _ h, cells_get_eq]
  · rw [cells_get_eq, cells_map_set, map_get_set_ne _ _ _ h, cells_get_eq]

end Sys2Proof.Machine
end

