-- ==== Sys2Proof/Laws/State.lean ====
section
/-! SUPPORT. What each update of the state leaves: one lemma for each field and each update, and what a register reads after
a write. -/

namespace Sys2Proof.Machine

/-! Writes of a register word. -/

@[simp] theorem wr_pending (s : State) (a v : Nat) : (s.wr a v).pending = s.pending := rfl
@[simp] theorem wr_now (s : State) (a v : Nat) : (s.wr a v).now = s.now := rfl
@[simp] theorem wr_stamps (s : State) (a v : Nat) : (s.wr a v).stamps = s.stamps := rfl
@[simp] theorem wr_timers (s : State) (a v : Nat) : (s.wr a v).timers = s.timers := rfl
@[simp] theorem wr_staged (s : State) (a v : Nat) : (s.wr a v).staged = s.staged := rfl
@[simp] theorem wr_guardHost (s : State) (a v : Nat) : (s.wr a v).guardHost = s.guardHost := rfl
@[simp] theorem wr_guardMgmt (s : State) (a v : Nat) : (s.wr a v).guardMgmt = s.guardMgmt := rfl
@[simp] theorem wr_draws (s : State) (a v : Nat) : (s.wr a v).draws = s.draws := rfl
@[simp] theorem wr_out (s : State) (a v : Nat) : (s.wr a v).out = s.out := rfl
@[simp] theorem wr_lanes (s : State) (a v : Nat) : (s.wr a v).lanes = s.lanes := rfl
@[simp] theorem wr_retiredLanes (s : State) (a v : Nat) : (s.wr a v).retiredLanes = s.retiredLanes := rfl
@[simp] theorem wr_int (s : State) (a v : Nat) : (s.wr a v).int = s.int := rfl
@[simp] theorem wr_pmcWraps (s : State) (a v : Nat) : (s.wr a v).pmcWraps = s.pmcWraps := rfl
@[simp] theorem wr_tbs (s : State) (a v : Nat) : (s.wr a v).tbs = s.tbs := rfl
@[simp] theorem wr_shadows (s : State) (a v : Nat) : (s.wr a v).shadows = s.shadows := rfl
@[simp] theorem wr_ptps (s : State) (a v : Nat) : (s.wr a v).ptps = s.ptps := rfl
@[simp] theorem wr_refs (s : State) (a v : Nat) : (s.wr a v).refs = s.refs := rfl
@[simp] theorem wr_syns (s : State) (a v : Nat) : (s.wr a v).syns = s.syns := rfl
@[simp] theorem wr_loops (s : State) (a v : Nat) : (s.wr a v).loops = s.loops := rfl
@[simp] theorem wr_lolPorts (s : State) (a v : Nat) : (s.wr a v).lolPorts = s.lolPorts := rfl
@[simp] theorem wr_pls (s : State) (a v : Nat) : (s.wr a v).pls = s.pls := rfl
@[simp] theorem wr_tdcs (s : State) (a v : Nat) : (s.wr a v).tdcs = s.tdcs := rfl
@[simp] theorem wr_gatePins (s : State) (a v : Nat) : (s.wr a v).gatePins = s.gatePins := rfl
@[simp] theorem wr_retiredTdc (s : State) (a v : Nat) : (s.wr a v).retiredTdc = s.retiredTdc := rfl
@[simp] theorem wr_tco (s : State) (a v : Nat) : (s.wr a v).tco = s.tco := rfl
@[simp] theorem wr_cal (s : State) (a v : Nat) : (s.wr a v).cal = s.cal := rfl
@[simp] theorem wr_trims (s : State) (a v : Nat) : (s.wr a v).trims = s.trims := rfl
@[simp] theorem wr_snp (s : State) (a v : Nat) : (s.wr a v).snp = s.snp := rfl
@[simp] theorem wr_mem (s : State) (a v : Nat) : (s.wr a v).mem = s.mem := rfl
@[simp] theorem wr_banks (s : State) (a v : Nat) : (s.wr a v).banks = s.banks := rfl
@[simp] theorem wr_buf (s : State) (a v : Nat) : (s.wr a v).buf = s.buf := rfl
@[simp] theorem wr_ports (s : State) (a v : Nat) : (s.wr a v).ports = s.ports := rfl
@[simp] theorem wr_trunks (s : State) (a v : Nat) : (s.wr a v).trunks = s.trunks := rfl
@[simp] theorem wr_zonesClear (s : State) (a v : Nat) : (s.wr a v).zonesClear = s.zonesClear := rfl
@[simp] theorem wr_zonesReimg (s : State) (a v : Nat) : (s.wr a v).zonesReimg = s.zonesReimg := rfl
@[simp] theorem wr_heldNodes (s : State) (a v : Nat) : (s.wr a v).heldNodes = s.heldNodes := rfl
@[simp] theorem wr_heldMgmt (s : State) (a v : Nat) : (s.wr a v).heldMgmt = s.heldMgmt := rfl
@[simp] theorem wr_retiredRegions (s : State) (a v : Nat) : (s.wr a v).retiredRegions = s.retiredRegions := rfl
@[simp] theorem wr_cls (s : State) (a v : Nat) : (s.wr a v).cls = s.cls := rfl
@[simp] theorem wr_asy (s : State) (a v : Nat) : (s.wr a v).asy = s.asy := rfl
@[simp] theorem wr_host (s : State) (a v : Nat) : (s.wr a v).host = s.host := rfl
@[simp] theorem wr_march (s : State) (a v : Nat) : (s.wr a v).march = s.march := rfl
@[simp] theorem wr_tac (s : State) (a v : Nat) : (s.wr a v).tac = s.tac := rfl
@[simp] theorem wr_power (s : State) (a v : Nat) : (s.wr a v).power = s.power := rfl
@[simp] theorem wr_boot (s : State) (a v : Nat) : (s.wr a v).boot = s.boot := rfl

/-! Writes of a field and of a bit. -/

@[simp] theorem setFld_pending (s : State) (a hi lo v : Nat) : (s.setFld a hi lo v).pending = s.pending := rfl
@[simp] theorem setFld_now (s : State) (a hi lo v : Nat) : (s.setFld a hi lo v).now = s.now := rfl
@[simp] theorem setFld_stamps (s : State) (a hi lo v : Nat) : (s.setFld a hi lo v).stamps = s.stamps := rfl
@[simp] theorem setFld_timers (s : State) (a hi lo v : Nat) : (s.setFld a hi lo v).timers = s.timers := rfl
@[simp] theorem setFld_staged (s : State) (a hi lo v : Nat) : (s.setFld a hi lo v).staged = s.staged := rfl
@[simp] theorem setFld_guardHost (s : State) (a hi lo v : Nat) : (s.setFld a hi lo v).guardHost = s.guardHost := rfl
@[simp] theorem setFld_guardMgmt (s : State) (a hi lo v : Nat) : (s.setFld a hi lo v).guardMgmt = s.guardMgmt := rfl
@[simp] theorem setFld_draws (s : State) (a hi lo v : Nat) : (s.setFld a hi lo v).draws = s.draws := rfl
@[simp] theorem setFld_out (s : State) (a hi lo v : Nat) : (s.setFld a hi lo v).out = s.out := rfl
@[simp] theorem setFld_lanes (s : State) (a hi lo v : Nat) : (s.setFld a hi lo v).lanes = s.lanes := rfl
@[simp] theorem setFld_retiredLanes (s : State) (a hi lo v : Nat) : (s.setFld a hi lo v).retiredLanes = s.retiredLanes := rfl
@[simp] theorem setFld_int (s : State) (a hi lo v : Nat) : (s.setFld a hi lo v).int = s.int := rfl
@[simp] theorem setFld_pmcWraps (s : State) (a hi lo v : Nat) : (s.setFld a hi lo v).pmcWraps = s.pmcWraps := rfl
@[simp] theorem setFld_tbs (s : State) (a hi lo v : Nat) : (s.setFld a hi lo v).tbs = s.tbs := rfl
@[simp] theorem setFld_shadows (s : State) (a hi lo v : Nat) : (s.setFld a hi lo v).shadows = s.shadows := rfl
@[simp] theorem setFld_ptps (s : State) (a hi lo v : Nat) : (s.setFld a hi lo v).ptps = s.ptps := rfl
@[simp] theorem setFld_refs (s : State) (a hi lo v : Nat) : (s.setFld a hi lo v).refs = s.refs := rfl
@[simp] theorem setFld_syns (s : State) (a hi lo v : Nat) : (s.setFld a hi lo v).syns = s.syns := rfl
@[simp] theorem setFld_loops (s : State) (a hi lo v : Nat) : (s.setFld a hi lo v).loops = s.loops := rfl
@[simp] theorem setFld_lolPorts (s : State) (a hi lo v : Nat) : (s.setFld a hi lo v).lolPorts = s.lolPorts := rfl
@[simp] theorem setFld_pls (s : State) (a hi lo v : Nat) : (s.setFld a hi lo v).pls = s.pls := rfl
@[simp] theorem setFld_tdcs (s : State) (a hi lo v : Nat) : (s.setFld a hi lo v).tdcs = s.tdcs := rfl
@[simp] theorem setFld_gatePins (s : State) (a hi lo v : Nat) : (s.setFld a hi lo v).gatePins = s.gatePins := rfl
@[simp] theorem setFld_retiredTdc (s : State) (a hi lo v : Nat) : (s.setFld a hi lo v).retiredTdc = s.retiredTdc := rfl
@[simp] theorem setFld_tco (s : State) (a hi lo v : Nat) : (s.setFld a hi lo v).tco = s.tco := rfl
@[simp] theorem setFld_cal (s : State) (a hi lo v : Nat) : (s.setFld a hi lo v).cal = s.cal := rfl
@[simp] theorem setFld_trims (s : State) (a hi lo v : Nat) : (s.setFld a hi lo v).trims = s.trims := rfl
@[simp] theorem setFld_snp (s : State) (a hi lo v : Nat) : (s.setFld a hi lo v).snp = s.snp := rfl
@[simp] theorem setFld_mem (s : State) (a hi lo v : Nat) : (s.setFld a hi lo v).mem = s.mem := rfl
@[simp] theorem setFld_banks (s : State) (a hi lo v : Nat) : (s.setFld a hi lo v).banks = s.banks := rfl
@[simp] theorem setFld_buf (s : State) (a hi lo v : Nat) : (s.setFld a hi lo v).buf = s.buf := rfl
@[simp] theorem setFld_ports (s : State) (a hi lo v : Nat) : (s.setFld a hi lo v).ports = s.ports := rfl
@[simp] theorem setFld_trunks (s : State) (a hi lo v : Nat) : (s.setFld a hi lo v).trunks = s.trunks := rfl
@[simp] theorem setFld_zonesClear (s : State) (a hi lo v : Nat) : (s.setFld a hi lo v).zonesClear = s.zonesClear := rfl
@[simp] theorem setFld_zonesReimg (s : State) (a hi lo v : Nat) : (s.setFld a hi lo v).zonesReimg = s.zonesReimg := rfl
@[simp] theorem setFld_heldNodes (s : State) (a hi lo v : Nat) : (s.setFld a hi lo v).heldNodes = s.heldNodes := rfl
@[simp] theorem setFld_heldMgmt (s : State) (a hi lo v : Nat) : (s.setFld a hi lo v).heldMgmt = s.heldMgmt := rfl
@[simp] theorem setFld_retiredRegions (s : State) (a hi lo v : Nat) : (s.setFld a hi lo v).retiredRegions = s.retiredRegions := rfl
@[simp] theorem setFld_cls (s : State) (a hi lo v : Nat) : (s.setFld a hi lo v).cls = s.cls := rfl
@[simp] theorem setFld_asy (s : State) (a hi lo v : Nat) : (s.setFld a hi lo v).asy = s.asy := rfl
@[simp] theorem setFld_host (s : State) (a hi lo v : Nat) : (s.setFld a hi lo v).host = s.host := rfl
@[simp] theorem setFld_march (s : State) (a hi lo v : Nat) : (s.setFld a hi lo v).march = s.march := rfl
@[simp] theorem setFld_tac (s : State) (a hi lo v : Nat) : (s.setFld a hi lo v).tac = s.tac := rfl
@[simp] theorem setFld_power (s : State) (a hi lo v : Nat) : (s.setFld a hi lo v).power = s.power := rfl
@[simp] theorem setFld_boot (s : State) (a hi lo v : Nat) : (s.setFld a hi lo v).boot = s.boot := rfl

@[simp] theorem setBit_pending (s : State) (a i : Nat) (b : Bool) : (s.setBit a i b).pending = s.pending := rfl
@[simp] theorem setBit_now (s : State) (a i : Nat) (b : Bool) : (s.setBit a i b).now = s.now := rfl
@[simp] theorem setBit_stamps (s : State) (a i : Nat) (b : Bool) : (s.setBit a i b).stamps = s.stamps := rfl
@[simp] theorem setBit_timers (s : State) (a i : Nat) (b : Bool) : (s.setBit a i b).timers = s.timers := rfl
@[simp] theorem setBit_staged (s : State) (a i : Nat) (b : Bool) : (s.setBit a i b).staged = s.staged := rfl
@[simp] theorem setBit_guardHost (s : State) (a i : Nat) (b : Bool) : (s.setBit a i b).guardHost = s.guardHost := rfl
@[simp] theorem setBit_guardMgmt (s : State) (a i : Nat) (b : Bool) : (s.setBit a i b).guardMgmt = s.guardMgmt := rfl
@[simp] theorem setBit_draws (s : State) (a i : Nat) (b : Bool) : (s.setBit a i b).draws = s.draws := rfl
@[simp] theorem setBit_out (s : State) (a i : Nat) (b : Bool) : (s.setBit a i b).out = s.out := rfl
@[simp] theorem setBit_lanes (s : State) (a i : Nat) (b : Bool) : (s.setBit a i b).lanes = s.lanes := rfl
@[simp] theorem setBit_retiredLanes (s : State) (a i : Nat) (b : Bool) : (s.setBit a i b).retiredLanes = s.retiredLanes := rfl
@[simp] theorem setBit_int (s : State) (a i : Nat) (b : Bool) : (s.setBit a i b).int = s.int := rfl
@[simp] theorem setBit_pmcWraps (s : State) (a i : Nat) (b : Bool) : (s.setBit a i b).pmcWraps = s.pmcWraps := rfl
@[simp] theorem setBit_tbs (s : State) (a i : Nat) (b : Bool) : (s.setBit a i b).tbs = s.tbs := rfl
@[simp] theorem setBit_shadows (s : State) (a i : Nat) (b : Bool) : (s.setBit a i b).shadows = s.shadows := rfl
@[simp] theorem setBit_ptps (s : State) (a i : Nat) (b : Bool) : (s.setBit a i b).ptps = s.ptps := rfl
@[simp] theorem setBit_refs (s : State) (a i : Nat) (b : Bool) : (s.setBit a i b).refs = s.refs := rfl
@[simp] theorem setBit_syns (s : State) (a i : Nat) (b : Bool) : (s.setBit a i b).syns = s.syns := rfl
@[simp] theorem setBit_loops (s : State) (a i : Nat) (b : Bool) : (s.setBit a i b).loops = s.loops := rfl
@[simp] theorem setBit_lolPorts (s : State) (a i : Nat) (b : Bool) : (s.setBit a i b).lolPorts = s.lolPorts := rfl
@[simp] theorem setBit_pls (s : State) (a i : Nat) (b : Bool) : (s.setBit a i b).pls = s.pls := rfl
@[simp] theorem setBit_tdcs (s : State) (a i : Nat) (b : Bool) : (s.setBit a i b).tdcs = s.tdcs := rfl
@[simp] theorem setBit_gatePins (s : State) (a i : Nat) (b : Bool) : (s.setBit a i b).gatePins = s.gatePins := rfl
@[simp] theorem setBit_retiredTdc (s : State) (a i : Nat) (b : Bool) : (s.setBit a i b).retiredTdc = s.retiredTdc := rfl
@[simp] theorem setBit_tco (s : State) (a i : Nat) (b : Bool) : (s.setBit a i b).tco = s.tco := rfl
@[simp] theorem setBit_cal (s : State) (a i : Nat) (b : Bool) : (s.setBit a i b).cal = s.cal := rfl
@[simp] theorem setBit_trims (s : State) (a i : Nat) (b : Bool) : (s.setBit a i b).trims = s.trims := rfl
@[simp] theorem setBit_snp (s : State) (a i : Nat) (b : Bool) : (s.setBit a i b).snp = s.snp := rfl
@[simp] theorem setBit_mem (s : State) (a i : Nat) (b : Bool) : (s.setBit a i b).mem = s.mem := rfl
@[simp] theorem setBit_banks (s : State) (a i : Nat) (b : Bool) : (s.setBit a i b).banks = s.banks := rfl
@[simp] theorem setBit_buf (s : State) (a i : Nat) (b : Bool) : (s.setBit a i b).buf = s.buf := rfl
@[simp] theorem setBit_ports (s : State) (a i : Nat) (b : Bool) : (s.setBit a i b).ports = s.ports := rfl
@[simp] theorem setBit_trunks (s : State) (a i : Nat) (b : Bool) : (s.setBit a i b).trunks = s.trunks := rfl
@[simp] theorem setBit_zonesClear (s : State) (a i : Nat) (b : Bool) : (s.setBit a i b).zonesClear = s.zonesClear := rfl
@[simp] theorem setBit_zonesReimg (s : State) (a i : Nat) (b : Bool) : (s.setBit a i b).zonesReimg = s.zonesReimg := rfl
@[simp] theorem setBit_heldNodes (s : State) (a i : Nat) (b : Bool) : (s.setBit a i b).heldNodes = s.heldNodes := rfl
@[simp] theorem setBit_heldMgmt (s : State) (a i : Nat) (b : Bool) : (s.setBit a i b).heldMgmt = s.heldMgmt := rfl
@[simp] theorem setBit_retiredRegions (s : State) (a i : Nat) (b : Bool) : (s.setBit a i b).retiredRegions = s.retiredRegions := rfl
@[simp] theorem setBit_cls (s : State) (a i : Nat) (b : Bool) : (s.setBit a i b).cls = s.cls := rfl
@[simp] theorem setBit_asy (s : State) (a i : Nat) (b : Bool) : (s.setBit a i b).asy = s.asy := rfl
@[simp] theorem setBit_host (s : State) (a i : Nat) (b : Bool) : (s.setBit a i b).host = s.host := rfl
@[simp] theorem setBit_march (s : State) (a i : Nat) (b : Bool) : (s.setBit a i b).march = s.march := rfl
@[simp] theorem setBit_tac (s : State) (a i : Nat) (b : Bool) : (s.setBit a i b).tac = s.tac := rfl
@[simp] theorem setBit_power (s : State) (a i : Nat) (b : Bool) : (s.setBit a i b).power = s.power := rfl
@[simp] theorem setBit_boot (s : State) (a i : Nat) (b : Bool) : (s.setBit a i b).boot = s.boot := rfl

/-! Writes of a pair of registers. -/

@[simp] theorem wr64_pending (s : State) (a v : Nat) : (s.wr64 a v).pending = s.pending := by simp only [State.wr64, wr_pending]
@[simp] theorem wr64_now (s : State) (a v : Nat) : (s.wr64 a v).now = s.now := by simp only [State.wr64, wr_now]
@[simp] theorem wr64_stamps (s : State) (a v : Nat) : (s.wr64 a v).stamps = s.stamps := by simp only [State.wr64, wr_stamps]
@[simp] theorem wr64_timers (s : State) (a v : Nat) : (s.wr64 a v).timers = s.timers := by simp only [State.wr64, wr_timers]
@[simp] theorem wr64_staged (s : State) (a v : Nat) : (s.wr64 a v).staged = s.staged := by simp only [State.wr64, wr_staged]
@[simp] theorem wr64_guardHost (s : State) (a v : Nat) : (s.wr64 a v).guardHost = s.guardHost := by simp only [State.wr64, wr_guardHost]
@[simp] theorem wr64_guardMgmt (s : State) (a v : Nat) : (s.wr64 a v).guardMgmt = s.guardMgmt := by simp only [State.wr64, wr_guardMgmt]
@[simp] theorem wr64_draws (s : State) (a v : Nat) : (s.wr64 a v).draws = s.draws := by simp only [State.wr64, wr_draws]
@[simp] theorem wr64_out (s : State) (a v : Nat) : (s.wr64 a v).out = s.out := by simp only [State.wr64, wr_out]
@[simp] theorem wr64_lanes (s : State) (a v : Nat) : (s.wr64 a v).lanes = s.lanes := by simp only [State.wr64, wr_lanes]
@[simp] theorem wr64_retiredLanes (s : State) (a v : Nat) : (s.wr64 a v).retiredLanes = s.retiredLanes := by simp only [State.wr64, wr_retiredLanes]
@[simp] theorem wr64_int (s : State) (a v : Nat) : (s.wr64 a v).int = s.int := by simp only [State.wr64, wr_int]
@[simp] theorem wr64_pmcWraps (s : State) (a v : Nat) : (s.wr64 a v).pmcWraps = s.pmcWraps := by simp only [State.wr64, wr_pmcWraps]
@[simp] theorem wr64_tbs (s : State) (a v : Nat) : (s.wr64 a v).tbs = s.tbs := by simp only [State.wr64, wr_tbs]
@[simp] theorem wr64_shadows (s : State) (a v : Nat) : (s.wr64 a v).shadows = s.shadows := by simp only [State.wr64, wr_shadows]
@[simp] theorem wr64_ptps (s : State) (a v : Nat) : (s.wr64 a v).ptps = s.ptps := by simp only [State.wr64, wr_ptps]
@[simp] theorem wr64_refs (s : State) (a v : Nat) : (s.wr64 a v).refs = s.refs := by simp only [State.wr64, wr_refs]
@[simp] theorem wr64_syns (s : State) (a v : Nat) : (s.wr64 a v).syns = s.syns := by simp only [State.wr64, wr_syns]
@[simp] theorem wr64_loops (s : State) (a v : Nat) : (s.wr64 a v).loops = s.loops := by simp only [State.wr64, wr_loops]
@[simp] theorem wr64_lolPorts (s : State) (a v : Nat) : (s.wr64 a v).lolPorts = s.lolPorts := by simp only [State.wr64, wr_lolPorts]
@[simp] theorem wr64_pls (s : State) (a v : Nat) : (s.wr64 a v).pls = s.pls := by simp only [State.wr64, wr_pls]
@[simp] theorem wr64_tdcs (s : State) (a v : Nat) : (s.wr64 a v).tdcs = s.tdcs := by simp only [State.wr64, wr_tdcs]
@[simp] theorem wr64_gatePins (s : State) (a v : Nat) : (s.wr64 a v).gatePins = s.gatePins := by simp only [State.wr64, wr_gatePins]
@[simp] theorem wr64_retiredTdc (s : State) (a v : Nat) : (s.wr64 a v).retiredTdc = s.retiredTdc := by simp only [State.wr64, wr_retiredTdc]
@[simp] theorem wr64_tco (s : State) (a v : Nat) : (s.wr64 a v).tco = s.tco := by simp only [State.wr64, wr_tco]
@[simp] theorem wr64_cal (s : State) (a v : Nat) : (s.wr64 a v).cal = s.cal := by simp only [State.wr64, wr_cal]
@[simp] theorem wr64_trims (s : State) (a v : Nat) : (s.wr64 a v).trims = s.trims := by simp only [State.wr64, wr_trims]
@[simp] theorem wr64_snp (s : State) (a v : Nat) : (s.wr64 a v).snp = s.snp := by simp only [State.wr64, wr_snp]
@[simp] theorem wr64_mem (s : State) (a v : Nat) : (s.wr64 a v).mem = s.mem := by simp only [State.wr64, wr_mem]
@[simp] theorem wr64_banks (s : State) (a v : Nat) : (s.wr64 a v).banks = s.banks := by simp only [State.wr64, wr_banks]
@[simp] theorem wr64_buf (s : State) (a v : Nat) : (s.wr64 a v).buf = s.buf := by simp only [State.wr64, wr_buf]
@[simp] theorem wr64_ports (s : State) (a v : Nat) : (s.wr64 a v).ports = s.ports := by simp only [State.wr64, wr_ports]
@[simp] theorem wr64_trunks (s : State) (a v : Nat) : (s.wr64 a v).trunks = s.trunks := by simp only [State.wr64, wr_trunks]
@[simp] theorem wr64_zonesClear (s : State) (a v : Nat) : (s.wr64 a v).zonesClear = s.zonesClear := by simp only [State.wr64, wr_zonesClear]
@[simp] theorem wr64_zonesReimg (s : State) (a v : Nat) : (s.wr64 a v).zonesReimg = s.zonesReimg := by simp only [State.wr64, wr_zonesReimg]
@[simp] theorem wr64_heldNodes (s : State) (a v : Nat) : (s.wr64 a v).heldNodes = s.heldNodes := by simp only [State.wr64, wr_heldNodes]
@[simp] theorem wr64_heldMgmt (s : State) (a v : Nat) : (s.wr64 a v).heldMgmt = s.heldMgmt := by simp only [State.wr64, wr_heldMgmt]
@[simp] theorem wr64_retiredRegions (s : State) (a v : Nat) : (s.wr64 a v).retiredRegions = s.retiredRegions := by simp only [State.wr64, wr_retiredRegions]
@[simp] theorem wr64_cls (s : State) (a v : Nat) : (s.wr64 a v).cls = s.cls := by simp only [State.wr64, wr_cls]
@[simp] theorem wr64_asy (s : State) (a v : Nat) : (s.wr64 a v).asy = s.asy := by simp only [State.wr64, wr_asy]
@[simp] theorem wr64_host (s : State) (a v : Nat) : (s.wr64 a v).host = s.host := by simp only [State.wr64, wr_host]
@[simp] theorem wr64_march (s : State) (a v : Nat) : (s.wr64 a v).march = s.march := by simp only [State.wr64, wr_march]
@[simp] theorem wr64_tac (s : State) (a v : Nat) : (s.wr64 a v).tac = s.tac := by simp only [State.wr64, wr_tac]
@[simp] theorem wr64_power (s : State) (a v : Nat) : (s.wr64 a v).power = s.power := by simp only [State.wr64, wr_power]
@[simp] theorem wr64_boot (s : State) (a v : Nat) : (s.wr64 a v).boot = s.boot := by simp only [State.wr64, wr_boot]

@[simp] theorem add64_pending (s : State) (a n : Nat) : (s.add64 a n).pending = s.pending := by simp only [State.add64, wr64_pending]
@[simp] theorem add64_now (s : State) (a n : Nat) : (s.add64 a n).now = s.now := by simp only [State.add64, wr64_now]
@[simp] theorem add64_stamps (s : State) (a n : Nat) : (s.add64 a n).stamps = s.stamps := by simp only [State.add64, wr64_stamps]
@[simp] theorem add64_timers (s : State) (a n : Nat) : (s.add64 a n).timers = s.timers := by simp only [State.add64, wr64_timers]
@[simp] theorem add64_staged (s : State) (a n : Nat) : (s.add64 a n).staged = s.staged := by simp only [State.add64, wr64_staged]
@[simp] theorem add64_guardHost (s : State) (a n : Nat) : (s.add64 a n).guardHost = s.guardHost := by simp only [State.add64, wr64_guardHost]
@[simp] theorem add64_guardMgmt (s : State) (a n : Nat) : (s.add64 a n).guardMgmt = s.guardMgmt := by simp only [State.add64, wr64_guardMgmt]
@[simp] theorem add64_draws (s : State) (a n : Nat) : (s.add64 a n).draws = s.draws := by simp only [State.add64, wr64_draws]
@[simp] theorem add64_out (s : State) (a n : Nat) : (s.add64 a n).out = s.out := by simp only [State.add64, wr64_out]
@[simp] theorem add64_lanes (s : State) (a n : Nat) : (s.add64 a n).lanes = s.lanes := by simp only [State.add64, wr64_lanes]
@[simp] theorem add64_retiredLanes (s : State) (a n : Nat) : (s.add64 a n).retiredLanes = s.retiredLanes := by simp only [State.add64, wr64_retiredLanes]
@[simp] theorem add64_int (s : State) (a n : Nat) : (s.add64 a n).int = s.int := by simp only [State.add64, wr64_int]
@[simp] theorem add64_pmcWraps (s : State) (a n : Nat) : (s.add64 a n).pmcWraps = s.pmcWraps := by simp only [State.add64, wr64_pmcWraps]
@[simp] theorem add64_tbs (s : State) (a n : Nat) : (s.add64 a n).tbs = s.tbs := by simp only [State.add64, wr64_tbs]
@[simp] theorem add64_shadows (s : State) (a n : Nat) : (s.add64 a n).shadows = s.shadows := by simp only [State.add64, wr64_shadows]
@[simp] theorem add64_ptps (s : State) (a n : Nat) : (s.add64 a n).ptps = s.ptps := by simp only [State.add64, wr64_ptps]
@[simp] theorem add64_refs (s : State) (a n : Nat) : (s.add64 a n).refs = s.refs := by simp only [State.add64, wr64_refs]
@[simp] theorem add64_syns (s : State) (a n : Nat) : (s.add64 a n).syns = s.syns := by simp only [State.add64, wr64_syns]
@[simp] theorem add64_loops (s : State) (a n : Nat) : (s.add64 a n).loops = s.loops := by simp only [State.add64, wr64_loops]
@[simp] theorem add64_lolPorts (s : State) (a n : Nat) : (s.add64 a n).lolPorts = s.lolPorts := by simp only [State.add64, wr64_lolPorts]
@[simp] theorem add64_pls (s : State) (a n : Nat) : (s.add64 a n).pls = s.pls := by simp only [State.add64, wr64_pls]
@[simp] theorem add64_tdcs (s : State) (a n : Nat) : (s.add64 a n).tdcs = s.tdcs := by simp only [State.add64, wr64_tdcs]
@[simp] theorem add64_gatePins (s : State) (a n : Nat) : (s.add64 a n).gatePins = s.gatePins := by simp only [State.add64, wr64_gatePins]
@[simp] theorem add64_retiredTdc (s : State) (a n : Nat) : (s.add64 a n).retiredTdc = s.retiredTdc := by simp only [State.add64, wr64_retiredTdc]
@[simp] theorem add64_tco (s : State) (a n : Nat) : (s.add64 a n).tco = s.tco := by simp only [State.add64, wr64_tco]
@[simp] theorem add64_cal (s : State) (a n : Nat) : (s.add64 a n).cal = s.cal := by simp only [State.add64, wr64_cal]
@[simp] theorem add64_trims (s : State) (a n : Nat) : (s.add64 a n).trims = s.trims := by simp only [State.add64, wr64_trims]
@[simp] theorem add64_snp (s : State) (a n : Nat) : (s.add64 a n).snp = s.snp := by simp only [State.add64, wr64_snp]
@[simp] theorem add64_mem (s : State) (a n : Nat) : (s.add64 a n).mem = s.mem := by simp only [State.add64, wr64_mem]
@[simp] theorem add64_banks (s : State) (a n : Nat) : (s.add64 a n).banks = s.banks := by simp only [State.add64, wr64_banks]
@[simp] theorem add64_buf (s : State) (a n : Nat) : (s.add64 a n).buf = s.buf := by simp only [State.add64, wr64_buf]
@[simp] theorem add64_ports (s : State) (a n : Nat) : (s.add64 a n).ports = s.ports := by simp only [State.add64, wr64_ports]
@[simp] theorem add64_trunks (s : State) (a n : Nat) : (s.add64 a n).trunks = s.trunks := by simp only [State.add64, wr64_trunks]
@[simp] theorem add64_zonesClear (s : State) (a n : Nat) : (s.add64 a n).zonesClear = s.zonesClear := by simp only [State.add64, wr64_zonesClear]
@[simp] theorem add64_zonesReimg (s : State) (a n : Nat) : (s.add64 a n).zonesReimg = s.zonesReimg := by simp only [State.add64, wr64_zonesReimg]
@[simp] theorem add64_heldNodes (s : State) (a n : Nat) : (s.add64 a n).heldNodes = s.heldNodes := by simp only [State.add64, wr64_heldNodes]
@[simp] theorem add64_heldMgmt (s : State) (a n : Nat) : (s.add64 a n).heldMgmt = s.heldMgmt := by simp only [State.add64, wr64_heldMgmt]
@[simp] theorem add64_retiredRegions (s : State) (a n : Nat) : (s.add64 a n).retiredRegions = s.retiredRegions := by simp only [State.add64, wr64_retiredRegions]
@[simp] theorem add64_cls (s : State) (a n : Nat) : (s.add64 a n).cls = s.cls := by simp only [State.add64, wr64_cls]
@[simp] theorem add64_asy (s : State) (a n : Nat) : (s.add64 a n).asy = s.asy := by simp only [State.add64, wr64_asy]
@[simp] theorem add64_host (s : State) (a n : Nat) : (s.add64 a n).host = s.host := by simp only [State.add64, wr64_host]
@[simp] theorem add64_march (s : State) (a n : Nat) : (s.add64 a n).march = s.march := by simp only [State.add64, wr64_march]
@[simp] theorem add64_tac (s : State) (a n : Nat) : (s.add64 a n).tac = s.tac := by simp only [State.add64, wr64_tac]
@[simp] theorem add64_power (s : State) (a n : Nat) : (s.add64 a n).power = s.power := by simp only [State.add64, wr64_power]
@[simp] theorem add64_boot (s : State) (a n : Nat) : (s.add64 a n).boot = s.boot := by simp only [State.add64, wr64_boot]

/-! Timers. -/

@[simp] theorem start_pending (s : State) (t : Timer) (ns : Nat) : (s.start t ns).pending = s.pending := rfl
@[simp] theorem start_now (s : State) (t : Timer) (ns : Nat) : (s.start t ns).now = s.now := rfl
@[simp] theorem start_regs (s : State) (t : Timer) (ns : Nat) : (s.start t ns).regs = s.regs := rfl
@[simp] theorem start_stamps (s : State) (t : Timer) (ns : Nat) : (s.start t ns).stamps = s.stamps := rfl
@[simp] theorem start_staged (s : State) (t : Timer) (ns : Nat) : (s.start t ns).staged = s.staged := rfl
@[simp] theorem start_guardHost (s : State) (t : Timer) (ns : Nat) : (s.start t ns).guardHost = s.guardHost := rfl
@[simp] theorem start_guardMgmt (s : State) (t : Timer) (ns : Nat) : (s.start t ns).guardMgmt = s.guardMgmt := rfl
@[simp] theorem start_draws (s : State) (t : Timer) (ns : Nat) : (s.start t ns).draws = s.draws := rfl
@[simp] theorem start_out (s : State) (t : Timer) (ns : Nat) : (s.start t ns).out = s.out := rfl
@[simp] theorem start_lanes (s : State) (t : Timer) (ns : Nat) : (s.start t ns).lanes = s.lanes := rfl
@[simp] theorem start_retiredLanes (s : State) (t : Timer) (ns : Nat) : (s.start t ns).retiredLanes = s.retiredLanes := rfl
@[simp] theorem start_int (s : State) (t : Timer) (ns : Nat) : (s.start t ns).int = s.int := rfl
@[simp] theorem start_pmcWraps (s : State) (t : Timer) (ns : Nat) : (s.start t ns).pmcWraps = s.pmcWraps := rfl
@[simp] theorem start_tbs (s : State) (t : Timer) (ns : Nat) : (s.start t ns).tbs = s.tbs := rfl
@[simp] theorem start_shadows (s : State) (t : Timer) (ns : Nat) : (s.start t ns).shadows = s.shadows := rfl
@[simp] theorem start_ptps (s : State) (t : Timer) (ns : Nat) : (s.start t ns).ptps = s.ptps := rfl
@[simp] theorem start_refs (s : State) (t : Timer) (ns : Nat) : (s.start t ns).refs = s.refs := rfl
@[simp] theorem start_syns (s : State) (t : Timer) (ns : Nat) : (s.start t ns).syns = s.syns := rfl
@[simp] theorem start_loops (s : State) (t : Timer) (ns : Nat) : (s.start t ns).loops = s.loops := rfl
@[simp] theorem start_lolPorts (s : State) (t : Timer) (ns : Nat) : (s.start t ns).lolPorts = s.lolPorts := rfl
@[simp] theorem start_pls (s : State) (t : Timer) (ns : Nat) : (s.start t ns).pls = s.pls := rfl
@[simp] theorem start_tdcs (s : State) (t : Timer) (ns : Nat) : (s.start t ns).tdcs = s.tdcs := rfl
@[simp] theorem start_gatePins (s : State) (t : Timer) (ns : Nat) : (s.start t ns).gatePins = s.gatePins := rfl
@[simp] theorem start_retiredTdc (s : State) (t : Timer) (ns : Nat) : (s.start t ns).retiredTdc = s.retiredTdc := rfl
@[simp] theorem start_tco (s : State) (t : Timer) (ns : Nat) : (s.start t ns).tco = s.tco := rfl
@[simp] theorem start_cal (s : State) (t : Timer) (ns : Nat) : (s.start t ns).cal = s.cal := rfl
@[simp] theorem start_trims (s : State) (t : Timer) (ns : Nat) : (s.start t ns).trims = s.trims := rfl
@[simp] theorem start_snp (s : State) (t : Timer) (ns : Nat) : (s.start t ns).snp = s.snp := rfl
@[simp] theorem start_mem (s : State) (t : Timer) (ns : Nat) : (s.start t ns).mem = s.mem := rfl
@[simp] theorem start_banks (s : State) (t : Timer) (ns : Nat) : (s.start t ns).banks = s.banks := rfl
@[simp] theorem start_buf (s : State) (t : Timer) (ns : Nat) : (s.start t ns).buf = s.buf := rfl
@[simp] theorem start_ports (s : State) (t : Timer) (ns : Nat) : (s.start t ns).ports = s.ports := rfl
@[simp] theorem start_trunks (s : State) (t : Timer) (ns : Nat) : (s.start t ns).trunks = s.trunks := rfl
@[simp] theorem start_zonesClear (s : State) (t : Timer) (ns : Nat) : (s.start t ns).zonesClear = s.zonesClear := rfl
@[simp] theorem start_zonesReimg (s : State) (t : Timer) (ns : Nat) : (s.start t ns).zonesReimg = s.zonesReimg := rfl
@[simp] theorem start_heldNodes (s : State) (t : Timer) (ns : Nat) : (s.start t ns).heldNodes = s.heldNodes := rfl
@[simp] theorem start_heldMgmt (s : State) (t : Timer) (ns : Nat) : (s.start t ns).heldMgmt = s.heldMgmt := rfl
@[simp] theorem start_retiredRegions (s : State) (t : Timer) (ns : Nat) : (s.start t ns).retiredRegions = s.retiredRegions := rfl
@[simp] theorem start_cls (s : State) (t : Timer) (ns : Nat) : (s.start t ns).cls = s.cls := rfl
@[simp] theorem start_asy (s : State) (t : Timer) (ns : Nat) : (s.start t ns).asy = s.asy := rfl
@[simp] theorem start_host (s : State) (t : Timer) (ns : Nat) : (s.start t ns).host = s.host := rfl
@[simp] theorem start_march (s : State) (t : Timer) (ns : Nat) : (s.start t ns).march = s.march := rfl
@[simp] theorem start_tac (s : State) (t : Timer) (ns : Nat) : (s.start t ns).tac = s.tac := rfl
@[simp] theorem start_power (s : State) (t : Timer) (ns : Nat) : (s.start t ns).power = s.power := rfl
@[simp] theorem start_boot (s : State) (t : Timer) (ns : Nat) : (s.start t ns).boot = s.boot := rfl

@[simp] theorem stop_pending (s : State) (t : Timer) : (s.stop t).pending = s.pending := rfl
@[simp] theorem stop_now (s : State) (t : Timer) : (s.stop t).now = s.now := rfl
@[simp] theorem stop_regs (s : State) (t : Timer) : (s.stop t).regs = s.regs := rfl
@[simp] theorem stop_stamps (s : State) (t : Timer) : (s.stop t).stamps = s.stamps := rfl
@[simp] theorem stop_staged (s : State) (t : Timer) : (s.stop t).staged = s.staged := rfl
@[simp] theorem stop_guardHost (s : State) (t : Timer) : (s.stop t).guardHost = s.guardHost := rfl
@[simp] theorem stop_guardMgmt (s : State) (t : Timer) : (s.stop t).guardMgmt = s.guardMgmt := rfl
@[simp] theorem stop_draws (s : State) (t : Timer) : (s.stop t).draws = s.draws := rfl
@[simp] theorem stop_out (s : State) (t : Timer) : (s.stop t).out = s.out := rfl
@[simp] theorem stop_lanes (s : State) (t : Timer) : (s.stop t).lanes = s.lanes := rfl
@[simp] theorem stop_retiredLanes (s : State) (t : Timer) : (s.stop t).retiredLanes = s.retiredLanes := rfl
@[simp] theorem stop_int (s : State) (t : Timer) : (s.stop t).int = s.int := rfl
@[simp] theorem stop_pmcWraps (s : State) (t : Timer) : (s.stop t).pmcWraps = s.pmcWraps := rfl
@[simp] theorem stop_tbs (s : State) (t : Timer) : (s.stop t).tbs = s.tbs := rfl
@[simp] theorem stop_shadows (s : State) (t : Timer) : (s.stop t).shadows = s.shadows := rfl
@[simp] theorem stop_ptps (s : State) (t : Timer) : (s.stop t).ptps = s.ptps := rfl
@[simp] theorem stop_refs (s : State) (t : Timer) : (s.stop t).refs = s.refs := rfl
@[simp] theorem stop_syns (s : State) (t : Timer) : (s.stop t).syns = s.syns := rfl
@[simp] theorem stop_loops (s : State) (t : Timer) : (s.stop t).loops = s.loops := rfl
@[simp] theorem stop_lolPorts (s : State) (t : Timer) : (s.stop t).lolPorts = s.lolPorts := rfl
@[simp] theorem stop_pls (s : State) (t : Timer) : (s.stop t).pls = s.pls := rfl
@[simp] theorem stop_tdcs (s : State) (t : Timer) : (s.stop t).tdcs = s.tdcs := rfl
@[simp] theorem stop_gatePins (s : State) (t : Timer) : (s.stop t).gatePins = s.gatePins := rfl
@[simp] theorem stop_retiredTdc (s : State) (t : Timer) : (s.stop t).retiredTdc = s.retiredTdc := rfl
@[simp] theorem stop_tco (s : State) (t : Timer) : (s.stop t).tco = s.tco := rfl
@[simp] theorem stop_cal (s : State) (t : Timer) : (s.stop t).cal = s.cal := rfl
@[simp] theorem stop_trims (s : State) (t : Timer) : (s.stop t).trims = s.trims := rfl
@[simp] theorem stop_snp (s : State) (t : Timer) : (s.stop t).snp = s.snp := rfl
@[simp] theorem stop_mem (s : State) (t : Timer) : (s.stop t).mem = s.mem := rfl
@[simp] theorem stop_banks (s : State) (t : Timer) : (s.stop t).banks = s.banks := rfl
@[simp] theorem stop_buf (s : State) (t : Timer) : (s.stop t).buf = s.buf := rfl
@[simp] theorem stop_ports (s : State) (t : Timer) : (s.stop t).ports = s.ports := rfl
@[simp] theorem stop_trunks (s : State) (t : Timer) : (s.stop t).trunks = s.trunks := rfl
@[simp] theorem stop_zonesClear (s : State) (t : Timer) : (s.stop t).zonesClear = s.zonesClear := rfl
@[simp] theorem stop_zonesReimg (s : State) (t : Timer) : (s.stop t).zonesReimg = s.zonesReimg := rfl
@[simp] theorem stop_heldNodes (s : State) (t : Timer) : (s.stop t).heldNodes = s.heldNodes := rfl
@[simp] theorem stop_heldMgmt (s : State) (t : Timer) : (s.stop t).heldMgmt = s.heldMgmt := rfl
@[simp] theorem stop_retiredRegions (s : State) (t : Timer) : (s.stop t).retiredRegions = s.retiredRegions := rfl
@[simp] theorem stop_cls (s : State) (t : Timer) : (s.stop t).cls = s.cls := rfl
@[simp] theorem stop_asy (s : State) (t : Timer) : (s.stop t).asy = s.asy := rfl
@[simp] theorem stop_host (s : State) (t : Timer) : (s.stop t).host = s.host := rfl
@[simp] theorem stop_march (s : State) (t : Timer) : (s.stop t).march = s.march := rfl
@[simp] theorem stop_tac (s : State) (t : Timer) : (s.stop t).tac = s.tac := rfl
@[simp] theorem stop_power (s : State) (t : Timer) : (s.stop t).power = s.power := rfl
@[simp] theorem stop_boot (s : State) (t : Timer) : (s.stop t).boot = s.boot := rfl

/-! Outputs and open values. -/

@[simp] theorem emit_pending (s : State) (o : Out) : (s.emit o).pending = s.pending := rfl
@[simp] theorem emit_now (s : State) (o : Out) : (s.emit o).now = s.now := rfl
@[simp] theorem emit_regs (s : State) (o : Out) : (s.emit o).regs = s.regs := rfl
@[simp] theorem emit_stamps (s : State) (o : Out) : (s.emit o).stamps = s.stamps := rfl
@[simp] theorem emit_timers (s : State) (o : Out) : (s.emit o).timers = s.timers := rfl
@[simp] theorem emit_staged (s : State) (o : Out) : (s.emit o).staged = s.staged := rfl
@[simp] theorem emit_guardHost (s : State) (o : Out) : (s.emit o).guardHost = s.guardHost := rfl
@[simp] theorem emit_guardMgmt (s : State) (o : Out) : (s.emit o).guardMgmt = s.guardMgmt := rfl
@[simp] theorem emit_draws (s : State) (o : Out) : (s.emit o).draws = s.draws := rfl
@[simp] theorem emit_lanes (s : State) (o : Out) : (s.emit o).lanes = s.lanes := rfl
@[simp] theorem emit_retiredLanes (s : State) (o : Out) : (s.emit o).retiredLanes = s.retiredLanes := rfl
@[simp] theorem emit_int (s : State) (o : Out) : (s.emit o).int = s.int := rfl
@[simp] theorem emit_pmcWraps (s : State) (o : Out) : (s.emit o).pmcWraps = s.pmcWraps := rfl
@[simp] theorem emit_tbs (s : State) (o : Out) : (s.emit o).tbs = s.tbs := rfl
@[simp] theorem emit_shadows (s : State) (o : Out) : (s.emit o).shadows = s.shadows := rfl
@[simp] theorem emit_ptps (s : State) (o : Out) : (s.emit o).ptps = s.ptps := rfl
@[simp] theorem emit_refs (s : State) (o : Out) : (s.emit o).refs = s.refs := rfl
@[simp] theorem emit_syns (s : State) (o : Out) : (s.emit o).syns = s.syns := rfl
@[simp] theorem emit_loops (s : State) (o : Out) : (s.emit o).loops = s.loops := rfl
@[simp] theorem emit_lolPorts (s : State) (o : Out) : (s.emit o).lolPorts = s.lolPorts := rfl
@[simp] theorem emit_pls (s : State) (o : Out) : (s.emit o).pls = s.pls := rfl
@[simp] theorem emit_tdcs (s : State) (o : Out) : (s.emit o).tdcs = s.tdcs := rfl
@[simp] theorem emit_gatePins (s : State) (o : Out) : (s.emit o).gatePins = s.gatePins := rfl
@[simp] theorem emit_retiredTdc (s : State) (o : Out) : (s.emit o).retiredTdc = s.retiredTdc := rfl
@[simp] theorem emit_tco (s : State) (o : Out) : (s.emit o).tco = s.tco := rfl
@[simp] theorem emit_cal (s : State) (o : Out) : (s.emit o).cal = s.cal := rfl
@[simp] theorem emit_trims (s : State) (o : Out) : (s.emit o).trims = s.trims := rfl
@[simp] theorem emit_snp (s : State) (o : Out) : (s.emit o).snp = s.snp := rfl
@[simp] theorem emit_mem (s : State) (o : Out) : (s.emit o).mem = s.mem := rfl
@[simp] theorem emit_banks (s : State) (o : Out) : (s.emit o).banks = s.banks := rfl
@[simp] theorem emit_buf (s : State) (o : Out) : (s.emit o).buf = s.buf := rfl
@[simp] theorem emit_ports (s : State) (o : Out) : (s.emit o).ports = s.ports := rfl
@[simp] theorem emit_trunks (s : State) (o : Out) : (s.emit o).trunks = s.trunks := rfl
@[simp] theorem emit_zonesClear (s : State) (o : Out) : (s.emit o).zonesClear = s.zonesClear := rfl
@[simp] theorem emit_zonesReimg (s : State) (o : Out) : (s.emit o).zonesReimg = s.zonesReimg := rfl
@[simp] theorem emit_heldNodes (s : State) (o : Out) : (s.emit o).heldNodes = s.heldNodes := rfl
@[simp] theorem emit_heldMgmt (s : State) (o : Out) : (s.emit o).heldMgmt = s.heldMgmt := rfl
@[simp] theorem emit_retiredRegions (s : State) (o : Out) : (s.emit o).retiredRegions = s.retiredRegions := rfl
@[simp] theorem emit_cls (s : State) (o : Out) : (s.emit o).cls = s.cls := rfl
@[simp] theorem emit_asy (s : State) (o : Out) : (s.emit o).asy = s.asy := rfl
@[simp] theorem emit_host (s : State) (o : Out) : (s.emit o).host = s.host := rfl
@[simp] theorem emit_march (s : State) (o : Out) : (s.emit o).march = s.march := rfl
@[simp] theorem emit_tac (s : State) (o : Out) : (s.emit o).tac = s.tac := rfl
@[simp] theorem emit_power (s : State) (o : Out) : (s.emit o).power = s.power := rfl
@[simp] theorem emit_boot (s : State) (o : Out) : (s.emit o).boot = s.boot := rfl

@[simp] theorem draw_pending (s : State) : s.draw.2.pending = s.pending := rfl
@[simp] theorem draw_now (s : State) : s.draw.2.now = s.now := rfl
@[simp] theorem draw_regs (s : State) : s.draw.2.regs = s.regs := rfl
@[simp] theorem draw_stamps (s : State) : s.draw.2.stamps = s.stamps := rfl
@[simp] theorem draw_timers (s : State) : s.draw.2.timers = s.timers := rfl
@[simp] theorem draw_staged (s : State) : s.draw.2.staged = s.staged := rfl
@[simp] theorem draw_guardHost (s : State) : s.draw.2.guardHost = s.guardHost := rfl
@[simp] theorem draw_guardMgmt (s : State) : s.draw.2.guardMgmt = s.guardMgmt := rfl
@[simp] theorem draw_out (s : State) : s.draw.2.out = s.out := rfl
@[simp] theorem draw_lanes (s : State) : s.draw.2.lanes = s.lanes := rfl
@[simp] theorem draw_retiredLanes (s : State) : s.draw.2.retiredLanes = s.retiredLanes := rfl
@[simp] theorem draw_int (s : State) : s.draw.2.int = s.int := rfl
@[simp] theorem draw_pmcWraps (s : State) : s.draw.2.pmcWraps = s.pmcWraps := rfl
@[simp] theorem draw_tbs (s : State) : s.draw.2.tbs = s.tbs := rfl
@[simp] theorem draw_shadows (s : State) : s.draw.2.shadows = s.shadows := rfl
@[simp] theorem draw_ptps (s : State) : s.draw.2.ptps = s.ptps := rfl
@[simp] theorem draw_refs (s : State) : s.draw.2.refs = s.refs := rfl
@[simp] theorem draw_syns (s : State) : s.draw.2.syns = s.syns := rfl
@[simp] theorem draw_loops (s : State) : s.draw.2.loops = s.loops := rfl
@[simp] theorem draw_lolPorts (s : State) : s.draw.2.lolPorts = s.lolPorts := rfl
@[simp] theorem draw_pls (s : State) : s.draw.2.pls = s.pls := rfl
@[simp] theorem draw_tdcs (s : State) : s.draw.2.tdcs = s.tdcs := rfl
@[simp] theorem draw_gatePins (s : State) : s.draw.2.gatePins = s.gatePins := rfl
@[simp] theorem draw_retiredTdc (s : State) : s.draw.2.retiredTdc = s.retiredTdc := rfl
@[simp] theorem draw_tco (s : State) : s.draw.2.tco = s.tco := rfl
@[simp] theorem draw_cal (s : State) : s.draw.2.cal = s.cal := rfl
@[simp] theorem draw_trims (s : State) : s.draw.2.trims = s.trims := rfl
@[simp] theorem draw_snp (s : State) : s.draw.2.snp = s.snp := rfl
@[simp] theorem draw_mem (s : State) : s.draw.2.mem = s.mem := rfl
@[simp] theorem draw_banks (s : State) : s.draw.2.banks = s.banks := rfl
@[simp] theorem draw_buf (s : State) : s.draw.2.buf = s.buf := rfl
@[simp] theorem draw_ports (s : State) : s.draw.2.ports = s.ports := rfl
@[simp] theorem draw_trunks (s : State) : s.draw.2.trunks = s.trunks := rfl
@[simp] theorem draw_zonesClear (s : State) : s.draw.2.zonesClear = s.zonesClear := rfl
@[simp] theorem draw_zonesReimg (s : State) : s.draw.2.zonesReimg = s.zonesReimg := rfl
@[simp] theorem draw_heldNodes (s : State) : s.draw.2.heldNodes = s.heldNodes := rfl
@[simp] theorem draw_heldMgmt (s : State) : s.draw.2.heldMgmt = s.heldMgmt := rfl
@[simp] theorem draw_retiredRegions (s : State) : s.draw.2.retiredRegions = s.retiredRegions := rfl
@[simp] theorem draw_cls (s : State) : s.draw.2.cls = s.cls := rfl
@[simp] theorem draw_asy (s : State) : s.draw.2.asy = s.asy := rfl
@[simp] theorem draw_host (s : State) : s.draw.2.host = s.host := rfl
@[simp] theorem draw_march (s : State) : s.draw.2.march = s.march := rfl
@[simp] theorem draw_tac (s : State) : s.draw.2.tac = s.tac := rfl
@[simp] theorem draw_power (s : State) : s.draw.2.power = s.power := rfl
@[simp] theorem draw_boot (s : State) : s.draw.2.boot = s.boot := rfl

/-! What a register reads. -/

/-- A register reads what was written to it. -/
@[simp] theorem rd_wr_self (s : State) (a v : Nat) : (s.wr a v).rd a = v % 2 ^ 32 := by
  simp [State.rd, State.wr]

/-- Every other register reads what it did. -/
@[simp] theorem rd_wr_ne (s : State) {a b : Nat} (v : Nat) (h : b ≠ a) : (s.wr a v).rd b = s.rd b := by
  simp [State.rd, State.wr, h]

theorem rd_wr (s : State) (a b v : Nat) : (s.wr a v).rd b = if b = a then v % 2 ^ 32 else s.rd b := by
  split
  · rename_i h
    rw [h, rd_wr_self]
  · rename_i h
    rw [rd_wr_ne s v h]

@[simp] theorem rd_setFld_ne (s : State) {a b : Nat} (hi lo v : Nat) (h : b ≠ a) : (s.setFld a hi lo v).rd b = s.rd b :=
  rd_wr_ne s _ h
@[simp] theorem rd_setBit_ne (s : State) {a b : Nat} (i : Nat) (v : Bool) (h : b ≠ a) : (s.setBit a i v).rd b = s.rd b :=
  rd_wr_ne s _ h
@[simp] theorem rd_wr64_ne (s : State) {a b : Nat} (v : Nat) (h : b ≠ a) (h' : b ≠ a + 4) :
    (s.wr64 a v).rd b = s.rd b := by simp [State.wr64, h, h']
@[simp] theorem rd_start (s : State) (t : Timer) (ns b : Nat) : (s.start t ns).rd b = s.rd b := rfl
@[simp] theorem rd_stop (s : State) (t : Timer) (b : Nat) : (s.stop t).rd b = s.rd b := rfl
@[simp] theorem rd_emit (s : State) (o : Out) (b : Nat) : (s.emit o).rd b = s.rd b := rfl
@[simp] theorem rd_draw (s : State) (b : Nat) : s.draw.2.rd b = s.rd b := rfl

/-- A register word is a 32-bit number. -/
theorem rd_lt (s : State) (a : Nat) : s.rd a < 2 ^ 32 := (Map.get (resetOf a) s.regs a).isLt

/-! Fields. -/

theorem bits_lt (w hi lo : Nat) : bits w hi lo < 2 ^ (hi + 1 - lo) := Nat.mod_lt _ (Nat.two_pow_pos _)

/-- A field reads what was put into it. -/
theorem bits_putBits_self (w hi lo v : Nat) (h : lo ≤ hi + 1) : bits (putBits w hi lo v) hi lo = v % 2 ^ (hi + 1 - lo) := by
  have e : 2 ^ (hi + 1) = 2 ^ (hi + 1 - lo) * 2 ^ lo := by rw [← Nat.pow_add]; congr 1; omega
  unfold bits putBits
  rw [e]
  have hl : w % 2 ^ lo < 2 ^ lo := Nat.mod_lt _ (Nat.two_pow_pos lo)
  rw [show w / (2 ^ (hi + 1 - lo) * 2 ^ lo) * (2 ^ (hi + 1 - lo) * 2 ^ lo) + v % 2 ^ (hi + 1 - lo) * 2 ^ lo + w % 2 ^ lo
    = w % 2 ^ lo + (w / (2 ^ (hi + 1 - lo) * 2 ^ lo) * 2 ^ (hi + 1 - lo) + v % 2 ^ (hi + 1 - lo)) * 2 ^ lo by ring]
  rw [Nat.add_mul_div_right _ _ (Nat.two_pow_pos lo), Nat.div_eq_of_lt hl, Nat.zero_add, Nat.add_comm, Nat.add_mul_mod_self_right,
    Nat.mod_mod]

end Sys2Proof.Machine
end

