-- ==== Sys2Proof/Laws/Bus.lean ====
section
/-! SUPPORT. The bus: the count of a host's accesses touches the counters of its group and nothing else, and a served
write of one word of a register comes down to the register's access type. -/

namespace Sys2Proof.Machine

/-! Counting (R390). -/

theorem wr64_shape (s : State) (a v : Nat) : ∃ m, s.wr64 a v = { s with regs := m } := ⟨_, rfl⟩

/-- A counter takes more: its two words, and a wrap that waits. -/
theorem pmcAdd_shape (s : State) (g j n : Nat) :
    ∃ m w, pmcAdd s g j n = { s with regs := m, pmcWraps := w } ∧
      ∀ a, a ≠ A.PMC_CTR_LO g j → a ≠ A.PMC_CTR_LO g j + 4 → (pmcAdd s g j n).rd a = s.rd a := by
  unfold pmcAdd
  simp only []
  generalize (s.rd64 (A.PMC_CTR_LO g j) + n) % 2 ^ 48 = v
  obtain ⟨m, hm⟩ := wr64_shape s (A.PMC_CTR_LO g j) v
  have hr : ∀ a, a ≠ A.PMC_CTR_LO g j → a ≠ A.PMC_CTR_LO g j + 4 → (s.wr64 (A.PMC_CTR_LO g j) v).rd a = s.rd a :=
    fun a h h' => rd_wr64_ne s v h h'
  rw [hm] at hr
  simp only [hm]
  split
  · exact ⟨m, _, rfl, hr⟩
  · exact ⟨m, _, rfl, hr⟩

theorem pmcCount_shape (g ev n : Nat) (l : List Nat) (hl : ∀ j ∈ l, j < 8) (s : State) :
    ∃ m w, l.foldl (fun s j => if s.fld (A.PMC_G_SEL g j) 9 0 = ev then pmcAdd s g j n else s) s =
        { s with regs := m, pmcWraps := w } ∧
      ∀ a, (a < A.PMC_CTR_LO g 0 ∨ A.PMC_CYC_LO (g + 1) ≤ a) →
        (l.foldl (fun s j => if s.fld (A.PMC_G_SEL g j) 9 0 = ev then pmcAdd s g j n else s) s).rd a = s.rd a := by
  induction l generalizing s with
  | nil => exact ⟨s.regs, s.pmcWraps, rfl, fun a _ => rfl⟩
  | cons j l ih =>
    have hj : j < 8 := hl j (List.mem_cons_self ..)
    have hl' : ∀ i ∈ l, i < 8 := fun i hi => hl i (List.mem_cons_of_mem _ hi)
    simp only [List.foldl_cons]
    split
    · obtain ⟨m, w, hs, hr⟩ := pmcAdd_shape s g j n
      obtain ⟨m', w', hs', hr'⟩ := ih hl' (pmcAdd s g j n)
      refine ⟨m', w', by rw [hs', hs], fun a ha => ?_⟩
      rw [hr' a ha]
      apply hr <;> (simp only [A.PMC_CTR_LO, A.PMC_CYC_LO] at ha ⊢; omega)
    · exact ih hl' s

/-- Everything that an event of a counter group can do. -/
theorem pmcEvent_shape (s : State) (g ev n : Nat) :
    ∃ m w, s.pmcEvent g ev n = { s with regs := m, pmcWraps := w } ∧
      ∀ a, (a < A.PMC_CTR_LO g 0 ∨ A.PMC_CYC_LO (g + 1) ≤ a) → (s.pmcEvent g ev n).rd a = s.rd a := by
  unfold State.pmcEvent
  split
  · exact ⟨s.regs, s.pmcWraps, rfl, fun a _ => rfl⟩
  · exact pmcCount_shape g ev n _ (fun j hj => List.mem_range.1 hj) s

/-- Everything that the count of an access can do. -/
theorem heard_shape (s : State) (r : Req) (n : Nat) :
    ∃ m w, heard s r n = { s with regs := m, pmcWraps := w } ∧
      ∀ a, countsHost a = false → (heard s r n).rd a = s.rd a := by
  unfold heard
  split
  · obtain ⟨m, w, hs, hr⟩ := pmcEvent_shape s 22 0x302 n
    refine ⟨m, w, hs, fun a ha => hr a ?_⟩
    simp only [countsHost, Bool.and_eq_false_iff, decide_eq_false_iff_not, Nat.not_le, Nat.not_lt] at ha
    exact ha
  · exact ⟨s.regs, s.pmcWraps, rfl, fun a _ => rfl⟩

theorem heard_mgmt (s : State) (n : Nat) : heard s .mgmt n = s := rfl

theorem rd_heard {a : Nat} (s : State) (r : Req) (n : Nat) (h : countsHost a = false) : (heard s r n).rd a = s.rd a :=
  (heard_shape s r n).choose_spec.choose_spec.2 a h

theorem fld_heard {a : Nat} (s : State) (r : Req) (n hi lo : Nat) (h : countsHost a = false) :
    (heard s r n).fld a hi lo = s.fld a hi lo := by simp only [State.fld, rd_heard s r n h]

theorem bit_heard {a : Nat} (s : State) (r : Req) (n i : Nat) (h : countsHost a = false) :
    (heard s r n).bit a i = s.bit a i := by simp only [State.bit, rd_heard s r n h]

@[simp] theorem heard_pending (s : State) (r : Req) (n : Nat) : (heard s r n).pending = s.pending := by
  obtain ⟨m, w, h, -⟩ := heard_shape s r n; rw [h]
@[simp] theorem heard_now (s : State) (r : Req) (n : Nat) : (heard s r n).now = s.now := by
  obtain ⟨m, w, h, -⟩ := heard_shape s r n; rw [h]
@[simp] theorem heard_heldNodes (s : State) (r : Req) (n : Nat) : (heard s r n).heldNodes = s.heldNodes := by
  obtain ⟨m, w, h, -⟩ := heard_shape s r n; rw [h]
@[simp] theorem heard_heldMgmt (s : State) (r : Req) (n : Nat) : (heard s r n).heldMgmt = s.heldMgmt := by
  obtain ⟨m, w, h, -⟩ := heard_shape s r n; rw [h]
@[simp] theorem heard_power (s : State) (r : Req) (n : Nat) : (heard s r n).power = s.power := by
  obtain ⟨m, w, h, -⟩ := heard_shape s r n; rw [h]
@[simp] theorem heard_boot (s : State) (r : Req) (n : Nat) : (heard s r n).boot = s.boot := by
  obtain ⟨m, w, h, -⟩ := heard_shape s r n; rw [h]
@[simp] theorem heard_guardHost (s : State) (r : Req) (n : Nat) : (heard s r n).guardHost = s.guardHost := by
  obtain ⟨m, w, h, -⟩ := heard_shape s r n; rw [h]
@[simp] theorem heard_guardMgmt (s : State) (r : Req) (n : Nat) : (heard s r n).guardMgmt = s.guardMgmt := by
  obtain ⟨m, w, h, -⟩ := heard_shape s r n; rw [h]
@[simp] theorem heard_loops (s : State) (r : Req) (n : Nat) : (heard s r n).loops = s.loops := by
  obtain ⟨m, w, h, -⟩ := heard_shape s r n; rw [h]
@[simp] theorem heard_timers (s : State) (r : Req) (n : Nat) : (heard s r n).timers = s.timers := by
  obtain ⟨m, w, h, -⟩ := heard_shape s r n; rw [h]
@[simp] theorem heard_out (s : State) (r : Req) (n : Nat) : (heard s r n).out = s.out := by
  obtain ⟨m, w, h, -⟩ := heard_shape s r n; rw [h]
@[simp] theorem heard_staged (s : State) (r : Req) (n : Nat) : (heard s r n).staged = s.staged := by
  obtain ⟨m, w, h, -⟩ := heard_shape s r n; rw [h]
@[simp] theorem heard_stamps (s : State) (r : Req) (n : Nat) : (heard s r n).stamps = s.stamps := by
  obtain ⟨m, w, h, -⟩ := heard_shape s r n; rw [h]
@[simp] theorem heard_mem (s : State) (r : Req) (n : Nat) : (heard s r n).mem = s.mem := by
  obtain ⟨m, w, h, -⟩ := heard_shape s r n; rw [h]
@[simp] theorem heard_banks (s : State) (r : Req) (n : Nat) : (heard s r n).banks = s.banks := by
  obtain ⟨m, w, h, -⟩ := heard_shape s r n; rw [h]

/-! Where an address lies. -/

/-- The block that holds an address is one of the map's. -/
theorem blockOf_mem {a : Nat} {b : Block} (h : blockOf a = some b) : b ∈ blocks ∧ b.base ≤ a ∧ a < b.base + b.size := by
  have hp := List.find?_some h
  simp only [Bool.and_eq_true, decide_eq_true_eq] at hp
  exact ⟨List.mem_of_find?_eq_some h, hp⟩

theorem rowOf_block {a : Nat} {row : RegRow} (h : rowOf a = some row) :
    ∃ b, blockOf a = some b ∧ row ∈ b.rows ∧ row.covers ((a - b.base) % b.stride) = true := by
  unfold rowOf at h
  split at h
  · cases h
  · rename_i b hb
    exact ⟨b, hb, List.mem_of_find?_eq_some h, List.find?_some (p := fun (r : RegRow) => r.covers ((a - b.base) % b.stride)) h⟩

theorem apertures_apart : ∀ b ∈ blocks, (b.base + b.size ≤ 0x900000 ∨ 0x960000 ≤ b.base) ∧
    (b.base + b.size ≤ 0x1200000 ∨ 0x1218000 ≤ b.base) := by
  simp only [blocks, List.forall_mem_cons, List.not_mem_nil, false_implies, implies_true, and_true]
  omega

/-- A register's own address lies in no aperture. -/
theorem rowOf_own {a : Nat} {row : RegRow} (h : rowOf a = some row) :
    isPortAperture a = false ∧ isLaneAperture a = false ∧ mapped a = true := by
  obtain ⟨b, hb, -, -⟩ := rowOf_block h
  obtain ⟨hm, hlo, hhi⟩ := blockOf_mem hb
  obtain ⟨hp, hl⟩ := apertures_apart b hm
  refine ⟨?_, ?_, by simp [mapped, hb]⟩
  · simp only [isPortAperture, Bool.or_eq_false_iff, decide_eq_false_iff_not]; omega
  · simp only [isLaneAperture, Bool.or_eq_false_iff, decide_eq_false_iff_not]; omega

theorem accessWidth_word {a : Nat} (h : a % 4 = 0) : accessWidth a 4 = .words 1 := by
  unfold accessWidth
  rw [if_neg (by omega)]
  split
  · rw [if_neg (by omega), if_pos (by omega)]
  · rw [if_neg (by omega), if_pos ⟨rfl, h⟩]

/-! A served write of one word. -/

theorem breakGuards_none {s : State} {a : Nat} {k : Option Req} (h : s.guardHost = []) (h' : s.guardMgmt = []) :
    breakGuards s a k = s := by simp [breakGuards, guardFails, guardAt, guardsOf, h, h']

/-- What the write of an own register's word does once it is served. -/
def served (s : State) (r : Req) (a v : Nat) (row : RegRow) : State :=
  match row.acc with
  | .ro => s
  | .window => rejected s r a
  | .grd => beginGuard s r a v
  | .sqc => if sqcAhead s a v then accessErr s 8 r a else s.writeBack a v
  | .cnt => takeWord s a v
  | .ftime w => writeTime s r a a w v
  | .rw => writePlain s r a a v false
  | .wo => writePlain s r a a v true

/-- What an open node is: its zone is neither in reset nor in fault, and the islands on the way run. -/
theorem nodeOpen_iff (s : State) (a : Nat) :
    s.nodeOpen a = true ↔ zoneRefuses s a = false ∧ zoneFails s a = false ∧ nodeRuns s a = true := by
  simp [State.nodeOpen, and_assoc]

/-- A write fails no section while no guard sequence of the management complex is open. -/
theorem recordBreaks_idle {s : State} (r : Req) (t : State) (h : s.guardMgmt = []) : recordBreaks s r t = t := by
  simp [recordBreaks, h]

theorem nodeWrite_served {s : State} {r : Req} {a v : Nat} {row : RegRow} (hz : s.nodeOpen a = true)
    (hh : s.guardHost = []) (hm : s.guardMgmt = []) (hr : rowOf a = some row) :
    nodeWrite s r a a v false = (served s r a v row, true) := by
  have hw : regWrite s r a a v false = served s r a v row := by
    unfold regWrite served
    rw [hr]
    simp only [breakGuards_none hh hm, Bool.false_and, Bool.false_eq_true, if_false]
    all_goals cases row.acc <;> rfl
  obtain ⟨h1, h2, h3⟩ := (nodeOpen_iff s a).1 hz
  simp [nodeWrite, h1, h2, h3, hw]

/-- The zone bits of GLB.ZONE_STAT are not among the counters. -/
theorem nodeOpen_heard (s : State) (r : Req) (n a : Nat) : (heard s r n).nodeOpen a = s.nodeOpen a := by
  have h : countsHost A.GLB_ZONE_STAT = false := by decide
  have h' : countsHost A.GLB_BOOT_STAT = false := by decide
  simp only [State.nodeOpen, zoneRefuses, zoneFails, nodeRuns, portIslandRuns, zoneInReset, zoneFault,
    Machine.islandRuns, loopStopped, asleep, bootState, bit_heard s r n _ h, fld_heard s r n _ _ h', heard_loops]
  rfl

/-- A write of one word that a requester sends while the register listens. -/
theorem write32_served {s : State} {r : Req} {a : Nat} (v : Nat) {row : RegRow} (h : s.listens r a = true)
    (ha : a % 4 = 0) (hr : rowOf a = some row) :
    write32 s r a v = served (heard s r 1) r a (v % 2 ^ 32) row := by
  simp only [State.listens, Bool.and_eq_true, List.isEmpty_iff] at h
  obtain ⟨⟨⟨⟨⟨hd, hw⟩, hg⟩, hz⟩, hh⟩, hm⟩ := h
  obtain ⟨hp, hl, hmap⟩ := rowOf_own hr
  have hn : nodeWrite (heard s r 1) r a a (v % 2 ^ 32) false = (served (heard s r 1) r a (v % 2 ^ 32) row, true) :=
    nodeWrite_served (by rw [nodeOpen_heard]; exact hz) (by simpa using hh) (by simpa using hm) hr
  have hb : busAccess s r a 4 [BitVec.ofNat 32 v] = (served (heard s r 1) r a (v % 2 ^ 32) row, true) := by
    unfold busAccess
    simp only [hg, hmap, accessWidth_word ha, Bool.not_true, Bool.false_eq_true, if_false, Bool.or_self,
      List.take_succ_cons, List.take_zero, writeWords, wordWrite, hp, hl, BitVec.toNat_ofNat, hn, Bool.and_self, if_true]
  have hw' : waitsAtCore s r = false := by simpa using hw
  simp [write32, busWrite, hd, hw', hb, recordBreaks_idle r _ hm]

/-- A guarded write that a requester sends while the register listens. -/
theorem guardedWrite_served {s : State} {r : Req} {a : Nat} (v : Nat) (h : s.listens r a = true) :
    guardedWrite s r a v = guardedEffect (heard s r 2) r a v := by
  simp only [State.listens, Bool.and_eq_true, List.isEmpty_iff] at h
  obtain ⟨⟨⟨⟨⟨hd, hw⟩, hg⟩, hz⟩, hh⟩, hm⟩ := h
  have hw' : waitsAtCore s r = false := by simpa using hw
  obtain ⟨h1, h2, h3⟩ := (nodeOpen_iff (heard s r 2) a).1 (by rw [nodeOpen_heard]; exact hz)
  have hb : breakGuards (heard s r 2) a none = heard s r 2 :=
    breakGuards_none (by simpa using hh) (by simpa using hm)
  simp [guardedWrite, hd, hw', hg, hb, recordBreaks_idle r _ hm, guardedNode, h1, h2, h3]

end Sys2Proof.Machine
end

