-- ==== Sys2Proof/Laws/Memory.lean ====
section
/-! SUPPORT. The scratchpad banks: a written byte is read back, every other byte stays, and every memory operation keeps the
canonical form. -/

namespace Sys2Proof.Machine

/-- Byte addresses of a bank that lie below 2^24 have keys of their own. -/
theorem bankKey_inj {b b' i i' : Nat} (hi : i < 2 ^ 24) (hi' : i' < 2 ^ 24) (h : bankKey b i = bankKey b' i') :
    b = b' ∧ i = i' := by
  unfold bankKey at h
  omega

/-- A byte reads what was written to it. -/
theorem bankByte_put_self (s : State) (b i : Nat) (v : Byte) : (s.putBankByte b i v).bankByte b i = v := by
  have h := cells_get_put_self (bankDefault s.banks (bankKey b i)) s.mem (bankKey b i) v
  unfold State.bankByte State.putBankByte
  simp only
  revert h
  cases hc : Cells.get (Cells.put (bankDefault s.banks (bankKey b i)) s.mem (bankKey b i) v) (bankKey b i) with
  | some w => intro h; simpa using h
  | none =>
    intro h
    simp only [Option.none_or] at h
    simp [h]

/-- Every other byte reads what it did. -/
theorem bankByte_put_ne (s : State) {b i b' i' : Nat} (v : Byte) (h : bankKey b' i' ≠ bankKey b i) :
    (s.putBankByte b i v).bankByte b' i' = s.bankByte b' i' := by
  unfold State.bankByte State.putBankByte
  simp only [cells_get_put_ne _ _ _ h]

theorem cells_wfFrom_mono (d : Nat → Option Byte) (m : List Host.Cell) {lo lo' : Nat} (h : lo' ≤ lo)
    (w : Cells.wfFrom d lo m = true) : Cells.wfFrom d lo' m = true := by
  cases m with
  | nil => rfl
  | cons e m =>
    obtain ⟨k, v⟩ := e
    simp only [Cells.wfFrom, Bool.and_eq_true, decide_eq_true_eq] at w ⊢
    exact ⟨⟨by omega, w.1.2⟩, w.2⟩

theorem cells_wfFrom_filter (d : Nat → Option Byte) (p : Host.Cell → Bool) (m : List Host.Cell) :
    ∀ lo, Cells.wfFrom d lo m = true → Cells.wfFrom d lo (m.filter p) = true := by
  induction m with
  | nil => intro lo _; rfl
  | cons e m ih =>
    obtain ⟨k, v⟩ := e
    intro lo w
    simp only [Cells.wfFrom, Bool.and_eq_true, decide_eq_true_eq] at w
    by_cases hp : p (k, v) = true
    · simp only [List.filter, hp, Cells.wfFrom, Bool.and_eq_true, decide_eq_true_eq]
      exact ⟨w.1, ih _ w.2⟩
    · simp only [List.filter, hp]
      exact cells_wfFrom_mono d _ (by omega) (ih _ w.2)

theorem cells_wfFrom_set (d : Nat → Option Byte) (m : List Host.Cell) (a : Nat) (v : Byte) (hv : some v ≠ d a) :
    ∀ lo, lo ≤ a → Cells.wfFrom d lo m = true → Cells.wfFrom d lo (Map.set m a v) = true := by
  induction m with
  | nil => intro lo hlo _; simp [Map.set, Cells.wfFrom, hv, hlo]
  | cons e m ih =>
    obtain ⟨k, w⟩ := e
    intro lo hlo hw
    simp only [Cells.wfFrom, Bool.and_eq_true, decide_eq_true_eq] at hw
    simp only [Map.set]
    split
    · rename_i h
      simp only [Cells.wfFrom, Bool.and_eq_true, decide_eq_true_eq]
      exact ⟨⟨hlo, hv⟩, ⟨by omega, hw.1.2⟩, hw.2⟩
    · split
      · rename_i h
        subst h
        simp only [Cells.wfFrom, Bool.and_eq_true, decide_eq_true_eq]
        exact ⟨⟨hlo, hv⟩, hw.2⟩
      · simp only [Cells.wfFrom, Bool.and_eq_true, decide_eq_true_eq]
        exact ⟨hw.1, ih _ (by omega) hw.2⟩

theorem cells_wfFrom_congr (d d' : Nat → Option Byte) (m : List Host.Cell) (h : ∀ e ∈ m, d e.1 = d' e.1) :
    ∀ lo, Cells.wfFrom d lo m = Cells.wfFrom d' lo m := by
  induction m with
  | nil => intro lo; rfl
  | cons e m ih =>
    obtain ⟨k, v⟩ := e
    intro lo
    simp only [Cells.wfFrom, h (k, v) (by simp), ih (fun e he => h e (by simp [he]))]

/-- A write of a byte keeps the canonical form. -/
theorem memory_wf_putBankByte (s : State) (b i : Nat) (v : Byte) (h : Memory.wf s = true) :
    Memory.wf (s.putBankByte b i v) = true := by
  unfold Memory.wf State.putBankByte Cells.put at *
  simp only
  split
  · exact cells_wfFrom_filter _ _ s.mem 0 h
  · rename_i hv
    exact cells_wfFrom_set _ s.mem _ v hv 0 (Nat.zero_le _) h

/-- A write of bytes keeps the canonical form. -/
theorem memory_wf_putBank (l : List Nat) : ∀ (s : State) (b i : Nat), Memory.wf s = true →
    Memory.wf (s.putBank b i l) = true := by
  induction l with
  | nil => intro s b i h; exact h
  | cons v l ih => intro s b i h; exact ih _ b (i + 1) (memory_wf_putBankByte s b i _ h)

/-- Clearing a bank keeps the canonical form. -/
theorem memory_wf_clearBank (s : State) (b : Nat) (zero : Bool) (h : Memory.wf s = true) :
    Memory.wf (s.clearBank b zero) = true := by
  unfold Memory.wf State.clearBank at *
  simp only
  rw [cells_wfFrom_congr _ (bankDefault s.banks)]
  · exact cells_wfFrom_filter _ _ s.mem 0 h
  · intro e he
    have hb : e.1 / 2 ^ 24 ≠ b := by simpa using (List.mem_filter.mp he).2
    unfold bankDefault
    rw [map_get_put_ne _ _ _ _ hb]

/-- The memory after reset is in canonical form. -/
theorem memory_wf_reset : Memory.wf State.reset = true := rfl

/-- The register file after reset is in canonical form. -/
theorem regs_wf_reset : Map.wf resetOf State.reset.regs = true := by decide

/-- A write of a register keeps the register file's canonical form. -/
theorem regs_wf_wr (s : State) (a v : Nat) (h : Map.wf resetOf s.regs = true) :
    Map.wf resetOf (s.wr a v).regs = true := map_wf_put resetOf s.regs a _ h

/-- So does the return of registers to their reset values. -/
theorem regs_wf_resetRegs (s : State) (p : Nat → Bool) (h : Map.wf resetOf s.regs = true) :
    Map.wf resetOf (s.resetRegs p).regs = true := map_wf_filter resetOf _ s.regs h

end Sys2Proof.Machine
end

