-- ==== Sys2Proof/Laws/PerInstr.lean ====
section
/-! SUPPORT. The per-command family `Supply`: a command that a device without any supply answers (R14) is one that the
data die's stop does not hold back, and it is well formed with any operands. -/

namespace Sys2Proof.Laws

open Sys2Proof.Machine

/-- What the family says of a command. -/
def Supply.Statement (c : Instr) : Prop := outsideCommand c = true → timingDieCommand c = true ∧ c.wellFormed = true

theorem Supply.registerWrite : ∀ x0 x1 x2 x3, Statement (.registerWrite x0 x1 x2 x3) :=
  fun _ _ _ _ h => absurd h Bool.false_ne_true
theorem Supply.ftimeCommit : ∀ x0 x1 x2, Statement (.ftimeCommit x0 x1 x2) := fun _ _ _ h => absurd h Bool.false_ne_true
theorem Supply.guardFirstWrite : ∀ x0 x1 x2, Statement (.guardFirstWrite x0 x1 x2) :=
  fun _ _ _ h => absurd h Bool.false_ne_true
theorem Supply.guardComplementWrite : ∀ x0 x1 x2, Statement (.guardComplementWrite x0 x1 x2) :=
  fun _ _ _ h => absurd h Bool.false_ne_true
theorem Supply.guardTimeout : ∀ x0, Statement (.guardTimeout x0) := fun _ h => absurd h Bool.false_ne_true
theorem Supply.sqcWriteBack : ∀ x0 x1 x2, Statement (.sqcWriteBack x0 x1 x2) := fun _ _ _ h => absurd h Bool.false_ne_true
theorem Supply.apertureWrite : ∀ x0 x1 x2, Statement (.apertureWrite x0 x1 x2) := fun _ _ _ h => absurd h Bool.false_ne_true
theorem Supply.aerrClr : ∀ x0 x1, Statement (.aerrClr x0 x1) := fun _ _ h => absurd h Bool.false_ne_true
theorem Supply.zoneAccessTimeout : ∀ x0 x1 x2 x3, Statement (.zoneAccessTimeout x0 x1 x2 x3) :=
  fun _ _ _ _ h => absurd h Bool.false_ne_true
theorem Supply.zoneCheckError : ∀ x0, Statement (.zoneCheckError x0) := fun _ h => absurd h Bool.false_ne_true
theorem Supply.zoneReset : ∀ x0 x1 x2, Statement (.zoneReset x0 x1 x2) := fun _ _ _ h => absurd h Bool.false_ne_true
theorem Supply.zoneResetQuenched : ∀ x0, Statement (.zoneResetQuenched x0) := fun _ h => absurd h Bool.false_ne_true
theorem Supply.zoneResetDone : ∀ x0, Statement (.zoneResetDone x0) := fun _ h => absurd h Bool.false_ne_true
theorem Supply.zoneReimage : ∀ x0 x1, Statement (.zoneReimage x0 x1) := fun _ _ h => absurd h Bool.false_ne_true
theorem Supply.vinKaRise : Statement (.vinKaRise) := fun _ => ⟨rfl, rfl⟩
theorem Supply.vinKaLoss : Statement (.vinKaLoss) := fun h => absurd h Bool.false_ne_true
theorem Supply.vinMainLoss : Statement (.vinMainLoss) := fun _ => ⟨rfl, rfl⟩
theorem Supply.thermalTrip : Statement (.thermalTrip) := fun h => absurd h Bool.false_ne_true
theorem Supply.dataDieStart : ∀ x0, Statement (.dataDieStart x0) := fun _ h => absurd h Bool.false_ne_true
theorem Supply.resetNAssert : Statement (.resetNAssert) := fun _ => ⟨rfl, rfl⟩
theorem Supply.resetNRelease : Statement (.resetNRelease) := fun _ => ⟨rfl, rfl⟩
theorem Supply.warmReset : ∀ x0, Statement (.warmReset x0) := fun _ h => absurd h Bool.false_ne_true
theorem Supply.timingReset : ∀ x0, Statement (.timingReset x0) := fun _ h => absurd h Bool.false_ne_true
theorem Supply.hostReset : Statement (.hostReset) := fun h => absurd h Bool.false_ne_true
theorem Supply.fuseReadDone : ∀ x0 x1 x2, Statement (.fuseReadDone x0 x1 x2) := fun _ _ _ h => absurd h Bool.false_ne_true
theorem Supply.imageHeaderRead : ∀ x0 x1 x2 x3, Statement (.imageHeaderRead x0 x1 x2 x3) :=
  fun _ _ _ _ h => absurd h Bool.false_ne_true
theorem Supply.sectionLoad : ∀ x0 x1 x2 x3, Statement (.sectionLoad x0 x1 x2 x3) :=
  fun _ _ _ _ h => absurd h Bool.false_ne_true
theorem Supply.regscriptWrite : Statement (.regscriptWrite) := fun h => absurd h Bool.false_ne_true
theorem Supply.regscriptGuarded : Statement (.regscriptGuarded) := fun h => absurd h Bool.false_ne_true
theorem Supply.regscriptWait : Statement (.regscriptWait) := fun h => absurd h Bool.false_ne_true
theorem Supply.regscriptWaitDone : Statement (.regscriptWaitDone) := fun h => absurd h Bool.false_ne_true
theorem Supply.tableChunk : Statement (.tableChunk) := fun h => absurd h Bool.false_ne_true
theorem Supply.firmwareStart : Statement (.firmwareStart) := fun h => absurd h Bool.false_ne_true
theorem Supply.firmwareReady : Statement (.firmwareReady) := fun h => absurd h Bool.false_ne_true
theorem Supply.firmwareReadyTimeout : Statement (.firmwareReadyTimeout) := fun h => absurd h Bool.false_ne_true
theorem Supply.hbmTrainingDone : ∀ x0, Statement (.hbmTrainingDone x0) := fun _ h => absurd h Bool.false_ne_true
theorem Supply.dataDieRelease : Statement (.dataDieRelease) := fun h => absurd h Bool.false_ne_true
theorem Supply.fallbackResetDone : Statement (.fallbackResetDone) := fun h => absurd h Bool.false_ne_true
theorem Supply.bootGo : ∀ x0 x1, Statement (.bootGo x0 x1) := fun _ _ h => absurd h Bool.false_ne_true
theorem Supply.govPowerSample : ∀ x0 x1 x2, Statement (.govPowerSample x0 x1 x2) := fun _ _ _ h => absurd h Bool.false_ne_true
theorem Supply.govLimitEntry : Statement (.govLimitEntry) := fun h => absurd h Bool.false_ne_true
theorem Supply.govLimitExit : Statement (.govLimitExit) := fun h => absurd h Bool.false_ne_true
theorem Supply.govShedTick : Statement (.govShedTick) := fun h => absurd h Bool.false_ne_true
theorem Supply.govBelowCapTimeout : Statement (.govBelowCapTimeout) := fun h => absurd h Bool.false_ne_true
theorem Supply.govRestoreTick : Statement (.govRestoreTick) := fun h => absurd h Bool.false_ne_true
theorem Supply.sleepEnter : ∀ x0, Statement (.sleepEnter x0) := fun _ h => absurd h Bool.false_ne_true
theorem Supply.sleepDrainDone : Statement (.sleepDrainDone) := fun h => absurd h Bool.false_ne_true
theorem Supply.sleepEntryComplete : Statement (.sleepEntryComplete) := fun h => absurd h Bool.false_ne_true
theorem Supply.sleepWake : ∀ x0, Statement (.sleepWake x0) := fun _ h => absurd h Bool.false_ne_true
theorem Supply.wakeTimeReached : Statement (.wakeTimeReached) := fun h => absurd h Bool.false_ne_true
theorem Supply.wakeComplete : ∀ x0, Statement (.wakeComplete x0) := fun _ h => absurd h Bool.false_ne_true
theorem Supply.lanePowerupDone : ∀ x0, Statement (.lanePowerupDone x0) := fun _ h => absurd h Bool.false_ne_true
theorem Supply.laneSignalDetect : ∀ x0, Statement (.laneSignalDetect x0) := fun _ h => absurd h Bool.false_ne_true
theorem Supply.laneSignalLoss : ∀ x0, Statement (.laneSignalLoss x0) := fun _ h => absurd h Bool.false_ne_true
theorem Supply.laneCdrLock : ∀ x0 x1 x2, Statement (.laneCdrLock x0 x1 x2) := fun _ _ _ h => absurd h Bool.false_ne_true
theorem Supply.cdrAcqTimeout : ∀ x0, Statement (.cdrAcqTimeout x0) := fun _ h => absurd h Bool.false_ne_true
theorem Supply.adaptConverged : ∀ x0 x1 x2, Statement (.adaptConverged x0 x1 x2) := fun _ _ _ h => absurd h Bool.false_ne_true
theorem Supply.adaptTimeout : ∀ x0, Statement (.adaptTimeout x0) := fun _ h => absurd h Bool.false_ne_true
theorem Supply.laneCheckDone : ∀ x0, Statement (.laneCheckDone x0) := fun _ h => absurd h Bool.false_ne_true
theorem Supply.laneRecheckTimer : ∀ x0, Statement (.laneRecheckTimer x0) := fun _ h => absurd h Bool.false_ne_true
theorem Supply.laneCdrLoss : ∀ x0, Statement (.laneCdrLoss x0) := fun _ h => absurd h Bool.false_ne_true
theorem Supply.blockLockAcquired : ∀ x0 x1, Statement (.blockLockAcquired x0 x1) := fun _ _ h => absurd h Bool.false_ne_true
theorem Supply.blockLockLoss : ∀ x0 x1, Statement (.blockLockLoss x0 x1) := fun _ _ h => absurd h Bool.false_ne_true
theorem Supply.laneErrorLimit : ∀ x0 x1, Statement (.laneErrorLimit x0 x1) := fun _ _ h => absurd h Bool.false_ne_true
theorem Supply.laneRetryTimer : ∀ x0, Statement (.laneRetryTimer x0) := fun _ h => absurd h Bool.false_ne_true
theorem Supply.resumeLock : ∀ x0 x1, Statement (.resumeLock x0 x1) := fun _ _ h => absurd h Bool.false_ne_true
theorem Supply.resumeTimeout : ∀ x0, Statement (.resumeTimeout x0) := fun _ h => absurd h Bool.false_ne_true
theorem Supply.retrain : ∀ x0 x1, Statement (.retrain x0 x1) := fun _ _ h => absurd h Bool.false_ne_true
theorem Supply.laneCtrlWrite : ∀ x0 x1 x2, Statement (.laneCtrlWrite x0 x1 x2) := fun _ _ _ h => absurd h Bool.false_ne_true
theorem Supply.laneEqTableWrite : ∀ x0 x1 x2 x3 x4, Statement (.laneEqTableWrite x0 x1 x2 x3 x4) :=
  fun _ _ _ _ _ h => absurd h Bool.false_ne_true
theorem Supply.laneEqValidWrite : ∀ x0 x1 x2, Statement (.laneEqValidWrite x0 x1 x2) :=
  fun _ _ _ h => absurd h Bool.false_ne_true
theorem Supply.laneTestWrite : ∀ x0 x1 x2, Statement (.laneTestWrite x0 x1 x2) := fun _ _ _ h => absurd h Bool.false_ne_true
theorem Supply.unretire : ∀ x0 x1, Statement (.unretire x0 x1) := fun _ _ h => absurd h Bool.false_ne_true
theorem Supply.clrTotal : ∀ x0 x1, Statement (.clrTotal x0 x1) := fun _ _ h => absurd h Bool.false_ne_true
theorem Supply.portCfgWrite : ∀ x0 x1 x2, Statement (.portCfgWrite x0 x1 x2) := fun _ _ _ h => absurd h Bool.false_ne_true
theorem Supply.portEnableWrite : ∀ x0 x1 x2, Statement (.portEnableWrite x0 x1 x2) :=
  fun _ _ _ h => absurd h Bool.false_ne_true
theorem Supply.restart : ∀ x0 x1, Statement (.restart x0 x1) := fun _ _ h => absurd h Bool.false_ne_true
theorem Supply.portLinkUp : ∀ x0, Statement (.portLinkUp x0) := fun _ h => absurd h Bool.false_ne_true
theorem Supply.portLinkLoss : ∀ x0, Statement (.portLinkLoss x0) := fun _ h => absurd h Bool.false_ne_true
theorem Supply.quenchDone : ∀ x0, Statement (.quenchDone x0) := fun _ h => absurd h Bool.false_ne_true
theorem Supply.anComplete : ∀ x0 x1 x2, Statement (.anComplete x0 x1 x2) := fun _ _ _ h => absurd h Bool.false_ne_true
theorem Supply.anRestartTimer : ∀ x0, Statement (.anRestartTimer x0) := fun _ h => absurd h Bool.false_ne_true
theorem Supply.stepupPageRx : ∀ x0 x1, Statement (.stepupPageRx x0 x1) := fun _ _ h => absurd h Bool.false_ne_true
theorem Supply.stepupNoPartnerTimeout : ∀ x0, Statement (.stepupNoPartnerTimeout x0) := fun _ h => absurd h Bool.false_ne_true
theorem Supply.stepupSlowLinkOk : ∀ x0, Statement (.stepupSlowLinkOk x0) := fun _ h => absurd h Bool.false_ne_true
theorem Supply.stepupSlowTimeout : ∀ x0, Statement (.stepupSlowTimeout x0) := fun _ h => absurd h Bool.false_ne_true
theorem Supply.stepupQualDone : ∀ x0, Statement (.stepupQualDone x0) := fun _ h => absurd h Bool.false_ne_true
theorem Supply.stepupFastLinkOk : ∀ x0, Statement (.stepupFastLinkOk x0) := fun _ h => absurd h Bool.false_ne_true
theorem Supply.stepupFastTimeout : ∀ x0, Statement (.stepupFastTimeout x0) := fun _ h => absurd h Bool.false_ne_true
theorem Supply.stepupHoldRetry : ∀ x0, Statement (.stepupHoldRetry x0) := fun _ h => absurd h Bool.false_ne_true
theorem Supply.trunkMarkerTx : ∀ x0, Statement (.trunkMarkerTx x0) := fun _ h => absurd h Bool.false_ne_true
theorem Supply.trunkMarkerRx : ∀ x0 x1 x2 x3 x4 x5, Statement (.trunkMarkerRx x0 x1 x2 x3 x4 x5) :=
  fun _ _ _ _ _ _ h => absurd h Bool.false_ne_true
theorem Supply.trunkBlockTx : ∀ x0, Statement (.trunkBlockTx x0) := fun _ h => absurd h Bool.false_ne_true
theorem Supply.trunkBlockRx : ∀ x0 x1, Statement (.trunkBlockRx x0 x1) := fun _ _ h => absurd h Bool.false_ne_true
theorem Supply.trunkHelloTx : ∀ x0, Statement (.trunkHelloTx x0) := fun _ h => absurd h Bool.false_ne_true
theorem Supply.trunkHelloRx : ∀ x0 x1, Statement (.trunkHelloRx x0 x1) := fun _ _ h => absurd h Bool.false_ne_true
theorem Supply.trunkAlignTimeout : ∀ x0, Statement (.trunkAlignTimeout x0) := fun _ h => absurd h Bool.false_ne_true
theorem Supply.trunkHelloTimeout : ∀ x0, Statement (.trunkHelloTimeout x0) := fun _ h => absurd h Bool.false_ne_true
theorem Supply.trunkConflictRetry : ∀ x0, Statement (.trunkConflictRetry x0) := fun _ h => absurd h Bool.false_ne_true
theorem Supply.pfcFrameRx : ∀ x0 x1 x2, Statement (.pfcFrameRx x0 x1 x2) := fun _ _ _ h => absurd h Bool.false_ne_true
theorem Supply.pfcPauseExpiry : ∀ x0 x1, Statement (.pfcPauseExpiry x0 x1) := fun _ _ h => absurd h Bool.false_ne_true
theorem Supply.macControlRx : ∀ x0 x1, Statement (.macControlRx x0 x1) := fun _ _ h => absurd h Bool.false_ne_true
theorem Supply.sidebandScan : ∀ x0 x1, Statement (.sidebandScan x0 x1) := fun _ _ h => absurd h Bool.false_ne_true
theorem Supply.moduleDatapathActivated : ∀ x0, Statement (.moduleDatapathActivated x0) :=
  fun _ h => absurd h Bool.false_ne_true
theorem Supply.tbAdvance : ∀ x0, Statement (.tbAdvance x0) := fun _ _ => ⟨rfl, rfl⟩
theorem Supply.tbTimeRead : ∀ x0 x1, Statement (.tbTimeRead x0 x1) := fun _ _ h => absurd h Bool.false_ne_true
theorem Supply.latch : ∀ x0 x1, Statement (.latch x0 x1) := fun _ _ h => absurd h Bool.false_ne_true
theorem Supply.arm : ∀ x0 x1, Statement (.arm x0 x1) := fun _ _ h => absurd h Bool.false_ne_true
theorem Supply.tbSetStep : ∀ x0 x1 x2, Statement (.tbSetStep x0 x1 x2) := fun _ _ _ h => absurd h Bool.false_ne_true
theorem Supply.tb0StepApply : Statement (.tb0StepApply) := fun h => absurd h Bool.false_ne_true
theorem Supply.tbSrcWrite : ∀ x0 x1 x2, Statement (.tbSrcWrite x0 x1 x2) := fun _ _ _ h => absurd h Bool.false_ne_true
theorem Supply.ptpSyncSample : ∀ x0 x1 x2 x3, Statement (.ptpSyncSample x0 x1 x2 x3) :=
  fun _ _ _ _ h => absurd h Bool.false_ne_true
theorem Supply.ppsEdgeSample : ∀ x0 x1, Statement (.ppsEdgeSample x0 x1) := fun _ _ h => absurd h Bool.false_ne_true
theorem Supply.freqEstimate : ∀ x0 x1, Statement (.freqEstimate x0 x1) := fun _ _ h => absurd h Bool.false_ne_true
theorem Supply.tbHoldTimeout : ∀ x0, Statement (.tbHoldTimeout x0) := fun _ h => absurd h Bool.false_ne_true
theorem Supply.ptpSyncTx : ∀ x0 x1, Statement (.ptpSyncTx x0 x1) := fun _ _ h => absurd h Bool.false_ne_true
theorem Supply.ptpDelayReqTx : ∀ x0 x1, Statement (.ptpDelayReqTx x0 x1) := fun _ _ h => absurd h Bool.false_ne_true
theorem Supply.ptpDelayReqRx : ∀ x0 x1 x2, Statement (.ptpDelayReqRx x0 x1 x2) := fun _ _ _ h => absurd h Bool.false_ne_true
theorem Supply.ptpDelayRespRx : ∀ x0 x1, Statement (.ptpDelayRespRx x0 x1) := fun _ _ h => absurd h Bool.false_ne_true
theorem Supply.ptpMessageDiscard : ∀ x0 x1, Statement (.ptpMessageDiscard x0 x1) := fun _ _ h => absurd h Bool.false_ne_true
theorem Supply.ptpGeneralRx : ∀ x0 x1, Statement (.ptpGeneralRx x0 x1) := fun _ _ h => absurd h Bool.false_ne_true
theorem Supply.bmcaSelect : ∀ x0 x1 x2, Statement (.bmcaSelect x0 x1 x2) := fun _ _ _ h => absurd h Bool.false_ne_true
theorem Supply.portPhaseMeasure : ∀ x0 x1 x2, Statement (.portPhaseMeasure x0 x1 x2) :=
  fun _ _ _ h => absurd h Bool.false_ne_true
theorem Supply.xoLoss : Statement (.xoLoss) := fun h => absurd h Bool.false_ne_true
theorem Supply.xoRecover : Statement (.xoRecover) := fun h => absurd h Bool.false_ne_true
theorem Supply.refInactive : ∀ x0, Statement (.refInactive x0) := fun _ h => absurd h Bool.false_ne_true
theorem Supply.refFreqMeasure : ∀ x0 x1, Statement (.refFreqMeasure x0 x1) := fun _ _ h => absurd h Bool.false_ne_true
theorem Supply.refQualDone : ∀ x0, Statement (.refQualDone x0) := fun _ h => absurd h Bool.false_ne_true
theorem Supply.suspClr : ∀ x0 x1, Statement (.suspClr x0 x1) := fun _ _ h => absurd h Bool.false_ne_true
theorem Supply.refCfgWrite : ∀ x0 x1 x2, Statement (.refCfgWrite x0 x1 x2) := fun _ _ _ h => absurd h Bool.false_ne_true
theorem Supply.refSwitchAcquired : Statement (.refSwitchAcquired) := fun h => absurd h Bool.false_ne_true
theorem Supply.refWtrExpiry : Statement (.refWtrExpiry) := fun h => absurd h Bool.false_ne_true
theorem Supply.refSelWrite : ∀ x0 x1, Statement (.refSelWrite x0 x1) := fun _ _ h => absurd h Bool.false_ne_true
theorem Supply.synCfgWrite : ∀ x0 x1 x2 x3, Statement (.synCfgWrite x0 x1 x2 x3) :=
  fun _ _ _ _ h => absurd h Bool.false_ne_true
theorem Supply.synOutputEnableApply : ∀ x0, Statement (.synOutputEnableApply x0) := fun _ h => absurd h Bool.false_ne_true
theorem Supply.synLockLost : ∀ x0, Statement (.synLockLost x0) := fun _ h => absurd h Bool.false_ne_true
theorem Supply.synRelocked : ∀ x0, Statement (.synRelocked x0) := fun _ h => absurd h Bool.false_ne_true
theorem Supply.synRelockTimeout : ∀ x0, Statement (.synRelockTimeout x0) := fun _ h => absurd h Bool.false_ne_true
theorem Supply.synRelockRetry : ∀ x0, Statement (.synRelockRetry x0) := fun _ h => absurd h Bool.false_ne_true
theorem Supply.synRampGo : ∀ x0 x1 x2, Statement (.synRampGo x0 x1 x2) := fun _ _ _ h => absurd h Bool.false_ne_true
theorem Supply.synRampAt : ∀ x0, Statement (.synRampAt x0) := fun _ h => absurd h Bool.false_ne_true
theorem Supply.synRampSegmentEnd : ∀ x0, Statement (.synRampSegmentEnd x0) := fun _ h => absurd h Bool.false_ne_true
theorem Supply.synRampStop : ∀ x0 x1, Statement (.synRampStop x0 x1) := fun _ _ h => absurd h Bool.false_ne_true
theorem Supply.synAlignEdge : ∀ x0 x1 x2, Statement (.synAlignEdge x0 x1 x2) := fun _ _ _ h => absurd h Bool.false_ne_true
theorem Supply.synAlignSlewDone : ∀ x0, Statement (.synAlignSlewDone x0) := fun _ h => absurd h Bool.false_ne_true
theorem Supply.islandLoopLockLoss : ∀ x0, Statement (.islandLoopLockLoss x0) := fun _ h => absurd h Bool.false_ne_true
theorem Supply.islandLoopRelock : ∀ x0, Statement (.islandLoopRelock x0) := fun _ h => absurd h Bool.false_ne_true
theorem Supply.islandLoopRelockTimeout : ∀ x0, Statement (.islandLoopRelockTimeout x0) :=
  fun _ h => absurd h Bool.false_ne_true
theorem Supply.lolFlagClear : ∀ x0, Statement (.lolFlagClear x0) := fun _ h => absurd h Bool.false_ne_true
theorem Supply.plsArm : ∀ x0 x1, Statement (.plsArm x0 x1) := fun _ _ h => absurd h Bool.false_ne_true
theorem Supply.plsStop : ∀ x0 x1, Statement (.plsStop x0 x1) := fun _ _ h => absurd h Bool.false_ne_true
theorem Supply.plsDisable : ∀ x0 x1 x2, Statement (.plsDisable x0 x1 x2) := fun _ _ _ h => absurd h Bool.false_ne_true
theorem Supply.plsRisingEdge : ∀ x0, Statement (.plsRisingEdge x0) := fun _ h => absurd h Bool.false_ne_true
theorem Supply.plsFallingEdge : ∀ x0, Statement (.plsFallingEdge x0) := fun _ h => absurd h Bool.false_ne_true
theorem Supply.plsExtRequest : ∀ x0 x1, Statement (.plsExtRequest x0 x1) := fun _ _ h => absurd h Bool.false_ne_true
theorem Supply.plsAlignEdge : ∀ x0 x1 x2, Statement (.plsAlignEdge x0 x1 x2) := fun _ _ _ h => absurd h Bool.false_ne_true
theorem Supply.plsTrimInstall : ∀ x0, Statement (.plsTrimInstall x0) := fun _ h => absurd h Bool.false_ne_true
theorem Supply.tdcArm : ∀ x0 x1, Statement (.tdcArm x0 x1) := fun _ _ h => absurd h Bool.false_ne_true
theorem Supply.tdcAbort : ∀ x0 x1, Statement (.tdcAbort x0 x1) := fun _ _ h => absurd h Bool.false_ne_true
theorem Supply.tdcGateEdge : ∀ x0 x1 x2, Statement (.tdcGateEdge x0 x1 x2) := fun _ _ _ h => absurd h Bool.false_ne_true
theorem Supply.tdcInputEdge : ∀ x0 x1 x2 x3, Statement (.tdcInputEdge x0 x1 x2 x3) :=
  fun _ _ _ _ h => absurd h Bool.false_ne_true
theorem Supply.tdcWindowExpiry : ∀ x0, Statement (.tdcWindowExpiry x0) := fun _ h => absurd h Bool.false_ne_true
theorem Supply.tdcMeasStore : ∀ x0 x1, Statement (.tdcMeasStore x0 x1) := fun _ _ h => absurd h Bool.false_ne_true
theorem Supply.tdcRearmTimer : ∀ x0, Statement (.tdcRearmTimer x0) := fun _ h => absurd h Bool.false_ne_true
theorem Supply.statGo : ∀ x0 x1, Statement (.statGo x0 x1) := fun _ _ h => absurd h Bool.false_ne_true
theorem Supply.tdcUnretire : ∀ x0 x1, Statement (.tdcUnretire x0 x1) := fun _ _ h => absurd h Bool.false_ne_true
theorem Supply.coreInitDone : ∀ x0 x1, Statement (.coreInitDone x0 x1) := fun _ _ h => absurd h Bool.false_ne_true
theorem Supply.trackingMeasure : ∀ x0, Statement (.trackingMeasure x0) := fun _ h => absurd h Bool.false_ne_true
theorem Supply.coreSyncTracked : Statement (.coreSyncTracked) := fun h => absurd h Bool.false_ne_true
theorem Supply.swoMasterUnlock : Statement (.swoMasterUnlock) := fun h => absurd h Bool.false_ne_true
theorem Supply.swoCheckFail : Statement (.swoCheckFail) := fun h => absurd h Bool.false_ne_true
theorem Supply.swoHeartbeatMissing : Statement (.swoHeartbeatMissing) := fun h => absurd h Bool.false_ne_true
theorem Supply.switch : ∀ x0, Statement (.switch x0) := fun _ h => absurd h Bool.false_ne_true
theorem Supply.swoGapEnd : Statement (.swoGapEnd) := fun h => absurd h Bool.false_ne_true
theorem Supply.selftestSlot : ∀ x0 x1 x2, Statement (.selftestSlot x0 x1 x2) := fun _ _ _ h => absurd h Bool.false_ne_true
theorem Supply.repair : ∀ x0 x1, Statement (.repair x0 x1) := fun _ _ h => absurd h Bool.false_ne_true
theorem Supply.coreAutoRepair : ∀ x0, Statement (.coreAutoRepair x0) := fun _ h => absurd h Bool.false_ne_true
theorem Supply.calGo : ∀ x0, Statement (.calGo x0) := fun _ h => absurd h Bool.false_ne_true
theorem Supply.calAbort : ∀ x0, Statement (.calAbort x0) := fun _ h => absurd h Bool.false_ne_true
theorem Supply.calMeasurementDone : ∀ x0, Statement (.calMeasurementDone x0) := fun _ h => absurd h Bool.false_ne_true
theorem Supply.calPreconditionBroken : Statement (.calPreconditionBroken) := fun h => absurd h Bool.false_ne_true
theorem Supply.calBusyTimeout : Statement (.calBusyTimeout) := fun h => absurd h Bool.false_ne_true
theorem Supply.save : ∀ x0, Statement (.save x0) := fun _ h => absurd h Bool.false_ne_true
theorem Supply.calSaveFlashOpDone : ∀ x0, Statement (.calSaveFlashOpDone x0) := fun _ h => absurd h Bool.false_ne_true
theorem Supply.calSaveTimeout : Statement (.calSaveTimeout) := fun h => absurd h Bool.false_ne_true
theorem Supply.frameClassify : ∀ x0 x1 x2 x3, Statement (.frameClassify x0 x1 x2 x3) :=
  fun _ _ _ _ h => absurd h Bool.false_ne_true
theorem Supply.mouldScrub : ∀ x0 x1 x2 x3, Statement (.mouldScrub x0 x1 x2 x3) := fun _ _ _ _ h => absurd h Bool.false_ne_true
theorem Supply.mouldEntryRewrite : ∀ x0 x1 x2, Statement (.mouldEntryRewrite x0 x1 x2) :=
  fun _ _ _ h => absurd h Bool.false_ne_true
theorem Supply.mouldEntryWrite : ∀ x0 x1 x2, Statement (.mouldEntryWrite x0 x1 x2) :=
  fun _ _ _ h => absurd h Bool.false_ne_true
theorem Supply.load : ∀ x0 x1, Statement (.load x0 x1) := fun _ _ h => absurd h Bool.false_ne_true
theorem Supply.heatLoadClearDone : Statement (.heatLoadClearDone) := fun h => absurd h Bool.false_ne_true
theorem Supply.seal : ∀ x0, Statement (.seal x0) := fun _ h => absurd h Bool.false_ne_true
theorem Supply.heatSealDone : Statement (.heatSealDone) := fun h => absurd h Bool.false_ne_true
theorem Supply.discard : ∀ x0, Statement (.discard x0) := fun _ h => absurd h Bool.false_ne_true
theorem Supply.commit : ∀ x0 x1, Statement (.commit x0 x1) := fun _ _ h => absurd h Bool.false_ne_true
theorem Supply.cancel : ∀ x0, Statement (.cancel x0) := fun _ h => absurd h Bool.false_ne_true
theorem Supply.heatCommitExamine : Statement (.heatCommitExamine) := fun h => absurd h Bool.false_ne_true
theorem Supply.heatCommitExecute : ∀ x0, Statement (.heatCommitExecute x0) := fun _ h => absurd h Bool.false_ne_true
theorem Supply.heatCommitWaitTimeout : Statement (.heatCommitWaitTimeout) := fun h => absurd h Bool.false_ne_true
theorem Supply.heatDrainDone : ∀ x0, Statement (.heatDrainDone x0) := fun _ h => absurd h Bool.false_ne_true
theorem Supply.heatDrainTimeout : ∀ x0, Statement (.heatDrainTimeout x0) := fun _ h => absurd h Bool.false_ne_true
theorem Supply.frameAdmit : ∀ x0, Statement (.frameAdmit x0) := fun _ h => absurd h Bool.false_ne_true
theorem Supply.pfcXoffRepeat : ∀ x0 x1, Statement (.pfcXoffRepeat x0 x1) := fun _ _ h => absurd h Bool.false_ne_true
theorem Supply.egressFrameSelect : ∀ x0 x1 x2, Statement (.egressFrameSelect x0 x1 x2) :=
  fun _ _ _ h => absurd h Bool.false_ne_true
theorem Supply.frameDepart : ∀ x0, Statement (.frameDepart x0) := fun _ h => absurd h Bool.false_ne_true
theorem Supply.shaperRefill : Statement (.shaperRefill) := fun h => absurd h Bool.false_ne_true
theorem Supply.deepCellWrite : ∀ x0 x1, Statement (.deepCellWrite x0 x1) := fun _ _ h => absurd h Bool.false_ne_true
theorem Supply.deepPrefetchRead : Statement (.deepPrefetchRead) := fun h => absurd h Bool.false_ne_true
theorem Supply.deepCellRead : ∀ x0 x1 x2, Statement (.deepCellRead x0 x1 x2) := fun _ _ _ h => absurd h Bool.false_ne_true
theorem Supply.dbfUnretire : ∀ x0 x1, Statement (.dbfUnretire x0 x1) := fun _ _ h => absurd h Bool.false_ne_true
theorem Supply.recircReentry : ∀ x0 x1, Statement (.recircReentry x0 x1) := fun _ _ h => absurd h Bool.false_ne_true
theorem Supply.riserFrameArrival : Statement (.riserFrameArrival) := fun h => absurd h Bool.false_ne_true
theorem Supply.riserTimeout : ∀ x0, Statement (.riserTimeout x0) := fun _ h => absurd h Bool.false_ne_true
theorem Supply.riserContextDisable : ∀ x0 x1 x2, Statement (.riserContextDisable x0 x1 x2) :=
  fun _ _ _ h => absurd h Bool.false_ne_true
theorem Supply.rstSeq : ∀ x0 x1, Statement (.rstSeq x0 x1) := fun _ _ h => absurd h Bool.false_ne_true
theorem Supply.migrationHoldEnd : ∀ x0 x1, Statement (.migrationHoldEnd x0 x1) := fun _ _ h => absurd h Bool.false_ne_true
theorem Supply.migrationHoldTimeout : ∀ x0 x1, Statement (.migrationHoldTimeout x0 x1) :=
  fun _ _ h => absurd h Bool.false_ne_true
theorem Supply.memberOut : ∀ x0 x1, Statement (.memberOut x0 x1) := fun _ _ h => absurd h Bool.false_ne_true
theorem Supply.ladleGroupStage : ∀ x0 x1 x2 x3, Statement (.ladleGroupStage x0 x1 x2 x3) :=
  fun _ _ _ _ h => absurd h Bool.false_ne_true
theorem Supply.ladleGroupCommit : ∀ x0 x1 x2, Statement (.ladleGroupCommit x0 x1 x2) :=
  fun _ _ _ h => absurd h Bool.false_ne_true
theorem Supply.ladleReplicate : Statement (.ladleReplicate) := fun h => absurd h Bool.false_ne_true
theorem Supply.lldReserve : ∀ x0, Statement (.lldReserve x0) := fun _ h => absurd h Bool.false_ne_true
theorem Supply.lldWindowStart : ∀ x0 x1, Statement (.lldWindowStart x0 x1) := fun _ _ h => absurd h Bool.false_ne_true
theorem Supply.lldLateExpiry : ∀ x0, Statement (.lldLateExpiry x0) := fun _ h => absurd h Bool.false_ne_true
theorem Supply.assayIntakeFrame : ∀ x0, Statement (.assayIntakeFrame x0) := fun _ h => absurd h Bool.false_ne_true
theorem Supply.assayIntakeGrant : Statement (.assayIntakeGrant) := fun h => absurd h Bool.false_ne_true
theorem Supply.assayMembership : ∀ x0, Statement (.assayMembership x0) := fun _ h => absurd h Bool.false_ne_true
theorem Supply.assayDecide : ∀ x0, Statement (.assayDecide x0) := fun _ h => absurd h Bool.false_ne_true
theorem Supply.assaySourceCommit : ∀ x0 x1 x2, Statement (.assaySourceCommit x0 x1 x2) :=
  fun _ _ _ h => absurd h Bool.false_ne_true
theorem Supply.assayContextEnable : ∀ x0 x1 x2, Statement (.assayContextEnable x0 x1 x2) :=
  fun _ _ _ h => absurd h Bool.false_ne_true
theorem Supply.assayContextDisable : ∀ x0 x1 x2, Statement (.assayContextDisable x0 x1 x2) :=
  fun _ _ _ h => absurd h Bool.false_ne_true
theorem Supply.assayMigGo : ∀ x0, Statement (.assayMigGo x0) := fun _ h => absurd h Bool.false_ne_true
theorem Supply.assayMigCancel : ∀ x0, Statement (.assayMigCancel x0) := fun _ h => absurd h Bool.false_ne_true
theorem Supply.assayMigCopyDone : Statement (.assayMigCopyDone) := fun h => absurd h Bool.false_ne_true
theorem Supply.assayMigHandover : Statement (.assayMigHandover) := fun h => absurd h Bool.false_ne_true
theorem Supply.tacAnnounceRx : ∀ x0 x1, Statement (.tacAnnounceRx x0 x1) := fun _ _ h => absurd h Bool.false_ne_true
theorem Supply.heatCommit : ∀ x0 x1, Statement (.heatCommit x0 x1) := fun _ _ h => absurd h Bool.false_ne_true
theorem Supply.snapshot : ∀ x0, Statement (.snapshot x0) := fun _ h => absurd h Bool.false_ne_true
theorem Supply.counterClear : ∀ x0, Statement (.counterClear x0) := fun _ h => absurd h Bool.false_ne_true
theorem Supply.portEnable : ∀ x0, Statement (.portEnable x0) := fun _ h => absurd h Bool.false_ne_true
theorem Supply.pulse : ∀ x0, Statement (.pulse x0) := fun _ h => absurd h Bool.false_ne_true
theorem Supply.reset : ∀ x0, Statement (.reset x0) := fun _ h => absurd h Bool.false_ne_true
theorem Supply.barrier : ∀ x0, Statement (.barrier x0) := fun _ h => absurd h Bool.false_ne_true
theorem Supply.tacCancel : ∀ x0, Statement (.tacCancel x0) := fun _ h => absurd h Bool.false_ne_true
theorem Supply.tacReportRx : ∀ x0 x1, Statement (.tacReportRx x0 x1) := fun _ _ h => absurd h Bool.false_ne_true
theorem Supply.tacReportDeadline : ∀ x0, Statement (.tacReportDeadline x0) := fun _ h => absurd h Bool.false_ne_true
theorem Supply.tacOriginate : ∀ x0 x1, Statement (.tacOriginate x0 x1) := fun _ _ h => absurd h Bool.false_ne_true
theorem Supply.tacExpectClear : ∀ x0 x1 x2, Statement (.tacExpectClear x0 x1 x2) := fun _ _ _ h => absurd h Bool.false_ne_true
theorem Supply.trig : ∀ x0, Statement (.trig x0) := fun _ h => absurd h Bool.false_ne_true
theorem Supply.atArm : ∀ x0, Statement (.atArm x0) := fun _ h => absurd h Bool.false_ne_true
theorem Supply.atDisarm : ∀ x0, Statement (.atDisarm x0) := fun _ h => absurd h Bool.false_ne_true
theorem Supply.snpAtReached : Statement (.snpAtReached) := fun h => absurd h Bool.false_ne_true
theorem Supply.snapInEdge : ∀ x0, Statement (.snapInEdge x0) := fun _ h => absurd h Bool.false_ne_true
theorem Supply.snpCopyDone : Statement (.snpCopyDone) := fun h => absurd h Bool.false_ne_true
theorem Supply.snpFreeSlot : ∀ x0 x1 x2, Statement (.snpFreeSlot x0 x1 x2) := fun _ _ _ h => absurd h Bool.false_ne_true
theorem Supply.sourceRaise : ∀ x0, Statement (.sourceRaise x0) := fun _ h => absurd h Bool.false_ne_true
theorem Supply.swset : ∀ x0 x1, Statement (.swset x0 x1) := fun _ _ h => absurd h Bool.false_ne_true
theorem Supply.intSourceCfgWrite : ∀ x0 x1 x2, Statement (.intSourceCfgWrite x0 x1 x2) :=
  fun _ _ _ h => absurd h Bool.false_ne_true
theorem Supply.claim : ∀ x0 x1 x2, Statement (.claim x0 x1 x2) := fun _ _ _ h => absurd h Bool.false_ne_true
theorem Supply.eoi : ∀ x0 x1 x2, Statement (.eoi x0 x1 x2) := fun _ _ _ h => absurd h Bool.false_ne_true
theorem Supply.intCoalesceTimeout : ∀ x0, Statement (.intCoalesceTimeout x0) := fun _ h => absurd h Bool.false_ne_true
theorem Supply.pcieL1ExitDone : Statement (.pcieL1ExitDone) := fun h => absurd h Bool.false_ne_true
theorem Supply.pcieD0Return : Statement (.pcieD0Return) := fun h => absurd h Bool.false_ne_true
theorem Supply.getVersion : ∀ x0, Statement (.getVersion x0) := fun _ h => absurd h Bool.false_ne_true
theorem Supply.getHealth : ∀ x0, Statement (.getHealth x0) := fun _ h => absurd h Bool.false_ne_true
theorem Supply.flashRead : ∀ x0 x1 x2 x3, Statement (.flashRead x0 x1 x2 x3) := fun _ _ _ _ h => absurd h Bool.false_ne_true
theorem Supply.flashErase : ∀ x0 x1 x2, Statement (.flashErase x0 x1 x2) := fun _ _ _ h => absurd h Bool.false_ne_true
theorem Supply.flashProgram : ∀ x0 x1 x2 x3 x4, Statement (.flashProgram x0 x1 x2 x3 x4) :=
  fun _ _ _ _ _ h => absurd h Bool.false_ne_true
theorem Supply.cmisRead : ∀ x0 x1 x2 x3 x4, Statement (.cmisRead x0 x1 x2 x3 x4) :=
  fun _ _ _ _ _ h => absurd h Bool.false_ne_true
theorem Supply.cmisWrite : ∀ x0 x1 x2 x3 x4 x5, Statement (.cmisWrite x0 x1 x2 x3 x4 x5) :=
  fun _ _ _ _ _ _ h => absurd h Bool.false_ne_true
theorem Supply.mbxResponse : ∀ x0 x1, Statement (.mbxResponse x0 x1) := fun _ _ h => absurd h Bool.false_ne_true
theorem Supply.ack : ∀ x0, Statement (.ack x0) := fun _ h => absurd h Bool.false_ne_true
theorem Supply.abort : ∀ x0, Statement (.abort x0) := fun _ h => absurd h Bool.false_ne_true
theorem Supply.ringEnable : ∀ x0 x1 x2, Statement (.ringEnable x0 x1 x2) := fun _ _ _ h => absurd h Bool.false_ne_true
theorem Supply.telemetrySample : ∀ x0, Statement (.telemetrySample x0) := fun _ h => absurd h Bool.false_ne_true
theorem Supply.freeze : ∀ x0, Statement (.freeze x0) := fun _ h => absurd h Bool.false_ne_true
theorem Supply.run : ∀ x0, Statement (.run x0) := fun _ h => absurd h Bool.false_ne_true
theorem Supply.snap : ∀ x0, Statement (.snap x0) := fun _ h => absurd h Bool.false_ne_true
theorem Supply.pmcGroupClear : ∀ x0 x1, Statement (.pmcGroupClear x0 x1) := fun _ _ h => absurd h Bool.false_ne_true
theorem Supply.pmcCounterWrap : ∀ x0 x1, Statement (.pmcCounterWrap x0 x1) := fun _ _ h => absurd h Bool.false_ne_true
theorem Supply.upage : ∀ x0 x1, Statement (.upage x0 x1) := fun _ _ h => absurd h Bool.false_ne_true
theorem Supply.bankStateRequest : ∀ x0 x1 x2, Statement (.bankStateRequest x0 x1 x2) :=
  fun _ _ _ h => absurd h Bool.false_ne_true
theorem Supply.bankStateChangeDone : ∀ x0, Statement (.bankStateChangeDone x0) := fun _ h => absurd h Bool.false_ne_true
theorem Supply.bankEccError : ∀ x0 x1 x2, Statement (.bankEccError x0 x1 x2) := fun _ _ _ h => absurd h Bool.false_ne_true
theorem Supply.marchGo : ∀ x0 x1, Statement (.marchGo x0 x1) := fun _ _ h => absurd h Bool.false_ne_true
theorem Supply.marchDone : ∀ x0, Statement (.marchDone x0) := fun _ h => absurd h Bool.false_ne_true
theorem Supply.captRd : ∀ x0 x1, Statement (.captRd x0 x1) := fun _ _ h => absurd h Bool.false_ne_true
theorem Supply.tapInstruction : ∀ x0 x1, Statement (.tapInstruction x0 x1) := fun _ _ _ => ⟨rfl, rfl⟩
theorem Supply.tapReset : Statement (.tapReset) := fun _ => ⟨rfl, rfl⟩
theorem Supply.vinMainRise : Statement (.vinMainRise) := fun _ => ⟨rfl, rfl⟩
theorem Supply.govCapWrite : ∀ x0 x1, Statement (.govCapWrite x0 x1) := fun _ _ h => absurd h Bool.false_ne_true
theorem Supply.govClockRampDone : Statement (.govClockRampDone) := fun h => absurd h Bool.false_ne_true
theorem Supply.laneBitSlip : ∀ x0, Statement (.laneBitSlip x0) := fun _ h => absurd h Bool.false_ne_true
theorem Supply.stepupQualCodewordError : ∀ x0, Statement (.stepupQualCodewordError x0) :=
  fun _ h => absurd h Bool.false_ne_true
theorem Supply.stepupQualLinkFault : ∀ x0, Statement (.stepupQualLinkFault x0) := fun _ h => absurd h Bool.false_ne_true
theorem Supply.synLockAcquired : ∀ x0, Statement (.synLockAcquired x0) := fun _ h => absurd h Bool.false_ne_true
theorem Supply.tdcChannelEnable : ∀ x0 x1 x2, Statement (.tdcChannelEnable x0 x1 x2) :=
  fun _ _ _ h => absurd h Bool.false_ne_true
theorem Supply.puntBucketRefill : Statement (.puntBucketRefill) := fun h => absurd h Bool.false_ne_true
theorem Supply.riserContextEnable : ∀ x0 x1 x2, Statement (.riserContextEnable x0 x1 x2) :=
  fun _ _ _ h => absurd h Bool.false_ne_true
theorem Supply.lagGroupEnable : ∀ x0 x1 x2, Statement (.lagGroupEnable x0 x1 x2) := fun _ _ _ h => absurd h Bool.false_ne_true
theorem Supply.lagMemberWrite : ∀ x0 x1 x2 x3, Statement (.lagMemberWrite x0 x1 x2 x3) :=
  fun _ _ _ _ h => absurd h Bool.false_ne_true
theorem Supply.pinTableWrite : ∀ x0 x1 x2 x3, Statement (.pinTableWrite x0 x1 x2 x3) :=
  fun _ _ _ _ h => absurd h Bool.false_ne_true
theorem Supply.assayMigTReached : Statement (.assayMigTReached) := fun h => absurd h Bool.false_ne_true
theorem Supply.pcieL1Entry : Statement (.pcieL1Entry) := fun h => absurd h Bool.false_ne_true
theorem Supply.pcieD3hotEntry : ∀ x0, Statement (.pcieD3hotEntry x0) := fun _ h => absurd h Bool.false_ne_true
theorem Supply.msixMaskWrite : ∀ x0 x1, Statement (.msixMaskWrite x0 x1) := fun _ _ h => absurd h Bool.false_ne_true

end Sys2Proof.Laws
end

