-- ==== Sys2Proof/Laws/Raise.lean ====
section
/-! SUPPORT. What a raise and a recorded event can change: the interrupt block, the counters, the Snapshot block and what
leaves the device, and nothing else. -/

namespace Sys2Proof.Machine

/-- The registers that a raise can change: those of INT, PMC and SNP, and the Pending Bit Array. -/
def raiseTouches (a : Nat) : Bool := (decide (0x20000 ≤ a) && decide (a < 0x50000)) || decide (a = A.HOST_PBA)

/-- `t` with the parts that a raise can change as they are in `s`. -/
def asBefore (s t : State) : State :=
  { t with regs := s.regs, stamps := s.stamps, timers := s.timers, draws := s.draws, out := s.out, int := s.int,
           pmcWraps := s.pmcWraps, snp := s.snp, mem := s.mem, banks := s.banks }

/-- Between `s` and `t` only what a raise can change has changed. -/
def Quiet (s t : State) : Prop :=
  asBefore s t = s ∧ (∀ a, raiseTouches a = false → t.rd a = s.rd a) ∧
  (∀ x, (∀ n, x ≠ .coalesce n) → t.timer x = s.timer x) ∧ ∃ l, t.out = s.out ++ l

theorem Quiet.refl (s : State) : Quiet s s := ⟨rfl, fun _ _ => rfl, fun _ _ => rfl, [], (List.append_nil _).symm⟩

theorem Quiet.trans {s t u : State} (h : Quiet s t) (g : Quiet t u) : Quiet s u := by
  obtain ⟨l, hl⟩ := h.2.2.2
  obtain ⟨k, hk⟩ := g.2.2.2
  refine ⟨?_, fun a ha => (g.2.1 a ha).trans (h.2.1 a ha), fun x hx => (g.2.2.1 x hx).trans (h.2.2.1 x hx), l ++ k,
    by rw [hk, hl, List.append_assoc]⟩
  have e : asBefore s u = asBefore s (asBefore t u) := rfl
  rw [e, g.1, h.1]

/-- A part that a raise does not touch stays. -/
theorem Quiet.keeps {α : Type} {s t : State} (h : Quiet s t) (f : State → α) (hf : ∀ u, f (asBefore s u) = f u) :
    f t = f s := by rw [← hf t, h.1]

theorem Quiet.rd {s t : State} (h : Quiet s t) {a : Nat} (ha : raiseTouches a = false) : t.rd a = s.rd a := h.2.1 a ha

theorem Quiet.fld {s t : State} (h : Quiet s t) {a : Nat} (hi lo : Nat) (ha : raiseTouches a = false) :
    t.fld a hi lo = s.fld a hi lo := by simp only [State.fld, h.rd ha]

theorem Quiet.bit {s t : State} (h : Quiet s t) {a : Nat} (i : Nat) (ha : raiseTouches a = false) :
    t.bit a i = s.bit a i := by simp only [State.bit, h.rd ha]

/-! The steps of a raise. -/

theorem quiet_stamps (s : State) (l : List (Nat × Nat)) : Quiet s { s with stamps := l } :=
  ⟨rfl, fun _ _ => rfl, fun _ _ => rfl, [], (List.append_nil _).symm⟩

theorem quiet_snp (s : State) (p : SnpHidden) : Quiet s { s with snp := p } := ⟨rfl, fun _ _ => rfl, fun _ _ => rfl, [], (List.append_nil _).symm⟩

theorem quiet_wr (s : State) {a : Nat} (v : Nat) (h : raiseTouches a = true) : Quiet s (s.wr a v) :=
  ⟨rfl, fun b hb => rd_wr_ne s v (by rintro rfl; simp [h] at hb), fun _ _ => rfl, [], (List.append_nil _).symm⟩

theorem quiet_setFld (s : State) {a : Nat} (hi lo v : Nat) (h : raiseTouches a = true) : Quiet s (s.setFld a hi lo v) :=
  quiet_wr s _ h

theorem quiet_setBit (s : State) {a : Nat} (i : Nat) (b : Bool) (h : raiseTouches a = true) : Quiet s (s.setBit a i b) :=
  quiet_wr s _ h

theorem quiet_emit (s : State) (o : Out) : Quiet s (s.emit o) := ⟨rfl, fun _ _ => rfl, fun _ _ => rfl, [o], rfl⟩

theorem quiet_draw (s : State) : Quiet s s.draw.2 := ⟨rfl, fun _ _ => rfl, fun _ _ => rfl, [], (List.append_nil _).symm⟩

theorem quiet_pick {α : Type} (s : State) (d : α) (l : List α) : Quiet s (s.pick d l).2 := by
  match l with
  | [] => exact Quiet.refl s
  | [_] => exact Quiet.refl s
  | _ :: _ :: _ => exact quiet_draw s

theorem quiet_stop (s : State) (n : Nat) : Quiet s (s.stop (.coalesce n)) := by
  refine ⟨rfl, fun _ _ => rfl, fun x hx => ?_, [], (List.append_nil _).symm⟩
  simp only [State.timer, State.stop, List.find?_filter]
  congr 2
  funext e
  by_cases h : e.1 = x
  · subst h; simp [hx n]
  · simp [h]

theorem quiet_start (s : State) (n k : Nat) : Quiet s (s.start (.coalesce n) k) := by
  refine ⟨rfl, fun _ _ => rfl, fun x hx => ?_, [], (List.append_nil _).symm⟩
  have h := (quiet_stop s n).2.2.1 x hx
  simp only [State.timer, State.stop] at h
  simp only [State.timer, State.start]
  rw [List.find?_cons_of_neg (by simpa using fun e => hx n e.symm), h]

theorem quiet_pmcEvent (s : State) (g ev n : Nat) (h : g < 24) : Quiet s (s.pmcEvent g ev n) := by
  obtain ⟨m, w, hs, hr⟩ := pmcEvent_shape s g ev n
  refine ⟨by rw [hs]; rfl, fun a ha => hr a ?_, fun x _ => by rw [hs]; rfl, [], by rw [hs]; exact (List.append_nil _).symm⟩
  simp only [raiseTouches, Bool.or_eq_false_iff, Bool.and_eq_false_iff, decide_eq_false_iff_not] at ha
  simp only [A.PMC_CTR_LO, A.PMC_CYC_LO]
  omega

theorem touches_next (t : Nat) (h : t < 64) : raiseTouches (A.INT_T_NEXT t) = true := by
  have h' : 0x20000 ≤ A.INT_T_NEXT t ∧ A.INT_T_NEXT t < 0x50000 := by unfold A.INT_T_NEXT; omega
  simp [raiseTouches, h'.1, h'.2]

theorem touches_pend (i : Nat) (h : i < 1024) : raiseTouches (A.INT_PEND (i / 32)) = true := by
  have h' : 0x20000 ≤ A.INT_PEND (i / 32) ∧ A.INT_PEND (i / 32) < 0x50000 := by unfold A.INT_PEND; omega
  simp [raiseTouches, h'.1, h'.2]

theorem quiet_setCount (s : State) (t n : Nat) : Quiet s (setCount s t n) := ⟨rfl, fun _ _ => rfl, fun _ _ => rfl, [], (List.append_nil _).symm⟩

theorem quiet_sendMsix (s : State) (n : Nat) : Quiet s (sendMsix s n) :=
  (quiet_emit s _).trans (quiet_pmcEvent _ 22 0x300 1 (by decide))

theorem quiet_routeMsix (s : State) (n : Nat) : Quiet s (routeMsix s n) := by
  have hh : ∀ v, Quiet s { s with int := v } := fun _ => ⟨rfl, fun _ _ => rfl, fun _ _ => rfl, [], (List.append_nil _).symm⟩
  unfold routeMsix
  split
  · exact Quiet.refl s
  · exact quiet_sendMsix s n
  · exact hh _
  · exact hh _
  · simp only []
    split
    · exact (hh _).trans (quiet_emit _ _)
    · exact hh _

/-- A notification changes nothing outside. -/
theorem quiet_notify (s : State) (t i : Nat) (h : t < 64) : Quiet s (notify s t i) := by
  unfold notify
  simp only []
  have h0 : Quiet s ((setCount (latchNext s t i) t 0).stop (.coalesce t)) :=
    ((quiet_wr s _ (touches_next t h)).trans (quiet_setCount _ t 0)).trans (quiet_stop _ t)
  split
  · split
    · exact h0.trans (quiet_setBit _ _ _ (by decide))
    · exact h0.trans (quiet_routeMsix _ _)
  · exact h0

theorem quiet_countRaise (s : State) (t i : Nat) (h : t < 64) : Quiet s (countRaise s t i) := by
  unfold countRaise
  simp only []
  split
  · exact quiet_notify s t i h
  · split
    · exact (quiet_setCount s t _).trans (quiet_start _ t _)
    · exact quiet_setCount s t _

theorem srcTarget_lt (s : State) (i : Nat) : srcTarget s i < 64 := by
  simp only [srcTarget, State.fld, bits]
  omega

theorem quiet_offer (s : State) (t i : Nat) (h : t < 64) : Quiet s (offer s t i) := by
  unfold offer
  split
  · split
    · exact quiet_countRaise s t i h
    · split
      · exact quiet_notify s t i h
      · exact Quiet.refl s
  · exact Quiet.refl s

/-- Everything that a raise can do, but for the ingot trigger. -/
theorem quiet_raiseSource (s : State) (i : Nat) (h : i < 1024) : Quiet s (raiseSource s i) := by
  unfold raiseSource
  split
  · exact (quiet_setBit s _ _ (touches_pend i h)).trans (quiet_offer _ _ i (srcTarget_lt s i))
  · exact Quiet.refl s

/-- A recorded event changes its register and the stamps. -/
theorem quiet_record (s : State) {evt : Nat} (mask : Nat) (h : raiseTouches evt = true) : Quiet s (s.record evt mask) := by
  unfold State.record
  split
  · exact Quiet.refl s
  · exact (quiet_wr s _ h).trans (quiet_stamps _ _)

theorem quiet_snpEvent (s : State) (mask : Nat) : Quiet s (snpEvent s mask) := by
  unfold snpEvent State.eventQuiet
  simp only []
  split
  · exact quiet_record s mask (by decide)
  · exact (quiet_record s mask (by decide)).trans (quiet_raiseSource _ 52 (by decide))

theorem quiet_add64 (s : State) {a : Nat} (n : Nat) (h : raiseTouches a = true) (h' : raiseTouches (a + 4) = true) :
    Quiet s (s.add64 a n) := (quiet_wr s _ h).trans (quiet_wr _ _ h')

theorem quiet_missTrigger (s : State) (src cause : Nat) : Quiet s (missTrigger s src cause) := by
  have h0 : Quiet s (s.add64 A.SNP_MISSED_LO 1) := quiet_add64 s 1 (by decide) (by decide)
  unfold missTrigger
  simp only []
  split
  · exact quiet_wr s _ (by decide)
  · exact ((h0.trans (quiet_wr _ _ (by decide))).trans (quiet_snp _ _)).trans (quiet_snpEvent _ 2)

theorem quiet_putBank (l : List Nat) : ∀ (s : State) (b i : Nat), Quiet s (s.putBank b i l) := by
  induction l with
  | nil => exact fun s _ _ => Quiet.refl s
  | cons v l ih =>
    exact fun s b i => Quiet.trans (t := s.putBankByte b i (BitVec.ofNat 8 v)) ⟨rfl, fun _ _ => rfl, fun _ _ => rfl, [], (List.append_nil _).symm⟩ (ih _ b (i + 1))

theorem quiet_latchSection (s : State) (x : SnpSect) : Quiet s (latchSection s x).2 := by
  have h : ∀ (t : State) (st : Nat), Quiet s t → Quiet s (if st = 0 then t else snpEvent t 4) := fun t st ht => by
    split
    · exact ht
    · exact ht.trans (quiet_snpEvent t 4)
  unfold latchSection
  cases zoneOf x.addr with
  | some _ => exact h _ _ (Quiet.refl s)
  | none => exact h _ _ (quiet_draw s)

theorem quiet_latchAll (till : Nat) (l : List SnpSect) : ∀ s : State, Quiet s (latchAll s till l).2 := by
  induction l with
  | nil => exact fun s => Quiet.refl s
  | cons x l ih =>
    intro s
    simp only [latchAll]
    split
    · exact (quiet_latchSection s x).trans (ih _)
    · exact ih s

theorem quiet_latchUpTo (s : State) (till : Nat) : Quiet s (latchUpTo s till) := by
  unfold latchUpTo
  split
  · exact Quiet.refl s
  simp only []
  have h0 := (quiet_latchAll till s.snp.sects s).trans (quiet_snp _ { (latchAll s till s.snp.sects).2.snp with
    sects := (latchAll s till s.snp.sects).1 })
  generalize ({ (latchAll s till s.snp.sects).2 with snp := _ } : State) = x at h0 ⊢
  split
  · have h1 := h0.trans (quiet_setFld x 31 28 2 (a := A.SNP_STAT) (by decide))
    split
    · exact h1.trans (quiet_emit _ _)
    · exact h1
  · exact h0

theorem quiet_setSlot (s : State) (k : Nat) (v : Bool) (h : k < 64) : Quiet s (setSlot s k v) := by
  have hk : raiseTouches (A.SNP_VALID (k / 32)) = true := by
    have : k / 32 = 0 ∨ k / 32 = 1 := by omega
    rcases this with e | e <;> rw [e] <;> decide
  exact (quiet_setBit s _ v hk).trans (quiet_setFld _ _ _ _ (by decide))

theorem nextSlot_lt {s : State} {k : Nat} (h : nextSlot s = some k) : k < 64 := by
  have := List.mem_of_find?_eq_some h
  simp only [List.mem_map, List.mem_range] at this
  obtain ⟨i, _, rfl⟩ := this
  omega

/-- What is latched at a trigger changes nothing outside, whatever state `y` frees the slot. -/
theorem quiet_latchFrom {s y : State} (h : Quiet s y) (p : SnpHidden) (till : Nat) :
    Quiet s (latchUpTo (({ y with snp := p } : State).setFld A.SNP_STAT 31 28 1) till) :=
  ((h.trans (quiet_snp y p)).trans (quiet_setFld _ 31 28 1 (by decide))).trans (quiet_latchUpTo _ till)

theorem quiet_latchIngot (s : State) (k src tag t : Nat) (h : k < 64) : Quiet s (latchIngot s k src tag t) :=
  quiet_latchFrom ((quiet_putBank _ _ _ _).trans (quiet_setSlot _ k false h)) _ _

/-- Everything that a trigger can do. -/
theorem quiet_trigger (s : State) (src tag t : Nat) : Quiet s (trigger s src tag t).1 := by
  have hm : ∀ c, Quiet s (missTrigger s src c, false).1 := fun c => quiet_missTrigger s src c
  have hl : ∀ k, k < 64 → Quiet s (latchIngot s k src tag t, true).1 := fun k h => by
    have := quiet_latchIngot s k src tag t h
    generalize latchIngot s k src tag t = u at this ⊢
    exact this
  have hj : Quiet s (joinIngot s src tag t, true).1 := quiet_snp s _
  unfold trigger
  generalize hx : nextSlot s = x
  generalize missTrigger s src = miss at hm ⊢
  generalize joinIngot s src tag t = join at hj ⊢
  split
  · exact hm 3
  split
  · exact hj
  split
  · exact hm 1
  · cases x with
    | none => exact hm 2
    | some k =>
      simp only []
      split
      · exact hm 4
      · split
        · exact hm 5
        · exact hl k (nextSlot_lt hx)

/-- Everything that a raise can do. -/
theorem quiet_raise (s : State) (i : Nat) (h : i < 1024) : Quiet s (s.raise i) := by
  unfold State.raise
  simp only []
  split
  · exact (quiet_raiseSource s i h).trans (quiet_trigger _ _ _ _)
  · exact quiet_raiseSource s i h

/-- What an event leaves: its register with the event recorded, and what a raise can change. -/
theorem quiet_event (s : State) (evt en src mask forced : Nat) (h : src < 1024) :
    Quiet (s.record evt mask) (s.event evt en src mask forced) := by
  unfold State.event
  simp only []
  split
  · exact Quiet.refl _
  · exact quiet_raise _ src h

theorem rd_stamps (s : State) (l : List (Nat × Nat)) (a : Nat) : ({ s with stamps := l } : State).rd a = s.rd a := rfl

theorem rd_record_ne (s : State) {a evt : Nat} (mask : Nat) (h : a ≠ evt) : (s.record evt mask).rd a = s.rd a := by
  unfold State.record
  split
  · rfl
  · simp only []
    rw [rd_stamps, rd_wr_ne s _ h]

/-- An event keeps every register but its own and those that a raise can change. -/
theorem rd_event (s : State) {a evt : Nat} (en src mask forced : Nat) (h : src < 1024) (ha : raiseTouches a = false)
    (hne : a ≠ evt) : (s.event evt en src mask forced).rd a = s.rd a := by
  rw [(quiet_event s evt en src mask forced h).rd ha, rd_record_ne s mask hne]

end Sys2Proof.Machine
end

