-- ==== Sys2Proof/Tests/Slice0.lean ====
section
/-! SUPPORT. The witnesses of the statements, the examples of the manual, and the terms that are not well formed. -/

open Sys2Proof Sys2Proof.Machine
set_option Elab.async false
set_option linter.unusedVariables false
set_option maxRecDepth 4000
namespace Sys2Proof.Tests

/-- The device after reset with its data die running, its host link at L0 and the given register words in place. -/
def on (l : List (Nat × Word)) : State :=
  { State.reset with
    regs := l
    power := { State.reset.power with die := true }
    int := { State.reset.int with link := .l0 } }

/-- The data die in the given state of GLB.BOOT_STAT. -/
def boot (n : Nat) : State := on [(A.GLB_BOOT_STAT, BitVec.ofNat 32 n)]

/-- RUN. -/
def run : State := boot 5

/-- A state in which timing core 0 drives TCLK. -/
def coreOn (s : State) : State := s.setFld A.TCO_STAT 6 4 4

/-- RUN with TCLK. -/
def driven : State := coreOn run

/-- RUN at a later time of TB0. -/
def late : State := { run with now := 1000000000, tbs := [(0, { acc := 2 ^ 100 })] }

/-- A timer that is due. -/
def tick (s : State) (t : Timer) : State := { s with timers := [(t, 0)] }

/-- RUN with a port UP at a type. -/
def up (p ty : Nat) : State := (setPortState run p 2).setFld (A.PORT_STAT p) 27 24 ty

/-- RUN with a port that negotiates. -/
def neg63 : State :=
  (((setPortState run 63 1).setFld (A.PORT_CFG 63) 5 4 1).setFld (A.PORT_CFG 63) 3 0 8).setBit (A.PORT_STAT 63) 16 true

/-- A step-up page (R100): SIG, version, width 1; its CRC was computed apart from the model. -/
def goodPage : List Nat := [0x53, 0x55, 0x50, 1, 0, 0, 0, 0, 0, 0, 1] ++ List.replicate 17 0 ++ [0xA6, 0x96, 0x84, 0x9A]

/-- The blocks that carry it. -/
def goodBlocks : List (BitVec 2 × List Byte) := (pageBlocks goodPage).map fun x => (BitVec.ofNat 2 x.1, ofNats x.2)

/-- A marker of logical lane 0 with MSEQ 0 and no credits (R103); its CHECK was computed apart from the model. -/
def goodMarkerBytes : List Nat := [0x4D, 0x52, 0x4B, 0, 0, 0, 0x62, 0x04] ++ List.replicate 24 0

/-- The shortest frame, with its FCS. -/
def goodFrame : List Byte :=
  let d := 2 :: List.replicate 59 0
  ofNats (d ++ fcsOf d)

def quietStamp : RxStamp := ⟨0, 0, 0, 0⟩

/-- A stored frame, and a copy of it. -/
def fr : Frame where
  id := 1
  bytes := ofNats (List.replicate 64 0)
  inPort := 0
  tIn := 0
  tsq := 0
  tRef := 0
  heat := none
  slot := none
  orphan := false
  pass := 0
  tc := 7
  ll := false
  fields := []
  frag := false
  tag := none
  done := 0
  bad := false
  pool := .none

def cp (dest : Dest) (e q : Nat) (loc : Loc) : Pkt := ⟨1, 1, dest, e, q, loc, none, none, none, none, false, false, 0⟩

def holding (l : List Pkt) (f : Frame) : State := { run with buf := { frames := [f], pkts := l } }

/-- LAG group 31: enabled, SPREAD, with slot 15 on port 63, which is UP. -/
def spreadGroup : State :=
  ((up 63 1).wr (A.SPR_GRP_CFG 31) 0xC0000000).wr (A.SPR_GRP_MEM 31 15) 0x8000003F

/-- A set of a pulse output, in mode `mode`; and one that aligns. -/
def pset (mode : Nat) : PlsSet := ⟨mode * 2 ^ 28, 0, 65536 * 100, 2000, 1, 0, 0⟩

def aset : PlsSet := ⟨0x10440000, 0, 65536 * 100, 2000, 1, 0, 0⟩

def idleMeas : Meas := ⟨0, 0, 0, none, [], 0, false, false⟩

def hrec : HeatRec := ⟨1, 0, none, false, none⟩

def arec : AsyRec := ⟨0, 0, 0, 1, false, 0, 0, 0⟩

/-- A PTP message of a type with the given low byte of flagField, for port 64 where it names one. -/
def ptpMsg (kind flags : Nat) : List Byte :=
  ofNats (kind :: List.replicate 5 0 ++ [flags] ++ List.replicate 46 0 ++ [64])

/-- RUN with HBM3E stack 3 trained, of which one region is healthy. -/
def fewRegions : State :=
  [21, 22, 23, 24, 25, 26].foldl (fun s i => s.wr (A.DBF_RETIRED i) 0xFFFFFFFF)
    ((run.setBit A.DBF_STAT 27 true).wr (A.DBF_RETIRED 27) 0x7FFFFFFF)

/-- A device whose serial number is 0. -/
def withSerial (s : State) : State := { s with regs := (A.GLB_SERIAL_LO, 0) :: (A.GLB_SERIAL_HI, 0) :: s.regs }

/-- A synthesizer that aligns on the PPS of reference 0. -/
def alignSyn : State :=
  ((((driven.setFld (A.PLL_SYN_STAT 7) 31 28 2).setFld (A.PLL_SYN_CFG 7) 25 24 2).setFld (A.PLL_SYN_CFG 7) 23 21 1).wr
    (A.REF_FREQ 0) 1)

/-- A pulse output that aligns on the PPS of reference 0 with the set `p`. -/
def alignPulse (p : PlsSet) : State :=
  ((putOut driven 31 { active := some p, next := some 0 }).setFld (A.PLS_OUT_STAT 31) 31 28 2).wr (A.REF_FREQ 0) 1

/-- The aligning set with a period in 2^-16 ns and an OFFSET in ps. -/
def psetOf (period offset : Nat) : PlsSet := { aset with period := period, offset := offset }

/-- Where an output's grid lies `c` from its target, its measured error is `c` and at most 10 ps more or less, wrapped. -/
theorem pulseError_of (s : State) (k : Nat) (p : PlsSet) (x : Nat) (per : Nat) (c : Int) (hp : p.periodU = per)
    (hc : (gridEdge (s.out1 k) p : Int) - x - p.offsetU = c) : ∃ d : Int, -655360 ≤ d ∧ d ≤ 655360 ∧
    (pulseError s k p x).1 = if 2 * ((c + d) % per) ≤ per then (c + d) % per else (c + d) % per - per := by
  refine ⟨(edgeError s).1, ?_, ?_, ?_⟩
  · simp only [edgeError, State.draw, psU]; omega
  · simp only [edgeError, State.draw, psU]; omega
  · have hk : ∀ j, (edgeError s).2.out1 j = s.out1 j := fun _ => rfl
    have : (gridEdge (s.out1 k) p : Int) + (edgeError s).1 - x - p.offsetU = c + (edgeError s).1 := by omega
    simp only [pulseError, wrapPulse, hp, hk, this]

/-- An edge within 5 ps: a period that admits no larger error. -/
theorem near_edge : ∃ (s : State) (k : Fin 32) (f : Bool) (late : Fin 2000) (p : PlsSet), tclkRuns s = true ∧
    (s.out1 k.val).active = some p ∧ plsAlignAdmits s k.val p f = true ∧
    (pulseError s k.val p (tbAt s p.base late.val)).1.natAbs ≤ 5 * psU := by
  obtain ⟨d, h1, h2, h⟩ := pulseError_of (alignPulse (psetOf 655 0)) 31 (psetOf 655 0)
    (tbAt (alignPulse (psetOf 655 0)) 0 0) 655000 (0) (by decide +kernel) (by decide +kernel)
  refine ⟨alignPulse (psetOf 655 0), 31, false, 0, psetOf 655 0, by decide +kernel, by decide +kernel,
    by decide +kernel, (congrArg (fun e : Int => e.natAbs ≤ 5 * psU) h).mpr ?_⟩
  simp only [psU]
  split <;> omega

/-- An edge further than 5 ps from its target, half a period away. -/
theorem far_edge : ∃ (s : State) (k : Fin 32) (f : Bool) (late : Fin 2000) (p : PlsSet), tclkRuns s = true ∧
    (s.out1 k.val).active = some p ∧ plsAlignAdmits s k.val p f = true ∧
    5 * psU < (pulseError s k.val p (tbAt s p.base late.val)).1.natAbs := by
  obtain ⟨d, h1, h2, h⟩ := pulseError_of (alignPulse (psetOf 6553 50)) 31 (psetOf 6553 50)
    (tbAt (alignPulse (psetOf 6553 50)) 0 0) 6553000 (-3276800) (by decide +kernel) (by decide +kernel)
  refine ⟨alignPulse (psetOf 6553 50), 31, false, 0, psetOf 6553 50, by decide +kernel, by decide +kernel,
    by decide +kernel, (congrArg (fun e : Int => 5 * psU < e.natAbs) h).mpr ?_⟩
  simp only [psU]
  split <;> omega

/-- A scheduled action of a kind in slot 15. -/
def act (kind : Nat) : TacAct where
  id := 1
  slot := some 15
  orig := 1
  actId := 1
  hops := 0
  kind := kind
  t := 0
  lateOk := false
  report := false
  wait := 0
  args := []
  src := none
  result := none
  begun := false
  late := false
  sent := []
  heard := []
  lost := 0
  sums := []
  first := none
  closed := false

/-- A state that holds the action of a kind; one whose loops 4 and 6 are unlocked. -/
def acting (kind : Nat) (s : State) : State := { s with tac := { acts := [act kind] } }

def stopped : State := putLoop (putLoop run 4 { stopped := true }) 6 { stopped := true }

/-- The turn of action `x`, which entry `k` holds, has come. -/
def fires (s : State) (k : Nat) (x : TacAct) : Bool :=
  s.power.die && decide (slotAct s k = some x) && actDue s x && actTurn s x

/-- A frame for TAC with its FCS. -/
def tacFrame (body : List Nat) : List Byte :=
  let d := List.replicate 12 0 ++ [0x88, 0xB5] ++ body
  ofNats (d ++ fcsOf d)

/-- An announcement of a barrier action with its CHECK, and a report of all zeros for it. -/
def news : List Byte := tacFrame (announcement { act 8 with args := List.replicate 32 0 } false 0)
def report : List Byte := tacFrame (withCheck ([5, 0x10, 0, 1, 0, 1] ++ List.replicate 46 0))

/-- Port 63 is the upstream port. -/
def treeUp : State := ((up 63 1).setFld (tbSrc 0) 3 0 1).setFld (tbSrc 0) 21 16 63

/-- A node that holds the action of `report`. -/
def treeHolds (a : TacAct) : State := { treeUp with tac := { acts := [a] } }

/-- What a received frame hands to TAC. -/
def payload (s : State) (b : List Byte) (sub : Nat) : List Nat := ((tacReceive s 63 b sub).2).getD []

def isDone : WriteRes → Bool
  | .does _ => true
  | _ => false

def isRefused : WriteRes → Bool
  | .refuse => true
  | _ => false

def isPlain : WriteRes → Bool
  | .plain => true
  | _ => false

theorem plain_of {e : WriteRes} (h : isPlain e = true) : e = .plain := by
  cases e <;> first | rfl | cases h

/-! Each statement with hypotheses, and each clause of it, has a state and operands that meet them. -/

theorem witness_StepRunsTheFrontCommand :
    ∃ (c : Instr) (rest : List Instr) (s : State), (s.pending = c :: rest) :=
  ⟨.vinKaLoss, [.tapReset], { run with pending := [.vinKaLoss, .tapReset] }, by decide +kernel⟩

theorem witness_EmptyQueueIdles :
    ∃ (s : State), (s.pending = []) :=
  ⟨State.reset, by decide +kernel⟩

theorem witness_StepKeepsCanonicalForm :
    ∃ s t : State, s.canonical = true ∧ s.regs ≠ [] ∧ step s = .next t :=
  ⟨{ run with pending := [.tbAdvance 1] }, _, by decide +kernel, by decide +kernel, rfl⟩

theorem witness_StepKeepsInvariant :
    ∃ s t : State, State.inv s ∧ step s = .next t :=
  ⟨State.reset, State.reset, by unfold State.inv; decide, rfl⟩

theorem witness_ResetStateIsAsStated :
    ∃ a row, rowOf a = some row ∧ row.fuse = false ∧ a ≠ A.GLB_BOOT_STAT :=
  ⟨0x78100, (rowOf 0x78100).get (by decide +kernel), by decide +kernel⟩

theorem witness_UnsuppliedDeviceIsInert :
    ∃ (c : Instr) (s : State), (s.power.die = false) ∧ (s.power.ka = false) ∧ (outsideCommand c = false) :=
  ⟨.trig .host, { State.reset with power := { State.reset.power with ka := false } }, by decide +kernel⟩

theorem witness_StoppedDataDieIsInert :
    ∃ (c : Instr) (s : State), (s.power.die = false) ∧ (timingDieCommand c = false) :=
  ⟨.trig .host, State.reset, by decide +kernel⟩

theorem witness_PlainRegisterWrite :
    ∃ (s : State) (r : Req) (a : BitVec 32) (v : Word) (row : RegRow), s.listens r a.toNat = true ∧ a.toNat % 4 = 0 ∧
    rowOf a.toNat = some row ∧ row.acc = .rw ∧ writeEffect (heard s r 1) r a.toNat v.toNat = .plain :=
  ⟨run, .host, 0x78100#32, 1#32, (rowOf 0x78100).get (by decide +kernel), by decide +kernel, by decide +kernel,
    by decide +kernel, by decide +kernel, plain_of (by decide +kernel)⟩

theorem witness_ReadOnlyRegisterWrite :
    ∃ (s : State) (r : Req) (a : BitVec 32) (row : RegRow), (s.listens r a.toNat = true) ∧ (a.toNat % 4 = 0) ∧
    (rowOf a.toNat = some row) ∧ (row.acc = .ro) :=
  ⟨run, .host, 4#32, (rowOf 4).get (by decide +kernel), by decide +kernel⟩

theorem witness_CounterWrite :
    ∃ (s : State) (r : Req) (a : BitVec 32) (row : RegRow), (s.listens r a.toNat = true) ∧ (a.toNat % 4 = 0) ∧
    (rowOf a.toNat = some row) ∧ (row.acc = .cnt) :=
  ⟨run, .host, 0x50#32, (rowOf 0x50).get (by decide +kernel), by decide +kernel⟩

theorem witness_WriteOnlyRegisterWrite :
    (∃ (s : State) (r : Req) (a : BitVec 32) (v : Word) (row : RegRow), rowOf a.toNat = some row ∧ row.acc = .wo ∧
      s.listens r a.toNat = true ∧ a.toNat % 4 = 0 ∧ isDone (writeEffect (heard s r 1) r a.toNat v.toNat) = true) ∧
    (∃ (s : State) (r : Req) (a : BitVec 32) (v : Word) (row : RegRow), rowOf a.toNat = some row ∧ row.acc = .wo ∧
      s.listens r a.toNat = true ∧ a.toNat % 4 = 0 ∧ isRefused (writeEffect (heard s r 1) r a.toNat v.toNat) = true) :=
  ⟨⟨run, .host, 0x110010#32, 0#32, (rowOf 0x110010).get (by decide +kernel), by decide +kernel⟩,
    ⟨run, .host, 0x20108#32, 0#32, (rowOf 0x20108).get (by decide +kernel), by decide +kernel⟩⟩

theorem witness_WritesTurnedAway :
    (∃ (s : State) (r : Req) (a : BitVec 32), (reaches s r = true) ∧ (waitsAtCore s r = false) ∧
      (mapped a.toNat = false)) ∧
    (∃ (s : State) (r : Req) (a : BitVec 32) (bytes : Nat), (reaches s r = true) ∧ (waitsAtCore s r = false) ∧
      (mapped a.toNat = true) ∧ (gateOpen s r a.toNat = true) ∧ (bytes < 4) ∧ (a.toNat % 4 + bytes ≤ 4)) ∧
    (∃ (s : State) (r : Req) (a : BitVec 32) (bytes : Nat), (reaches s r = true) ∧ (waitsAtCore s r = false) ∧
      (mapped a.toNat = true) ∧ (gateOpen s r a.toNat = true) ∧ (bytes < 4) ∧ (4 < a.toNat % 4 + bytes)) ∧
    (∃ (s : State) (r : Req) (a : BitVec 32) (bytes : Nat), (reaches s r = true) ∧ (waitsAtCore s r = false) ∧
      (mapped a.toNat = true) ∧ (gateOpen s r a.toNat = true) ∧ (inTbl a.toNat = false) ∧ (4 ≤ bytes) ∧ (bytes ≤ 8) ∧
      (¬(bytes = 4 ∧ a.toNat % 4 = 0)) ∧ (¬(bytes = 8 ∧ a.toNat % 8 = 0))) ∧
    (∃ (s : State) (r : Req) (a : BitVec 32) (bytes : Nat), (reaches s r = true) ∧ (waitsAtCore s r = false) ∧
      (mapped a.toNat = true) ∧ (gateOpen s r a.toNat = true) ∧ (inTbl a.toNat = false) ∧ (bytes = 8) ∧
      (a.toNat % 8 = 0) ∧ (isGrd a.toNat = true ∨ isGrd (a.toNat + 4) = true)) ∧
    (∃ (s : State) (r : Req) (a : BitVec 32) (bytes : Nat), (reaches s r = true) ∧ (waitsAtCore s r = false) ∧
      (mapped a.toNat = true) ∧ (gateOpen s r a.toNat = true) ∧ (inTbl a.toNat = false) ∧ (8 < bytes)) ∧
    (∃ (s : State) (r : Req) (a : BitVec 32) (bytes : Nat), (reaches s r = true) ∧ (waitsAtCore s r = false) ∧
      (mapped a.toNat = true) ∧ (gateOpen s r a.toNat = true) ∧ (inTbl a.toNat = true) ∧ (4 ≤ bytes) ∧
      (a.toNat % 4 ≠ 0 ∨ bytes % 4 ≠ 0)) ∧
    (∃ (s : State) (r : Req) (a : BitVec 32) (bytes : Nat), (reaches s r = true) ∧ (waitsAtCore s r = false) ∧
      (mapped a.toNat = true) ∧ (gateOpen s r a.toNat = true) ∧ (inTbl a.toNat = true) ∧ (4 ≤ bytes) ∧
      (a.toNat % 4 = 0) ∧ (bytes % 4 = 0) ∧ (64 < a.toNat % 64 + bytes)) ∧
    (∃ (s : State) (r : Req) (a : BitVec 32) (bytes : Nat) (data : List Word), (reaches s r = true) ∧
      (waitsAtCore s r = false) ∧ (mapped a.toNat = true) ∧ (gateOpen s r a.toNat = true) ∧ (bytes = 4) ∧
      (a.toNat % 4 = 0) ∧ (data.length = 1) ∧ (s.listens r a.toNat = true) ∧ (isPortAperture a.toNat = false) ∧
      (isLaneAperture a.toNat = false) ∧ (rowOf a.toNat = none) ∧ (isComplement a.toNat = false)) :=
  ⟨⟨run, .host, 0xFFFFFFFC#32, by decide +kernel⟩,
    ⟨run, .host, 0x101#32, 3, by decide +kernel⟩,
    ⟨run, .host, 0x102#32, 3, by decide +kernel⟩,
    ⟨run, .host, 0x102#32, 4, by decide +kernel⟩,
    ⟨run, .host, 0x18#32, 8, by decide +kernel⟩,
    ⟨run, .host, 0x100#32, 12, by decide +kernel⟩,
    ⟨run, .host, 0x2000000#32, 5, by decide +kernel⟩,
    ⟨run, .host, 0x2000004#32, 64, by decide +kernel⟩,
    ⟨run, .host, 0xFFC#32, 4, [0#32], by decide +kernel⟩⟩

theorem witness_WritesOfSeveralWords :
    (∃ (s : State) (r : Req) (a : BitVec 32) (v w : Word) (row row' : RegRow), s.listens r a.toNat = true ∧
      s.nodeOpen (a.toNat + 4) = true ∧ a.toNat % 8 = 0 ∧ inTbl a.toNat = false ∧ rowOf a.toNat = some row ∧
      row.acc = .rw ∧ rowOf (a.toNat + 4) = some row' ∧ row'.acc = .rw ∧
      isPlain (writeEffect (heard s r 1) r a.toNat v.toNat) = true ∧
      isPlain (writeEffect ((heard s r 1).wr a.toNat (v.toNat &&& row.mask)) r (a.toNat + 4) w.toNat) = true) ∧
    (∃ (s : State) (r : Req) (a : BitVec 32) (data : List Word), (reaches s r = true) ∧ (waitsAtCore s r = false) ∧
      (gateOpen s r a.toNat = true) ∧ (mapped a.toNat = true) ∧ (inTbl a.toNat = true) ∧ (a.toNat % 4 = 0) ∧
      (0 < data.length) ∧ (a.toNat % 64 + 4 * data.length ≤ 64)) :=
  ⟨⟨run, .host, 0x60060#32, 5#32, 5#32, (rowOf 0x60060).get (by decide +kernel),
      (rowOf 0x60064).get (by decide +kernel), by decide +kernel⟩,
    ⟨run, .host, 0x2000000#32, List.replicate 16 0#32, by decide +kernel⟩⟩

theorem witness_FtimeCommit :
    (∃ (s : State) (r : Req) (a : BitVec 32) (v : Word) (row : RegRow) (w : Nat), s.listens r a.toNat = true ∧
      a.toNat % 4 = 0 ∧ rowOf a.toNat = some row ∧ row.acc = .ftime w ∧ w ≠ 0 ∧
      writeEffect (heard s r 1) r a.toNat v.toNat = .plain) ∧
    (∃ (s : State) (r : Req) (a : BitVec 32) (w0 : Word) (row : RegRow), s.listens r a.toNat = true ∧
      a.toNat % 4 = 0 ∧ 8 ≤ a.toNat ∧ rowOf a.toNat = some row ∧ row.acc = .ftime 0 ∧ w0.toNat < 1000000000 ∧
      entryOf a.toNat (A.TIM_TB_SET_W0 0) 0x10 8 = none ∧ writeEffect (heard s r 1) r a.toNat w0.toNat = .plain) ∧
    (∃ (s : State) (r : Req) (a : BitVec 32) (w0 : Word) (row : RegRow), s.listens r a.toNat = true ∧
      a.toNat % 4 = 0 ∧ rowOf a.toNat = some row ∧ row.acc = .ftime 0 ∧ 1000000000 ≤ w0.toNat) :=
  ⟨⟨run, .host, BitVec.ofNat 32 A.SNP_AT_W2, 1#32, (rowOf A.SNP_AT_W2).get (by decide +kernel), 2,
      by decide +kernel, by decide +kernel, by decide +kernel, by decide +kernel, by decide +kernel,
      plain_of (by decide +kernel)⟩,
    ⟨run, .host, BitVec.ofNat 32 (A.SNP_AT_W2 + 8), 999999999#32, (rowOf (A.SNP_AT_W2 + 8)).get (by decide +kernel),
      by decide +kernel, by decide +kernel, by decide +kernel, by decide +kernel, by decide +kernel,
      by decide +kernel, by decide +kernel, plain_of (by decide +kernel)⟩,
    ⟨run, .host, BitVec.ofNat 32 (A.SNP_AT_W2 + 8), 1000000000#32,
      (rowOf (A.SNP_AT_W2 + 8)).get (by decide +kernel), by decide +kernel⟩⟩

theorem witness_GuardSequence :
    (∃ (s : State) (r : Req) (a : BitVec 32) (row : RegRow), (s.listens r a.toNat = true) ∧ (a.toNat % 4 = 0) ∧
      (rowOf a.toNat = some row) ∧ (row.acc = .grd)) ∧
    (∃ (s : State) (r : Req) (a : BitVec 32) (v : Word) (q : GuardSeq), (reaches s r = true) ∧
      (waitsAtCore s r = false) ∧ (gateOpen s r a.toNat = true) ∧ (s.nodeOpen a.toNat = true) ∧ (a.toNat % 4 = 0) ∧
      (guardAt s r a.toNat = some q) ∧ (q.addr = a.toNat ^^^ 0x800) ∧
      (guardAt s (match r with | .host => .mgmt | .mgmt => .host) a.toNat = none) ∧ (isPortAperture a.toNat = false) ∧
      (isLaneAperture a.toNat = false) ∧ (mapped a.toNat = true) ∧ (rowOf a.toNat = none) ∧
      (isComplement a.toNat = true) ∧ (s.now ≤ q.till) ∧ (v = ~~~ q.value)) ∧
    (∃ (s : State) (r : Req) (a : BitVec 32) (v : Word) (q : GuardSeq), (reaches s r = true) ∧
      (waitsAtCore s r = false) ∧ (gateOpen s r a.toNat = true) ∧ (s.nodeOpen a.toNat = true) ∧ (a.toNat % 4 = 0) ∧
      (guardAt s r a.toNat = some q) ∧ (q.addr = a.toNat ^^^ 0x800) ∧
      (guardAt s (match r with | .host => .mgmt | .mgmt => .host) a.toNat = none) ∧ (isPortAperture a.toNat = false) ∧
      (isLaneAperture a.toNat = false) ∧ (mapped a.toNat = true) ∧ (rowOf a.toNat = none) ∧
      (isComplement a.toNat = true) ∧ (q.till < s.now ∨ v ≠ ~~~ q.value)) ∧
    (∃ (s : State) (r : Req) (q : GuardSeq), (s.power.die = true) ∧ (bootState s ≠ 3) ∧ (guardsOf s r = [q]) ∧
      (q.till ≤ s.now)) :=
  ⟨⟨run, .host, 0x18#32, (rowOf 0x18).get (by decide +kernel), by decide +kernel⟩,
    ⟨{ run with guardHost := [⟨0x18, 3, 1000⟩] }, .host, 0x818#32, ~~~ 3#32, ⟨0x18, 3, 1000⟩, by decide +kernel⟩,
    ⟨{ run with guardHost := [⟨0x18, 3, 1000⟩] }, .host, 0x818#32, 3#32, ⟨0x18, 3, 1000⟩, by decide +kernel⟩,
    ⟨{ run with guardHost := [⟨0x18, 3, 0⟩] }, .host, ⟨0x18, 3, 0⟩, by decide +kernel⟩⟩

theorem witness_SequenceClearWrite :
    (∃ (s : State) (r : Req) (a : BitVec 32) (v : Word) (row : RegRow), (s.listens r a.toNat = true) ∧
      (a.toNat % 4 = 0) ∧ (rowOf a.toNat = some row) ∧ (row.acc = .sqc) ∧
      (sqcAhead (heard s r 1) a.toNat v.toNat = false)) ∧
    (∃ (s : State) (r : Req) (a : BitVec 32) (v : Word) (row : RegRow), (s.listens r a.toNat = true) ∧
      (a.toNat % 4 = 0) ∧ (rowOf a.toNat = some row) ∧ (row.acc = .sqc) ∧
      (sqcAhead (heard s r 1) a.toNat v.toNat = true)) :=
  ⟨⟨run, .host, BitVec.ofNat 32 A.GLB_AERR_EVT, 0#32, (rowOf A.GLB_AERR_EVT).get (by decide +kernel),
      by decide +kernel⟩,
    ⟨run, .host, BitVec.ofNat 32 A.GLB_AERR_EVT, 0x7F000000#32, (rowOf A.GLB_AERR_EVT).get (by decide +kernel),
      by decide +kernel⟩⟩

theorem witness_ApertureAndErrorClear :
    (∃ (s : State) (r : Req) (a : BitVec 32), (reaches s r = true) ∧ (waitsAtCore s r = false) ∧
      (gateOpen s r a.toNat = true) ∧ (isLaneAperture a.toNat = true) ∧ (a.toNat % 4 = 0)) ∧
    (∃ (s : State) (r : Req) (a : BitVec 32), (reaches s r = true) ∧ (waitsAtCore s r = false) ∧
      (gateOpen s r a.toNat = true) ∧ (isPortAperture a.toNat = true) ∧ (a.toNat % 4 = 0)) ∧
    (∃ (s : State) (r : Req), (s.listens r A.GLB_AERR_CLR = true)) :=
  ⟨⟨run, .host, 0x1200000#32, by decide +kernel⟩,
    ⟨run, .host, 0x900000#32, by decide +kernel⟩,
    ⟨run, .host, by decide +kernel⟩⟩

theorem witness_WriteBackKeepsNewerEvents :
    ∃ (m1 : Nat) (m2 : Nat) (i : Nat), (m1 < 2 ^ 24) ∧ (m2 < 2 ^ 24) ∧ (m1 ≠ 0) ∧ (i < 24) ∧ (m1.testBit i = true) :=
  ⟨1, 2, 0, by decide +kernel⟩

theorem witness_ZoneCommands :
    (∃ (s : State) (r : Req) (a : BitVec 32) (z : Fin 8) (data : Option Word), (s.power.die = true) ∧
      (gateOpen (if r = .host then s.pmcEvent 22 (if data.isSome then 0x302 else 0x301) 1 else s) r a.toNat = true) ∧
      (zoneInReset (if r = .host then s.pmcEvent 22 (if data.isSome then 0x302 else 0x301) 1 else s) z.val = false) ∧
      (zoneFault (if r = .host then s.pmcEvent 22 (if data.isSome then 0x302 else 0x301) 1 else s) z.val = false) ∧
      (zoneOf a.toNat = some z.val)) ∧
    (∃ (s : State) (r : Req) (a : BitVec 32) (z : Fin 8) (data : Option Word) (v : Word), (s.power.die = true) ∧
      (gateOpen (if r = .host then s.pmcEvent 22 (if data.isSome then 0x302 else 0x301) 1 else s) r a.toNat = true) ∧
      (zoneInReset (if r = .host then s.pmcEvent 22 (if data.isSome then 0x302 else 0x301) 1 else s) z.val = false) ∧
      (zoneFault (if r = .host then s.pmcEvent 22 (if data.isSome then 0x302 else 0x301) 1 else s) z.val = false) ∧
      (zoneOf a.toNat = none) ∧ (data = some v) ∧
      ((writeOthers (if r = .host then s.pmcEvent 22 (if data.isSome then 0x302 else 0x301) 1 else s) r a.toNat z.val v.toNat).isSome = true)) ∧
    (∃ (s : State) (z : Fin 8), (s.islandRuns 6 = true) ∧ (zoneFault s z.val = false)) ∧
    (∃ (s : State) (r : Req), (s.listens r A.GLB_ZONE_CTRL = true)) ∧
    (∃ (s : State), (s.power.die = true)) ∧
    (∃ (s : State) (z : Fin 8), (s.islandRuns 5 = true) ∧ (islandRuns s 6 = true) ∧ (z.val ∈ s.zonesReimg) ∧
      (s.boot.started = true) ∧ (s.fld A.GLB_BOOT_STAT 13 12 ≠ 0)) :=
  ⟨⟨run, .host, 0x180000#32, 0, none, by decide +kernel⟩,
    ⟨run, .host, 0x1200000#32, 0, some 1#32, 1#32, by decide +kernel⟩,
    ⟨run, 7, by decide +kernel⟩,
    ⟨run, .host, by decide +kernel⟩,
    ⟨run, by decide +kernel⟩,
    ⟨{ run.setFld A.GLB_BOOT_STAT 13 12 1 with zonesReimg := [7], boot := { started := true } }, 7,
      by decide +kernel⟩⟩

theorem witness_WriteToZoneInReset :
    ∃ (s : State) (r : Req) (a : BitVec 32) (z : Nat), (reaches s r = true) ∧ (waitsAtCore s r = false) ∧
    (gateOpen s r a.toNat = true) ∧ (a.toNat % 4 = 0) ∧ (mapped a.toNat = true) ∧ (zoneOf a.toNat = some z) ∧
    (zoneInReset s z = true) :=
  ⟨run.setBit A.GLB_ZONE_STAT 8 true, .host, 0x800000#32, 0, by decide +kernel⟩

theorem witness_ZoneResetBitsWithoutEffect :
    ∃ (s : State) (r : Req) (zrst : BitVec 8), (s.listens r A.GLB_ZONE_CTRL = true) ∧ (∀ z, z < 8 →
    zrst.toNat.testBit z = true → zoneInReset s z = true) :=
  ⟨run.setBit A.GLB_ZONE_STAT 15 true, .host, 0x80#8, by decide +kernel⟩

theorem witness_SupplyAndResetCommands :
    (∃ (s : State), (s.power.ka = false)) ∧
    (∃ (s : State), (s.power.ka = true)) ∧
    (∃ (s : State), (s.power.main = true)) ∧
    (∃ (s : State), (s.power.die = true)) ∧
    (∃ (s : State), (s.power.main = false)) ∧
    (∃ (s : State) (cool : Bool), (s.power.die = false) ∧
      (canStart (if cool then { s with power := { s.power with hot := false } } else s) = true)) ∧
    (∃ (s : State) (cool : Bool), (s.power.die = false) ∧ (s.power.hot = true) ∧ (cool = false)) ∧
    (∃ (s : State), (s.power.resetN = true)) ∧
    (∃ (s : State), (s.power.resetN = false)) :=
  ⟨⟨{ State.reset with power := { State.reset.power with ka := false } }, by decide +kernel⟩,
    ⟨State.reset, by decide +kernel⟩,
    ⟨State.reset, by decide +kernel⟩,
    ⟨run, by decide +kernel⟩,
    ⟨{ State.reset with power := { State.reset.power with main := false } }, by decide +kernel⟩,
    ⟨{ driven with now := ms, power := { driven.power with die := false } }, true, by decide +kernel⟩,
    ⟨{ State.reset with power := { State.reset.power with hot := true } }, false, by decide +kernel⟩,
    ⟨State.reset, by decide +kernel⟩,
    ⟨{ State.reset with power := { State.reset.power with resetN := false } }, by decide +kernel⟩⟩

theorem witness_GuardedResets :
    (∃ (s : State) (r : Req), (s.listens r A.PWR_RST_CTRL = true)) ∧
    (∃ (s : State) (r : Req), (s.listens r A.GLB_BOOT_CTRL = true) ∧
      (bootState (heard s r 2) = 6 ∨ bootState (heard s r 2) = 7)) :=
  ⟨⟨run, .mgmt, by decide +kernel⟩,
    ⟨boot 7, .host, by decide +kernel⟩⟩

theorem witness_StartUpCommands :
    (∃ (s : State), (s.power.die = true) ∧ (bootState s = 1)) ∧
    (∃ (s : State), (s.islandRuns 5 = true) ∧ (bootState s = 2) ∧ (s.fld A.GLB_BOOT_STAT 17 16 = 3)) ∧
    (∃ (s : State), (s.islandRuns 5 = true) ∧ (bootState s = 2) ∧ (s.fld A.GLB_BOOT_STAT 17 16 ≠ 3)) ∧
    (∃ (s : State), (s.islandRuns 5 = true) ∧ (bootState s = 3) ∧ (s.boot.awaiting = true)) ∧
    (∃ (s : State), (s.islandRuns 5 = true) ∧ (bootState s = 4) ∧ (s.boot.awaiting = true)) ∧
    (∃ (s : State) (x : Sect), (s.islandRuns 5 = true) ∧ (currentSect s = some x) ∧ (sectionReady s = true)) ∧
    (∃ (s : State), (s.islandRuns 5 = true) ∧ (sectionsDone s = true) ∧ (s.boot.started = false)) ∧
    (∃ (s : State), (s.islandRuns 5 = true) ∧ (s.boot.started = true) ∧ (s.runs .fwReady = true)) ∧
    (∃ (s : State), (s.power.die = true) ∧ (bootState s = 3) ∧ (s.due .fwReady = true)) ∧
    (∃ (s : State), (s.power.die = true) ∧ (s.boot.hbmDone = false) ∧ (bootState s < 5)) ∧
    (∃ (s : State), (s.power.die = true) ∧ (bootState s = 3) ∧ (s.boot.ready = true) ∧ (s.boot.hbmDone = true) ∧
      (s.power.startAt + 60 * ms ≤ s.now)) ∧
    (∃ (s : State), (s.power.die = true) ∧ (bootState s = 4) ∧ (s.due .fallback = true)) :=
  ⟨⟨boot 1, by decide +kernel⟩,
    ⟨(boot 2).setFld A.GLB_BOOT_STAT 17 16 3, by decide +kernel⟩,
    ⟨boot 2, by decide +kernel⟩,
    ⟨{ boot 3 with boot := { awaiting := true } }, by decide +kernel⟩,
    ⟨{ boot 4 with boot := { awaiting := true } }, by decide +kernel⟩,
    ⟨{ boot 3 with boot := { order := [0], sects := [⟨1, true, 0, 0⟩] } }, ⟨1, true, 0, 0⟩, by decide +kernel⟩,
    ⟨{ boot 3 with boot := { sects := [⟨1, true, 0, 0⟩], index := 1 } }, by decide +kernel⟩,
    ⟨{ tick (boot 3) .fwReady with boot := { started := true } }, by decide +kernel⟩,
    ⟨tick (boot 3) .fwReady, by decide +kernel⟩,
    ⟨boot 1, by decide +kernel⟩,
    ⟨{ boot 3 with now := 60 * ms, boot := { ready := true, hbmDone := true } }, by decide +kernel⟩,
    ⟨tick (boot 4) .fallback, by decide +kernel⟩⟩

theorem witness_ImageRecordCommands :
    (∃ (s : State) (a : Nat) (v : Nat) (l : List (Nat × Nat × Nat)), (s.islandRuns 5 = true) ∧ (bootState s = 3) ∧
      (s.boot.script = some ((1, a, v) :: l)) ∧ (scriptForbidden a = false) ∧ (accessWaits s a = false)) ∧
    (∃ (s : State) (a : Nat) (v : Nat) (l : List (Nat × Nat × Nat)), (s.islandRuns 5 = true) ∧ (bootState s = 3) ∧
      (s.boot.script = some ((2, a, v) :: l)) ∧ (scriptForbidden a = false) ∧ (accessWaits s a = false)) ∧
    (∃ (s : State) (a : Nat) (v : Nat) (l : List (Nat × Nat × Nat)), (s.islandRuns 5 = true) ∧ (bootState s = 3) ∧
      (s.boot.script = some ((3, a, v) :: l)) ∧ (s.runs .bootWait = false)) ∧
    (∃ (s : State) (a : Nat) (v : Nat) (l : List (Nat × Nat × Nat)), (s.islandRuns 5 = true) ∧ (bootState s = 3) ∧
      (s.boot.script = some ((3, a, v) :: l)) ∧ (s.due .bootWait = true)) ∧
    (∃ (s : State) (l : List Byte), (s.islandRuns 5 = true) ∧ (islandRuns s 4 = true) ∧ (bootState s = 3) ∧
      (s.boot.chunks = some l) ∧ (chunkOk (toNats l) = true) ∧
      ((writeWords .mgmt (0x2000000 + leNat (slice (toNats l) 0 4)) (chunkWords (toNats l)) s).2 = true) ∧
      (errCount (writeWords .mgmt (0x2000000 + leNat (slice (toNats l) 0 4)) (chunkWords (toNats l)) s).1 = errCount s)) :=
  ⟨⟨{ boot 3 with boot := { script := some [(1, 0x10, 1)] } }, 0x10, 1, [], by decide +kernel⟩,
    ⟨{ boot 3 with boot := { script := some [(2, 0x10, 1)] } }, 0x10, 1, [], by decide +kernel⟩,
    ⟨{ boot 3 with boot := { script := some [(3, 0x10, 1)] } }, 0x10, 1, [], by decide +kernel⟩,
    ⟨{ tick (boot 3) .bootWait with boot := { script := some [(3, 0x10, 1)] } }, 0x10, 1, [], by decide +kernel⟩,
    ⟨{ boot 3 with boot := { chunks := some (ofNats [0, 0, 0, 0, 0, 0, 0, 0]) } }, ofNats [0, 0, 0, 0, 0, 0, 0, 0],
      by decide +kernel⟩⟩

theorem witness_GovernorCommands :
    (∃ (s : State), (s.power.die = true)) ∧
    (∃ (s : State) (p : Nat), (s.power.die = true) ∧ (s.due .govTick = true) ∧ (govActive s = true) ∧
      (overCap s = true) ∧ (clkRamped s = true) ∧ (rampGoal s = none) ∧ (nextShed s = some p)) ∧
    (∃ (s : State), (s.power.die = true) ∧ (s.due .govBelow = true) ∧ (govActive s = true)) ∧
    (∃ (s : State) (p : Nat) (l : List Nat), (s.power.die = true) ∧ (s.due .govTick = true) ∧ (govActive s = true) ∧
      (atMost90 s = true) ∧ (clkRamped s = false) ∧ (rampGoal s = none) ∧ (s.power.shed = p :: l)) ∧
    (∃ (s : State) (r : Req), (s.listens r A.PWR_GOV_CTRL = true)) ∧
    (∃ (s : State) (d : Bool), (s.power.die = true) ∧ (s.power.ramp = some d) ∧ (s.due .govRamp = true)) :=
  ⟨⟨run, by decide +kernel⟩,
    ⟨{ (tick run .govTick).setBit A.PWR_STAT 2 true with power := { run.power with samples := [700000] }, regs := [(A.GLB_BOOT_STAT, 5), (A.PWR_STAT, 4), (A.PWR_GOV_CTRL, 100)] },
      63, by decide +kernel⟩,
    ⟨tick run .govBelow, by decide +kernel⟩,
    ⟨{ tick run .govTick with power := { run.power with shed := [5], samples := [0] } }, 5, [], by decide +kernel⟩,
    ⟨run, .host, by decide +kernel⟩,
    ⟨{ tick run .govRamp with power := { run.power with ramp := some true } }, true, by decide +kernel⟩⟩

theorem witness_ShedOrder :
    ∃ s p, nextShed s = some p :=
  ⟨run, 63, by decide +kernel⟩

theorem witness_SleepCommands :
    (∃ (s : State) (r : Req), (s.listens r A.PWR_SLEEP_CTRL = true) ∧ (inRun s = true)) ∧
    (∃ (s : State), (s.power.die = true) ∧ (bootState s = 8) ∧ (s.due .sleepDrain = true)) ∧
    (∃ (s : State), (s.power.die = true) ∧ (bootState s = 8) ∧ (s.power.drained = true) ∧ (∀ p, p < 64 →
      portState s p ≠ 3)) ∧
    (∃ (s : State) (r : Req), (s.listens r A.PWR_SLEEP_CTRL = true) ∧ (bootState s = 9)) ∧
    (∃ (s : State), (s.power.die = true) ∧ (wakeTimeDue s = true) ∧ (bootState s = 9)) ∧
    (∃ (s : State), (s.power.die = true) ∧ (bootState s = 10) ∧
      (s.power.tw + 25 * ms * nsUnits ≤ tb0 s + us * nsUnits)) :=
  ⟨⟨run, .host, by decide +kernel⟩,
    ⟨tick (boot 8) .sleepDrain, by decide +kernel⟩,
    ⟨{ boot 8 with power := { run.power with drained := true } }, by decide +kernel⟩,
    ⟨boot 9, .host, by decide +kernel⟩,
    ⟨(boot 9).setBit A.PWR_SLEEP_CFG 16 true, by decide +kernel⟩,
    ⟨{ boot 10 with tbs := late.tbs }, by decide +kernel⟩⟩

theorem witness_LaneAcquisition :
    (∃ (s : State) (l : Fin 512), (s.awake = true) ∧ (laneState s l.val = 1) ∧ ((s.lane l.val).waking = false)) ∧
    (∃ (s : State) (l : Fin 512), (s.awake = true) ∧ (laneState s l.val = 1) ∧ ((s.lane l.val).waking = true)) ∧
    (∃ (s : State) (l : Fin 512), (s.awake = true) ∧ (laneLive s l.val = true)) ∧
    (∃ (s : State) (l : Fin 512) (ph : BitVec 8) (training : Option Bool) (pre : _), (s.awake = true) ∧
      (laneState s l.val = 3) ∧ (s.runs (.laneCdr l.val) = true) ∧ (training = some pre) ∧
      (mayTrain ((setLaneState (cdrLocked (s.stop (.laneCdr l.val)) l.val ph.toNat) l.val 4).start (.laneAdapt l.val) (100 * ms)) l.val = true)) ∧
    (∃ (s : State) (l : Fin 512) (ph : BitVec 8) (training : Option Bool), (s.awake = true) ∧
      (laneState s l.val = 3) ∧ (s.runs (.laneCdr l.val) = true) ∧
      (training = none ∨ mayTrain ((setLaneState (cdrLocked (s.stop (.laneCdr l.val)) l.val ph.toNat) l.val 4).start (.laneAdapt l.val) (100 * ms)) l.val = false)) ∧
    (∃ (s : State) (l : Fin 512), (s.awake = true) ∧ (laneState s l.val = 3) ∧ (s.due (.laneCdr l.val) = true)) ∧
    (∃ (s : State) (l : Fin 512), (s.awake = true) ∧ (laneState s l.val = 4)) ∧
    (∃ (s : State) (l : Fin 512), (s.awake = true) ∧ (laneState s l.val = 4) ∧
      (s.due (.laneAdapt l.val) = true ∨ (s.lane l.val).training = true)) ∧
    (∃ (s : State) (l : Fin 512), (s.awake = true) ∧ (laneState s l.val = 5)) ∧
    (∃ (s : State) (l : Fin 512), (s.awake = true) ∧ (laneState s l.val = 7) ∧ (s.due (.laneRecheck l.val) = true)) ∧
    (∃ (s : State) (l : Fin 512), (s.awake = true) ∧ (laneState s l.val = 3 ∨ laneState s l.val = 2) ∧
      (s.due (.laneRetry l.val) = true)) :=
  ⟨⟨setLaneState run 511 1, 511, by decide +kernel⟩,
    ⟨(setLaneState run 511 1).putLane 511 { waking := true }, 511, by decide +kernel⟩,
    ⟨setLaneState run 511 8, 511, by decide +kernel⟩,
    ⟨tick (setLaneState run 511 3) (.laneCdr 511), 511, 0#8, some false, false, by decide +kernel⟩,
    ⟨tick (setLaneState run 511 3) (.laneCdr 511), 511, 0#8, none, by decide +kernel⟩,
    ⟨tick (setLaneState run 511 3) (.laneCdr 511), 511, by decide +kernel⟩,
    ⟨setLaneState run 511 4, 511, by decide +kernel⟩,
    ⟨tick (setLaneState run 511 4) (.laneAdapt 511), 511, by decide +kernel⟩,
    ⟨setLaneState run 511 5, 511, by decide +kernel⟩,
    ⟨tick (setLaneState run 511 7) (.laneRecheck 511), 511, by decide +kernel⟩,
    ⟨tick (setLaneState run 511 2) (.laneRetry 511), 511, by decide +kernel⟩⟩

theorem witness_LaneServiceEvents :
    (∃ (s : State) (l : Fin 512), (s.awake = true) ∧ (laneState s l.val = 6)) ∧
    (∃ (s : State) (l : Fin 512), (s.awake = true) ∧ (laneFlag s l.val 14 = true) ∧ (laneFlag s l.val 23 = true)) ∧
    (∃ (s : State) (l : Fin 512) (h : List (BitVec 2)), (s.awake = true) ∧ (laneFlag s l.val 22 = true) ∧
      (losesBlockLock (h.map BitVec.toNat) = true)) ∧
    (∃ (s : State) (l : Fin 512), (s.awake = true) ∧ (laneState s l.val = 9)) ∧
    (∃ (s : State) (l : Fin 512), (s.awake = true) ∧ (laneState s l.val ≠ 9)) ∧
    (∃ (s : State) (l : Fin 512), (s.awake = true) ∧ (laneState s l.val = 8)) ∧
    (∃ (s : State) (l : Fin 512), (s.awake = true) ∧ (laneState s l.val = 8) ∧ (s.due (.laneResume l.val) = true)) :=
  ⟨⟨setLaneState run 511 6, 511, by decide +kernel⟩,
    ⟨setLaneFlag (setLaneFlag run 0 14 true) 0 23 true, 0, by decide +kernel⟩,
    ⟨setLaneFlag run 0 22 true, 0, List.replicate 16 0#2, by decide +kernel⟩,
    ⟨setLaneState run 0 9, 0, by decide +kernel⟩,
    ⟨run, 0, by decide +kernel⟩,
    ⟨setLaneState run 511 8, 511, by decide +kernel⟩,
    ⟨tick (setLaneState run 511 8) (.laneResume 511), 511, by decide +kernel⟩⟩

theorem witness_LaneWrites :
    (∃ (s : State) (r : Req) (l : Fin 512), (s.listens r (A.LANE_CTRL l.val) = true)) ∧
    (∃ (s : State) (r : Req) (l : Fin 512), (s.listens r (A.LANE_CTRL l.val) = true)) ∧
    (∃ (s : State) (r : Req) (l : Fin 512) (m : Fin 3) (w : Fin 7) (v : Word),
      (s.listens r (A.LANE_EQ_TBL l.val m.val w.val) = true) ∧
      ((writeEqWord (heard s r 1) l.val m.val w.val v.toNat).isSome = true)) ∧
    (∃ (s : State) (r : Req) (l : Fin 512) (m : Fin 3) (w : Fin 7) (v : Word),
      (s.listens r (A.LANE_EQ_TBL l.val m.val w.val) = true) ∧
      (writeEqWord (heard s r 1) l.val m.val w.val v.toNat = none)) ∧
    (∃ (s : State) (r : Req) (l : Fin 512) (v : Word), (s.listens r (A.LANE_EQ_VALID l.val) = true) ∧
      ((writeEqValid (heard s r 1) l.val (v.toNat % 8)).isSome = true)) ∧
    (∃ (s : State) (r : Req) (l : Fin 512) (v : Word), (s.listens r (A.LANE_EQ_VALID l.val) = true) ∧
      (writeEqValid (heard s r 1) l.val (v.toNat % 8) = none)) ∧
    (∃ (s : State) (r : Req) (l : Fin 512) (v : Word), (s.listens r (A.LANE_TEST l.val) = true) ∧
      (laneTestBad v.toNat = false) ∧ ((v.toNat.testBit 0 && portEnabled (heard s r 1) (portOfLane l.val)) = false)) ∧
    (∃ (s : State) (r : Req) (l : Fin 512) (v : Word), (s.listens r (A.LANE_TEST l.val) = true) ∧
      (laneTestBad v.toNat = true ∨ (v.toNat.testBit 0 = true ∧ portEnabled (heard s r 1) (portOfLane l.val) = true))) ∧
    (∃ (s : State) (r : Req) (l : Fin 512), (s.listens r (A.LANE_FAULT_CTRL l.val) = true)) :=
  ⟨⟨run, .host, 511, by decide +kernel⟩,
    ⟨run, .host, 0, by decide +kernel⟩,
    ⟨run, .host, 0, 2, 6, 0#32, by decide +kernel⟩,
    ⟨(run.setBit (A.LANE_EQ_VALID 0) 0 true), .host, 0, 0, 0, 0xFFFFFFFF#32, by decide +kernel⟩,
    ⟨run, .host, 0, 0#32, by decide +kernel⟩,
    ⟨run.wr (A.LANE_EQ_TBL 0 0 0) 0xFFFFFFFF, .host, 0, 1#32, by decide +kernel⟩,
    ⟨run, .host, 0, 0#32, by decide +kernel⟩,
    ⟨run, .host, 0, 0xC0#32, by decide +kernel⟩,
    ⟨run, .host, 511, by decide +kernel⟩⟩

theorem witness_PortWrites :
    (∃ (s : State) (r : Req) (p : Fin 64) (v : Word), (s.listens r (A.PORT_CFG p.val) = true) ∧
      (portCfgBad (heard s r 1) p.val (v.toNat &&& 0x00FF073F) = false)) ∧
    (∃ (s : State) (r : Req) (p : Fin 64) (v : Word), (s.listens r (A.PORT_CFG p.val) = true) ∧
      (portCfgBad (heard s r 1) p.val (v.toNat &&& 0x00FF073F) = true)) ∧
    (∃ (s : State) (r : Req) (p : Fin 64) (b : Bool), (s.listens r (A.PORT_CTRL p.val) = true) ∧
      (enableBad (heard s r 1) p.val b = false)) ∧
    (∃ (s : State) (r : Req) (p : Fin 64) (b : Bool), (s.listens r (A.PORT_CTRL p.val) = true) ∧
      (enableBad (heard s r 1) p.val b = true)) ∧
    (∃ (s : State) (r : Req) (p : Fin 64), (s.listens r (A.PORT_CTRL p.val) = true) ∧
      (enableBad (heard s r 1) p.val (portEnabled s p.val) = false)) :=
  ⟨⟨run, .host, 63, 0#32, by decide +kernel⟩,
    ⟨run, .host, 63, 14#32, by decide +kernel⟩,
    ⟨run, .host, 63, false, by decide +kernel⟩,
    ⟨run, .host, 63, true, by decide +kernel⟩,
    ⟨run, .host, 63, by decide +kernel⟩⟩

theorem witness_PortLinkCommands :
    (∃ (s : State) (p : Fin 64), (s.portRuns p.val = true) ∧ (inRun s = true) ∧ (portState s p.val = 1) ∧
      (typeEff s p.val ≠ 0) ∧ (typeEff s p.val ≠ 13) ∧ ((s.port p.val).stage = .off) ∧ (lanesServe s p.val = true) ∧
      (moduleReady s p.val = true)) ∧
    (∃ (s : State) (p : Fin 64), (s.portRuns p.val = true) ∧ (portUp s p.val = true)) ∧
    (∃ (s : State) (p : Fin 64), (s.portRuns p.val = true) ∧ (quenchOver s p.val = true)) ∧
    (∃ (s : State) (p : Fin 64) (common : BitVec 16), (s.portRuns p.val = true) ∧ (negotiating s p.val = true) ∧
      (s.runs (.anRestart p.val) = false) ∧
      (((anOrder.find? fun t => advertises s p.val t && common.toNat.testBit t)).isSome = true)) ∧
    (∃ (s : State) (p : Fin 64) (common : BitVec 16), (s.portRuns p.val = true) ∧ (negotiating s p.val = true) ∧
      (s.runs (.anRestart p.val) = false) ∧
      ((anOrder.find? fun t => advertises s p.val t && common.toNat.testBit t) = none)) ∧
    (∃ (s : State) (p : Fin 64), (s.portRuns p.val = true) ∧ (s.due (.anRestart p.val) = true)) ∧
    (∃ (s : State), (s.awake = true)) ∧
    (∃ (s : State) (p : Fin 64), (s.islandRuns 5 = true) ∧ ((s.port p.val).present = true)) :=
  ⟨⟨((setPortState (setLaneState run 504 6) 63 1).setFld (A.PORT_STAT 63) 27 24 7).setFld (A.PORT_STAT 63) 23 16 1,
      63, by decide +kernel⟩,
    ⟨up 63 1, 63, by decide +kernel⟩,
    ⟨setPortState run 63 3, 63, by decide +kernel⟩,
    ⟨neg63, 63, 0xFFFF#16, by decide +kernel⟩,
    ⟨neg63, 63, 0#16, by decide +kernel⟩,
    ⟨tick run (.anRestart 63), 63, by decide +kernel⟩,
    ⟨run, by decide +kernel⟩,
    ⟨putPort run 63 { present := true }, 63, by decide +kernel⟩⟩

theorem witness_PauseCommands :
    (∃ (s : State) (p : Fin 64) (v : BitVec 8), (s.portRuns p.val = true) ∧ (portUp s p.val = true) ∧
      (isTrunk (s.pmcEvent (runnerOfPort p.val) (0x045 + 16 * (p.val % 4)) 1) p.val = true ∨ (pfcActs (s.pmcEvent (runnerOfPort p.val) (0x045 + 16 * (p.val % 4)) 1) p.val v.toNat).isEmpty = true)) ∧
    (∃ (s : State) (p : Fin 64) (v : BitVec 8), (s.portRuns p.val = true) ∧ (portUp s p.val = true) ∧
      (isTrunk (s.pmcEvent (runnerOfPort p.val) (0x045 + 16 * (p.val % 4)) 1) p.val = false) ∧
      ((pfcActs (s.pmcEvent (runnerOfPort p.val) (0x045 + 16 * (p.val % 4)) 1) p.val v.toNat).isEmpty = false)) ∧
    (∃ (s : State) (p : Fin 64) (c : Fin 8), (s.portRuns p.val = true) ∧ (s.due (.pfcPause p.val c.val) = true)) ∧
    (∃ (s : State) (p : Fin 64) (o : BitVec 16), (s.portRuns p.val = true) ∧ (portUp s p.val = true) ∧ (o ≠ 0x0101)) ∧
    (∃ (s : State) (p : Fin 64) (c : Fin 8), (s.portRuns p.val = true) ∧ (s.due (.pfcRepeat p.val c.val) = true) ∧
      (portUp s p.val = true)) :=
  ⟨⟨up 63 1, 63, 0#8, by decide +kernel⟩,
    ⟨(up 63 1).setBit (A.PORT_CFG 63) 23 true, 63, 0x80#8, by decide +kernel⟩,
    ⟨tick run (.pfcPause 63 7), 63, 7, by decide +kernel⟩,
    ⟨up 63 1, 63, 0#16, by decide +kernel⟩,
    ⟨tick (up 63 1) (.pfcRepeat 63 7), 63, 7, by decide +kernel⟩⟩

theorem witness_StepUpCommands :
    (∃ (s : State) (p : Fin 64) (blocks : List (BitVec 2 × List Byte)) (b : _), (s.portRuns p.val = true) ∧
      ((s.port p.val).stage = .nrz) ∧ (portState s p.val = 1) ∧ (pageOf blocks = some b) ∧ (pageValid b = true)) ∧
    (∃ (s : State) (p : Fin 64) (blocks : List (BitVec 2 × List Byte)), (s.portRuns p.val = true) ∧
      ((s.port p.val).stage = .nrz) ∧ (portState s p.val = 1) ∧ (∃ x ∈ blocks, x.1 ≠ 0b10)) ∧
    (∃ (s : State) (p : Fin 64), (s.portRuns p.val = true) ∧ (s.due (.suPartner p.val) = true)) ∧
    (∃ (s : State) (p : Fin 64), (s.portRuns p.val = true) ∧ ((s.port p.val).stage = .slow) ∧
      (portState s p.val = 1) ∧ (lanesServe s p.val = true)) ∧
    (∃ (s : State) (p : Fin 64), (s.portRuns p.val = true) ∧ (s.due (.suSlow p.val) = true)) ∧
    (∃ (s : State) (p : Fin 64), (s.portRuns p.val = true) ∧ (s.due (.suQual p.val) = true) ∧
      ((s.port p.val).fast = true)) ∧
    (∃ (s : State) (p : Fin 64), (s.portRuns p.val = true) ∧ (s.due (.suQual p.val) = true) ∧
      ((s.port p.val).fast = false) ∧ (moduleReady s p.val = true)) ∧
    (∃ (s : State) (p : Fin 64), (s.portRuns p.val = true) ∧ ((s.port p.val).stage = .fast) ∧
      (portState s p.val = 1) ∧ (lanesServe s p.val = true) ∧ (moduleReady s p.val = true) ∧
      (s.due (.suFast p.val) = false)) ∧
    (∃ (s : State) (p : Fin 64), (s.portRuns p.val = true) ∧ (s.due (.suFast p.val) = true)) ∧
    (∃ (s : State) (p : Fin 64), (s.portRuns p.val = true) ∧ (s.due (.holdRetry p.val) = true)) ∧
    (∃ (s : State) (p : Fin 64), (s.portRuns p.val = true) ∧ ((s.port p.val).stage = .qual) ∧ (portState s p.val = 1)) :=
  ⟨⟨putPort (setPortState run 63 1) 63 { stage := .nrz, modReady := true }, 63, goodBlocks, goodPage,
      by decide +kernel⟩,
    ⟨putPort (setPortState run 63 1) 63 { stage := .nrz, modReady := true }, 63, [(0b01#2, [])], by decide +kernel⟩,
    ⟨tick run (.suPartner 63), 63, by decide +kernel⟩,
    ⟨putPort ((setPortState (setLaneState run 504 6) 63 1).setFld (A.PORT_STAT 63) 23 16 1) 63 { stage := .slow, modReady := true },
      63, by decide +kernel⟩,
    ⟨tick run (.suSlow 63), 63, by decide +kernel⟩,
    ⟨tick (putPort run 63 { fast := true }) (.suQual 63), 63, by decide +kernel⟩,
    ⟨tick run (.suQual 63), 63, by decide +kernel⟩,
    ⟨putPort ((setPortState (setLaneState run 504 6) 63 1).setFld (A.PORT_STAT 63) 23 16 1) 63 { stage := .fast, modReady := true },
      63, by decide +kernel⟩,
    ⟨tick run (.suFast 63), 63, by decide +kernel⟩,
    ⟨tick run (.holdRetry 63), 63, by decide +kernel⟩,
    ⟨putPort (setPortState run 63 1) 63 { stage := .qual, modReady := true }, 63, by decide +kernel⟩⟩

theorem witness_TrunkCommands :
    (∃ (s : State) (p : Fin 64), (s.portRuns p.val = true) ∧ (runsTrunk s p.val = true) ∧ (1 ≤ trunkState s p.val) ∧
      (portStalled s p.val = false) ∧ (markerDue s p.val = true)) ∧
    (∃ (s : State) (p : Fin 64) (j : Fin 8) (b : List Byte), (s.portRuns p.val = true) ∧ (runsTrunk s p.val = true) ∧
      (inService s (8 * p.val + j.val) = true) ∧ (trunkState s p.val ≠ 0) ∧ (markerValid (toNats b) = true)) ∧
    (∃ (s : State) (p : Fin 64), (s.portRuns p.val = true) ∧ (canSend s p.val = true) ∧
      (trunkState (startBlock s p.val) p.val = 2)) ∧
    (∃ (s : State) (p : Fin 64), s.portRuns p.val = true ∧ canSend s p.val = true ∧
      trunkState (startBlock s p.val) p.val ≠ 2 ∧ linkOn (startBlock s p.val) p.val = true ∧
      sendableLl (windowOpen (startBlock s p.val) p.val none) p.val ≠ []) ∧
    (∃ (s : State) (p : Fin 64) (x : _), (s.portRuns p.val = true) ∧ (canSend s p.val = true) ∧
      (trunkState (startBlock s p.val) p.val ≠ 2) ∧ (linkOn (startBlock s p.val) p.val = true) ∧
      (sendableLl (windowOpen (startBlock s p.val) p.val none) p.val = []) ∧
      (((windowOpen (startBlock s p.val) p.val none).trunk p.val).goback = some x)) ∧
    (∃ (s : State) (p : Fin 64), (s.portRuns p.val = true) ∧ (canSend s p.val = true) ∧
      (trunkState (startBlock s p.val) p.val ≠ 2) ∧ (linkOn (startBlock s p.val) p.val = true) ∧
      (sendableLl (windowOpen (startBlock s p.val) p.val none) p.val = []) ∧
      (((windowOpen (startBlock s p.val) p.val none).trunk p.val).goback = none) ∧
      (sendable (windowOpen (startBlock s p.val) p.val none) p.val = [])) ∧
    (∃ (s : State) (p : Fin 64), (s.portRuns p.val = true) ∧ (canSend s p.val = true) ∧
      (trunkState (startBlock s p.val) p.val ≠ 2) ∧ (linkOn (startBlock s p.val) p.val = true) ∧
      (sendableLl (windowOpen (startBlock s p.val) p.val none) p.val = []) ∧
      (((windowOpen (startBlock s p.val) p.val none).trunk p.val).goback = none) ∧
      (actionWaits (windowOpen (startBlock s p.val) p.val none) p.val = true)) ∧
    (∃ (s : State) (p : Fin 64) (c : _), (s.portRuns p.val = true) ∧ (canSend s p.val = true) ∧
      (trunkState (startBlock s p.val) p.val ≠ 2) ∧ (linkOn (startBlock s p.val) p.val = true) ∧
      (sendableLl (windowOpen (startBlock s p.val) p.val none) p.val = []) ∧
      (((windowOpen (startBlock s p.val) p.val none).trunk p.val).goback = none) ∧
      (sendable (windowOpen (startBlock s p.val) p.val none) p.val = [c])) ∧
    (∃ (s : State) (p : Fin 64), (s.portRuns p.val = true) ∧ (runsTrunk s p.val = true) ∧ (2 ≤ trunkState s p.val)) ∧
    (∃ (s : State) (p : Fin 64), (s.portRuns p.val = true) ∧ (runsTrunk s p.val = true) ∧ (canSend s p.val = true) ∧
      ((s.trunk p.val).helloAt ≤ s.now) ∧ (sendableLl s p.val = []) ∧ (windowDue s p.val = none)) ∧
    (∃ (s : State) (p : Fin 64), (s.portRuns p.val = true) ∧ (s.due (.trunkAlign p.val) = true)) ∧
    (∃ (s : State) (p : Fin 64), (s.portRuns p.val = true) ∧ (s.due (.trunkHello p.val) = true) ∧
      (trunkState s p.val = 2)) ∧
    (∃ (s : State) (p : Fin 64), (s.portRuns p.val = true) ∧ (s.due (.conflictRetry p.val) = true) ∧
      (portState s p.val = 4) ∧ (holdCause s p.val = 0)) ∧
    (∃ (s : State) (p : Fin 64), (s.portRuns p.val = true) ∧ (s.due (.conflictRetry p.val) = true) ∧
      (portState s p.val = 4) ∧ (holdCause s p.val ≠ 0)) :=
  ⟨⟨setTrunkState (up 63 13) 63 1, 63, by decide +kernel⟩,
    ⟨setLaneState (setTrunkState (up 63 13) 63 1) 511 6, 63, 7, ofNats goodMarkerBytes, by decide +kernel⟩,
    ⟨setTrunkState (up 63 13) 63 2, 63, by decide +kernel⟩,
    ⟨putTrunk (setTrunkState (up 63 13) 63 3) 63 { streams := [(7, [⟨[], true, true, 0, none, false⟩])], cred := [(7, 1)] },
      63, by decide +kernel⟩,
    ⟨putTrunk (setTrunkState (up 63 13) 63 3) 63 { goback := some 0 }, 63, 0, by decide +kernel⟩,
    ⟨setTrunkState (up 63 13) 63 3, 63, by decide +kernel⟩,
    ⟨putTrunk (setTrunkState (up 63 13) 63 3) 63 { streams := [(7, [⟨[], true, false, 0, none, true⟩])], cred := [(7, 1)] },
      63, by decide +kernel⟩,
    ⟨putTrunk (setTrunkState (up 63 13) 63 3) 63 { streams := [(7, [⟨[], true, false, 0, none, false⟩])], cred := [(7, 1)] },
      63, 7, by decide +kernel⟩,
    ⟨setTrunkState (up 63 13) 63 2, 63, by decide +kernel⟩,
    ⟨setTrunkState (up 63 13) 63 2, 63, by decide +kernel⟩,
    ⟨tick run (.trunkAlign 63), 63, by decide +kernel⟩,
    ⟨tick (setTrunkState (up 63 13) 63 2) (.trunkHello 63), 63, by decide +kernel⟩,
    ⟨(tick (setPortState run 63 4) (.conflictRetry 63)).setFld (A.PORT_CFG 63) 3 0 13, 63, by decide +kernel⟩,
    ⟨(tick (setPortState run 63 4) (.conflictRetry 63)).setFld (A.PORT_CFG 63) 3 0 13 |> fun s => putPort s 63 { shed := true },
      63, by decide +kernel⟩⟩

theorem witness_FtimeWordsRoundTrip :
    (∃ (t : Nat), (t < ftWrap)) ∧
    (∃ (w2 : Nat) (w1 : Nat) (w0 : Nat), (w2 < 2 ^ 32) ∧ (w1 < 2 ^ 32) ∧ (w0 < 1000000000)) :=
  ⟨⟨ftWrap - 1, by decide +kernel⟩,
    ⟨2 ^ 32 - 1, 2 ^ 32 - 1, 999999999, by decide +kernel⟩⟩

theorem witness_TimeBaseAdvance :
    (∃ (s : State) (n : Nat), (tclkRuns s = true) ∧ (n < 8) ∧ ((s.tb n).target = tbRate s n)) ∧
    (∃ (s : State) (n : Nat), (tclkRuns s = false) ∧ (n < 8)) ∧
    (∃ (h : TbHidden) (rate : Int), (-rateMax ≤ rate) ∧ (h.acc < ftWrap * 2 ^ 32)) :=
  ⟨⟨driven, 7, by decide +kernel⟩,
    ⟨{ driven with power := { driven.power with ka := false } }, 7, by decide +kernel⟩,
    ⟨{ acc := ftWrap * 2 ^ 32 - 1 }, -rateMax, by decide +kernel⟩⟩

theorem witness_AdvanceIsAdditive :
    ∃ (s s1 s2 s3 : State) (j k n : Nat), n < 8 ∧ (∀ m, m < 8 → (s.tb m).target = tbRate s m) ∧
    exec (.tbAdvance j) s = .next s1 ∧ exec (.tbAdvance k) s1 = .next s2 ∧ exec (.tbAdvance (j + k)) s = .next s3 :=
  ⟨driven, _, _, _, 1, 1, 7, by decide, by decide +kernel, rfl, rfl, rfl⟩

theorem witness_TimeReadLatchArm :
    (∃ (s : State) (r : Req) (n : Fin 8), (s.power.die = true) ∧ (waitsAtCore s r = false) ∧
      (gateOpen s r (A.TIM_TB_TIME_W2 n.val) = true)) ∧
    (∃ (s : State) (r : Req), (s.listens r A.TIM_LATCH = true)) ∧
    (∃ (s : State) (r : Req), (s.listens r A.TIM_ARM = true)) :=
  ⟨⟨run, .host, 7, by decide +kernel⟩,
    ⟨run, .host, by decide +kernel⟩,
    ⟨run, .host, by decide +kernel⟩⟩

theorem witness_TimeBaseCommands :
    (∃ (s : State) (r : Req) (n : Fin 8) (w0 : Word), (s.listens r (A.TIM_TB_SET_W0 n.val) = true) ∧
      (w0.toNat < 1000000000) ∧ (tbArmed s n.val = true) ∧ (stepPend s n.val = false)) ∧
    (∃ (s : State) (r : Req) (n : Fin 8) (w0 : Word), (s.listens r (A.TIM_TB_SET_W0 n.val) = true) ∧
      (w0.toNat < 1000000000) ∧ (tbArmed s n.val = false)) ∧
    (∃ (s : State) (d : Int) (x : Nat), (s.power.ka = true) ∧ (s.power.die = true) ∧ ((s.tb 0).step = some (d, x)) ∧
      (inGap s = false) ∧ (x ≤ tb0 s)) ∧
    (∃ (s : State) (r : Req) (n : Fin 8) (v : Word), (s.listens r (tbSrc n.val) = true) ∧
      (¬(9 ≤ bits v.toNat 3 0 ∨ (bits v.toNat 3 0 = 1 ∧ n.val ≠ 0)))) ∧
    (∃ (s : State) (r : Req) (n : Fin 8) (v : Word), (s.listens r (tbSrc n.val) = true) ∧
      (9 ≤ bits v.toNat 3 0 ∨ (bits v.toNat 3 0 = 1 ∧ n.val ≠ 0))) ∧
    (∃ (s : State) (k : Fin 4), (s.power.ka = true) ∧ (refPps s k.val = true) ∧ (refState s k.val ≠ 0) ∧
      (annealHolds s 7 k.val = false)) ∧
    (∃ (s : State) (n : Fin 8), (s.power.ka = true) ∧ (srcRateOnly s (srcSel s n.val) = true) ∧ (∃ k, k < 6 ∧
      takesRef s n.val k = true ∧ refSees s k = true) ∧ (n.val ∉ s.refs.spoilt)) ∧
    (∃ (s : State) (n : Fin 8), (s.power.ka = true) ∧ (srcRateOnly s (srcSel s n.val) = true) ∧ (∃ k, k < 6 ∧
      takesRef s n.val k = true ∧ refSees s k = true) ∧ (n.val ∈ s.refs.spoilt)) ∧
    (∃ (s : State) (n : Fin 8), (s.power.ka = true) ∧ (s.due (.tbHold n.val) = true)) :=
  ⟨⟨run, .host, 0, 0#32, by decide +kernel⟩,
    ⟨run.setBit (A.TIM_TB_STAT 0) 27 false, .host, 0, 0#32, by decide +kernel⟩,
    ⟨{ driven with tbs := [(0, { step := some (1, 0) })] }, 1, 0, by decide +kernel⟩,
    ⟨run, .host, 7, 8#32, by decide +kernel⟩,
    ⟨run, .host, 7, 1#32, by decide +kernel⟩,
    ⟨((run.wr (A.REF_FREQ 3) 1).setFld (A.REF_STAT 3) 31 28 2), 3, by decide +kernel⟩,
    ⟨((run.setFld (tbSrc 7) 3 0 6).setFld (A.REF_STAT 3) 31 28 3), 7, by decide +kernel⟩,
    ⟨{ ((run.setFld (tbSrc 7) 3 0 6).setFld (A.REF_STAT 3) 31 28 3) with refs := { spoilt := [7] } }, 7,
      by decide +kernel⟩,
    ⟨tick run (.tbHold 7), 7, by decide +kernel⟩⟩

theorem witness_PtpCommands :
    (∃ (s : State) (p : Fin 64) (m : List Byte), (s.portRuns p.val = true) ∧ (ptpRuns s p.val = true) ∧
      (msgTaken s p.val (toNats m) = false)) ∧
    (∃ (s : State) (p : Fin 64) (m : List Byte), (s.portRuns p.val = true) ∧ (ptpRuns s p.val = true) ∧
      (msgTaken s p.val (toNats m) = true) ∧ (msgKind (toNats m) = 0) ∧ (msgTwoStep (toNats m) = false)) ∧
    (∃ (s : State) (p : Fin 64) (m : List Byte) (f : List Byte), (s.portRuns p.val = true) ∧
      (ptpRuns s p.val = true) ∧ (msgTaken s p.val (toNats m) = true) ∧ (msgKind (toNats m) = 0) ∧
      (msgTwoStep (toNats m) = true) ∧ (msgTaken s p.val (toNats f) = true) ∧ (msgKind (toNats f) = 8) ∧
      (msgSeq (toNats f) = msgSeq (toNats m))) ∧
    (∃ (s : State) (p : Fin 64), (s.portRuns p.val = true) ∧ (ptpRuns s p.val = true) ∧ (ptpState s p.val = 6) ∧
      ((s.ptpOf p.val).syncAt ≤ s.now) ∧ (mayStartEvent s p.val 0 (s.ptpOf p.val).syncSeq = true)) ∧
    (∃ (s : State) (p : Fin 64), (s.portRuns p.val = true) ∧ (ptpRuns s p.val = true) ∧ (8 ≤ ptpState s p.val) ∧
      ((s.ptpOf p.val).reqAt ≤ s.now) ∧ (mayStartEvent s p.val 1 (s.ptpOf p.val).reqSeq = true)) ∧
    (∃ (s : State) (p : Fin 64) (m : List Byte), (s.portRuns p.val = true) ∧ (ptpRuns s p.val = true) ∧
      (ptpState s p.val = 6) ∧ (msgTaken s p.val (toNats m) = true) ∧ (msgKind (toNats m) = 1)) ∧
    (∃ (s : State) (p : Fin 64) (m : List Byte), (s.portRuns p.val = true) ∧ (ptpRuns s p.val = true) ∧
      (8 ≤ ptpState s p.val) ∧ (msgTaken s p.val (toNats m) = true) ∧ (msgKind (toNats m) = 9) ∧
      (msgTarget (toNats m) = portIdentity s p.val) ∧ ((msgSeq (toNats m) + 1) % 65536 = (s.ptpOf p.val).reqSeq)) ∧
    (∃ (s : State) (p : Fin 64) (m : List Byte), (s.portRuns p.val = true) ∧ (ptpRuns s p.val = true) ∧
      (msgTaken s p.val (toNats m) = false)) ∧
    (∃ (s : State) (p : Fin 64) (m : List Byte), (s.portRuns p.val = true) ∧ (ptpRuns s p.val = true) ∧
      (msgTaken s p.val (toNats m) = true) ∧ (msgKind (toNats m) = 11 ∨ msgKind (toNats m) = 12)) ∧
    (∃ (s : State), (s.islandRuns 5 = true) ∧ (s.boot.started = true)) ∧
    (∃ (s : State) (p : Fin 64), (s.portRuns p.val = true) ∧ ((offeredLane s p.val).isSome = true)) :=
  ⟨⟨((up 63 1).setBit (A.PTP_CFG 63) 0 true).setFld (A.PTP_STAT 63) 31 28 8, 63, ptpMsg 2 0, by decide +kernel⟩,
    ⟨((up 63 1).setBit (A.PTP_CFG 63) 0 true).setFld (A.PTP_STAT 63) 31 28 8, 63, ptpMsg 0 0, by decide +kernel⟩,
    ⟨((up 63 1).setBit (A.PTP_CFG 63) 0 true).setFld (A.PTP_STAT 63) 31 28 8, 63, ptpMsg 0 2, ptpMsg 8 0,
      by decide +kernel⟩,
    ⟨((up 63 1).setBit (A.PTP_CFG 63) 0 true).setFld (A.PTP_STAT 63) 31 28 6, 63, by decide +kernel⟩,
    ⟨((up 63 1).setBit (A.PTP_CFG 63) 0 true).setFld (A.PTP_STAT 63) 31 28 8, 63, by decide +kernel⟩,
    ⟨((up 63 1).setBit (A.PTP_CFG 63) 0 true).setFld (A.PTP_STAT 63) 31 28 6, 63, ptpMsg 1 0, by decide +kernel⟩,
    ⟨withSerial (putPtp (((up 63 1).setBit (A.PTP_CFG 63) 0 true).setFld (A.PTP_STAT 63) 31 28 9) 63 { reqSeq := 1 }),
      63, ptpMsg 9 0, by decide +kernel⟩,
    ⟨((up 63 1).setBit (A.PTP_CFG 63) 0 true).setFld (A.PTP_STAT 63) 31 28 6, 63, ptpMsg 2 0, by decide +kernel⟩,
    ⟨((up 63 1).setBit (A.PTP_CFG 63) 0 true).setFld (A.PTP_STAT 63) 31 28 6, 63, ptpMsg 11 0, by decide +kernel⟩,
    ⟨{ run with boot := { started := true } }, by decide +kernel⟩,
    ⟨setLaneState run 504 6, 63, by decide +kernel⟩⟩

theorem witness_ReferenceCommands :
    (∃ (s : State), (s.power.ka = true) ∧ (s.bit A.REF_XO_STAT 0 = false)) ∧
    (∃ (s : State) (k : Fin 6), (s.power.ka = true) ∧ (refState s k.val ≠ 0)) ∧
    (∃ (s : State) (k : Fin 6), (s.power.ka = true) ∧ (refState s k.val ≠ 0)) ∧
    (∃ (s : State) (k : Fin 6), (s.power.ka = true) ∧ (refState s k.val = 2) ∧ (s.due (.refQual k.val) = true)) ∧
    (∃ (s : State) (r : Req), (s.listens r A.REF_SUSP_CLR = true)) ∧
    (∃ (s : State) (r : Req) (k : Fin 6), (s.listens r (A.REF_CFG k.val) = true)) ∧
    (∃ (s : State), (s.power.ka = true) ∧ (selState s = 1) ∧ (refSees s (selCur s) = true)) ∧
    (∃ (s : State), (s.power.ka = true) ∧ (selState s = 2) ∧ (s.due .refWtr = true) ∧ (refValid s (wtrRef s) = true)) ∧
    (∃ (s : State) (r : Req) (v : Word), (s.listens r A.REF_SEL_CTRL = true) ∧
      ((writeSelCtrl (heard s r 1) (v.toNat &&& 0xFFFF0077)).isSome = true)) ∧
    (∃ (s : State) (r : Req) (v : Word), (s.listens r A.REF_SEL_CTRL = true) ∧
      (writeSelCtrl (heard s r 1) (v.toNat &&& 0xFFFF0077) = none)) :=
  ⟨⟨run, by decide +kernel⟩,
    ⟨run.setFld (A.REF_STAT 5) 31 28 1, 5, by decide +kernel⟩,
    ⟨run.setFld (A.REF_STAT 5) 31 28 1, 5, by decide +kernel⟩,
    ⟨tick (run.setFld (A.REF_STAT 5) 31 28 2) (.refQual 5), 5, by decide +kernel⟩,
    ⟨run, .host, by decide +kernel⟩,
    ⟨run, .host, 5, by decide +kernel⟩,
    ⟨run.setFld A.REF_SEL_STAT 31 28 1 |> fun s => s.setFld A.REF_SEL_STAT 26 24 3, by decide +kernel⟩,
    ⟨tick (((run.setFld A.REF_SEL_STAT 31 28 2).setFld A.REF_SEL_STAT 22 20 5).setFld (A.REF_STAT 5) 31 28 3) .refWtr,
      by decide +kernel⟩,
    ⟨run, .host, 0#32, by decide +kernel⟩,
    ⟨run, .host, 3#32, by decide +kernel⟩⟩

theorem witness_SynthCommands :
    (∃ (s : State) (r : Req) (k : Fin 8) (reg : SynReg), (s.listens r (synRegAddr k.val reg) = true)) ∧
    (∃ (s : State) (k : Fin 8), (tclkRuns s = true) ∧ ((s.syn k.val).turn = .fell)) ∧
    (∃ (s : State) (k : Fin 8), (tclkRuns s = true) ∧ (synState s k.val = 2)) ∧
    (∃ (s : State) (k : Fin 8), (tclkRuns s = true) ∧ (synState s k.val = 3)) ∧
    (∃ (s : State) (k : Fin 8), (tclkRuns s = true) ∧ (synState s k.val = 4)) ∧
    (∃ (s : State) (k : Fin 8), (tclkRuns s = true) ∧ (synState s k.val = 5)) ∧
    (∃ (s : State) (k : Fin 8), (tclkRuns s = true) ∧ (synState s k.val = 4) ∧ (s.due (.synRelock k.val) = true)) ∧
    (∃ (s : State) (k : Fin 8), (tclkRuns s = true) ∧ (synState s k.val = 5) ∧ (s.due (.synRetry k.val) = true)) ∧
    (∃ (s : State) (r : Req) (k : Fin 8), (s.listens r (A.PLL_SYN_RAMP k.val) = true)) ∧
    (∃ (s : State) (k : Fin 8), (tclkRuns s = true) ∧ (inGap s = false) ∧ (synWaits s k.val = true) ∧
      (synAtReached s k.val = true)) ∧
    (∃ (s : State) (k : Fin 8), (tclkRuns s = true) ∧ (inGap s = false) ∧ (synRamping s k.val = true) ∧
      (s.due (.synSeg k.val) = true) ∧
      (15 ≤ (s.fld (A.PLL_SYN_STAT k.val) 23 16) ∨ segDur s k.val ((s.fld (A.PLL_SYN_STAT k.val) 23 16) + 1) = 0)) ∧
    (∃ (s : State) (k : Fin 8), (tclkRuns s = true) ∧ (inGap s = false) ∧ (synRamping s k.val = true) ∧
      (s.due (.synSeg k.val) = true) ∧ ((s.fld (A.PLL_SYN_STAT k.val) 23 16) < 15) ∧
      (segDur s k.val ((s.fld (A.PLL_SYN_STAT k.val) 23 16) + 1) ≠ 0)) ∧
    (∃ (s : State) (r : Req) (k : Fin 8), (s.listens r (A.PLL_SYN_RAMP k.val) = true)) ∧
    (∃ (s : State) (k : Fin 8) (f : Bool) (late : Fin 2000), (tclkRuns s = true) ∧ (inGap s = false) ∧
      (alignAdmits s k.val f = true) ∧
      (((alignError s k.val late.val).1).natAbs ≤ (slewStop (putSyn (((alignError s k.val late.val).2).wr (A.PLL_SYN_ALERR k.val) (ofSigned 32 ((alignError s k.val late.val).1))) k.val { ((alignError s k.val late.val).2).syn k.val with once := false }) k.val).fld (A.PLL_SYN_ALIGN k.val) 15 0)) ∧
    (∃ (s : State) (k : Fin 8) (f : Bool) (late : Fin 2000), (tclkRuns s = true) ∧ (inGap s = false) ∧
      (alignAdmits s k.val f = true) ∧
      (¬(((alignError s k.val late.val).1).natAbs ≤ (slewStop (putSyn (((alignError s k.val late.val).2).wr (A.PLL_SYN_ALERR k.val) (ofSigned 32 ((alignError s k.val late.val).1))) k.val { ((alignError s k.val late.val).2).syn k.val with once := false }) k.val).fld (A.PLL_SYN_ALIGN k.val) 15 0)) ∧
      ((slewStop (putSyn (((alignError s k.val late.val).2).wr (A.PLL_SYN_ALERR k.val) (ofSigned 32 ((alignError s k.val late.val).1))) k.val { ((alignError s k.val late.val).2).syn k.val with once := false }) k.val).bit (A.PLL_SYN_CFG k.val) 30 = false ∨ (slewStop (putSyn (((alignError s k.val late.val).2).wr (A.PLL_SYN_ALERR k.val) (ofSigned 32 ((alignError s k.val late.val).1))) k.val { ((alignError s k.val late.val).2).syn k.val with once := false }) k.val).bit (A.PLL_SYN_CFG k.val) 20 = true)) ∧
    (∃ (s : State) (k : Fin 8) (f : Bool) (late : Fin 2000), (tclkRuns s = true) ∧ (inGap s = false) ∧
      (alignAdmits s k.val f = true) ∧
      (¬(((alignError s k.val late.val).1).natAbs ≤ (slewStop (putSyn (((alignError s k.val late.val).2).wr (A.PLL_SYN_ALERR k.val) (ofSigned 32 ((alignError s k.val late.val).1))) k.val { ((alignError s k.val late.val).2).syn k.val with once := false }) k.val).fld (A.PLL_SYN_ALIGN k.val) 15 0)) ∧
      (¬((slewStop (putSyn (((alignError s k.val late.val).2).wr (A.PLL_SYN_ALERR k.val) (ofSigned 32 ((alignError s k.val late.val).1))) k.val { ((alignError s k.val late.val).2).syn k.val with once := false }) k.val).bit (A.PLL_SYN_CFG k.val) 30 = false ∨ (slewStop (putSyn (((alignError s k.val late.val).2).wr (A.PLL_SYN_ALERR k.val) (ofSigned 32 ((alignError s k.val late.val).1))) k.val { ((alignError s k.val late.val).2).syn k.val with once := false }) k.val).bit (A.PLL_SYN_CFG k.val) 20 = true))) ∧
    (∃ (s : State) (k : Fin 8) (ppb : Nat), (tclkRuns s = true) ∧ ((s.syn k.val).slewing = some (0, ppb))) ∧
    (∃ (s : State) (k : Fin 8), (tclkRuns s = true) ∧ (synState s k.val = 1)) :=
  ⟨⟨run, .host, 7, .cfg, by decide +kernel⟩,
    ⟨putSyn driven 7 { turn := .fell }, 7, by decide +kernel⟩,
    ⟨driven.setFld (A.PLL_SYN_STAT 7) 31 28 2, 7, by decide +kernel⟩,
    ⟨driven.setFld (A.PLL_SYN_STAT 7) 31 28 3, 7, by decide +kernel⟩,
    ⟨driven.setFld (A.PLL_SYN_STAT 7) 31 28 4, 7, by decide +kernel⟩,
    ⟨driven.setFld (A.PLL_SYN_STAT 7) 31 28 5, 7, by decide +kernel⟩,
    ⟨tick (driven.setFld (A.PLL_SYN_STAT 7) 31 28 4) (.synRelock 7), 7, by decide +kernel⟩,
    ⟨tick (driven.setFld (A.PLL_SYN_STAT 7) 31 28 5) (.synRetry 7), 7, by decide +kernel⟩,
    ⟨run, .host, 7, by decide +kernel⟩,
    ⟨driven.setBit (A.PLL_SYN_STAT 7) 26 true, 7, by decide +kernel⟩,
    ⟨tick (driven.setFld (A.PLL_SYN_STAT 7) 31 28 3) (.synSeg 7), 7, by decide +kernel⟩,
    ⟨tick ((driven.setFld (A.PLL_SYN_STAT 7) 31 28 3).wr (A.PLL_RAMP_SEG 7 1) 1) (.synSeg 7), 7, by decide +kernel⟩,
    ⟨run, .host, 7, by decide +kernel⟩,
    ⟨alignSyn, 7, false, 0, by decide +kernel⟩,
    ⟨alignSyn, 7, false, 1000, by decide +kernel⟩,
    ⟨alignSyn.setBit (A.PLL_SYN_CFG 7) 30 true, 7, false, 1000, by decide +kernel⟩,
    ⟨putSyn driven 7 { slewing := some (0, 1) }, 7, 1, by decide +kernel⟩,
    ⟨driven.setFld (A.PLL_SYN_STAT 7) 31 28 1, 7, by decide +kernel⟩⟩

theorem witness_LoopCommands :
    (∃ (s : State) (i : Loop), ((if loopKey i = 11 then s.power.ka else s.power.die) = true) ∧
      (loopStopped s (loopKey i) = false)) ∧
    (∃ (s : State) (i : Loop), ((if loopKey i = 11 then s.power.ka else s.power.die) = true) ∧
      (loopStopped s (loopKey i) = true) ∧ ((s.loopOf (loopKey i)).failed = false)) ∧
    (∃ (s : State) (i : Loop), ((if loopKey i = 11 then s.power.ka else s.power.die) = true) ∧
      (s.due (.loop (loopKey i)) = true) ∧
      ((((s.loopOf (loopKey i)).fails.filter fun t => decide (s.now < t + 10000 * ms)) ++ [s.now]).length < 3)) ∧
    (∃ (s : State) (i : Loop), ((if loopKey i = 11 then s.power.ka else s.power.die) = true) ∧
      (s.due (.loop (loopKey i)) = true) ∧
      (3 ≤ (((s.loopOf (loopKey i)).fails.filter fun t => decide (s.now < t + 10000 * ms)) ++ [s.now]).length)) ∧
    (∃ (s : State) (p : Fin 64), (s.portRuns p.val = true)) :=
  ⟨⟨run, .core 11, by decide +kernel⟩,
    ⟨putLoop run 75 { stopped := true }, .port 63, by decide +kernel⟩,
    ⟨tick run (.loop 75), .port 63, by decide +kernel⟩,
    ⟨tick (putLoop run 75 { fails := [0, 0] }) (.loop 75), .port 63, by decide +kernel⟩,
    ⟨run, 63, by decide +kernel⟩⟩

theorem witness_PulseCommands :
    (∃ (s : State) (r : Req) (m : Word), (s.listens r A.PLS_ARM = true) ∧ (∀ k, k < 32 → m.toNat.testBit k = true →
      armRejects (heard s r 1) k = false)) ∧
    (∃ (s : State) (r : Req) (m : Word), (s.listens r A.PLS_ARM = true) ∧ (∃ k, k < 32 ∧ m.toNat.testBit k = true ∧
      armRejects (heard s r 1) k = true)) ∧
    (∃ (s : State) (r : Req), (s.listens r A.PLS_STOP = true)) ∧
    (∃ (s : State) (r : Req) (k : Fin 32), (s.listens r (A.PLS_OUT_CFG k.val) = true)) ∧
    (∃ (s : State) (k : Fin 32) (p : PlsSet) (t : Nat), (tclkRuns s = true) ∧ (inGap s = false) ∧
      ((s.out1 k.val).fall = none) ∧ ((s.out1 k.val).active = some p) ∧
      (plsState s k.val = 1 ∨ plsState s k.val = 2) ∧ ((s.out1 k.val).stopping = false) ∧ (t ≤ tbFine s p.base) ∧
      (p.mode ≤ 1) ∧ ((s.out1 k.val).queue = []) ∧ ((s.out1 k.val).next = some t)) ∧
    (∃ (s : State) (k : Fin 32) (p : PlsSet) (t : Nat), (tclkRuns s = true) ∧ (inGap s = false) ∧
      ((s.out1 k.val).fall = none) ∧ ((s.out1 k.val).active = some p) ∧
      (plsState s k.val = 1 ∨ plsState s k.val = 2) ∧ ((s.out1 k.val).stopping = false) ∧ (t ≤ tbFine s p.base) ∧
      (p.mode = 3) ∧ ((s.out1 k.val).queue = []) ∧ ((s.out1 k.val).next = some t)) ∧
    (∃ (s : State) (k : Fin 32) (p : PlsSet) (t : Nat), (tclkRuns s = true) ∧ (inGap s = false) ∧
      ((s.out1 k.val).fall = none) ∧ ((s.out1 k.val).active = some p) ∧
      (plsState s k.val = 1 ∨ plsState s k.val = 2) ∧ ((s.out1 k.val).stopping = false) ∧ (t ≤ tbFine s p.base) ∧
      (p.mode = 2) ∧ ((s.out1 k.val).queue.head? = some t)) ∧
    (∃ (s : State) (k : Fin 32) (p : PlsSet) (t : Nat), (tclkRuns s = true) ∧ (inGap s = false) ∧
      ((s.out1 k.val).active = some p) ∧ ((s.out1 k.val).fall = some t) ∧ (t ≤ tbFine s p.base)) ∧
    (∃ (s : State) (k : Fin 32) (fire : Nat) (p : PlsSet), (tclkRuns s = true) ∧ ((s.out1 k.val).active = some p) ∧
      (p.mode = 2) ∧ (plsState s k.val = 2) ∧ ((s.out1 k.val).stopping = false) ∧
      (tbFine s p.base + 100 * nsU ≤ (fire * ftU) ∧ (s.out1 k.val).queue.length < 16 ∧
      (earlierFall (s.out1 k.val) p (fire * ftU) = 0 ∨ earlierFall (s.out1 k.val) p (fire * ftU) + 2 * nsU ≤ (fire * ftU)))) ∧
    (∃ (s : State) (k : Fin 32) (fire : Nat) (p : PlsSet), (tclkRuns s = true) ∧ ((s.out1 k.val).active = some p) ∧
      (p.mode = 2) ∧ (plsState s k.val = 2) ∧ ((s.out1 k.val).stopping = false) ∧
      (¬(tbFine s p.base + 100 * nsU ≤ (fire * ftU) ∧ (s.out1 k.val).queue.length < 16 ∧
      (earlierFall (s.out1 k.val) p (fire * ftU) = 0 ∨ earlierFall (s.out1 k.val) p (fire * ftU) + 2 * nsU ≤ (fire * ftU))))) ∧
    (∃ (s : State) (k : Fin 32) (f : Bool) (late : Fin 2000) (p : PlsSet), tclkRuns s = true ∧
      (s.out1 k.val).active = some p ∧ plsAlignAdmits s k.val p f = true ∧
      (pulseError s k.val p (tbAt s p.base late.val)).1.natAbs ≤ 5 * psU) ∧
    (∃ (s : State) (k : Fin 32) (f : Bool) (late : Fin 2000) (p : PlsSet), tclkRuns s = true ∧
      (s.out1 k.val).active = some p ∧ plsAlignAdmits s k.val p f = true ∧
      5 * psU < (pulseError s k.val p (tbAt s p.base late.val)).1.natAbs) ∧
    (∃ (s : State) (k : Fin 32) (x : TrimRec), (tclkRuns s = true) ∧ (s.cal.install = some x) ∧ (calState s = 4) ∧
      (calIndex s = k.val) ∧ (plsQuiet s k.val = true) ∧ (inGap s = false)) :=
  ⟨⟨run, .host, 0#32, by decide +kernel⟩,
    ⟨run, .host, 0x80000000#32, by decide +kernel⟩,
    ⟨run, .host, by decide +kernel⟩,
    ⟨run, .host, 31, by decide +kernel⟩,
    ⟨(putOut driven 31 { active := some (pset 1), next := some 0 }).setFld (A.PLS_OUT_STAT 31) 31 28 2, 31, pset 1,
      0, by decide +kernel⟩,
    ⟨(putOut driven 31 { active := some (pset 3), next := some 0 }).setFld (A.PLS_OUT_STAT 31) 31 28 1, 31, pset 3,
      0, by decide +kernel⟩,
    ⟨(putOut driven 31 { active := some (pset 2), queue := [0] }).setFld (A.PLS_OUT_STAT 31) 31 28 2, 31, pset 2, 0,
      by decide +kernel⟩,
    ⟨(putOut driven 31 { active := some (pset 1), fall := some 0 }).setFld (A.PLS_OUT_STAT 31) 31 28 2, 31, pset 1,
      0, by decide +kernel⟩,
    ⟨(putOut driven 31 { active := some (pset 2), left := 0 }).setFld (A.PLS_OUT_STAT 31) 31 28 2, 31, 1000000000,
      pset 2, by decide +kernel⟩,
    ⟨(putOut driven 31 { active := some (pset 2), left := 0 }).setFld (A.PLS_OUT_STAT 31) 31 28 2, 31, 0, pset 2,
      by decide +kernel⟩,
    near_edge,
    far_edge,
    ⟨{ (driven.setFld A.CAL_STAT 31 28 4).setFld A.CAL_STAT 8 0 31 with cal := { install := some ⟨0, 0, 2⟩ } }, 31,
      ⟨0, 0, 2⟩, by decide +kernel⟩⟩

theorem witness_RisingEdgeEmitted :
    (∃ (s : State) (k : Nat), (k < 32) ∧ ((s.out1 k).shifted = false)) ∧
    (∃ (k : Nat) (j : _), (k < 32) ∧ (j ≠ k)) :=
  ⟨⟨driven, 31, by decide +kernel⟩,
    ⟨31, 0, by decide +kernel⟩⟩

theorem witness_TdcCommands :
    (∃ (s : State) (r : Req), (s.listens r A.TDC_ARM_ALL = true)) ∧
    (∃ (s : State) (r : Req) (i : Fin 16), (s.listens r (A.TDC_CH_CTRL i.val) = true) ∧
      (tdcMode (heard s r 1) i.val = 2) ∧ (tdcState (heard s r 1) i.val = 3)) ∧
    (∃ (s : State) (r : Req) (i : Fin 16), (s.listens r (A.TDC_CH_CTRL i.val) = true) ∧
      (tdcMode (heard s r 1) i.val = 2) ∧ (tdcState (heard s r 1) i.val = 2)) ∧
    (∃ (s : State) (r : Req) (i : Fin 16), (s.listens r (A.TDC_CH_CTRL i.val) = true) ∧
      (tdcMode (heard s r 1) i.val ≠ 2)) ∧
    (∃ (s : State) (g : Fin 4) (b : Bool), (tclkRuns s = true) ∧
      (gateLevel (setGatePin s g.val b) g.val = gateLevel s g.val ∨ inGap s = true)) ∧
    (∃ (s : State) (g : Fin 4) (b : Bool), (tclkRuns s = true) ∧
      (gateLevel (setGatePin s g.val b) g.val ≠ gateLevel s g.val) ∧ (inGap s = false)) ∧
    (∃ (s : State) (i : Fin 16) (f : Bool), (tclkRuns s = true) ∧ (inGap s = false) ∧ (tdcEn s i.val = true) ∧
      (tdcSlope s i.val = 2 ∨ tdcSlope s i.val = bit01 f)) ∧
    (∃ (s : State) (i : Fin 16), (tclkRuns s = true) ∧ (tdcState s i.val = 3) ∧ (s.due (.tdcWin i.val) = true)) ∧
    (∃ (s : State) (i : Fin 16) (m : Meas) (l : List Meas), tclkRuns s = true ∧ (s.tdc i.val).ended = m :: l ∧
      (tdcFails (putTdc s i.val { s.tdc i.val with ended := l }) i.val ++ [s.now]).length < 3 ∧ tdcState s i.val ≠ 5) ∧
    (∃ (s : State) (i : Fin 16) (m : Meas) (l : List Meas), tclkRuns s = true ∧ (s.tdc i.val).ended = m :: l ∧
      (tdcFails (putTdc s i.val { s.tdc i.val with ended := l }) i.val ++ [s.now]).length ≥ 3 ∧ tdcState s i.val ≠ 5) ∧
    (∃ (s : State) (i : Fin 16), (tclkRuns s = true) ∧ (tdcState s i.val = 1) ∧ (s.due (.tdcRearm i.val) = true)) ∧
    (∃ (s : State) (r : Req), (s.listens r A.TDC_UNRETIRE = true)) ∧
    (∃ (s : State) (r : Req) (i : Fin 16) (v : Word), (s.listens r (A.TDC_CH_CFG i.val) = true) ∧
      ((writeTdcCfg (heard s r 1) i.val (v.toNat &&& 0xFFFFFB00)).isSome = true)) ∧
    (∃ (s : State) (r : Req) (i : Fin 16) (v : Word), (s.listens r (A.TDC_CH_CFG i.val) = true) ∧
      (writeTdcCfg (heard s r 1) i.val (v.toNat &&& 0xFFFFFB00) = none)) :=
  ⟨⟨run, .host, by decide +kernel⟩,
    ⟨(driven.setFld (A.TDC_CH_STAT 15) 31 28 3).setFld (A.TDC_CH_CFG 15) 26 25 2, .host, 15, by decide +kernel⟩,
    ⟨(driven.setFld (A.TDC_CH_STAT 15) 31 28 2).setFld (A.TDC_CH_CFG 15) 26 25 2, .host, 15, by decide +kernel⟩,
    ⟨run, .host, 15, by decide +kernel⟩,
    ⟨driven.setBit A.TCO_STAT 11 true, 3, true, by decide +kernel⟩,
    ⟨driven, 3, true, by decide +kernel⟩,
    ⟨(driven.setBit (A.TDC_CH_CFG 15) 31 true).setFld (A.TDC_CH_CFG 15) 30 29 2, 15, true, by decide +kernel⟩,
    ⟨tick (driven.setFld (A.TDC_CH_STAT 15) 31 28 3) (.tdcWin 15), 15, by decide +kernel⟩,
    ⟨putTdc driven 15 { ended := [idleMeas] }, 15, idleMeas, [], by decide +kernel⟩,
    ⟨putTdc driven 15 { ended := [idleMeas], fails := [0, 0] }, 15, idleMeas, [], by decide +kernel⟩,
    ⟨tick (driven.setFld (A.TDC_CH_STAT 15) 31 28 1) (.tdcRearm 15), 15, by decide +kernel⟩,
    ⟨run, .host, by decide +kernel⟩,
    ⟨run, .host, 15, 0x4000#32, by decide +kernel⟩,
    ⟨run, .host, 15, 0x60000000#32, by decide +kernel⟩⟩

theorem witness_CoreCommands :
    (∃ (s : State) (c : Fin 2), (s.power.ka = true) ∧ (coreState (coresEnter s) c.val = 1) ∧
      (coreRuns (coresEnter s) = true ∨ c.val ∈ (coresEnter s).tco.repaired)) ∧
    (∃ (s : State) (c : Fin 2), (s.power.ka = true) ∧ (coreState (coresEnter s) c.val = 1) ∧
      (coreRuns (coresEnter s) = false) ∧ (c.val ∉ (coresEnter s).tco.repaired) ∧ (loopStopped s 11 = false) ∧
      (c.val = 0 ∨ 2 ≤ coreState (coresEnter s) 0)) ∧
    (∃ (s : State) (e : Int) (c : Nat), (s.power.ka = true) ∧ (trackingCore s = some c) ∧ (s.tco.trackAt ≤ s.now) ∧
      (coreState s c = 2) ∧
      ((withinTrack (({ s with tco := { s.tco with lag := trackCorrect (s.tco.lag + e), trackAt := s.now + us } } : State).wr A.TCO_TRK_ERR (ofSigned 32 (clampInt (-(2 ^ 31)) (2 ^ 31 - 1) (halfPs (epsOf (s.tco.lag + e)) 16)))) (epsOf (s.tco.lag + e))) = true) ∧
      (s.runs .coreTrack = true)) ∧
    (∃ (s : State) (e : Int) (c : Nat), (s.power.ka = true) ∧ (trackingCore s = some c) ∧ (s.tco.trackAt ≤ s.now) ∧
      (coreState s c = 2) ∧
      ((withinTrack (({ s with tco := { s.tco with lag := trackCorrect (s.tco.lag + e), trackAt := s.now + us } } : State).wr A.TCO_TRK_ERR (ofSigned 32 (clampInt (-(2 ^ 31)) (2 ^ 31 - 1) (halfPs (epsOf (s.tco.lag + e)) 16)))) (epsOf (s.tco.lag + e))) = true) ∧
      (s.runs .coreTrack = false)) ∧
    (∃ (s : State) (e : Int) (c : Nat), (s.power.ka = true) ∧ (trackingCore s = some c) ∧ (s.tco.trackAt ≤ s.now) ∧
      (coreState s c = 2) ∧
      ((withinTrack (({ s with tco := { s.tco with lag := trackCorrect (s.tco.lag + e), trackAt := s.now + us } } : State).wr A.TCO_TRK_ERR (ofSigned 32 (clampInt (-(2 ^ 31)) (2 ^ 31 - 1) (halfPs (epsOf (s.tco.lag + e)) 16)))) (epsOf (s.tco.lag + e))) = false)) ∧
    (∃ (s : State) (e : Int) (c : Nat), (s.power.ka = true) ∧ (trackingCore s = some c) ∧ (s.tco.trackAt ≤ s.now) ∧
      (coreState s c = 3) ∧
      ((withinTrack (({ s with tco := { s.tco with lag := trackCorrect (s.tco.lag + e), trackAt := s.now + us } } : State).wr A.TCO_TRK_ERR (ofSigned 32 (clampInt (-(2 ^ 31)) (2 ^ 31 - 1) (halfPs (epsOf (s.tco.lag + e)) 16)))) (epsOf (s.tco.lag + e))) = true)) ∧
    (∃ (s : State) (e : Int) (c : Nat), (s.power.ka = true) ∧ (trackingCore s = some c) ∧ (s.tco.trackAt ≤ s.now) ∧
      (coreState s c = 3) ∧
      ((withinTrack (({ s with tco := { s.tco with lag := trackCorrect (s.tco.lag + e), trackAt := s.now + us } } : State).wr A.TCO_TRK_ERR (ofSigned 32 (clampInt (-(2 ^ 31)) (2 ^ 31 - 1) (halfPs (epsOf (s.tco.lag + e)) 16)))) (epsOf (s.tco.lag + e))) = false) ∧
      (s.tco.misses < 15)) ∧
    (∃ (s : State) (e : Int) (c : Nat), (s.power.ka = true) ∧ (trackingCore s = some c) ∧ (s.tco.trackAt ≤ s.now) ∧
      (coreState s c = 3) ∧
      ((withinTrack (({ s with tco := { s.tco with lag := trackCorrect (s.tco.lag + e), trackAt := s.now + us } } : State).wr A.TCO_TRK_ERR (ofSigned 32 (clampInt (-(2 ^ 31)) (2 ^ 31 - 1) (halfPs (epsOf (s.tco.lag + e)) 16)))) (epsOf (s.tco.lag + e))) = false) ∧
      (15 ≤ s.tco.misses)) ∧
    (∃ (s : State) (c : Nat), (s.power.ka = true) ∧ (trackingCore s = some c) ∧ (coreState s c = 2) ∧
      (s.due .coreTrack = true)) ∧
    (∃ (s : State), (s.power.ka = true) ∧ (coreState s (activeCore s) = 4 ∨ coreState s (activeCore s) = 6) ∧
      ((trackingCore s).isSome = true)) ∧
    (∃ (s : State), (s.power.ka = true) ∧ (coreState s (activeCore s) = 4 ∨ coreState s (activeCore s) = 6) ∧
      (trackingCore s = none)) ∧
    (∃ (s : State) (r : Req), (s.listens r A.TCO_CTRL = true) ∧ (switchOk (heard s r 2) = true)) ∧
    (∃ (s : State) (r : Req), (s.listens r A.TCO_CTRL = true) ∧ (switchOk (heard s r 2) = false)) ∧
    (∃ (s : State), (s.power.ka = true) ∧ (inGap s = true)) ∧
    (∃ (s : State) (item : Fin 8) (c : Nat), (s.power.ka = true) ∧ (trackingCore s = some c) ∧ (inGap s = false) ∧
      (item ≠ 0) ∧ (item ≠ 7)) ∧
    (∃ (s : State) (item : Fin 8) (c : Nat), (s.power.ka = true) ∧ (trackingCore s = some c) ∧ (inGap s = false) ∧
      (item ≠ 0) ∧ (item = 7)) ∧
    (∃ (s : State) (item : Fin 8) (c : Nat), (s.power.ka = true) ∧ (trackingCore s = some c) ∧ (inGap s = false) ∧
      (item ≠ 0) ∧ (item ≠ 7)) ∧
    (∃ (s : State) (r : Req), (s.listens r A.TCO_CTRL = true)) ∧
    (∃ (s : State) (c : Fin 2), (s.power.ka = true) ∧ (s.bit A.TCO_CFG 0 = true) ∧ (coreState s c.val = 5) ∧
      (Map.get 0 s.tco.failedAt c.val + 60000 * ms ≤ s.now) ∧ (coreFails s c.val < 3)) :=
  ⟨⟨driven.setFld A.TCO_STAT 10 8 1, 1, by decide +kernel⟩,
    ⟨(on []).setFld A.TCO_STAT 6 4 1, 0, by decide +kernel⟩,
    ⟨tick (driven.setFld A.TCO_STAT 10 8 2) .coreTrack, 0, 1, by decide +kernel⟩,
    ⟨driven.setFld A.TCO_STAT 10 8 2, 0, 1, by decide +kernel⟩,
    ⟨driven.setFld A.TCO_STAT 10 8 2, 2 ^ 56, 1, by decide +kernel⟩,
    ⟨driven.setFld A.TCO_STAT 10 8 3, 0, 1, by decide +kernel⟩,
    ⟨driven.setFld A.TCO_STAT 10 8 3, 2 ^ 56, 1, by decide +kernel⟩,
    ⟨{ driven.setFld A.TCO_STAT 10 8 3 with tco := { misses := 15 } }, 2 ^ 56, 1, by decide +kernel⟩,
    ⟨tick (driven.setFld A.TCO_STAT 10 8 2) .coreTrack, 1, by decide +kernel⟩,
    ⟨driven.setFld A.TCO_STAT 10 8 3, by decide +kernel⟩,
    ⟨driven, by decide +kernel⟩,
    ⟨driven.setFld A.TCO_STAT 10 8 3, .host, by decide +kernel⟩,
    ⟨driven, .host, by decide +kernel⟩,
    ⟨driven.setBit A.TCO_STAT 11 true, by decide +kernel⟩,
    ⟨driven.setFld A.TCO_STAT 10 8 3, 6, 1, by decide +kernel⟩,
    ⟨driven.setFld A.TCO_STAT 10 8 3, 7, 1, by decide +kernel⟩,
    ⟨driven.setFld A.TCO_STAT 10 8 3, 1, 1, by decide +kernel⟩,
    ⟨run, .host, by decide +kernel⟩,
    ⟨{ (driven.setBit A.TCO_CFG 0 true).setFld A.TCO_STAT 10 8 5 with now := 60000 * ms }, 1, by decide +kernel⟩⟩

theorem witness_CalCommands :
    (∃ (s : State) (r : Req), (s.listens r A.CAL_CTRL = true) ∧ (calState (heard s r 1) = 0)) ∧
    (∃ (s : State) (r : Req), (s.listens r A.CAL_CTRL = true) ∧ (calState (heard s r 1) ≠ 0)) ∧
    (∃ (s : State), (tclkRuns s = true) ∧ (calState s = 2) ∧ (inGap s = false) ∧ (calBroken s = true)) ∧
    (∃ (s : State), (tclkRuns s = true) ∧ (calState s = 2) ∧ (inGap s = false) ∧ (calBroken s = false) ∧
      (calKind s = 4 ∨ calKind s = 5 → tdcState s (calIndex s) = 4) ∧ (s.cal.m1 = none)) ∧
    (∃ (s : State) (x : _), (tclkRuns s = true) ∧ (calState s = 2) ∧ (inGap s = false) ∧ (calBroken s = false) ∧
      (calKind s = 4 ∨ calKind s = 5 → tdcState s (calIndex s) = 4) ∧ (s.cal.m1 = some x)) ∧
    (∃ (s : State), (tclkRuns s = true) ∧ (calBroken s = true)) ∧
    (∃ (s : State), (tclkRuns s = true) ∧ (calState s = 2) ∧ (calKind s = 4 ∨ calKind s = 5) ∧
      (s.due .calBusy = true) ∧ (tdcState s (calIndex s) = 3)) ∧
    (∃ (s : State) (r : Req), (s.listens r A.CAL_SAVE_CTRL = true) ∧ (saveOk (heard s r 2) = true)) ∧
    (∃ (s : State) (r : Req), (s.listens r A.CAL_SAVE_CTRL = true) ∧ (saveOk (heard s r 2) = false)) ∧
    (∃ (s : State) (c : Nat) (l : List Nat), (s.power.die = true) ∧ (s.cal.saving = c :: l) ∧
      ((copyPlace s c).isNone = true)) ∧
    (∃ (s : State) (c : Nat) (l : List Nat), (s.power.die = true) ∧ (s.cal.saving = c :: l) ∧
      ((copyPlace s c).isSome = true) ∧ (s.cal.steps ≤ 1)) ∧
    (∃ (s : State) (c : Nat) (l : List Nat), (s.power.die = true) ∧ (s.cal.saving = c :: l) ∧
      ((copyPlace s c).isSome = true) ∧ (1 < s.cal.steps)) ∧
    (∃ (s : State) (c : Nat) (l : List Nat), (s.power.die = true) ∧ (s.cal.saving = c :: l) ∧
      ((copyPlace s c).isSome = true) ∧ (s.cal.steps = 1)) ∧
    (∃ (s : State) (c : Nat) (l : List Nat), (s.power.die = true) ∧ (s.cal.saving = c :: l) ∧ (saveBusy s = true) ∧
      (s.due .calSave = true)) :=
  ⟨⟨run, .host, by decide +kernel⟩,
    ⟨run.setFld A.CAL_STAT 31 28 2, .host, by decide +kernel⟩,
    ⟨(coreOn (boot 3)).setFld A.CAL_STAT 31 28 2, by decide +kernel⟩,
    ⟨(driven.setFld A.CAL_STAT 31 28 2).setFld A.CAL_STAT 23 20 3, by decide +kernel⟩,
    ⟨{ (driven.setFld A.CAL_STAT 31 28 2).setFld A.CAL_STAT 23 20 3 with cal := { m1 := some [] } }, [],
      by decide +kernel⟩,
    ⟨(coreOn (boot 3)).setFld A.CAL_STAT 31 28 2, by decide +kernel⟩,
    ⟨tick (((driven.setFld A.CAL_STAT 31 28 2).setFld A.CAL_STAT 23 20 4).setFld (A.TDC_CH_STAT 0) 31 28 3) .calBusy,
      by decide +kernel⟩,
    ⟨run, .host, by decide +kernel⟩,
    ⟨run.setFld A.CAL_STAT 31 28 2, .host, by decide +kernel⟩,
    ⟨{ run with cal := { saving := [0], steps := 1 } }, 0, [], by decide +kernel⟩,
    ⟨{ run with cal := { saving := [0], steps := 1 }, boot := { flash0 := some ⟨2 ^ 24, 0, none⟩ } }, 0, [],
      by decide +kernel⟩,
    ⟨{ run with cal := { saving := [0], steps := 2 }, boot := { flash0 := some ⟨2 ^ 24, 0, none⟩ } }, 0, [],
      by decide +kernel⟩,
    ⟨{ run with cal := { saving := [0], steps := 1 }, boot := { flash0 := some ⟨2 ^ 24, 0, none⟩ } }, 0, [],
      by decide +kernel⟩,
    ⟨{ tick (run.setBit A.CAL_STAT 27 true) .calSave with cal := { saving := [0], steps := 1 } }, 0, [],
      by decide +kernel⟩⟩

theorem witness_SwitchOver :
    ∃ (s : State) (cause : Nat), (1 ≤ cause) ∧ (cause ≤ 4) ∧ (coreState s (activeCore s) = 4) ∧
    (coreState s (1 - activeCore s) = 2 ∨ coreState s (1 - activeCore s) = 3) :=
  ⟨driven.setFld A.TCO_STAT 10 8 3, 4, by decide +kernel⟩

theorem witness_ClassifyCommands :
    (∃ (s : State) (p : Fin 64), (s.power.die = true) ∧ (portUp s p.val = true)) ∧
    (∃ (s : State) (slice : Fin 4) (k : Pkt) (f : Frame), (s.islandRuns slice.val = true) ∧
      ((s.buf.pkts.find? fun k => k.loc = .recirc slice.val) = some k) ∧ (frameOf s k.fid = some f) ∧
      (pathBusy s slice.val = false)) ∧
    (∃ (s : State) (slice : Fin 4) (k : Pkt) (f : Frame), (s.islandRuns slice.val = true) ∧
      ((s.buf.pkts.find? fun k => k.loc = .recirc slice.val) = some k) ∧ (frameOf s k.fid = some f) ∧
      (pathBusy s slice.val = true)) ∧
    (∃ (s : State), (s.islandRuns 4 = true)) :=
  ⟨⟨up 63 1, 63, by decide +kernel⟩,
    ⟨holding [cp (.port 63) 63 0 (.recirc 3)] fr, 3, cp (.port 63) 63 0 (.recirc 3), fr, by decide +kernel⟩,
    ⟨{ run with buf := { frames := [fr], pkts := [cp (.port 63) 63 0 (.recirc 3)], recirc := [(3, 1)] } }, 3,
      cp (.port 63) 63 0 (.recirc 3), fr, by decide +kernel⟩,
    ⟨run, by decide +kernel⟩⟩

theorem witness_MouldCommands :
    (∃ (s : State) (slice : Fin 4) (x : Fin 2) (e : Fin 32768), s.islandRuns slice.val = true ∧
      entryBad s slice.val x.val e.val = true ∧ (∃ i, 1 ≤ i ∧ i ≤ 3 ∧
      entryBad s ((slice.val + i) % 4) x.val e.val = false)) ∧
    (∃ (s : State) (slice : Fin 4) (x : Fin 2) (e : Fin 32768), (s.islandRuns slice.val = true) ∧
      (entryBad s slice.val x.val e.val = true) ∧ (∀ i, 1 ≤ i → i ≤ 3 →
      entryBad s ((slice.val + i) % 4) x.val e.val = true)) ∧
    (∃ (s : State) (r : Req) (o : Fin 8388608), (s.listens r (0x2000000 + o.val) = true) ∧ (o.val % 4 = 0) ∧
      (rowOf (0x2000000 + o.val) ≠ none) ∧ (slotState (heard s r 1) (o.val / 0x400000) = 1) ∧
      ((o.val / 0x400000) ∉ (heard s r 1).cls.clearing)) ∧
    (∃ (s : State) (r : Req) (o : Fin 8388608), (s.listens r (0x2000000 + o.val) = true) ∧ (o.val % 4 = 0) ∧
      (rowOf (0x2000000 + o.val) ≠ none) ∧ (slotState (heard s r 1) (o.val / 0x400000) = 1) ∧
      ((o.val / 0x400000) ∈ (heard s r 1).cls.clearing)) ∧
    (∃ (s : State) (r : Req) (o : Fin 8388608), (s.listens r (0x2000000 + o.val) = true) ∧ (o.val % 4 = 0) ∧
      (rowOf (0x2000000 + o.val) ≠ none) ∧ (slotState (heard s r 1) (o.val / 0x400000) ≠ 1)) :=
  ⟨⟨{ run with cls := { bad := [badKey 3 1 32767] } }, 3, 1, 32767, by decide +kernel, by decide +kernel, 1,
      by decide +kernel⟩,
    ⟨{ run with cls := { bad := [badKey 0 1 0, badKey 1 1 0, badKey 2 1 0, badKey 3 1 0] } }, 3, 1, 0,
      by decide +kernel⟩,
    ⟨setSlotState run 1 1, .host, 0x400000, by decide +kernel⟩,
    ⟨{ setSlotState run 1 1 with cls := { clearing := [1] } }, .host, 0x400000, by decide +kernel⟩,
    ⟨run, .host, 0, by decide +kernel⟩⟩

theorem witness_ReceivedFrameEnters :
    ∃ (s : State) (p : Fin 64) (b : List Byte) (st : RxStamp) (t : Nat), (portUp s p.val = true) ∧
    (typeEff s p.val ≠ 13) ∧ (bootState s ≠ 8) ∧ (portStalled s p.val = false) ∧
    ((receivedFrame (countArrival (freshId s).2 p.val (rxTime (freshId s).2 p.val st)) p.val ((freshId s).1) b st t).bad = false) ∧
    (takenOut (((countArrival (freshId s).2 p.val (rxTime (freshId s).2 p.val st)).pmcEvent (runnerOfPort p.val) (0x040 + 16 * (p.val % 4)) 1).pmcEvent (runnerOfPort p.val) ((0x040 + 16 * (p.val % 4)) + 1) (frameLen (receivedFrame (countArrival (freshId s).2 p.val (rxTime (freshId s).2 p.val st)) p.val ((freshId s).1) b st t))) p.val (toNats b) = false) :=
  ⟨up 63 1, 63, goodFrame, quietStamp, 0, by decide +kernel⟩

theorem witness_WinningEntry :
    (∃ (s : State) (x key : Nat), x < 2 ∧ (winner s x key).isSome = true) ∧
    (∃ (s : State) (x key : Nat), x < 2 ∧ winner s x key = none) ∧
    (∃ (s : State) (f : Frame) (d : List Nat) (k : Key), f.slot = some 1 ∧ parseKey d (prsCfg s) = .ok k ∧
      winner s 1 (keyBits k f.inPort f.pass (tsqFlagged f.tsq)) = none) :=
  ⟨⟨run.wr (A.TBL_MOULD 65535 31) 0x08000000, 1, 5, by decide +kernel⟩,
    ⟨run, 1, 5, by decide +kernel⟩,
    ⟨run, { fr with slot := some 1 }, List.replicate 64 0, _, rfl, rfl, by decide +kernel⟩⟩

theorem witness_HeatOperations :
    (∃ (s : State) (r : Req), (s.listens r A.HEAT_CTRL = true) ∧
      (slotState (heard s r 2) (loadingSlot (heard s r 2)) = 0)) ∧
    (∃ (s : State) (r : Req), (s.listens r A.HEAT_CTRL = true) ∧
      (slotState (heard s r 2) (loadingSlot (heard s r 2)) ≠ 0)) ∧
    (∃ (s : State) (r : Req), (s.listens r A.HEAT_CTRL = true) ∧
      (slotState (heard s r 2) (loadingSlot (heard s r 2)) = 1)) ∧
    (∃ (s : State) (r : Req), (s.listens r A.HEAT_CTRL = true) ∧
      (slotState (heard s r 2) (loadingSlot (heard s r 2)) ≠ 1)) ∧
    (∃ (s : State) (r : Req), (s.listens r A.HEAT_CTRL = true) ∧
      (1 ≤ slotState (heard s r 2) (loadingSlot (heard s r 2))) ∧
      (slotState (heard s r 2) (loadingSlot (heard s r 2)) ≤ 4) ∧ ((heard s r 2).cls.commit = none)) ∧
    (∃ (s : State) (r : Req), (s.listens r A.HEAT_CTRL = true) ∧
      (slotState (heard s r 2) (loadingSlot (heard s r 2)) = 0 ∨ 4 < slotState (heard s r 2) (loadingSlot (heard s r 2)) ∨ (heard s r 2).cls.commit.isSome = true)) ∧
    (∃ (s : State) (r : Req) (c : _), (s.listens r A.HEAT_CTRL = true) ∧ ((heard s r 2).cls.commit = some c)) ∧
    (∃ (s : State) (r : Req), (s.listens r A.HEAT_CTRL = true) ∧ ((heard s r 2).cls.commit = none)) :=
  ⟨⟨run, .host, by decide +kernel⟩,
    ⟨setSlotState run 0 1, .host, by decide +kernel⟩,
    ⟨setSlotState run 0 1, .host, by decide +kernel⟩,
    ⟨run, .host, by decide +kernel⟩,
    ⟨setSlotState run 0 4, .host, by decide +kernel⟩,
    ⟨run, .host, by decide +kernel⟩,
    ⟨{ run with cls := { commit := some hrec } }, .host, hrec, by decide +kernel⟩,
    ⟨run, .host, by decide +kernel⟩⟩

theorem witness_HeatCommands :
    (∃ (s : State) (e : _), (s.islandRuns 4 = true) ∧ (slotState s (loadingSlot s) = 2) ∧
      (loadingSlot s ∉ s.cls.clearing) ∧
      (((validEntries s (loadingSlot s)).find? fun e => decide (refusal s (loadingSlot s) e ≠ 0)) = some e)) ∧
    (∃ (s : State), (s.islandRuns 4 = true) ∧ (slotState s (loadingSlot s) = 2) ∧ (loadingSlot s ∉ s.cls.clearing) ∧
      (∀ e, e ∈ validEntries s (loadingSlot s) → refusal s (loadingSlot s) e = 0)) ∧
    (∃ (s : State) (c : HeatRec), (s.islandRuns 4 = true) ∧ (s.cls.commit = some c) ∧ (c.waiting = false) ∧
      (c.verdict = none) ∧ (c.t ≤ tb0 s + us * nsUnits) ∧ (∃ y, activeSlot s = some y ∧ slotHeat s y = c.heat)) ∧
    (∃ (s : State) (c : HeatRec), (s.islandRuns 4 = true) ∧ (s.cls.commit = some c) ∧ (c.waiting = false) ∧
      (c.verdict = none) ∧ (c.t ≤ tb0 s + us * nsUnits) ∧ (¬(∃ y, activeSlot s = some y ∧ slotHeat s y = c.heat)) ∧
      ((slotState s (loadingSlot s)) = 3)) ∧
    (∃ (s : State) (c : HeatRec), (s.islandRuns 4 = true) ∧ (s.cls.commit = some c) ∧ (c.waiting = false) ∧
      (c.verdict = none) ∧ (c.t ≤ tb0 s + us * nsUnits) ∧ (¬(∃ y, activeSlot s = some y ∧ slotHeat s y = c.heat)) ∧
      ((slotState s (loadingSlot s)) = 4)) ∧
    (∃ (s : State) (c : HeatRec), (s.islandRuns 4 = true) ∧ (s.cls.commit = some c) ∧ (c.waiting = false) ∧
      (c.verdict = none) ∧ (c.t ≤ tb0 s + us * nsUnits) ∧ (¬(∃ y, activeSlot s = some y ∧ slotHeat s y = c.heat)) ∧
      ((slotState s (loadingSlot s)) ≠ 3) ∧ ((slotState s (loadingSlot s)) ≠ 4)) ∧
    (∃ (s : State) (c : HeatRec) (v : Nat) (a : TacAct), s.islandRuns 4 = true ∧ s.cls.commit = some c ∧
      c.verdict = some v ∧ c.t ≤ tb0 s ∧ c.timed.bind (actOf s) = some a ∧ isScheduled a = true ∧ actTurn s a = false) ∧
    (∃ (s : State) (c : HeatRec) (v : Nat), (s.islandRuns 4 = true) ∧ (s.cls.commit = some c) ∧
      (c.verdict = some v) ∧ (c.t ≤ tb0 s) ∧ (∀ a, c.timed.bind (actOf s) = some a → isScheduled a = true →
      actTurn s a = true) ∧ (inSleep s = true) ∧ (c.timed.isSome = true)) ∧
    (∃ (s : State) (c : HeatRec) (v : Nat), (s.islandRuns 4 = true) ∧ (s.cls.commit = some c) ∧
      (c.verdict = some v) ∧ (c.t ≤ tb0 s) ∧ (∀ a, c.timed.bind (actOf s) = some a → isScheduled a = true →
      actTurn s a = true) ∧ (inSleep s = true → c.timed = none) ∧ (v = 1 ∨ v = 2) ∧ (slotState s (loadingSlot s) = 3)) ∧
    (∃ (s : State) (c : HeatRec) (v : Nat), (s.islandRuns 4 = true) ∧ (s.cls.commit = some c) ∧
      (c.verdict = some v) ∧ (c.t ≤ tb0 s) ∧ (∀ a, c.timed.bind (actOf s) = some a → isScheduled a = true →
      actTurn s a = true) ∧ (inSleep s = true → c.timed = none) ∧ (v = 1 ∨ v = 2) ∧ (slotState s (loadingSlot s) ≠ 3)) ∧
    (∃ (s : State) (c : HeatRec) (v : Nat), (s.islandRuns 4 = true) ∧ (s.cls.commit = some c) ∧
      (c.verdict = some v) ∧ (c.t ≤ tb0 s) ∧ (∀ a, c.timed.bind (actOf s) = some a → isScheduled a = true →
      actTurn s a = true) ∧ (inSleep s = true → c.timed = none) ∧ (v ≠ 1) ∧ (v ≠ 2)) ∧
    (∃ (s : State) (c : HeatRec), (s.islandRuns 4 = true) ∧ (s.cls.commit = some c) ∧ (c.waiting = true) ∧
      (c.verdict = none) ∧ (c.t + Nat.max 1 (s.fld A.HEAT_CFG 15 0) * ms * nsUnits ≤ tb0 s)) ∧
    (∃ (s : State) (x : Fin 2), (s.islandRuns 4 = true) ∧ (slotState s x.val = 6) ∧ (slotRefs s x.val = 0)) ∧
    (∃ (s : State) (x : Fin 2), (s.islandRuns 4 = true) ∧ (slotState s x.val = 6) ∧ (s.fld A.HEAT_CFG 31 16 ≠ 0) ∧
      (s.cls.drainAt + s.fld A.HEAT_CFG 31 16 * ms ≤ s.now)) :=
  ⟨⟨(setSlotState run 0 2).wr (A.TBL_MOULD 0 31) 0x98000000, 0, by decide +kernel⟩,
    ⟨setSlotState run 0 2, by decide +kernel⟩,
    ⟨{ run.setBit A.HEAT_STAT 31 true with cls := { commit := some { hrec with heat := 0 } } },
      { hrec with heat := 0 }, by decide +kernel⟩,
    ⟨{ setSlotState run 0 3 with cls := { commit := some hrec } }, hrec, by decide +kernel⟩,
    ⟨{ setSlotState run 0 4 with cls := { commit := some hrec } }, hrec, by decide +kernel⟩,
    ⟨{ run with cls := { commit := some hrec } }, hrec, by decide +kernel⟩,
    ⟨{ run with cls := { commit := some { hrec with verdict := some 1, timed := some 1 } }, tac := { acts := [act 1, { act 8 with id := 2, slot := some 14 }] } },
      { hrec with verdict := some 1, timed := some 1 }, 1, act 1, by decide +kernel⟩,
    ⟨{ boot 8 with cls := { commit := some { hrec with verdict := some 1, timed := some 1 } } },
      { hrec with verdict := some 1, timed := some 1 }, 1, by decide +kernel⟩,
    ⟨{ setSlotState run 0 3 with cls := { commit := some { hrec with verdict := some 1 } } },
      { hrec with verdict := some 1 }, 1, by decide +kernel⟩,
    ⟨{ run with cls := { commit := some { hrec with verdict := some 1 } } }, { hrec with verdict := some 1 }, 1,
      by decide +kernel⟩,
    ⟨{ run with cls := { commit := some { hrec with verdict := some 4 } } }, { hrec with verdict := some 4 }, 4,
      by decide +kernel⟩,
    ⟨{ late with cls := { commit := some { hrec with waiting := true } } }, { hrec with waiting := true },
      by decide +kernel⟩,
    ⟨setSlotState run 1 6, 1, by decide +kernel⟩,
    ⟨{ (setSlotState run 1 6).setFld A.HEAT_CFG 31 16 1 with now := ms }, 1, by decide +kernel⟩⟩

theorem witness_CommitActivates :
    ∃ (s : State), ((activeSlot s).isSome = true) :=
  ⟨run.setBit A.HEAT_STAT 31 true, by decide +kernel⟩

theorem witness_QueueCommands :
    (∃ (s : State) (k : Pkt) (f : Frame) (e : _), (s.islandRuns 4 = true) ∧ (nextAdmit s = some k) ∧
      (frameOf s k.fid = some f) ∧ (k.dest = .port e)) ∧
    (∃ (s : State) (k : Pkt) (f : Frame) (g : _), (s.islandRuns 4 = true) ∧ (nextAdmit s = some k) ∧
      (frameOf s k.fid = some f) ∧ (k.dest = .lag g) ∧ (grpEn s g = false)) ∧
    (∃ (s : State) (k : Pkt) (f : Frame) (g : _) (m : _), (s.islandRuns 4 = true) ∧ (nextAdmit s = some k) ∧
      (frameOf s k.fid = some f) ∧ (k.dest = .lag g) ∧ (grpEn s g = true) ∧ (grpSpread s g = true) ∧
      (firstEligible s g (s.fld (A.SPR_GRP_STAT g) 19 16) = some m)) ∧
    (∃ (s : State) (k : Pkt) (f : Frame) (g : _), (s.islandRuns 4 = true) ∧ (nextAdmit s = some k) ∧
      (frameOf s k.fid = some f) ∧ (k.dest = .lag g) ∧ (grpEn s g = true) ∧ (grpSpread s g = true) ∧
      (firstEligible s g (s.fld (A.SPR_GRP_STAT g) 19 16) = none)) ∧
    (∃ (s : State) (k : Pkt) (f : Frame) (g : _), (s.islandRuns 4 = true) ∧ (nextAdmit s = some k) ∧
      (frameOf s k.fid = some f) ∧ (k.dest = .lag g) ∧ (grpEn s g = true) ∧ (grpSpread s g = false)) ∧
    (∃ (s : State) (x : Injected), (s.islandRuns 4 = true) ∧ (60 ≤ x.body.length) ∧ (x.body.length ≤ 16379)) ∧
    (∃ (s u : State) (p : Fin 64) (q : Nat) (k : Pkt) (n : Nat), s.egressRuns p.val = true ∧
      u = serveControl s p.val ∧ portUp u p.val = true ∧ (u.eg p.val).busy = none ∧
      (selectQueue u p.val).map (·.1) = some q ∧ eligibleHead u p.val q = some (k, n) ∧
      (frameOf u k.fid).isSome = true) ∧
    (∃ (s u : State) (p : Fin 64) (q : Nat) (k : Pkt) (n : Nat), s.egressRuns p.val = true ∧ u = s ∧
      portUp u p.val = true ∧ (u.eg p.val).busy = none ∧ (selectQueue u p.val).map (·.1) = some q ∧
      eligibleHead u p.val q = some (k, n) ∧ (frameOf u k.fid).isSome = true) ∧
    (∃ (s : State) (p : Fin 64) (k : Pkt), s.egressRuns p.val = true ∧ transmitting s p.val = some k ∧
      (frameOf s k.fid).isSome = true) ∧
    (∃ (s : State) (p : Fin 64) (k : Pkt) (f : Frame), (s.egressRuns p.val = true) ∧ (txDone s p.val = true) ∧
      (transmitting (putEg s p.val { s.eg p.val with busy := none }) p.val = some k) ∧
      (frameOf (putEg s p.val { s.eg p.val with busy := none }) k.fid = some f) ∧ (f.early = false)) ∧
    (∃ (s : State) (p : Fin 64) (k : Pkt) (f : Frame), (s.egressRuns p.val = true) ∧ (txDone s p.val = true) ∧
      (transmitting (putEg s p.val { s.eg p.val with busy := none }) p.val = some k) ∧
      (frameOf (putEg s p.val { s.eg p.val with busy := none }) k.fid = some f) ∧ (f.early = true)) ∧
    (∃ (s : State), (s.islandRuns 4 = true)) :=
  ⟨⟨holding [cp (.port 63) 63 7 .toAdmit] fr, cp (.port 63) 63 7 .toAdmit, fr, 63, by decide +kernel⟩,
    ⟨holding [cp (.lag 31) 63 7 .toAdmit] fr, cp (.lag 31) 63 7 .toAdmit, fr, 31, by decide +kernel⟩,
    ⟨{ spreadGroup with buf := { frames := [fr], pkts := [cp (.lag 31) 63 7 .toAdmit] } },
      cp (.lag 31) 63 7 .toAdmit, fr, 31, 15, by decide +kernel⟩,
    ⟨{ run.wr (A.SPR_GRP_CFG 31) 0xC0000000 with buf := { frames := [fr], pkts := [cp (.lag 31) 63 7 .toAdmit] } },
      cp (.lag 31) 63 7 .toAdmit, fr, 31, by decide +kernel⟩,
    ⟨{ run.setBit (A.SPR_GRP_CFG 31) 31 true with buf := { frames := [fr], pkts := [cp (.lag 31) 63 7 .toAdmit] } },
      cp (.lag 31) 63 7 .toAdmit, fr, 31, by decide +kernel⟩,
    ⟨run, ⟨List.replicate 60 0, .port 0, 0, false⟩, by decide +kernel⟩,
    ⟨{ up 63 1 with buf := { frames := [fr], pkts := [cp (.port 63) 63 7 .queue] } }, _, 63, 7,
      cp (.port 63) 63 7 .queue, 64, by decide +kernel, rfl, by decide +kernel⟩,
    ⟨{ up 63 1 with buf := { frames := [fr], pkts := [cp (.port 63) 63 7 .queue] } }, _, 63, 7,
      cp (.port 63) 63 7 .queue, 64, by decide +kernel, rfl, by decide +kernel⟩,
    ⟨holding [cp (.port 63) 63 7 .transmit] fr, 63, cp (.port 63) 63 7 .transmit, by decide +kernel⟩,
    ⟨putEg (holding [cp (.port 63) 63 7 .transmit] fr) 63 { busy := some 0 }, 63, cp (.port 63) 63 7 .transmit, fr,
      by decide +kernel⟩,
    ⟨putEg (holding [cp (.port 63) 63 7 .transmit] { fr with early := true }) 63 { busy := some 0 }, 63,
      cp (.port 63) 63 7 .transmit, { fr with early := true }, by decide +kernel⟩,
    ⟨run, by decide +kernel⟩⟩

theorem witness_DeepTierCommands :
    (∃ (s : State) (x : Fin 896) (k : Pkt) (d : DeepCells), s.islandRuns 4 = true ∧ regionRuns s x.val = true ∧
      nextStaged s = some k ∧ k.deep = some d ∧ (frameOf s k.fid).isSome = true ∧ regionAvailable s x.val = true ∧
      regionUse s x.val < 262144 ∧ nextChannel s (17 * k.e + k.q) = none ∧
      deepLimit s < deepRate s (recentMoves s s.buf.written)) ∧
    (∃ (s : State) (x : Fin 896) (k : Pkt) (d : DeepCells), s.islandRuns 4 = true ∧ regionRuns s x.val = true ∧
      nextStaged s = some k ∧ k.deep = some d ∧ (frameOf s k.fid).isSome = true ∧ regionAvailable s x.val = true ∧
      regionUse s x.val < 262144 ∧ nextChannel s (17 * k.e + k.q) = none ∧
      deepRate s (recentMoves s s.buf.written) ≤ deepLimit s) ∧
    (∃ (s : State) (k : Pkt) (d : DeepCells) (x : StoredCell) (l : List StoredCell), (s.islandRuns 4 = true) ∧
      (nextFetch s = some k) ∧ (k.deep = some d) ∧ (d.stored = x :: l) ∧ (regionRuns s x.region = true) ∧
      (deepRate s (recentMoves s s.buf.fetched) ≤ deepLimit s)) ∧
    (∃ (s : State) (p : Fin 64) (q : Fin 16) (v : Vector CellRead 3) (k : Pkt) (d : DeepCells) (x : StoredCell) (t : Nat) (l : List (StoredCell × Nat)),
      (s.islandRuns 4 = true) ∧ (regionRuns s x.region = true) ∧
      (((queuePkts s p.val q.val).find? fun k => match k.deep with | some d => decide (d.reading ≠ []) | none => false) = some k) ∧
      (k.deep = some d) ∧ (d.reading = (x, t) :: l) ∧ (v[0] = .good)) ∧
    (∃ (s : State) (p : Fin 64) (q : Fin 16) (v : Vector CellRead 3) (k : Pkt) (d : DeepCells) (x : StoredCell) (t : Nat) (l : List (StoredCell × Nat)),
      (s.islandRuns 4 = true) ∧ (regionRuns s x.region = true) ∧
      (((queuePkts s p.val q.val).find? fun k => match k.deep with | some d => decide (d.reading ≠ []) | none => false) = some k) ∧
      (k.deep = some d) ∧ (d.reading = (x, t) :: l) ∧ (v[0] = .bad) ∧ (v[1] = .good)) ∧
    (∃ (s : State) (p : Fin 64) (q : Fin 16) (v : Vector CellRead 3) (k : Pkt) (d : DeepCells) (x : StoredCell) (t : Nat) (l : List (StoredCell × Nat)),
      (s.islandRuns 4 = true) ∧ (regionRuns s x.region = true) ∧
      (((queuePkts s p.val q.val).find? fun k => match k.deep with | some d => decide (d.reading ≠ []) | none => false) = some k) ∧
      (k.deep = some d) ∧ (d.reading = (x, t) :: l) ∧ (v[0] = .bad) ∧ (v[1] = .bad) ∧ (v[2] = .good)) ∧
    (∃ (s : State) (p : Fin 64) (q : Fin 16) (v : Vector CellRead 3) (k : Pkt) (d : DeepCells) (x : StoredCell) (t : Nat) (l : List (StoredCell × Nat)),
      (s.islandRuns 4 = true) ∧ (regionRuns s x.region = true) ∧
      (((queuePkts s p.val q.val).find? fun k => match k.deep with | some d => decide (d.reading ≠ []) | none => false) = some k) ∧
      (k.deep = some d) ∧ (d.reading = (x, t) :: l) ∧ (v[0] = .bad) ∧ (v[1] = .bad) ∧ (v[2] = .bad)) ∧
    (∃ (s : State) (r : Req) (x : BitVec 10), (s.listens r A.DBF_UNRETIRE = true) ∧ (x.toNat ≤ 895)) ∧
    (∃ (s : State) (r : Req) (x : BitVec 10), (s.listens r A.DBF_UNRETIRE = true) ∧ (895 < x.toNat)) :=
  ⟨⟨{ fewRegions with buf := { frames := [fr], pkts := [{ cp (.port 63) 63 7 .queue with deep := some ⟨[0], false, [], [], [], false, true⟩ }], written := List.replicate 620 0 } },
      895, { cp (.port 63) 63 7 .queue with deep := some ⟨[0], false, [], [], [], false, true⟩ }, ⟨[0], false, [], [],
      [], false, true⟩, by decide +kernel⟩,
    ⟨{ fewRegions with buf := { frames := [fr], pkts := [{ cp (.port 63) 63 7 .queue with deep := some ⟨[0], false, [], [], [], false, true⟩ }] } },
      895, { cp (.port 63) 63 7 .queue with deep := some ⟨[0], false, [], [], [], false, true⟩ }, ⟨[0], false, [], [],
      [], false, true⟩, by decide +kernel⟩,
    ⟨{ fewRegions with buf := { frames := [fr], pkts := [{ cp (.port 63) 63 7 .queue with deep := some ⟨[], false, [⟨895, 0, true, true, 0⟩], [], [], false, true⟩ }], spill := [17 * 63 + 7] } },
      { cp (.port 63) 63 7 .queue with deep := some ⟨[], false, [⟨895, 0, true, true, 0⟩], [], [], false, true⟩ },
      ⟨[], false, [⟨895, 0, true, true, 0⟩], [], [], false, true⟩, ⟨895, 0, true, true, 0⟩, [], by decide +kernel⟩,
    ⟨holding [{ cp (.port 63) 63 7 .queue with deep := some ⟨[], false, [], [(⟨895, 0, true, true, 0⟩, 0)], [], false, true⟩ }] fr,
      63, 7, ⟨#[.good, .good, .good], rfl⟩,
      { cp (.port 63) 63 7 .queue with deep := some ⟨[], false, [], [(⟨895, 0, true, true, 0⟩, 0)], [], false, true⟩ },
      ⟨[], false, [], [(⟨895, 0, true, true, 0⟩, 0)], [], false, true⟩, ⟨895, 0, true, true, 0⟩, 0, [],
      by decide +kernel⟩,
    ⟨holding [{ cp (.port 63) 63 7 .queue with deep := some ⟨[], false, [], [(⟨895, 0, true, true, 0⟩, 0)], [], false, true⟩ }] fr,
      63, 7, ⟨#[.bad, .good, .good], rfl⟩,
      { cp (.port 63) 63 7 .queue with deep := some ⟨[], false, [], [(⟨895, 0, true, true, 0⟩, 0)], [], false, true⟩ },
      ⟨[], false, [], [(⟨895, 0, true, true, 0⟩, 0)], [], false, true⟩, ⟨895, 0, true, true, 0⟩, 0, [],
      by decide +kernel⟩,
    ⟨holding [{ cp (.port 63) 63 7 .queue with deep := some ⟨[], false, [], [(⟨895, 0, true, true, 0⟩, 0)], [], false, true⟩ }] fr,
      63, 7, ⟨#[.bad, .bad, .good], rfl⟩,
      { cp (.port 63) 63 7 .queue with deep := some ⟨[], false, [], [(⟨895, 0, true, true, 0⟩, 0)], [], false, true⟩ },
      ⟨[], false, [], [(⟨895, 0, true, true, 0⟩, 0)], [], false, true⟩, ⟨895, 0, true, true, 0⟩, 0, [],
      by decide +kernel⟩,
    ⟨holding [{ cp (.port 63) 63 7 .queue with deep := some ⟨[], false, [], [(⟨895, 0, true, true, 0⟩, 0)], [], false, true⟩ }] fr,
      63, 7, ⟨#[.bad, .bad, .bad], rfl⟩,
      { cp (.port 63) 63 7 .queue with deep := some ⟨[], false, [], [(⟨895, 0, true, true, 0⟩, 0)], [], false, true⟩ },
      ⟨[], false, [], [(⟨895, 0, true, true, 0⟩, 0)], [], false, true⟩, ⟨895, 0, true, true, 0⟩, 0, [],
      by decide +kernel⟩,
    ⟨run, .host, 895#10, by decide +kernel⟩,
    ⟨run, .host, 896#10, by decide +kernel⟩⟩

theorem witness_ShaperBounds :
    (∃ (w : Nat) (tokens : Int), (bits w 19 0 ≠ 0) ∧ (tokens ≤ shaperDepth w)) ∧
    (∃ (w : Nat), (bits w 19 0 = 0)) :=
  ⟨⟨0x00100001, 0, by decide +kernel⟩,
    ⟨0, by decide +kernel⟩⟩

theorem witness_StrictClassFirst :
    ∃ (s : State) (p c : Nat), c < 8 ∧ s.bit (A.QM_P_SCHED p) c = true ∧ (chooseQueue s p c).isSome = true ∧ (∀ d,
    c < d → d < 8 → s.bit (A.QM_P_SCHED p) d = true → chooseQueue s p d = none) :=
  ⟨{ (up 63 1).wr (A.QM_P_SCHED 63) 128 with buf := { frames := [fr], pkts := [cp (.port 63) 63 7 .queue] } }, 63,
    7, by decide, by decide +kernel, by decide +kernel, fun d h1 h2 => by omega⟩

theorem witness_SpreadCommands :
    (∃ (s : State) (r : Req) (g : Fin 32), (s.listens r (A.SPR_GRP_CTRL g.val) = true)) ∧
    (∃ (s : State) (r : Req) (g : Fin 32), (s.listens r (A.SPR_GRP_CFG g.val) = true)) ∧
    (∃ (s : State) (r : Req) (g : Fin 32) (m : Fin 16), (s.listens r (A.SPR_GRP_MEM g.val m.val) = true)) ∧
    (∃ (s : State) (r : Req) (g : Fin 32) (w : Fin 64), (s.listens r (A.TBL_PIN g.val w.val) = true)) ∧
    (∃ (s : State) (g : Fin 32) (b : BitVec 8) (h : MigHold), (s.islandRuns 4 = true) ∧
      (holdOf s g.val b.toNat = some h) ∧ (onMember s g.val b.toNat h.old = false)) ∧
    (∃ (s : State) (g : Fin 32) (b : BitVec 8) (h : MigHold), (s.islandRuns 4 = true) ∧
      (holdOf s g.val b.toNat = some h) ∧ (s.due (.migration g.val b.toNat) = true)) ∧
    (∃ (s : State) (g : Fin 32) (m : Fin 16), (s.islandRuns 4 = true) ∧ (memberGone s g.val m.val = true)) :=
  ⟨⟨run, .host, 31, by decide +kernel⟩,
    ⟨run, .host, 31, by decide +kernel⟩,
    ⟨run, .host, 31, 15, by decide +kernel⟩,
    ⟨run, .host, 31, 63, by decide +kernel⟩,
    ⟨{ run with buf := { migs := [⟨31, 255, 0, none, 0⟩] } }, 31, 255#8, ⟨31, 255, 0, none, 0⟩, by decide +kernel⟩,
    ⟨{ tick run (.migration 31 255) with buf := { migs := [⟨31, 255, 0, none, 0⟩] } }, 31, 255#8, ⟨31, 255, 0, none,
      0⟩, by decide +kernel⟩,
    ⟨spreadGroup.wr (A.SPR_GRP_MEM 31 15) 0xC000003F, 31, 15, by decide +kernel⟩⟩

theorem witness_RiserCommands :
    (∃ (s : State) (x : Intake) (j : Pkt) (f : Frame), s.islandRuns 4 = true ∧ nextIntake s = some x ∧
      (x.pkt.bind fun n => s.buf.pkts.find? fun k => decide (k.id = n)) = some j ∧ frameOf s j.fid = some f ∧
      f.bad = true ∧
      badLeaves { s with buf := { s.buf with intake := s.buf.intake.erase x, riserTurn := (x.slice + 1) % 4 } } x j f = false) ∧
    (∃ (s : State) (x : Intake), s.islandRuns 4 = true ∧ nextIntake s = some x ∧
      (x.pkt.bind fun n => s.buf.pkts.find? fun k => decide (k.id = n)) = none ∧
      riserTakes { s with buf := { s.buf with intake := s.buf.intake.erase x, riserTurn := (x.slice + 1) % 4 } } x = true) ∧
    (∃ (s : State) (x : Intake), s.islandRuns 4 = true ∧ nextIntake s = some x ∧
      riserTakes { s with buf := { s.buf with intake := s.buf.intake.erase x, riserTurn := (x.slice + 1) % 4 } } x = false ∧
      x.pkt = none) ∧
    (∃ (s : State) (x : Intake) (j : Pkt) (f : Frame), s.islandRuns 4 = true ∧ nextIntake s = some x ∧
      (x.pkt.bind fun n => s.buf.pkts.find? fun k => decide (k.id = n)) = some j ∧ frameOf s j.fid = some f ∧
      f.bad = false ∧
      riserTakes { s with buf := { s.buf with intake := s.buf.intake.erase x, riserTurn := (x.slice + 1) % 4 } } x = false) ∧
    (∃ (s : State) (c : Fin 4096) (t : Nat) (n : Nat), (s.islandRuns 4 = true) ∧ (oldestHeld s c.val = some t) ∧
      (nearest s c.val [] = some n) ∧ (t + riserTmo s c.val * us * nsUnits ≤ tb0 s) ∧ (∀ y, y ∈ s.buf.intake →
      y.tag.flow ≠ c.val)) ∧
    (∃ (s : State) (r : Req) (c : Fin 4096) (v : Word), (s.listens r (A.RSQ_CTX_CFG c.val) = true) ∧
      (v.toNat.testBit 31 = true) ∧ ((s.bit (A.RSQ_CTX_CFG c.val) 31) = false)) ∧
    (∃ (s : State) (r : Req) (c : Fin 4096) (v : Word), (s.listens r (A.RSQ_CTX_CFG c.val) = true) ∧
      (v.toNat.testBit 31 = true) ∧ ((s.bit (A.RSQ_CTX_CFG c.val) 31) = true) ∧
      (bits (s.rd (A.RSQ_CTX_CFG c.val)) 29 24 = bits v.toNat 29 24)) ∧
    (∃ (s : State) (r : Req) (c : Fin 4096) (v : Word), (s.listens r (A.RSQ_CTX_CFG c.val) = true) ∧
      (v.toNat.testBit 31 = true) ∧ ((s.bit (A.RSQ_CTX_CFG c.val) 31) = true) ∧
      (bits (s.rd (A.RSQ_CTX_CFG c.val)) 29 24 ≠ bits v.toNat 29 24)) ∧
    (∃ (s : State) (r : Req) (c : Fin 4096) (v : Word), (s.listens r (A.RSQ_CTX_CFG c.val) = true) ∧
      (v.toNat.testBit 31 = false) ∧ ((s.bit (A.RSQ_CTX_CFG c.val) 31) = true)) ∧
    (∃ (s : State) (r : Req) (c : Fin 4096) (v : Word), (s.listens r (A.RSQ_CTX_CFG c.val) = true) ∧
      (v.toNat.testBit 31 = false) ∧ ((s.bit (A.RSQ_CTX_CFG c.val) 31) = false)) :=
  ⟨⟨{ spreadGroup with buf := { frames := [{ fr with bad := true }], pkts := [cp (.port 63) 63 7 .queue], intake := [⟨3, ⟨0, 4095, 0, false⟩, 63, (some 1), 0, 0⟩] } },
      ⟨3, ⟨0, 4095, 0, false⟩, 63, (some 1), 0, 0⟩, cp (.port 63) 63 7 .queue, { fr with bad := true },
      by decide +kernel⟩,
    ⟨{ spreadGroup.wr (A.RSQ_CTX_CFG 4095) 0x9F000000 with buf := { pkts := [cp (.port 63) 63 7 .queue], intake := [⟨3, ⟨0, 4095, 0, false⟩, 63, none, 0, 0⟩] } },
      ⟨3, ⟨0, 4095, 0, false⟩, 63, none, 0, 0⟩, by decide +kernel⟩,
    ⟨{ spreadGroup with buf := { pkts := [cp (.port 63) 63 7 .queue], intake := [⟨3, ⟨0, 4095, 0, false⟩, 63, none, 0, 0⟩] } },
      ⟨3, ⟨0, 4095, 0, false⟩, 63, none, 0, 0⟩, by decide +kernel⟩,
    ⟨{ spreadGroup with buf := { frames := [fr], pkts := [cp (.port 63) 63 7 .queue], intake := [⟨3, ⟨0, 4095, 0, false⟩, 63, (some 1), 0, 0⟩] } },
      ⟨3, ⟨0, 4095, 0, false⟩, 63, (some 1), 0, 0⟩, cp (.port 63) 63 7 .queue, fr, by decide +kernel⟩,
    ⟨{ late with buf := { frames := [fr], pkts := [cp (.port 63) 63 7 (.riser 4095 1 0)] } }, 4095, 0, 1,
      by decide +kernel⟩,
    ⟨run, .host, 4095, 0x80000000#32, by decide +kernel⟩,
    ⟨run.wr (A.RSQ_CTX_CFG 4095) 0x80000000, .host, 4095, 0x80000001#32, by decide +kernel⟩,
    ⟨run.wr (A.RSQ_CTX_CFG 4095) 0x80000000, .host, 4095, 0xBF000000#32, by decide +kernel⟩,
    ⟨run.wr (A.RSQ_CTX_CFG 4095) 0x80000000, .host, 4095, 0#32, by decide +kernel⟩,
    ⟨run, .host, 4095, 0#32, by decide +kernel⟩⟩

theorem witness_EffectiveMember :
    (∃ (s : State) (g : Nat) (b : Nat), (b < 256) ∧ (slotEligible s g (pinnedSlot s g b) = true)) ∧
    (∃ s g b, b < 256 ∧ slotEligible s g (pinnedSlot s g b) = false ∧ (effMember s g b).isSome = true) ∧
    (∃ s g b, b < 256 ∧ slotEligible s g (pinnedSlot s g b) = false ∧ effMember s g b = none) :=
  ⟨⟨spreadGroup.setFld (A.TBL_PIN 31 63) 27 24 15, 31, 255, by decide +kernel⟩,
    ⟨spreadGroup, 31, 255, by decide +kernel⟩,
    ⟨run, 31, 255, by decide +kernel⟩⟩

theorem witness_NoEligibleMember :
    (∃ (s : State) (k : Pkt) (f : Frame) (g : Nat), (s.islandRuns 4 = true) ∧ (nextAdmit s = some k) ∧
      (k.dest = .lag g) ∧ (frameOf s k.fid = some f) ∧ (f.ll = false ∨ aonOf s f.id = none) ∧ (grpEn s g = false)) ∧
    (∃ (s : State) (k : Pkt) (f : Frame) (g : Nat), (s.islandRuns 4 = true) ∧ (nextAdmit s = some k) ∧
      (k.dest = .lag g) ∧ (frameOf s k.fid = some f) ∧ (f.ll = false ∨ aonOf s f.id = none) ∧ (grpEn s g = true) ∧
      (∀ j, j < 16 → slotEligible s g j = false) ∧ (grpSpread s g = true)) ∧
    (∃ (s : State) (k : Pkt) (f : Frame) (g : Nat), (s.islandRuns 4 = true) ∧ (nextAdmit s = some k) ∧
      (k.dest = .lag g) ∧ (frameOf s k.fid = some f) ∧ (f.ll = false ∨ aonOf s f.id = none) ∧ (grpEn s g = true) ∧
      (∀ j, j < 16 → slotEligible s g j = false) ∧ (grpSpread s g = false)) :=
  ⟨⟨{ run with buf := { frames := [fr], pkts := [cp (.lag 31) 63 7 .toAdmit] } }, cp (.lag 31) 63 7 .toAdmit, fr,
      31, by decide +kernel⟩,
    ⟨{ run.wr (A.SPR_GRP_CFG 31) 0xC0000000 with buf := { frames := [fr], pkts := [cp (.lag 31) 63 7 .toAdmit] } },
      cp (.lag 31) 63 7 .toAdmit, fr, 31, by decide +kernel⟩,
    ⟨{ run.wr (A.SPR_GRP_CFG 31) 0x80000000 with buf := { frames := [fr], pkts := [cp (.lag 31) 63 7 .toAdmit] } },
      cp (.lag 31) 63 7 .toAdmit, fr, 31, by decide +kernel⟩⟩

theorem witness_RiserInOrder :
    (∃ (s : State) (c n : Nat) (rst : Bool) (o : Option Pkt) (cells : Nat), c < 4096 ∧ heldNumbers s c = [] ∧
      riserState s c = 1 ∧ o.isSome = true ∧ 0 < cells) ∧
    (∃ (s : State) (c n : Nat) (rst : Bool) (o : Option Pkt) (cells : Nat), c < 4096 ∧ heldNumbers s c = [] ∧
      riserState s c = 2 ∧ rst = true ∧ riserExpect s c ≠ n) ∧
    (∃ (s : State) (c n : Nat) (rst : Bool) (o : Option Pkt) (cells : Nat), c < 4096 ∧ heldNumbers s c = [] ∧
      riserState s c = 2 ∧ riserExpect s c = n ∧ rst = false ∧ o = none) :=
  ⟨⟨run.setFld (A.RSQ_CTX_STAT 4095) 13 12 1, 4095, 7, false, some (cp (.port 63) 63 7 .queue), 1,
      by decide +kernel⟩,
    ⟨run.setFld (A.RSQ_CTX_STAT 4095) 13 12 2, 4095, 7, true, some (cp (.port 63) 63 7 .queue), 1,
      by decide +kernel⟩,
    ⟨run.setFld (A.RSQ_CTX_STAT 4095) 13 12 2, 4095, 0, false, none, 0, by decide +kernel⟩⟩

theorem witness_LadleCommands :
    (∃ (s : State) (r : Req) (i : Fin 16384) (w : Fin 3), (s.listens r (A.TBL_LADLE i.val w.val) = true)) ∧
    (∃ (s : State) (r : Req) (i : Fin 16384) (v : Word), (s.listens r (A.TBL_LADLE i.val 3) = true) ∧
      (ladleBad (stagedEntry (heard s r 1) r A.TBL_LADLE 3 i.val (v.toNat &&& 0xE0000000)) = false)) ∧
    (∃ (s : State) (r : Req) (i : Fin 16384) (v : Word), (s.listens r (A.TBL_LADLE i.val 3) = true) ∧
      (ladleBad (stagedEntry (heard s r 1) r A.TBL_LADLE 3 i.val (v.toNat &&& 0xE0000000)) = true)) ∧
    (∃ (s : State), ((ladleFifo s).length < 4096)) ∧
    (∃ (s : State) (k : Pkt) (f : Frame) (w : List Nat) (l : List Pkt), (s.islandRuns 4 = true) ∧
      (ladleFifo s = k :: l) ∧ (k.loc = .ladle w) ∧ (frameOf s k.fid = some f) ∧ ((w.getD 3 0).testBit 31 = false)) ∧
    (∃ (s : State) (k : Pkt) (f : Frame) (w : List Nat) (l : List Pkt), (s.islandRuns 4 = true) ∧
      (ladleFifo s = k :: l) ∧ (k.loc = .ladle w) ∧ (frameOf s k.fid = some f) ∧ ((w.getD 3 0).testBit 31 = true) ∧
      ((ladleCopies s w f.inPort) = [])) ∧
    (∃ (s : State) (k : Pkt) (f : Frame) (w : List Nat) (l : List Pkt), (s.islandRuns 4 = true) ∧
      (ladleFifo s = k :: l) ∧ (k.loc = .ladle w) ∧ (frameOf s k.fid = some f) ∧ ((w.getD 3 0).testBit 31 = true) ∧
      ((ladleCopies s w f.inPort) ≠ []) ∧ (f.ll = false)) :=
  ⟨⟨run, .host, 16383, 2, by decide +kernel⟩,
    ⟨run, .host, 16383, 0x80000000#32, by decide +kernel⟩,
    ⟨((run.wr (A.TBL_LADLE 16383 0) 0xFFFFFFFF).wr (A.TBL_LADLE 16383 1) 0xFFFFFFFF).wr (A.TBL_LADLE 16383 2) 1,
      .host, 16383, 0x80000000#32, by decide +kernel⟩,
    ⟨run, by decide +kernel⟩,
    ⟨{ run with buf := { frames := [fr], pkts := [cp (.ladle 16383) 63 7 (.ladle [])] } },
      cp (.ladle 16383) 63 7 (.ladle []), fr, [], [], by decide +kernel⟩,
    ⟨{ run with buf := { frames := [fr], pkts := [cp (.ladle 16383) 63 7 (.ladle [0, 0, 0, 0x80000000])] } },
      cp (.ladle 16383) 63 7 (.ladle [0, 0, 0, 0x80000000]), fr, [0, 0, 0, 0x80000000], [], by decide +kernel⟩,
    ⟨{ run with buf := { frames := [fr], pkts := [cp (.ladle 16383) 63 7 (.ladle [0, 0x80000000, 0, 0x80000000])] } },
      cp (.ladle 16383) 63 7 (.ladle [0, 0x80000000, 0, 0x80000000]), fr, [0, 0x80000000, 0, 0x80000000], [],
      by decide +kernel⟩⟩

theorem witness_LadlePruning :
    (∃ (s : State) (w : List Nat) (p : Nat) (g : _), ((w.getD 3 0).testBit 30 = true) ∧
      (Dest.lag g ∈ ladleCopies s w p)) ∧
    (∃ (w : List Nat) (p : Nat) (q : _), ((w.getD 3 0).testBit 30 = true) ∧ (q ≠ p)) :=
  ⟨⟨run, [0, 0, 1, 0x40000000], 63, 0, by decide +kernel⟩,
    ⟨[0, 0, 0, 0x40000000], 63, 0, by decide +kernel⟩⟩

theorem witness_LldCommands :
    (∃ (s : State) (p : Fin 64) (k : Pkt) (f : Frame) (w : LlInfo), (s.islandRuns 4 = true) ∧
      (nextReserve s p.val = some k) ∧ (frameOf s k.fid = some f) ∧ (k.ll = some w) ∧ (w.state = .late)) ∧
    (∃ (s : State) (p : Fin 64) (k : Pkt) (f : Frame) (w : LlInfo), (s.islandRuns 4 = true) ∧
      (nextReserve s p.val = some k) ∧ (frameOf s k.fid = some f) ∧ (k.ll = some w) ∧ (w.state ≠ .late)) ∧
    (∃ (s : State) (p : Fin 64) (k : Pkt) (f : Frame) (w : LlInfo), (s.egressRuns p.val = true) ∧
      (windowDue s p.val = some k) ∧ (frameOf s k.fid = some f) ∧ (k.ll = some w) ∧ (portUp s p.val = false)) ∧
    (∃ (s : State) (p : Fin 64) (k : Pkt) (f : Frame) (w : LlInfo), (s.egressRuns p.val = true) ∧
      (windowDue s p.val = some k) ∧ (frameOf s k.fid = some f) ∧ (k.ll = some w) ∧ (portUp s p.val = true) ∧
      (pktComplete s k = false)) ∧
    (∃ (s : State) (p : Fin 64) (k : Pkt) (f : Frame) (w : LlInfo), (s.egressRuns p.val = true) ∧
      (windowDue s p.val = some k) ∧ (frameOf s k.fid = some f) ∧ (k.ll = some w) ∧ (portUp s p.val = true) ∧
      (pktComplete s k = true) ∧ (typeEff s p.val = 13 → trunkCredit s p.val f.tc = true ∧
      recordOpen s p.val f.tc = false)) ∧
    (∃ (s : State) (p : Fin 64) (k : Pkt) (f : Frame) (w : LlInfo), (s.egressRuns p.val = true) ∧
      (windowDue s p.val = some k) ∧ (frameOf s k.fid = some f) ∧ (k.ll = some w) ∧ (portUp s p.val = true) ∧
      (pktComplete s k = true) ∧ (typeEff s p.val = 13) ∧ (trunkCredit s p.val f.tc = false)) ∧
    (∃ (s : State) (p : Fin 64) (k : Pkt) (f : Frame) (w : LlInfo), (s.egressRuns p.val = true) ∧
      (windowDue s p.val = some k) ∧ (frameOf s k.fid = some f) ∧ (k.ll = some w) ∧ (portUp s p.val = true) ∧
      (pktComplete s k = true) ∧ (typeEff s p.val = 13) ∧ (trunkCredit s p.val f.tc = true) ∧
      (recordOpen s p.val f.tc = true)) ∧
    (∃ (s : State), (s.islandRuns 4 = true)) :=
  ⟨⟨{ run with buf := { frames := [fr], pkts := [{ cp (.port 63) 63 16 .queue with ll := some ⟨0, 0, 0, .late, 0, false, false, 0, 0, 0⟩ }] } },
      63, { cp (.port 63) 63 16 .queue with ll := some ⟨0, 0, 0, .late, 0, false, false, 0, 0, 0⟩ }, fr, ⟨0, 0, 0,
      .late, 0, false, false, 0, 0, 0⟩, by decide +kernel⟩,
    ⟨{ run with buf := { frames := [fr], pkts := [{ cp (.port 63) 63 16 .queue with ll := some ⟨0, 0, 0, .waiting, 0, false, false, 0, 0, 0⟩ }] } },
      63, { cp (.port 63) 63 16 .queue with ll := some ⟨0, 0, 0, .waiting, 0, false, false, 0, 0, 0⟩ }, fr, ⟨0, 0, 0,
      .waiting, 0, false, false, 0, 0, 0⟩, by decide +kernel⟩,
    ⟨{ run with buf := { frames := [fr], pkts := [{ cp (.port 63) 63 16 .queue with ll := some ⟨0, 0, 0, .granted, 0, false, false, 0, 0, 0⟩ }] } },
      63, { cp (.port 63) 63 16 .queue with ll := some ⟨0, 0, 0, .granted, 0, false, false, 0, 0, 0⟩ }, fr, ⟨0, 0, 0,
      .granted, 0, false, false, 0, 0, 0⟩, by decide +kernel⟩,
    ⟨{ up 63 1 with buf := { frames := [{ fr with done := 1 }], pkts := [{ cp (.port 63) 63 16 .queue with ll := some ⟨0, 0, 0, .granted, 0, false, false, 0, 0, 0⟩ }] } },
      63, { cp (.port 63) 63 16 .queue with ll := some ⟨0, 0, 0, .granted, 0, false, false, 0, 0, 0⟩ },
      { fr with done := 1 }, ⟨0, 0, 0, .granted, 0, false, false, 0, 0, 0⟩, by decide +kernel⟩,
    ⟨{ up 63 1 with buf := { frames := [fr], pkts := [{ cp (.port 63) 63 16 .queue with ll := some ⟨0, 0, 0, .granted, 0, false, false, 0, 0, 0⟩ }] } },
      63, { cp (.port 63) 63 16 .queue with ll := some ⟨0, 0, 0, .granted, 0, false, false, 0, 0, 0⟩ }, fr, ⟨0, 0, 0,
      .granted, 0, false, false, 0, 0, 0⟩, by decide +kernel⟩,
    ⟨{ up 63 13 with buf := { frames := [fr], pkts := [{ cp (.port 63) 63 16 .queue with ll := some ⟨0, 0, 0, .granted, 0, false, false, 0, 0, 0⟩ }] } },
      63, { cp (.port 63) 63 16 .queue with ll := some ⟨0, 0, 0, .granted, 0, false, false, 0, 0, 0⟩ }, fr, ⟨0, 0, 0,
      .granted, 0, false, false, 0, 0, 0⟩, by decide +kernel⟩,
    ⟨{ putTrunk (up 63 13) 63 { streams := [(7, [⟨[], false, false, 0, none, false⟩])], cred := [(7, 1)] } with buf := { frames := [fr], pkts := [{ cp (.port 63) 63 16 .queue with ll := some ⟨0, 0, 0, .granted, 0, false, false, 0, 0, 0⟩ }] } },
      63, { cp (.port 63) 63 16 .queue with ll := some ⟨0, 0, 0, .granted, 0, false, false, 0, 0, 0⟩ }, fr, ⟨0, 0, 0,
      .granted, 0, false, false, 0, 0, 0⟩, by decide +kernel⟩,
    ⟨run, by decide +kernel⟩⟩

theorem witness_ReservedWindowIsFree :
    (∃ (s : State) (k : Pkt) (f : Frame) (w : LlInfo), reserveCause s k f w = 0 ∧ tsqHold f = true) ∧
    (∃ (s : State) (k : Pkt) (f : Frame) (w : LlInfo) (x : Nat × Nat), reserveCause s k f w = 0 ∧
      x ∈ portWindows s k.e) :=
  ⟨⟨((up 63 1).wr (A.LLD_L 0 63) 0x80000000).wr (A.LLD_P_CFG 63) 100, cp (.port 63) 63 16 .queue,
      { fr with tsq := 4 }, ⟨1, 0, 0, .waiting, 0, false, false, 0, 0, 0x80000000⟩, by decide +kernel⟩,
    ⟨{ ((up 63 1).wr (A.LLD_L 0 63) 0x80000000).wr (A.LLD_P_CFG 63) 100 with buf := { windows := [(63, 0, 0)] } },
      cp (.port 63) 63 16 .queue, fr, ⟨1, 0, 0, .waiting, 0, false, false, 0, 0, 0x80000000⟩, (0, 0),
      by decide +kernel⟩⟩

theorem witness_AssayCommands :
    (∃ (s : State) (slice : Fin 4) (f : AsyFrame), (s.islandRuns 4 = true) ∧ (inSleep s = false) ∧
      ((s.asy.frames.find? fun f => decide (f.slice = slice.val)) = some f) ∧
      (s.bit A.ASY_CFG 31 = false ∨ f.prim = false)) ∧
    (∃ (s : State) (slice : Fin 4) (f : AsyFrame) (x : L2), s.islandRuns 4 = true ∧ inSleep s = false ∧
      (s.asy.frames.find? fun f => decide (f.slice = slice.val)) = some f ∧ s.bit A.ASY_CFG 31 = true ∧
      f.prim = true ∧ parseL2 (toNats f.bytes) = .ok x) ∧
    (∃ (s : State), (s.islandRuns 4 = true) ∧ (inSleep s = false)) ∧
    (∃ (s : State) (e : Fin 4) (x : AsyMem), (s.islandRuns 4 = true) ∧ (inSleep s = false) ∧
      ((s.asy.fifo.find? fun x => decide (x.e = e.val)) = some x) ∧
      (ctxEn (putAsy s { s.asy with fifo := s.asy.fifo.erase x }) x.c = false)) ∧
    (∃ (s : State) (e : Fin 4) (x : AsyMem), s.islandRuns 4 = true ∧ inSleep s = false ∧
      (s.asy.fifo.find? fun x => decide (x.e = e.val)) = some x ∧ ctxEn s x.c = true ∧ recFlagged s x.c x.r = true ∧
      s.bit (A.ASY_CTX_CFG x.c) 22 = true ∧ x.twin = false) ∧
    (∃ (s : State) (e : Fin 4) (x : AsyMem), s.islandRuns 4 = true ∧ inSleep s = false ∧
      (s.asy.fifo.find? fun x => decide (x.e = e.val)) = some x ∧ ctxEn s x.c = true ∧
      s.bit (A.ASY_CTX_CFG x.c) 22 = false ∧ recTime s x.c x.r + ctxClose s x.c < tb0 s ∧ x.twin = false) ∧
    (∃ (s : State) (e : Fin 4) (x : AsyMem), s.islandRuns 4 = true ∧ inSleep s = false ∧
      (s.asy.fifo.find? fun x => decide (x.e = e.val)) = some x ∧ ctxEn s x.c = true ∧
      s.bit (A.ASY_CTX_CFG x.c) 22 = false ∧ tb0 s ≤ recTime s x.c x.r + ctxClose s x.c ∧ (storeHist s ⟨e.val, x.c, 0,
      recTime s x.c x.r, x.r.chan, x.veto, x.slot, x.r.amp, x.weight, recFlagged s x.c x.r, x.r.user⟩).isSome = true) ∧
    (∃ (s : State) (e : Fin 4) (x : AsyMem), s.islandRuns 4 = true ∧ inSleep s = false ∧
      (s.asy.fifo.find? fun x => decide (x.e = e.val)) = some x ∧ ctxEn s x.c = true ∧
      s.bit (A.ASY_CTX_CFG x.c) 22 = false ∧ tb0 s ≤ recTime s x.c x.r + ctxClose s x.c ∧ (storeHist s ⟨e.val, x.c, 0,
      recTime s x.c x.r, x.r.chan, x.veto, x.slot, x.r.amp, x.weight, recFlagged s x.c x.r, x.r.user⟩).isSome = false) ∧
    (∃ (s : State) (c : Fin 256) (w : Nat × Nat), s.islandRuns 4 = true ∧ inSleep s = false ∧ s.asy.mig = none ∧
      nextWindowOf s c.val = some w ∧ ctxEn s c.val = true ∧ w.2 + ctxClose s c.val ≤ tb0 s ∧
      (s.asy.copies.find? fun j => decide (j.c = c.val) && decide (windowSlice s c.val w = j.e)) = none) ∧
    (∃ (s : State) (c : Fin 256) (w : Nat × Nat), s.islandRuns 4 = true ∧ inSleep s = false ∧ s.asy.mig = none ∧
      nextWindowOf s c.val = some w ∧ ctxEn s c.val = true ∧ w.2 + ctxClose s c.val ≤ tb0 s ∧
      (s.asy.copies.find? fun j => decide (j.c = c.val) && decide (windowSlice s c.val w = j.e)).map AsyCopy.late = some true) ∧
    (∃ (s : State) (c : Fin 256) (w : Nat × Nat), s.islandRuns 4 = true ∧ inSleep s = false ∧ s.asy.mig = none ∧
      nextWindowOf s c.val = some w ∧ ctxEn s c.val = true ∧ w.2 + ctxClose s c.val ≤ tb0 s ∧
      (s.asy.copies.find? fun j => decide (j.c = c.val) && decide (windowSlice s c.val w = j.e)).map AsyCopy.late = some false) ∧
    (∃ (s : State) (r : Req) (i : Fin 16384) (v : Word), (s.listens r (A.TBL_SRC i.val 7) = true) ∧
      (srcCommitBad (heard s r 1) i.val (stagedEntry (heard s r 1) r A.TBL_SRC 7 i.val v.toNat) = false)) ∧
    (∃ (s : State) (r : Req) (i : Fin 16384) (v : Word), (s.listens r (A.TBL_SRC i.val 7) = true) ∧
      (srcCommitBad (heard s r 1) i.val (stagedEntry (heard s r 1) r A.TBL_SRC 7 i.val v.toNat) = true)) ∧
    (∃ (s : State) (r : Req) (c : Fin 256) (v : Word), s.listens r (A.ASY_CTX_CFG c.val) = true ∧
      v.toNat.testBit 31 = true ∧ s.bit (A.ASY_CTX_CFG c.val) 31 = false ∧
      ctxEnableBad (heard s r 1) c.val v.toNat = false) ∧
    (∃ (s : State) (r : Req) (c : Fin 256) (v : Word), (s.listens r (A.ASY_CTX_CFG c.val) = true) ∧
      (v.toNat.testBit 31 = true) ∧ ((s.bit (A.ASY_CTX_CFG c.val) 31) = false) ∧
      (ctxEnableBad (heard s r 1) c.val v.toNat = true)) ∧
    (∃ (s : State) (r : Req) (c : Fin 256) (v : Word), (s.listens r (A.ASY_CTX_CFG c.val) = true) ∧
      (v.toNat.testBit 31 = true) ∧ ((s.bit (A.ASY_CTX_CFG c.val) 31) = true) ∧
      (s.rd (A.ASY_CTX_CFG c.val) ≠ v.toNat &&& 0xFFFFE000)) ∧
    (∃ (s : State) (r : Req) (c : Fin 256) (v : Word), (s.listens r (A.ASY_CTX_CFG c.val) = true) ∧
      (v.toNat.testBit 31 = false) ∧ ((s.bit (A.ASY_CTX_CFG c.val) 31) = true)) ∧
    (∃ (s : State) (r : Req), (s.listens r A.ASY_MIG_CTRL = true)) ∧
    (∃ (s : State) (j : AsyCopy) (l : List AsyCopy), (s.islandRuns 4 = true) ∧ (inSleep s = false) ∧
      (s.asy.copies = j :: l)) ∧
    (∃ (s : State) (m : AsyMig), (s.islandRuns 4 = true) ∧ (inSleep s = false) ∧ (s.asy.mig = some m) ∧
      (m.t + ctxClose s m.c ≤ tb0 s)) ∧
    (∃ (s : State) (m : AsyMig), (s.islandRuns 4 = true) ∧ (inSleep s = false) ∧ (s.asy.mig = some m) ∧
      (m.reached = false) ∧ (m.t ≤ tb0 s)) :=
  ⟨⟨{ run with asy := { frames := [⟨3, [], 0, 0, false, none⟩] } }, 3, ⟨3, [], 0, 0, false, none⟩,
      by decide +kernel⟩,
    ⟨{ run.setBit A.ASY_CFG 31 true with asy := { frames := [⟨3, goodFrame, 0, 0, true, none⟩] } }, 3, ⟨3,
      goodFrame, 0, 0, true, none⟩, _, by decide +kernel, by decide +kernel, by decide +kernel, by decide +kernel,
      rfl, rfl⟩,
    ⟨run, by decide +kernel⟩,
    ⟨{ run with asy := { fifo := [⟨3, 255, 0, false, 1, arec, false⟩] } }, 3, ⟨3, 255, 0, false, 1, arec, false⟩,
      by decide +kernel⟩,
    ⟨{ run.wr (A.ASY_CTX_CFG 255) 0x80400000 with asy := { fifo := [⟨3, 255, 0, false, 1, { arec with bad := true }, false⟩] } },
      3, ⟨3, 255, 0, false, 1, { arec with bad := true }, false⟩, by decide +kernel⟩,
    ⟨{ late.setBit (A.ASY_CTX_CFG 255) 31 true with asy := { fifo := [⟨3, 255, 0, false, 1, arec, false⟩] } }, 3,
      ⟨3, 255, 0, false, 1, arec, false⟩, by decide +kernel⟩,
    ⟨{ (run.wr (A.ASY_CTX_CFG 255) 0x80000000).wr (A.ASY_CTX_HIST 255) 1 with asy := { fifo := [⟨3, 255, 0, false, 1, arec, false⟩] } },
      3, ⟨3, 255, 0, false, 1, arec, false⟩, by decide +kernel⟩,
    ⟨{ run.wr (A.ASY_CTX_CFG 255) 0x80000000 with asy := { fifo := [⟨3, 255, 0, false, 1, arec, false⟩] } }, 3, ⟨3,
      255, 0, false, 1, arec, false⟩, by decide +kernel⟩,
    ⟨{ (late.wr (A.ASY_CTX_CFG 255) 0x80000000).wr (A.ASY_CTX_WIN 255) 1 with asy := { hist := [⟨0, 255, 0, 0, 0, false, 0, 0, 1, false, 0⟩], copies := [] } },
      255, (0, nsUnits), by decide +kernel⟩,
    ⟨{ (late.wr (A.ASY_CTX_CFG 255) 0x80000000).wr (A.ASY_CTX_WIN 255) 1 with asy := { hist := [⟨0, 255, 0, 0, 0, false, 0, 0, 1, false, 0⟩], copies := [⟨255, 0, 0, [], true⟩] } },
      255, (0, nsUnits), by decide +kernel⟩,
    ⟨{ (late.wr (A.ASY_CTX_CFG 255) 0x80000000).wr (A.ASY_CTX_WIN 255) 1 with asy := { hist := [⟨0, 255, 0, 0, 0, false, 0, 0, 1, false, 0⟩], copies := [⟨255, 0, 0, [], false⟩] } },
      255, (0, nsUnits), by decide +kernel⟩,
    ⟨run, .host, 16383, 0#32, by decide +kernel⟩,
    ⟨run, .host, 16383, 0x40000000#32, by decide +kernel⟩,
    ⟨((run.wr (A.ASY_CTX_WIN 255) 1).wr (A.ASY_CTX_HIST 255) 1).setFld (A.MEM_BANK_STAT 2) 31 28 1, .host, 255,
      0x80000000#32, by decide +kernel⟩,
    ⟨run, .host, 255, 0x80000000#32, by decide +kernel⟩,
    ⟨run.wr (A.ASY_CTX_CFG 255) 0x80000000, .host, 255, 0x90000000#32, by decide +kernel⟩,
    ⟨run.wr (A.ASY_CTX_CFG 255) 0x80000000, .host, 255, 0#32, by decide +kernel⟩,
    ⟨run, .host, by decide +kernel⟩,
    ⟨{ run with asy := { copies := [⟨255, 0, 0, [], false⟩] } }, ⟨255, 0, 0, [], false⟩, [], by decide +kernel⟩,
    ⟨{ late with asy := { mig := some ⟨255, 0, 1, 0, 1, 0, false⟩ } }, ⟨255, 0, 1, 0, 1, 0, false⟩,
      by decide +kernel⟩,
    ⟨{ run with asy := { mig := some ⟨255, 0, 1, 0, 1, 0, false⟩ } }, ⟨255, 0, 1, 0, 1, 0, false⟩,
      by decide +kernel⟩⟩

theorem witness_AssayWindows :
    (∃ (s : State) (c : Nat) (t : Nat), (0 < ctxW s c) ∧ (ctxSliding s c = false) ∧ (ctxOff s c ≤ t)) ∧
    (∃ (s : State) (c : Nat), (0 < ctxW s c) ∧ (ctxSliding s c = true)) :=
  ⟨⟨run.wr (A.ASY_CTX_WIN 255) 1, 255, 0, by decide +kernel⟩,
    ⟨(run.wr (A.ASY_CTX_WIN 255) 1).wr (A.ASY_CTX_CFG 255) 0x40000000, 255, by decide +kernel⟩⟩

theorem witness_TimedActions :
    (∀ kind, kind ∈ [1, 2, 3, 4, 5, 6, 7, 8] → fires (acting kind run) 15 (act kind) = true ∧ (act kind).kind = kind ∧
    loopStopped (acting kind run) 4 = false ∧ loopStopped (acting kind run) 6 = false ∧
    inSleep (acting kind run) = false) ∧ (∀ kind, kind ∈ [1, 2, 3, 4, 5, 6, 7, 8] →
    fires (acting kind (boot 8)) 15 (act kind) = true ∧ (act kind).kind = kind ∧
    loopStopped (acting kind (boot 8)) 4 = false ∧ loopStopped (acting kind (boot 8)) 6 = false ∧
    inSleep (acting kind (boot 8)) = true) ∧ (∀ kind, kind ∈ [1, 2, 3, 4, 5, 6, 7, 8] →
    fires (acting kind stopped) 15 (act kind) = true ∧ (act kind).kind = kind ∧
    loopStopped (acting kind stopped) 4 = true ∧ loopStopped (acting kind stopped) 6 = true) ∧ ∃ s,
    fires s 15 { act 7 with args := [1] } = true ∧ barrierHolds s 0 0 = false ∧ inSleep s = false :=
  ⟨by decide +kernel, by decide +kernel, by decide +kernel,
    { run with tac := { acts := [{ act 7 with args := [1] }] } }, by decide +kernel⟩

theorem witness_TacCommands :
    (∃ (s : State) (p : Fin 64) (b : List Byte), s.portRuns p.val = true ∧
      (tacReceive s p.val b 3).2 = some (payload s b 3) ∧ (readAnnounce (payload s b 3)).isNone = true) ∧
    (∃ (s : State) (p : Fin 64) (b : List Byte), s.portRuns p.val = true ∧
      (tacReceive s p.val b 3).2 = some (payload s b 3) ∧ (readAnnounce (payload s b 3)).map (fun x => (x.orig,
      x.actId)) = some (1, 1) ∧ upPort s ≠ some p.val) ∧
    (∃ (s : State) (p : Fin 64) (b : List Byte), s.portRuns p.val = true ∧
      (tacReceive s p.val b 3).2 = some (payload s b 3) ∧ (readAnnounce (payload s b 3)).map (fun x => (x.orig,
      x.actId)) = some (1, 1) ∧ upPort s = some p.val ∧ (1, 1) ∈ s.tac.recent) ∧
    (∃ (s : State) (p : Fin 64) (b : List Byte), s.portRuns p.val = true ∧
      (tacReceive s p.val b 3).2 = some (payload s b 3) ∧ (readAnnounce (payload s b 3)).map (fun x => (x.orig,
      x.actId)) = some (1, 1) ∧ upPort s = some p.val ∧ (1, 1) ∉ s.tac.recent) ∧
    (∃ (s : State) (p : Fin 64) (b : List Byte), s.portRuns p.val = true ∧
      (tacReceive s p.val b 5).2 = some (payload s b 5) ∧ reportOk (payload s b 5) = false) ∧
    (∃ (s : State) (p : Fin 64) (b : List Byte) (x : TacAct), s.portRuns p.val = true ∧
      (tacReceive s p.val b 5).2 = some (payload s b 5) ∧ reportOk (payload s b 5) = true ∧ s.tac.acts = [x] ∧
      (x.orig, x.actId) = (beAt (payload s b 5) 2 2, beAt (payload s b 5) 4 2) ∧ x.closed = true ∧ x.report = true) ∧
    (∃ (s : State) (p : Fin 64) (b : List Byte) (x : TacAct), s.portRuns p.val = true ∧
      (tacReceive s p.val b 5).2 = some (payload s b 5) ∧ reportOk (payload s b 5) = true ∧ s.tac.acts = [x] ∧
      (x.orig, x.actId) = (beAt (payload s b 5) 2 2, beAt (payload s b 5) 4 2) ∧ x.closed = false ∧ p.val ∈ x.heard) ∧
    (∃ (s : State) (p : Fin 64) (b : List Byte) (x : TacAct), s.portRuns p.val = true ∧
      (tacReceive s p.val b 5).2 = some (payload s b 5) ∧ reportOk (payload s b 5) = true ∧ s.tac.acts = [x] ∧
      (x.orig, x.actId) = (beAt (payload s b 5) 2 2, beAt (payload s b 5) 4 2) ∧ x.closed = false ∧ p.val ∉ x.heard ∧
      p.val ∈ x.sent) ∧
    (∃ (s : State) (p : Fin 64) (b : List Byte) (x : TacAct), s.portRuns p.val = true ∧
      (tacReceive s p.val b 5).2 = some (payload s b 5) ∧ reportOk (payload s b 5) = true ∧ s.tac.acts = [x] ∧
      (x.orig, x.actId) = (beAt (payload s b 5) 2 2, beAt (payload s b 5) 4 2) ∧ x.closed = false ∧ p.val ∉ x.heard ∧
      p.val ∉ x.sent) ∧
    (∃ (s : State) (k : Fin 16) (x : TacAct), (s.power.die = true) ∧ (loopStopped s 4 = false) ∧
      (slotAct s k.val = some x) ∧ (reportDue s x = true)) ∧
    (∃ (s : State) (r : Req) (v : Word), (s.listens r A.TAC_ORIG_CTRL = true) ∧
      (ownBusy (heard s r 2) = true ∨ (v.toNat.testBit 0 = true ∧ goBad (heard s r 2) v.toNat = true))) ∧
    (∃ (s : State) (r : Req) (v : Word), (s.listens r A.TAC_ORIG_CTRL = true) ∧
      (¬(ownBusy (heard s r 2) = true ∨ (v.toNat.testBit 0 = true ∧ goBad (heard s r 2) v.toNat = true)))) ∧
    (∃ (s : State) (r : Req) (high : Bool),
      (s.listens r (if high then A.TAC_EXPECT_CLR_HI else A.TAC_EXPECT_CLR_LO) = true)) :=
  ⟨⟨treeUp, 63, tacFrame (3 :: List.replicate 59 0), by decide +kernel⟩,
    ⟨up 63 1, 63, news, by decide +kernel⟩,
    ⟨{ treeUp with tac := { recent := [(1, 1)] } }, 63, news, by decide +kernel⟩,
    ⟨treeUp, 63, news, by decide +kernel⟩,
    ⟨treeUp, 63, tacFrame (5 :: List.replicate 55 0), by decide +kernel⟩,
    ⟨treeHolds { act 2 with closed := true, report := true }, 63, report,
      { act 2 with closed := true, report := true }, by decide +kernel⟩,
    ⟨treeHolds { act 2 with heard := [63] }, 63, report, { act 2 with heard := [63] }, by decide +kernel⟩,
    ⟨treeHolds { act 2 with sent := [63] }, 63, report, { act 2 with sent := [63] }, by decide +kernel⟩,
    ⟨treeHolds (act 2), 63, report, act 2, by decide +kernel⟩,
    ⟨{ run with tac := { acts := [{ act 1 with result := some 0 }] } }, 15, { act 1 with result := some 0 },
      by decide +kernel⟩,
    ⟨run.setFld A.TAC_ORIG_STAT 31 28 1, .host, 1#32, by decide +kernel⟩,
    ⟨run, .host, 0#32, by decide +kernel⟩,
    ⟨run, .host, true, by decide +kernel⟩⟩

theorem witness_LineCodeRoundTrip :
    (∃ (s : State) (r : State) (l : Nat) (m : Nat) (b : List Bool), (isPam4 (laneMode s l) = isPam4 (laneMode r m)) ∧
      (laneFlag s l 16 = laneFlag r m 15) ∧ (s.bit (A.LANE_CTRL l) 3 = rxInverted r m) ∧
      (isPam4 (laneMode s l) = true → b.length % 2 = 0)) ∧
    (∃ b : List Bool, b ≠ [] ∧ b.length % 2 = 0) :=
  ⟨⟨run, run, 0, 511, [true, false], by decide +kernel⟩,
    ⟨[true, false], by decide⟩⟩

theorem witness_OwnMarkersAndPagesValid :
    (∃ (lane : Nat) (cred : List Nat), (lane < 8) ∧ (cred.length = 8)) ∧
    (∃ (lane : Nat) (t : Nat) (now : _), (lane < 8) ∧ (t < ftWrap) ∧ (now < ftWrap) ∧
      ((t / secUnits : Int) < now / secUnits + 32768) ∧ ((now / secUnits : Int) ≤ t / secUnits + 32768)) ∧
    (∃ (s : State) (p : Nat), ((s.port p).kmax ∈ ([1, 2, 4, 8] : List Nat)) ∧ (p < 64) ∧ ((s.port p).caps < 256)) :=
  ⟨⟨7, List.replicate 8 65535, by decide +kernel⟩,
    ⟨7, 5 * secUnits + 1, 32772 * secUnits, by decide +kernel⟩,
    ⟨putPort run 63 { kmax := 8 }, 63, by decide +kernel⟩⟩

theorem witness_AnnouncementRoundTrip :
    ∃ (x : TacAct), (x.orig < 2 ^ 16) ∧ (x.actId < 2 ^ 16) ∧ (x.hops < 256) ∧ (x.kind < 256) ∧ (x.t < ftWrap) ∧
    (x.wait ≤ 10000000) ∧ (x.args.length = 32) ∧ (∀ n, n ∈ x.args → n < 256) ∧ (argsOk x.kind x.args = true) :=
  ⟨{ act 8 with args := List.replicate 32 0 }, by decide +kernel⟩

theorem witness_IngotCommands :
    (∃ (s : State) (r : Req), (s.listens r A.SNP_CTRL = true) ∧
      (tb0 (heard s r 1) ≤ (heard s r 1).rdTime A.SNP_AT_W2)) ∧
    (∃ (s : State) (r : Req), (s.listens r A.SNP_CTRL = true) ∧
      ((heard s r 1).rdTime A.SNP_AT_W2 < tb0 (heard s r 1))) ∧
    (∃ (s : State), (s.islandRuns 4 = true) ∧ (s.bit A.SNP_STAT 27 = true) ∧ (s.rdTime A.SNP_AT_W2 ≤ tb0 s)) ∧
    (∃ (s : State), (s.power.die = true)) ∧
    (∃ (s : State), (s.islandRuns 4 = true) ∧ (snpPhase s = 2)) ∧
    (∃ (s : State) (r : Req) (b : Bool), (s.listens r (A.SNP_FREE (bit01 b)) = true)) :=
  ⟨⟨run, .host, by decide +kernel⟩,
    ⟨late, .host, by decide +kernel⟩,
    ⟨run.setBit A.SNP_STAT 27 true, by decide +kernel⟩,
    ⟨run, by decide +kernel⟩,
    ⟨run.setFld A.SNP_STAT 31 28 2, by decide +kernel⟩,
    ⟨run, .host, true, by decide +kernel⟩⟩

theorem witness_InterruptCommands :
    (∃ (s : State) (i : Fin 1024), (s.power.die = true) ∧ (sourceAssigned i.val = true)) ∧
    (∃ (s : State) (i : Fin 1024), (s.power.die = true) ∧ (sourceAssigned i.val = false)) ∧
    (∃ (s : State) (r : Req), (s.listens r A.INT_SWSET = true)) ∧
    (∃ (s : State) (r : Req) (i : Fin 1024), (s.listens r (A.INT_SRC i.val) = true)) ∧
    (∃ (s : State) (r : Req) (t : Fin 35), (s.listens r (A.INT_T_CLAIM t.val) = true)) ∧
    (∃ (s : State) (r : Req) (t : Fin 35), (s.listens r (A.INT_T_EOI t.val) = true)) ∧
    (∃ (s : State) (t : Fin 35), (s.power.die = true) ∧ (s.due (.coalesce t.val) = true)) ∧
    (∃ (s : State) (n : Fin 32), (s.listens .host (A.HOST_MSIX_CTL n.val) = true)) ∧
    (∃ (s : State), (s.power.die = true)) ∧
    (∃ (s : State), (s.power.die = true) ∧ (s.int.link = .l1 ∨ s.int.link = .l1Exit)) ∧
    (∃ (s : State), (s.power.die = true) ∧ (s.int.link = .d3hot)) ∧
    (∃ (s : State), (s.power.die = true) ∧ (s.int.link = .l0)) ∧
    (∃ (s : State), (s.power.die = true) ∧ (s.int.link ≠ .down)) ∧
    (∃ (s : State), (s.power.die = true) ∧ (s.int.link = .down)) ∧
    (∃ (s : State), (s.power.die = true) ∧ (s.int.link = .down)) :=
  ⟨⟨run, 1023, by decide +kernel⟩,
    ⟨run, 1021, by decide +kernel⟩,
    ⟨run, .host, by decide +kernel⟩,
    ⟨run, .host, 1023, by decide +kernel⟩,
    ⟨run, .host, 34, by decide +kernel⟩,
    ⟨run, .host, 34, by decide +kernel⟩,
    ⟨tick run (.coalesce 34), 34, by decide +kernel⟩,
    ⟨run, 31, by decide +kernel⟩,
    ⟨run, by decide +kernel⟩,
    ⟨{ run with int := { link := .l1 } }, by decide +kernel⟩,
    ⟨{ run with int := { link := .d3hot } }, by decide +kernel⟩,
    ⟨run, by decide +kernel⟩,
    ⟨run, by decide +kernel⟩,
    ⟨{ run with int := { link := .down } }, by decide +kernel⟩,
    ⟨{ run with int := { link := .down } }, by decide +kernel⟩⟩

theorem witness_TriggerOutcome :
    (∃ (s : State) (src : Nat) (tag : Nat) (t : Nat), ((trigger s src tag t).2 = true) ∧ (sameClock s = false)) ∧
    (∃ (s : State), (s.bit A.SNP_CFG 31 = true) ∧ (sameClock s = true)) ∧
    (∃ (s : State) (src : Nat) (tag : Nat) (t : Nat), ((trigger s src tag t).2 = false)) :=
  ⟨⟨((run.setBit A.SNP_CFG 31 true).setFld (A.MEM_BANK_STAT 8) 31 28 1), 1, 0, 0, by decide +kernel⟩,
    ⟨{ (run.setBit A.SNP_CFG 31 true).setFld A.SNP_STAT 31 28 2 with snp := { src := 1 } }, by decide +kernel⟩,
    ⟨run, 1, 0, 0, by decide +kernel⟩⟩

theorem witness_RunningPriority :
    (∃ (s : State) (t : Nat) (j : _), (j < 1024) ∧ (srcAct s j = true) ∧ (srcTarget s j = t)) ∧
    (∃ (s : State) (i : _), (i < 1024) ∧ (srcPrio s i = 0) ∧ (srcLive s i = true)) :=
  ⟨⟨run.setBit (A.INT_ACT 31) 31 true, 0, 1023, by decide +kernel⟩,
    ⟨run.wr (A.INT_SRC 1023) 0x80000000, 1023, by decide +kernel⟩⟩

theorem witness_MailboxRequests :
    (∃ (s : State), (s.listens .host A.HOST_MBX_DB = true)) ∧
    (∃ (s : State), (s.listens .host A.HOST_MBX_DB = true)) ∧
    (∃ (s : State), (s.listens .host A.HOST_MBX_DB = true)) ∧
    (∃ (s : State), (s.listens .host A.HOST_MBX_DB = true)) ∧
    (∃ (s : State), (s.listens .host A.HOST_MBX_DB = true)) :=
  ⟨⟨run, by decide +kernel⟩,
    ⟨run, by decide +kernel⟩,
    ⟨run, by decide +kernel⟩,
    ⟨run, by decide +kernel⟩,
    ⟨run, by decide +kernel⟩⟩

theorem witness_HostCommands :
    (∃ (s : State), (s.islandRuns 5 = true) ∧ (mbxState s = 1) ∧ (romServes s = true ∨ firmwareServes s = true)) ∧
    (∃ (s : State) (r : Req), (s.listens r A.HOST_MBX_DB = true)) ∧
    (∃ (s : State) (r : Req) (n : Fin 32), (s.listens r (A.HOST_RING_CFG n.val) = true)) ∧
    (∃ (s : State) (n : Fin 32), (s.islandRuns 4 = true) ∧ (telDue s n.val = true)) :=
  ⟨⟨(boot 7).setFld A.HOST_MBX_STAT 1 0 1, by decide +kernel⟩,
    ⟨run, .host, by decide +kernel⟩,
    ⟨run, .host, 31, by decide +kernel⟩,
    ⟨run.setBit (A.HOST_RING_CFG 31) 31 true, 31, by decide +kernel⟩⟩

theorem witness_CounterCommands :
    (∃ (s : State) (r : Req), (s.listens r A.PMC_CTRL = true)) ∧
    (∃ (s : State) (r : Req), (s.listens r A.PMC_CLR = true)) ∧
    (∃ (s : State) (g : Fin 24) (j : Fin 9), (s.awake = true) ∧ ((g.val, j.val) ∈ s.pmcWraps)) ∧
    (∃ (s : State) (r : Req), (s.listens r A.PMC_UPAGE = true)) :=
  ⟨⟨run, .host, by decide +kernel⟩,
    ⟨run, .host, by decide +kernel⟩,
    ⟨{ run with pmcWraps := [(23, 8)] }, 23, 8, by decide +kernel⟩,
    ⟨run, .host, by decide +kernel⟩⟩

theorem witness_BankAndTestPortCommands :
    (∃ (s : State) (r : Req) (b : Fin 12), (s.listens r (A.MEM_BANK_CTRL b.val) = true)) ∧
    (∃ (s : State) (b : Fin 12) (g : Nat), ((if b.val = 8 ∨ b.val = 9 then s.power.ka else s.power.die) = true) ∧
      ((s.bank b.val).goal = some g) ∧ ((s.bank b.val).held = none)) ∧
    (∃ (s : State) (b : Fin 12) (w : Nat), ((if b.val = 8 ∨ b.val = 9 then s.power.ka else s.power.die) = true) ∧
      (bankState s b.val = 1 ∨ bankState s b.val = 3) ∧ (8 * w < bankSize b.val)) ∧
    (∃ (s : State) (r : Req) (v : Word), (s.listens r A.MEM_MARCH_CTRL = true) ∧ (v.toNat.testBit 31 = true ∧
      marchBad (heard s r 2) v.toNat = true)) ∧
    (∃ (s : State) (r : Req) (v : Word), (s.listens r A.MEM_MARCH_CTRL = true) ∧ (¬(v.toNat.testBit 31 = true ∧
      marchBad (heard s r 2) v.toNat = true)) ∧ (v.toNat.testBit 31 = true)) ∧
    (∃ (s : State) (r : Req) (v : Word), (s.listens r A.MEM_MARCH_CTRL = true) ∧ (¬(v.toNat.testBit 31 = true ∧
      marchBad (heard s r 2) v.toNat = true)) ∧ (v.toNat.testBit 31 = false)) ∧
    (∃ (s : State) (banks : Nat) (keep : Bool), (s.awake = true) ∧ (s.march = some (banks, keep)) ∧ (banks < 4096)) ∧
    (∃ (s : State) (r : Req), (s.listens r A.MEM_CAPT_RD = true)) :=
  ⟨⟨run, .host, 11, by decide +kernel⟩,
    ⟨{ run with banks := [(9, { goal := some 1 })] }, 9, 1, by decide +kernel⟩,
    ⟨run.setFld (A.MEM_BANK_STAT 11) 31 28 1, 11, 0, by decide +kernel⟩,
    ⟨run, .host, 0x80000001#32, by decide +kernel⟩,
    ⟨run, .host, 0x80000000#32, by decide +kernel⟩,
    ⟨run, .host, 0#32, by decide +kernel⟩,
    ⟨{ run with march := some (4095, false) }, 4095, false, by decide +kernel⟩,
    ⟨run, .host, by decide +kernel⟩⟩

theorem witness_GuardedBootGo :
    (∃ (s : State) (r : Req), (s.listens r A.GLB_BOOT_CTRL = true) ∧ (bootState s = 6 ∨ bootState s = 7)) ∧
    (∃ (s : State) (r : Req), (s.listens r A.GLB_BOOT_CTRL = true) ∧ (bootState s ≠ 6) ∧ (bootState s ≠ 7)) :=
  ⟨⟨boot 6, .host, by decide +kernel⟩,
    ⟨run, .host, by decide +kernel⟩⟩

theorem witness_SleepingBlockAccess :
    ∃ (s : State) (r : Req) (a : BitVec 32), (reaches s r = true) ∧ (waitsAtCore s r = false) ∧ (bootState s = 9) ∧
    (mapped a.toNat = true) ∧ (¬(a.toNat < 0x30000 ∨ (0x70000 ≤ a.toNat ∧ a.toNat < 0x80000))) ∧
    (¬(0x100000 ≤ a.toNat ∧ a.toNat < 0x180000)) :=
  ⟨boot 9, .host, 0x30000#32, by decide +kernel⟩

theorem witness_UserPageMirror :
    ∃ (s : State) (r : Req), reaches s r = true ∧ gateOpen s r (A.PMC_USER 0) = true ∧ s.bit A.PMC_UPAGE 0 = true :=
  ⟨run.wr A.PMC_UPAGE 1, .host, by decide +kernel⟩

theorem witness_BankWindow :
    (∃ (s : State) (r : Req) (a : BitVec 32), 0x58000 ≤ a.toNat ∧ a.toNat < 0x60000 ∧ a.toNat % 4 = 0 ∧
      s.listens r a.toNat = true ∧ bankState s (s.fld A.MEM_WIN_SEL 19 16) = 1) ∧
    (∃ (s : State) (r : Req) (a : BitVec 32), 0x58000 ≤ a.toNat ∧ a.toNat < 0x60000 ∧ a.toNat % 4 = 0 ∧
      s.listens r a.toNat = true ∧ bankState s (s.fld A.MEM_WIN_SEL 19 16) ≠ 1) :=
  ⟨⟨run.setFld (A.MEM_BANK_STAT 0) 31 28 1, .host, 0x5FFFC#32, by decide +kernel⟩,
    ⟨run.setFld (A.MEM_BANK_STAT 0) 31 28 0, .host, 0x5FFFC#32, by decide +kernel⟩⟩

/-! What the manual's own examples say. Each test names the file of spec/ that holds its example. -/

/-- The state after a command at the front of the queue. -/
def after (c : Instr) (s : State) : State :=
  match step { s with pending := [c] } with
  | .next t => t
  | _ => s

/-- 00_scope: 1 745 000 000 s plus 123 456 789.25 ns. -/
def exampleTime : Nat := 1745000000 * secUnits + 123456789 * 65536 + 16384

theorem test_ftime_words : ftW2 exampleTime = 0x6802 ∧ ftW1 exampleTime = 0x96404000 ∧ ftW0 exampleTime = 0x075BCD15 := by
  decide +kernel

theorem test_ftime_bytes :
    ftBytes exampleTime = [0, 0, 0x68, 0x02, 0x96, 0x40, 0x07, 0x5B, 0xCD, 0x15, 0x40, 0] := by decide +kernel

/-- 00_scope, R10: W0 at its highest value is taken; one beyond it is refused. -/
theorem test_ftime_commit :
    (after (.ftimeCommit .host (BitVec.ofNat 32 (A.SNP_AT_W2 + 8)) 999999999#32) run).rd (A.SNP_AT_W2 + 8) = 999999999 := by
  decide +kernel

theorem test_ftime_commit_refused :
    (after (.ftimeCommit .host (BitVec.ofNat 32 (A.SNP_AT_W2 + 8)) 1000000000#32) run).rd (A.SNP_AT_W2 + 8) = 0 := by
  decide +kernel

/-- 02_power_boot_sleep: CRC-32C of the ASCII bytes 123456789. -/
theorem test_crc32c : crc32c [0x31, 0x32, 0x33, 0x34, 0x35, 0x36, 0x37, 0x38, 0x39] = 0xE3069283 := by decide +kernel

/-- Addresses that the examples of 03, 04, 05, 06, 07, 08, 11, 14 and 16 give. -/
theorem test_addresses :
    A.LANE_EQ_TBL 299 2 4 = 0x0112B150 ∧ A.PORT_CTRL 42 = 0x008A8008 ∧ A.PTP_ASYM_ALPHA 8 = 0x00184018 ∧
      A.PLL_SYN_NT 3 = 0x001301DC ∧ A.PLL_SYN_RAMP 3 = 0x001301E4 ∧ A.PLL_SYN_AT_W2 3 = 0x00130430 ∧
      A.PLL_RAMP_SEG 3 0 = 0x001310C0 ∧ A.PLS_OUT_CFG 4 = 0x00141100 ∧ A.TDC_CH_CFG 1 = 0x00151200 ∧
      A.CAL_SEL = 0x00160004 ∧ A.SPR_GRP_CFG 3 = 0x003C0180 ∧ A.SPR_GRP_MEM 3 1 = 0x003C01C4 ∧
      A.RSQ_CTX_CFG 69 = 0x003D0450 ∧ A.TAC_ORIG_CTRL = 0x00060040 ∧ A.INT_SRC 960 = 0x00021F00 ∧
      A.INT_T_CFG 5 = 0x00020150 := by decide

/-- 03_lanes: word 4 of the table of lane 299 at mode 2. -/
theorem test_lane_table_word :
    (after (.laneEqTableWrite .host 299 2 4 0x300CF802#32) run).rd 0x0112B150 = 0x300CF802 := by decide +kernel

/-- 06_references_and_synthesis: the profile of SYN3 is accepted, and one segment of 2 µs is refused. -/
def rampSyn (l : List (Nat × Nat)) : State :=
  l.foldl (fun s e => s.wr (A.PLL_RAMP_SEG 3 e.1) e.2)
    ((((driven.wr (A.PLL_SYN_CFG 3) 0x80000000).wr (A.PLL_SYN_N 3) 0xC0800000).wr (A.PLL_SYN_OD 3) 5).wr
      (A.PLL_SYN_NT 3) 0xD0000000)

theorem test_ramp_accepted :
    rampRejects (rampSyn [(0, 0x10000064), (1, 0x600000C8), (2, 0x10000064), (3, 0)]) 3 = false := by decide +kernel

theorem test_ramp_refused : rampRejects (rampSyn [(0, 0x800000C8), (1, 0)]) 3 = true := by decide +kernel

/-- 08_redundancy_and_calibration: the mean of 246.3172 ns and 246.3185 ns, and the saved record of lane 97. -/
theorem test_anneal_mean : meanUnits 4132516869 4132538679 = 0xF6515F := by decide +kernel

theorem test_trim_record :
    (recordBytes (setTrim run 2 0 97 ⟨0x01F6515F, 415, 2⟩) 2 0 97).take 12
      = [0x02, 0, 0x61, 0, 0x5F, 0x51, 0xF6, 0x01, 0x9F, 0x01, 0, 0] := by decide +kernel

/-- 11_spreading_order_multicast: the tag of frame 5006, which is number 0x138E of flow 0x045. -/
theorem test_spread_tag :
    tagBytes (((run.setFld A.GLB_NODE_ID 15 0 0x0210).wr (A.SPR_GRP_CFG 3) 0xC0780040).wr (A.SPR_GRP_MEM 3 2) 0x8000000A)
      { cp (.port 10) 10 5 .queue with via := some (3, 2, none), number := some (5006, false) } { fr with tc := 5 }
      = [0x88, 0xB5, 0x01, 0x10, 0x02, 0x10, 0, 0x45, 0x13, 0x8E, 0x05, 0x02] := by decide +kernel

/-- 14_timed_system_actions: the T bytes of the announcement of the example. -/
theorem test_announcement_time :
    ((announcement { act 1 with t := 1760000000 * secUnits } true 3).drop 8).take 12
      = [0, 0, 0x68, 0xE7, 0x78, 0, 0, 0, 0, 0, 0, 0] := by decide +kernel

/-- 15_register_model_and_snapshots: LINK_UP comes again before software writes back what it read. -/
def portEvents : State := (run.wr (A.PORT_EVT 11) 0x26000000).record (A.PORT_EVT 11) 3

theorem test_write_back_read : portEvents.rd (A.PORT_EVT 11) = 0x27000003 := by decide +kernel

theorem test_write_back :
    (after (.sqcWriteBack .host (BitVec.ofNat 32 (A.PORT_EVT 11)) 0x27000003#32) (portEvents.record (A.PORT_EVT 11) 1)).rd
      (A.PORT_EVT 11) = 0x28000001 := by decide +kernel

/-- 16_interrupts_counters_memory: T5_NEXT once source 960 is notified. -/
theorem test_notified :
    (notify (run.wr (A.INT_SRC 960) 0x80040005) 5 960).rd (A.INT_T_NEXT 5) = 0x900403C0 := by decide +kernel

/-- 17_package_and_electrical: the lands of lane 299. -/
theorem test_lane_lands :
    laneLands 299 = ⟨⟨94, 63⟩, ⟨94, 62⟩, ⟨93, 63⟩, ⟨93, 62⟩, ⟨94, 61⟩, ⟨93, 61⟩⟩ ∧
      rowName 94 = ['D', 'W'] ∧ rowName 93 = ['D', 'V'] := by decide +kernel

/-- 01_architecture: port 37 lies on runner 9, slice 2 and zone 5, as its lanes and its PTP block do. -/
theorem test_port_37 :
    runnerOfPort 37 = 9 ∧ sliceOfPort 37 = 2 ∧ zoneOf (A.PORT_CTRL 37) = some 5 ∧ zoneOf (A.LANE_CTRL 299) = some 5 ∧
      zoneOf (A.PTP_CFG 37) = some 5 := by decide +kernel

/-- A guarded write: the complement of another value raises GUARD_ERR and the register stays. -/
theorem test_guard_refused :
    (after (.guardComplementWrite .host 0x818#32 3#32) (after (.guardFirstWrite .host 0x18#32 3#32) run)).rd A.GLB_AERR_EVT
      = 0x01000002 := by decide +kernel

/-! Terms that are not well formed are refused. -/

theorem test_wf_registerWrite : (Instr.registerWrite .host 0#32 8 [0#32]).wellFormed = false := by decide
theorem test_wf_trunkMarkerRx : (Instr.trunkMarkerRx 0 0 0 0#2 [] 0).wellFormed = false := by decide
theorem test_wf_trunkBlockRx : (Instr.trunkBlockRx 0 []).wellFormed = false := by decide
theorem test_wf_trunkHelloRx : (Instr.trunkHelloRx 0 (List.replicate 513 0#8)).wellFormed = false := by decide +kernel
theorem test_wf_stepupPageRx : (Instr.stepupPageRx 0 []).wellFormed = false := by decide
theorem test_wf_ptpSyncSample : (Instr.ptpSyncSample 0 [] [] ⟨0, ftWrap, 0, 0⟩).wellFormed = false := by decide +kernel
theorem test_wf_ptpDelayReqRx : (Instr.ptpDelayReqRx 0 [] ⟨0, ftWrap, 0, 0⟩).wellFormed = false := by decide +kernel
theorem test_wf_ptpSyncTx : (Instr.ptpSyncTx 0 ⟨0, ftWrap, 0⟩).wellFormed = false := by decide +kernel
theorem test_wf_ptpDelayReqTx : (Instr.ptpDelayReqTx 0 ⟨0, ftWrap, 0⟩).wellFormed = false := by decide +kernel
theorem test_wf_frameAdmit : (Instr.frameAdmit (some ⟨[], .port 0, 0, false⟩)).wellFormed = false := by decide
theorem test_wf_plsExtRequest : (Instr.plsExtRequest 0 ftWrap).wellFormed = false := by decide +kernel
theorem test_wf_frameClassify_empty : (Instr.frameClassify 0 [] quietStamp 0).wellFormed = false := by decide
theorem test_wf_frameClassify_long :
    (Instr.frameClassify 0 (List.replicate 16385 0#8) quietStamp 0).wellFormed = false := by decide +kernel
theorem test_wf_imageHeaderRead : (Instr.imageHeaderRead [] [] [] []).wellFormed = false := by decide
theorem test_wf_flashProgram :
    (Instr.flashProgram 0#8 0#32 0#32 0#32 (List.replicate 61 0#32)).wellFormed = false := by decide +kernel
theorem test_wf_cmisWrite : (Instr.cmisWrite 0#8 0 0 0 0 (List.replicate 60 0#32)).wellFormed = false := by decide +kernel
theorem test_wf_bankEccError : (Instr.bankEccError 0 0x80000 0).wellFormed = false := by decide +kernel

/-- No row of the table gives bits, so no word spells a command. -/
theorem test_no_word_decodes : decodeTableWord 32 0 = none ∧ run.withFetchWord 32 0 = run := by decide +kernel

end Sys2Proof.Tests
end

section
/-! FTIME's words (R7, R8): a time and its three words. -/

namespace Sys2Proof.Machine

theorem ftOfWords_words {t : Nat} (h : t < ftWrap) : ftOfWords (ftW2 t) (ftW1 t) (ftW0 t) = t := by
  simp only [ftWrap, secUnits] at h
  simp only [ftOfWords, ftW2, ftW1, ftW0, secUnits]
  omega

theorem ftOfWords_lt {w2 w1 w0 : Nat} (h2 : w2 < 2 ^ 32) (h1 : w1 < 2 ^ 32) (h0 : w0 < 1000000000) :
    ftOfWords w2 w1 w0 < ftWrap := by
  simp only [ftOfWords, ftWrap, secUnits]
  omega

/-- The seconds, and the rest below a second, of the time that three words hold. -/
theorem ftOfWords_split (w2 w1 : Nat) {w0 : Nat} (h0 : w0 < 1000000000) :
    ftOfWords w2 w1 w0 / secUnits = w2 * 65536 + w1 / 65536 ∧
      ftOfWords w2 w1 w0 % secUnits = w0 * 65536 + w1 % 65536 := by
  simp only [ftOfWords, secUnits]
  omega

theorem ftW2_ftOfWords {w2 w1 w0 : Nat} (h2 : w2 < 2 ^ 32) (h1 : w1 < 2 ^ 32) (h0 : w0 < 1000000000) :
    ftW2 (ftOfWords w2 w1 w0) = w2 := by
  rw [ftW2, (ftOfWords_split w2 w1 h0).1]
  omega

theorem ftW1_ftOfWords (w2 : Nat) {w1 w0 : Nat} (h1 : w1 < 2 ^ 32) (h0 : w0 < 1000000000) :
    ftW1 (ftOfWords w2 w1 w0) = w1 := by
  have hf : ftOfWords w2 w1 w0 % 65536 = w1 % 65536 := by simp only [ftOfWords, secUnits]; omega
  rw [ftW1, (ftOfWords_split w2 w1 h0).1, hf]
  omega

theorem ftW0_ftOfWords (w2 w1 : Nat) {w0 : Nat} (h0 : w0 < 1000000000) : ftW0 (ftOfWords w2 w1 w0) = w0 := by
  rw [ftW0, (ftOfWords_split w2 w1 h0).2]
  omega

end Sys2Proof.Machine

namespace Sys2Proof.Proofs
open Sys2Proof.Machine

/-- Settles O22: the words are the seconds, the nanoseconds and the fraction of the time. -/
theorem ftimeWordsRoundTrip : Obligations.FtimeWordsRoundTrip :=
  ⟨fun _ h => ftOfWords_words h, fun w2 w1 _ h2 h1 h0 =>
    ⟨ftOfWords_lt h2 h1 h0, ftW2_ftOfWords h2 h1 h0, ftW1_ftOfWords w2 h1 h0, ftW0_ftOfWords w2 w1 h0⟩⟩

end Sys2Proof.Proofs
end

section
/-! What an announcement carries (R341): its fields at their offsets, as a reader finds them. -/

namespace Sys2Proof.Machine

/-! Numbers as bytes, most significant byte first (R4). -/

@[simp] theorem leBytes_length (n v : Nat) : (leBytes n v).length = n := by
  induction n generalizing v with
  | zero => rfl
  | succ n ih => simp [leBytes, ih]

@[simp] theorem beBytes_length (n v : Nat) : (beBytes n v).length = n := by simp [beBytes]

theorem leNat_leBytes (n v : Nat) : leNat (leBytes n v) = v % 256 ^ n := by
  induction n generalizing v with
  | zero => simp [leBytes, leNat, Nat.mod_one]
  | succ n ih => rw [leBytes, leNat, ih, Nat.pow_succ', Nat.mod_mul]

theorem beNat_reverse (l : List Nat) : beNat l.reverse = leNat l := by
  induction l with
  | nil => rfl
  | cons b l ih =>
    simp only [beNat, List.foldl_reverse] at ih
    simp only [beNat, List.foldl_reverse, List.foldr_cons, ih, leNat]
    omega

theorem beNat_beBytes {n v : Nat} (h : v < 256 ^ n) : beNat (beBytes n v) = v := by
  rw [beBytes, beNat_reverse, leNat_leBytes, Nat.mod_eq_of_lt h]

/-- The bytes of a list between its first bytes and the rest. -/
theorem slice_between (p m q : List Nat) : slice (p ++ (m ++ q)) p.length m.length = m := by
  refine List.ext_getElem (by simp [slice]) fun k _ hk => ?_
  simp [slice, List.getElem?_append_right, List.getElem?_append_left hk, List.getElem?_eq_getElem hk]

theorem slice_of_split {l p m q : List Nat} {i n : Nat} (h : l = p ++ (m ++ q)) (hp : p.length = i) (hm : m.length = n) :
    slice l i n = m := by rw [h, ← hp, ← hm, slice_between]

/-- The number of `n` bytes that follow the first bytes. -/
theorem beAt_of_split {l p q : List Nat} {i n v : Nat} (h : l = p ++ (beBytes n v ++ q)) (hp : p.length = i)
    (hv : v < 256 ^ n) : beAt l i n = v := by
  rw [beAt, slice_of_split h hp (beBytes_length n v), beNat_beBytes hv]

theorem byteAt_of_split {l p q : List Nat} {i b : Nat} (h : l = p ++ b :: q) (hp : p.length = i) : byteAt l i = b := by
  simp [byteAt, h, ← hp]

/-! A CRC-32C is a 32-bit number (R54). -/

theorem crcBit_lt {poly c : Nat} (hp : poly < 2 ^ 32) (hc : c < 2 ^ 32) : crcBit poly c < 2 ^ 32 := by
  unfold crcBit
  split
  · exact Nat.xor_lt_two_pow (by omega) hp
  · omega

theorem crcBits_lt {poly : Nat} (hp : poly < 2 ^ 32) (n : Nat) {c : Nat} (hc : c < 2 ^ 32) :
    crcBits poly n c < 2 ^ 32 := by
  induction n generalizing c with
  | zero => exact hc
  | succ n ih => exact ih (crcBit_lt hp hc)

theorem crcFold_lt (l : List Nat) {c : Nat} (hc : c < 2 ^ 32) : l.foldl (crcByte 0x82F63B78) c < 2 ^ 32 := by
  induction l generalizing c with
  | nil => exact hc
  | cons b l ih => exact ih (crcBits_lt (by decide) 8 (Nat.xor_lt_two_pow hc (by omega)))

theorem crc32c_lt (l : List Nat) : crc32c l < 2 ^ 32 :=
  Nat.xor_lt_two_pow (crcFold_lt l (by decide)) (by decide)

/-! The bytes of a time (R9), and of an announcement (R341). -/

theorem ftBytes_eq (t : Nat) :
    ftBytes t = beBytes 6 (t / secUnits % 2 ^ 48) ++ (beBytes 4 (ftW0 t) ++ beBytes 2 (t % 65536)) := by
  have h : t % 65536 / 256 % 256 = t % 65536 / 256 := by omega
  simp [ftBytes, beBytes, leBytes, Nat.div_div_eq_div_mul, h]

theorem ftW0_lt (t : Nat) : ftW0 t < 1000000000 := by
  simp only [ftW0, secUnits]; omega

/-- The nanoseconds of a time whose bytes follow the first ones. -/
theorem nanos_of_split {l p q : List Nat} {i t : Nat} (h : l = p ++ (ftBytes t ++ q)) (hp : p.length = i) :
    beAt l (i + 6) 4 = ftW0 t := by
  have h0 := ftW0_lt t
  exact beAt_of_split (p := p ++ beBytes 6 (t / secUnits % 2 ^ 48)) (q := beBytes 2 (t % 65536) ++ q)
    (by simp [h, ftBytes_eq]) (by simp [hp]) (by omega)

/-- A time read from the bytes that follow the first bytes. -/
theorem ftAtByte_of_split {l p q : List Nat} {i t : Nat} (h : l = p ++ (ftBytes t ++ q)) (hp : p.length = i)
    (ht : t < ftWrap) : ftAtByte l i = t := by
  have hs : beAt l i 6 = t / secUnits % 2 ^ 48 :=
    beAt_of_split (q := beBytes 4 (ftW0 t) ++ (beBytes 2 (t % 65536) ++ q)) (by simp [h, ftBytes_eq]) hp (by omega)
  have hf : beAt l (i + 10) 2 = t % 65536 :=
    beAt_of_split (p := p ++ (beBytes 6 (t / secUnits % 2 ^ 48) ++ beBytes 4 (ftW0 t))) (q := q)
      (by simp [h, ftBytes_eq]) (by simp [hp]) (by omega)
  rw [ftAtByte, hs, nanos_of_split h hp, hf]
  simp only [ftWrap, secUnits] at ht
  simp only [ftW0, secUnits]
  omega

/-- The first two bytes of an announcement: its subtype, and its version with the flags. -/
def announceFront (a : TacAct) (asked : Bool) : List Nat := [3, 0x10 + bit01 a.lateOk * 8 + bit01 asked * 4]

/-- The header of an announcement, up to its time: version, flags, originator, action, hops and kind. -/
def announceHead (a : TacAct) (asked : Bool) (hops : Nat) : List Nat :=
  announceFront a asked ++ beBytes 2 a.orig ++ beBytes 2 a.actId ++ [hops % 256, a.kind]

theorem announceHead_length (a : TacAct) (asked : Bool) (hops : Nat) : (announceHead a asked hops).length = 8 := by
  simp [announceHead, announceFront]

/-- An announcement without its CHECK. -/
def announceBody (a : TacAct) (asked : Bool) (hops : Nat) : List Nat :=
  announceHead a asked hops ++ (ftBytes a.t ++ (beBytes 4 a.wait ++ a.args))

theorem ftBytes_length (t : Nat) : (ftBytes t).length = 12 := rfl

theorem announceBody_length {a : TacAct} (asked : Bool) (hops : Nat) (h : a.args.length = 32) :
    (announceBody a asked hops).length = 56 := by
  simp [announceBody, announceHead_length, ftBytes_length, h]

theorem announcement_eq (a : TacAct) (asked : Bool) (hops : Nat) :
    announcement a asked hops = announceBody a asked hops ++ beBytes 4 (crc32c (announceBody a asked hops)) := by
  simp [announcement, withCheck, announceBody, announceHead, announceFront]

/-- The byte with the version and the flags. -/
theorem announce_flags (late asked : Bool) :
    (0x10 + bit01 late * 8 + bit01 asked * 4) / 16 = 1 ∧ (0x10 + bit01 late * 8 + bit01 asked * 4) % 4 = 0 ∧
      (0x10 + bit01 late * 8 + bit01 asked * 4).testBit 3 = late := by
  cases late <;> cases asked <;> decide

/-- What a reader finds in an announcement, field by field. -/
structure AnnounceFields (b : List Nat) (a : TacAct) (asked : Bool) (hops : Nat) : Prop where
  flags : byteAt b 1 = 0x10 + bit01 a.lateOk * 8 + bit01 asked * 4
  orig : beAt b 2 2 = a.orig
  actId : beAt b 4 2 = a.actId
  hops : byteAt b 6 = hops
  kind : byteAt b 7 = a.kind
  time : ftAtByte b 8 = a.t
  nanos : beAt b 14 4 = ftW0 a.t
  wait : beAt b 20 4 = a.wait
  args : slice b 24 32 = a.args
  check : beAt b 56 4 = crc32c (b.take 56)
  length : b.length = 60

theorem announcement_fields {a : TacAct} {asked : Bool} {hops : Nat} (ho : a.orig < 2 ^ 16) (hi : a.actId < 2 ^ 16)
    (hh : hops < 256) (ht : a.t < ftWrap) (hw : a.wait < 2 ^ 32) (ha : a.args.length = 32) :
    AnnounceFields (announcement a asked hops) a asked hops := by
  have hb := announceBody_length asked hops ha
  have hm : hops % 256 = hops := Nat.mod_eq_of_lt hh
  have hl := announceHead_length a asked hops
  have he := announcement_eq a asked hops
  generalize hx : announcement a asked hops = x at he ⊢
  generalize hcrc : beBytes 4 (crc32c (announceBody a asked hops)) = chk at he
  have hhead : x = announceFront a asked ++ (beBytes 2 a.orig ++ (beBytes 2 a.actId ++
      (hops :: a.kind :: (ftBytes a.t ++ (beBytes 4 a.wait ++ (a.args ++ chk)))))) := by
    simp [he, announceBody, announceHead, hm]
  have htime : x = announceHead a asked hops ++ (ftBytes a.t ++ (beBytes 4 a.wait ++ (a.args ++ chk))) := by
    simp [he, announceBody]
  exact {
    flags := byteAt_of_split (p := [3]) hhead rfl
    orig := beAt_of_split hhead rfl (by omega)
    actId := beAt_of_split (p := announceFront a asked ++ beBytes 2 a.orig) (by rw [hhead, List.append_assoc]) rfl (by omega)
    hops := byteAt_of_split (p := announceFront a asked ++ (beBytes 2 a.orig ++ beBytes 2 a.actId))
      (by simp only [hhead, List.append_assoc]; rfl) rfl
    kind := byteAt_of_split (p := announceFront a asked ++ (beBytes 2 a.orig ++ (beBytes 2 a.actId ++ [hops])))
      (by simp only [hhead, List.append_assoc, List.singleton_append]; rfl) rfl
    time := ftAtByte_of_split htime hl ht
    nanos := nanos_of_split htime hl
    wait := beAt_of_split (p := announceHead a asked hops ++ ftBytes a.t) (by rw [htime, List.append_assoc])
      (by simp [hl, ftBytes_length]) (by omega)
    args := slice_of_split (p := announceHead a asked hops ++ (ftBytes a.t ++ beBytes 4 a.wait)) (q := chk)
      (by simp only [htime, List.append_assoc]) (by simp [hl, ftBytes_length]) ha
    check := by
      rw [he, List.take_left' hb]
      exact beAt_of_split (q := []) (by rw [← hcrc, List.append_nil]) hb (crc32c_lt _)
    length := by simp [he, hb, ← hcrc] }

end Sys2Proof.Machine

namespace Sys2Proof.Proofs
open Sys2Proof.Machine

/-- Settles O51: every field stands at the offset at which the reader looks for it, and the reader's checks pass. -/
theorem announcementRoundTrip : Obligations.AnnouncementRoundTrip := by
  intro x ho hi hh _ ht hw ha _ hok
  obtain ⟨flags, orig, actId, hops, kind, time, nanos, wait, args, check, length⟩ :=
    announcement_fields (asked := x.report) ho hi hh ht (by omega) ha
  obtain ⟨hver, hzero, hlate⟩ := announce_flags x.lateOk x.report
  have hnanos := ftW0_lt x.t
  simp only [readAnnounce, flags, orig, actId, hops, kind, time, nanos, wait, args, check, length, hver, hzero, hok, hnanos,
    hw, le_refl, and_self, if_true, Option.some.injEq]
  exact ⟨_, rfl, rfl, rfl, rfl, rfl, rfl, rfl, rfl, hlate, trivial⟩

end Sys2Proof.Proofs
end

section
/-! The registers that an access error can change: those of AERR, and those that the raise of its source can change. -/

namespace Sys2Proof.Machine

/-! Registers that stay. -/

theorem RegsKept.refl (s : State) (p : Nat → Bool) : RegsKept s s p := fun _ _ => rfl

theorem RegsKept.trans {s t u : State} {p : Nat → Bool} (h : RegsKept s t p) (g : RegsKept t u p) : RegsKept s u p :=
  fun a ha => (g a ha).trans (h a ha)

/-- A larger set of exceptions says less. -/
theorem RegsKept.mono {s t : State} {p q : Nat → Bool} (h : RegsKept s t p) (hpq : ∀ a, q a = false → p a = false) :
    RegsKept s t q := fun a ha => h a (hpq a ha)

theorem regsKept_of_regs {s t : State} (p : Nat → Bool) (h : t.regs = s.regs) : RegsKept s t p := fun a _ => by
  rw [State.rd, State.rd, h]

theorem regsKept_wr (s : State) {a : Nat} (v : Nat) {p : Nat → Bool} (h : p a = true) : RegsKept s (s.wr a v) p :=
  fun b hb => rd_wr_ne s v (by rintro rfl; rw [h] at hb; cases hb)

theorem regsKept_setFld (s : State) {a : Nat} (hi lo v : Nat) {p : Nat → Bool} (h : p a = true) :
    RegsKept s (s.setFld a hi lo v) p := regsKept_wr s _ h

theorem regsKept_setBit (s : State) {a : Nat} (i : Nat) (b : Bool) {p : Nat → Bool} (h : p a = true) :
    RegsKept s (s.setBit a i b) p := regsKept_wr s _ h

theorem regsKept_emit (s : State) (o : Out) (p : Nat → Bool) : RegsKept s (s.emit o) p := fun _ _ => rfl

theorem regsKept_snp (s : State) (h : SnpHidden) (p : Nat → Bool) : RegsKept s { s with snp := h } p := fun _ _ => rfl

theorem regsKept_add64 (s : State) {a : Nat} (n : Nat) {p : Nat → Bool} (h : p a = true) (h' : p (a + 4) = true) :
    RegsKept s (s.add64 a n) p := (regsKept_wr s _ h).trans (regsKept_wr _ _ h')

theorem regsKept_record (s : State) {evt : Nat} (mask : Nat) {p : Nat → Bool} (h : p evt = true) :
    RegsKept s (s.record evt mask) p := fun a ha => rd_record_ne s mask (by rintro rfl; rw [h] at ha; cases ha)

/-! A raise (R376 to R384, R370 to R372). -/

/-- The registers that a raise writes: Tt_NEXT and PEND, the counters of the groups, and of SNP its status, its events,
its misses and the valid slots; and the Pending Bit Array. -/
def raiseWrites (a : Nat) : Bool :=
  decide (0x20100 ≤ a ∧ a < 0x20500) || decide (0x31000 ≤ a ∧ a < 0x32000) || decide (0x40008 ≤ a ∧ a < 0x40010) ||
    decide (0x40030 ≤ a ∧ a < 0x40050) || decide (a = A.HOST_PBA)

theorem raiseWrites_iff (a : Nat) : raiseWrites a = true ↔
    (0x20100 ≤ a ∧ a < 0x20500) ∨ (0x31000 ≤ a ∧ a < 0x32000) ∨ (0x40008 ≤ a ∧ a < 0x40010) ∨
      (0x40030 ≤ a ∧ a < 0x40050) ∨ a = A.HOST_PBA := by
  simp only [raiseWrites, Bool.or_eq_true, decide_eq_true_eq, or_assoc]

theorem raiseWrites_next {t : Nat} (h : t < 64) : raiseWrites (A.INT_T_NEXT t) = true := by
  rw [raiseWrites_iff, A.INT_T_NEXT]; omega

theorem raiseWrites_pend {i : Nat} (h : i < 1024) : raiseWrites (A.INT_PEND (i / 32)) = true := by
  rw [raiseWrites_iff, A.INT_PEND]; omega

theorem raiseWrites_valid {k : Nat} (h : k < 64) : raiseWrites (A.SNP_VALID (k / 32)) = true := by
  rw [raiseWrites_iff, A.SNP_VALID]; omega

theorem regsKept_pmcEvent (s : State) (ev n : Nat) : RegsKept s (s.pmcEvent 22 ev n) raiseWrites := by
  obtain ⟨m, w, -, hr⟩ := pmcEvent_shape s 22 ev n
  refine fun a ha => hr a ?_
  simp only [raiseWrites, Bool.or_eq_false_iff, decide_eq_false_iff_not] at ha
  simp only [A.PMC_CTR_LO, A.PMC_CYC_LO]
  omega

theorem regsKept_sendMsix (s : State) (n : Nat) : RegsKept s (sendMsix s n) raiseWrites := by
  unfold sendMsix
  exact (regsKept_emit s _ _).trans (regsKept_pmcEvent _ _ _)

theorem regsKept_routeMsix (s : State) (n : Nat) : RegsKept s (routeMsix s n) raiseWrites := by
  unfold routeMsix
  split
  · exact RegsKept.refl s _
  · exact regsKept_sendMsix s n
  · exact fun _ _ => rfl
  · exact fun _ _ => rfl
  · simp only []
    split <;> exact fun _ _ => rfl

theorem regsKept_notify (s : State) {t : Nat} (i : Nat) (h : t < 64) : RegsKept s (notify s t i) raiseWrites := by
  have h0 : RegsKept s ((setCount (latchNext s t i) t 0).stop (.coalesce t)) raiseWrites :=
    (regsKept_wr s _ (raiseWrites_next h)).trans (regsKept_of_regs _ rfl)
  unfold notify
  simp only []
  split
  · split
    · exact h0.trans (regsKept_setBit _ _ _ (by decide))
    · exact h0.trans (regsKept_routeMsix _ _)
  · exact h0

theorem regsKept_offer (s : State) {t : Nat} (i : Nat) (h : t < 64) : RegsKept s (offer s t i) raiseWrites := by
  have hc : RegsKept s (countRaise s t i) raiseWrites := by
    unfold countRaise
    simp only []
    split
    · exact regsKept_notify s i h
    · split <;> exact regsKept_of_regs _ rfl
  unfold offer
  split
  · split
    · exact hc
    · split
      · exact regsKept_notify s i h
      · exact RegsKept.refl s _
  · exact RegsKept.refl s _

theorem regsKept_raiseSource (s : State) {i : Nat} (h : i < 1024) : RegsKept s (raiseSource s i) raiseWrites := by
  unfold raiseSource
  split
  · exact (regsKept_setBit s _ _ (raiseWrites_pend h)).trans (regsKept_offer _ i (srcTarget_lt s i))
  · exact RegsKept.refl s _

theorem regsKept_snpEvent (s : State) (mask : Nat) : RegsKept s (snpEvent s mask) raiseWrites := by
  have h0 : RegsKept s (s.record A.SNP_EVT mask) raiseWrites := regsKept_record s mask (by decide)
  unfold snpEvent State.eventQuiet
  simp only []
  split
  · exact h0
  · exact h0.trans (regsKept_raiseSource _ (by decide))

theorem regsKept_missTrigger (s : State) (src cause : Nat) : RegsKept s (missTrigger s src cause) raiseWrites := by
  unfold missTrigger
  simp only []
  split
  · exact regsKept_wr s _ (by decide)
  · have h0 : RegsKept s ((s.add64 A.SNP_MISSED_LO 1).wr A.SNP_MISS_INFO (cause * 2 ^ 28 + src)) raiseWrites :=
      (regsKept_add64 s 1 (by decide) (by decide)).trans (regsKept_wr _ _ (by decide))
    exact (h0.trans (regsKept_snp _ _ _)).trans (regsKept_snpEvent _ 2)

theorem regsKept_latchSection (s : State) (x : SnpSect) : RegsKept s (latchSection s x).2 raiseWrites := by
  have h : ∀ (t : State) (st : Nat), RegsKept s t raiseWrites →
      RegsKept s (if st = 0 then t else snpEvent t 4) raiseWrites := fun t st ht => by
    split
    · exact ht
    · exact ht.trans (regsKept_snpEvent t 4)
  unfold latchSection
  cases zoneOf x.addr with
  | some _ => exact h _ _ (RegsKept.refl s _)
  | none => exact h _ _ (regsKept_of_regs _ rfl)

theorem regsKept_latchAll (till : Nat) (l : List SnpSect) (s : State) : RegsKept s (latchAll s till l).2 raiseWrites := by
  induction l generalizing s with
  | nil => exact RegsKept.refl s _
  | cons x l ih =>
    simp only [latchAll]
    split
    · exact (regsKept_latchSection s x).trans (ih _)
    · exact ih s

theorem regsKept_latchUpTo (s : State) (till : Nat) : RegsKept s (latchUpTo s till) raiseWrites := by
  unfold latchUpTo
  split
  · exact RegsKept.refl s _
  · simp only []
    have h0 := (regsKept_latchAll till s.snp.sects s).trans (regsKept_snp _
      { (latchAll s till s.snp.sects).2.snp with sects := (latchAll s till s.snp.sects).1 } _)
    generalize ({ (latchAll s till s.snp.sects).2 with snp := _ } : State) = x at h0 ⊢
    split
    · have h1 := h0.trans (regsKept_setFld x 31 28 2 (a := A.SNP_STAT) (by decide))
      split
      · exact h1.trans (regsKept_emit _ _ _)
      · exact h1
    · exact h0

theorem putBank_regs (l : List Nat) (s : State) (b i : Nat) : (s.putBank b i l).regs = s.regs := by
  induction l generalizing s i with
  | nil => rfl
  | cons v l ih => exact ih _ _

theorem regsKept_setSlot (s : State) {k : Nat} (v : Bool) (h : k < 64) : RegsKept s (setSlot s k v) raiseWrites :=
  (regsKept_setBit s _ v (raiseWrites_valid h)).trans (regsKept_setFld _ _ _ _ (by decide))

/-- What is latched at a trigger, whatever state `y` frees the slot. -/
theorem regsKept_latchFrom {s y : State} (h : RegsKept s y raiseWrites) (p : SnpHidden) (till : Nat) :
    RegsKept s (latchUpTo (({ y with snp := p } : State).setFld A.SNP_STAT 31 28 1) till) raiseWrites :=
  ((h.trans (regsKept_snp y p _)).trans (regsKept_setFld _ 31 28 1 (by decide))).trans (regsKept_latchUpTo _ till)

theorem regsKept_latchIngot (s : State) {k : Nat} (src tag t : Nat) (h : k < 64) :
    RegsKept s (latchIngot s k src tag t) raiseWrites :=
  regsKept_latchFrom ((regsKept_of_regs _ (putBank_regs _ _ _ _)).trans (regsKept_setSlot _ false h)) _ _

theorem regsKept_trigger (s : State) (src tag t : Nat) : RegsKept s (trigger s src tag t).1 raiseWrites := by
  unfold trigger
  split
  · exact regsKept_missTrigger s src 3
  split
  · exact regsKept_of_regs _ rfl
  split
  · exact regsKept_missTrigger s src 1
  split
  · exact regsKept_missTrigger s src 2
  · rename_i k hk
    split
    · exact regsKept_missTrigger s src 4
    split
    · exact regsKept_missTrigger s src 5
    · exact regsKept_latchIngot s src tag t (nextSlot_lt hk)

theorem regsKept_raise (s : State) {i : Nat} (h : i < 1024) : RegsKept s (s.raise i) raiseWrites := by
  unfold State.raise
  simp only []
  split
  · exact (regsKept_raiseSource s h).trans (regsKept_trigger _ _ _ _)
  · exact regsKept_raiseSource s h

/-! An access error (R367). -/


/-- The registers that an access error writes: those of AERR, and what a raise writes. -/
def errWrites (a : Nat) : Bool := decide (0x40 ≤ a ∧ a < 0x60) || raiseWrites a

theorem errWrites_iff (a : Nat) : errWrites a = true ↔ (0x40 ≤ a ∧ a < 0x60) ∨ raiseWrites a = true := by
  simp only [errWrites, Bool.or_eq_true, decide_eq_true_eq]

theorem regsKept_captureErr (s : State) (kind : Nat) (r : Req) (a : Nat) (w : Bool) :
    RegsKept s (captureErr s kind r a w) errWrites := by
  unfold captureErr
  split
  · exact RegsKept.refl s _
  · exact (regsKept_wr s _ (by decide)).trans (regsKept_wr _ _ (by decide))

theorem regsKept_accessErr (s : State) (kind : Nat) (r : Req) (a : Nat) : RegsKept s (accessErr s kind r a) errWrites := by
  have hraise : ∀ u : State, RegsKept u (u.raise 3) errWrites := fun u =>
    (regsKept_raise u (by decide)).mono fun b hb => (Bool.or_eq_false_iff.1 hb).2
  exact (((regsKept_add64 s 1 (by decide) (by decide)).trans (regsKept_captureErr _ _ _ _ _)).trans
    (regsKept_record _ 1 (by decide))).trans (hraise _)

section Kept

variable {α : Type} {f : State → α} (hf : ∀ (s : State) m l, f { s with regs := m, stamps := l } = f s)
include hf

theorem wr_keeps (s : State) (a v : Nat) : f (s.wr a v) = f s := hf s _ s.stamps

theorem stamps_keeps (s : State) (l : List (Nat × Nat)) : f { s with stamps := l } = f s := hf s s.regs l

theorem record_keeps (s : State) (evt mask : Nat) : f (s.record evt mask) = f s := by
  unfold State.record
  split
  · rfl
  · exact (stamps_keeps hf _ _).trans (wr_keeps hf s _ _)

theorem captureErr_keeps (s : State) (kind : Nat) (r : Req) (a : Nat) (w : Bool) : f (captureErr s kind r a w) = f s := by
  unfold captureErr
  split
  · rfl
  · rw [wr_keeps hf, wr_keeps hf]

/-- A part of the state that no register, stamp or raise changes stays in an access error. -/
theorem accessErr_keeps (hq : ∀ s u, f (asBefore s u) = f u) (s : State) (kind : Nat) (r : Req) (a : Nat) :
    f (accessErr s kind r a) = f s := by
  have hraise : ∀ u : State, f (u.raise 3) = f u := fun u => (quiet_raise u 3 (by decide)).keeps f (hq u)
  unfold accessErr
  rw [hraise, record_keeps hf, captureErr_keeps hf]
  unfold State.add64 State.wr64
  rw [wr_keeps hf, wr_keeps hf]

end Kept

@[simp] theorem accessErr_guardMgmt (s : State) (kind : Nat) (r : Req) (a : Nat) :
    (accessErr s kind r a).guardMgmt = s.guardMgmt := 
  accessErr_keeps (f := State.guardMgmt) (fun _ _ _ => rfl) (fun _ _ => rfl) s kind r a

@[simp] theorem accessErr_staged (s : State) (kind : Nat) (r : Req) (a : Nat) :
    (accessErr s kind r a).staged = s.staged := 
  accessErr_keeps (f := State.staged) (fun _ _ _ => rfl) (fun _ _ => rfl) s kind r a

end Sys2Proof.Machine
end

section
/-! Accesses: what a write of a register, of a pair, of a burst and of an aperture ends in. -/

namespace Sys2Proof.Machine

/-! What the count of an access keeps (R390). -/

theorem regsKept_heard (s : State) (r : Req) (n : Nat) :
    RegsKept s (heard s r n) (fun b => countsHost b && decide (r = .host)) := by
  intro a ha
  cases r with
  | mgmt => rfl
  | host => exact rd_heard s .host n (by simpa using ha)

theorem banksKept_of_eq {s t : State} (hm : t.mem = s.mem) (hb : t.banks = s.banks) : BanksKept s t := fun b i => by
  rw [State.bankByte, State.bankByte, hm, hb]

theorem regs_wf_wr64 (s : State) (a v : Nat) (h : Map.wf resetOf s.regs = true) :
    Map.wf resetOf (s.wr64 a v).regs = true := regs_wf_wr _ _ _ (regs_wf_wr _ _ _ h)

theorem regs_of_wraps (u : State) (b : Prop) [Decidable b] (w : List (Nat × Nat)) :
    (if b then { u with pmcWraps := w } else u).regs = u.regs := by
  split <;> rfl

theorem pmcAdd_regs (s : State) (g j n : Nat) :
    (pmcAdd s g j n).regs = (s.wr64 (A.PMC_CTR_LO g j) ((s.rd64 (A.PMC_CTR_LO g j) + n) % 2 ^ 48)).regs :=
  regs_of_wraps _ _ _

theorem regs_wf_pmcAdd (s : State) (g j n : Nat) (h : Map.wf resetOf s.regs = true) :
    Map.wf resetOf (pmcAdd s g j n).regs = true := by
  rw [pmcAdd_regs]
  exact regs_wf_wr64 s _ _ h

theorem regs_wf_pmcCount (g ev n : Nat) (l : List Nat) (s : State) (h : Map.wf resetOf s.regs = true) :
    Map.wf resetOf
      (l.foldl (fun s j => if s.fld (A.PMC_G_SEL g j) 9 0 = ev then pmcAdd s g j n else s) s).regs = true := by
  induction l generalizing s with
  | nil => exact h
  | cons j l ih =>
    rw [List.foldl_cons]
    split
    · exact ih _ (regs_wf_pmcAdd s g j n h)
    · exact ih s h

theorem regs_wf_heard (s : State) (r : Req) (n : Nat) (h : Map.wf resetOf s.regs = true) :
    Map.wf resetOf (heard s r n).regs = true := by
  unfold heard State.pmcEvent
  split
  · split
    · exact h
    · exact regs_wf_pmcCount 22 0x302 n _ s h
  · exact h

/-! A word that a register takes. -/

theorem maskOf_row {a : Nat} {row : RegRow} (h : rowOf a = some row) : maskOf a = row.mask := by
  simp only [maskOf, h]

theorem rd_takeWord_self (s : State) {a : Nat} (v : Word) {row : RegRow} (h : rowOf a = some row) :
    (takeWord s a v.toNat).rd a = v.toNat &&& row.mask := by
  rw [takeWord, rd_wr_self, maskOf_row h]
  exact Nat.mod_eq_of_lt (Nat.lt_of_le_of_lt Nat.and_le_left v.isLt)

/-- A register takes a word: of the others only those change that had changed before. -/
theorem regsKept_takeWord {s u : State} {p : Nat → Bool} (h : RegsKept s u p) (a v : Nat) :
    RegsKept s (takeWord u a v) (fun b => decide (b = a) || p b) := by
  intro b hb
  rw [Bool.or_eq_false_iff, decide_eq_false_iff_not] at hb
  rw [takeWord, rd_wr_ne u _ hb.1, h b hb.2]

/-- A command that ends in `t` ends in a state of which everything holds that holds of `t` and does not speak of the queue
and of true time. -/
theorem Ends.endsWith_of {c : Instr} {s t : State} {P : State → Prop} (h : Ends c s t) (hP : P t)
    (hq : ∀ (u : State) p n, P u → P { u with pending := p, now := n }) : EndsWith c s P := h.endsWith (hq t _ _ hP)

/-! Writes of one word. -/

theorem exec_registerWrite (s : State) (r : Req) (a : BitVec 32) (bytes : Nat) (data : List Word) :
    exec (.registerWrite r a bytes data) s = done s (busWrite s r a.toNat bytes data).1 := rfl

theorem write32_word (s : State) (r : Req) (a : Nat) (v : Word) : write32 s r a v.toNat = (busWrite s r a 4 [v]).1 := by
  simp [write32]

theorem ends_registerWrite {s : State} {r : Req} {a : BitVec 32} {v : Word} {row : RegRow}
    (h : s.listens r a.toNat = true) (ha : a.toNat % 4 = 0) (hr : rowOf a.toNat = some row) :
    Ends (.registerWrite r a 4 [v]) s (served (heard s r 1) r a.toNat v.toNat row) := by
  have hw := write32_served v.toNat h ha hr
  rw [write32_word, Nat.mod_eq_of_lt v.isLt] at hw
  exact ends_of_exec (by rw [exec_registerWrite, hw])

theorem served_rw {s : State} {r : Req} {a v : Nat} {row : RegRow} (h : row.acc = .rw)
    (he : writeEffect s r a v = .plain) : served s r a v row = takeWord s a v := by
  simp [served, h, writePlain, he]

theorem served_ro {s : State} {r : Req} {a v : Nat} {row : RegRow} (h : row.acc = .ro) : served s r a v row = s := by
  simp [served, h]

theorem served_cnt {s : State} {r : Req} {a v : Nat} {row : RegRow} (h : row.acc = .cnt) :
    served s r a v row = takeWord s a v := by simp [served, h]

theorem served_wo {s : State} {r : Req} {a v : Nat} {row : RegRow} (h : row.acc = .wo) :
    served s r a v row = writePlain s r a a v true := by simp [served, h]

theorem served_sqc {s : State} {r : Req} {a v : Nat} {row : RegRow} (h : row.acc = .sqc) :
    served s r a v row = if sqcAhead s a v then accessErr s 8 r a else s.writeBack a v := by simp [served, h]

theorem served_ftime {s : State} {r : Req} {a v w : Nat} {row : RegRow} (h : row.acc = .ftime w) :
    served s r a v row = writeTime s r a a w v := by simp [served, h]

theorem writePlain_does {s t : State} {r : Req} {acc a v : Nat} (wo : Bool) (h : writeEffect s r a v = .does t) :
    writePlain s r acc a v wo = t := by simp [writePlain, h]

theorem writePlain_refuse {s : State} {r : Req} {acc a v : Nat} (wo : Bool) (h : writeEffect s r a v = .refuse) :
    writePlain s r acc a v wo = rejected s r acc := by simp [writePlain, h]

/-- A WO register reads 0 (R12). -/
theorem viewReg_wo (s : State) (r : Option Req) {a : Nat} {row : RegRow} (hr : rowOf a = some row) (h : row.acc = .wo) :
    viewReg s r a = some 0 := by simp [viewReg, hr, h]

/-- `t` is `s` but for the word `v` that the register at `a` took, and the count of the requester's write. -/
def TookWord (s : State) (r : Req) (a v : Nat) (t : State) : Prop :=
  t.rd a = v ∧ RegsKept s t (fun b => decide (b = a) || (countsHost b && decide (r = .host))) ∧
    BanksKept s t ∧ t.timers = s.timers ∧ t.out = s.out ∧
    (Map.wf resetOf s.regs = true → Map.wf resetOf t.regs = true)

theorem tookWord_takeWord (s : State) (r : Req) {a : Nat} (v : Word) {row : RegRow} (hr : rowOf a = some row) :
    TookWord s r a (v.toNat &&& row.mask) (takeWord (heard s r 1) a v.toNat) := by
  refine ⟨rd_takeWord_self _ v hr, regsKept_takeWord (regsKept_heard s r 1) a _, banksKept_of_eq ?_ ?_, ?_, ?_,
    fun hw => regs_wf_wr _ _ _ (regs_wf_heard s r 1 hw)⟩
  all_goals rw [takeWord]; simp

theorem endsWith_takeWord {c : Instr} {s : State} {r : Req} {a : Nat} {v : Word} {row : RegRow}
    (hr : rowOf a = some row) (h : Ends c s (takeWord (heard s r 1) a v.toNat)) :
    EndsWith c s (TookWord s r a (v.toNat &&& row.mask)) :=
  h.endsWith_of (tookWord_takeWord s r v hr) fun _ _ _ ht => ht

/-! Whole accesses (R358, R359). -/

/-- A write that leaves the management complex's sequences as they were fails no section. -/
theorem recordBreaks_kept {s t : State} (r : Req) (h : t.guardMgmt = s.guardMgmt) : recordBreaks s r t = t := by
  simp [recordBreaks, h]

/-- An access comes to the bus: what is not mapped answers an error, a wrong width is discarded, and words are written. -/
theorem busWrite_unmapped {s : State} {r : Req} {a : Nat} (bytes : Nat) (data : List Word) (hr : reaches s r = true)
    (hw : waitsAtCore s r = false) (hm : mapped a = false) :
    (busWrite s r a bytes data).1 = s.emit (.errorResponse r a) := by
  simp [busWrite, hr, hw, busAccess, hm, recordBreaks_kept (s := s) (t := s.emit _) r rfl]

theorem busWrite_error {s : State} {r : Req} {a bytes k : Nat} (data : List Word) (hr : reaches s r = true)
    (hw : waitsAtCore s r = false) (hm : mapped a = true) (hg : gateOpen s r a = true)
    (hk : accessWidth a bytes = .error k) : (busWrite s r a bytes data).1 = accessErr (heard s r 1) k r a := by
  have hb : recordBreaks s r (accessErr (heard s r 1) k r a) = accessErr (heard s r 1) k r a :=
    recordBreaks_kept r (by simp)
  simp [busWrite, hr, hw, busAccess, hm, hg, hk, hb]

theorem busWrite_words {s : State} {r : Req} {a bytes n : Nat} (data : List Word) (hr : reaches s r = true)
    (hw : waitsAtCore s r = false) (hm : mapped a = true) (hg : gateOpen s r a = true)
    (hk : accessWidth a bytes = .words n) :
    (busWrite s r a bytes data).1 =
      recordBreaks s r (if (writeWords r a (data.take n) (heard s r 1)).2 then (writeWords r a (data.take n) (heard s r 1)).1
        else (writeWords r a (data.take n) (heard s r 1)).1.emit (.errorResponse r a)) := by
  simp [busWrite, hr, hw, busAccess, hm, hg, hk]

theorem writeWords_one (r : Req) (a : Nat) (v : Word) (s : State) : writeWords r a [v] s = wordWrite s r a v.toNat := by
  simp [writeWords]

/-- A write of one word, at a register's address or an aperture's. -/
theorem write32_wordWrite {s : State} {r : Req} {a : Nat} (v : Word) (hr : reaches s r = true)
    (hw : waitsAtCore s r = false) (hm : mapped a = true) (hg : gateOpen s r a = true) (ha : a % 4 = 0) :
    write32 s r a v.toNat =
      recordBreaks s r (if (wordWrite (heard s r 1) r a v.toNat).2 then (wordWrite (heard s r 1) r a v.toNat).1
        else (wordWrite (heard s r 1) r a v.toNat).1.emit (.errorResponse r a)) := by
  rw [write32_word, busWrite_words [v] hr hw hm hg (accessWidth_word ha), List.take_succ_cons, List.take_zero,
    writeWords_one]

/-! Widths. -/

theorem accessWidth_narrow {a bytes : Nat} (h : bytes < 4) (h' : a % 4 + bytes ≤ 4) : accessWidth a bytes = .error 1 := by
  rw [accessWidth, if_pos ⟨h, h'⟩]

theorem accessWidth_narrow_crossing {a bytes : Nat} (h : bytes < 4) (h' : 4 < a % 4 + bytes) :
    accessWidth a bytes = .error 2 := by
  rw [accessWidth, if_neg (by omega)]
  split
  · rw [if_pos (by omega)]
  · rw [if_neg (by omega), if_neg (by omega), if_neg (by omega)]

theorem accessWidth_misaligned {a bytes : Nat} (ht : inTbl a = false) (h : 4 ≤ bytes) (h' : bytes ≤ 8)
    (hw : ¬(bytes = 4 ∧ a % 4 = 0)) (hp : ¬(bytes = 8 ∧ a % 8 = 0)) : accessWidth a bytes = .error 2 := by
  rw [accessWidth, if_neg (by omega), ht, if_neg (by decide), if_neg (by omega), if_neg hw, if_neg hp]

theorem accessWidth_pair {a : Nat} (ht : inTbl a = false) (ha : a % 8 = 0) :
    accessWidth a 8 = if isGrd a || isGrd (a + 4) then .error 3 else .words 2 := by
  rw [accessWidth, if_neg (by omega), ht, if_neg (by decide), if_neg (by omega), if_neg (by omega), if_pos ⟨rfl, ha⟩]

theorem accessWidth_wide {a bytes : Nat} (ht : inTbl a = false) (h : 8 < bytes) : accessWidth a bytes = .error 3 := by
  rw [accessWidth, if_neg (by omega), ht, if_neg (by decide), if_pos h]

theorem accessWidth_tbl {a bytes : Nat} (ht : inTbl a = true) (h : 4 ≤ bytes) :
    accessWidth a bytes =
      if a % 4 ≠ 0 ∨ bytes % 4 ≠ 0 then .error 2 else if a % 64 + bytes ≤ 64 then .words (bytes / 4) else .error 3 := by
  rw [accessWidth, if_neg (by omega), if_pos ht]

end Sys2Proof.Machine
end

section
/-! Writes of registers by their type and by their width (R12, R358, R359). -/

namespace Sys2Proof.Machine

theorem EndsWith.imp {c : Instr} {s : State} {P Q : State → Prop} (h : EndsWith c s P) (hpq : ∀ t, P t → Q t) :
    EndsWith c s Q := by
  obtain ⟨t, he, hp, hn, ht⟩ := h
  exact ⟨t, he, hp, hn, hpq t ht⟩

/-- What an address needs to take a requester's accesses with no guard sequence pending. -/
theorem listens_iff (s : State) (r : Req) (a : Nat) : s.listens r a = true ↔
    reaches s r = true ∧ waitsAtCore s r = false ∧ gateOpen s r a = true ∧ s.nodeOpen a = true ∧ s.guardHost = [] ∧
      s.guardMgmt = [] := by
  simp only [State.listens, Bool.and_eq_true, Bool.not_eq_true', List.isEmpty_iff, and_assoc]

/-! An open node stays open while GLB.ZONE_STAT, GLB.BOOT_STAT and the loops stay. -/

theorem nodeOpen_congr {s t : State} (hz : t.rd A.GLB_ZONE_STAT = s.rd A.GLB_ZONE_STAT)
    (hb : t.rd A.GLB_BOOT_STAT = s.rd A.GLB_BOOT_STAT) (hl : t.loops = s.loops) (a : Nat) :
    t.nodeOpen a = s.nodeOpen a := by
  simp only [State.nodeOpen, zoneRefuses, zoneFails, nodeRuns, portIslandRuns, zoneInReset, zoneFault,
    Machine.islandRuns, loopStopped, asleep, bootState, State.bit, State.fld, hz, hb, hl]
  rfl

/-- The registers of the zones and of the start-up are read-only. -/
theorem statRows_ro : (∀ row, rowOf A.GLB_ZONE_STAT = some row → row.acc = .ro) ∧
    (∀ row, rowOf A.GLB_BOOT_STAT = some row → row.acc = .ro) := by
  have hz : rowOf A.GLB_ZONE_STAT = some ⟨0x404, 1, 0x4, 1, 0x4, .ro, 0xffffff, 0x0, false, false⟩ := by decide
  have hb : rowOf A.GLB_BOOT_STAT = some ⟨0x10, 1, 0x4, 1, 0x4, .ro, 0xffffffff, 0x1, false, false⟩ := by decide
  rw [hz, hb]
  exact ⟨by rintro _ ⟨⟩; rfl, by rintro _ ⟨⟩; rfl⟩

/-- A register that is not read-only takes a word: every open node stays open. -/
theorem nodeOpen_takeWord (s : State) {a : Nat} (v : Nat) {row : RegRow} (hr : rowOf a = some row) (h : row.acc ≠ .ro)
    (b : Nat) : (takeWord s a v).nodeOpen b = s.nodeOpen b := by
  refine nodeOpen_congr (rd_wr_ne s _ ?_) (rd_wr_ne s _ ?_) rfl b
  · rintro rfl; exact h (statRows_ro.1 row hr)
  · rintro rfl; exact h (statRows_ro.2 row hr)

/-! The words of a pair and of a burst. -/

theorem wordWrite_served {s : State} {r : Req} {a v : Nat} {row : RegRow} (hz : s.nodeOpen a = true)
    (hh : s.guardHost = []) (hm : s.guardMgmt = []) (hr : rowOf a = some row) :
    wordWrite s r a v = (served s r a v row, true) := by
  obtain ⟨hp, hl, -⟩ := rowOf_own hr
  simp only [wordWrite, hp, hl, Bool.false_eq_true, if_false, nodeWrite_served hz hh hm hr]

/-- One word of a burst: the state and whether all words so far completed. -/
def burstWord (r : Req) (a : Nat) (x : State × Bool) (e : Word × Nat) : State × Bool :=
  let y := wordWrite x.1 r (a + 4 * e.2) e.1.toNat
  (y.1, x.2 && y.2)

/-- A burst writes word by word, each at its own address. -/
theorem burst_eq_writeWords (r : Req) (a : Nat) (l : List Word) (i : Nat) (s : State) (ok : Bool) :
    (l.zipIdx i).foldl (burstWord r a) (s, ok) =
      ((writeWords r (a + 4 * i) l s).1, ok && (writeWords r (a + 4 * i) l s).2) := by
  induction l generalizing i s ok with
  | nil => simp [writeWords]
  | cons v l ih =>
    rw [List.zipIdx_cons, List.foldl_cons, burstWord, ih, show a + 4 * (i + 1) = a + 4 * i + 4 by omega]
    simp only [writeWords, Bool.and_assoc]

theorem ends_burst {s : State} {r : Req} {a : BitVec 32} {data : List Word} (hr : reaches s r = true)
    (hw : waitsAtCore s r = false) (hg : gateOpen s r a.toNat = true) (hm : mapped a.toNat = true)
    (ht : inTbl a.toNat = true) (ha : a.toNat % 4 = 0) (h0 : 0 < data.length)
    (h64 : a.toNat % 64 + 4 * data.length ≤ 64) :
    let each := (data.zipIdx).foldl (burstWord r a.toNat) (heard s r 1, true)
    Ends (.registerWrite r a (4 * data.length) data) s
      (recordBreaks s r (if each.2 then each.1 else each.1.emit (.errorResponse r a.toNat))) := by
  have hk : accessWidth a.toNat (4 * data.length) = .words data.length := by
    rw [accessWidth_tbl ht (by omega), if_neg (by omega), if_pos h64]
    congr 1
    omega
  refine ends_of_exec ?_
  rw [exec_registerWrite, busWrite_words data hr hw hm hg hk, List.take_length, burst_eq_writeWords]
  simp only [Nat.mul_zero, Nat.add_zero, Bool.true_and]

/-- Two RW registers side by side take the two words of a 64-bit write. -/
theorem ends_pair {s : State} {r : Req} {a : BitVec 32} {v w : Word} {row row' : RegRow}
    (h : s.listens r a.toNat = true) (hz' : s.nodeOpen (a.toNat + 4) = true) (ha : a.toNat % 8 = 0)
    (ht : inTbl a.toNat = false) (hr : rowOf a.toNat = some row) (hrw : row.acc = .rw)
    (hr' : rowOf (a.toNat + 4) = some row') (hrw' : row'.acc = .rw)
    (he : writeEffect (heard s r 1) r a.toNat v.toNat = .plain)
    (he' : writeEffect (takeWord (heard s r 1) a.toNat v.toNat) r (a.toNat + 4) w.toNat = .plain) :
    Ends (.registerWrite r a 8 [v, w]) s
      (takeWord (takeWord (heard s r 1) a.toNat v.toNat) (a.toNat + 4) w.toNat) := by
  obtain ⟨hd, hw, hg, hz, hh, hm⟩ := (listens_iff s r a.toNat).1 h
  have hgrd : (isGrd a.toNat || isGrd (a.toNat + 4)) = false := by simp [isGrd, hr, hr', hrw, hrw']
  have hk : accessWidth a.toNat 8 = .words 2 := by rw [accessWidth_pair ht ha, hgrd]; rfl
  have h1 : wordWrite (heard s r 1) r a.toNat v.toNat = (takeWord (heard s r 1) a.toNat v.toNat, true) := by
    rw [wordWrite_served (by rw [nodeOpen_heard]; exact hz) (by rw [heard_guardHost, hh]) (by rw [heard_guardMgmt, hm]) hr,
      served_rw hrw he]
  have h2 := wordWrite_served (s := takeWord (heard s r 1) a.toNat v.toNat) (r := r) (v := w.toNat)
    (by rw [nodeOpen_takeWord _ _ hr (by rw [hrw]; decide), nodeOpen_heard]; exact hz')
    (by rw [takeWord, wr_guardHost, heard_guardHost, hh]) (by rw [takeWord, wr_guardMgmt, heard_guardMgmt, hm]) hr'
  rw [served_rw hrw' he'] at h2
  refine ends_of_exec ?_
  rw [exec_registerWrite, busWrite_words [v, w] hd hw (rowOf_own hr).2.2 hg hk, recordBreaks_idle r _ hm]
  simp only [List.take_succ_cons, List.take_zero, writeWords, h1, h2, Bool.and_self, if_true]

/-- What a 64-bit write of two RW registers leaves. -/
theorem endsWith_pair {c : Instr} {s : State} {r : Req} {a : Nat} {v w : Word} {row row' : RegRow}
    (hr : rowOf a = some row) (hr' : rowOf (a + 4) = some row')
    (h : Ends c s (takeWord (takeWord (heard s r 1) a v.toNat) (a + 4) w.toNat)) :
    EndsWith c s fun t =>
      t.rd a = v.toNat &&& row.mask ∧ t.rd (a + 4) = w.toNat &&& row'.mask ∧
      RegsKept s t (fun b => decide (b = a) || decide (b = a + 4) || (countsHost b && decide (r = .host))) := by
  refine h.endsWith_of ⟨?_, rd_takeWord_self _ w hr', ?_⟩ fun _ _ _ ht => ht
  · rw [takeWord, rd_wr_ne _ _ (by omega), rd_takeWord_self _ v hr]
  · refine (regsKept_takeWord (regsKept_takeWord (regsKept_heard s r 1) a _) (a + 4) _).mono fun b hb => ?_
    rw [← hb, ← Bool.or_assoc, Bool.or_comm (decide (b = a + 4))]

/-! Errors. -/

theorem ends_widthError {s : State} {r : Req} {a : BitVec 32} {bytes k : Nat} (data : List Word) (hr : reaches s r = true)
    (hw : waitsAtCore s r = false) (hm : mapped a.toNat = true) (hg : gateOpen s r a.toNat = true)
    (hk : accessWidth a.toNat bytes = .error k) :
    Ends (.registerWrite r a bytes data) s (accessErr (heard s r 1) k r a.toNat) :=
  ends_of_exec (by rw [exec_registerWrite, busWrite_error data hr hw hm hg hk])

/-- A place without a register, in a block, discards the write with kind UNMAPPED. -/
theorem ends_noRegister {s : State} {r : Req} {a : BitVec 32} (v : Word) (h : s.listens r a.toNat = true)
    (ha : a.toNat % 4 = 0) (hm : mapped a.toNat = true) (hp : isPortAperture a.toNat = false)
    (hl : isLaneAperture a.toNat = false) (hr : rowOf a.toNat = none) (hc : isComplement a.toNat = false) :
    Ends (.registerWrite r a 4 [v]) s (accessErr (heard s r 1) 4 r a.toNat) := by
  obtain ⟨hd, hw, hg, hz, hh, hgm⟩ := (listens_iff s r a.toNat).1 h
  obtain ⟨h1, h2, h3⟩ := (nodeOpen_iff (heard s r 1) a.toNat).1 (by rw [nodeOpen_heard]; exact hz)
  have hb : breakGuards (heard s r 1) a.toNat none = heard s r 1 :=
    breakGuards_none (by rw [heard_guardHost, hh]) (by rw [heard_guardMgmt, hgm])
  have hword : wordWrite (heard s r 1) r a.toNat v.toNat = (accessErr (heard s r 1) 4 r a.toNat, true) := by
    simp [wordWrite, hp, hl, nodeWrite, h1, h2, h3, regWrite, hr, hc, hb]
  refine ends_of_exec ?_
  rw [exec_registerWrite, ← write32_word, write32_wordWrite v hd hw hm hg ha, hword, recordBreaks_idle r _ hgm,
    if_pos rfl]

end Sys2Proof.Machine

namespace Sys2Proof.Proofs
open Sys2Proof.Machine

/-- The fifth part of RegisterWriteByType: what no register takes, or what has a wrong width, is turned away (R358,
R359). -/
theorem writeTurnedAway (s : State) (r : Req) (a : BitVec 32) (bytes : Nat) (data : List Word) (hr : reaches s r = true)
    (hw : waitsAtCore s r = false) :
    let c := Instr.registerWrite r a bytes data
    let errs := fun k => Ends c s (accessErr (heard s r 1) k r a.toNat)
    (mapped a.toNat = false → Ends c s (s.emit (.errorResponse r a.toNat))) ∧
    (mapped a.toNat = true → gateOpen s r a.toNat = true →
      (bytes < 4 → a.toNat % 4 + bytes ≤ 4 → errs 1) ∧
      (bytes < 4 → 4 < a.toNat % 4 + bytes → errs 2) ∧
      (inTbl a.toNat = false →
        (4 ≤ bytes → bytes ≤ 8 → ¬(bytes = 4 ∧ a.toNat % 4 = 0) → ¬(bytes = 8 ∧ a.toNat % 8 = 0) → errs 2) ∧
        (bytes = 8 → a.toNat % 8 = 0 → isGrd a.toNat = true ∨ isGrd (a.toNat + 4) = true → errs 3) ∧
        (8 < bytes → errs 3)) ∧
      (inTbl a.toNat = true →
        (4 ≤ bytes → a.toNat % 4 ≠ 0 ∨ bytes % 4 ≠ 0 → errs 2) ∧
        (4 ≤ bytes → a.toNat % 4 = 0 → bytes % 4 = 0 → 64 < a.toNat % 64 + bytes → errs 3)) ∧
      (bytes = 4 → a.toNat % 4 = 0 → data.length = 1 → s.listens r a.toNat = true → isPortAperture a.toNat = false →
        isLaneAperture a.toNat = false → rowOf a.toNat = none → isComplement a.toNat = false → errs 4)) := by
  intro c errs
  refine ⟨fun hm => ends_of_exec (by rw [exec_registerWrite, busWrite_unmapped bytes data hr hw hm]), fun hm hg => ?_⟩
  have err : ∀ {k}, accessWidth a.toNat bytes = .error k → errs k := fun hk => ends_widthError data hr hw hm hg hk
  refine ⟨fun h h' => err (accessWidth_narrow h h'), fun h h' => err (accessWidth_narrow_crossing h h'),
    fun ht => ⟨fun h h' hn hp => err (accessWidth_misaligned ht h h' hn hp), ?_, fun h => err (accessWidth_wide ht h)⟩,
    fun ht => ⟨fun h h' => err ?_, fun h ha hb h' => err ?_⟩, ?_⟩
  · rintro rfl ha hgrd
    exact err (by rw [accessWidth_pair ht ha, if_pos (by simpa using hgrd)])
  · rw [accessWidth_tbl ht h, if_pos h']
  · rw [accessWidth_tbl ht h, if_neg (by omega), if_neg (by omega)]
  · rintro rfl ha h1 hlis hp hl hrow hc
    obtain ⟨v, rfl⟩ := List.length_eq_one_iff.1 h1
    exact ends_noRegister v hlis ha hm hp hl hrow hc

/-- Settles O8: each part by the access type of the row, or by the width of the access. -/
theorem registerWriteByType : Obligations.RegisterWriteByType := by
  refine ⟨?rw, ?ro, ?cnt, ?wo, fun s r a bytes data hr hw => writeTurnedAway s r a bytes data hr hw, ?pair, ?burst⟩
  case rw =>
    intro s r a v row h ha hr hacc he
    have hend := ends_registerWrite (v := v) h ha hr
    rw [served_rw hacc he] at hend
    exact endsWith_takeWord hr hend
  case ro =>
    intro s r a v row h ha hr hacc
    have hend := ends_registerWrite (v := v) h ha hr
    rwa [served_ro hacc] at hend
  case cnt =>
    intro s r a v row h ha hr hacc
    have hend := ends_registerWrite (v := v) h ha hr
    rw [served_cnt hacc] at hend
    exact (endsWith_takeWord hr hend).imp fun t ⟨hrd, hkept, hbanks, htimers, hout, _⟩ =>
      ⟨hrd, hkept, hbanks, htimers, hout⟩
  case wo =>
    intro s r a v row hr hacc
    refine ⟨viewReg_wo s _ hr hacc, fun h ha => ?_⟩
    have hend := ends_registerWrite (v := v) h ha hr
    rw [served_wo hacc] at hend
    exact ⟨fun t ht => by rwa [writePlain_does true ht] at hend, fun ht => by rwa [writePlain_refuse true ht] at hend⟩
  case pair =>
    intro s r a v w row row' h hz' ha ht hr hrw hr' hrw' he he'
    rw [← maskOf_row hr] at he'
    exact endsWith_pair hr hr' (ends_pair h hz' ha ht hr hrw hr' hrw' he he')
  case burst =>
    intro s r a data hr hw hg hm ht ha h0 h64
    exact ends_burst hr hw hg hm ht ha h0 h64

end Sys2Proof.Proofs
end

section
/-! FTIME registers: words that are staged, and commits (R10, R11). -/

namespace Sys2Proof.Machine

/-- W2 and W1 wait in the requester's staging. -/
theorem writeTime_staged {s : State} {r : Req} {acc a w v : Nat} (hw : w ≠ 0) (he : writeEffect s r a v = .plain) :
    writeTime s r acc a w v = putStaged s (2 * a + reqNum r) v := by
  simp [writeTime, he, hw]

/-- A W0 of a second or more is rejected, whatever the register's block says. -/
theorem writeTime_late {s : State} {r : Req} {acc a v : Nat} (hv : 1000000000 ≤ v) :
    writeTime s r acc a 0 v = rejected s r acc := by
  unfold writeTime
  split
  · rfl
  · rw [if_pos rfl, if_pos hv]

/-- The word that a requester has staged for the register at an address. -/
def stagedAt (s : State) (r : Req) (a : Nat) : Nat := (Map.get 0 s.staged (2 * a + reqNum r)).toNat

/-- A commit writes the two staged words and W0. -/
theorem writeTime_commit {s : State} {r : Req} {acc a v : Nat} (hv : v < 1000000000)
    (he : writeEffect s r a v = .plain) (hn : entryOf a (A.TIM_TB_SET_W0 0) 0x10 8 = none) :
    writeTime s r acc a 0 v = s.wrTime (a - 8) (ftOfWords (stagedAt s r (a - 8)) (stagedAt s r (a - 4)) v) := by
  simp only [writeTime, he, if_true, if_neg (Nat.not_le.2 hv), commitTo, hn, stagedAt]

/-- The three words of an FTIME register read what was written to them. -/
theorem rd_wrTime_words (s : State) (a : Nat) {w2 w1 w0 : Nat} (h2 : w2 < 2 ^ 32) (h1 : w1 < 2 ^ 32) (h0 : w0 < 1000000000) :
    (s.wrTime a (ftOfWords w2 w1 w0)).rd a = w2 ∧ (s.wrTime a (ftOfWords w2 w1 w0)).rd (a + 4) = w1 ∧
      (s.wrTime a (ftOfWords w2 w1 w0)).rd (a + 8) = w0 := by
  simp only [State.wrTime, ftW2_ftOfWords h2 h1 h0, ftW1_ftOfWords w2 h1 h0, ftW0_ftOfWords w2 w1 h0]
  refine ⟨?_, ?_, ?_⟩
  · rw [rd_wr_ne _ _ (by omega), rd_wr_ne _ _ (by omega), rd_wr_self, Nat.mod_eq_of_lt h2]
  · rw [rd_wr_ne _ _ (by omega), rd_wr_self, Nat.mod_eq_of_lt h1]
  · rw [rd_wr_self, Nat.mod_eq_of_lt (by omega)]

theorem rd_wrTime_ne (s : State) {a b : Nat} (t : Nat) (h : ¬(a ≤ b ∧ b ≤ a + 8)) : (s.wrTime a t).rd b = s.rd b := by
  rw [State.wrTime, rd_wr_ne _ _ (by omega), rd_wr_ne _ _ (by omega), rd_wr_ne _ _ (by omega)]

/-! Where the FTIME registers lie: no access error writes their words. -/

/-- W0 of every FTIME register stands 8 bytes or more into its block, which is PWR, SNP (only SNP.AT), TAC or a block beyond
HOST. -/
theorem ftimeRows_place : ∀ b ∈ blocks, ∀ row ∈ b.rows, row.acc = .ftime 0 → 8 ≤ row.off ∧
    ((b.base = 0x10000 ∧ b.size = 0x10000) ∨
      (b.base = 0x40000 ∧ row = ⟨0x28, 1, 0x4, 1, 0x4, .ftime 0, 0xffffffff, 0, false, false⟩ ∧ b.size = b.stride) ∨
      (b.base = 0x60000 ∧ b.size = 0x10000) ∨ 0x80000 ≤ b.base) := by
  decide +kernel

/-- The addresses of an FTIME register's words. -/
theorem ftime_range {a : Nat} {row : RegRow} (hr : rowOf a = some row) (h : row.acc = .ftime 0) :
    (0x10000 ≤ a - 8 ∧ a < 0x20000) ∨ a = A.SNP_AT_W0 ∨ (0x60000 ≤ a - 8 ∧ a < 0x70000) ∨ 0x80000 ≤ a - 8 := by
  obtain ⟨b, hb, hmem, hcov⟩ := rowOf_block hr
  obtain ⟨hbm, hlo, hhi⟩ := blockOf_mem hb
  obtain ⟨hoff, hplace⟩ := ftimeRows_place b hbm row hmem h
  simp only [RegRow.covers, Bool.and_eq_true, decide_eq_true_eq] at hcov
  obtain ⟨⟨⟨hge, hn1⟩, hn2⟩, hs2⟩ := hcov
  have hle : (a - b.base) % b.stride ≤ a - b.base := Nat.mod_le _ _
  rcases hplace with ⟨h1, h2⟩ | ⟨h1, rfl, h3⟩ | ⟨h1, h2⟩ | h1
  · exact .inl (by omega)
  · simp only [] at hge hn1 hn2 hs2
    rw [Nat.mod_eq_of_lt (show a - b.base < b.stride by omega)] at hge hn1 hn2 hs2
    exact .inr (.inl (by rw [A.SNP_AT_W0]; omega))
  · exact .inr (.inr (.inl (by omega)))
  · exact .inr (.inr (.inr (by omega)))

theorem errWrites_countsHost {a : Nat} (h : countsHost a = true) : errWrites a = true := by
  simp only [countsHost, Bool.and_eq_true, decide_eq_true_eq] at h
  simp only [A.PMC_CTR_LO, A.PMC_CYC_LO] at h
  exact (errWrites_iff a).2 (.inr ((raiseWrites_iff a).2 (by omega)))

/-- No access error writes a word of an FTIME register. -/
theorem ftime_not_errWrites {a b : Nat} {row : RegRow} (hr : rowOf a = some row) (h : row.acc = .ftime 0)
    (hlo : a - 8 ≤ b) (hhi : b ≤ a) : errWrites b = false := by
  have hrange := ftime_range hr h
  rw [← Bool.not_eq_true, errWrites_iff, raiseWrites_iff]
  simp only [A.SNP_AT_W0, A.HOST_PBA] at hrange ⊢
  omega

/-- A count and an access error leave what no access error writes. -/
theorem rd_accessErr_heard {b : Nat} (s : State) (r : Req) (n kind : Nat) (q : Req) (a : Nat) (h : errWrites b = false) :
    (accessErr (heard s r n) kind q a).rd b = s.rd b := by
  rw [regsKept_accessErr _ kind q a b h, rd_heard s r n]
  exact Bool.eq_false_iff.2 fun hc => by rw [errWrites_countsHost hc] at h; cases h

theorem exec_ftimeCommit (s : State) (r : Req) (a : BitVec 32) (v : Word) :
    exec (.ftimeCommit r a v) s = done s (write32 s r a.toNat v.toNat) := rfl

theorem ends_ftimeCommit {s : State} {r : Req} {a : BitVec 32} {v : Word} {row : RegRow}
    (h : s.listens r a.toNat = true) (ha : a.toNat % 4 = 0) (hr : rowOf a.toNat = some row) (hacc : row.acc = .ftime 0) :
    Ends (.ftimeCommit r a v) s (writeTime (heard s r 1) r a.toNat a.toNat 0 v.toNat) := by
  have hw := write32_served v.toNat h ha hr
  rw [Nat.mod_eq_of_lt v.isLt, served_ftime hacc] at hw
  exact ends_of_exec (by rw [exec_ftimeCommit, hw])

end Sys2Proof.Machine

namespace Sys2Proof.Proofs
open Sys2Proof.Machine

/-- Settles O9: the words wait in the requester's staging until W0 commits the three, or is rejected. -/
theorem ftimeCommit : Obligations.FtimeCommit := by
  refine ⟨?staged, ?commit, ?late⟩
  case staged =>
    intro s r a v row w h ha hr hacc hw he
    have hend := ends_registerWrite (v := v) h ha hr
    rw [served_ftime hacc, writeTime_staged hw he] at hend
    refine hend.endsWith_of ⟨?_, ?_⟩ fun _ _ _ ht => ht
    · simp [putStaged]
    · exact (regsKept_heard s r 1).trans (regsKept_of_regs _ rfl)
  case commit =>
    intro s r a v row h ha h8 hr hacc he hv hn
    have hend := ends_ftimeCommit (v := v) h ha hr hacc
    rw [writeTime_commit hv he hn] at hend
    obtain ⟨h2, h1, h0⟩ := rd_wrTime_words (heard s r 1) (a.toNat - 8) (w2 := stagedAt (heard s r 1) r (a.toNat - 8))
      (w1 := stagedAt (heard s r 1) r (a.toNat - 4)) (BitVec.isLt _) (BitVec.isLt _) hv
    rw [show a.toNat - 8 + 4 = a.toNat - 4 by omega] at h1
    rw [show a.toNat - 8 + 8 = a.toNat by omega] at h0
    refine hend.endsWith_of ⟨h0, by rw [h1, stagedAt, heard_staged], by rw [h2, stagedAt, heard_staged], ?_⟩
      fun _ _ _ ht => ht
    intro b hb
    simp only [Bool.or_eq_false_iff, ← Bool.decide_and, decide_eq_false_iff_not] at hb
    rw [rd_wrTime_ne _ _ (by omega), regsKept_heard s r 1 b hb.2]
  case late =>
    intro s r a v row h ha hr hacc hv
    have hend := ends_ftimeCommit (v := v) h ha hr hacc
    rw [writeTime_late hv] at hend
    refine ⟨hend, by rw [accessErr_staged, heard_staged], fun b hlo hhi => ?_⟩
    exact rd_accessErr_heard s r 1 5 r a.toNat (ftime_not_errWrites hr hacc hlo hhi)

end Sys2Proof.Proofs
end

section
/-! Write backs, apertures and the clear of the captured error (R13, R16, R364, R367, R368). -/

namespace Sys2Proof.Machine

theorem exec_sqcWriteBack (s : State) (r : Req) (a : BitVec 32) (v : Word) :
    exec (.sqcWriteBack r a v) s = done s (write32 s r a.toNat v.toNat) := rfl

theorem exec_apertureWrite (s : State) (r : Req) (a : BitVec 32) (v : Word) :
    exec (.apertureWrite r a v) s = done s (write32 s r a.toNat v.toNat) := rfl

theorem exec_aerrClr (s : State) (r : Req) (v : Word) :
    exec (.aerrClr r v) s = done s (write32 s r A.GLB_AERR_CLR v.toNat) := rfl

theorem ends_sqcWriteBack {s : State} {r : Req} {a : BitVec 32} {v : Word} {row : RegRow}
    (h : s.listens r a.toNat = true) (ha : a.toNat % 4 = 0) (hr : rowOf a.toNat = some row) (hacc : row.acc = .sqc) :
    Ends (.sqcWriteBack r a v) s
      (if sqcAhead (heard s r 1) a.toNat v.toNat then accessErr (heard s r 1) 8 r a.toNat
        else (heard s r 1).writeBack a.toNat v.toNat) := by
  have hw := write32_served v.toNat h ha hr
  rw [Nat.mod_eq_of_lt v.isLt, served_sqc hacc] at hw
  exact ends_of_exec (by rw [exec_sqcWriteBack, hw])

/-! Apertures. -/

/-- A LANE aperture is no PORT aperture. -/
theorem not_port_of_lane {a : Nat} (h : isLaneAperture a = true) : isPortAperture a = false := by
  simp only [isLaneAperture, isPortAperture, Bool.or_eq_true, Bool.or_eq_false_iff, decide_eq_true_eq,
    decide_eq_false_iff_not] at h ⊢
  omega

theorem wordWrite_lane {s : State} {r : Req} {a v : Nat} (h : isLaneAperture a = true) :
    wordWrite s r a v = writeEach r a v (lanePlace (a % 0x1000)) (laneMembers s a) s := by
  simp [wordWrite, not_port_of_lane h, h]

theorem wordWrite_port {s : State} {r : Req} {a v : Nat} (h : isPortAperture a = true) :
    wordWrite s r a v = portAperture s r a (a % 0x4000) v (portMembers s a) := by
  simp [wordWrite, h]

/-- An aperture write ends in what its word does at the members. -/
theorem ends_apertureWrite {s : State} {r : Req} {a : BitVec 32} {v : Word} (hr : reaches s r = true)
    (hw : waitsAtCore s r = false) (hg : gateOpen s r a.toNat = true) (hm : mapped a.toNat = true) (ha : a.toNat % 4 = 0) :
    Ends (.apertureWrite r a v) s
      (recordBreaks s r (if (wordWrite (heard s r 1) r a.toNat v.toNat).2 then (wordWrite (heard s r 1) r a.toNat v.toNat).1
        else (wordWrite (heard s r 1) r a.toNat v.toNat).1.emit (.errorResponse r a.toNat))) :=
  ends_of_exec (by rw [exec_apertureWrite, write32_wordWrite v hr hw hm hg ha])

/-! The clear of the captured error. -/

theorem rowOf_aerrClr : rowOf A.GLB_AERR_CLR = some ⟨0x48, 1, 0x4, 1, 0x4, .wo, 0x1, 0x0, false, false⟩ := by decide

/-- What AERR_CLR does to the captured error. -/
def clearedErr (s : State) (v : Nat) : State := if v.testBit 0 then s.setBit A.GLB_AERR_INFO 31 false else s

theorem writeEffect_aerrClr (s : State) (r : Req) (v : Nat) :
    writeEffect s r A.GLB_AERR_CLR v = .does (clearedErr s v) := rfl

theorem ends_aerrClr {s : State} {r : Req} {v : Word} (h : s.listens r A.GLB_AERR_CLR = true) :
    Ends (.aerrClr r v) s (clearedErr (heard s r 1) v.toNat) := by
  have hw := write32_served v.toNat h (by decide) rowOf_aerrClr
  rw [Nat.mod_eq_of_lt v.isLt, served_wo rfl, writePlain_does true (writeEffect_aerrClr _ _ _)] at hw
  exact ends_of_exec (by rw [exec_aerrClr, hw])

/-- A bit that is cleared reads 0. -/
theorem bit_setBit_false (s : State) (a i : Nat) : (s.setBit a i false).bit a i = false := by
  have hb := bits_putBits_self (s.rd a) i i 0 (by omega)
  simp only [State.bit, State.setBit, State.setFld, bit01, rd_wr_self, Bool.false_eq_true, if_false]
  rw [Nat.testBit_mod_two_pow, Nat.testBit_eq_decide_div_mod_eq]
  simp only [bits, Nat.add_sub_cancel_left, Nat.pow_one, Nat.zero_mod] at hb
  simp [hb]

theorem bit_clearedErr (s : State) (v : Nat) :
    (clearedErr s v).bit A.GLB_AERR_INFO 31 = (s.bit A.GLB_AERR_INFO 31 && !v.testBit 0) := by
  unfold clearedErr
  split
  · rename_i h
    rw [bit_setBit_false, h, Bool.not_true, Bool.and_false]
  · rename_i h
    rw [Bool.not_eq_true] at h
    rw [h, Bool.not_false, Bool.and_true]

theorem regsKept_clearedErr (s : State) (v : Nat) : RegsKept s (clearedErr s v) (fun b => decide (b = A.GLB_AERR_INFO)) := by
  unfold clearedErr
  split
  · exact regsKept_setBit s _ _ (by decide)
  · exact RegsKept.refl s _

end Sys2Proof.Machine

namespace Sys2Proof.Proofs
open Sys2Proof.Machine

/-- Settles O11: the write back, the two apertures, and the clear. -/
theorem busCommands : Obligations.BusCommands := by
  refine ⟨?sqc, ?lane, ?port, ?clear⟩
  case sqc =>
    intro s r a v row h ha hr hacc
    have hend := ends_sqcWriteBack (v := v) h ha hr hacc
    exact ⟨fun hb => by rwa [hb, if_neg (by decide)] at hend, fun hb => by rwa [hb, if_pos rfl] at hend⟩
  case lane =>
    intro s r a v hr hw hg hl ha
    have hend := ends_apertureWrite (v := v) hr hw hg (by simp [mapped, hl]) ha
    rwa [wordWrite_lane hl] at hend
  case port =>
    intro s r a v hr hw hg hp ha
    have hend := ends_apertureWrite (v := v) hr hw hg (by simp [mapped, hp]) ha
    rwa [wordWrite_port hp] at hend
  case clear =>
    intro s r v h
    refine (ends_aerrClr h).endsWith_of ⟨?_, ?_⟩ fun _ _ _ ht => ht
    · rw [bit_clearedErr, bit_heard s r 1 31 (by decide)]
    · exact ((regsKept_heard s r 1).mono fun b hb => (Bool.or_eq_false_iff.1 hb).2).trans
        ((regsKept_clearedErr _ _).mono fun b hb => (Bool.or_eq_false_iff.1 hb).1)

end Sys2Proof.Proofs
end

section
/-! Commands while their die stands still (R14, R37). A command of the data die needs the data die, and one of the
timing die needs VIN_KA; where the die stands still, what the command needs is not there, and nothing changes. -/

namespace Sys2Proof.Machine

variable {s : State} {f : State → State}

/-! While the data die does not run, none of its circuits does. -/

theorem onIsland_dieOff {i : Nat} (h : s.power.die = false) : onIsland s i f = .next s :=
  onIsland_off (by simp [State.islandRuns, h])

theorem onCentral_dieOff (h : s.power.die = false) : onCentral s f = .next s := onIsland_dieOff h

theorem onEngine_dieOff (h : s.power.die = false) : onEngine s f = .next s := onCentral_dieOff h

theorem onFirmware_dieOff (h : s.power.die = false) : onFirmware s f = .next s := onIsland_dieOff h

theorem onZones_dieOff (h : s.power.die = false) : onZones s f = .next s := onIsland_dieOff h

theorem onPort_dieOff {p : Nat} (h : s.power.die = false) : onPort s p f = .next s :=
  onPort_off (by simp [State.portRuns, h])

theorem onEgress_dieOff {p : Nat} (h : s.power.die = false) : onEgress s p f = .next s :=
  onEgress_off (by simp [State.egressRuns, h])

theorem onAwake_dieOff (h : s.power.die = false) : onAwake s f = .next s := onAwake_off (by simp [State.awake, h])

theorem onLane_dieOff {l : Nat} (h : s.power.die = false) : onLane s l f = .next s := onAwake_dieOff h

theorem atT_dieOff {k kind : Nat} {arriving : List Nat} (h : s.power.die = false) :
    atT s k kind arriving = .next s := by
  unfold atT
  exact onDie_off h

/-! Accesses that nothing answers. -/

theorem done_busWrite_off {r : Req} {a bytes : Nat} {data : List Word} (h : s.power.die = false) :
    done s (busWrite s r a bytes data).1 = .next s := by
  have hb : (busWrite s r a bytes data).1 = s := by simp [busWrite, reaches, h]
  rw [hb, done_self]

theorem done_write32_off {r : Req} {a v : Nat} (h : s.power.die = false) : done s (write32 s r a v) = .next s := by
  rw [write32_off h, done_self]

theorem done_guardedWrite_off {r : Req} {a v : Nat} (h : s.power.die = false) :
    done s (guardedWrite s r a v) = .next s := by
  rw [guardedWrite_off h, done_self]

theorem requestWords_off (h : s.power.die = false) (w : Nat) (l : List Nat) : requestWords s w l = s := by
  induction l generalizing w with
  | nil => rfl
  | cons v l ih => rw [requestWords, write32_off h, ih]

theorem done_request_off {cmd : Nat} {tag : Byte} {args : List Word} (h : s.power.die = false) :
    done s (request s cmd tag args) = .next s := by
  have hr : request s cmd tag args = s := by rw [request, requestWords_off h, write32_off h]
  rw [hr, done_self]

theorem execMsixMaskWrite_off {vec : Option (Fin 32)} {mask : Bool} (h : s.power.die = false) :
    execMsixMaskWrite vec mask s = .next s := by
  cases vec with
  | none => unfold execMsixMaskWrite; exact onDie_off h
  | some n => exact done_write32_off h

/-! Loops and banks lie on either die: LSYN, loop 11, and banks 8 and 9 on the timing die. -/

theorem loopKey_eq_lsyn {i : Loop} (h : loopKey i = 11) : i = .core 11 := by
  cases i with
  | core k => exact congrArg Loop.core (Fin.ext h)
  | port p => simp only [loopKey] at h; omega

theorem onLoop_dieOff {i : Loop} (h : s.power.die = false) (hi : i ≠ .core 11) : onLoop s i f = .next s := by
  rw [onLoop, if_neg fun e => hi (loopKey_eq_lsyn e), onDie_off h]

theorem onBank_dieOff {b : Fin 12} (h : s.power.die = false) (h8 : b ≠ 8) (h9 : b ≠ 9) :
    onBank s b.val f = .next s := by
  rw [onBank, if_neg fun e => e.elim (fun e => h8 (Fin.ext e)) fun e => h9 (Fin.ext e), onDie_off h]

/-! A device without VIN_KA: the timing die stands still too. -/

theorem onCores_unsupplied (h : s.power.ka = false) : onCores s f = .next s := onKeep_off h

theorem onTclk_unsupplied (h : s.power.ka = false) : onTclk s f = .next s := onTclk_off (by simp [tclkRuns, h])

theorem onLoop_unsupplied {i : Loop} (hd : s.power.die = false) (hk : s.power.ka = false) : onLoop s i f = .next s := by
  unfold onLoop
  split
  · exact onKeep_off hk
  · exact onDie_off hd

theorem onBank_unsupplied {b : Nat} (hd : s.power.die = false) (hk : s.power.ka = false) : onBank s b f = .next s := by
  unfold onBank
  split
  · exact onKeep_off hk
  · exact onDie_off hd

/-- The data die does not start without VIN_KA (R34). -/
theorem startDie_unsupplied (h : s.power.ka = false) (cool : Bool) : startDie s cool = s := by
  cases cool <;> simp [startDie, canStart, h]

/-! The commands, by what each needs. The dispatch is unfolded before the split, so that each case reads its own arm. -/

/-- While the data die does not run, its commands change nothing (R14, R37). The cases that stay for the last arm are the
guarded writes (R362), one of which bears a name that Lean keeps for itself. -/
theorem exec_dieOff (c : Instr) (hd : s.power.die = false) (hc : timingDieCommand c = false) : exec c s = .next s := by
  unfold exec
  cases c with
  | registerWrite => exact done_busWrite_off hd
  | ftimeCommit | guardFirstWrite | guardComplementWrite | sqcWriteBack | apertureWrite | aerrClr | retrain
  | laneCtrlWrite | laneEqTableWrite | laneEqValidWrite | laneTestWrite | portCfgWrite | portEnableWrite | restart
  | latch | tbSetStep | tbSrcWrite | suspClr | refCfgWrite | refSelWrite | synCfgWrite | synRampGo | synRampStop
  | plsArm | plsStop | plsDisable | tdcArm | tdcAbort | statGo | calGo | calAbort | mouldEntryWrite
  | riserContextDisable | rstSeq | ladleGroupStage | ladleGroupCommit | assaySourceCommit | assayContextEnable
  | assayContextDisable | assayMigGo | assayMigCancel | tacExpectClear | trig | atArm | atDisarm | snpFreeSlot
  | swset | intSourceCfgWrite | claim | eoi | ack | abort | ringEnable | freeze | run | snap | pmcGroupClear
  | bankStateRequest | captRd | govCapWrite | tdcChannelEnable | riserContextEnable | lagGroupEnable | lagMemberWrite
  | pinTableWrite =>
    exact done_write32_off hd
  | getVersion | getHealth | flashRead | flashErase | flashProgram | cmisRead | cmisWrite =>
    exact done_request_off hd
  | guardTimeout | zoneAccessTimeout | zoneResetQuenched | zoneResetDone | thermalTrip | hostReset | fuseReadDone
  | firmwareReadyTimeout | hbmTrainingDone | dataDieRelease | fallbackResetDone | govPowerSample | govLimitEntry
  | govLimitExit | govShedTick | govBelowCapTimeout | govRestoreTick | sleepDrainDone | sleepEntryComplete
  | wakeTimeReached | wakeComplete | tbTimeRead | lolFlagClear | calSaveFlashOpDone | calSaveTimeout | frameClassify
  | tacReportDeadline | snapInEdge | sourceRaise | intCoalesceTimeout | pcieL1ExitDone | pcieD0Return
  | pmcCounterWrap | marchDone | govClockRampDone | pcieL1Entry | pcieD3hotEntry =>
    exact onDie_off hd
  | heatCommit | snapshot | counterClear | portEnable | pulse | reset | barrier | tacCancel =>
    exact atT_dieOff hd
  | mouldScrub | mouldEntryRewrite | recircReentry =>
    exact onIsland_dieOff hd
  | heatLoadClearDone | heatSealDone | heatCommitExamine | heatCommitExecute | heatCommitWaitTimeout | heatDrainDone
  | heatDrainTimeout | frameAdmit | shaperRefill | deepCellWrite | deepPrefetchRead | deepCellRead
  | riserFrameArrival | riserTimeout | migrationHoldEnd | migrationHoldTimeout | memberOut | ladleReplicate
  | lldReserve | lldLateExpiry | snpAtReached | snpCopyDone | telemetrySample | puntBucketRefill =>
    exact onCentral_dieOff hd
  | assayIntakeFrame | assayIntakeGrant | assayMembership | assayDecide | assayMigCopyDone | assayMigHandover
  | assayMigTReached =>
    exact onEngine_dieOff hd
  | zoneReimage | imageHeaderRead | sectionLoad | regscriptWrite | regscriptGuarded | regscriptWait
  | regscriptWaitDone | tableChunk | firmwareStart | firmwareReady | moduleDatapathActivated | bmcaSelect
  | mbxResponse =>
    exact onFirmware_dieOff hd
  | zoneCheckError => exact onZones_dieOff hd
  | portLinkUp | portLinkLoss | quenchDone | anComplete | anRestartTimer | stepupPageRx | stepupNoPartnerTimeout
  | stepupSlowLinkOk | stepupSlowTimeout | stepupQualDone | stepupFastLinkOk | stepupFastTimeout | stepupHoldRetry
  | trunkMarkerTx | trunkMarkerRx | trunkBlockTx | trunkBlockRx | trunkHelloTx | trunkHelloRx | trunkAlignTimeout
  | trunkHelloTimeout | trunkConflictRetry | pfcFrameRx | pfcPauseExpiry | macControlRx | ptpSyncSample | ptpSyncTx
  | ptpDelayReqTx | ptpDelayReqRx | ptpDelayRespRx | ptpMessageDiscard | ptpGeneralRx | portPhaseMeasure
  | pfcXoffRepeat | tacAnnounceRx | tacReportRx | stepupQualCodewordError | stepupQualLinkFault =>
    exact onPort_dieOff hd
  | egressFrameSelect | frameDepart | lldWindowStart =>
    exact onEgress_dieOff hd
  | sidebandScan => exact onAwake_dieOff hd
  | lanePowerupDone | laneSignalDetect | laneSignalLoss | laneCdrLock | cdrAcqTimeout | adaptConverged | adaptTimeout
  | laneCheckDone | laneRecheckTimer | laneCdrLoss | blockLockAcquired | blockLockLoss | laneErrorLimit
  | laneRetryTimer | resumeLock | resumeTimeout | laneBitSlip =>
    exact onLane_dieOff hd
  | msixMaskWrite => exact execMsixMaskWrite_off hd
  | islandLoopLockLoss i | islandLoopRelock i | islandLoopRelockTimeout i =>
    exact onLoop_dieOff hd (by rintro rfl; cases hc)
  | bankStateChangeDone b | bankEccError b =>
    exact onBank_dieOff hd (by rintro rfl; cases hc) (by rintro rfl; cases hc)
  | vinKaRise | vinMainRise | vinMainLoss | resetNAssert | resetNRelease | tapInstruction | tapReset | tbAdvance
  | vinKaLoss | dataDieStart | tb0StepApply | ppsEdgeSample | freqEstimate | tbHoldTimeout | xoLoss | xoRecover
  | refInactive | refFreqMeasure | refQualDone | refSwitchAcquired | refWtrExpiry | coreInitDone | trackingMeasure
  | coreSyncTracked | swoGapEnd | selftestSlot | coreAutoRepair | swoMasterUnlock | swoCheckFail
  | swoHeartbeatMissing | synOutputEnableApply | synLockLost | synRelocked | synRelockTimeout | synRelockRetry
  | synRampAt | synRampSegmentEnd | synAlignEdge | synAlignSlewDone | plsRisingEdge | plsFallingEdge | plsExtRequest
  | plsAlignEdge | plsTrimInstall | tdcGateEdge | tdcInputEdge | tdcWindowExpiry | tdcMeasStore | tdcRearmTimer
  | calMeasurementDone | calPreconditionBroken | calBusyTimeout | synLockAcquired =>
    cases hc
  | _ => exact done_guardedWrite_off hd

/-- A device without any supply answers only the commands of the supplies, the pins and time (R14). -/
theorem exec_unsupplied (c : Instr) (hd : s.power.die = false) (hk : s.power.ka = false)
    (hc : outsideCommand c = false) : exec c s = .next s := by
  by_cases ht : timingDieCommand c = false
  · exact exec_dieOff c hd ht
  rw [Bool.not_eq_false] at ht
  unfold exec
  cases c with
  | vinKaLoss | tb0StepApply | ppsEdgeSample | freqEstimate | tbHoldTimeout | xoLoss | xoRecover | refInactive
  | refFreqMeasure | refQualDone | refSwitchAcquired | refWtrExpiry | coreInitDone | trackingMeasure
  | coreSyncTracked | swoGapEnd | selftestSlot | coreAutoRepair =>
    exact onKeep_off hk
  | swoMasterUnlock | swoCheckFail | swoHeartbeatMissing =>
    exact onCores_unsupplied hk
  | synOutputEnableApply | synLockLost | synRelocked | synRelockTimeout | synRelockRetry | synRampAt
  | synRampSegmentEnd | synAlignEdge | synAlignSlewDone | plsRisingEdge | plsFallingEdge | plsExtRequest
  | plsAlignEdge | plsTrimInstall | tdcGateEdge | tdcInputEdge | tdcWindowExpiry | tdcMeasStore | tdcRearmTimer
  | calMeasurementDone | calPreconditionBroken | calBusyTimeout | synLockAcquired =>
    exact onTclk_unsupplied hk
  | dataDieStart cool => exact (congrArg (done s) (startDie_unsupplied hk cool)).trans (done_self s)
  | islandLoopLockLoss | islandLoopRelock | islandLoopRelockTimeout => exact onLoop_unsupplied hd hk
  | bankStateChangeDone | bankEccError => exact onBank_unsupplied hd hk
  | vinKaRise | vinMainRise | vinMainLoss | resetNAssert | resetNRelease | tapInstruction | tapReset | tbAdvance =>
    cases hc
  | _ => cases ht

end Sys2Proof.Machine

namespace Sys2Proof.Proofs
open Sys2Proof.Machine

/-- Settles O7: every command of a die needs something that the die does not give while it stands still. -/
theorem stoppedDiesAreInert : Obligations.StoppedDiesAreInert :=
  ⟨fun c _ hd hk hc => exec_unsupplied c hd hk hc, fun c _ hd hc => exec_dieOff c hd hc⟩

end Sys2Proof.Proofs
end

section
/-! Zone faults and zone resets: their commands, and accesses to a zone in reset (R19 to R25, R425). -/

namespace Sys2Proof.Machine

/-! An access that times out (R19). -/

/-- The state in which an access of the requester runs into its timeout: the host's accesses are counted, a write and a
read each under its own event (R390). -/
def countedAccess (s : State) (r : Req) (data : Option Word) : State :=
  if r = .host then s.pmcEvent 22 (if data.isSome then 0x302 else 0x301) 1 else s

theorem exec_zoneAccessTimeout (s : State) (r : Req) (a : BitVec 32) (z : Fin 8) (data : Option Word) :
    exec (.zoneAccessTimeout r a z data) s =
      onDie s fun s => accessTimeout (countedAccess s r data) r a.toNat z.val data := rfl

theorem ends_zoneAccessTimeout {s : State} (r : Req) (a : BitVec 32) (z : Fin 8) (data : Option Word)
    (h : s.power.die = true) :
    Ends (.zoneAccessTimeout r a z data) s (accessTimeout (countedAccess s r data) r a.toNat z.val data) :=
  ends_of_exec (by rw [exec_zoneAccessTimeout, onDie_on h])

theorem startsTimeout_of {s : State} {r : Req} {a z : Nat} (hg : gateOpen s r a = true) (hr : zoneInReset s z = false)
    (hf : zoneFault s z = false) : startsTimeout s r a z = true := by simp [startsTimeout, hg, hr, hf]

theorem accessTimeout_own {s : State} {r : Req} {a z : Nat} (data : Option Word) (hs : startsTimeout s r a z = true)
    (hz : zoneOf a = some z) : accessTimeout s r a z data = timedOut s r a z := by simp [accessTimeout, hs, hz]

theorem accessTimeout_aperture {s t : State} {r : Req} {a z : Nat} {v : Word} (hs : startsTimeout s r a z = true)
    (hz : zoneOf a = none) (ht : writeOthers s r a z v.toNat = some t) :
    accessTimeout s r a z (some v) = recordBreaks s r (timedOut t r a z) := by simp [accessTimeout, hs, hz, ht]

/-! Zones that enter fault, and that are reset. -/

theorem zoneFail_sound {s : State} {z : Nat} (h : zoneFault s z = false) :
    zoneFail s z =
      ((heldFail (s.setBit A.GLB_ZONE_STAT (16 + z) true) z).record A.GLB_ZONE_EVT (2 ^ z)).raise (40 + z) := by
  simp [zoneFail, h]

theorem guardedEffect_zoneCtrl (s : State) (r : Req) (v : Nat) :
    guardedEffect s r A.GLB_ZONE_CTRL v = settle (zoneResets s (v % 256) (v / 256 % 256)) := if_pos rfl

theorem exec_zoneReset (s : State) (r : Req) (zrst zreimg : BitVec 8) :
    exec (.zoneReset r zrst zreimg) s =
      done s (guardedWrite s r A.GLB_ZONE_CTRL (zreimg.toNat * 256 + zrst.toNat)) := rfl

theorem ends_zoneReset {s : State} {r : Req} (zrst zreimg : BitVec 8) (h : s.listens r A.GLB_ZONE_CTRL = true) :
    Ends (.zoneReset r zrst zreimg) s (settle (zoneResets (heard s r 2) zrst.toNat zreimg.toNat)) := by
  have hlo : (zreimg.toNat * 256 + zrst.toNat) % 256 = zrst.toNat := by omega
  have hhi : (zreimg.toNat * 256 + zrst.toNat) / 256 % 256 = zreimg.toNat := by omega
  exact ends_of_exec (by rw [exec_zoneReset, guardedWrite_served _ h, guardedEffect_zoneCtrl, hlo, hhi])

theorem zoneBegin_inReset {s : State} {z : Nat} (reimg : Bool) (h : zoneInReset s z = true) : zoneBegin s z reimg = s :=
  if_pos h

/-- A write whose bits all name zones in reset begins none. -/
theorem zoneResets_inReset {s : State} {zrst : Nat} (zreimg : Nat)
    (h : ∀ z, z < 8 → zrst.testBit z = true → zoneInReset s z = true) : zoneResets s zrst zreimg = s := by
  have hfold : ∀ l : List Nat, (∀ z ∈ l, zoneInReset s z = true) →
      l.foldl (fun s z => zoneBegin s z (zreimg.testBit z)) s = s := by
    intro l hl
    induction l with
    | nil => rfl
    | cons z l ih =>
      obtain ⟨hz, hl⟩ := List.forall_mem_cons.1 hl
      rw [List.foldl_cons, zoneBegin_inReset _ hz, ih hl]
  refine hfold _ fun z hz => ?_
  obtain ⟨hlt, hbit⟩ := List.mem_filter.1 hz
  exact h z (List.mem_range.1 hlt) hbit

theorem zoneInReset_heard (s : State) (r : Req) (n z : Nat) : zoneInReset (heard s r n) z = zoneInReset s z :=
  bit_heard s r n _ (by decide)

/-! What the other commands of a zone end in. -/

theorem exec_zoneCheckError (s : State) (z : Fin 8) :
    exec (.zoneCheckError z) s = onIsland s 6 fun s => zoneFail s z.val := rfl

theorem exec_zoneResetQuenched (s : State) (z : Fin 8) :
    exec (.zoneResetQuenched z) s = onDie s fun s => settle (zoneClear s z.val) := rfl

theorem exec_zoneResetDone (s : State) (z : Fin 8) :
    exec (.zoneResetDone z) s = onDie s fun s => settle (sleepAfterZone (zoneDone s z.val)) := rfl

theorem exec_zoneReimage (s : State) (z : Fin 8) (recs : List ReplayRec) :
    exec (.zoneReimage z recs) s = onFirmware s fun s => zoneReplay s z.val recs := rfl

theorem ends_zoneCheckError {s : State} (z : Fin 8) (h : s.islandRuns 6 = true) :
    Ends (.zoneCheckError z) s (zoneFail s z.val) :=
  ends_of_exec (by rw [exec_zoneCheckError, onIsland_on h])

theorem ends_zoneResetQuenched {s : State} (z : Fin 8) (h : s.power.die = true) :
    Ends (.zoneResetQuenched z) s (settle (zoneClear s z.val)) :=
  ends_of_exec (by rw [exec_zoneResetQuenched, onDie_on h])

theorem ends_zoneResetDone {s : State} (z : Fin 8) (h : s.power.die = true) :
    Ends (.zoneResetDone z) s (settle (sleepAfterZone (zoneDone s z.val))) :=
  ends_of_exec (by rw [exec_zoneResetDone, onDie_on h])

theorem ends_zoneReimage {s : State} (z : Fin 8) (recs : List ReplayRec) (h : s.islandRuns 5 = true) :
    Ends (.zoneReimage z recs) s (zoneReplay s z.val recs) :=
  ends_of_exec (by rw [exec_zoneReimage, onFirmware_on h])

/-! The replay (R425). -/

theorem zoneReplay_due {s : State} {z : Nat} (recs : List ReplayRec) (hz : z ∈ s.zonesReimg)
    (hb : s.boot.started = true) (hi : s.fld A.GLB_BOOT_STAT 13 12 ≠ 0) (hr : islandRuns s 6 = true) :
    zoneReplay s z recs =
      settle (replay z recs [] { s with zonesReimg := s.zonesReimg.filter (· ≠ z) }) := if_pos ⟨hz, hb, hi, hr⟩

/-! A write to a zone in reset (R21). -/

/-- No aperture lies on the zone path. -/
theorem zoneOf_own {a z : Nat} (h : zoneOf a = some z) : isPortAperture a = false ∧ isLaneAperture a = false := by
  have hpath : (0x180000 ≤ a ∧ a < 0x1A0000) ∨ (0x800000 ≤ a ∧ a < 0x900000) ∨ (0x1000000 ≤ a ∧ a < 0x1200000) := by
    by_contra hno
    rw [not_or, not_or] at hno
    rw [zoneOf, if_neg hno.1, if_neg hno.2.1, if_neg hno.2.2] at h
    cases h
  simp only [isPortAperture, isLaneAperture, Bool.or_eq_false_iff, decide_eq_false_iff_not]
  omega

theorem wordWrite_inReset {s : State} {r : Req} {a z : Nat} (v : Nat) (hz : zoneOf a = some z)
    (h : zoneInReset s z = true) : wordWrite s r a v = (accessErr s 7 r a, true) := by
  obtain ⟨hp, hl⟩ := zoneOf_own hz
  simp [wordWrite, hp, hl, nodeWrite, zoneRefuses, hz, h]

theorem ends_write_inReset {s : State} {r : Req} {a : BitVec 32} {z : Nat} (v : Word) (hr : reaches s r = true)
    (hw : waitsAtCore s r = false) (hg : gateOpen s r a.toNat = true) (ha : a.toNat % 4 = 0)
    (hm : mapped a.toNat = true) (hz : zoneOf a.toNat = some z) (h : zoneInReset s z = true) :
    Ends (.registerWrite r a 4 [v]) s (accessErr (heard s r 1) 7 r a.toNat) := by
  have hword := wordWrite_inReset (r := r) v.toNat hz ((zoneInReset_heard s r 1 z).trans h)
  refine ends_of_exec ?_
  rw [exec_registerWrite, ← write32_word, write32_wordWrite v hr hw hm hg ha, hword, if_pos rfl,
    recordBreaks_kept r (by rw [accessErr_guardMgmt, heard_guardMgmt])]

end Sys2Proof.Machine

namespace Sys2Proof.Proofs
open Sys2Proof.Machine

/-- Settles O13: each command by the guard that lets it act, and accesses to a zone in reset by the refusal of its
node. -/
theorem zoneCommands : Obligations.ZoneCommands := by
  refine ⟨?timeout, ?check, fun s r zrst zreimg h => ends_zoneReset zrst zreimg h,
    fun s z h => ends_zoneResetQuenched z h, fun s z h => ends_zoneResetDone z h, ?reimage, ?refused, ?idle⟩
  case timeout =>
    intro s r a z data hd u hg hr hf
    have hs : startsTimeout (countedAccess s r data) r a.toNat z.val = true := startsTimeout_of hg hr hf
    have hend := ends_zoneAccessTimeout r a z data hd
    refine ⟨fun hz => ?_, ?_⟩
    · rwa [accessTimeout_own data hs hz] at hend
    · rintro v t hz rfl ht
      rwa [accessTimeout_aperture hs hz ht] at hend
  case check =>
    intro s z h hf
    rw [← zoneFail_sound hf]
    exact ends_zoneCheckError z h
  case reimage =>
    intro s z recs h hr hz hb hi
    rw [← zoneReplay_due recs hz hb hi hr]
    exact ends_zoneReimage z recs h
  case refused =>
    intro s r a v z hr hw hg ha hm hz h
    exact ends_write_inReset v hr hw hg ha hm hz h
  case idle =>
    intro s r zrst zreimg h hz
    have hend := ends_zoneReset zrst zreimg h
    rwa [zoneResets_inReset _ fun z hlt hbit => (zoneInReset_heard s r 2 z).trans (hz z hlt hbit)] at hend

end Sys2Proof.Proofs
end

section
/-! The rules that the commands of power, start-up and sleep share: commands under a guard, what recorded events keep, and
the change of GLB.BOOT_STAT.STATE. -/

namespace Sys2Proof.Machine

/-! Commands under a guard: where their part runs, they end in what they do. -/

theorem ends_onDie {c : Instr} {s t : State} {f : State → State} (hc : exec c s = onDie s f) (h : s.power.die = true)
    (ht : f s = t) : Ends c s t := ends_of_exec (by rw [hc, onDie_on h, ht])

theorem ends_onFirmware {c : Instr} {s t : State} {f : State → State} (hc : exec c s = onFirmware s f)
    (h : s.islandRuns 5 = true) (ht : f s = t) : Ends c s t := ends_of_exec (by rw [hc, onFirmware_on h, ht])

theorem ends_onDie_settle {c : Instr} {s t : State} {f : State → State} (hc : exec c s = onDie s fun s => settle (f s))
    (h : s.power.die = true) (ht : f s = t) : Ends c s (settle t) := ends_onDie hc h (congrArg settle ht)

theorem ends_onFirmware_settle {c : Instr} {s t : State} {f : State → State}
    (hc : exec c s = onFirmware s fun s => settle (f s)) (h : s.islandRuns 5 = true) (ht : f s = t) : Ends c s (settle t) :=
  ends_onFirmware hc h (congrArg settle ht)

/-- A guarded write ends in the effect of its register. -/
theorem ends_guardedWrite {c : Instr} {s t : State} {r : Req} {a v : Nat} (hc : exec c s = done s (guardedWrite s r a v))
    (h : s.listens r a = true) (ht : guardedEffect (heard s r 2) r a v = t) : Ends c s t :=
  ends_of_exec (by rw [hc, guardedWrite_served v h, ht])

/-- A register that listens answers on a data die that runs. -/
theorem die_of_listens {s : State} {r : Req} {a : Nat} (h : s.listens r a = true) : s.power.die = true := by
  obtain ⟨hr, -⟩ := (listens_iff s r a).1 h
  exact (Bool.and_eq_true_iff.1 hr).1

/-! A part of the state that each step of a fold keeps. -/

theorem foldl_keeps {α β : Type} {f : State → α} {g : State → β → State} (h : ∀ s b, f (g s b) = f s) (l : List β) (s : State) :
    f (l.foldl g s) = f s := by
  induction l generalizing s with
  | nil => rfl
  | cons b l ih => rw [List.foldl_cons, ih, h]

/-- A part of the state that no register, stamp or raise changes stays in an event. -/
theorem event_keeps {α : Type} {f : State → α} (hf : ∀ (s : State) m l, f { s with regs := m, stamps := l } = f s)
    (hq : ∀ s u, f (asBefore s u) = f u) (s : State) {src : Nat} (evt en mask forced : Nat) (h : src < 1024) :
    f (s.event evt en src mask forced) = f s :=
  ((quiet_event s evt en src mask forced h).keeps f (hq _)).trans (record_keeps hf s evt mask)

/-! GLB.BOOT_STAT.STATE (R46, R47). -/

theorem bootState_heard (s : State) (r : Req) (n : Nat) : bootState (heard s r n) = bootState s :=
  fld_heard s r n 3 0 (by decide)

theorem inRun_heard (s : State) (r : Req) (n : Nat) : inRun (heard s r n) = inRun s := by
  rw [inRun, inRun, bootState_heard]

theorem fld_setFld_self (s : State) (a : Nat) {hi lo v : Nat} (h : lo ≤ hi) (hhi : hi < 32) (hv : v < 2 ^ (hi + 1 - lo)) :
    (s.setFld a hi lo v).fld a hi lo = v := by
  have hb := bits_putBits_self (s.rd a) hi lo v (by omega)
  have hm : bits (putBits (s.rd a) hi lo v % 2 ^ 32) hi lo = bits (putBits (s.rd a) hi lo v) hi lo := by
    have e : 2 ^ 32 = 2 ^ lo * 2 ^ (32 - lo) := by rw [← Nat.pow_add]; congr 1; omega
    have hd : 2 ^ (hi + 1 - lo) ∣ 2 ^ (32 - lo) := Nat.pow_dvd_pow 2 (by omega)
    unfold bits
    rw [e, Nat.mod_mul_right_div_self, Nat.mod_mod_of_dvd _ hd]
  rw [State.fld, State.setFld, rd_wr_self, hm, hb, Nat.mod_eq_of_lt hv]

/-- A change of STATE is seen. -/
theorem bootState_setBoot (s : State) {st : Nat} (h : st < 16) : bootState (setBoot s st) = st := by
  have hq : Quiet (s.setFld A.GLB_BOOT_STAT 3 0 st) (setBoot s st) := quiet_raise _ 0 (by decide)
  rw [bootState, hq.fld 3 0 (by decide), fld_setFld_self s _ (by decide) (by decide) h]

@[simp] theorem setBoot_boot (s : State) (st : Nat) : (setBoot s st).boot = s.boot :=
  (quiet_raise (s.setFld A.GLB_BOOT_STAT 3 0 st) 0 (by decide)).keeps State.boot fun _ => rfl

/-! GO (R53). -/

theorem guardedEffect_bootCtrl (s : State) (r : Req) (v : Nat) :
    guardedEffect s r A.GLB_BOOT_CTRL v = guardedBoot s r A.GLB_BOOT_CTRL v := rfl

/-- The word of a GO with SEL: its GO bit, its SEL, and what the register keeps of it. -/
theorem goWord (sel : BitVec 2) : (2 * sel.toNat + 1).testBit 0 = true ∧ bits (2 * sel.toNat + 1) 2 1 = sel.toNat ∧
    (2 * sel.toNat + 1) &&& 6 = 2 * sel.toNat := by
  revert sel
  decide

theorem guardedBoot_go {s : State} (r : Req) (a : Nat) (sel : BitVec 2) (h : bootState s = 6 ∨ bootState s = 7) :
    guardedBoot s r a (2 * sel.toNat + 1) = bootGo (takeWord s a (2 * sel.toNat)) sel.toNat := by
  obtain ⟨hgo, hsel, hkept⟩ := goWord sel
  rw [guardedBoot, if_pos hgo, if_pos h, hsel, hkept]

theorem guardedBoot_refused {s : State} (r : Req) (a : Nat) (sel : BitVec 2) (h : ¬(bootState s = 6 ∨ bootState s = 7)) :
    guardedBoot s r a (2 * sel.toNat + 1) = accessErr s 5 r a := by
  rw [guardedBoot, if_pos (goWord sel).1, if_neg h, rejected]

theorem ends_bootGo {s t : State} {r : Req} {sel : BitVec 2} (h : s.listens r A.GLB_BOOT_CTRL = true)
    (ht : guardedBoot (heard s r 2) r A.GLB_BOOT_CTRL (2 * sel.toNat + 1) = t) : Ends (.bootGo r sel) s t :=
  ends_guardedWrite rfl h ((guardedEffect_bootCtrl _ _ _).trans ht)

/-- The image order of a GO. -/
def goOrder (sel : Nat) : List Nat :=
  if sel = 0 then [0, 1] else if sel = 1 then [1, 0] else if sel = 2 then [0] else [1]

theorem goOrder_sel (sel : BitVec 2) :
    goOrder sel.toNat = if sel = 0 then [0, 1] else if sel = 1 then [1, 0] else if sel = 2 then [0] else [1] := by
  revert sel
  decide

theorem bootGo_boot (s : State) (sel : Nat) :
    (bootGo s sel).boot = { clearImage s.boot with loaded := true, order := goOrder sel, awaiting := true } :=
  setBoot_boot _ 3

theorem bootState_bootGo (s : State) (sel : Nat) : bootState (bootGo s sel) = 3 := bootState_setBoot _ (by decide)

end Sys2Proof.Machine

namespace Sys2Proof.Proofs
open Sys2Proof.Machine

/-- Settles O57: the guarded pair reaches GLB.BOOT_CTRL, whose effect looks at STATE, which the count of the host's writes
does not change. -/
theorem guardedBootGo : Obligations.GuardedBootGo := by
  intro s r sel h
  refine ⟨fun hb => ?go, fun h6 h7 => ?refused⟩
  case go =>
    refine (ends_bootGo h (guardedBoot_go r _ sel (by rwa [bootState_heard]))).endsWith_of ⟨bootState_bootGo _ _, ?_, ?_⟩
      fun _ _ _ ht => ht
    · rw [bootGo_boot, ← goOrder_sel]
    · rw [bootGo_boot]
  case refused =>
    exact ends_bootGo h (guardedBoot_refused r _ sel (by rw [bootState_heard, not_or]; exact ⟨h6, h7⟩))

end Sys2Proof.Proofs
end

section
/-! Accesses in SLEEP to the blocks that are off (R64). -/

namespace Sys2Proof.Machine

/-- In SLEEP only GLB, PWR, INT, HOST and the timing die answer. -/
theorem gateOpen_sleep {s : State} (r : Req) {a : Nat} (h : bootState s = 9) :
    gateOpen s r a = (alwaysOn a || onTimingDie a) := by
  simp [gateOpen, h]

theorem busRead_gateShut {s : State} {r : Req} {a : Nat} (bytes : Nat) (hr : reaches s r = true)
    (hw : waitsAtCore s r = false) (hg : gateOpen s r a = false) : busRead s r a bytes = some ([allOnes], false) := by
  simp [busRead, hr, hw, hg]

theorem busWrite_gateShut {s : State} {r : Req} {a : Nat} (bytes : Nat) (data : List Word) (hr : reaches s r = true)
    (hw : waitsAtCore s r = false) (hg : gateOpen s r a = false) :
    busWrite s r a bytes data = (s.emit (.errorResponse r a), false) := by
  simp [busWrite, busAccess, hr, hw, hg, recordBreaks_kept r (emit_guardMgmt s _)]

end Sys2Proof.Machine

namespace Sys2Proof.Proofs
open Sys2Proof.Machine

/-- Settles O58: the gate of a block that is off in SLEEP is shut, and it is looked at before the width. -/
theorem sleepingBlockAccess : Obligations.SleepingBlockAccess := by
  intro s r a bytes data hr hw hb _ hon htim
  have hg : gateOpen s r a.toNat = false := by
    rw [gateOpen_sleep r hb, alwaysOn, onTimingDie]
    simpa using And.intro (not_or.1 hon) htim
  refine ⟨busRead_gateShut bytes hr hw hg, ends_of_exec ?_⟩
  rw [exec_registerWrite, busWrite_gateShut bytes data hr hw hg]

end Sys2Proof.Proofs
end

section
/-! Supplies, resets and the start of the data die (R34 to R37, R44 to R46, R53, R419). -/

namespace Sys2Proof.Machine

/-! Registers that return to their reset values. -/

theorem map_get_filter_keys {α : Type} (d : α) (p : Nat → Bool) (m : List (Nat × α)) (a : Nat) :
    Map.get d (m.filter fun e => p e.1) a = if p a then Map.get d m a else d := by
  induction m with
  | nil => simp
  | cons e m ih =>
    obtain ⟨k, v⟩ := e
    by_cases ha : k = a
    · subst ha
      by_cases hk : p k = true
      · simp [hk, Map.get]
      · simpa [hk] using ih
    · by_cases hk : p k = true
      · simpa [hk, Map.get, ha] using ih
      · simpa [hk, Map.get, ha] using ih

theorem rd_resetRegs (s : State) (p : Nat → Bool) (a : Nat) :
    (s.resetRegs p).rd a = if p a then (resetOf a).toNat else s.rd a := by
  rw [State.rd, State.resetRegs, map_get_filter_keys (resetOf a) (fun b => !p b)]
  cases p a <;> rfl

/-- After a reset of the whole module every register but GLB.BOOT_STAT reads its reset value. -/
theorem rd_moduleReset {t : State} (ht : t.regs = State.reset.regs) {a : Nat} (h : a ≠ A.GLB_BOOT_STAT) :
    t.rd a = (resetOf a).toNat := by
  have hne : ¬0x10 = a := fun e => h e.symm
  simp [State.rd, ht, State.reset, Map.get, hne]

/-! What a reset of the data die keeps of the supplies and of true time. -/

/-- The supplies with the pins and the start of the data die, and true time. -/
def powerAndTime (s : State) : PowerHidden × Nat := (s.power, s.now)

theorem powerAndTime_setFld (s : State) (a hi lo v : Nat) : powerAndTime (s.setFld a hi lo v) = powerAndTime s := rfl

theorem powerAndTime_setBit (s : State) (a i : Nat) (b : Bool) : powerAndTime (s.setBit a i b) = powerAndTime s := rfl

theorem powerAndTime_stop (s : State) (t : Timer) : powerAndTime (s.stop t) = powerAndTime s := rfl

theorem powerAndTime_clearBank (s : State) (b : Nat) (zero : Bool) :
    powerAndTime (s.clearBank b zero) = powerAndTime s := rfl

theorem powerAndTime_cal (s : State) (c : CalHidden) : powerAndTime { s with cal := c } = powerAndTime s := rfl

theorem powerAndTime_resetRegs (s : State) (p : Nat → Bool) : powerAndTime (s.resetRegs p) = powerAndTime s := rfl

theorem powerAndTime_event (s : State) {src : Nat} (evt en mask forced : Nat) (h : src < 1024) :
    powerAndTime (s.event evt en src mask forced) = powerAndTime s :=
  event_keeps (f := powerAndTime) (fun _ _ _ => rfl) (fun _ _ => rfl) s evt en mask forced h

theorem powerAndTime_enterHoldover (s : State) {n : Nat} (h : n < 8) : powerAndTime (enterHoldover s n) = powerAndTime s := by
  unfold enterHoldover
  split
  · rw [tbEvent, powerAndTime_event _ _ _ _ _ (by omega), powerAndTime_stop, powerAndTime_setFld]
    rfl
  · rfl

theorem powerAndTime_tbDataDieStops (s : State) : powerAndTime (tbDataDieStops s) = powerAndTime s := by
  unfold tbDataDieStops
  split
  · exact powerAndTime_enterHoldover s (by decide)
  · rfl

theorem powerAndTime_saveFail (s : State) : powerAndTime (saveFail s) = powerAndTime s := by
  unfold saveFail
  split
  · rfl
  · simp only []
    rw [calEvent, powerAndTime_event _ _ _ _ _ (by decide), powerAndTime_stop, powerAndTime_setBit, powerAndTime_cal]

theorem powerAndTime_placeRetired (s : State) : powerAndTime (placeRetired s) = powerAndTime s := by
  have hlane : ∀ (s : State) (l : Nat), powerAndTime (setLaneFlag (setLaneState s l 10) l 18 true) = powerAndTime s :=
    fun s l => (powerAndTime_setBit _ _ _ _).trans (powerAndTime_setFld s _ _ _ _)
  have hregion : ∀ (s : State) (r : Nat), powerAndTime
      ((s.setBit (A.DBF_RETIRED (r / 32)) (r % 32) true).setFld A.DBF_STAT 9 0 (s.fld A.DBF_STAT 9 0 + 1)) = powerAndTime s :=
    fun s r => (powerAndTime_setFld _ _ _ _ _).trans (powerAndTime_setBit s _ _ _)
  exact (foldl_keeps hregion _ _).trans (foldl_keeps hlane _ s)

/-- What a reset of the data die leaves of the supplies, the pins, the test port and the heat: what the start and the run
of the die set is as after a reset of the module. -/
def downPower (p : PowerHidden) (cause : Nat) : PowerHidden :=
  { ka := p.ka, main := p.main, mainAt := p.mainAt, downTill := p.downTill, resetN := p.resetN,
    tap := p.tap, tapHold := p.tapHold, cells := p.cells, cause := cause, hot := p.hot }

theorem powerAndTime_clearHidden (s : State) :
    powerAndTime (clearHidden s) = (downPower (powerAndTime s).1 (powerAndTime s).1.cause, (powerAndTime s).2) := rfl


theorem powerAndTime_dieReset (s : State) : powerAndTime (dieReset s) = (downPower s.power s.power.cause, s.now) := by
  have hsave : powerAndTime (if saveBusy s then saveFail s else s) = powerAndTime s := by
    split
    · exact powerAndTime_saveFail s
    · rfl
  have hstop := (powerAndTime_tbDataDieStops (if saveBusy s then saveFail s else s)).trans hsave
  unfold dieReset
  simp only []
  rw [powerAndTime_placeRetired, powerAndTime_setBit, foldl_keeps fun s b => powerAndTime_setFld s _ _ _ _,
    foldl_keeps fun s b => powerAndTime_clearBank s _ _, powerAndTime_clearHidden, powerAndTime_resetRegs, hstop]
  rfl

theorem warmDown_power (s : State) (c : Nat) : (warmDown s c).power = downPower s.power (nextCause s c) := by
  have h : (dieReset s).power = downPower s.power s.power.cause := congrArg Prod.fst (powerAndTime_dieReset s)
  simp only [warmDown, h]
  rfl

theorem warmDown_now (s : State) (c : Nat) : (warmDown s c).now = s.now :=
  congrArg Prod.snd (powerAndTime_dieReset s)

theorem nextCause_on {s : State} (c : Nat) (h : s.power.die = true) : nextCause s c = c := by simp [nextCause, h]

/-! The supplies. -/

theorem ends_vinKaRise {s : State} (h : s.power.ka = false) :
    Ends .vinKaRise s { coldReset s 0 with power := { (coldReset s 0).power with ka := true } } :=
  ends_of_exec (congrArg (done s) (if_neg (by simp [h])))

theorem ends_vinKaLoss {s : State} (h : s.power.ka = true) : Ends .vinKaLoss s (kaLoss s) := ends_of_exec (onKeep_on h)

theorem ends_vinMainLoss {s : State} (h : s.power.main = true) : Ends .vinMainLoss s (mainLoss s) :=
  ends_of_exec (congrArg (done s) (if_pos h))

theorem ends_vinMainRise {s : State} (h : s.power.main = false) :
    Ends .vinMainRise s { s with power := { s.power with main := true, mainAt := s.now } } :=
  ends_of_exec (congrArg (done s) (if_neg (by simp [h])))

theorem ends_thermalTrip {s : State} (h : s.power.die = true) : Ends .thermalTrip s (thermalTrip s) := ends_onDie rfl h rfl

theorem mainLoss_power (s : State) : (mainLoss s).power =
    { downPower s.power (nextCause s 2) with main := false, downTill := s.now + 10 * us } := by
  simp only [mainLoss, warmDown_power, warmDown_now]

theorem thermalTrip_power (s : State) : (thermalTrip s).power =
    { downPower s.power (nextCause s 2) with downTill := s.now + 10 * us, hot := true } := by
  simp only [thermalTrip, warmDown_power, warmDown_now]

/-! The start. -/

/-- A data die whose conditions hold starts in FUSE, with its cause. -/
theorem dieStart_starts {s : State} (hd : s.power.die = false) (hc : canStart s = true) : dieStart s =
    setBoot (State.setFld { s with power := { s.power with
      die := true, startAt := s.now, trimDue := decide (s.power.cause = 0 ∨ s.power.cause = 4) } }
        A.GLB_BOOT_STAT 31 28 s.power.cause) 1 := if_neg (by simp [hd, hc])

theorem canStart_hot {s : State} (h : s.power.hot = true) : canStart s = false := by simp [canStart, h]

/-- What DATA_DIE_START says of the junction. -/
def seenCool (s : State) (cool : Bool) : State := if cool then { s with power := { s.power with hot := false } } else s

theorem startDie_starts {s : State} {cool : Bool} (hd : s.power.die = false) (hc : canStart (seenCool s cool) = true) :
    startDie s cool = dieStart (seenCool s cool) := by
  have hgo : (!s.power.die && canStart (seenCool s cool)) = true := by rw [hd, hc]; rfl
  exact if_pos hgo

theorem startDie_hot {s : State} (h : s.power.hot = true) : startDie s false = s :=
  if_neg (by simp [canStart_hot h])

theorem ends_dataDieStart {s t : State} {cool : Bool} (ht : startDie s cool = t) : Ends (.dataDieStart cool) s t :=
  ends_of_exec (congrArg (done s) ht)

/-! The resets. -/

theorem ends_resetNAssert {s : State} (h : s.power.resetN = true) :
    Ends .resetNAssert s { warmDown s 1 with power := { (warmDown s 1).power with resetN := false } } :=
  ends_of_exec (congrArg (done s) (if_neg (by simp [h])))

theorem ends_hostReset {s : State} (h : s.power.die = true) : Ends .hostReset s (hostReset s) := ends_onDie rfl h rfl

/-- A reset by the host takes the registers of the HOST block back, and no others. -/
theorem rd_hostReset (s : State) (a : Nat) :
    (hostReset s).rd a = if 0x70000 ≤ a ∧ a < 0x80000 then (resetOf a).toNat else s.rd a := by
  refine (rd_resetRegs s (fun a => decide (0x70000 ≤ a ∧ a < 0x80000)) a).trans ?_
  simp only [decide_eq_true_eq]

theorem guardedEffect_rstCtrl (s : State) (r : Req) (v : Nat) :
    guardedEffect s r A.PWR_RST_CTRL v = guardedReset s v := rfl

theorem guardedReset_warm {s : State} (h : s.power.die = true) : guardedReset s 1 = dieStart (warmDown s 3) := by
  have hbits : Nat.testBit 1 1 = false ∧ Nat.testBit 1 0 = true := by decide
  rw [guardedReset, if_neg (by rw [hbits.1]; decide), if_pos hbits.2, warmReset, if_pos h]

theorem guardedReset_timing (s : State) : guardedReset s 2 = coldReset s 4 := if_pos (by decide)

theorem ends_warmReset {s : State} {r : Req} (h : s.listens r A.PWR_RST_CTRL = true) :
    Ends (.warmReset r) s (dieStart (warmDown (heard s r 2) 3)) :=
  ends_guardedWrite rfl h ((guardedEffect_rstCtrl _ _ _).trans
    (guardedReset_warm (by rw [heard_power]; exact die_of_listens h)))

theorem ends_timingReset {s : State} {r : Req} (h : s.listens r A.PWR_RST_CTRL = true) :
    Ends (.timingReset r) s (coldReset (heard s r 2) 4) :=
  ends_guardedWrite rfl h ((guardedEffect_rstCtrl _ _ _).trans (guardedReset_timing _))

end Sys2Proof.Machine

namespace Sys2Proof.Proofs
open Sys2Proof.Machine

/-- Settles O14: each command by the state that it ends in. -/
theorem supplyAndResetCommands : Obligations.SupplyAndResetCommands := by
  refine ⟨?kaRise, ?kaLoss, ?mainLoss, ?trip, ?mainRise, ?start, ?resetN, fun s _ => ends_of_exec rfl, ?host,
    fun s r h => ends_warmReset h, ?timing, ?go⟩
  case kaRise =>
    intro s h
    exact (ends_vinKaRise h).endsWith ⟨rfl, rfl, rfl, rfl, rfl, fun a ha => rd_moduleReset rfl ha⟩
  case kaLoss =>
    intro s h
    exact (ends_vinKaLoss h).endsWith ⟨rfl, rfl, rfl, rfl, rfl, fun a ha => rd_moduleReset rfl ha⟩
  case mainLoss =>
    intro s h
    refine (ends_vinMainLoss h).endsWith_of ?_ fun _ _ _ ht => ht
    rw [mainLoss_power]
    exact ⟨rfl, rfl, rfl, rfl, rfl⟩
  case trip =>
    intro s h
    refine (ends_thermalTrip h).endsWith_of ?_ fun _ _ _ ht => ht
    rw [thermalTrip_power]
    exact ⟨rfl, rfl, rfl, nextCause_on 2 h, rfl, rfl⟩
  case mainRise =>
    intro s h
    exact (ends_vinMainRise h).endsWith ⟨rfl, rfl, fun _ _ => rfl, fun _ _ => rfl⟩
  case start =>
    intro s cool hd k d u
    refine ⟨fun hc => ?_, ?_⟩
    · have hstart : startDie s cool = dieStart k := startDie_starts hd hc
      cases cool with
      | true => exact ends_dataDieStart (hstart.trans (dieStart_starts hd hc))
      | false => exact ends_dataDieStart (hstart.trans (dieStart_starts hd hc))
    · rintro hh rfl
      exact ends_dataDieStart (startDie_hot hh)
  case resetN =>
    intro s h
    refine (ends_resetNAssert h).endsWith_of ?_ fun _ _ _ ht => ht
    rw [warmDown_power]
    exact ⟨rfl, rfl, rfl, rfl⟩
  case host =>
    intro s h
    refine (ends_hostReset h).endsWith ⟨fun a h1 h2 => ?_, fun a ha => ?_, fun _ _ => rfl⟩
    · exact (rd_hostReset s a).trans (if_pos ⟨h1, h2⟩)
    · exact (rd_hostReset s a).trans (if_neg (of_decide_eq_false ha))
  case timing =>
    intro s r h
    refine (ends_timingReset h).endsWith ⟨rfl, rfl, ?_, ?_, rfl, rfl, fun a ha => rd_moduleReset rfl ha⟩
    · change (heard s r 2).power.ka = s.power.ka
      rw [heard_power]
    · change (heard s r 2).power.main = s.power.main
      rw [heard_power]
  case go =>
    intro s r sel h u hb
    exact ends_bootGo h (guardedBoot_go r _ sel hb)

end Sys2Proof.Proofs
end

section
/-! The start of the data die up to its release (R46 to R62, R259). -/

namespace Sys2Proof.Machine

/-! Fuses and headers (R46, R48, R49, R55). -/

/-- The image order of BOOT_SEL. -/
def fuseOrder (sel : Nat) : List Nat := if sel = 0 then [0, 1] else if sel = 1 then [1, 0] else if sel = 2 then [0] else []

theorem fuseOrder_sel (sel : Fin 4) : fuseOrder sel.val = [[0, 1], [1, 0], [0], []].getD sel.val [] := by
  revert sel
  decide

/-- The data die after the fuses: the host's link, the loops, and an image order. -/
def fused (s : State) (sel : Nat) (refclk : Bool) (order : List Nat) : State :=
  let l := lockLoops ((trainHost s refclk).setFld A.GLB_BOOT_STAT 17 16 sel)
  putBoot l { l.boot with order := order }

theorem fusesRead_inFuse {s : State} (ok : Bool) (sel : Fin 4) (refclk : Bool) (hd : s.power.die = true)
    (hb : bootState s = 1) : fusesRead s ok sel.val refclk =
      let u := fused s sel.val refclk ([[0, 1], [1, 0], [0], []].getD sel.val [])
      if ok then setBoot u 2 else bootFail u := by
  rw [← fuseOrder_sel]
  exact if_neg (by simp [hd, hb])

theorem ends_fuseReadDone {s t : State} {ok : Bool} {sel : Fin 4} {refclk : Bool} (hd : s.power.die = true)
    (ht : fusesRead s ok sel.val refclk = t) : Ends (.fuseReadDone ok sel refclk) s (settle t) :=
  ends_onDie_settle (f := fun s => fusesRead s ok sel.val refclk) rfl hd ht

/-- The SFDP of both devices is taken, and no header is awaited. -/
def sfdpTaken (s : State) (sfdp0 sfdp1 : List Nat) : State :=
  putBoot s { s.boot with flash0 := sfdpDev sfdp0, flash1 := sfdpDev sfdp1, awaiting := false }

section HeaderRead

variable {s : State} (sfdp0 sfdp1 h t : List Nat) (hd : s.power.die = true)
include hd

theorem headerRead_recovery (hb : bootState s = 2) (hsel : s.fld A.GLB_BOOT_STAT 17 16 = 3) :
    headerRead s sfdp0 sfdp1 h t = setBoot (sfdpTaken s sfdp0 sfdp1) 7 := by
  simp [headerRead, sfdpTaken, hd, hb, hsel]

theorem headerRead_flash (hb : bootState s = 2) (hsel : s.fld A.GLB_BOOT_STAT 17 16 ≠ 3) :
    headerRead s sfdp0 sfdp1 h t = attempt (sfdpTaken s sfdp0 sfdp1) h t := by
  simp [headerRead, sfdpTaken, hd, hb, hsel]

theorem headerRead_load (hb : bootState s = 3) (hw : s.boot.awaiting = true) :
    headerRead s sfdp0 sfdp1 h t = attempt (sfdpTaken s sfdp0 sfdp1) h t := by
  simp [headerRead, sfdpTaken, hd, hb, hw]

/-- FALLBACK keeps the SFDP that was read before. -/
theorem headerRead_fallback (hb : bootState s = 4) (hw : s.boot.awaiting = true) :
    headerRead s sfdp0 sfdp1 h t = attempt (putBoot s { s.boot with awaiting := false }) h t := by
  simp [headerRead, hd, hb, hw]

end HeaderRead

theorem ends_imageHeaderRead {s u : State} {sfdp0 sfdp1 h t : List Byte} (hf : s.islandRuns 5 = true)
    (hu : headerRead s (toNats sfdp0) (toNats sfdp1) (toNats h) (toNats t) = u) :
    Ends (.imageHeaderRead sfdp0 sfdp1 h t) s (settle u) :=
  ends_onFirmware_settle (f := fun s => headerRead s (toNats sfdp0) (toNats sfdp1) (toNats h) (toNats t)) rfl hf hu

theorem die_of_islandRuns {s : State} {i : Nat} (h : s.islandRuns i = true) : s.power.die = true :=
  (Bool.and_eq_true_iff.1 h).1

/-! Sections (R50, R51, R57, R225). -/

/-- With the last section of a start that reads them, the trims are loaded. -/
def trimsTaken (s : State) (trim0 trim1 : List Nat) : State :=
  if s.power.trimDue && decide (s.boot.index + 1 = s.boot.sects.length) then
    putPower (trimLoad s trim0 trim1) { s.power with trimDue := false }
  else s

/-- A reading of the section's payload is right. -/
def Sect.good (x : Sect) (b : List Nat) : Bool := decide (b.length = x.len) && decide (crc32c b = x.crc)

theorem sectionLoad_ready {s : State} {x : Sect} (p q trim0 trim1 : List Nat) (hx : currentSect s = some x)
    (hr : sectionReady s = true) : sectionLoad s p q trim0 trim1 =
      if x.good p then applySect (trimsTaken s trim0 trim1) x p
      else if x.good q then applySect (trimsTaken s trim0 trim1) x q else sectFail (trimsTaken s trim0 trim1) 8 := by
  simp only [sectionLoad, hx, hr]
  rfl

theorem ends_sectionLoad {s u : State} {p q t0 t1 : List Byte} (hf : s.islandRuns 5 = true)
    (hu : sectionLoad s (toNats p) (toNats q) (toNats t0) (toNats t1) = u) : Ends (.sectionLoad p q t0 t1) s (settle u) :=
  ends_onFirmware_settle (f := fun s => sectionLoad s (toNats p) (toNats q) (toNats t0) (toNats t1)) rfl hf hu

/-! Timers. -/

theorem timer_start_self (s : State) (t : Timer) (ns : Nat) : (s.start t ns).timer t = some (s.now + ns) := by
  simp [State.timer, State.start]

theorem runs_stop_self (s : State) (t : Timer) : (s.stop t).runs t = false := by
  simp [State.runs, State.stop]

/-! What is held of the start is no timer, no register and no byte. -/

theorem runs_putBoot (s : State) (h : BootHidden) (t : Timer) : (putBoot s h).runs t = s.runs t := rfl

theorem rd_putBoot (s : State) (h : BootHidden) (a : Nat) : (putBoot s h).rd a = s.rd a := rfl

/-! Bytes in the banks. -/

/-- A write of bytes changes the list of the bytes and nothing else. -/
theorem putBank_shape (l : List Nat) (s : State) (b i : Nat) : ∃ m, s.putBank b i l = { s with mem := m } := by
  induction l generalizing s i with
  | nil => exact ⟨s.mem, rfl⟩
  | cons v l ih => exact ih (s.putBankByte b i (BitVec.ofNat 8 v)) (i + 1)

theorem bankByte_putBank_ne (l : List Nat) (s : State) {b i b' j : Nat}
    (h : ∀ k, k < l.length → bankKey b' j ≠ bankKey b (i + k)) :
    (s.putBank b i l).bankByte b' j = s.bankByte b' j := by
  induction l generalizing s i with
  | nil => rfl
  | cons v l ih =>
    have h0 := h 0 (by simp)
    have hrest : ∀ k, k < l.length → bankKey b' j ≠ bankKey b (i + 1 + k) := fun k hk => by
      rw [Nat.add_assoc, Nat.add_comm 1 k]
      exact h (k + 1) (by simpa using hk)
    exact (ih _ hrest).trans (bankByte_put_ne s _ h0)

theorem bankByte_putBank (l : List Nat) (s : State) (b i : Nat) {k : Nat} (h : k < l.length) :
    (s.putBank b i l).bankByte b (i + k) = BitVec.ofNat 8 (l.getD k 0) := by
  induction l generalizing s i k with
  | nil => exact absurd h (Nat.not_lt_zero k)
  | cons v l ih =>
    rw [State.putBank]
    cases k with
    | zero =>
      rw [bankByte_putBank_ne l _ fun k _ => by unfold bankKey; omega]
      exact bankByte_put_self s b i _
    | succ k =>
      rw [Nat.add_comm k 1, ← Nat.add_assoc, ih _ (i + 1) (by simpa using h), Nat.add_comm 1 k]
      rfl

/-- A bank that is cleared changes no other. -/
theorem bankByte_clearBank_ne (s : State) {b b' i : Nat} (zero : Bool) (hb : b' ≠ b) (hi : i < 2 ^ 24) :
    (s.clearBank b zero).bankByte b' i = s.bankByte b' i := by
  have hk : bankKey b' i / 2 ^ 24 = b' := by unfold bankKey; omega
  have hcell : Cells.get (s.mem.filter fun e => e.1 / 2 ^ 24 ≠ b) (bankKey b' i) = Cells.get s.mem (bankKey b' i) := by
    have := map_get_filter_keys none (fun k => decide (k / 2 ^ 24 ≠ b)) (s.mem.map fun e => (e.1, some e.2)) (bankKey b' i)
    rw [hk, decide_eq_true hb, if_pos rfl, List.filter_map] at this
    rw [cells_get_eq, cells_get_eq]
    exact this
  unfold State.bankByte State.clearBank bankDefault
  simp only [hcell, hk, map_get_put_ne _ _ _ _ hb]

/-! The firmware (R47, R61, R377). -/

/-- The firmware stands in the banks of the management complex. -/
def firmwareLoaded (s : State) : State :=
  ((s.clearBank 0 false).clearBank 1 false).putBank 0 0 ((toNats s.boot.firmware).take (bankSize 0))

/-- The state in which the firmware starts. -/
def firmwareStarted (s : State) : State :=
  let u := firmwareLoaded s
  ((putBoot u { u.boot with started := true }).wr A.GLB_NODE_ID (u.boot.nodeId % 65536)).start .fwReady (100 * ms)

theorem firmwareStart_done {s : State} (hd : sectionsDone s = true) (hs : s.boot.started = false) :
    firmwareStart s = firmwareStarted s :=
  if_neg (by simp [hd, hs])

theorem firmwareLoaded_shape (s : State) :
    ∃ m b n, firmwareLoaded s = { s with mem := m, banks := b, draws := n } := by
  obtain ⟨m, hm⟩ :=
    putBank_shape ((toNats s.boot.firmware).take (bankSize 0)) ((s.clearBank 0 false).clearBank 1 false) 0 0
  exact ⟨m, _, _, hm⟩

theorem bankByte_firmwareLoaded (s : State) {i : Nat} (h : i < s.boot.firmware.length) (hi : i < 4 * 2 ^ 20) :
    ((firmwareLoaded s).bankByte 0 i).toNat = byteAt (toNats s.boot.firmware) i := by
  have hi' : i < bankSize 0 := hi
  have hlen : i < ((toNats s.boot.firmware).take (bankSize 0)).length := by
    simpa [toNats, h] using hi'
  have hbyte := bankByte_putBank _ ((s.clearBank 0 false).clearBank 1 false) 0 0 hlen
  rw [Nat.zero_add] at hbyte
  rw [firmwareLoaded, hbyte]
  simp [byteAt, toNats, h, hi']

theorem bankByte_firmwareLoaded_ne (s : State) {b i : Nat} (hb : 2 ≤ b) (hi : i < 2 ^ 24) :
    (firmwareLoaded s).bankByte b i = s.bankByte b i := by
  have hkey : ∀ k, k < ((toNats s.boot.firmware).take (bankSize 0)).length → bankKey b i ≠ bankKey 0 (0 + k) := by
    intro k hk
    have hk' : k < bankSize 0 := Nat.lt_of_lt_of_le hk (List.length_take_le _ _)
    have hsize : bankSize 0 = 4194304 := rfl
    unfold bankKey
    omega
  rw [firmwareLoaded, bankByte_putBank_ne _ _ hkey, bankByte_clearBank_ne _ _ (by omega) hi,
    bankByte_clearBank_ne _ _ (by omega) hi]

theorem rd_firmwareLoaded (s : State) (a : Nat) : (firmwareLoaded s).rd a = s.rd a := by
  obtain ⟨m, b, n, h⟩ := firmwareLoaded_shape s
  rw [h]
  rfl

theorem rd_firmwareStarted (s : State) (a : Nat) :
    (firmwareStarted s).rd a = if a = A.GLB_NODE_ID then s.boot.nodeId % 65536 else s.rd a := by
  have hboot : (firmwareLoaded s).boot = s.boot := by
    obtain ⟨m, b, n, h⟩ := firmwareLoaded_shape s
    rw [h]
  unfold firmwareStarted
  simp only []
  rw [rd_start, rd_wr, rd_putBoot, rd_firmwareLoaded, hboot, Nat.mod_eq_of_lt (by omega : _ < 2 ^ 32)]

theorem timer_firmwareStarted (s : State) : (firmwareStarted s).timer .fwReady = some (s.now + 100 * ms) := by
  have hnow : (firmwareLoaded s).now = s.now := by
    obtain ⟨m, b, n, h⟩ := firmwareLoaded_shape s
    rw [h]
  rw [← hnow]
  exact timer_start_self _ _ _

theorem bankByte_firmwareStarted (s : State) (b i : Nat) :
    (firmwareStarted s).bankByte b i = (firmwareLoaded s).bankByte b i :=
  banksKept_of_eq rfl rfl b i

/-- The sources of the firmware get its flag. -/
def firmwareFlagged (s : State) : State := firmwareSources.foldl (fun s i => s.setBit (A.INT_SRC i) 30 true) s

theorem firmwareReady_done {s : State} (hs : s.boot.started = true) (hr : s.runs .fwReady = true) : firmwareReady s =
    putBoot ((firmwareFlagged s).stop .fwReady) { (firmwareFlagged s).boot with ready := true } :=
  if_pos (by rw [hs, hr]; rfl)

theorem bit_setBit_true (s : State) (a : Nat) {i : Nat} (h : i < 32) : (s.setBit a i true).bit a i = true := by
  have hf := fld_setFld_self s a (Nat.le_refl i) h (v := 1) (by rw [Nat.add_sub_cancel_left]; decide)
  rw [State.fld, bits, Nat.add_sub_cancel_left, Nat.pow_one] at hf
  rw [State.bit, Nat.testBit_eq_decide_div_mod_eq]
  exact decide_eq_true hf

theorem bit_setBits_mem (reg : Nat → Nat) {b : Nat} (hb : b < 32) (l : List Nat) (s : State) {i : Nat}
    (h : i ∈ l ∨ s.bit (reg i) b = true) :
    (l.foldl (fun s i => s.setBit (reg i) b true) s).bit (reg i) b = true := by
  induction l generalizing s with
  | nil => exact h.resolve_left List.not_mem_nil
  | cons j l ih =>
    refine ih _ ?_
    by_cases hj : reg i = reg j
    · exact .inr (by rw [hj]; exact bit_setBit_true s _ hb)
    · refine h.imp (fun hi => (List.mem_cons.1 hi).resolve_left (by rintro rfl; exact hj rfl)) fun hi => ?_
      rw [State.bit, rd_setBit_ne s b true hj]
      exact hi

theorem regsKept_foldl {α : Type} {g : State → α → State} {p : Nat → Bool} (l : List α)
    (h : ∀ s, ∀ i ∈ l, RegsKept s (g s i) p) (s : State) : RegsKept s (l.foldl g s) p := by
  induction l generalizing s with
  | nil => exact RegsKept.refl s p
  | cons i l ih =>
    exact (h s i (List.mem_cons_self ..)).trans (ih (fun s j hj => h s j (List.mem_cons_of_mem _ hj)) _)

theorem regsKept_firmwareFlagged (s : State) :
    RegsKept s (firmwareFlagged s) (fun a => firmwareSources.any fun i => decide (a = A.INT_SRC i)) :=
  regsKept_foldl firmwareSources (p := fun a => firmwareSources.any fun i => decide (a = A.INT_SRC i))
    (fun s i hi => regsKept_setBit s _ _ (List.any_eq_true.2 ⟨i, hi, decide_eq_true rfl⟩)) s

theorem firmwareTimeout_due {s : State} (hb : bootState s = 3) (hd : s.due .fwReady = true) :
    firmwareTimeout s = imageFail (s.stop .fwReady) 12 := if_pos (by rw [hb, hd]; rfl)

/-! HBM3E training, the release, and the end of a fallback's reset (R47, R48, R259). -/

/-- The training's outcome is in the status register. -/
def hbmReported (s : State) (ok : BitVec 4) : State :=
  (putBoot (s.setFld A.DBF_STAT 27 24 ok.toNat) { s.boot with hbmDone := true }).setFld A.DBF_STAT 31 28
    (if ok = 0 then 4 else 2)

theorem hbmTrained_waiting {s : State} (ok : BitVec 4) (hd : s.power.die = true) (hh : s.boot.hbmDone = false)
    (hb : bootState s < 5) : hbmTrained s ok.toNat =
      if ok = 15 then hbmReported s ok else dbfEvent (hbmReported s ok) 16 := by
  have hzero : ok.toNat % 16 = 0 ↔ ok = 0 := by revert ok; decide
  have hfull : ok.toNat % 16 = 15 ↔ ok = 15 := by revert ok; decide
  have hgo : ¬(!s.power.die || s.boot.hbmDone || decide (5 ≤ bootState s)) = true := by simp [hd, hh, hb]
  unfold hbmTrained
  simp only [if_neg hgo, hzero, hfull]
  rfl

theorem dieRelease_due {s : State} (hb : bootState s = 3) (hr : s.boot.ready = true) (hh : s.boot.hbmDone = true)
    (ht : s.power.startAt + 60 * ms ≤ s.now) :
    let u := (scanSlots s).setFld A.GLB_BOOT_STAT 13 12 (bootImage s + 1)
    dieRelease s = (List.range 64).foldl (fun s p => if portEnabled s p then startBringup s p else s)
      (setBoot (putBoot u { u.boot with released := u.now }) 5) :=
  if_pos (by simp [hb, hr, hh, ht])

theorem fallbackDone_due {s : State} (hb : bootState s = 4) (hd : s.due .fallback = true) :
    fallbackDone s = putBoot (s.stop .fallback) { s.boot with awaiting := true } := if_pos (by rw [hb, hd]; rfl)

/-! Records and chunks (R52, R58, R60). -/

/-- The record in turn is applied now: its write waits nowhere, or it is a WAIT. -/
theorem recordNow_ready {s : State} {e : Nat × Nat × Nat} {l : List (Nat × Nat × Nat)} (hb : bootState s = 3)
    (hs : s.boot.script = some (e :: l)) (hw : e.1 = 3 ∨ accessWaits s e.2.1 = false) : recordNow s = some (e, l) := by
  simp only [recordNow, hs]
  refine if_neg ?_
  rcases hw with hw | hw <;> simp [hb, hw]

section Records

variable {s : State} {a v : Nat} {l : List (Nat × Nat × Nat)}

theorem scriptWrite_now (hn : recordNow s = some ((1, a, v), l)) (hf : scriptForbidden a = false) :
    scriptWrite s = recordEnds s a (busWrite s .mgmt a 4 [BitVec.ofNat 32 v]) l := by
  simp [scriptWrite, hn, hf]

theorem scriptGuarded_now (hn : recordNow s = some ((2, a, v), l)) (hf : scriptForbidden a = false) :
    scriptGuarded s = recordEnds s a (guardPair s .mgmt a v) l := by
  simp [scriptGuarded, hn, hf]

theorem scriptWait_now (hn : recordNow s = some ((3, a, v), l)) (hr : s.runs .bootWait = false) :
    scriptWait s = s.start .bootWait (v * us) := by
  simp [scriptWait, hn, hr]

theorem scriptWaitDone_now (hn : recordNow s = some ((3, a, v), l)) (hd : s.due .bootWait = true) :
    scriptWaitDone s = scriptGoes (s.stop .bootWait) l := by
  simp [scriptWaitDone, hn, hd]

end Records

theorem tableNext_written {s : State} {l : List Byte} (hb : bootState s = 3) (hc : s.boot.chunks = some l)
    (hr : islandRuns s 4 = true) (hok : chunkOk (toNats l) = true) :
    let w := writeWords .mgmt (0x2000000 + leNat (slice (toNats l) 0 4)) (chunkWords (toNats l)) s
    let rest := l.drop (8 + leNat (slice (toNats l) 4 4))
    w.2 = true → errCount w.1 = errCount s →
    tableNext s = if rest.isEmpty then nextSect w.1 else putBoot w.1 { w.1.boot with chunks := some rest } := by
  intro w rest hw he
  have hgo : ¬(bootState s ≠ 3 || !islandRuns s 4) = true := by simp [hb, hr]
  have hgood : ¬(!w.2 || decide (errCount w.1 ≠ errCount s)) = true := by simp [hw, he]
  have hch : ¬(!chunkOk (toNats l)) = true := by simp [hok]
  simp only [tableNext, hc, if_neg hgo, if_neg hch]
  exact if_neg hgood

end Sys2Proof.Machine

namespace Sys2Proof.Proofs
open Sys2Proof.Machine

/-- Settles O15: each command by what it does where its conditions hold. -/
theorem startUpCommands : Obligations.StartUpCommands := by
  refine ⟨?fuses, ?header, ?sect, ?fwStart, ?fwReady, ?fwTimeout, ?hbm, ?release, ?fallback, ?write, ?guarded, ?wait,
    ?waitDone, ?chunk⟩
  case fuses =>
    intro s ok refclk sel hd hb
    exact ends_fuseReadDone hd (fusesRead_inFuse ok sel refclk hd hb)
  case header =>
    intro s sfdp0 sfdp1 h t hf
    have hd := die_of_islandRuns hf
    refine ⟨fun hb hsel => ?_, fun hb hsel => ?_, fun hb hw => ?_, fun hb hw => ?_⟩
    · exact ends_imageHeaderRead hf (headerRead_recovery _ _ _ _ hd hb hsel)
    · exact ends_imageHeaderRead hf (headerRead_flash _ _ _ _ hd hb hsel)
    · exact ends_imageHeaderRead hf (headerRead_load _ _ _ _ hd hb hw)
    · exact ends_imageHeaderRead hf (headerRead_fallback _ _ _ _ hd hb hw)
  case sect =>
    intro s b c t0 t1 x hf hx hr
    exact ends_sectionLoad hf (sectionLoad_ready _ _ _ _ hx hr)
  case fwStart =>
    intro s hf hd hs
    have hend : Ends .firmwareStart s _ := ends_onFirmware (f := firmwareStart) rfl hf (firmwareStart_done hd hs)
    refine hend.endsWith_of ⟨rfl, ?_, timer_firmwareStarted s, fun a ha => ?_, fun i hl hi => ?_, fun b i hb hi => ?_⟩
      fun _ _ _ ht => ht
    · exact (rd_firmwareStarted s _).trans (if_pos rfl)
    · exact (rd_firmwareStarted s a).trans (if_neg (of_decide_eq_false ha))
    · rw [bankByte_firmwareStarted, bankByte_firmwareLoaded s hl hi]
    · rw [bankByte_firmwareStarted, bankByte_firmwareLoaded_ne s hb hi]
  case fwReady =>
    intro s hf hs hr
    have hend : Ends .firmwareReady s _ := ends_onFirmware (f := firmwareReady) rfl hf (firmwareReady_done hs hr)
    refine hend.endsWith_of ⟨rfl, ?_, fun i hi => ?_, fun a ha => ?_⟩ fun _ _ _ ht => ht
    · rw [runs_putBoot, runs_stop_self]
    · rw [State.bit, rd_putBoot, rd_stop]
      exact bit_setBits_mem A.INT_SRC (by decide) firmwareSources s (.inl hi)
    · rw [rd_putBoot, rd_stop]
      exact regsKept_firmwareFlagged s a ha
  case fwTimeout =>
    intro s hd hb ht
    exact ends_onDie_settle (f := firmwareTimeout) rfl hd (firmwareTimeout_due hb ht)
  case hbm =>
    intro s ok hd hh hb
    exact ends_onDie (f := fun s => hbmTrained s ok.toNat) rfl hd (hbmTrained_waiting ok hd hh hb)
  case release =>
    intro s hd hb hr hh ht
    exact ends_onDie_settle (f := dieRelease) rfl hd (dieRelease_due hb hr hh ht)
  case fallback =>
    intro s hd hb ht
    have hend : Ends .fallbackResetDone s _ := ends_onDie (f := fallbackDone) rfl hd (fallbackDone_due hb ht)
    exact hend.endsWith_of ⟨rfl, runs_stop_self s _, fun _ _ => rfl⟩ fun _ _ _ ht => ht
  case write =>
    intro s a v l hf hb hs hforb hw
    exact ends_onFirmware (f := scriptWrite) rfl hf (scriptWrite_now (recordNow_ready hb hs (.inr hw)) hforb)
  case guarded =>
    intro s a v l hf hb hs hforb hw
    exact ends_onFirmware (f := scriptGuarded) rfl hf (scriptGuarded_now (recordNow_ready hb hs (.inr hw)) hforb)
  case wait =>
    intro s a v l hf hb hs hr
    have hend : Ends .regscriptWait s _ :=
      ends_onFirmware (f := scriptWait) rfl hf (scriptWait_now (recordNow_ready hb hs (.inl rfl)) hr)
    exact hend.endsWith_of ⟨timer_start_self s _ _, rfl, fun _ _ => rfl⟩ fun _ _ _ ht => ht
  case waitDone =>
    intro s a v l hf hb hs ht
    exact ends_onFirmware (f := scriptWaitDone) rfl hf (scriptWaitDone_now (recordNow_ready hb hs (.inl rfl)) ht)
  case chunk =>
    intro s l hf hr hb hc hok _ hw he
    exact ends_onFirmware (f := tableNext) rfl hf (tableNext_written hb hc hr hok hw he)

end Sys2Proof.Proofs
end

section
/-! The governor (R38 to R43, R181) and sleep (R63 to R68, R117). -/

namespace Sys2Proof.Machine

/-! The order of shedding (R39). -/

/-- A port that can be shed: it is not shed, or is being restored. -/
def shedOpen (s : State) (q : Nat) : Bool := !(s.port q).shed || (s.port q).restore

/-- The port that is shed before another one: that of the higher rank, or of equal ranks that of the higher number. -/
def ShedsBefore (s : State) (p q : Nat) : Prop := shedRank s q < shedRank s p ∨ (shedRank s q = shedRank s p ∧ q ≤ p)

/-- The search's answer once it has looked at the ports below `n`: the port of them that is shed first, if one can be. -/
def ShedFirst (s : State) (n : Nat) (o : Option Nat) : Prop :=
  match o with
  | none => ∀ q, q < n → shedOpen s q = false
  | some p => p < n ∧ shedOpen s p = true ∧ ∀ q, q < n → shedOpen s q = true → ShedsBefore s p q

/-- One step of the search. -/
def shedStep (s : State) (o : Option Nat) (p : Nat) : Option Nat :=
  if (s.port p).shed && !(s.port p).restore then o
  else match o with
    | none => some p
    | some q => if shedRank s q ≤ shedRank s p then some p else some q

theorem nextShed_eq (s : State) : nextShed s = (List.range 64).foldl (shedStep s) none := rfl

theorem shedStep_shut {s : State} {p : Nat} (o : Option Nat) (h : shedOpen s p = false) : shedStep s o p = o := by
  refine if_pos ?_
  simpa [shedOpen] using h

theorem shedStep_open {s : State} {p : Nat} (o : Option Nat) (h : shedOpen s p = true) : shedStep s o p =
    match o with
    | none => some p
    | some q => if shedRank s q ≤ shedRank s p then some p else some q := by
  refine if_neg ?_
  simp only [shedOpen] at h
  revert h
  cases (s.port p).shed <;> cases (s.port p).restore <;> decide

theorem ShedsBefore.rank_le {s : State} {p q : Nat} (h : ShedsBefore s p q) : shedRank s q ≤ shedRank s p :=
  h.elim Nat.le_of_lt fun h => Nat.le_of_eq h.1

/-- The next port is shed before those below it whose rank is not higher. -/
theorem shedFirst_take {s : State} {n : Nat} (hn : shedOpen s n = true)
    (h : ∀ q, q < n → shedOpen s q = true → shedRank s q ≤ shedRank s n) : ShedFirst s (n + 1) (some n) := by
  refine ⟨Nat.lt_succ_self n, hn, fun q hq ho => ?_⟩
  rcases Nat.lt_succ_iff_lt_or_eq.1 hq with hq | rfl
  · exact (Nat.lt_or_eq_of_le (h q hq ho)).imp id fun he => ⟨he, Nat.le_of_lt hq⟩
  · exact .inr ⟨rfl, Nat.le_refl q⟩

/-- The answer stays where the next port cannot be shed, or has a lower rank than the port found. -/
theorem shedFirst_stay {s : State} {n : Nat} {o : Option Nat} (h : ShedFirst s n o)
    (hn : shedOpen s n = true → ∃ p, o = some p ∧ shedRank s n < shedRank s p) : ShedFirst s (n + 1) o := by
  cases o with
  | none =>
    intro q hq
    rcases Nat.lt_succ_iff_lt_or_eq.1 hq with hq | rfl
    · exact h q hq
    · rw [← Bool.not_eq_true]
      intro ho
      obtain ⟨p, hp, -⟩ := hn ho
      cases hp
  | some p =>
    obtain ⟨hp, hpo, hfirst⟩ := h
    refine ⟨Nat.lt_succ_of_lt hp, hpo, fun q hq ho => ?_⟩
    rcases Nat.lt_succ_iff_lt_or_eq.1 hq with hq | rfl
    · exact hfirst q hq ho
    · obtain ⟨p', hp', hlt⟩ := hn ho
      cases hp'
      exact .inl hlt

theorem shedFirst_step {s : State} {n : Nat} {o : Option Nat} (h : ShedFirst s n o) :
    ShedFirst s (n + 1) (shedStep s o n) := by
  by_cases hn : shedOpen s n = true
  · rw [shedStep_open o hn]
    cases o with
    | none => exact shedFirst_take hn fun q hq ho => by rw [h q hq] at ho; cases ho
    | some p =>
      obtain ⟨-, -, hfirst⟩ := id h
      by_cases hr : shedRank s p ≤ shedRank s n
      · simp only [hr, if_true]
        exact shedFirst_take hn fun q hq ho => (hfirst q hq ho).rank_le.trans hr
      · simp only [hr, if_false]
        exact shedFirst_stay h fun _ => ⟨p, rfl, Nat.lt_of_not_le hr⟩
  · rw [shedStep_shut o (by simpa using hn)]
    exact shedFirst_stay h fun ho => absurd ho hn

theorem shedFirst_search (s : State) (n : Nat) : ShedFirst s n ((List.range n).foldl (shedStep s) none) := by
  induction n with
  | zero => exact fun q hq => absurd hq (Nat.not_lt_zero q)
  | succ n ih =>
    rw [List.range_succ, List.foldl_append]
    exact shedFirst_step ih

/-! The governor (R38 to R43). -/

theorem govShed_one {s : State} {p : Nat} (ht : s.due .govTick = true) (ha : govActive s = true) (ho : overCap s = true)
    (hr : clkRamped s = true) (hg : rampGoal s = none) (hp : nextShed s = some p) :
    govShed s = (shedPort s p).start .govTick (20 * us) := by
  simp [govShed, ht, ha, ho, hr, hg, hp]

theorem govBelow_due {s : State} (ht : s.due .govBelow = true) (ha : govActive s = true) : govBelow s = govRestore s :=
  if_pos (by rw [ht, ha]; rfl)

theorem govRestoreOne_next {s : State} {p : Nat} {l : List Nat} (ht : s.due .govTick = true) (ha : govActive s = true)
    (hm : atMost90 s = true) (hr : clkRamped s = false) (hg : rampGoal s = none) (hl : s.power.shed = p :: l) :
    let u := restorePort s p
    govRestoreOne s = if u.power.shed.isEmpty then govFree u else u.start .govTick (20 * us) := by
  simp [govRestoreOne, ht, ha, hm, hr, hg, hl]

theorem rowOf_govCtrl : ∃ row, rowOf A.PWR_GOV_CTRL = some row ∧ row.acc = .rw := ⟨_, rfl, rfl⟩

theorem writeEffect_govCtrl (s : State) (r : Req) (v : Nat) :
    writeEffect s r A.PWR_GOV_CTRL v = .does (settle (writeCap s (v % 1024))) := rfl

theorem writeCap_eq (s : State) (v : Nat) : writeCap s (v % 1024) = govEval (s.wr A.PWR_GOV_CTRL (v % 1024)) := by
  rw [writeCap, Nat.mod_mod]

theorem ends_govCapWrite {s : State} {r : Req} {v : Word} (h : s.listens r A.PWR_GOV_CTRL = true) :
    Ends (.govCapWrite r v) s (settle (govEval ((heard s r 1).wr A.PWR_GOV_CTRL (v.toNat % 1024)))) := by
  obtain ⟨row, hr, hrw⟩ := rowOf_govCtrl
  have hw := write32_served v.toNat h (by decide) hr
  have hserved : served (heard s r 1) r A.PWR_GOV_CTRL v.toNat row =
      writePlain (heard s r 1) r A.PWR_GOV_CTRL A.PWR_GOV_CTRL v.toNat false := by rw [served, hrw]
  rw [Nat.mod_eq_of_lt v.isLt, hserved, writePlain_does false (writeEffect_govCtrl _ _ _), writeCap_eq] at hw
  exact ends_of_exec (congrArg (done s) hw)

theorem govRampDone_due {s : State} {d : Bool} (hr : s.power.ramp = some d) (ht : s.due .govRamp = true) :
    let f := (List.range 4).foldl (fun s i => s.setFld (A.PLL_CPLL_STAT i) 15 0 (if d then 750 else 1500))
      ((putPower s { s.power with ramp := none }).stop .govRamp)
    let u := rampPending (setGov f 2 d)
    govRampDone s = if u.power.nextRamp.isSome || u.power.ramp.isSome then u else if d then govEval u else govRestore u := by
  simp only [govRampDone, hr]
  exact if_neg (by simp [ht])

/-! Sleep (R63, R65, R66, R68). -/

theorem guardedEffect_sleepCtrl (s : State) (r : Req) (v : Nat) :
    guardedEffect s r A.PWR_SLEEP_CTRL v = guardedSleep s r A.PWR_SLEEP_CTRL v := rfl

theorem guardedSleep_enter {s : State} (r : Req) (a : Nat) (h : inRun s = true) : guardedSleep s r a 1 = sleepEnter s := by
  have hbits : Nat.testBit 1 0 = true ∧ Nat.testBit 1 1 = false := by decide
  simp [guardedSleep, hbits, h]

theorem guardedSleep_wake (s : State) (r : Req) (a : Nat) : guardedSleep s r a 2 = wakeEvent s (tb0 s) := by
  have hbits : Nat.testBit 2 0 = false ∧ Nat.testBit 2 1 = true := by decide
  simp [guardedSleep, hbits]

theorem wakeEvent_asleep {s : State} (tw : Nat) (h : bootState s = 9) : wakeEvent s tw = startWake s tw := if_pos h

theorem wakeTimed_due {s : State} (hw : wakeTimeDue s = true) (hb : bootState s = 9) :
    wakeTimed s = startWake s (s.rdTime A.PWR_WAKE_W2) := (if_pos hw).trans (wakeEvent_asleep _ hb)

theorem sleepDrained_due {s : State} (hb : bootState s = 8) (ht : s.due .sleepDrain = true) :
    let u := s.stop .sleepDrain
    sleepDrained s = (List.range 64).foldl sleepPort (putPower u { u.power with drained := true }) :=
  if_neg (by simp [hb, ht])

end Sys2Proof.Machine

namespace Sys2Proof.Proofs
open Sys2Proof.Machine

/-- Settles O16: the commands by what each does where its conditions hold, and the order of shedding by an invariant of
the search. -/
theorem governorAndSleepCommands : Obligations.GovernorAndSleepCommands := by
  refine ⟨?sample, ?entry, ?exit, ?shed, ?below, ?restore, fun s r v h => ends_govCapWrite h, ?ramp, ?order, ?enter,
    ?drained, ?entered, ?wake, ?wakeTime, ?awake⟩
  case sample =>
    intro s mw m k hd
    exact ends_onDie_settle (f := fun s => govSample s mw m.toNat k.toNat) rfl hd rfl
  case entry =>
    intro s hd
    exact ends_onDie_settle (f := fun s => govLimit s true) rfl hd rfl
  case exit =>
    intro s hd
    exact ends_onDie_settle (f := fun s => govLimit s false) rfl hd rfl
  case shed =>
    intro s p hd ht ha ho hr hg hp
    exact ends_onDie_settle (f := govShed) rfl hd (govShed_one ht ha ho hr hg hp)
  case below =>
    intro s hd ht ha
    exact ends_onDie_settle (f := govBelow) rfl hd (govBelow_due ht ha)
  case restore =>
    intro s p l hd ht ha hm hr hg hl
    exact ends_onDie_settle (f := govRestoreOne) rfl hd (govRestoreOne_next ht ha hm hr hg hl)
  case ramp =>
    intro s d hd hr ht
    exact ends_onDie_settle (f := govRampDone) rfl hd (govRampDone_due hr ht)
  case order =>
    intro s p hp
    have h := shedFirst_search s 64
    rw [← nextShed_eq, hp] at h
    exact h
  case enter =>
    intro s r h hrun
    exact ends_guardedWrite rfl h ((guardedEffect_sleepCtrl _ _ _).trans
      (guardedSleep_enter r _ (by rwa [inRun_heard])))
  case drained =>
    intro s hd hb ht
    exact ends_onDie_settle (f := sleepDrained) rfl hd (sleepDrained_due hb ht)
  case entered =>
    intro s hd _ _ _
    exact ends_onDie_settle (f := sleepEntered) rfl hd rfl
  case wake =>
    intro s r h hb
    exact ends_guardedWrite rfl h ((guardedEffect_sleepCtrl _ _ _).trans
      ((guardedSleep_wake _ r _).trans (wakeEvent_asleep _ (by rwa [bootState_heard]))))
  case wakeTime =>
    intro s hd hw hb
    exact ends_onDie_settle (f := wakeTimed) rfl hd (wakeTimed_due hw hb)
  case awake =>
    intro s ready hd _ _
    exact ends_onDie_settle (f := fun s => wakeDone s ready.toNat) rfl hd rfl

end Sys2Proof.Proofs
end

section
/-! The events of a lane (R73 to R89, table Lane states): what each does in the state that takes it. -/

namespace Sys2Proof.Machine

/-- A lane's command ends in its step, with what the step does to the lane's port. -/
theorem ends_onLane {c : Instr} {s t : State} {l : Nat} {f : State → State} (hc : exec c s = onLane s l f)
    (h : s.awake = true) (ht : f s = t) : Ends c s (settle (laneAfter s t l)) :=
  ends_of_exec (by rw [hc, onLane_on h, ht])

variable {s : State} {l : Nat}

/-! Power-up and signal. -/

theorem lanePowered_asleep (h : laneState s l = 1) (hw : (s.lane l).waking = true) :
    lanePowered s l = (setLaneState s l 8).start (.laneResume l) (2 * ms) := by simp [lanePowered, h, hw]

theorem lanePowered_fresh (h : laneState s l = 1) (hw : (s.lane l).waking = false) :
    lanePowered s l = toSignalWait s l := by simp [lanePowered, h, hw]

/-- A live lane is not in TEST. -/
theorem notTest_of_live (h : laneLive s l = true) : laneState s l ≠ 9 := by
  simp only [laneLive, Bool.and_eq_true, decide_eq_true_eq] at h
  omega

theorem laneSignal_live (h : laneLive s l = true) :
    let u := setLaneFlag s l 24 true
    laneSignal s l = if laneState u l = 2 ∧ u.runs (.laneRetry l) = false then toCdrAcq u l else u := by
  simp [laneSignal, notTest_of_live h, h]

theorem laneSignalLost_live (h : laneLive s l = true) :
    laneSignalLost s l = if laneState s l = 1 ∨ laneState s l = 8 then setLaneFlag s l 24 false
      else toSignalWait (exitService s l) l := by
  simp [laneSignalLost, notTest_of_live h, h]

/-! CDR lock. -/

/-- The lane in ADAPT, after the lock of its CDR. -/
def cdrAcquired (s : State) (l phase : Nat) : State :=
  (setLaneState (cdrLocked (s.stop (.laneCdr l)) l phase) l 4).start (.laneAdapt l) (100 * ms)

theorem laneLocks_trains {phase : Nat} {pre : Bool} (h : laneState s l = 3) (hr : s.runs (.laneCdr l) = true)
    (ht : mayTrain (cdrAcquired s l phase) l = true) :
    let u := cdrAcquired s l phase
    laneLocks s l phase (some pre) =
      setPrecode (u.putLane l { u.lane l with training := true, trained := false, trainedPre := pre }) l := by
  simp only [cdrAcquired] at ht ⊢
  simp [laneLocks, h, hr, ht]

theorem laneLocks_untrained {phase : Nat} {training : Option Bool} (h : laneState s l = 3)
    (hr : s.runs (.laneCdr l) = true) (ht : training = none ∨ mayTrain (cdrAcquired s l phase) l = false) :
    laneLocks s l phase training = setPrecode (noTraining (cdrAcquired s l phase) l) l := by
  simp only [cdrAcquired] at ht ⊢
  cases training with
  | none => simp [laneLocks, h, hr]
  | some pre => simp [laneLocks, h, hr, ht.resolve_left nofun]

theorem laneCdrOut_due (h : laneState s l = 3) (hd : s.due (.laneCdr l) = true) : laneCdrOut s l = failAttempt s l 1 := by
  simp [laneCdrOut, h, hd]

/-! Adaptation and CHECK. -/

theorem laneAdapted_converged (w : Vector Word 7) (pre : Bool) (h : laneState s l = 4) :
    let u := takeAdapted (s.stop (.laneAdapt l)) l w.toList
    let h := u.lane l
    let u := if h.training then
        u.putLane l { h with training := false, trained := true, trainedTx := w[0], trainedPre := pre } else u
    laneAdapted s l w.toList pre = setLaneState (setPrecode u l) l 5 := by
  have hw : w.toList.getD 0 0 = w[0] := by simp
  simp only [laneAdapted, h, hw, if_true]

theorem laneAdaptOut_due (h : laneState s l = 4) (hd : s.due (.laneAdapt l) = true ∨ (s.lane l).training = true) :
    laneAdaptOut s l = failAttempt s l 2 := by simp [laneAdaptOut, h, hd]

theorem laneChecked_inCheck (h : laneState s l = 5) : laneChecked s l = finishCheck s l := if_pos h

theorem laneRecheck_due (h : laneState s l = 7) (hd : s.due (.laneRecheck l) = true) :
    laneRecheck s l = startCheck s l := by simp [laneRecheck, h, hd]

theorem laneRetry_due (h : laneState s l = 3 ∨ laneState s l = 2) (hd : s.due (.laneRetry l) = true) :
    laneRetry s l = toCdrAcq (s.stop (.laneRetry l)) l := by simp [laneRetry, h, hd]

/-! Losses in SERVICE. -/

theorem inService_iff (s : State) (l : Nat) : inService s l = true ↔ laneState s l = 6 := by simp [inService]

theorem cdrLost_inService (h : laneState s l = 6) : cdrLost s l = dropFromService s l 3 := by
  simp [cdrLost, laneDrops, inService, h]

theorem blockLocks_trunk (headers : List Nat) (ht : laneFlag s l 14 = true) (hc : laneFlag s l 23 = true) :
    blockLocks s l headers = if givesBlockLock headers then setLaneFlag s l 22 true else s := by
  simp [blockLocks, ht, hc]

theorem blockUnlocks_locked {headers : List Nat} (hb : laneFlag s l 22 = true) (hl : losesBlockLock headers = true) :
    blockUnlocks s l headers = if laneState s l = 6 then dropFromService (setLaneFlag s l 22 false) l 4
      else setLaneFlag s l 22 false := by
  simp [blockUnlocks, hb, hl, inService_iff]

theorem laneErrors_test (n : Nat) (h : laneState s l = 9) :
    laneErrors s l n = if s.bit (A.LANE_TEST l) 2 then s.add64 (A.LANE_TEST_ERR_LO l) n else s := if_pos h

theorem laneErrors_live (n : Nat) (h : laneState s l ≠ 9) :
    let lim := s.fld (A.LANE_MON l) 31 16
    laneErrors s l n = if lim ≠ 0 ∧ lim ≤ n then laneDrops (countLaneErrors s l n) l 5 else countLaneErrors s l n :=
  if_neg h

/-! RESUME and bit slips. -/

theorem laneResumes_locked (phase : Nat) (h : laneState s l = 8) :
    let u := cdrLocked (setLaneFlag s l 24 true) l phase
    laneResumes s l phase = if eqValid u l (eqSet (laneMode u l)) then enterService u l else u := if_neg (by simp [h])

theorem laneResumeOut_due (h : laneState s l = 8) (hd : s.due (.laneResume l) = true) :
    laneResumeOut s l =
      toCdrAcq ((s.stop (.laneResume l)).putLane l { s.lane l with waking := false }) l := by simp [laneResumeOut, h, hd]

theorem laneSlip_inService (h : laneState s l = 6) :
    laneSlip s l = setDlyValid (s.putLane l { s.lane l with noSlip := false }) l := if_pos ((inService_iff s l).2 h)

end Sys2Proof.Machine

namespace Sys2Proof.Proofs
open Sys2Proof.Machine

/-- Settles O17: each event by its step of the lane in the state that takes it. -/
theorem laneCommands : Obligations.LaneCommands := by
  refine ⟨?powered, ?signal, ?signalLost, ?cdrLock, ?cdrTimeout, ?adapted, ?adaptTimeout, ?checked, ?recheck, ?retry,
    ?cdrLoss, ?blockLock, ?blockLoss, ?testErrors, ?errors, ?resumed, ?resumeTimeout, ?slip⟩
  case powered =>
    intro s l ha h
    exact ⟨fun hw => ends_onLane (f := fun s => lanePowered s l.val) rfl ha (lanePowered_fresh h hw),
      fun hw => ends_onLane (f := fun s => lanePowered s l.val) rfl ha (lanePowered_asleep h hw)⟩
  case signal =>
    intro s l ha h
    exact ends_onLane (f := fun s => laneSignal s l.val) rfl ha (laneSignal_live h)
  case signalLost =>
    intro s l ha h
    exact ends_onLane (f := fun s => laneSignalLost s l.val) rfl ha (laneSignalLost_live h)
  case cdrLock =>
    intro s l ph training ha h hr
    refine ⟨?_, fun ht => ends_onLane (f := fun s => laneLocks s l.val ph.toNat training) rfl ha
      (laneLocks_untrained h hr ht)⟩
    rintro pre rfl ht
    exact ends_onLane (f := fun s => laneLocks s l.val ph.toNat (some pre)) rfl ha (laneLocks_trains h hr ht)
  case cdrTimeout =>
    intro s l ha h hd
    exact ends_onLane (f := fun s => laneCdrOut s l.val) rfl ha (laneCdrOut_due h hd)
  case adapted =>
    intro s l w pre ha h
    exact ends_onLane (f := fun s => laneAdapted s l.val w.toList pre) rfl ha (laneAdapted_converged w pre h)
  case adaptTimeout =>
    intro s l ha h hd
    exact ends_onLane (f := fun s => laneAdaptOut s l.val) rfl ha (laneAdaptOut_due h hd)
  case checked =>
    intro s l ha h
    exact ends_onLane (f := fun s => laneChecked s l.val) rfl ha (laneChecked_inCheck h)
  case recheck =>
    intro s l ha h hd
    exact ends_onLane (f := fun s => laneRecheck s l.val) rfl ha (laneRecheck_due h hd)
  case retry =>
    intro s l ha h hd
    exact ends_onLane (f := fun s => laneRetry s l.val) rfl ha (laneRetry_due h hd)
  case cdrLoss =>
    intro s l ha h
    exact ends_onLane (f := fun s => cdrLost s l.val) rfl ha (cdrLost_inService h)
  case blockLock =>
    intro s l ha ht hc headers
    exact ends_onLane (f := fun s => blockLocks s l.val (headers.map BitVec.toNat)) rfl ha (blockLocks_trunk _ ht hc)
  case blockLoss =>
    intro s l headers ha hb hl
    exact ends_onLane (f := fun s => blockUnlocks s l.val (headers.map BitVec.toNat)) rfl ha (blockUnlocks_locked hb hl)
  case testErrors =>
    intro s l n ha h
    exact ends_onLane (f := fun s => laneErrors s l.val n) rfl ha (laneErrors_test n h)
  case errors =>
    intro s l n ha h
    exact ends_onLane (f := fun s => laneErrors s l.val n) rfl ha (laneErrors_live n h)
  case resumed =>
    intro s l ph ha h
    exact ends_onLane (f := fun s => laneResumes s l.val ph.toNat) rfl ha (laneResumes_locked _ h)
  case resumeTimeout =>
    intro s l ha h hd
    exact ends_onLane (f := fun s => laneResumeOut s l.val) rfl ha (laneResumeOut_due h hd)
  case slip =>
    intro s l ha h
    exact ends_onLane (f := fun s => laneSlip s l.val) rfl ha (laneSlip_inService h)

end Sys2Proof.Proofs
end

section
/-! Registers of the blocks LANE and PORT: where they stand in the map (R357), and what a served write of one does. -/

namespace Sys2Proof.Machine

/-! A register's row, by its block and its offset. -/

/-- The block that holds an address, where the blocks before it in the map end below it. -/
theorem blockOf_of_index {a n : Nat} {b : Block} (hb : blocks[n]? = some b)
    (hlow : ∀ x ∈ blocks.take n, x.base + x.size ≤ b.base) (h : b.base ≤ a) (h' : a < b.base + b.size) :
    blockOf a = some b := by
  obtain ⟨hn, rfl⟩ := List.getElem?_eq_some_iff.1 hb
  refine List.find?_eq_some_iff_getElem.2 ⟨by simp [h, h'], n, hn, rfl, fun j hj => ?_⟩
  have hx := hlow blocks[j] (List.mem_take_iff_getElem.2 ⟨j, by omega, rfl⟩)
  simp only [Bool.not_eq_true', Bool.and_eq_false_iff, decide_eq_false_iff_not]
  omega

/-- The row of offset `o` in member `i` of a block whose members are alike. -/
theorem rowOf_of_index {n i o : Nat} {b : Block} (hb : blocks[n]? = some b)
    (hlow : ∀ x ∈ blocks.take n, x.base + x.size ≤ b.base) (ho : o < b.stride) (hi : i * b.stride + o < b.size) :
    rowOf (b.base + i * b.stride + o) = b.rows.find? (·.covers o) := by
  have hoff : (b.base + i * b.stride + o - b.base) % b.stride = o := by
    rw [Nat.add_assoc, Nat.add_sub_cancel_left, Nat.mul_add_mod_self_right, Nat.mod_eq_of_lt ho]
  rw [rowOf, blockOf_of_index hb hlow (by omega) (by omega)]
  simp only [hoff]

theorem rowOf_lane {l o : Nat} (hl : l < 512) (ho : o < 0x1000) :
    rowOf (A.LANE_CTRL l + o) = rowsLANE.find? (·.covers o) :=
  have hi : l * 0x1000 + o < 0x200000 := by omega
  rowOf_of_index (n := 21) (b := ⟨0x1000000, 0x200000, 0x1000, rowsLANE⟩) rfl (by decide) ho hi

theorem rowOf_port {p o : Nat} (hp : p < 64) (ho : o < 0x4000) :
    rowOf (A.PORT_CFG p + o) = rowsPORT.find? (·.covers o) :=
  have hi : p * 0x4000 + o < 0x100000 := by omega
  rowOf_of_index (n := 20) (b := ⟨0x800000, 0x100000, 0x4000, rowsPORT⟩) rfl (by decide) ho hi

/-! The effect of a write is the block's. -/

theorem writeEffect_lane (s : State) (r : Req) {a : Nat} (v : Nat) (h : 0x1000000 ≤ a) (h' : a < 0x2000000) :
    writeEffect s r a v = writeLane s a v := by
  rw [writeEffect]
  repeat rw [if_neg (by omega)]
  rw [if_pos h']

theorem writeEffect_port (s : State) (r : Req) {a : Nat} (v : Nat) (h : 0x800000 ≤ a) (h' : a < 0x1000000) :
    writeEffect s r a v = writePort s a v := by
  rw [writeEffect]
  repeat rw [if_neg (by omega)]
  rw [if_pos h']

/-- The lane, and the offset in its block, of a register's address. -/
theorem lane_of_address (l : Nat) {o : Nat} (ho : o < 0x1000) :
    (A.LANE_CTRL l + o - A.LANE_CTRL 0) / 0x1000 = l ∧ (A.LANE_CTRL l + o - A.LANE_CTRL 0) % 0x1000 = o := by
  simp only [A.LANE_CTRL]
  omega

/-- The port, and the offset in its block, of a register's address. -/
theorem port_of_address (p : Nat) {o : Nat} (ho : o < 0x4000) :
    (A.PORT_CFG p + o - A.PORT_CFG 0) / 0x4000 = p ∧ (A.PORT_CFG p + o - A.PORT_CFG 0) % 0x4000 = o := by
  simp only [A.PORT_CFG]
  omega

/-! Commands that write one word of an RW register. -/

/-- Offset `o` of a block with these rows names a word of an RW register. -/
def rwAt (rows : List RegRow) (o : Nat) : Bool :=
  decide (o % 4 = 0) && decide ((rows.find? (·.covers o)).map RegRow.acc = some .rw)

theorem rwAt_row {rows : List RegRow} {o : Nat} (h : rwAt rows o = true) :
    o % 4 = 0 ∧ ∃ row, rows.find? (·.covers o) = some row ∧ row.acc = .rw := by
  simpa only [rwAt, Bool.and_eq_true, decide_eq_true_eq, Option.map_eq_some_iff] using h

section Write
variable {c : Instr} {s : State} {r : Req} {a v : Nat}

/-- A write of an RW register ends in what its block does with the value. -/
theorem ends_writeRw {row : RegRow} (hc : exec c s = done s (write32 s r a v)) (h : s.listens r a = true)
    (ha : a % 4 = 0) (hr : rowOf a = some row) (hrw : row.acc = .rw) :
    Ends c s (writePlain (heard s r 1) r a a (v % 2 ^ 32) false) := by
  have hw := write32_served v h ha hr
  rw [served, hrw] at hw
  exact ends_of_exec (hc.trans (congrArg (done s) hw))

theorem ends_laneWrite {l o : Nat} (hc : exec c s = done s (write32 s r a v)) (h : s.listens r a = true)
    (ha : a = A.LANE_CTRL l + o) (hl : l < 512) (ho : o < 0x1000) (hrw : rwAt rowsLANE o = true) :
    Ends c s (writePlain (heard s r 1) r a a (v % 2 ^ 32) false) := by
  obtain ⟨h4, row, hrow, hacc⟩ := rwAt_row hrw
  refine ends_writeRw hc h ?_ (by rw [ha, rowOf_lane hl ho, hrow]) hacc
  rw [ha, A.LANE_CTRL]
  omega

theorem ends_portWrite {p o : Nat} (hc : exec c s = done s (write32 s r a v)) (h : s.listens r a = true)
    (ha : a = A.PORT_CFG p + o) (hp : p < 64) (ho : o < 0x4000) (hrw : rwAt rowsPORT o = true) :
    Ends c s (writePlain (heard s r 1) r a a (v % 2 ^ 32) false) := by
  obtain ⟨h4, row, hrow, hacc⟩ := rwAt_row hrw
  refine ends_writeRw hc h ?_ (by rw [ha, rowOf_port hp ho, hrow]) hacc
  rw [ha, A.PORT_CFG]
  omega

end Write

/-! What the register's own rules decide. -/

section Decision
variable {c : Instr} {s u : State} {r : Req} {a v : Nat} (h : Ends c s (writePlain u r a a v false))
include h

/-- A write that one condition rejects (R32). -/
theorem ends_refuseIf {b : Bool} {t : State} (he : writeEffect u r a v = refuseIf b (.does t)) :
    (b = false → Ends c s t) ∧ (b = true → Ends c s (rejected u r a)) := by
  refine ⟨?_, ?_⟩
  · rintro rfl
    rwa [writePlain_does false he] at h
  · rintro rfl
    rwa [writePlain_refuse false he] at h

/-- A write that has an effect where its block gives a state. -/
theorem ends_ofOption {o : Option State} {f : State → State} (he : writeEffect u r a v = .of (o.map f)) :
    (∀ t, o = some t → Ends c s (f t)) ∧ (o = none → Ends c s (rejected u r a)) := by
  refine ⟨?_, ?_⟩
  · rintro t rfl
    rwa [writePlain_does false he] at h
  · rintro rfl
    rwa [writePlain_refuse false he] at h

end Decision

end Sys2Proof.Machine
end

section
/-! Writes of a lane's registers (R72, R73, R76, R77, R83 to R85, R90, R92). -/

namespace Sys2Proof.Machine

theorem laneEqValid_at (l : Nat) : A.LANE_EQ_VALID l = A.LANE_CTRL l + 0x44 := by
  simp only [A.LANE_EQ_VALID, A.LANE_CTRL]; omega

theorem laneTest_at (l : Nat) : A.LANE_TEST l = A.LANE_CTRL l + 0x200 := by
  simp only [A.LANE_TEST, A.LANE_CTRL]; omega

theorem laneEqTbl_at (l m w : Nat) : A.LANE_EQ_TBL l m w = A.LANE_CTRL l + (0x100 + m * 0x20 + w * 4) := by
  simp only [A.LANE_EQ_TBL, A.LANE_CTRL]; omega

/-- The words of the table are RW registers, and their offsets name their set and word. -/
theorem laneEqTbl_offset (m : Fin 3) (w : Fin 7) :
    rwAt rowsLANE (0x100 + m.val * 0x20 + w.val * 4) = true ∧
      entryOf2 (0x100 + m.val * 0x20 + w.val * 4) 0x100 0x20 3 4 7 = some (m.val, w.val) := by
  revert m w
  decide

/-! What each register does with a value. -/

section Effects
variable (s : State) (r : Req) (v : Nat) {l : Nat} (hl : l < 512)
include hl

/-- The effect of a write in a lane's block, by the lane and the offset. -/
theorem writeEffect_laneAt {o : Nat} (ho : o < 0x1000) :
    writeEffect s r (A.LANE_CTRL l + o) v = writeLane s (A.LANE_CTRL l + o) v :=
  writeEffect_lane s r v (by rw [A.LANE_CTRL]; omega) (by rw [A.LANE_CTRL]; omega)

theorem writeEffect_laneCtrl :
    writeEffect s r (A.LANE_CTRL l) v = .does (settle (laneAfter s (writeLaneCtrl s l v) l)) := by
  obtain ⟨hlane, hoff⟩ := lane_of_address l (o := 0) (by decide)
  refine (writeEffect_laneAt s r v hl (o := 0) (by decide)).trans ?_
  simp only [writeLane, hlane, hoff, if_true]

theorem writeEffect_laneEqValid :
    writeEffect s r (A.LANE_EQ_VALID l) v =
      .of ((writeEqValid s l (v % 8)).map fun t => settle (laneAfter s t l)) := by
  obtain ⟨hlane, hoff⟩ := lane_of_address l (o := 0x44) (by decide)
  rw [laneEqValid_at, writeEffect_laneAt s r v hl (by decide)]
  simp only [writeLane, hlane, hoff]
  rfl

theorem writeEffect_laneTest : writeEffect s r (A.LANE_TEST l) v = writeTest s l v := by
  obtain ⟨hlane, hoff⟩ := lane_of_address l (o := 0x200) (by decide)
  rw [laneTest_at, writeEffect_laneAt s r v hl (by decide)]
  simp only [writeLane, hlane, hoff]
  rfl

theorem writeEffect_laneEqTbl (m : Fin 3) (w : Fin 7) :
    writeEffect s r (A.LANE_EQ_TBL l m.val w.val) v =
      .of ((writeEqWord s l m.val w.val v).map fun t => settle (laneAfter s t l)) := by
  have ho : 0x100 + m.val * 0x20 + w.val * 4 < 0x1000 := by omega
  obtain ⟨hlane, hoff⟩ := lane_of_address l ho
  rw [laneEqTbl_at, writeEffect_laneAt s r v hl ho]
  simp only [writeLane, hlane, hoff, (laneEqTbl_offset m w).2]
  repeat rw [if_neg (by omega)]

end Effects

/-! The guarded register. -/

theorem guardedEffect_laneFault (s : State) (r : Req) (l v : Nat) :
    guardedEffect s r (A.LANE_FAULT_CTRL l) v = guardedFault s l v := by
  have hlane : (A.LANE_FAULT_CTRL l - A.LANE_FAULT_CTRL 0) / 0x1000 = l := by
    simp only [A.LANE_FAULT_CTRL]; omega
  have hge : A.LANE_FAULT_CTRL 0 ≤ A.LANE_FAULT_CTRL l := by simp only [A.LANE_FAULT_CTRL]; omega
  have hne : ∀ {a : Nat}, a < 0x1000000 → A.LANE_FAULT_CTRL l ≠ a := by
    intro a ha; rw [A.LANE_FAULT_CTRL]; omega
  rw [guardedEffect]
  repeat rw [if_neg (hne (by decide))]
  rw [if_pos hge, hlane]

theorem guardedFault_unretire (s : State) (l : Nat) :
    guardedFault s l 1 = settle (laneAfter s (unretire s l) l) := by
  have hbits : Nat.testBit 1 0 = true ∧ Nat.testBit 1 1 = false := by decide
  simp [guardedFault, hbits]

theorem guardedFault_clrTotal (s : State) (l : Nat) : guardedFault s l 2 = clearFailTotal s l := by
  have hbits : Nat.testBit 2 0 = false ∧ Nat.testBit 2 1 = true := by decide
  simp [guardedFault, hbits]

theorem ends_unretire {s : State} {r : Req} {l : Fin 512} (h : s.listens r (A.LANE_FAULT_CTRL l.val) = true) :
    Ends (.unretire r l) s (settle (laneAfter (heard s r 2) (unretire (heard s r 2) l.val) l.val)) :=
  ends_guardedWrite (v := 1) rfl h ((guardedEffect_laneFault _ r _ _).trans (guardedFault_unretire _ _))

theorem ends_clrTotal {s : State} {r : Req} {l : Fin 512} (h : s.listens r (A.LANE_FAULT_CTRL l.val) = true) :
    Ends (.clrTotal r l) s (clearFailTotal (heard s r 2) l.val) :=
  ends_guardedWrite (v := 2) rfl h ((guardedEffect_laneFault _ r _ _).trans (guardedFault_clrTotal _ _))

/-- The two totals of LANE.FAULT read 0 when they are cleared. -/
theorem fld_clearFailTotal (s : State) (l : Nat) :
    (clearFailTotal s l).fld (A.LANE_FAULT l) 23 16 = 0 ∧ (clearFailTotal s l).fld (A.LANE_FAULT l) 7 4 = 0 := by
  refine ⟨?_, fld_setFld_self _ _ (by decide) (by decide) (by decide)⟩
  have h := fld_setFld_self s (A.LANE_FAULT l) (hi := 23) (lo := 16) (v := 0) (by decide) (by decide) (by decide)
  simp only [clearFailTotal, State.fld]
  simp only [State.fld] at h
  rw [State.setFld, rd_wr_self]
  generalize (s.setFld (A.LANE_FAULT l) 23 16 0).rd (A.LANE_FAULT l) = w at h ⊢
  simp only [bits, putBits] at h ⊢
  omega

theorem banksKept_clearFailTotal (s : State) (l : Nat) : BanksKept s (clearFailTotal s l) :=
  banksKept_of_eq ((setFld_mem _ _ _ _ _).trans (setFld_mem _ _ _ _ _))
    ((setFld_banks _ _ _ _ _).trans (setFld_banks _ _ _ _ _))

theorem banksKept_heard (s : State) (r : Req) (n : Nat) : BanksKept s (heard s r n) :=
  banksKept_of_eq (heard_mem s r n) (heard_banks s r n)

theorem regsKept_clearFailTotal (s : State) (l : Nat) :
    RegsKept s (clearFailTotal s l) (fun a => decide (a = A.LANE_FAULT l)) :=
  (regsKept_setFld s _ _ _ (by simp)).trans (regsKept_setFld _ _ _ _ (by simp))

end Sys2Proof.Machine

namespace Sys2Proof.Proofs
open Sys2Proof.Machine

/-- Settles O18: each register's own rules decide the write, and the guarded pair reaches LANE.FAULT_CTRL. -/
theorem laneWrites : Obligations.LaneWrites := by
  refine ⟨?ctrl, ?retrain, ?table, ?valid, ?test, ?unretire, ?clear⟩
  case ctrl =>
    intro s r l v h
    have hend := ends_laneWrite (c := .laneCtrlWrite r l v) (v := v.toNat) (o := 0) rfl h rfl l.isLt (by decide) (by decide)
    rwa [Nat.mod_eq_of_lt v.isLt, writePlain_does false (writeEffect_laneCtrl _ _ _ l.isLt)] at hend
  case retrain =>
    intro s r l h
    have hend := ends_laneWrite (c := .retrain r l) (v := s.rd (A.LANE_CTRL l.val) + 0x8000) (o := 0) rfl h rfl l.isLt
      (by decide) (by decide)
    rwa [writePlain_does false (writeEffect_laneCtrl _ _ _ l.isLt)] at hend
  case table =>
    intro s r l m w v h
    have hend := ends_laneWrite (c := .laneEqTableWrite r l m w v) (v := v.toNat) rfl h (laneEqTbl_at _ _ _) l.isLt
      (by omega) (laneEqTbl_offset m w).1
    rw [Nat.mod_eq_of_lt v.isLt] at hend
    exact ends_ofOption hend (writeEffect_laneEqTbl _ r v.toNat l.isLt m w)
  case valid =>
    intro s r l v h
    have hend := ends_laneWrite (c := .laneEqValidWrite r l v) (v := v.toNat) rfl h (laneEqValid_at _) l.isLt
      (by decide) (by decide)
    rw [Nat.mod_eq_of_lt v.isLt] at hend
    exact ends_ofOption hend (writeEffect_laneEqValid _ r v.toNat l.isLt)
  case test =>
    intro s r l v h
    have hend := ends_laneWrite (c := .laneTestWrite r l v) (v := v.toNat) rfl h (laneTest_at _) l.isLt
      (by decide) (by decide)
    rw [Nat.mod_eq_of_lt v.isLt] at hend
    obtain ⟨hdone, hrefused⟩ := ends_refuseIf hend (writeEffect_laneTest _ r v.toNat l.isLt)
    exact ⟨fun hv hp => hdone (by rw [hv, hp]; rfl), fun hbad => hrefused (by simpa using hbad)⟩
  case unretire =>
    intro s r l h
    exact ends_unretire h
  case clear =>
    intro s r l h
    obtain ⟨htotal, hcause⟩ := fld_clearFailTotal (heard s r 2) l.val
    refine (ends_clrTotal h).endsWith_of ⟨htotal, hcause, ?_, ?_⟩ fun _ _ _ ht => ht
    · exact ((regsKept_heard s r 2).mono fun a ha => (Bool.or_eq_false_iff.1 ha).2).trans
        ((regsKept_clearFailTotal _ _).mono fun a ha => (Bool.or_eq_false_iff.1 ha).1)
    · exact fun b i => (banksKept_clearFailTotal _ _ b i).trans (banksKept_heard s r 2 b i)

end Sys2Proof.Proofs
end

section
/-! Ports: writes of their registers, link and quench, negotiation and modules (R92 to R98, R102, R114 to R120). -/

namespace Sys2Proof.Machine

/-- A port's command whose effects settle ends in its step. -/
theorem ends_onPort_settle {c : Instr} {s t : State} {p : Nat} {f : State → State}
    (hc : exec c s = onPort s p fun s => settle (f s)) (h : s.portRuns p = true) (ht : f s = t) : Ends c s (settle t) :=
  ends_of_exec (by rw [hc, onPort_on h, ht])

/-! What PORT.CFG and PORT.CTRL do with a value. -/

theorem portCtrl_at (p : Nat) : A.PORT_CTRL p = A.PORT_CFG p + 8 := by
  simp only [A.PORT_CTRL, A.PORT_CFG]; omega

section Effects
variable (s : State) (r : Req) (v : Nat) {p : Nat} (hp : p < 64)
include hp

theorem writeEffect_portAt {o : Nat} (ho : o < 0x4000) :
    writeEffect s r (A.PORT_CFG p + o) v = writePort s (A.PORT_CFG p + o) v :=
  writeEffect_port s r v (by rw [A.PORT_CFG]; omega) (by rw [A.PORT_CFG]; omega)

theorem writeEffect_portCfg :
    writeEffect s r (A.PORT_CFG p) v =
      refuseIf (portCfgBad s p (v &&& 0x00FF073F)) (.does (settle (writePortCfg s p v))) := by
  obtain ⟨hport, hoff⟩ := port_of_address p (o := 0) (by decide)
  refine (writeEffect_portAt s r v hp (o := 0) (by decide)).trans ?_
  simp only [writePort, hport, hoff, if_true]

theorem writeEffect_portCtrl : writeEffect s r (A.PORT_CTRL p) v = writePortCtrl s p v := by
  obtain ⟨hport, hoff⟩ := port_of_address p (o := 8) (by decide)
  rw [portCtrl_at, writeEffect_portAt s r v hp (by decide)]
  simp only [writePort, hport, hoff]
  rfl

end Effects

/-! The words that set ENABLE, and that set RESTART with ENABLE as it is. -/

theorem enableWord (b : Bool) : (bit01 b).testBit 0 = b ∧ (bit01 b).testBit 1 = false := by
  cases b <;> decide

theorem restartWord (b : Bool) : (2 + bit01 b).testBit 0 = b ∧ (2 + bit01 b).testBit 1 = true := by
  cases b <;> decide

theorem writePortCtrl_enable (s : State) (p : Nat) (b : Bool) :
    writePortCtrl s p (bit01 b) = refuseIf (enableBad s p b) (.does (settle (writeEnable s p b))) := by
  simp [writePortCtrl, enableWord b]

theorem writePortCtrl_restart (s : State) (p : Nat) (b : Bool) :
    writePortCtrl s p (2 + bit01 b) = refuseIf (enableBad s p b) (.does (settle (restartPort (writeEnable s p b) p))) := by
  simp [writePortCtrl, restartWord b]

/-- The words of the commands have 32 bits. -/
theorem restartWord_lt (b : Bool) : 2 + bit01 b < 2 ^ 32 := by cases b <;> decide

theorem enableWord_lt (b : Bool) : bit01 b < 2 ^ 32 := by cases b <;> decide

theorem portEnabled_heard (s : State) (r : Req) (n : Nat) {p : Nat} : portEnabled (heard s r n) p = portEnabled s p := by
  refine bit_heard s r n 0 (Bool.eq_false_iff.2 fun h => ?_)
  simp only [countsHost, Bool.and_eq_true, decide_eq_true_eq] at h
  simp only [A.PORT_CTRL, A.PMC_CTR_LO, A.PMC_CYC_LO] at h
  omega

/-- ENABLE that is as it was changes nothing. -/
theorem writeEnable_same (s : State) (p : Nat) : writeEnable s p (portEnabled s p) = s := if_pos rfl

/-! The link, the quench, negotiation and the module. -/

section Steps
variable {s : State} {p : Nat}

theorem linkUp_ready (hrun : inRun s = true) (hst : portState s p = 1) (ht : typeEff s p ≠ 0) (ht' : typeEff s p ≠ 13)
    (hoff : (s.port p).stage = .off) (hl : lanesServe s p = true) (hm : moduleReady s p = true) :
    linkUp s p = enterUp s p := if_pos ⟨hrun, hst, ht, ht', hoff, hl, hm⟩

theorem anComplete_common {common fec t : Nat} (hn : negotiating s p = true) (hr : s.runs (.anRestart p) = false)
    (hf : (anOrder.find? fun t => advertises s p t && common.testBit t) = some t) :
    anComplete s p common fec =
      markDegraded (takeType (putPort s p { s.port p with fec := commonFec s p fec }) p t) p t := by
  simp only [anComplete, hn, hr, hf, Bool.not_false, Bool.and_self, if_true]

theorem anComplete_none {common : Nat} (fec : Nat) (hn : negotiating s p = true) (hr : s.runs (.anRestart p) = false)
    (hf : (anOrder.find? fun t => advertises s p t && common.testBit t) = none) :
    anComplete s p common fec = s.start (.anRestart p) (1000 * ms) := by
  simp only [anComplete, hn, hr, hf, Bool.not_false, Bool.and_self, if_true]

theorem anRestart_due (h : s.due (.anRestart p) = true) : anRestart s p = startAn (s.stop (.anRestart p)) p := if_pos h

theorem moduleActivated_present (h : (s.port p).present = true) :
    moduleActivated s p = putPort s p { s.port p with modReady := true } := if_pos h

theorem ends_portLinkLoss {p : Fin 64} (h : s.portRuns p.val = true) (hup : portUp s p.val = true) :
    Ends (.portLinkLoss p) s (settle (startQuench s p.val false)) :=
  ends_of_exec ((onPort_on (f := fun s => if portUp s p.val then settle (startQuench s p.val false) else s) h).trans
    (congrArg (done s) (if_pos hup)))

theorem ends_sidebandScan {prs int : BitVec 64} (h : s.awake = true) :
    Ends (.sidebandScan prs int) s (settle (sidebandScan s prs.toNat int.toNat)) :=
  ends_of_exec (onAwake_on (f := fun s => settle (sidebandScan s prs.toNat int.toNat)) h)

end Steps

end Sys2Proof.Machine

namespace Sys2Proof.Proofs
open Sys2Proof.Machine

/-- Settles O19: PORT.CFG and PORT.CTRL decide their writes, and each event is the port's step where its conditions
hold. -/
theorem portCommands : Obligations.PortCommands := by
  refine ⟨?cfg, ?enable, ?restart, ?up, ?loss, ?quench, ?negotiated, ?renegotiate, fun s prs int h => ends_sidebandScan h,
    ?activated⟩
  case cfg =>
    intro s r p v h
    have hend := ends_portWrite (c := .portCfgWrite r p v) (v := v.toNat) (o := 0) rfl h rfl p.isLt (by decide) (by decide)
    rw [Nat.mod_eq_of_lt v.isLt] at hend
    exact ends_refuseIf hend (writeEffect_portCfg _ r v.toNat p.isLt)
  case enable =>
    intro s r p b h
    have hend := ends_portWrite (c := .portEnableWrite r p b) (v := bit01 b) rfl h (portCtrl_at _) p.isLt
      (by decide) (by decide)
    rw [Nat.mod_eq_of_lt (enableWord_lt b)] at hend
    exact ends_refuseIf hend ((writeEffect_portCtrl _ r _ p.isLt).trans (writePortCtrl_enable _ _ b))
  case restart =>
    intro s r p h u hok
    have hend := ends_portWrite (c := .restart r p) (v := 2 + bit01 (portEnabled s p.val)) rfl h (portCtrl_at _) p.isLt
      (by decide) (by decide)
    rw [Nat.mod_eq_of_lt (restartWord_lt _)] at hend
    obtain ⟨hdone, -⟩ := ends_refuseIf hend ((writeEffect_portCtrl _ r _ p.isLt).trans (writePortCtrl_restart _ _ _))
    have hsame : writeEnable u p.val (portEnabled s p.val) = u := by
      rw [← portEnabled_heard s r 1]
      exact writeEnable_same u p.val
    have hrestart := hdone hok
    rwa [hsame] at hrestart
  case up =>
    intro s p h hrun hst ht ht' hoff hl hm
    exact ends_onPort_settle (f := fun s => linkUp s p.val) rfl h (linkUp_ready hrun hst ht ht' hoff hl hm)
  case loss =>
    intro s p h hup
    exact ends_portLinkLoss h hup
  case quench =>
    intro s p h _
    exact ends_onPort_settle (f := fun s => quenchDone s p.val) rfl h rfl
  case negotiated =>
    intro s p common fec h hn hr
    have hc : ∀ {t : State}, anComplete s p.val common.toNat fec.toNat = t →
        Ends (.anComplete p common fec) s (settle t) :=
      ends_onPort_settle (f := fun s => anComplete s p.val common.toNat fec.toNat) rfl h
    exact ⟨fun t ht => hc (anComplete_common hn hr ht), fun ht => hc (anComplete_none _ hn hr ht)⟩
  case renegotiate =>
    intro s p h hd
    exact ends_onPort_settle (f := fun s => anRestart s p.val) rfl h (anRestart_due hd)
  case activated =>
    intro s p h hpres
    exact ends_onFirmware_settle (f := fun s => moduleActivated s p.val) rfl h (moduleActivated_present hpres)

end Sys2Proof.Proofs
end

section
/-! The line code (R72 to R75): what a receiver makes of what a transmitter of the same mode, precoding and polarity puts on
the line. -/

namespace Sys2Proof.Machine

/-! Gray mapping (R72). -/

theorem grayBits_grayLevel (a b : Bool) : grayBits (grayLevel a b) = (a, b) := by revert a b; decide

theorem grayLevel_lt (a b : Bool) : grayLevel a b < 4 := by revert a b; decide

theorem grayMap_lt (b : List Bool) : ∀ x ∈ grayMap b, x < 4 := by
  induction b using grayMap.induct with
  | case1 a b l ih => exact List.forall_mem_cons.2 ⟨grayLevel_lt a b, ih⟩
  | case2 l h => simp [grayMap]

/-- A stream of an even number of bits is what its levels stand for. -/
theorem grayUnmap_grayMap {b : List Bool} (h : b.length % 2 = 0) : grayUnmap (grayMap b) = b := by
  induction b using grayMap.induct with
  | case1 a b l ih =>
    have hl : l.length % 2 = 0 := by simp only [List.length_cons] at h; omega
    simp [grayMap, grayUnmap, grayBits_grayLevel, ih hl]
  | case2 l hl =>
    match l, hl, h with
    | [], _, _ => rfl
    | [_], _, h => cases h
    | a :: b :: l, hl, _ => exact (hl a b l rfl).elim

/-! Precoding (R72, R73), and polarity (R75). -/

theorem precode_lt (last : Nat) (l : List Nat) : ∀ x ∈ precode last l, x < 4 := by
  induction l generalizing last with
  | nil => simp [precode]
  | cons x l ih => exact List.forall_mem_cons.2 ⟨Nat.mod_lt _ (by decide), ih _⟩

theorem unprecode_precode {l : List Nat} (h : ∀ x ∈ l, x < 4) (last : Nat) : unprecode last (precode last l) = l := by
  induction l generalizing last with
  | nil => rfl
  | cons x l ih =>
    obtain ⟨hx, hl⟩ := List.forall_mem_cons.1 h
    have hsum : ((x + 4 - last % 4) % 4 + last) % 4 = x := by omega
    simp only [precode, unprecode, hsum, ih hl]

/-- A level inverted twice is the level. -/
theorem invert_invert {l : List Nat} (h : ∀ x ∈ l, x < 4) : (l.map (3 - ·)).map (3 - ·) = l := by
  rw [List.map_map]
  refine (List.map_congr_left fun x hx => ?_).trans (List.map_id l)
  have hx' := h x hx
  simp only [Function.comp_apply, id_eq]
  omega

/-- The levels that a PAM4 transmitter sends before its polarity: precoded or not. -/
def pamLevels (pre : Bool) (last : Nat) (b : List Bool) : List Nat :=
  if pre then precode last (grayMap b) else grayMap b

theorem pamLevels_lt (pre : Bool) (last : Nat) (b : List Bool) : ∀ x ∈ pamLevels pre last b, x < 4 := by
  cases pre
  · exact grayMap_lt b
  · exact precode_lt last _

/-- The bits that the levels stand for. -/
theorem grayUnmap_pamLevels (pre : Bool) (last : Nat) {b : List Bool} (h : b.length % 2 = 0) :
    grayUnmap (if pre then unprecode last (pamLevels pre last b) else pamLevels pre last b) = b := by
  cases pre
  · exact grayUnmap_grayMap h
  · exact (congrArg grayUnmap (unprecode_precode (grayMap_lt b) last)).trans (grayUnmap_grayMap h)

/-! A lane's line. -/

theorem lineSymbols_pam {s : State} {l : Nat} (last : Nat) (b : List Bool) (h : isPam4 (laneMode s l) = true) :
    lineSymbols s l last b = if s.bit (A.LANE_CTRL l) 3 then (pamLevels (laneFlag s l 16) last b).map (3 - ·)
      else pamLevels (laneFlag s l 16) last b := by
  simp only [lineSymbols, h, if_true, pamLevels]

theorem lineBits_pam {r : State} {m : Nat} (last : Nat) (sym : List Nat) (h : isPam4 (laneMode r m) = true) :
    lineBits r m last sym =
      let sym := if rxInverted r m then sym.map (3 - ·) else sym
      grayUnmap (if laneFlag r m 15 then unprecode last sym else sym) := by
  simp only [lineBits, h, if_true]

/-- An NRZ receiver takes back the bits of an NRZ transmitter of its polarity. -/
theorem nrz_roundTrip (inv : Bool) (b : List Bool) :
    (b.map fun x => bit01 (x ^^ inv)).map (fun x => decide (x % 2 = 1) ^^ inv) = b := by
  have hbit : ∀ x : Bool, (decide (bit01 (x ^^ inv) % 2 = 1) ^^ inv) = x := by revert inv; decide
  rw [List.map_map]
  exact (List.map_congr_left fun x _ => hbit x).trans (List.map_id b)

theorem lineBits_lineSymbols {s r : State} {l m : Nat} (last : Nat) {b : List Bool}
    (hmode : isPam4 (laneMode s l) = isPam4 (laneMode r m)) (hpre : laneFlag s l 16 = laneFlag r m 15)
    (hinv : s.bit (A.LANE_CTRL l) 3 = rxInverted r m) (hb : isPam4 (laneMode s l) = true → b.length % 2 = 0) :
    lineBits r m last (lineSymbols s l last b) = b := by
  by_cases hpam : isPam4 (laneMode s l) = true
  · have hundone : (if rxInverted r m then (lineSymbols s l last b).map (3 - ·) else lineSymbols s l last b) =
        pamLevels (laneFlag r m 15) last b := by
      rw [lineSymbols_pam last b hpam, hinv, hpre]
      cases rxInverted r m
      · rfl
      · exact invert_invert (pamLevels_lt _ last b)
    rw [lineBits_pam last _ (hmode ▸ hpam)]
    simp only [hundone]
    exact grayUnmap_pamLevels _ last (hb hpam)
  · have hpam' : ¬ isPam4 (laneMode r m) = true := hmode ▸ hpam
    rw [lineBits, if_neg hpam', lineSymbols, if_neg hpam, hinv]
    exact nrz_roundTrip _ b

/-! The scrambler (R74). -/

theorem descramble_scramble (past b : List Bool) : descramble past (scramble past b) = b := by
  induction b generalizing past with
  | nil => rfl
  | cons x l ih =>
    have hxor : ∀ x y z : Bool, (x ^^ y ^^ z ^^ y ^^ z) = x := by decide
    simp only [scramble, descramble, hxor, ih]

theorem block66_eq (c : Bool) (past b : List Bool) : block66 c past b = c :: (!c) :: scramble past b := by
  cases c <;> rfl

theorem validHeader_syncHeader (c : Bool) : validHeader (syncHeader c) = true := by revert c; decide

end Sys2Proof.Machine
end

section
/-! What markers and step-up pages carry (R99, R103, R135): their fields at their offsets, as a receiver finds them. -/

namespace Sys2Proof.Machine

/-! Markers. -/

/-- A marker's bytes before its CHECK: SIG, and what it says of its lane and set. -/
def markerHead (lane active mseq : Nat) : List Nat := [0x4D, 0x52, 0x4B, lane, active, mseq]

/-- A marker's bytes behind its CHECK: PHASE, and the credits. -/
def markerRest (t : Nat) (cred : List Nat) : List Nat :=
  beBytes 2 (t / secUnits % 65536) ++ (beBytes 4 (t % secUnits / 65536) ++ (beBytes 2 (t % 65536) ++
    cred.flatMap fun c => beBytes 2 c))

theorem markerBytes_eq (lane active mseq t : Nat) (cred : List Nat) :
    markerBytes lane active mseq t cred = markerHead lane active mseq ++
      (beBytes 2 (crc32c (markerHead lane active mseq ++ markerRest t cred) % 65536) ++ markerRest t cred) := by
  simp only [markerBytes, markerHead, markerRest, List.append_assoc]

theorem markerRest_length (t : Nat) (cred : List Nat) : (markerRest t cred).length = 8 + 2 * cred.length := by
  have hcred : (cred.flatMap fun c => beBytes 2 c).length = 2 * cred.length := by
    simp [List.length_flatMap, Nat.mul_comm]
  simp only [markerRest, List.length_append, beBytes_length, hcred]
  omega

theorem markerValid_markerBytes {lane : Nat} (active mseq t : Nat) (cred : List Nat) (h : lane < 8) :
    markerValid (markerBytes lane active mseq t cred) = true := by
  have he := markerBytes_eq lane active mseq t cred
  have hcheck : beAt (markerBytes lane active mseq t cred) 6 2 =
      crc32c (markerHead lane active mseq ++ markerRest t cred) % 65536 :=
    beAt_of_split he rfl (Nat.mod_lt _ (by decide))
  have hbytes : (markerBytes lane active mseq t cred).take 6 ++ (markerBytes lane active mseq t cred).drop 8 =
      markerHead lane active mseq ++ markerRest t cred := by
    rw [he, ← List.append_assoc, List.drop_left' (by simp [markerHead]), List.append_assoc,
      List.take_left' (by simp [markerHead])]
  have hsig : (markerBytes lane active mseq t cred).take 3 = [0x4D, 0x52, 0x4B] := rfl
  have hlane : (markerBytes lane active mseq t cred).getD 3 0 ≤ 7 := Nat.le_of_lt_succ h
  rw [beAt] at hcheck
  simp only [markerValid, hsig, hlane, hbytes, hcheck, decide_true, Bool.and_self]

/-! PHASE (R135). -/

/-- The signed difference of two 16-bit seconds is that of the seconds, where these are near. -/
theorem toSigned_near {a b : Nat} (h : (a : Int) < b + 32768) (h' : (b : Int) ≤ a + 32768) :
    toSigned 16 (a % 65536 + 65536 - b % 65536) = (a : Int) - b := by
  unfold toSigned
  split <;> omega

/-- Bytes whose PHASE is that of the time `t`. -/
structure PhaseOf (b : List Nat) (t : Nat) : Prop where
  seconds : beNat (slice b 8 2) = t / secUnits % 65536
  nanos : beNat (slice b 10 4) = t % secUnits / 65536
  fraction : beNat (slice b 14 2) = t % 65536

theorem phaseOf_markerBytes (lane active mseq t : Nat) (cred : List Nat) :
    PhaseOf (markerBytes lane active mseq t cred) t := by
  have he := markerBytes_eq lane active mseq t cred
  generalize markerBytes lane active mseq t cred = b at he ⊢
  generalize hc : beBytes 2 (crc32c _ % 65536) = check at he
  generalize hcr : (cred.flatMap fun c => beBytes 2 c) = credits at *
  have hlen : check.length = 2 := by rw [← hc, beBytes_length]
  simp only [markerRest, hcr] at he
  have hns : t % secUnits / 65536 < 256 ^ 4 := by simp only [secUnits]; omega
  exact {
    seconds := beAt_of_split (p := markerHead lane active mseq ++ check) (by rw [he, List.append_assoc])
      (by simp [markerHead, hlen]) (by omega)
    nanos := beAt_of_split (p := markerHead lane active mseq ++ (check ++ beBytes 2 (t / secUnits % 65536)))
      (q := beBytes 2 (t % 65536) ++ credits) (by simp only [he, List.append_assoc]) (by simp [markerHead, hlen]) hns
    fraction := beAt_of_split (p := markerHead lane active mseq ++ (check ++ (beBytes 2 (t / secUnits % 65536) ++
        beBytes 4 (t % secUnits / 65536)))) (q := credits) (by simp only [he, List.append_assoc])
      (by simp [markerHead, hlen]) (by omega) }

/-- A receiver whose seconds are near reads the time from PHASE. -/
theorem extendPhase_near {b : List Nat} {t now : Nat} (hb : PhaseOf b t) (ht : t < ftWrap)
    (h : (t / secUnits : Int) < now / secUnits + 32768) (h' : (now / secUnits : Int) ≤ t / secUnits + 32768) :
    extendPhase now b = t := by
  obtain ⟨hsec, hns, hfrac⟩ := hb
  have hd : toSigned 16 (t / secUnits % 65536 + 65536 - now / secUnits % 65536) =
      ((t / secUnits : Nat) : Int) - (now / secUnits : Nat) :=
    toSigned_near (by simpa using h) (by simpa using h')
  have hs : t / secUnits < 2 ^ 48 := Nat.div_lt_of_lt_mul (by rw [Nat.mul_comm]; exact ht)
  simp only [extendPhase, hsec, hns, hfrac, hd]
  rw [add_sub_cancel, Int.emod_eq_of_lt (Int.natCast_nonneg _) (by exact_mod_cast hs), Int.toNat_natCast]
  simp only [secUnits]
  omega

/-! Step-up pages (R99). -/

/-- A page without its CHECK. -/
def pageFront (s : State) (p : Nat) : List Nat :=
  [0x53, 0x55, 0x50, 1] ++ (beBytes 2 (s.fld A.GLB_NODE_ID 15 0) ++ ([0x00, 0x64, p, (s.port p).caps, (s.port p).kmax,
    bit01 (s.port p).acked + 2 * bit01 (s.port p).conflict] ++ List.replicate 16 0))

theorem pageBytes_eq (s : State) (p : Nat) : pageBytes s p = pageFront s p ++ beBytes 4 (crc32c (pageFront s p)) := by
  simp only [pageBytes, pageFront, List.append_assoc]

theorem pageFront_length (s : State) (p : Nat) : (pageFront s p).length = 28 := by simp [pageFront]

theorem pageBytes_length (s : State) (p : Nat) : (pageBytes s p).length = 32 := by
  simp [pageBytes_eq, pageFront_length]

/-- What a receiver finds in a page, field by field. -/
structure PageFields (b : List Nat) (s : State) (p : Nat) : Prop where
  sign : b.take 4 = [0x53, 0x55, 0x50, 1]
  node : beNat (slice b 4 2) = s.fld A.GLB_NODE_ID 15 0
  port : b.getD 8 0 = p
  caps : b.getD 9 0 = (s.port p).caps
  kmax : b.getD 10 0 = (s.port p).kmax
  zeros : slice b 12 16 = List.replicate 16 0
  check : beNat (slice b 28 4) = crc32c (b.take 28)

theorem pageBytes_fields (s : State) (p : Nat) : PageFields (pageBytes s p) s p := by
  have he := pageBytes_eq s p
  have hnode : s.fld A.GLB_NODE_ID 15 0 < 256 ^ 2 := bits_lt _ 15 0
  have hcrc : crc32c (pageFront s p) < 256 ^ 4 := crc32c_lt _
  exact {
    sign := rfl
    node := beAt_of_split (p := [0x53, 0x55, 0x50, 1]) (by rw [he, pageFront, List.append_assoc, List.append_assoc]) rfl hnode
    port := rfl
    caps := rfl
    kmax := rfl
    zeros := slice_of_split (p := [0x53, 0x55, 0x50, 1] ++ (beBytes 2 (s.fld A.GLB_NODE_ID 15 0) ++ [0x00, 0x64, p,
        (s.port p).caps, (s.port p).kmax, bit01 (s.port p).acked + 2 * bit01 (s.port p).conflict]))
      (q := beBytes 4 (crc32c (pageFront s p))) (by rw [he]; simp only [pageFront, List.append_assoc]) (by simp) rfl
    check := by
      have htake : (pageBytes s p).take 28 = pageFront s p := by rw [he, List.take_left' (pageFront_length s p)]
      rw [htake]
      exact beAt_of_split (q := []) (by rw [he, List.append_nil]) (pageFront_length s p) hcrc }

theorem pageValid_pageBytes {s : State} {p : Nat} (h : (s.port p).kmax ∈ ([1, 2, 4, 8] : List Nat)) :
    pageValid (pageBytes s p) = true := by
  obtain ⟨sign, -, -, -, kmax, zeros, check⟩ := pageBytes_fields s p
  simp only [pageValid, sign, kmax, zeros, check, h, decide_true, Bool.and_self]

/-! The blocks that carry a page. -/

theorem slice_append (l : List Nat) (i m n : Nat) : slice l i m ++ slice l (i + m) n = slice l i (m + n) := by
  simp [slice, List.range_add, Function.comp_def, Nat.add_assoc]

/-- A list cut into pieces of one length, put together again. -/
theorem flatMap_slice (l : List Nat) (k n : Nat) :
    ((List.range n).flatMap fun i => slice l (k * i) k) = slice l 0 (k * n) := by
  induction n with
  | zero => rfl
  | succ n ih =>
    rw [List.range_succ, List.flatMap_append, ih, Nat.mul_succ, ← slice_append, Nat.zero_add, List.flatMap_singleton]

theorem slice_whole (l : List Nat) : slice l 0 l.length = l :=
  slice_of_split (p := []) (q := []) (by simp) rfl rfl

theorem toNats_ofNats {l : List Nat} (h : ∀ x ∈ l, x < 256) : toNats (ofNats l) = l := by
  rw [toNats, ofNats, List.map_map]
  refine (List.map_congr_left fun x hx => ?_).trans (List.map_id l)
  simp [Nat.mod_eq_of_lt (h x hx)]

/-- The blocks of a page give its bytes back. -/
theorem pageOf_pageBlocks {b : List Nat} (hlen : b.length = 32) (hb : ∀ x ∈ b, x < 256) :
    pageOf ((pageBlocks b).map fun x => (BitVec.ofNat 2 x.1, ofNats x.2)) = some b := by
  have hall : ((pageBlocks b).map fun x => (BitVec.ofNat 2 x.1, ofNats x.2)).all
      (fun x => decide (x.1.toNat = syncHeader true)) = true := by
    simp [pageBlocks, syncHeader]
  have hbytes : (((pageBlocks b).map fun x => (BitVec.ofNat 2 x.1, ofNats x.2)).flatMap fun x => x.2) = ofNats b := by
    have hcut : ((List.range 4).flatMap fun i => slice b (8 * i) 8) = b := by
      rw [flatMap_slice, show 8 * 4 = b.length from hlen.symm, slice_whole]
    rw [pageBlocks, List.map_map, List.flatMap_map]
    conv_rhs => rw [← hcut, ofNats, List.map_flatMap]
    rfl
  rw [pageOf, if_pos hall, hbytes, toNats_ofNats hb]

theorem leBytes_lt (n v : Nat) : ∀ x ∈ leBytes n v, x < 256 := by
  induction n generalizing v with
  | zero => simp [leBytes]
  | succ n ih => exact List.forall_mem_cons.2 ⟨Nat.mod_lt _ (by decide), ih _⟩

theorem beBytes_lt (n v : Nat) : ∀ x ∈ beBytes n v, x < 256 := fun x hx => leBytes_lt n v x (List.mem_reverse.1 hx)

/-- The numbers of a page whose fields fit are bytes. -/
theorem pageBytes_lt {s : State} {p : Nat} (hp : p < 64) (hc : (s.port p).caps < 256) (hk : (s.port p).kmax < 256) :
    ∀ x ∈ pageBytes s p, x < 256 := by
  have hflags : bit01 (s.port p).acked + 2 * bit01 (s.port p).conflict < 256 := by
    cases (s.port p).acked <;> cases (s.port p).conflict <;> decide
  rw [pageBytes_eq, pageFront]
  simp only [List.forall_mem_append]
  refine ⟨⟨by decide, beBytes_lt _ _, ?_, by decide⟩, beBytes_lt _ _⟩
  simp only [List.forall_mem_cons, List.not_mem_nil, false_implies, implies_true, and_true]
  omega

end Sys2Proof.Machine

namespace Sys2Proof.Proofs
open Sys2Proof.Machine

/-- Settles O50: each step of the line code has its inverse, and the fields of a marker and of a page stand where their
receivers look for them. -/
theorem lineCodeRoundTrip : Obligations.LineCodeRoundTrip := by
  refine ⟨?line, descramble_scramble, fun c past b => ⟨validHeader_syncHeader c, block66_eq c past b⟩,
    fun b h => ⟨grayUnmap_grayMap h, grayMap_lt b⟩, ?marker, ?page⟩
  case line =>
    intro s r l m last b hmode hpre hinv hb
    exact lineBits_lineSymbols last hmode hpre hinv hb
  case marker =>
    intro lane active mseq t cred h
    refine ⟨markerValid_markerBytes active mseq t cred h, rfl, rfl, rfl, fun hc => ?_, fun now ht _ hlo hhi =>
      extendPhase_near (phaseOf_markerBytes lane active mseq t cred) ht hlo hhi⟩
    rw [markerBytes_eq, List.length_append, List.length_append, beBytes_length, markerRest_length, hc]
    rfl
  case page =>
    intro s p hk
    obtain ⟨-, node, port, caps, kmax, -, -⟩ := pageBytes_fields s p
    refine ⟨pageValid_pageBytes hk, pageBytes_length s p, node, port, caps, kmax, fun hp hc => ?_⟩
    refine pageOf_pageBlocks (pageBytes_length s p) (pageBytes_lt hp hc ?_)
    simp only [List.mem_cons, List.not_mem_nil, or_false] at hk
    omega

end Sys2Proof.Proofs
end

section
/-! Pauses, MAC control frames and step-up (R96, R99 to R102, R113, R262, R265). -/

namespace Sys2Proof.Machine

/-- A port's command ends in its step. -/
theorem ends_onPort {c : Instr} {s t : State} {p : Nat} {f : State → State} (hc : exec c s = onPort s p f)
    (h : s.portRuns p = true) (ht : f s = t) : Ends c s t := ends_of_exec (by rw [hc, onPort_on h, ht])

/-! A timer that stops, and a 64-bit counter. -/

theorem timer_stop_ne (s : State) {t x : Timer} (h : x ≠ t) : (s.stop t).timer x = s.timer x := by
  simp only [State.timer, State.stop, List.find?_filter]
  congr 2
  funext e
  by_cases he : e.1 = x
  · simp [he, h]
  · simp [he]

theorem rd64_add64 (s : State) (a n : Nat) : (s.add64 a n).rd64 a = (s.rd64 a + n) % 2 ^ 64 := by
  have hlow : (s.add64 a n).rd a = (s.rd64 a + n) % 2 ^ 32 := by
    rw [State.add64, State.wr64, rd_wr_ne _ _ (by omega), rd_wr_self]
  have hhigh : (s.add64 a n).rd (a + 4) = (s.rd64 a + n) / 2 ^ 32 % 2 ^ 32 := rd_wr_self _ _ _
  rw [State.rd64, hlow, hhigh]
  omega

/-- A count in a 64-bit counter keeps every other register. -/
theorem regsKept_add64_own (s : State) (a n : Nat) :
    RegsKept s (s.add64 a n) (fun b => decide (b = a) || decide (b = a + 4)) :=
  regsKept_add64 s n (by simp) (by simp)

theorem banksKept_add64 (s : State) (a n : Nat) : BanksKept s (s.add64 a n) :=
  banksKept_of_eq (add64_mem s a n) (add64_banks s a n)

section Pauses
variable {s : State} {p : Nat}

/-! Pauses (R113, R262, R265) and other MAC control frames (R96). -/

/-- A PFC frame that acts on no class is counted, and so is one that a trunk receives. -/
theorem pfcReceive_counted {v : Nat} (q : List Nat) (hup : portUp s p = true) :
    let u := s.pmcEvent (runnerOfPort p) (0x045 + 16 * (p % 4)) 1
    isTrunk u p = true ∨ (pfcActs u p v).isEmpty = true →
    pfcReceive s p v q = u.add64 (A.PORT_PAUSE_RX_LO p) 1 := by
  intro u hno
  rw [pfcReceive, if_neg (by simp [hup])]
  exact if_pos (by simpa using hno)

theorem pfcReceive_acts {v : Nat} (q : List Nat) (hup : portUp s p = true) :
    let u := s.pmcEvent (runnerOfPort p) (0x045 + 16 * (p % 4)) 1
    isTrunk u p = false → (pfcActs u p v).isEmpty = false →
    pfcReceive s p v q = (pfcActs u p v).foldl (fun s c =>
      let n := q.getD c 0
      if n = 0 then s.stop (.pfcPause p c) else s.start (.pfcPause p c) (pauseNs s p n)) u := by
  intro u ht ha
  rw [pfcReceive, if_neg (by simp [hup])]
  exact if_neg (by rw [ht, ha]; decide)

theorem pfcExpire_due {c : Nat} (h : s.due (.pfcPause p c) = true) : pfcExpire s p c = s.stop (.pfcPause p c) := if_pos h

theorem macControl_up (h : portUp s p = true) : macControl s p = s.add64 (A.PORT_PAUSE_RX_LO p) 1 := if_pos h

theorem pfcRepeatTick_due {c : Nat} (h : s.due (.pfcRepeat p c) = true) (hup : portUp s p = true) :
    pfcRepeatTick s p c = sendPfc (s.stop (.pfcRepeat p c)) p c (pfcQuanta s) := if_pos (by rw [h, hup]; rfl)

theorem ends_macControlRx {p : Fin 64} {o : BitVec 16} (h : s.portRuns p.val = true) (hup : portUp s p.val = true)
    (ho : o ≠ 0x0101) : Ends (.macControlRx p o) s (s.add64 (A.PORT_PAUSE_RX_LO p.val) 1) :=
  ends_onPort (f := fun s => if o = 0x0101 then s else macControl s p.val) rfl h ((if_neg ho).trans (macControl_up hup))

/-! The blocks of a page (R99, R100). -/

/-- Among the blocks of a page is no data block. -/
theorem pageOf_none {blocks : List (BitVec 2 × List Byte)} (h : ∃ x ∈ blocks, x.1 ≠ 0b10) : pageOf blocks = none := by
  obtain ⟨x, hx, hne⟩ := h
  refine if_neg fun hall => hne (BitVec.eq_of_toNat_eq ?_)
  exact of_decide_eq_true (List.all_eq_true.1 hall x hx)

/-- What four blocks of port lane 0 do. -/
def pageBlocksRx (p : Nat) (blocks : List (BitVec 2 × List Byte)) (s : State) : State :=
  match pageOf blocks with | some b => settle (stepUpPage s p b) | none => s

theorem ends_stepupPageRx {t : State} {p : Fin 64} {blocks : List (BitVec 2 × List Byte)} (h : s.portRuns p.val = true)
    (ht : pageBlocksRx p.val blocks s = t) : Ends (.stepupPageRx p blocks) s t :=
  ends_onPort (f := pageBlocksRx p.val blocks) rfl h ht

theorem pageBlocksRx_page {blocks : List (BitVec 2 × List Byte)} {b : List Nat} (h : pageOf blocks = some b) :
    pageBlocksRx p blocks s = settle (stepUpPage s p b) := by rw [pageBlocksRx, h]

theorem pageBlocksRx_noPage {blocks : List (BitVec 2 × List Byte)} (h : pageOf blocks = none) :
    pageBlocksRx p blocks s = s := by
  rw [pageBlocksRx, h]

/-! The stages of step-up and their limits (R102). -/

theorem stepUpNoPartner_due (h : s.due (.suPartner p) = true) : stepUpNoPartner s p = enterHeld s p 4 := if_pos h

theorem stepUpSlowOk_served (hst : (s.port p).stage = .slow) (hb : portState s p = 1) (hl : lanesServe s p = true) :
    stepUpSlowOk s p = (setStage (s.stop (.suSlow p)) p .qual).start (.suQual p) (100 * ms) := if_pos ⟨hst, hb, hl⟩

theorem stepUpSlowOut_due (h : s.due (.suSlow p) = true) : stepUpSlowOut s p = startNrz (portEvent s p 128) p := if_pos h

theorem stepUpQualified_fast (h : s.due (.suQual p) = true) (hf : (s.port p).fast = true) :
    stepUpQualified s p = (takeType (setStage (stopPort s p) p .fast) p (typeOfWidth 5 (s.port p).width)).start
      (.suFast p) (1000 * ms) := (if_pos h).trans (if_pos hf)

/-- The port comes UP at the width that step-up agreed on, narrower than its type or not (R118). -/
def upAtWidth (s : State) (p : Nat) : State :=
  enterUp (if (s.port p).width < typeLanes (portType s p) then markDegraded s p (typeEff s p) else s) p

theorem stepUpQualified_slow (h : s.due (.suQual p) = true) (hf : (s.port p).fast = false) (hm : moduleReady s p = true) :
    stepUpQualified s p = upAtWidth s p := by
  rw [stepUpQualified, if_pos h, if_neg (by simp [hf]), if_pos hm, upAtWidth]

theorem stepUpFastOk_served (hst : (s.port p).stage = .fast) (hb : portState s p = 1) (hl : lanesServe s p = true)
    (hm : moduleReady s p = true) (hd : s.due (.suFast p) = false) : stepUpFastOk s p = upAtWidth s p :=
  if_pos ⟨hst, hb, hl, hm, by rw [hd]; rfl⟩

theorem stepUpFastOut_due (h : s.due (.suFast p) = true) :
    let u := portEvent (s.setBit (A.PORT_STAT p) 8 true) p 128
    stepUpFastOut s p = startSlow (putPort u p { s.port p with fast := false }) p := if_pos h

theorem stepUpRetry_due (h : s.due (.holdRetry p) = true) : stepUpRetry s p = bringUp s p := if_pos h

theorem stepUpCodeword_qual (hst : (s.port p).stage = .qual) (hb : portState s p = 1) :
    stepUpCodeword s p = s.start (.suQual p) (100 * ms) := if_pos ⟨hst, hb⟩

theorem stepUpFault_qual (hst : (s.port p).stage = .qual) (hb : portState s p = 1) :
    stepUpFault s p = (setStage (s.stop (.suQual p)) p .slow).start (.suSlow p) (1000 * ms) := if_pos ⟨hst, hb⟩

end Pauses

end Sys2Proof.Machine

namespace Sys2Proof.Proofs
open Sys2Proof.Machine

/-- Settles O20: each command is the port's step, where its own conditions hold. -/
theorem pauseAndStepUpCommands : Obligations.PauseAndStepUpCommands := by
  refine ⟨?pfc, ?expiry, ?control, ?again, ?page, ?noPartner, ?slowOk, ?slowOut, ?qualified, ?fastOk, ?fastOut, ?retry,
    ?codeword, ?fault⟩
  case pfc =>
    intro s p v q h hup u
    have hc : ∀ {t : State}, pfcReceive s p.val v.toNat (q.toList.map (·.toNat)) = t → Ends (.pfcFrameRx p v q) s t :=
      ends_onPort (f := fun s => pfcReceive s p.val v.toNat (q.toList.map (·.toNat))) rfl h
    exact ⟨fun hno => hc (pfcReceive_counted _ hup hno), fun ht ha => hc (pfcReceive_acts _ hup ht ha)⟩
  case expiry =>
    intro s p c h hd
    have hend : Ends (.pfcPauseExpiry p c) s _ :=
      ends_onPort (f := fun s => pfcExpire s p.val c.val) rfl h (pfcExpire_due hd)
    exact hend.endsWith_of ⟨runs_stop_self s _, fun _ hx => timer_stop_ne s hx, RegsKept.refl s _, fun _ _ => rfl⟩
      fun _ _ _ ht => ht
  case control =>
    intro s p o h hup ho
    exact (ends_macControlRx h hup ho).endsWith_of ⟨rd64_add64 s _ 1, regsKept_add64_own s _ 1, banksKept_add64 s _ 1,
      add64_timers s _ 1⟩ fun _ _ _ ht => ht
  case again =>
    intro s p c h hd hup
    exact ends_onPort (f := fun s => pfcRepeatTick s p.val c.val) rfl h (pfcRepeatTick_due hd hup)
  case page =>
    intro s p blocks h _ _
    exact ⟨fun b hb _ => ends_stepupPageRx h (pageBlocksRx_page hb),
      fun hdata => ends_stepupPageRx h (pageBlocksRx_noPage (pageOf_none hdata))⟩
  case noPartner =>
    intro s p h hd
    exact ends_onPort_settle (f := fun s => stepUpNoPartner s p.val) rfl h (stepUpNoPartner_due hd)
  case slowOk =>
    intro s p h hst hb hl
    exact ends_onPort_settle (f := fun s => stepUpSlowOk s p.val) rfl h (stepUpSlowOk_served hst hb hl)
  case slowOut =>
    intro s p h hd
    exact ends_onPort_settle (f := fun s => stepUpSlowOut s p.val) rfl h (stepUpSlowOut_due hd)
  case qualified =>
    intro s p h hd
    have hc : ∀ {t : State}, stepUpQualified s p.val = t → Ends (.stepupQualDone p) s (settle t) :=
      ends_onPort_settle (f := fun s => stepUpQualified s p.val) rfl h
    exact ⟨fun hf => hc (stepUpQualified_fast hd hf), fun hf hm => hc (stepUpQualified_slow hd hf hm)⟩
  case fastOk =>
    intro s p h hst hb hl hm hd
    exact ends_onPort_settle (f := fun s => stepUpFastOk s p.val) rfl h (stepUpFastOk_served hst hb hl hm hd)
  case fastOut =>
    intro s p h hd
    exact ends_onPort_settle (f := fun s => stepUpFastOut s p.val) rfl h (stepUpFastOut_due hd)
  case retry =>
    intro s p h hd
    exact ends_onPort_settle (f := fun s => stepUpRetry s p.val) rfl h (stepUpRetry_due hd)
  case codeword =>
    intro s p h hst hb
    have hend : Ends (.stepupQualCodewordError p) s _ :=
      ends_onPort (f := fun s => stepUpCodeword s p.val) rfl h (stepUpCodeword_qual hst hb)
    exact hend.endsWith ⟨timer_start_self s _ _, RegsKept.refl s _, fun _ _ => rfl⟩
  case fault =>
    intro s p h hst hb
    exact ends_onPort_settle (f := fun s => stepUpFault s p.val) rfl h (stepUpFault_qual hst hb)

end Sys2Proof.Proofs
end

section
/-! Trunks: markers, link blocks, HELLOs and the limits of bring-up (R103 to R112). -/

namespace Sys2Proof.Machine

section Steps
variable {s : State} {p : Nat}

theorem markerRx_valid {j : Nat} {b : List Nat} (n t : Nat) (hrun : runsTrunk s p = true)
    (hserve : inService s (8 * p + j) = true) (hst : trunkState s p ≠ 0) (hb : markerValid b = true) :
    markerRx s p j n 2 b t = goodMarker s p j n b t := by
  simp [markerRx, hrun, hserve, hst, hb]

/-! The next link block (R107 to R109, R111, R297, R344). -/

/-- The link block that leaves where the link is on and the window of the block, if one is due, is open: its order of
choice. -/
def sendNext (s : State) (p : Nat) : State :=
  match sendableLl s p, (s.trunk p).goback, sendable s p with
  | c :: _, _, _ => sendData s p c
  | [], some x, _ => resend s p x
  | [], none, [] => sendNull s p
  | [], none, c :: l =>
    if actionWaits s p then sendData s p 7 else let (d, s) := s.pick c (c :: l); sendData s p d

theorem blockTx_hello (hc : canSend s p = true) (hst : trunkState (startBlock s p) p = 2) :
    blockTx s p = sendNull (startBlock s p) p := by simp [blockTx, hc, hst]

theorem blockTx_linkOn (hc : canSend s p = true) (hst : trunkState (startBlock s p) p ≠ 2)
    (hl : linkOn (startBlock s p) p = true) : blockTx s p = sendNext (windowOpen (startBlock s p) p none) p := by
  have hc' : ¬(!canSend s p) = true := by simp [hc]
  have hl' : ¬(!linkOn (startBlock s p) p) = true := by simp [hl]
  rw [blockTx, if_neg hc']
  exact (if_neg hst).trans (if_neg hl')

theorem sendNext_latencyLocked {c : Nat} {l : List Nat} (h : sendableLl s p = c :: l) :
    sendNext s p = sendData s p c := by simp only [sendNext, h]

section NoLatencyLocked
variable (h : sendableLl s p = [])
include h

theorem sendNext_resend {x : Nat} (hg : (s.trunk p).goback = some x) : sendNext s p = resend s p x := by
  simp only [sendNext, h, hg]

theorem sendNext_null (hg : (s.trunk p).goback = none) (hs : sendable s p = []) : sendNext s p = sendNull s p := by
  simp only [sendNext, h, hg, hs]

/-- The record of a timed action makes its class one that may send. -/
theorem sendNext_action (hg : (s.trunk p).goback = none) (ha : actionWaits s p = true) :
    sendNext s p = sendData s p 7 := by
  have hmem : 7 ∈ sendable s p := of_decide_eq_true (Bool.and_eq_true_iff.1 ha).1
  obtain ⟨c, l, hs⟩ := List.exists_cons_of_ne_nil (List.ne_nil_of_mem hmem)
  simp only [sendNext, h, hg, hs, ha, if_true]

/-- The only class that may send is the one of a timed action, where such an action waits. -/
theorem sendNext_only {c : Nat} (hg : (s.trunk p).goback = none) (hs : sendable s p = [c]) :
    sendNext s p = sendData s p c := by
  by_cases ha : actionWaits s p = true
  · have hmem : 7 ∈ sendable s p := of_decide_eq_true (Bool.and_eq_true_iff.1 ha).1
    have hc : 7 = c := by rwa [hs, List.mem_singleton] at hmem
    rw [← hc]
    exact sendNext_action h hg ha
  · simp only [sendNext, h, hg, hs, ha]
    rfl

end NoLatencyLocked

/-! The limits of bring-up and of a conflict (R112). -/

theorem alignTimeout_due (h : s.due (.trunkAlign p) = true) : alignTimeout s p = toHello (s.stop (.trunkAlign p)) p :=
  if_pos h

theorem helloTimeout_due (h : s.due (.trunkHello p) = true) (hst : trunkState s p = 2) :
    helloTimeout s p = setTrunkState (s.stop (.trunkHello p)) p 1 := if_pos (by simp [h, hst])

theorem conflictRetry_free (h : s.due (.conflictRetry p) = true) (hst : portState s p = 4) (hc : holdCause s p = 0) :
    conflictRetry s p =
      toHello (setTrunkState (setHold (setPortState (s.stop (.conflictRetry p)) p 1) p 0) p 1) p := by
  simp [conflictRetry, h, hst, hc]

theorem conflictRetry_held (h : s.due (.conflictRetry p) = true) (hst : portState s p = 4) (hc : holdCause s p ≠ 0) :
    conflictRetry s p = enterHeld s p (holdCause s p) := by simp [conflictRetry, h, hst, hc]

end Steps

end Sys2Proof.Machine

namespace Sys2Proof.Proofs
open Sys2Proof.Machine

/-- Settles O21: each command is the trunk's step; a block's content follows the order in which the transmitter looks for
what to send. -/
theorem trunkCommands : Obligations.TrunkCommands := by
  refine ⟨?markerTx, ?markerRx, ?blockTx, ?blockRx, ?helloTx, ?helloRx, ?align, ?hello, ?conflict⟩
  case markerTx =>
    intro s p h _ _ _ _
    exact ends_onPort_settle (f := fun s => markerTx s p.val) rfl h rfl
  case markerRx =>
    intro s p j n b t h hrun hserve hst hb
    exact ends_onPort_settle (f := fun s => markerRx s p.val j.val n 2 (toNats b) t) rfl h
      (markerRx_valid n t hrun hserve hst hb)
  case blockTx =>
    intro s p h hcan u
    have hend : ∀ {t : State}, blockTx s p.val = t → Ends (.trunkBlockTx p) s (settle t) :=
      ends_onPort_settle (f := fun s => blockTx s p.val) rfl h
    refine ⟨fun hst => hend (blockTx_hello hcan hst), fun hst hlink => ?_⟩
    have hnext := blockTx_linkOn hcan hst hlink
    exact ⟨fun c l hll => hend (hnext.trans (sendNext_latencyLocked hll)), fun hll =>
      ⟨fun x hg => hend (hnext.trans (sendNext_resend hll hg)),
        fun hg hs => hend (hnext.trans (sendNext_null hll hg hs)),
        fun hg ha => hend (hnext.trans (sendNext_action hll hg ha)),
        fun c hg hs => hend (hnext.trans (sendNext_only hll hg hs))⟩⟩
  case blockRx =>
    intro s p b h _ _
    exact ends_onPort_settle (f := fun s => blockRx s p.val (toNats b)) rfl h rfl
  case helloTx =>
    intro s p h _ _ _ _ _
    exact ends_onPort (f := fun s => helloTx s p.val) rfl h rfl
  case helloRx =>
    intro s p b h _ _
    exact ends_onPort_settle (f := fun s => helloRx s p.val (toNats b)) rfl h rfl
  case align =>
    intro s p h hd
    exact ends_onPort_settle (f := fun s => alignTimeout s p.val) rfl h (alignTimeout_due hd)
  case hello =>
    intro s p h hd hst
    exact ends_onPort_settle (f := fun s => helloTimeout s p.val) rfl h (helloTimeout_due hd hst)
  case conflict =>
    intro s p h hd hst
    have hend : ∀ {t : State}, conflictRetry s p.val = t → Ends (.trunkConflictRetry p) s (settle t) :=
      ends_onPort_settle (f := fun s => conflictRetry s p.val) rfl h
    exact ⟨fun hc => hend (conflictRetry_free hd hst hc), fun hc => hend (conflictRetry_held hd hst hc)⟩

end Sys2Proof.Proofs
end

section
/-! The passing of time (R122): what it keeps of the scratchpad banks. -/

namespace Sys2Proof.Machine

/-- RUN with TCLK, the counters standing still (R391). An alignment of pulse output 0 completes after 2 ns (R195); its event
raises source 96, at which SNP latches an ingot (R370) into slot 0, whose INGOT_SEQ is 1. -/
def ingotAtAlignment : State :=
  let s : State := { State.reset with
    regs := [(A.GLB_BOOT_STAT, 5)]
    power := { State.reset.power with die := true }
    pls := [(0, { alignAt := some 2 })]
    mem := [(bankKey 8 4, 1)] }
  let s := (s.setFld A.TCO_STAT 6 4 4).setBit A.PMC_STAT 31 true
  let s := (s.setBit (A.PLS_OUT_EVT_EN 0) 4 true).setBit (A.INT_SRC 96) 31 true
  ((s.setBit A.SNP_CFG 31 true).setBit A.SNP_CFG 18 true).setFld A.SNP_CFG 9 0 96

/-- TCLK runs, and no rate is on its way to another. -/
theorem ingotAtAlignment_steady : tclkRuns ingotAtAlignment = true ∧
    (ingotAtAlignment.tb 0).target = tbRate ingotAtAlignment 0 := by decide +kernel

/-- The state in which the period of TCLK ends that completes the alignment. -/
def afterAlignment : State :=
  let t := { timePasses ingotAtAlignment 1 with now := 2 }
  { arrivals ingotAtAlignment t with pending := [], now := 2 }

theorem exec_tbAdvance_ingotAtAlignment : exec (.tbAdvance 1) ingotAtAlignment = .next afterAlignment := rfl

/-- The ingot's slot loses its INGOT_SEQ in that period (R372). -/
theorem bankByte_afterAlignment :
    ingotAtAlignment.bankByte 8 4 = 1 ∧ afterAlignment.bankByte 8 4 = 0 := by decide +kernel

end Sys2Proof.Machine

namespace Sys2Proof.Proofs
open Sys2Proof.Machine

/-- Refutes O23: time that passes does not keep the banks. An alignment that completes in it raises its source, and where SNP
waits for that source, an ingot is latched and INGOT_SEQ of its slot becomes 0. -/
theorem not_timeBaseAdvance : ¬ Obligations.TimeBaseAdvance := by
  rintro ⟨hsteady, -⟩
  obtain ⟨hclock, hrate⟩ := ingotAtAlignment_steady
  obtain ⟨hbefore, hafter⟩ := bankByte_afterAlignment
  obtain ⟨t, ht, -, -, -, -, hbanks⟩ := hsteady ingotAtAlignment 1 0 hclock (by decide) hrate
  rw [exec_tbAdvance_ingotAtAlignment] at ht
  cases ht
  have hkept := hbanks 8 4
  rw [hbefore, hafter] at hkept
  exact absurd hkept (by decide)

end Sys2Proof.Proofs
end

section
/-! The time bases: reads, latches, arms, steps and sources (R123, R125 to R133, R424). -/

namespace Sys2Proof.Machine

/-! Commands of the timing die, and writes of one word. -/

theorem ends_onKeep {c : Instr} {s t : State} {f : State → State} (hc : exec c s = onKeep s f) (h : s.power.ka = true)
    (ht : f s = t) : Ends c s t := ends_of_exec (by rw [hc, onKeep_on h, ht])

theorem ends_onKeep_settle {c : Instr} {s t : State} {f : State → State}
    (hc : exec c s = onKeep s fun s => settle (f s)) (h : s.power.ka = true) (ht : f s = t) : Ends c s (settle t) :=
  ends_onKeep hc h (congrArg settle ht)

/-- A write of one word ends in what its register does once it is served. -/
theorem ends_write32 {c : Instr} {s : State} {r : Req} {a : Nat} {v : Word} {row : RegRow}
    (hc : exec c s = done s (write32 s r a v.toNat)) (h : s.listens r a = true) (ha : a % 4 = 0)
    (hr : rowOf a = some row) : Ends c s (served (heard s r 1) r a v.toNat row) := by
  have hw := write32_served v.toNat h ha hr
  rw [Nat.mod_eq_of_lt v.isLt] at hw
  exact ends_of_exec (hc.trans (congrArg (done s) hw))

theorem writeEffect_tim (s : State) (r : Req) {a : Nat} (v : Nat) (h : 0x110000 ≤ a) (h' : a < 0x120000) :
    writeEffect s r a v = writeTim s a v := by
  rw [writeEffect]
  repeat rw [if_neg (by omega)]
  rw [if_pos h']

/-! Reads (R125). -/

/-- The read of TBn_TIME_W2 with the count of the host's reads. -/
def countRead (s : State) (r : Req) : State := if r = .host then s.pmcEvent 22 0x301 1 else s

/-- The count of a read changes a counter of the host's group, and nothing else. -/
theorem countRead_shape (s : State) (r : Req) :
    ∃ m w, countRead s r = { s with regs := m, pmcWraps := w } ∧
      RegsKept s (countRead s r) (fun a => countsHost a && decide (r = .host)) := by
  cases r with
  | mgmt => exact ⟨s.regs, s.pmcWraps, rfl, RegsKept.refl s _⟩
  | host =>
    obtain ⟨m, w, hs, hr⟩ := pmcEvent_shape s 22 0x301 1
    refine ⟨m, w, hs, fun a ha => hr a ?_⟩
    simp only [decide_true, Bool.and_true, countsHost, Bool.and_eq_false_iff, decide_eq_false_iff_not] at ha
    simp only [A.PMC_CTR_LO, A.PMC_CYC_LO] at ha ⊢
    omega

/-- What a read or a latch shows follows the gap of the switch-over, the held times and the time bases. -/
theorem shownTime_congr {s t : State} (hg : t.rd A.TCO_STAT = s.rd A.TCO_STAT) (hh : t.tco = s.tco) (hb : t.tbs = s.tbs)
    (n : Nat) : shownTime t n = shownTime s n := by
  have hgap : inGap t = inGap s := by rw [inGap, inGap, State.bit, State.bit, hg]
  rw [shownTime, shownTime, hgap, hh, tbTime, tbTime, State.tb, State.tb, hb]

theorem ends_tbTimeRead {s : State} {r : Req} {n : Fin 8} (hd : s.power.die = true) (hw : waitsAtCore s r = false)
    (hg : gateOpen s r (A.TIM_TB_TIME_W2 n.val) = true) :
    Ends (.tbTimeRead r n) s (captureShadow (countRead s r) r n.val) := by
  refine ends_onDie (f := fun s => if waitsAtCore s r then s else timeRead s r n.val) rfl hd ?_
  simp only [hw, timeRead, hg, Bool.false_eq_true, Bool.not_true, if_false, countRead]

/-- A read of W2 captures what the time base shows for its requester, and no other shadow (R125). -/
theorem tbTimeRead_captures {s : State} {r : Req} {n : Fin 8} (hd : s.power.die = true) (hw : waitsAtCore s r = false)
    (hg : gateOpen s r (A.TIM_TB_TIME_W2 n.val) = true) :
    EndsWith (.tbTimeRead r n) s fun t =>
      (Map.get 0 t.shadows (2 * n.val + reqNum r) = shownTime s n.val) ∧
      (∀ k, k ≠ 2 * n.val + reqNum r → Map.get 0 t.shadows k = Map.get 0 s.shadows k) ∧
      RegsKept s t (fun a => countsHost a && decide (r = .host)) ∧ BanksKept s t ∧ t.tbs = s.tbs := by
  obtain ⟨m, w, hu, hkept⟩ := countRead_shape s r
  have hshown : shownTime (countRead s r) n.val = shownTime s n.val :=
    shownTime_congr (hkept _ (Bool.and_eq_false_iff.2 (.inl (by decide)))) (by rw [hu]) (by rw [hu]) _
  have hend := ends_tbTimeRead hd hw hg
  rw [captureShadow, hshown] at hend
  refine hend.endsWith ⟨map_get_put_self _ _ _ _, fun k hk => ?_, hkept, ?_, by rw [hu]⟩
  · rw [map_get_put_ne _ _ _ _ hk, hu]
  · exact banksKept_of_eq (by rw [hu]) (by rw [hu])

/-! Latches (R126). -/

theorem rdTime_wrTime_self (s : State) (a : Nat) {t : Nat} (h : t < ftWrap) : (s.wrTime a t).rdTime a = t := by
  have hw := ftOfWords_words h
  have h2 : ftW2 t < 2 ^ 32 := Nat.mod_lt _ (by decide)
  have h1 : ftW1 t < 2 ^ 32 := by simp only [ftW1, secUnits]; omega
  obtain ⟨hr2, hr1, hr0⟩ := rd_wrTime_words s a h2 h1 (ftW0_lt t)
  rw [hw] at hr2 hr1 hr0
  rw [State.rdTime, hr2, hr1, hr0, hw]

theorem rdTime_wrTime_ne (s : State) {a b : Nat} (t : Nat) (h : a + 8 < b ∨ b + 8 < a) :
    (s.wrTime a t).rdTime b = s.rdTime b := by
  simp only [State.rdTime]
  rw [rd_wrTime_ne s t (by omega), rd_wrTime_ne s t (by omega), rd_wrTime_ne s t (by omega)]

/-- Time base `m` is copied to its latched words. -/
def latchTb (s : State) (m : Nat) : State := s.wrTime (A.TIM_TB_LAT_W2 m) (shownTime s m)

theorem latchTb_tbs (s : State) (m : Nat) : (latchTb s m).tbs = s.tbs := by simp [latchTb, State.wrTime]

theorem shownTime_latchTb (s : State) (m n : Nat) : shownTime (latchTb s m) n = shownTime s n := by
  refine shownTime_congr (rd_wrTime_ne s _ ?_) (by simp [State.wrTime]) (latchTb_tbs s m) n
  rw [A.TIM_TB_LAT_W2, A.TCO_STAT]
  omega

theorem rdTime_latchTb_self (s : State) {n : Nat} (h : shownTime s n < ftWrap) :
    (latchTb s n).rdTime (A.TIM_TB_LAT_W2 n) = shownTime s n := rdTime_wrTime_self s _ h

theorem rdTime_latchTb_ne (s : State) {m n : Nat} (h : n ≠ m) :
    (latchTb s m).rdTime (A.TIM_TB_LAT_W2 n) = s.rdTime (A.TIM_TB_LAT_W2 n) :=
  rdTime_wrTime_ne s _ (by simp only [A.TIM_TB_LAT_W2]; omega)

theorem rdTime_latched_other (l : List Nat) (s : State) {n : Nat} (h : n ∉ l) :
    (l.foldl latchTb s).rdTime (A.TIM_TB_LAT_W2 n) = s.rdTime (A.TIM_TB_LAT_W2 n) := by
  induction l generalizing s with
  | nil => rfl
  | cons m l ih =>
    obtain ⟨hm, hl⟩ := not_or.1 (mt List.mem_cons.2 h)
    rw [List.foldl_cons, ih _ hl, rdTime_latchTb_ne s hm]

/-- Every copy of a time base shows the same, since no copy changes what a time base shows. -/
theorem rdTime_latched (l : List Nat) (s : State) {n : Nat} (h : n ∈ l) (ht : shownTime s n < ftWrap) :
    (l.foldl latchTb s).rdTime (A.TIM_TB_LAT_W2 n) = shownTime s n := by
  induction l generalizing s with
  | nil => exact absurd h List.not_mem_nil
  | cons m l ih =>
    rw [List.foldl_cons]
    by_cases hl : n ∈ l
    · rw [ih _ hl (by rwa [shownTime_latchTb]), shownTime_latchTb]
    · obtain rfl := (List.mem_cons.1 h).resolve_right hl
      rw [rdTime_latched_other l _ hl, rdTime_latchTb_self s ht]

theorem latchTbs_eq (s : State) (v : Nat) : latchTbs s v = (bitsSet v 8).foldl latchTb s := rfl

/-- The time bases that the low byte of a word names. -/
theorem mem_bitsSet_byte {v n : Nat} (h : n < 8) : n ∈ bitsSet (v % 256) 8 ↔ v.testBit n = true := by
  rw [bitsSet, List.mem_filter, show 256 = 2 ^ 8 from rfl, Nat.testBit_mod_two_pow]
  simp [h]

theorem rowOf_latch : rowOf A.TIM_LATCH = some ⟨0x10, 1, 0x4, 1, 0x4, .wo, 0xff, 0x0, false, false⟩ := by decide

theorem writeEffect_latch (s : State) (r : Req) (v : Nat) :
    writeEffect s r A.TIM_LATCH v = .does (latchTbs s (v % 256)) := rfl

theorem ends_latch {s : State} {r : Req} {v : Word} (h : s.listens r A.TIM_LATCH = true) :
    Ends (.latch r v) s (latchTbs (heard s r 1) (v.toNat % 256)) := by
  have hend := ends_write32 (c := .latch r v) rfl h (by decide) rowOf_latch
  rwa [served_wo rfl, writePlain_does true (writeEffect_latch _ _ _)] at hend

theorem heard_tbs (s : State) (r : Req) (n : Nat) : (heard s r n).tbs = s.tbs := by
  obtain ⟨m, w, h, -⟩ := heard_shape s r n; rw [h]

theorem heard_tco (s : State) (r : Req) (n : Nat) : (heard s r n).tco = s.tco := by
  obtain ⟨m, w, h, -⟩ := heard_shape s r n; rw [h]

theorem shownTime_heard (s : State) (r : Req) (k n : Nat) : shownTime (heard s r k) n = shownTime s n :=
  shownTime_congr (rd_heard s r k (by decide)) (heard_tco s r k) (heard_tbs s r k) n

theorem countsHost_tim {a : Nat} (h : 0x110000 ≤ a) : countsHost a = false := by
  simp only [countsHost, Bool.and_eq_false_iff, decide_eq_false_iff_not]
  simp only [A.PMC_CTR_LO, A.PMC_CYC_LO]
  omega

theorem rdTime_heard (s : State) (r : Req) (k : Nat) {a : Nat} (h : 0x110000 ≤ a) :
    (heard s r k).rdTime a = s.rdTime a := by
  simp only [State.rdTime]
  rw [rd_heard s r k (countsHost_tim h), rd_heard s r k (countsHost_tim (by omega)),
    rd_heard s r k (countsHost_tim (by omega))]

theorem timAddress_le_latW2 (n : Nat) : 0x110000 ≤ A.TIM_TB_LAT_W2 n := by rw [A.TIM_TB_LAT_W2]; omega

/-! Arms (R127). -/

theorem guardedEffect_arm (s : State) (r : Req) (v : Nat) : guardedEffect s r A.TIM_ARM v = armTbs s (v % 256) := rfl

theorem ends_arm {s : State} {r : Req} {m : BitVec 8} (h : s.listens r A.TIM_ARM = true) :
    Ends (.arm r m) s (armTbs (heard s r 2) (m.toNat % 256)) :=
  ends_guardedWrite rfl h (guardedEffect_arm _ r m.toNat)

theorem tbStat_inj {m n : Nat} (h : A.TIM_TB_STAT m = A.TIM_TB_STAT n) : m = n := by
  simp only [A.TIM_TB_STAT] at h; omega

theorem tbStat_not_counted (n : Nat) : countsHost (A.TIM_TB_STAT n) = false :=
  countsHost_tim (by rw [A.TIM_TB_STAT]; omega)

theorem tbArmed_heard (s : State) (r : Req) (k n : Nat) : tbArmed (heard s r k) n = tbArmed s n :=
  bit_heard s r k 27 (tbStat_not_counted n)

theorem stepPend_heard (s : State) (r : Req) (k n : Nat) : stepPend (heard s r k) n = stepPend s n :=
  bit_heard s r k 26 (tbStat_not_counted n)

/-- The time bases of a list are armed, and no others. -/
theorem tbArmed_setArmed (l : List Nat) (s : State) (n : Nat) :
    tbArmed (l.foldl (fun s i => setArmed s i true) s) n = (tbArmed s n || decide (n ∈ l)) := by
  by_cases h : n ∈ l
  · rw [decide_eq_true h, Bool.or_true]
    exact bit_setBits_mem A.TIM_TB_STAT (by decide) l s (.inl h)
  · have hkept := regsKept_foldl (g := fun s i => setArmed s i true) (p := fun a => l.any fun i => decide (a = A.TIM_TB_STAT i))
      l (fun s i hi => regsKept_setBit s 27 true (List.any_eq_true.2 ⟨i, hi, decide_eq_true rfl⟩)) s
    have hout : (l.any fun i => decide (A.TIM_TB_STAT n = A.TIM_TB_STAT i)) = false :=
      List.any_eq_false.2 fun i hi he => h (tbStat_inj (of_decide_eq_true he) ▸ hi)
    rw [decide_eq_false h, Bool.or_false, tbArmed, State.bit, hkept _ hout]
    rfl

theorem tbArmed_armTbs (s : State) (v : Nat) {n : Nat} (h : n < 8) :
    tbArmed (armTbs s (v % 256)) n = (tbArmed s n || v.testBit n) := by
  have hnamed : decide (n ∈ bitsSet (v % 256) 8) = v.testBit n := by
    rw [Bool.eq_iff_iff, decide_eq_true_iff]
    exact mem_bitsSet_byte h
  rw [armTbs, tbArmed_setArmed, hnamed]

/-- What no register holds stays when time bases are armed. -/
theorem armTbs_keeps {α : Type} {f : State → α} (hf : ∀ (s : State) m l, f { s with regs := m, stamps := l } = f s)
    (s : State) (v : Nat) : f (armTbs s v) = f s :=
  foldl_keeps (fun s _ => wr_keeps hf s _ _) _ s

/-! Steps (R128). -/

/-- TBn_SET_W0 is the register that commits, and no register of TIM with an effect of its own. -/
theorem tbSetW0_row (n : Fin 8) :
    A.TIM_TB_SET_W0 n.val % 4 = 0 ∧
      rowOf (A.TIM_TB_SET_W0 n.val) = some ⟨0x508, 8, 0x10, 1, 0x4, .ftime 0, 0xffffffff, 0x0, false, false⟩ ∧
      A.TIM_TB_SET_W0 n.val ≠ A.TIM_LATCH ∧
      entryOf (A.TIM_TB_SET_W0 n.val) A.TIM_TB0_SRC 0x40 8 = none ∧
      entryOf (A.TIM_TB_SET_W0 n.val) (A.TIM_TB_RATE_MAN 0) 0x40 8 = none ∧
      entryOf (A.TIM_TB_SET_W0 n.val) (A.TIM_TB_SET_W0 0) 0x10 8 = some n.val := by
  revert n
  decide

theorem writeEffect_tbSetW0 (s : State) (r : Req) (n : Fin 8) (v : Nat) :
    writeEffect s r (A.TIM_TB_SET_W0 n.val) v = .plain := by
  obtain ⟨-, -, hlatch, hsrc, hrate, -⟩ := tbSetW0_row n
  rw [writeEffect_tim s r v (by rw [A.TIM_TB_SET_W0]; omega) (by rw [A.TIM_TB_SET_W0]; omega), writeTim, if_neg hlatch]
  simp only [hsrc, hrate]

/-- A commit of TBn_SET_W0 steps the time base where it can, and is rejected where it cannot. -/
theorem writeTime_tbSet {s : State} {r : Req} {n : Fin 8} {v : Nat} (hv : v < 1000000000) :
    let a := A.TIM_TB_SET_W0 n.val
    let x := ftOfWords (stagedAt s r (a - 8)) (stagedAt s r (a - 4)) v
    writeTime s r a a 0 v =
      if setStepOk s n.val then settle (setStep (s.wrTime (a - 8) x) n.val x) else rejected s r a := by
  intro a x
  obtain ⟨-, -, -, -, -, hentry⟩ := tbSetW0_row n
  simp only [a, x, writeTime, writeEffect_tbSetW0, if_true, if_neg (Nat.not_le.2 hv), commitTo, hentry, stagedAt]
  cases setStepOk s n.val
  · simp only [Bool.false_eq_true, if_false]
  · simp only [if_true]

theorem ends_tbSetStep {s : State} {r : Req} {n : Fin 8} {w0 : Word} (h : s.listens r (A.TIM_TB_SET_W0 n.val) = true)
    (hv : w0.toNat < 1000000000) :
    let u := heard s r 1
    let a := A.TIM_TB_SET_W0 n.val
    let x := ftOfWords (stagedAt s r (a - 8)) (stagedAt s r (a - 4)) w0.toNat
    Ends (.tbSetStep r n w0) s
      (if tbArmed s n.val && !stepPend s n.val then settle (setStep (u.wrTime (a - 8) x) n.val x) else rejected u r a) := by
  intro u a x
  obtain ⟨h4, hrow, -⟩ := tbSetW0_row n
  have hend := ends_write32 (c := .tbSetStep r n w0) rfl h h4 hrow
  rw [served_ftime rfl, writeTime_tbSet hv, setStepOk, tbArmed_heard, stepPend_heard] at hend
  simp only [stagedAt, heard_staged] at hend
  exact hend

theorem tb0Step_applied {s : State} {d : Int} {x : Nat} (hd : s.power.die = true) (hs : (s.tb 0).step = some (d, x))
    (hg : inGap s = false) (hx : x ≤ tb0 s) :
    let t := followStep s 0 d
    tb0Step s =
      assayStep (lldStep (riserStep t ((tb0 t : Int) - (tb0 s : Int))) x ((tb0 t : Int) - (tb0 s : Int))) := by
  simp [tb0Step, hs, hg, Nat.not_lt.2 hx, hd]

/-! Sources (R123, R132, R424). -/

/-- TBn_SRC is an RW register, and the one that sets the source of time base `n`. -/
theorem tbSrc_row (n : Fin 8) :
    tbSrc n.val % 4 = 0 ∧ (rowOf (tbSrc n.val)).map RegRow.acc = some .rw ∧ tbSrc n.val ≠ A.TIM_LATCH ∧
      entryOf (tbSrc n.val) A.TIM_TB0_SRC 0x40 8 = some n.val := by
  revert n
  decide

theorem writeEffect_tbSrc (s : State) (r : Req) (n : Fin 8) (v : Nat) :
    writeEffect s r (tbSrc n.val) v = writeTbSrc s n.val v := by
  obtain ⟨-, -, hlatch, hentry⟩ := tbSrc_row n
  rw [writeEffect_tim s r v (by rw [tbSrc, A.TIM_TB0_SRC]; omega) (by rw [tbSrc, A.TIM_TB0_SRC]; omega), writeTim,
    if_neg hlatch]
  simp only [hentry]

theorem ends_tbSrcWrite {s : State} {r : Req} {n : Fin 8} {v : Word} (h : s.listens r (tbSrc n.val) = true) :
    Ends (.tbSrcWrite r n v) s (writePlain (heard s r 1) r (tbSrc n.val) (tbSrc n.val) v.toNat false) := by
  obtain ⟨h4, hrow, -⟩ := tbSrc_row n
  obtain ⟨row, hr, hrw⟩ := Option.map_eq_some_iff.1 hrow
  have hend := ends_writeRw (c := .tbSrcWrite r n v) (v := v.toNat) rfl h h4 hr hrw
  rwa [Nat.mod_eq_of_lt v.isLt] at hend

/-! Samples (R127, R129, R130, R133, R135, R155, R156). -/

/-- The edge that REFk_CFG.EDGE names gives its samples. -/
theorem ppsEdge_named {s : State} {k : Nat} (hp : refPps s k = true) (hs : refState s k ≠ 0)
    (ha : annealHolds s 7 k = false) :
    ppsEdge s k (s.bit (A.REF_CFG k) 0) = (List.range 8).foldl
      (fun s n => if takesRef s n k then phaseSample s n (ppsTheta s n k) else s) (s.setBit (A.REF_STAT k) 27 true) := by
  simp [ppsEdge, refEdge, hp, hs, ha]

section Estimates
variable {s : State} {n : Nat} (ppt : Int) (hr : srcRateOnly s (srcSel s n) = true)
  (hk : ∃ k, k < 6 ∧ takesRef s n k = true ∧ refSees s k = true)
include hr hk

/-- The time base takes an estimate of a reference that gives rate only and sees edges, unless a change of lane spoilt
it. -/
theorem freqSample_taken : freqSample s n ppt =
    if n ∈ s.refs.spoilt then { s with refs := { s.refs with spoilt := s.refs.spoilt.filter (· ≠ n) } }
    else rateSample s n ppt := by
  obtain ⟨k, hk6, htakes, hsees⟩ := hk
  have hany : (List.range 6).any (fun k => takesRef s n k && refSees s k) = true :=
    List.any_eq_true.2 ⟨k, List.mem_range.2 hk6, by rw [htakes, hsees]; rfl⟩
  exact if_pos (by rw [hr, hany]; rfl)

theorem freqSample_good (hn : n ∉ s.refs.spoilt) : freqSample s n ppt = rateSample s n ppt :=
  (freqSample_taken ppt hr hk).trans (if_neg hn)

theorem freqSample_spoilt (hn : n ∈ s.refs.spoilt) :
    freqSample s n ppt = { s with refs := { s.refs with spoilt := s.refs.spoilt.filter (· ≠ n) } } :=
  (freqSample_taken ppt hr hk).trans (if_pos hn)

end Estimates

end Sys2Proof.Machine

namespace Sys2Proof.Proofs
open Sys2Proof.Machine

/-- Settles O24: each command by what it does to the time bases where its conditions hold. -/
theorem timeBaseCommands : Obligations.TimeBaseCommands := by
  refine ⟨fun s r n hd hw hg => tbTimeRead_captures hd hw hg, ?latch, ?arm, ?set, ?apply, ?source, ?edge, ?estimate, ?hold⟩
  case latch =>
    intro s r v h
    refine (ends_latch h).endsWith_of ⟨fun n hn hb ht => ?_, fun n hn hb => ?_, ?_⟩ fun _ _ _ ht => ht
    · rw [← shownTime_heard s r 1 n] at ht ⊢
      exact rdTime_latched _ _ ((mem_bitsSet_byte hn).2 hb) ht
    · have hout : n ∉ bitsSet (v.toNat % 256) 8 := fun hin => by rw [(mem_bitsSet_byte hn).1 hin] at hb; cases hb
      rw [latchTbs_eq, rdTime_latched_other _ _ hout, rdTime_heard s r 1 (timAddress_le_latW2 n)]
    · rw [latchTbs_eq, foldl_keeps latchTb_tbs, heard_tbs]
  case arm =>
    intro s r m h
    refine (ends_arm h).endsWith_of ⟨fun n hn => ?_, ?_, ?_⟩ fun _ _ _ ht => ht
    · rw [tbArmed_armTbs _ _ hn, tbArmed_heard]
    · rw [armTbs_keeps (f := State.tbs) fun _ _ _ => rfl, heard_tbs]
    · exact banksKept_of_eq (by rw [armTbs_keeps (f := State.mem) fun _ _ _ => rfl, heard_mem])
        (by rw [armTbs_keeps (f := State.banks) fun _ _ _ => rfl, heard_banks])
  case set =>
    intro s r n w0 h hv
    have hend := ends_tbSetStep h hv
    dsimp only at hend
    refine ⟨fun ha hp => ?_, fun ha => ?_⟩
    · rwa [ha, hp, if_pos (by decide)] at hend
    · rwa [ha, Bool.false_and, if_neg (by decide)] at hend
  case apply =>
    intro s d x hka hd hs hg hx
    exact ends_onKeep_settle (f := tb0Step) rfl hka (tb0Step_applied hd hs hg hx)
  case source =>
    intro s r n v h
    obtain ⟨hdone, hrefused⟩ := ends_refuseIf (ends_tbSrcWrite h) (writeEffect_tbSrc _ r n v.toNat)
    exact ⟨fun hok => hdone (by simpa using hok), fun hbad => hrefused (by simpa using hbad)⟩
  case edge =>
    intro s k hka hp hs ha
    exact ends_onKeep_settle (f := fun u => ppsEdge u k.val (s.bit (A.REF_CFG k.val) 0)) rfl hka (ppsEdge_named hp hs ha)
  case estimate =>
    intro s n ppt hka hr hk
    have hend : ∀ {t : State}, freqSample s n.val ppt = t → Ends (.freqEstimate n ppt) s (settle t) :=
      ends_onKeep_settle (f := fun s => freqSample s n.val ppt) rfl hka
    exact ⟨fun hn => hend (freqSample_good ppt hr hk hn), fun hn => hend (freqSample_spoilt ppt hr hk hn)⟩
  case hold =>
    intro s n hka hdue
    exact ends_onKeep (f := fun s => if s.due (.tbHold n.val) then enterHoldover s n.val else s) rfl hka (if_pos hdue)

end Sys2Proof.Proofs
end

section
/-! PTP messages (R131, R134 to R136, R142, R145 to R148, R340), and the references (R154 to R168). -/

namespace Sys2Proof.Machine

/-! Messages of PTP (R145, R146). -/

section Messages
variable {s : State} {p : Nat} {b : List Nat}

/-- A message that the block takes does what its type does. -/
theorem ptpMessage_taken {kinds : List Nat} {f : State → State} (hr : ptpRuns s p = true) (ht : msgTaken s p b = true)
    (hk : msgKind b ∈ kinds) : ptpMessage s p b kinds f = f s := by
  simp [ptpMessage, hr, ht, hk]

theorem ptpMessage_discarded {kinds : List Nat} {f : State → State} (hr : ptpRuns s p = true)
    (ht : msgTaken s p b = false) : ptpMessage s p b kinds f = ptpDiscard s p := by
  simp [ptpMessage, hr, ht]

theorem ptpSync_oneStep (g : List Nat) (st : RxStamp) (hr : ptpRuns s p = true) (ht : msgTaken s p b = true)
    (hk : msgKind b = 0) (h1 : msgTwoStep b = false) : ptpSync s p b g st = syncSample s p (msgTime b) st := by
  rw [ptpSync, ptpMessage_taken hr ht (by rw [hk]; decide)]
  simp [h1, syncOrigin]

/-- A two-step Sync has the origin of the Follow_Up that carries its number. -/
theorem ptpSync_twoStep {g : List Nat} (st : RxStamp) (hr : ptpRuns s p = true) (ht : msgTaken s p b = true)
    (hk : msgKind b = 0) (h2 : msgTwoStep b = true) (htg : msgTaken s p g = true) (hkg : msgKind g = 8)
    (hseq : msgSeq g = msgSeq b) : ptpSync s p b g st = syncSample s p (msgTime g + msgCorrection b) st := by
  rw [ptpSync, ptpMessage_taken hr ht (by rw [hk]; decide)]
  simp only [h2, Bool.not_true, Bool.false_eq_true, if_false]
  rw [ptpMessage_taken hr htg (by rw [hkg]; decide), if_pos hseq, syncOrigin, if_pos h2]

theorem ptpSyncTx_due (st : TxStamp) (hr : ptpRuns s p = true) (hst : ptpState s p = 6) (hd : (s.ptpOf p).syncAt ≤ s.now)
    (hm : mayStartEvent s p 0 (s.ptpOf p).syncSeq = true) :
    let h := s.ptpOf p
    let d := ptpInterval (s.fld (A.PTP_CFG p) 27 24)
    ptpSyncTx s p st =
      sendEvent (putPtp s p { h with syncSeq := (h.syncSeq + 1) % 65536, syncAt := s.now + d }) p 0 h.syncSeq st :=
  if_pos (by rw [hr, decide_eq_true hst, decide_eq_true hd, hm]; rfl)

theorem ptpDelayReqTx_due (st : TxStamp) (hr : ptpRuns s p = true) (hst : 8 ≤ ptpState s p)
    (hd : (s.ptpOf p).reqAt ≤ s.now) (hm : mayStartEvent s p 1 (s.ptpOf p).reqSeq = true) :
    let h := s.ptpOf p
    let d := ptpInterval (s.fld (A.PTP_CFG p) 31 28)
    ptpDelayReqTx s p st =
      sendEvent (putPtp s p { h with reqSeq := (h.reqSeq + 1) % 65536, req := none, reqAt := s.now + d }) p 1
        h.reqSeq st :=
  if_pos (by rw [hr, decide_eq_true hst, decide_eq_true hd, hm]; rfl)

theorem ptpDelayReqRx_master (st : RxStamp) (hr : ptpRuns s p = true) (hst : ptpState s p = 6)
    (ht : msgTaken s p b = true) (hk : msgKind b = 1) : ptpDelayReqRx s p b st =
      sendGeneral s p 9 (msgSeq b) (rxTime s p st) (-(msgCorrection b)) (msgSource b) := by
  rw [ptpDelayReqRx, ptpMessage_taken hr ht (by rw [hk]; decide), if_pos hst]

theorem ptpDelayResp_own (hr : ptpRuns s p = true) (hst : 8 ≤ ptpState s p) (ht : msgTaken s p b = true)
    (hk : msgKind b = 9) (hid : msgTarget b = portIdentity s p) (hseq : (msgSeq b + 1) % 65536 = (s.ptpOf p).reqSeq) :
    ptpDelayResp s p b = delayExchange s p (msgTime b) := by
  rw [ptpDelayResp, ptpMessage_taken hr ht (by rw [hk]; decide)]
  exact if_pos (by rw [decide_eq_true hst, decide_eq_true hid, decide_eq_true hseq]; rfl)

theorem ptpGeneral_taken {m : List Byte} (hr : ptpRuns s p = true) (ht : msgTaken s p (toNats m) = true)
    (hk : msgKind (toNats m) = 11 ∨ msgKind (toNats m) = 12) :
    let u := putPtp s p { s.ptpOf p with general := m }
    ptpGeneral s p m =
      if l1On u p && decide (msgKind (toNats m) = 12) && msgTlv 0x8001 (toNats m) then drawL1 u p else u := by
  simp only [ptpGeneral]
  rw [ptpMessage_taken hr ht (by simpa using hk)]

end Messages

/-! The phase detector (R142). -/

/-- The report of a port that offers a lane. -/
def phaseReport (s : State) (p phase : Nat) (ppt : Int) : State :=
  (s.wr (A.PTP_PHASE p) (2 ^ 31 + phase)).wr (A.PTP_FREQ p) (ofSigned 32 ppt)

theorem phaseMeasure_offered {s : State} {p : Nat} (phase : Nat) (ppt : Int) (h : (offeredLane s p).isSome = true) :
    phaseMeasure s p phase ppt = phaseReport s p phase ppt := if_pos h

theorem ofSigned_lt (n : Nat) (v : Int) : ofSigned n v < 2 ^ n := by
  have hpos : (0 : Int) < ((2 ^ n : Nat) : Int) := by exact_mod_cast Nat.two_pow_pos n
  rw [ofSigned, Int.toNat_lt (Int.emod_nonneg _ hpos.ne')]
  exact Int.emod_lt_of_pos _ hpos

theorem rd_phaseReport (s : State) (p : Nat) (ph : BitVec 24) (ppt : Int) :
    (phaseReport s p ph.toNat ppt).rd (A.PTP_PHASE p) = 2 ^ 31 + ph.toNat ∧
      (phaseReport s p ph.toNat ppt).rd (A.PTP_FREQ p) = ofSigned 32 ppt := by
  have hne : A.PTP_PHASE p ≠ A.PTP_FREQ p := by simp only [A.PTP_PHASE, A.PTP_FREQ]; omega
  refine ⟨?_, ?_⟩
  · rw [phaseReport, rd_wr_ne _ _ hne, rd_wr_self, Nat.mod_eq_of_lt (by omega)]
  · rw [phaseReport, rd_wr_self, Nat.mod_eq_of_lt (ofSigned_lt 32 ppt)]

theorem regsKept_phaseReport (s : State) (p phase : Nat) (ppt : Int) :
    RegsKept s (phaseReport s p phase ppt) (fun a => decide (a = A.PTP_PHASE p) || decide (a = A.PTP_FREQ p)) :=
  (regsKept_wr s _ (by simp)).trans (regsKept_wr _ _ (by simp))

/-! XO_IN and the references' events (R154, R157, R159, R164). -/

theorem xoLost_present {s : State} (h : s.bit A.REF_XO_STAT 0 = false) :
    xoLost s = refEvent (s.setBit A.REF_XO_STAT 0 true) 64 := if_neg (by simp [h])

theorem refQualified_due {s : State} {k : Nat} (hs : refState s k = 2) (hd : s.due (.refQual k) = true) :
    refQualified s k = refChanged (refToValid s k) := if_pos (by rw [hs, hd]; rfl)

theorem selAcquired_sees {s : State} (hs : selState s = 1) (hk : refSees s (selCur s) = true) :
    selAcquired s = wtrEval (checkSources (refEvent (s.setFld A.REF_SEL_STAT 31 28 2) 2)) := if_pos (by rw [hs, hk]; rfl)

theorem wtrExpire_due {s : State} (hs : selState s = 2) (hd : s.due .refWtr = true) (hv : refValid s (wtrRef s) = true) :
    wtrExpire s = selSwitch (refEvent s 4) (wtrRef s) := if_pos (by rw [hs, hd, hv]; rfl)

/-! Writes of the references' registers (R157, R158, R167). -/

theorem rowOf_suspClr : rowOf A.REF_SUSP_CLR = some ⟨0x24, 1, 0x4, 1, 0x4, .wo, 0x3f, 0x0, false, false⟩ := by decide

theorem writeEffect_suspClr (s : State) (r : Req) (v : Nat) :
    writeEffect s r A.REF_SUSP_CLR v = .does (settle (suspClear s (v % 64))) := rfl

theorem rowOf_selCtrl :
    rowOf A.REF_SEL_CTRL = some ⟨0x10, 1, 0x4, 1, 0x4, .rw, 0xffff0077, 0x12c0000, false, false⟩ := by decide

theorem writeEffect_selCtrl (s : State) (r : Req) (v : Nat) :
    writeEffect s r A.REF_SEL_CTRL v = .of ((writeSelCtrl s (v &&& 0xFFFF0077)).map settle) := rfl

/-- REFk_CFG is an RW register, and the one that configures reference `k`. -/
theorem refCfg_row (k : Fin 6) :
    A.REF_CFG k.val % 4 = 0 ∧
      rowOf (A.REF_CFG k.val) = some ⟨0x100, 6, 0x20, 1, 0x4, .rw, 0x80000f01, 0x0, false, false⟩ ∧
      A.REF_CFG k.val ≠ A.REF_SEL_CTRL ∧ A.REF_CFG k.val ≠ A.REF_SUSP_CLR ∧
      entryOf (A.REF_CFG k.val) (A.REF_CFG 0) 0x20 6 = some k.val := by
  revert k
  decide

theorem writeEffect_ref (s : State) (r : Req) {a : Nat} (v : Nat) (h : 0x120000 ≤ a) (h' : a < 0x130000) :
    writeEffect s r a v = writeRef s a v := by
  rw [writeEffect]
  repeat rw [if_neg (by omega)]
  rw [if_pos h']

theorem writeEffect_refCfg (s : State) (r : Req) (k : Fin 6) (v : Nat) :
    writeEffect s r (A.REF_CFG k.val) v = .does (settle (writeRefCfg s k.val (v &&& 0x80000F01))) := by
  obtain ⟨-, -, hsel, hsusp, hentry⟩ := refCfg_row k
  rw [writeEffect_ref s r v (by rw [A.REF_CFG]; omega) (by rw [A.REF_CFG]; omega), writeRef, if_neg hsel, if_neg hsusp]
  simp only [hentry]

end Sys2Proof.Machine

namespace Sys2Proof.Proofs
open Sys2Proof.Machine

/-- Settles O25: each message by what its type does where the port takes it, and each command of the references by its step
where its conditions hold. -/
theorem ptpAndReferenceCommands : Obligations.PtpAndReferenceCommands := by
  refine ⟨?sync, ?syncTx, ?reqTx, ?reqRx, ?respRx, ?discard, ?general, ?select, ?phase, ?xoLoss, ?xoBack, ?inactive,
    ?measure, ?qualified, ?suspects, ?config, ?acquired, ?restore, ?selection⟩
  case sync =>
    intro s p m f st h hr b g
    have hend : ∀ {t : State}, ptpSync s p.val b g st = t → Ends (.ptpSyncSample p m f st) s (settle t) :=
      ends_onPort_settle (f := fun s => ptpSync s p.val b g st) rfl h
    exact ⟨fun ht => hend (ptpMessage_discarded hr ht), fun ht hk h1 => hend (ptpSync_oneStep g st hr ht hk h1),
      fun ht hk h2 htg hkg hseq => hend (ptpSync_twoStep st hr ht hk h2 htg hkg hseq)⟩
  case syncTx =>
    intro s p st h hr hst hd hm
    exact ends_onPort (f := fun s => ptpSyncTx s p.val st) rfl h (ptpSyncTx_due st hr hst hd hm)
  case reqTx =>
    intro s p st h hr hst hd hm
    exact ends_onPort (f := fun s => ptpDelayReqTx s p.val st) rfl h (ptpDelayReqTx_due st hr hst hd hm)
  case reqRx =>
    intro s p m st h hr hst ht hk
    exact ends_onPort (f := fun s => ptpDelayReqRx s p.val (toNats m) st) rfl h (ptpDelayReqRx_master st hr hst ht hk)
  case respRx =>
    intro s p m h hr hst ht hk hid hseq
    exact ends_onPort (f := fun s => ptpDelayResp s p.val (toNats m)) rfl h (ptpDelayResp_own hr hst ht hk hid hseq)
  case discard =>
    intro s p m h hr ht
    have hend : Ends (.ptpMessageDiscard p m) s (ptpDiscard s p.val) :=
      ends_onPort (f := fun s => ptpUnsupported s p.val (toNats m)) rfl h (ptpMessage_discarded hr ht)
    exact hend.endsWith_of ⟨rd64_add64 s _ 1, regsKept_add64_own s _ 1, banksKept_add64 s _ 1, add64_ptps s _ 1⟩
      fun _ _ _ ht => ht
  case general =>
    intro s p m h hr ht hk u
    exact ends_onPort_settle (f := fun s => ptpGeneral s p.val m) rfl h (ptpGeneral_taken hr ht hk)
  case select =>
    intro s port l n h hs
    exact ends_onFirmware (f := fun s => if s.boot.started then settle (writeDepth (bmca s port l) n) else s) rfl h
      (if_pos hs)
  case phase =>
    intro s p ph ppt h hl
    have hend : Ends (.portPhaseMeasure p ph ppt) s _ :=
      ends_onPort (f := fun s => phaseMeasure s p.val ph.toNat ppt) rfl h (phaseMeasure_offered ph.toNat ppt hl)
    obtain ⟨hphase, hfreq⟩ := rd_phaseReport s p.val ph ppt
    exact hend.endsWith_of ⟨hphase, hfreq, regsKept_phaseReport s p.val ph.toNat ppt, fun _ _ => rfl⟩ fun _ _ _ ht => ht
  case xoLoss =>
    intro s hka hb
    exact ends_onKeep (f := xoLost) rfl hka (xoLost_present hb)
  case xoBack =>
    intro s hka
    have hend : Ends .xoRecover s (s.setBit A.REF_XO_STAT 0 false) := ends_onKeep (f := xoBack) rfl hka rfl
    exact hend.endsWith_of ⟨bit_setBit_false s _ 0, regsKept_setBit s 0 false (by decide), fun _ _ => rfl⟩
      fun _ _ _ ht => ht
  case inactive =>
    intro s k hka _
    exact ends_onKeep_settle (f := fun s => referenceLost s k.val) rfl hka rfl
  case measure =>
    intro s k ppt hka _
    exact ends_onKeep_settle (f := fun s => refMeasure s k.val ppt) rfl hka rfl
  case qualified =>
    intro s k hka hs hd
    exact ends_onKeep_settle (f := fun s => refQualified s k.val) rfl hka (refQualified_due hs hd)
  case suspects =>
    intro s r v h
    have hend := ends_write32 (c := .suspClr r v) rfl h (by decide) rowOf_suspClr
    rwa [served_wo rfl, writePlain_does true (writeEffect_suspClr _ _ _)] at hend
  case config =>
    intro s r k v h
    obtain ⟨h4, hrow, -⟩ := refCfg_row k
    have hend := ends_writeRw (c := .refCfgWrite r k v) (v := v.toNat) rfl h h4 hrow rfl
    rwa [Nat.mod_eq_of_lt v.isLt, writePlain_does false (writeEffect_refCfg _ _ _ _)] at hend
  case acquired =>
    intro s hka hs hk
    exact ends_onKeep_settle (f := selAcquired) rfl hka (selAcquired_sees hs hk)
  case restore =>
    intro s hka hs hd hv
    exact ends_onKeep_settle (f := wtrExpire) rfl hka (wtrExpire_due hs hd hv)
  case selection =>
    intro s r v h
    have hend := ends_writeRw (c := .refSelWrite r v) (v := v.toNat) rfl h (by decide) rowOf_selCtrl rfl
    rw [Nat.mod_eq_of_lt v.isLt] at hend
    exact ends_ofOption hend (writeEffect_selCtrl _ r v.toNat)

end Sys2Proof.Proofs
end

section
/-! Synthesizers: writes of their registers, lock, ramps and alignment (R170 to R180). -/

namespace Sys2Proof.Machine

/-- A command of the circuits on TCLK ends in its step. -/
theorem ends_onTclk {c : Instr} {s t : State} {f : State → State} (hc : exec c s = onTclk s f) (h : tclkRuns s = true)
    (ht : f s = t) : Ends c s t := ends_of_exec (by rw [hc, onTclk_on h, ht])

/-- One that does nothing in a switch-over gap (R212) ends in its step outside. -/
theorem ends_onTclk_noGap {c : Instr} {s t : State} {f : State → State}
    (hc : exec c s = onTclk s fun s => if inGap s then s else f s) (h : tclkRuns s = true) (hg : inGap s = false)
    (ht : f s = t) : Ends c s t := ends_onTclk hc h ((if_neg (by rw [hg]; decide)).trans ht)

/-! Where the registers of a synthesizer stand (R357). -/

/-- The offset of a configuration register from the first register of its synthesizer. -/
def synRegOff : SynReg → Nat
  | .cfg => 0x00
  | .n => 0x04
  | .sub => 0x08
  | .od => 0x0C
  | .frame => 0x10
  | .offset => 0x14
  | .align => 0x18
  | .nt => 0x1C
  | .ntSub => 0x20

theorem synRegAddr_at (k : Nat) (reg : SynReg) : synRegAddr k reg = A.PLL_SYN_CFG k + synRegOff reg := by
  cases reg <;>
    simp only [synRegAddr, synRegOff, A.PLL_SYN_CFG, A.PLL_SYN_N, A.PLL_SYN_SUB, A.PLL_SYN_OD, A.PLL_SYN_FRAME,
      A.PLL_SYN_OFFSET, A.PLL_SYN_ALIGN, A.PLL_SYN_NT, A.PLL_SYN_NT_SUB] <;> omega

theorem synRamp_at (k : Nat) : A.PLL_SYN_RAMP k = A.PLL_SYN_CFG k + 0x24 := by
  simp only [A.PLL_SYN_RAMP, A.PLL_SYN_CFG]; omega

theorem synRegAt_off (reg : SynReg) : synRegAt (synRegOff reg) = some reg := by cases reg <;> rfl

theorem synRegOff_lt (reg : SynReg) : synRegOff reg < 0x40 := by cases reg <;> decide

/-- A word of a synthesizer, by its number and its offset. -/
theorem syn_of_address (k : Nat) {o : Nat} (ho : o < 0x40) :
    (A.PLL_SYN_CFG k + o - A.PLL_SYN_CFG 0) / 0x40 = k ∧ (A.PLL_SYN_CFG k + o - A.PLL_SYN_CFG 0) % 0x40 = o := by
  simp only [A.PLL_SYN_CFG]
  omega

theorem rwWord_row {a : Nat} (h : (decide (a % 4 = 0) && decide ((rowOf a).map RegRow.acc = some .rw)) = true) :
    a % 4 = 0 ∧ ∃ row, rowOf a = some row ∧ row.acc = .rw := by simpa using h

theorem synReg_row (k : Fin 8) (reg : SynReg) :
    synRegAddr k.val reg % 4 = 0 ∧ ∃ row, rowOf (synRegAddr k.val reg) = some row ∧ row.acc = .rw := by
  refine rwWord_row ?_
  revert k
  cases reg <;> decide

theorem synRamp_row (k : Fin 8) :
    A.PLL_SYN_RAMP k.val % 4 = 0 ∧ ∃ row, rowOf (A.PLL_SYN_RAMP k.val) = some row ∧ row.acc = .rw := by
  refine rwWord_row ?_
  revert k
  decide

/-! What a write of them does. -/

section Writes
variable (s : State) (r : Req) (v : Nat) {k : Nat} (hk : k < 8)
include hk

/-- The effect of a write in a synthesizer's registers, by its number and the offset. -/
theorem writeEffect_syn {o : Nat} (ho : o < 0x40) : writeEffect s r (A.PLL_SYN_CFG k + o) v =
    (synRegAt o).elim (if o = 0x24 then writeRamp s k v else .plain) fun reg => writeSynReg s k reg v := by
  obtain ⟨hsyn, hoff⟩ := syn_of_address k ho
  have hlow : A.PLL_SYN_CFG 0 ≤ A.PLL_SYN_CFG k + o ∧ A.PLL_SYN_CFG k + o < A.PLL_SYN_CFG 8 := by
    simp only [A.PLL_SYN_CFG]; omega
  have hseg : entryOf2 (A.PLL_SYN_CFG k + o) (A.PLL_RAMP_SEG 0 0) 0x40 8 4 16 = none :=
    if_neg fun h => by have := h.1; simp only [A.PLL_RAMP_SEG, A.PLL_SYN_CFG] at this; omega
  have hpll : writeEffect s r (A.PLL_SYN_CFG k + o) v = writePll s (A.PLL_SYN_CFG k + o) v := by
    have h : 0x130000 ≤ A.PLL_SYN_CFG k + o ∧ A.PLL_SYN_CFG k + o < 0x140000 := by
      simp only [A.PLL_SYN_CFG]; omega
    rw [writeEffect]
    repeat rw [if_neg (by omega)]
    rw [if_pos h.2]
  rw [hpll, writePll, hseg]
  simp only [hsyn, hoff, if_pos hlow]
  cases synRegAt o <;> rfl

theorem writeEffect_synReg (reg : SynReg) :
    writeEffect s r (synRegAddr k reg) v =
      refuseIf (synRejects s k reg (v &&& maskOf (synRegAddr k reg)))
        (.does (synWrite s k reg (v &&& maskOf (synRegAddr k reg)))) := by
  rw [synRegAddr_at, writeEffect_syn s r v hk (synRegOff_lt reg), synRegAt_off, ← synRegAddr_at]
  rfl

theorem writeEffect_synRamp : writeEffect s r (A.PLL_SYN_RAMP k) v = writeRamp s k v := by
  rw [synRamp_at, writeEffect_syn s r v hk (by decide)]
  rfl

end Writes

/-! The words of GO with AT, and of STOP with AT. -/

theorem rampGoWord (b : Bool) : 1 + 2 * bit01 b < 2 ^ 32 ∧ (1 + 2 * bit01 b).testBit 0 = true ∧
    (1 + 2 * bit01 b).testBit 1 = b ∧ (1 + 2 * bit01 b).testBit 2 = false := by cases b <;> decide

theorem rampStopWord (b : Bool) : 4 + 2 * bit01 b < 2 ^ 32 ∧ (4 + 2 * bit01 b).testBit 0 = false ∧
    (4 + 2 * bit01 b).testBit 1 = b ∧ (4 + 2 * bit01 b).testBit 2 = true := by cases b <;> decide

theorem writeRamp_go (s : State) (k : Nat) (b : Bool) : writeRamp s k (1 + 2 * bit01 b) =
    refuseIf (rampRejects s k) (.does (rampGo (s.setBit (A.PLL_SYN_RAMP k) 1 b) k)) := by
  obtain ⟨-, hgo, hat, hstop⟩ := rampGoWord b
  simp [writeRamp, hgo, hat, hstop]

theorem writeRamp_stop (s : State) (k : Nat) (b : Bool) : writeRamp s k (4 + 2 * bit01 b) =
    .does (rampStop (s.setBit (A.PLL_SYN_RAMP k) 1 b) k) := by
  obtain ⟨-, hgo, hat, hstop⟩ := rampStopWord b
  simp [writeRamp, hgo, hat, hstop]

/-- A write that the register's own rules decide, by one condition. -/
theorem decided_of_refuseIf {c : Instr} {s : State} {r : Req} {a v : Nat} {bad : State → Bool} {t : State → State}
    (h : Ends c s (writePlain (heard s r 1) r a a v false))
    (he : writeEffect (heard s r 1) r a v = refuseIf (bad (heard s r 1)) (.does (t (heard s r 1)))) :
    Decided c s r a bad t := (ends_refuseIf h he).symm

/-! What a synthesizer holds beside its registers. -/

theorem outWanted_eq (s : State) (k : Nat) :
    outWanted s k = (s.bit (A.PLL_SYN_CFG k) 30 && decide (2 ≤ synState s k ∧ synState s k ≤ 4)) := by
  rw [outWanted, Bool.and_assoc, Bool.decide_and]

theorem syn_putSyn_self (s : State) (k : Nat) (h : SynHidden) : (putSyn s k h).syn k = h := by
  simp [State.syn, putSyn]

theorem syn_putSyn_ne (s : State) {k j : Nat} (h : SynHidden) (hj : j ≠ k) : (putSyn s k h).syn j = s.syn j := by
  simp [State.syn, putSyn, hj]

theorem syn_of_syns {s t : State} (h : t.syns = s.syns) (k : Nat) : t.syn k = s.syn k := by rw [State.syn, State.syn, h]

theorem regsKept_putSyn (s : State) (k : Nat) (h : SynHidden) (p : Nat → Bool) : RegsKept s (putSyn s k h) p :=
  fun _ _ => rfl

theorem regsKept_start (s : State) (t : Timer) (ns : Nat) (p : Nat → Bool) : RegsKept s (s.start t ns) p := fun _ _ => rfl

theorem BanksKept.trans {s t u : State} (h : BanksKept s t) (g : BanksKept t u) : BanksKept s u :=
  fun b i => (g b i).trans (h b i)

theorem banksKept_putSyn (s : State) (k : Nat) (h : SynHidden) : BanksKept s (putSyn s k h) := fun _ _ => rfl

theorem banksKept_start (s : State) (t : Timer) (ns : Nat) : BanksKept s (s.start t ns) := fun _ _ => rfl

theorem banksKept_setFld (s : State) (a hi lo v : Nat) : BanksKept s (s.setFld a hi lo v) :=
  banksKept_of_eq (setFld_mem s a hi lo v) (setFld_banks s a hi lo v)

theorem synState_setSynState (s : State) (k : Nat) {st : Nat} (h : st < 16) : synState (setSynState s k st) k = st :=
  fld_setFld_self s _ (by decide) (by decide) h

/-- A change of OUT_EN, and the open phase of a new lock, are not in the registers or the banks. -/
theorem lockedOutput_keeps (s : State) (k : Nat) : (∀ a, (outSoon (drawPhase s k) k).rd a = s.rd a) ∧
    BanksKept s (outSoon (drawPhase s k) k) := ⟨fun _ => rfl, fun _ _ => rfl⟩

/-! The output and its lock (R171, R173). -/

section Steps
variable {s : State} {k : Nat}

theorem synOutApply_fell (h : (s.syn k).turn = .fell) :
    synOutApply s k = putSyn s k { s.syn k with turn := .idle, outOn := outWanted s k } := if_pos h

theorem synLock_first (h : synState s k = 1) : synLock s k = outSoon (drawPhase (setSynState s k 2) k) k := if_pos h

theorem synLoseLock_locked (h : synState s k = 2) :
    synLoseLock s k = toRelock (setAligned (slewStop (synEvent s k 1) k) k false) k := by
  simp [synLoseLock, synRamping, h]

/-- A ramp that runs is abandoned, and relock targets N_T (R177). -/
theorem synLoseLock_ramping (h : synState s k = 3) :
    let u := setAligned (slewStop (rampAbort (synEvent s k 1) k) k) k false
    synLoseLock s k = toRelock (putSyn u k { u.syn k with present := some (synNt u k) }) k := by
  simp [synLoseLock, synRamping, h]

/-- What a regained lock does with the state, the timers and the phase. -/
def lockAgain (s : State) (k : Nat) : State :=
  synEvent (drawPhase (((setSynState s k 2).stop (.synRelock k)).stop (.synRetry k)) k) k 2

theorem synRelock_inRelock (h : synState s k = 4) : synRelock s k = lockAgain s k := by
  simp [synRelock, h, lockAgain]

theorem synRelock_inFault (h : synState s k = 5) : synRelock s k = outSoon (lockAgain s k) k := by
  simp [synRelock, h, lockAgain]

theorem synRelockFail_due (h : synState s k = 4) (hd : s.due (.synRelock k) = true) :
    let u := (setSynState s k 5).stop (.synRelock k)
    synRelockFail s k = (synEvent (putSyn u k { u.syn k with outOn := false }) k 128).start (.synRetry k) (10 * ms) :=
  if_pos (by rw [h, hd]; rfl)

theorem synRetry_due (h : synState s k = 5) (hd : s.due (.synRetry k) = true) :
    synRetry s k = s.start (.synRetry k) (10 * ms) := if_pos (by rw [h, hd]; rfl)

/-! Ramps (R175 to R177). -/

theorem rampAt_reached (hw : synWaits s k = true) (ha : synAtReached s k = true) : rampAt s k = rampStart s k :=
  if_pos (by rw [hw, ha]; rfl)

/-- The share of a segment that ends is made. -/
def segmentMade (s : State) (k : Nat) : State :=
  putSyn s k { s.syn k with
    done := (s.syn k).done + segShare s k (s.fld (A.PLL_SYN_STAT k) 23 16)
    segAt := s.now }

/-- The next segment of a ramp begins. -/
def nextSegment (s : State) (k : Nat) : State :=
  ((segmentMade s k).setFld (A.PLL_SYN_STAT k) 23 16 (s.fld (A.PLL_SYN_STAT k) 23 16 + 1)).start (.synSeg k)
    (segDur s k (s.fld (A.PLL_SYN_STAT k) 23 16 + 1))

theorem rampSegEnd_last (hr : synRamping s k = true) (hd : s.due (.synSeg k) = true)
    (hl : 15 ≤ s.fld (A.PLL_SYN_STAT k) 23 16 ∨ segDur s k (s.fld (A.PLL_SYN_STAT k) 23 16 + 1) = 0) :
    rampSegEnd s k = rampEnd s k := by
  simp only [rampSegEnd, hr, hd, Bool.and_self, if_true]
  exact if_pos hl

theorem rampSegEnd_more (hr : synRamping s k = true) (hd : s.due (.synSeg k) = true)
    (hl : ¬(15 ≤ s.fld (A.PLL_SYN_STAT k) 23 16 ∨ segDur s k (s.fld (A.PLL_SYN_STAT k) 23 16 + 1) = 0)) :
    rampSegEnd s k = nextSegment s k := by
  simp only [rampSegEnd, hr, hd, Bool.and_self, if_true]
  exact if_neg hl

/-- The number of the segment, the change made, the segment's time, and what stays. -/
theorem nextSegment_leaves (hj : s.fld (A.PLL_SYN_STAT k) 23 16 < 15) :
    (nextSegment s k).fld (A.PLL_SYN_STAT k) 23 16 = s.fld (A.PLL_SYN_STAT k) 23 16 + 1 ∧
      ((nextSegment s k).syn k).done = (s.syn k).done + segShare s k (s.fld (A.PLL_SYN_STAT k) 23 16) ∧
      (nextSegment s k).timer (.synSeg k) = some (s.now + segDur s k (s.fld (A.PLL_SYN_STAT k) 23 16 + 1)) ∧
      RegsKept s (nextSegment s k) (fun a => decide (a = A.PLL_SYN_STAT k)) ∧ BanksKept s (nextSegment s k) := by
  refine ⟨?_, ?_, ?_, ?_, ?_⟩
  · rw [nextSegment, State.fld, rd_start]
    exact fld_setFld_self (segmentMade s k) _ (by decide) (by decide) (by omega)
  · rw [nextSegment, syn_of_syns (start_syns _ _ _), syn_of_syns (setFld_syns _ _ _ _ _), segmentMade, syn_putSyn_self]
  · rw [nextSegment, timer_start_self, setFld_now]
    rfl
  · exact ((regsKept_putSyn s k _ _).trans (regsKept_setFld _ _ _ _ (decide_eq_true rfl))).trans
      (regsKept_start _ _ _ _)
  · exact ((banksKept_putSyn s k _).trans (banksKept_setFld _ _ _ _ _)).trans (banksKept_start _ _ _)

/-! Alignment (R178 to R180). -/

/-- The measured error is recorded; a request for one alignment and a slew in progress are over. -/
def alignTaken (s : State) (k late : Nat) : State :=
  let e := (alignError s k late).1
  let w := (alignError s k late).2
  slewStop (putSyn (w.wr (A.PLL_SYN_ALERR k) (ofSigned 32 e)) k { w.syn k with once := false }) k

/-- What an admitted edge of the alignment source does. -/
theorem synAlign_admitted {f : Bool} {late : Nat} (h : alignAdmits s k f = true) :
    let e := (alignError s k late).1
    let u := alignTaken s k late
    synAlign s k f late =
      if e.natAbs ≤ u.fld (A.PLL_SYN_ALIGN k) 15 0 then synEvent (setAligned u k true) k 64
      else if !u.bit (A.PLL_SYN_CFG k) 30 || u.bit (A.PLL_SYN_CFG k) 20 then
        synEvent (setAligned (stepPhase u k e) k true) k 32
      else setAligned (slewBegin u k e) k false := if_pos h

theorem synSlewDone_absorbed {ppb : Nat} (h : (s.syn k).slewing = some (0, ppb)) :
    synSlewDone s k = setAligned (slewStop s k) k true := if_pos (by rw [h]; rfl)

theorem slewDone_leaves (s : State) (k : Nat) :
    let t := setAligned (slewStop s k) k true
    t.bit (A.PLL_SYN_STAT k) 27 = true ∧ (t.syn k).slewing = none ∧
      RegsKept s t (fun a => decide (a = A.PLL_SYN_STAT k)) ∧ BanksKept s t := by
  refine ⟨bit_setBit_true (slewStop s k) _ (by decide), ?_, ?_, ?_⟩
  · rw [setAligned, syn_of_syns (setBit_syns _ _ _ _), slewStop, syn_putSyn_self]
  · exact (regsKept_putSyn s k _ _).trans (regsKept_setBit _ _ _ (decide_eq_true rfl))
  · exact (banksKept_putSyn s k _).trans (banksKept_setFld _ _ _ _ _)

theorem firstLock_leaves (s : State) (k : Nat) :
    let t := outSoon (drawPhase (setSynState s k 2) k) k
    synState t k = 2 ∧ RegsKept s t (fun a => decide (a = A.PLL_SYN_STAT k)) ∧ BanksKept s t := by
  obtain ⟨hrd, hbanks⟩ := lockedOutput_keeps (setSynState s k 2) k
  refine ⟨?_, fun a ha => (hrd a).trans ?_, BanksKept.trans ?_ hbanks⟩
  · rw [synState, State.fld, hrd]
    exact synState_setSynState s k (by decide)
  · exact regsKept_setFld s (p := fun a => decide (a = A.PLL_SYN_STAT k)) _ _ _ (decide_eq_true rfl) a ha
  · exact banksKept_setFld s _ _ _ _

end Steps

end Sys2Proof.Machine
end

section
/-! What the data path leaves as it is: frames that are cut or dropped, pauses, releases of a trunk and their events change
the buffers, the trunks, and what a raise can change. -/

namespace Sys2Proof.Machine

/-- The state without the buffers, the trunks, and the parts that a raise can change. -/
def apart (s : State) : State := { asBefore State.reset s with buf := State.reset.buf, trunks := State.reset.trunks }

/-- A field that none of these parts is stays where the rest stays. -/
theorem keeps_of_apart {α : Type} (f : State → α) (hf : ∀ u, f (apart u) = f u) {s t : State} (h : apart t = apart s) :
    f t = f s := by rw [← hf t, h, hf]

/-! One part of it. The proofs split the state, so that `simp` takes these equations as such and unfolds no register. -/

theorem apart_regs (s : State) (m : List (Nat × Word)) : apart { s with regs := m } = apart s := by cases s; rfl
theorem apart_timers (s : State) (l : List (Timer × Nat)) : apart { s with timers := l } = apart s := by cases s; rfl
theorem apart_draws (s : State) (n : Nat) : apart { s with draws := n } = apart s := by cases s; rfl
theorem apart_out (s : State) (l : List Out) : apart { s with out := l } = apart s := by cases s; rfl
@[simp] theorem apart_buf (s : State) (b : BufHidden) : apart { s with buf := b } = apart s := by cases s; rfl
theorem apart_trunks (s : State) (l : List (Nat × TrunkHidden)) : apart { s with trunks := l } = apart s := by
  cases s; rfl

/-! Registers, timers, counters and events. -/

@[simp] theorem apart_wr (s : State) (a v : Nat) : apart (s.wr a v) = apart s := apart_regs s _
@[simp] theorem apart_setFld (s : State) (a hi lo v : Nat) : apart (s.setFld a hi lo v) = apart s := apart_wr s a _
@[simp] theorem apart_setBit (s : State) (a i : Nat) (b : Bool) : apart (s.setBit a i b) = apart s := apart_setFld s a i i _
@[simp] theorem apart_addSat (s : State) (a hi lo n : Nat) : apart (s.addSat a hi lo n) = apart s :=
  apart_setFld s a hi lo _
@[simp] theorem apart_add64 (s : State) (a n : Nat) : apart (s.add64 a n) = apart s := by
  simp only [State.add64, State.wr64, apart_wr]
@[simp] theorem apart_wrTime (s : State) (a t : Nat) : apart (s.wrTime a t) = apart s := by
  simp only [State.wrTime, apart_wr]
@[simp] theorem apart_start (s : State) (t : Timer) (ns : Nat) : apart (s.start t ns) = apart s := apart_timers s _
@[simp] theorem apart_stop (s : State) (t : Timer) : apart (s.stop t) = apart s := apart_timers s _
@[simp] theorem apart_emit (s : State) (o : Out) : apart (s.emit o) = apart s := apart_out s _
@[simp] theorem apart_openBytes (s : State) (n : Nat) : apart (s.openBytes n).2 = apart s := apart_draws s _

@[simp] theorem apart_pmcEvent (s : State) (g ev n : Nat) : apart (s.pmcEvent g ev n) = apart s := by
  obtain ⟨m, w, h, -⟩ := pmcEvent_shape s g ev n
  rw [h]
  rfl

theorem apart_event (s : State) {src : Nat} (evt en mask forced : Nat) (h : src < 1024) :
    apart (s.event evt en src mask forced) = apart s := event_keeps (fun _ _ _ => rfl) (fun _ _ => rfl) s evt en mask forced h

@[simp] theorem apart_qmEvent (s : State) (mask : Nat) : apart (qmEvent s mask) = apart s :=
  apart_event s _ _ _ _ (by decide)
@[simp] theorem apart_lldEvent (s : State) (mask : Nat) : apart (lldEvent s mask) = apart s :=
  apart_event s _ _ _ _ (by decide)
@[simp] theorem apart_loopEvent (s : State) (mask : Nat) : apart (loopEvent s mask) = apart s :=
  apart_event s _ _ _ _ (by decide)

@[simp] theorem apart_slag (s : State) (cause : Nat) : apart (slag s cause) = apart s := by simp [slag]
@[simp] theorem apart_countCause (s : State) (c : Nat) : apart (countCause s c) = apart s := by simp [countCause]
@[simp] theorem apart_countDrop (s : State) (e c d : Nat) : apart (countDrop s e c d) = apart s := by simp [countDrop]
@[simp] theorem apart_countWithheld (s : State) (e : Nat) : apart (countWithheld s e) = apart s := by simp [countWithheld]

@[simp] theorem apart_lldLog (s : State) (sent : Bool) (cause : Nat) (f : Frame) (e tgt late : Nat) (aon : Bool) :
    apart (lldLog s sent cause f e tgt late aon) = apart s := by
  simp only [lldLog, apart_setFld, apart_wr, apart_wrTime]

/-! The records of the buffers and of the trunks. -/

@[simp] theorem apart_putEg (s : State) (p : Nat) (h : EgressHidden) : apart (putEg s p h) = apart s := apart_buf s _
@[simp] theorem apart_putPg (s : State) (g : Nat) (h : PgHidden) : apart (putPg s g h) = apart s := apart_buf s _
@[simp] theorem apart_putPkt (s : State) (k : Pkt) : apart (putPkt s k) = apart s := apart_buf s _
@[simp] theorem apart_putFrame (s : State) (f : Frame) : apart (putFrame s f) = apart s := apart_buf s _
@[simp] theorem apart_dropPkt (s : State) (id : Nat) : apart (dropPkt s id) = apart s := apart_buf s _
@[simp] theorem apart_putTrunk (s : State) (p : Nat) (h : TrunkHidden) : apart (putTrunk s p h) = apart s :=
  apart_trunks s _
@[simp] theorem apart_endAon (s : State) (fid : Nat) : apart (endAon s fid) = apart s := apart_buf s _
@[simp] theorem apart_aonFails (s : State) (fid e cause tgt : Nat) : apart (aonFails s fid e cause tgt) = apart s := apart_buf s _

/-! Pauses and releases (R111, R260 to R262). -/

@[simp] theorem apart_emitPfc (s : State) (p c quanta : Nat) : apart (emitPfc s p c quanta) = apart s := by
  unfold emitPfc
  split <;> simp

@[simp] theorem apart_servePfc (s : State) (p : Nat) : apart (servePfc s p) = apart s := by
  unfold servePfc
  split
  · rfl
  · split <;> simp

@[simp] theorem apart_sendPfc (s : State) (p c quanta : Nat) : apart (sendPfc s p c quanta) = apart s := by simp [sendPfc]

@[simp] theorem apart_releaseWithheld (s : State) (p c : Nat) : apart (releaseWithheld s p c) = apart s := by
  unfold releaseWithheld
  split <;> simp

@[simp] theorem apart_resumeClass (s : State) (p c : Nat) : apart (resumeClass s p c) = apart s := by
  unfold resumeClass
  split_ifs <;> simp

@[simp] theorem apart_pauseGroup (s : State) (g : Nat) : apart (pauseGroup s g) = apart s := by
  unfold pauseGroup
  simp only []
  split_ifs <;> simp

@[simp] theorem apart_resumeGroup (s : State) (g : Nat) : apart (resumeGroup s g) = apart s := by simp [resumeGroup]

@[simp] theorem apart_refreshPg (s : State) (g : Nat) : apart (refreshPg s g) = apart s := by
  unfold refreshPg
  split_ifs <;> simp

@[simp] theorem apart_refreshGlobal (s : State) : apart (refreshGlobal s) = apart s := by
  unfold refreshGlobal
  simp only []
  split_ifs <;> simp [foldl_keeps apart_refreshPg]

@[simp] theorem apart_releaseBlock (s : State) (p : Nat) (b : HeldBlock) : apart (releaseBlock s p b) = apart s := by
  unfold releaseBlock
  split <;> simp

@[simp] theorem apart_releaseReady (s : State) (p : Nat) : apart (releaseReady s p) = apart s := by
  unfold releaseReady
  simp only []
  split
  · rfl
  · simp [foldl_keeps fun s b => apart_releaseBlock s p b]

@[simp] theorem apart_pgLeave (s : State) (g k : Nat) : apart (pgLeave s g k) = apart s := by
  unfold pgLeave
  split <;> simp

@[simp] theorem apart_refreshPressure (s : State) (g : Nat) : apart (refreshPressure s g) = apart s := by
  simp [refreshPressure]

@[simp] theorem apart_refreshTier (s : State) (e q : Nat) : apart (refreshTier s e q) = apart s := by
  unfold refreshTier
  split <;> simp

/-! Copies and frames that leave (R250, R270, R305 to R310). -/

@[simp] theorem apart_freeFrame (s : State) (fid : Nat) : apart (freeFrame s fid) = apart s := by
  unfold freeFrame
  split
  · rfl
  · split_ifs <;> simp

@[simp] theorem apart_removePkt (s : State) (k : Pkt) : apart (removePkt s k) = apart s := by
  unfold removePkt
  simp only [apart_freeFrame, apart_refreshTier]
  split
  · split_ifs <;> simp
  · simp

@[simp] theorem apart_dropOverdue (s : State) (k : Pkt) (f : Frame) (w : LlInfo) (cause slagCause : Nat) :
    apart (dropOverdue s k f w cause slagCause) = apart s := by
  simp only [dropOverdue, apart_lldLog, apart_removePkt, apart_lldEvent, apart_slag, apart_add64]
  split
  · exact apart_countCause s 6
  · rfl

@[simp] theorem apart_aonCommit (s : State) (f : Frame) (a : AonHidden) : apart (aonCommit s f a) = apart s := by
  unfold aonCommit
  simp only []
  split
  · rw [foldl_keeps (f := apart) fun s k => ?_]
    · simp
    · split <;> simp
  · rw [foldl_keeps (f := apart) fun s k => ?_]
    · simp
    · simp

@[simp] theorem apart_aonSeen (s : State) (f : Frame) (e cause tgt : Nat) : apart (aonSeen s f e cause tgt) = apart s := by
  unfold aonSeen
  split
  · rfl
  · simp only []
    split
    · exact apart_aonCommit s f _
    · rfl

@[simp] theorem apart_lldDrop (s : State) (k : Pkt) (cause slagCause : Nat) :
    apart (lldDrop s k cause slagCause) = apart s := by
  unfold lldDrop
  split
  · rfl
  · split
    · simp
    · simp only []
      split <;> split_ifs <;> simp

@[simp] theorem apart_lldMiss (s : State) (k : Pkt) (w : LlInfo) (cause : Nat) : apart (lldMiss s k w cause) = apart s := by
  unfold lldMiss
  split_ifs <;> simp

@[simp] theorem apart_restream (s : State) (p c : Nat) (good bad : List Byte) :
    apart (restream s p c good bad) = apart s := by
  unfold restream
  simp only []
  split
  · rfl
  · split <;> simp

@[simp] theorem apart_stompAs (s : State) (k : Pkt) (f g : Frame) : apart (stompAs s k f g) = apart s := by
  unfold stompAs
  simp only []
  split
  · rfl
  · refine (apart_out _ _).trans ?_
    split <;> simp

theorem apart_cutFrame (s : State) (f : Frame) {drop : State → Pkt → State} (h : ∀ s k, apart (drop s k) = apart s) :
    apart (cutFrame s f drop) = apart s := by
  unfold cutFrame
  simp only [apart_refreshGlobal]
  rw [foldl_keeps (f := apart) fun s k => ?_]
  · split <;> simp
  · split_ifs <;> simp [h]

/-! Paths that stall and run again (R182, R183). -/

@[simp] theorem apart_xoffPort (s : State) (p : Nat) (cs : List Nat) : apart (xoffPort s p cs) = apart s := by
  unfold xoffPort
  split
  · rfl
  · exact foldl_keeps (fun s c => apart_sendPfc s p c _) cs s

@[simp] theorem apart_lolDrop (s : State) : apart (lolDrop s) = apart s := by simp [lolDrop]

@[simp] theorem apart_lolLose (s : State) (k : Pkt) : apart (lolLose s k) = apart s := by
  unfold lolLose
  split <;> simp

@[simp] theorem apart_stallPort (s : State) (p : Nat) : apart (stallPort s p) = apart s := by
  simp only [stallPort, apart_xoffPort]
  exact foldl_keeps (fun s f => apart_cutFrame s f apart_lolLose) _ s

@[simp] theorem apart_missWindows (s : State) (p : Nat) : apart (missWindows s p) = apart s := by
  refine foldl_keeps (fun s k => ?_) _ s
  split
  · split <;> simp
  · rfl

@[simp] theorem apart_unstallPort (s : State) (p : Nat) : apart (unstallPort s p) = apart s := by
  unfold unstallPort
  simp only []
  split
  · simp
  · rw [foldl_keeps (f := apart) fun s c => ?_]
    · simp
    · split <;> simp

@[simp] theorem apart_stallChanges (before s : State) : apart (stallChanges before s) = apart s := by
  refine foldl_keeps (fun s p => ?_) _ s
  split_ifs <;> simp

end Sys2Proof.Machine
end

section
/-! Island loops: a loss of lock, a relock, a failed acquisition, and the stamps' flag (R182 to R184). -/

namespace Sys2Proof.Machine

theorem ends_onLoop {i : Loop} {c : Instr} {s t : State} {f : State → State} (hc : exec c s = onLoop s i f)
    (h : (if loopKey i = 11 then s.power.ka else s.power.die) = true) (ht : f s = t) : Ends c s t := by
  rw [onLoop] at hc
  split at h
  · rename_i hi
    exact ends_onKeep (hc.trans (if_pos hi)) h ht
  · rename_i hi
    exact ends_onDie (hc.trans (if_neg hi)) h ht

/-! The island of a loop that loses lock stops, whatever its ports then transmit or drop. -/

@[simp] theorem apart_setPlol (s : State) (p : Nat) (b : Bool) : apart (setPlol s p b) = apart s := apart_setBit s _ _ b

@[simp] theorem apart_spoilTx (s : State) (p : Nat) : apart (spoilTx s p) = apart s := by
  unfold spoilTx
  split
  · exact apart_out s _
  · rfl

/-- What a loop that loses lock changes of its own: its status, and the stamps' flag of its ports (R183). -/
def loopUnlocked (s : State) (i : Nat) : State :=
  let u := putLoop s i { s.loopOf i with stopped := true }
  let u := if i < 12 then (u.setBit (A.PLL_CPLL_STAT i) 31 false).addSat (A.PLL_CPLL_STAT i) 23 16 1
    else setPlol u (i - 12) true
  { u with lolPorts := lolOf i ++ u.lolPorts.filter fun p => !decide (p ∈ lolOf i) }

theorem loops_loopUnlocked (s : State) (i : Nat) :
    (loopUnlocked s i).loops = (putLoop s i { s.loopOf i with stopped := true }).loops := by
  refine keeps_of_apart (t := if i < 12 then _ else _) State.loops (fun _ => rfl) ?_
  split <;> simp

theorem loopLose_running {s : State} {i : Nat} (h : loopStopped s i = false) :
    loopLose s i = loopEvent (stallChanges s ((loopUnlocked s i).start (.loop i) ms)) (if i < 12 then 2 ^ i else 2 ^ 12) :=
  if_neg (by rw [h]; decide)

theorem loops_loopLose {s : State} {i : Nat} (h : loopStopped s i = false) :
    (loopLose s i).loops = (putLoop s i { s.loopOf i with stopped := true }).loops := by
  rw [loopLose_running h, ← loops_loopUnlocked]
  exact keeps_of_apart State.loops (fun _ => rfl) (by simp)

theorem loopStopped_lost {s : State} {i : Nat} (h : loopStopped s i = false) :
    loopStopped ((lolOf i).foldl spoilTx (loopLose s i)) i = true := by
  have hloops : ((lolOf i).foldl spoilTx (loopLose s i)).loops = (loopLose s i).loops :=
    keeps_of_apart State.loops (fun _ => rfl) (foldl_keeps apart_spoilTx _ _)
  simp [loopStopped, hloops, loops_loopLose h, putLoop]

theorem loopLost_running {s : State} {i : Nat} (h : loopStopped s i = false) :
    loopLost s i = (lolOf i).foldl spoilTx (loopLose s i) := if_neg (by rw [h]; decide)

/-- The failed acquisitions of a loop within the last 10 s, with the one of this instant (R184). -/
def acquisitionFails (s : State) (i : Nat) : List Nat :=
  ((s.loopOf i).fails.filter fun t => decide (s.now < t + 10000 * ms)) ++ [s.now]

theorem loopTimeout_due {s : State} {i : Nat} (h : s.due (.loop i) = true) :
    let u := putLoop s i { s.loopOf i with fails := acquisitionFails s i }
    loopTimeout s i = if 3 ≤ (acquisitionFails s i).length then loopFail u i else u.start (.loop i) ms :=
  if_neg (by rw [h]; decide)

/-- The flag of a port goes where its own loop and LSYN run. -/
theorem lolClear_running {s : State} {p : Nat} (h : s.portRuns p = true) :
    lolClear s p = { s with lolPorts := s.lolPorts.filter (· ≠ p) } := by
  simp only [State.portRuns, portIslandRuns, Machine.islandRuns, Bool.and_eq_true, Bool.not_eq_true'] at h
  obtain ⟨-, ⟨hport, -⟩, hlsyn, -⟩ := h
  exact if_neg (by rw [hport, hlsyn]; decide)

end Sys2Proof.Machine

namespace Sys2Proof.Proofs
open Sys2Proof.Machine

/-- Settles O26: a synthesizer's registers decide their writes, each event is the step of the synthesizer or the loop where
its conditions hold, and nothing that a loss of lock cuts short or drops makes the island run again. -/
theorem synthAndLoopCommands : Obligations.SynthAndLoopCommands := by
  refine ⟨?config, ?output, ?lost, ?regained, ?late, ?retry, ?go, ?started, ?segment, ?stop, ?edge, ?slewed, ?locked,
    ?loopLost, ?loopLocked, ?loopLate, ?flag⟩
  case config =>
    intro s r k reg v a h
    obtain ⟨h4, row, hrow, hrw⟩ := synReg_row k reg
    have hend := ends_writeRw (c := .synCfgWrite r k reg v) (v := v.toNat) rfl h h4 hrow hrw
    rw [Nat.mod_eq_of_lt v.isLt] at hend
    exact decided_of_refuseIf hend (writeEffect_synReg _ r v.toNat k.isLt reg)
  case output =>
    intro s k h hf
    have hend : Ends (.synOutputEnableApply k) s _ :=
      ends_onTclk (f := fun s => synOutApply s k.val) rfl h (synOutApply_fell hf)
    refine hend.endsWith_of ⟨?_, ?_, fun j hj => syn_putSyn_ne s _ hj, fun _ _ => rfl, fun _ _ => rfl⟩ fun _ _ _ ht => ht
    · rw [syn_putSyn_self, outWanted_eq]
    · rw [syn_putSyn_self]
  case lost =>
    intro s k h
    have hend {t : State} : synLoseLock s k.val = t → Ends (.synLockLost k) s t :=
      ends_onTclk (f := fun s => synLoseLock s k.val) rfl h
    exact ⟨fun hs => hend (synLoseLock_locked hs), fun hs => hend (synLoseLock_ramping hs)⟩
  case regained =>
    intro s k h u
    have hend {t : State} : synRelock s k.val = t → Ends (.synRelocked k) s t :=
      ends_onTclk (f := fun s => synRelock s k.val) rfl h
    exact ⟨fun hs => hend (synRelock_inRelock hs), fun hs => hend (synRelock_inFault hs)⟩
  case late =>
    intro s k h hs hd u
    exact ends_onTclk (f := fun s => synRelockFail s k.val) rfl h (synRelockFail_due hs hd)
  case retry =>
    intro s k h hs hd
    have hend : Ends (.synRelockRetry k) s _ := ends_onTclk (f := fun s => synRetry s k.val) rfl h (synRetry_due hs hd)
    exact hend.endsWith_of ⟨timer_start_self s _ _, fun _ _ => rfl, fun _ _ => rfl⟩ fun _ _ _ ht => ht
  case go =>
    intro s r k b h
    obtain ⟨h4, row, hrow, hrw⟩ := synRamp_row k
    have hend := ends_writeRw (c := .synRampGo r k b) rfl h h4 hrow hrw
    rw [Nat.mod_eq_of_lt (rampGoWord b).1] at hend
    exact decided_of_refuseIf hend ((writeEffect_synRamp _ r _ k.isLt).trans (writeRamp_go _ _ b))
  case started =>
    intro s k h hg hw ha
    exact ends_onTclk_noGap (f := fun s => rampAt s k.val) rfl h hg (rampAt_reached hw ha)
  case segment =>
    intro s k h hg hr hd j
    have hend {t : State} : rampSegEnd s k.val = t → Ends (.synRampSegmentEnd k) s t :=
      ends_onTclk_noGap (f := fun s => rampSegEnd s k.val) rfl h hg
    refine ⟨fun hl => hend (rampSegEnd_last hr hd hl), fun hj hn => ?_⟩
    have hmore : ¬(15 ≤ j ∨ segDur s k.val (j + 1) = 0) := by omega
    exact (hend (rampSegEnd_more hr hd hmore)).endsWith_of (nextSegment_leaves hj) fun _ _ _ ht => ht
  case stop =>
    intro s r k h u
    obtain ⟨h4, row, hrow, hrw⟩ := synRamp_row k
    have hend := ends_writeRw (c := .synRampStop r k) rfl h h4 hrow hrw
    rwa [Nat.mod_eq_of_lt (rampStopWord _).1,
      writePlain_does false ((writeEffect_synRamp _ r _ k.isLt).trans (writeRamp_stop _ _ _))] at hend
  case edge =>
    intro s k f late h hg ha e w u near step
    have hend {t : State} : synAlign s k.val f late.val = t → Ends (.synAlignEdge k f late) s t :=
      ends_onTclk_noGap (f := fun s => synAlign s k.val f late.val) rfl h hg
    have hdoes := synAlign_admitted (late := late.val) ha
    have hstep : (!u.bit (A.PLL_SYN_CFG k.val) 30 || u.bit (A.PLL_SYN_CFG k.val) 20) = true ↔ step := by simp [step]
    exact ⟨fun hn => hend (hdoes.trans (if_pos hn)),
      fun hn hs => hend (hdoes.trans ((if_neg hn).trans (if_pos (hstep.2 hs)))),
      fun hn hs => hend (hdoes.trans ((if_neg hn).trans (if_neg (mt hstep.1 hs))))⟩
  case slewed =>
    intro s k ppb h hs
    have hend : Ends (.synAlignSlewDone k) s _ :=
      ends_onTclk (f := fun s => synSlewDone s k.val) rfl h (synSlewDone_absorbed hs)
    exact hend.endsWith_of (slewDone_leaves s k.val) fun _ _ _ ht => ht
  case locked =>
    intro s k h hs
    have hend : Ends (.synLockAcquired k) s _ := ends_onTclk (f := fun s => synLock s k.val) rfl h (synLock_first hs)
    exact hend.endsWith_of (firstLock_leaves s k.val) fun _ _ _ ht => ht
  case loopLost =>
    intro s i h hrun
    have hend : Ends (.islandLoopLockLoss i) s _ :=
      ends_onLoop (f := fun s => loopLost s (loopKey i)) rfl h (loopLost_running hrun)
    exact hend.endsWith ⟨rfl, loopStopped_lost hrun⟩
  case loopLocked =>
    intro s i h _ _
    exact ends_onLoop (f := fun s => rampPending (settle (loopRestart s (loopKey i)))) rfl h rfl
  case loopLate =>
    intro s i h hd x fails u
    have hend {t : State} : loopTimeout s (loopKey i) = t → Ends (.islandLoopRelockTimeout i) s t :=
      ends_onLoop (f := fun s => loopTimeout s (loopKey i)) rfl h
    exact ⟨fun hl => hend ((loopTimeout_due hd).trans (if_neg (Nat.not_le.2 hl))),
      fun hl => hend ((loopTimeout_due hd).trans (if_pos hl))⟩
  case flag =>
    intro s p h
    have hdie : s.power.die = true := (Bool.and_eq_true_iff.1 h).1
    have hend : Ends (.lolFlagClear p) s _ := ends_onDie (f := fun s => lolClear s p.val) rfl hdie (lolClear_running h)
    exact hend.endsWith_of ⟨rfl, fun _ _ => rfl, fun _ _ => rfl⟩ fun _ _ _ ht => ht

end Sys2Proof.Proofs
end

section
/-! Pulse outputs: writes of their registers, edges, fire requests, alignment and the installation of a trim (R187 to
R198). -/

namespace Sys2Proof.Machine

/-! Writes of registers whose effect is the block's own. -/

/-- A write of a WO register ends in what its block does with the value. -/
theorem ends_writeWo {c : Instr} {s t : State} {r : Req} {a v : Nat} {row : RegRow}
    (hc : exec c s = done s (write32 s r a v)) (h : s.listens r a = true) (ha : a % 4 = 0) (hr : rowOf a = some row)
    (hwo : row.acc = .wo) (hv : v < 2 ^ 32) (he : writeEffect (heard s r 1) r a v = .does t) : Ends c s t := by
  have hw := write32_served v h ha hr
  rw [Nat.mod_eq_of_lt hv, served_wo hwo, writePlain_does true he] at hw
  exact ends_of_exec (hc.trans (congrArg (done s) hw))

/-- A register of member `i` of an array of registers. -/
theorem entryOf_member (base : Nat) {stride n i : Nat} (hs : 0 < stride) (hi : i < n) :
    entryOf (base + i * stride) base stride n = some i := by
  have hend : i * stride < stride * n := by rw [Nat.mul_comm]; exact Nat.mul_lt_mul_of_pos_left hi hs
  have hoff : base + i * stride - base = i * stride := by omega
  rw [entryOf, hoff, if_pos ⟨by omega, by omega, Nat.mul_mod_left i stride⟩, Nat.mul_div_cancel i hs]

theorem writeEffect_pls (s : State) (r : Req) {a : Nat} (v : Nat) (h : 0x140000 ≤ a) (h' : a < 0x150000) :
    writeEffect s r a v = writePls s r a v := by
  rw [writeEffect]
  repeat rw [if_neg (by omega)]
  rw [if_pos h']

theorem rowOf_plsArm : rowOf A.PLS_ARM = some ⟨0x0, 1, 0x4, 1, 0x4, .wo, 0xffffffff, 0x0, false, false⟩ := by decide

theorem rowOf_plsStop : rowOf A.PLS_STOP = some ⟨0x4, 1, 0x4, 1, 0x4, .wo, 0xffffffff, 0x0, false, false⟩ := by decide

theorem plsOutCfg_row (k : Fin 32) :
    A.PLS_OUT_CFG k.val % 4 = 0 ∧ ∃ row, rowOf (A.PLS_OUT_CFG k.val) = some row ∧ row.acc = .rw := by
  refine rwWord_row ?_
  revert k
  decide

section Writes
variable (s : State) (r : Req) (v : Nat)

theorem writeEffect_plsArm : writeEffect s r A.PLS_ARM v = .does (writeArm s r v) :=
  (writeEffect_pls s r v (by decide) (by decide)).trans (if_pos rfl)

theorem writeEffect_plsStop : writeEffect s r A.PLS_STOP v = .does ((bitsSet v 32).foldl stopOutput s) :=
  (writeEffect_pls s r v (by decide) (by decide)).trans ((if_neg (by decide)).trans (if_pos rfl))

theorem writeEffect_plsOutCfg {k : Nat} (hk : k < 32) : writeEffect s r (A.PLS_OUT_CFG k) v =
    refuseIf (decide (bits v 22 21 = 3) || decide (5 ≤ bits v 20 18)) (.does (writeOutCfg s k (v &&& 0xFFFFE000))) := by
  have hentry : entryOf (A.PLS_OUT_CFG k) (A.PLS_OUT_CFG 0) 0x40 32 = some k := entryOf_member 0x141000 (by decide) hk
  obtain ⟨hlow, hhigh⟩ : 0x141000 ≤ A.PLS_OUT_CFG k ∧ A.PLS_OUT_CFG k < 0x150000 := by rw [A.PLS_OUT_CFG]; omega
  rw [writeEffect_pls s r v (by omega) hhigh, writePls, if_neg (by rw [A.PLS_ARM]; omega),
    if_neg (by rw [A.PLS_STOP]; omega)]
  simp only [hentry]
  rfl

end Writes

/-! ARM (R187, R188) and EN = 0 (R189). -/

theorem armBad_eq_nil_iff (s : State) (mask : Nat) :
    armBad s mask = [] ↔ ∀ k, k < 32 → mask.testBit k = true → armRejects s k = false := by
  simp only [armBad, bitsSet, List.filter_eq_nil_iff, List.mem_filter, List.mem_range, Bool.not_eq_true, and_imp]

theorem writeArm_accepted {s : State} (r : Req) {mask : Nat}
    (h : ∀ k, k < 32 → mask.testBit k = true → armRejects s k = false) : writeArm s r mask = armOutputs s mask :=
  if_pos (by rw [(armBad_eq_nil_iff s mask).2 h]; rfl)

theorem writeArm_rejected {s : State} (r : Req) {mask : Nat}
    (h : ∃ k, k < 32 ∧ mask.testBit k = true ∧ armRejects s k = true) :
    writeArm s r mask = rejected (armOutputs s mask) r A.PLS_ARM := by
  obtain ⟨k, hk, hm, hbad⟩ := h
  refine if_neg fun he => ?_
  have hok := (armBad_eq_nil_iff s mask).1 (List.isEmpty_iff.1 he) k hk hm
  exact absurd (hbad.symm.trans hok) (by decide)

/-- EN is among the implemented bits of OUTk_CFG. -/
theorem outCfgMask_en (v : Nat) : (v &&& 0xFFFFE000).testBit 31 = v.testBit 31 := by
  rw [Nat.testBit_and, show Nat.testBit 0xFFFFE000 31 = true by decide, Bool.and_true]

/-! Edges that fall due (R192 to R194). -/

theorem fallFirst_noPulse {s : State} {k : Nat} (h : (s.out1 k).fall = none) : fallFirst s k = s := by
  simp [fallFirst, h]

/-- An output in WAIT or RUN that no STOP ends takes its rising edges. -/
theorem takesRises {s : State} {k : Nat} (hst : plsState s k = 1 ∨ plsState s k = 2)
    (hstop : (s.out1 k).stopping = false) :
    ¬(plsState s k ≠ 1 ∧ plsState s k ≠ 2 ∨ (s.out1 k).stopping = true) := by
  simp only [hstop, Bool.false_eq_true, or_false]
  omega

section Edges
variable {s : State} {k : Nat} {p : PlsSet} {t : Nat} (hg : inGap s = false) (hact : (s.out1 k).active = some p)
include hg hact

/-- A falling edge that its time base has reached. -/
theorem plsFall_due (hf : (s.out1 k).fall = some t) (ht : t ≤ tbFine s p.base) : plsFall s k = endPulse s k p t := by
  simp [plsFall, hg, hact, hf, ht]

variable (hf : (s.out1 k).fall = none) (hst : plsState s k = 1 ∨ plsState s k = 2)
  (hstop : (s.out1 k).stopping = false) (ht : t ≤ tbFine s p.base)
include hf hst hstop ht

/-- The next edge of a schedule or of a burst. -/
theorem plsRise_next (hm : p.mode ≠ 2) (hn : (s.out1 k).next = some t) :
    plsRise s k = if p.mode = 3 then riseBurst s k p t else riseGrid s k p t := by
  simp only [plsRise, hg, Bool.false_eq_true, if_false, fallFirst_noPulse hf, hact, if_neg (takesRises hst hstop),
    if_neg hm, hn, if_pos ht]

/-- The first request of an EXT queue. -/
theorem plsRise_ext (hm : p.mode = 2) (hq : (s.out1 k).queue.head? = some t) : plsRise s k = riseExt s k p t := by
  obtain ⟨l, hl⟩ := List.head?_eq_some_iff.1 hq
  simp only [plsRise, hg, Bool.false_eq_true, if_false, fallFirst_noPulse hf, hact, if_neg (takesRises hst hstop),
    if_pos hm, hl, if_pos ht]

end Edges

/-! What an output holds beside its registers. -/

theorem out1_putOut_self (s : State) (k : Nat) (h : PlsHidden) : (putOut s k h).out1 k = h := by
  simp [State.out1, putOut]

theorem out1_putOut_ne (s : State) {k j : Nat} (h : PlsHidden) (hj : j ≠ k) : (putOut s k h).out1 j = s.out1 j := by
  simp [State.out1, putOut, hj]

theorem out1_of_pls {s t : State} (h : t.pls = s.pls) (k : Nat) : t.out1 k = s.out1 k := by
  rw [State.out1, State.out1, h]

theorem regsKept_putOut (s : State) (k : Nat) (h : PlsHidden) (p : Nat → Bool) : RegsKept s (putOut s k h) p :=
  fun _ _ => rfl

theorem banksKept_putOut (s : State) (k : Nat) (h : PlsHidden) : BanksKept s (putOut s k h) := fun _ _ => rfl

/-! Fire requests (R193). -/

/-- The queue with a request for `t` in fire-time order, behind those for `t`. -/
def queueWith (h : PlsHidden) (t : Nat) : List Nat :=
  h.queue.filter (fun x => decide (x ≤ t)) ++ [t] ++ h.queue.filter fun x => decide (t < x)

/-- The request for `t` is queued. -/
def requestQueued (s : State) (k t : Nat) : State :=
  setDepth (putOut s k { s.out1 k with queue := queueWith (s.out1 k) t }) k

/-- The request comes in time, finds a free place, and lies behind the falling edges before it. -/
def requestFits (s : State) (k : Nat) (p : PlsSet) (t : Nat) : Prop :=
  tbFine s p.base + 100 * nsU ≤ t ∧ (s.out1 k).queue.length < 16 ∧
    (earlierFall (s.out1 k) p t = 0 ∨ earlierFall (s.out1 k) p t + 2 * nsU ≤ t)

/-- A request that does not fit comes late, finds the queue full, or comes too close to a pulse before it. -/
theorem requestFits_iff (s : State) (k : Nat) (p : PlsSet) (t : Nat) : requestFits s k p t ↔
    ¬(t < tbFine s p.base + 100 * nsU ∨ 16 ≤ (s.out1 k).queue.length ∨
      (0 < earlierFall (s.out1 k) p t ∧ t < earlierFall (s.out1 k) p t + 2 * nsU)) := by
  rw [requestFits]
  omega

section Requests
variable {s : State} {k fire : Nat} {p : PlsSet} (hact : (s.out1 k).active = some p) (hm : p.mode = 2)
  (hst : plsState s k = 2) (hstop : (s.out1 k).stopping = false)
include hact hm hst hstop

/-- An EXT output in RUN drops a request or queues it. -/
theorem extRequest_listening : extRequest s k fire =
    let before := earlierFall (s.out1 k) p (fire * ftU)
    if fire * ftU < tbFine s p.base + 100 * nsU ∨ 16 ≤ (s.out1 k).queue.length ∨
      (0 < before ∧ fire * ftU < before + 2 * nsU) then dropExt s k
    else requestQueued s k (fire * ftU) := by
  rw [extRequest, hact]
  exact (if_neg (by simp [hm, hst])).trans (if_neg (by simp [hstop]))

theorem extRequest_fits (h : requestFits s k p (fire * ftU)) : extRequest s k fire = requestQueued s k (fire * ftU) :=
  (extRequest_listening hact hm hst hstop).trans (if_neg ((requestFits_iff s k p _).1 h))

theorem extRequest_dropped (h : ¬requestFits s k p (fire * ftU)) : extRequest s k fire = dropExt s k :=
  (extRequest_listening hact hm hst hstop).trans (if_pos (not_not.1 (mt (requestFits_iff s k p _).2 h)))

end Requests

theorem length_queueWith (h : PlsHidden) (t : Nat) : (queueWith h t).length = h.queue.length + 1 := by
  have hsplit := h.queue.length_eq_length_filter_add fun x => decide (x ≤ t)
  have hrest : (fun x => !decide (x ≤ t)) = fun x => decide (t < x) := by
    funext x
    rw [← decide_not]
    exact decide_eq_decide.2 Nat.not_le
  rw [hrest] at hsplit
  simp only [queueWith, List.length_append, List.length_singleton]
  omega

/-- The queue, its depth in STAT, and what stays. -/
theorem requestQueued_leaves {s : State} {k : Nat} {p : PlsSet} {t : Nat} (h : requestFits s k p t) :
    ((requestQueued s k t).out1 k).queue = queueWith (s.out1 k) t ∧
      (requestQueued s k t).fld (A.PLS_OUT_STAT k) 20 16 = (s.out1 k).queue.length + 1 ∧
      (∀ j, j ≠ k → (requestQueued s k t).out1 j = s.out1 j) ∧
      RegsKept s (requestQueued s k t) (fun a => decide (a = A.PLS_OUT_STAT k)) ∧ BanksKept s (requestQueued s k t) := by
  obtain ⟨-, hfree, -⟩ := h
  have hpls : (requestQueued s k t).pls = (putOut s k { s.out1 k with queue := queueWith (s.out1 k) t }).pls := rfl
  refine ⟨?_, ?_, fun j hj => ?_, ?_, ?_⟩
  · rw [out1_of_pls hpls, out1_putOut_self]
  · rw [requestQueued, setDepth, out1_putOut_self, length_queueWith]
    exact fld_setFld_self _ _ (by decide) (by decide) (by omega)
  · rw [out1_of_pls hpls, out1_putOut_ne _ _ hj]
  · exact (regsKept_putOut s k _ _).trans (regsKept_setFld _ _ _ _ (decide_eq_true rfl))
  · exact (banksKept_putOut s k _).trans (banksKept_setFld _ _ _ _ _)

/-! Alignment (R195) and trims (R198). -/

/-- The measured error is recorded, and a request for one alignment is over. -/
def pulseAlignTaken (s : State) (k : Nat) (p : PlsSet) (late : Nat) : State :=
  let e := (pulseError s k p (tbAt s p.base late)).1
  let w := (pulseError s k p (tbAt s p.base late)).2.wr (A.PLS_ALERR k) (ofSigned 32 (wholePs e))
  putOut w k { w.out1 k with once := false }

/-- What an admitted edge of the alignment source does. -/
theorem plsAlign_admitted {s : State} {k late : Nat} {p : PlsSet} {f : Bool} (hact : (s.out1 k).active = some p)
    (h : plsAlignAdmits s k p f = true) :
    let x := tbAt s p.base late
    let e := (pulseError s k p x).1
    let u := pulseAlignTaken s k p late
    plsAlign s k f late =
      if e.natAbs ≤ 5 * psU then putOut u k { u.out1 k with alignAt := some (u.now + (late + 999) / 1000 + 200) }
      else shiftGrid u k p (x + us * nsU) e := by
  simp only [plsAlign, hact, h, if_true]
  rfl

theorem calPulseInstall_quiet {s : State} {k : Nat} {x : TrimRec} (hi : s.cal.install = some x) (hst : calState s = 4)
    (hk : calIndex s = k) (hq : plsQuiet s k = true) (hg : inGap s = false) :
    calPulseInstall s k = calNext (noteOk (calRelease (setTrim s 6 0 k x)) x.temp) := by
  simp [calPulseInstall, hi, hst, hk, hq, hg]

end Sys2Proof.Machine

namespace Sys2Proof.Proofs
open Sys2Proof.Machine

/-- Settles O27: PLS.ARM and PLS.STOP act on the outputs that they name, OUTk_CFG decides its write, and each event is the
output's step where its conditions hold. -/
theorem pulseCommands : Obligations.PulseCommands := by
  refine ⟨?arm, ?stop, ?config, ?rise, ?fall, ?request, ?align, ?trim⟩
  case arm =>
    intro s r m h u t
    have hend {w : State} : writeArm u r m.toNat = w → Ends (.plsArm r m) s w := fun hw =>
      ends_writeWo rfl h (by decide) rowOf_plsArm rfl m.isLt ((writeEffect_plsArm u r m.toNat).trans (congrArg _ hw))
    exact ⟨fun hok => hend (writeArm_accepted r hok), fun hbad => hend (writeArm_rejected r hbad)⟩
  case stop =>
    intro s r m h
    exact ends_writeWo rfl h (by decide) rowOf_plsStop rfl m.isLt (writeEffect_plsStop _ r m.toNat)
  case config =>
    intro s r k v h
    obtain ⟨h4, row, hrow, hrw⟩ := plsOutCfg_row k
    have hend := ends_writeRw (c := .plsDisable r k v) (v := v.toNat) rfl h h4 hrow hrw
    rw [Nat.mod_eq_of_lt v.isLt] at hend
    refine decided_of_refuseIf hend ((writeEffect_plsOutCfg _ r v.toNat k.isLt).trans ?_)
    rw [writeOutCfg, outCfgMask_en]
  case rise =>
    intro s k p t h hg hf hact hst hstop ht
    have hend {u : State} : plsRise s k.val = u → Ends (.plsRisingEdge k) s u :=
      ends_onTclk (f := fun s => plsRise s k.val) rfl h
    exact ⟨fun hm _ hn => hend ((plsRise_next hg hact hf hst hstop ht (by omega) hn).trans (if_neg (by omega))),
      fun hm _ hn => hend ((plsRise_next hg hact hf hst hstop ht (by omega) hn).trans (if_pos hm)),
      fun hm hq => hend (plsRise_ext hg hact hf hst hstop ht hm hq)⟩
  case fall =>
    intro s k p t h hg hact hf ht
    exact ends_onTclk (f := fun s => plsFall s k.val) rfl h (plsFall_due hg hact hf ht)
  case request =>
    intro s k fire p h hact hm hst hstop o t fits
    have hend {u : State} : extRequest s k.val fire = u → Ends (.plsExtRequest k fire) s u :=
      ends_onTclk (f := fun s => extRequest s k.val fire) rfl h
    refine ⟨fun hfit => ?_, fun hno => hend (extRequest_dropped hact hm hst hstop hno)⟩
    exact (hend (extRequest_fits hact hm hst hstop hfit)).endsWith_of (requestQueued_leaves hfit) fun _ _ _ hu => hu
  case align =>
    intro s k f late p h hact hadm x e w u
    have hend {v : State} : plsAlign s k.val f late.val = v → Ends (.plsAlignEdge k f late) s v :=
      ends_onTclk (f := fun s => plsAlign s k.val f late.val) rfl h
    have hdoes := plsAlign_admitted (late := late.val) hact hadm
    exact ⟨fun hnear => hend (hdoes.trans (if_pos hnear)), fun hfar => hend (hdoes.trans (if_neg (Nat.not_le.2 hfar)))⟩
  case trim =>
    intro s k x h hi hst hk hq hg
    exact ends_onTclk (f := fun s => calPulseInstall s k.val) rfl h (calPulseInstall_quiet hi hst hk hq hg)

end Sys2Proof.Proofs
end

section
/-! A rising edge of a PERIODIC output starts a burst of its children (R194): it changes outputs other than its own. -/

namespace Sys2Proof.Machine

/-- A PERIODIC set with a period of 100 ns, and a BURST set whose PARENT is output 0; both have a width of 2 ns. -/
def parentSet : PlsSet := ⟨0x10000000, 0, 0x640000, 2000, 0, 0, 0⟩
def childSet : PlsSet := ⟨0x30000000, 0, 0x640000, 2000, 1, 0, 0⟩

/-- Output 0 waits for its first edge, and its child, output 1, for a burst. -/
def burstPair : State :=
  let s := putOut (putOut State.reset 0 { active := some parentSet, next := some 0 }) 1 { active := some childSet }
  setPlsState (setPlsState s 0 1) 1 2

/-- The edge of output 0 makes the first edge of a burst due on output 1. -/
theorem next_burstPair_child :
    (burstPair.out1 1).next = none ∧ ((emitRise burstPair 0 parentSet 0).out1 1).next = some 0 := by decide +kernel

end Sys2Proof.Machine

namespace Sys2Proof.Proofs
open Sys2Proof.Machine

/-- Refutes O28: the edge changes another output where the output has a BURST child in RUN, whose burst it starts (R194). -/
theorem not_risingEdgeEmitted : ¬ Obligations.RisingEdgeEmitted := by
  intro h
  obtain ⟨-, -, -, -, -, -, hothers⟩ := h burstPair 0 parentSet 0 (by decide)
  obtain ⟨hbefore, hafter⟩ := next_burstPair_child
  have hkept := congrArg PlsHidden.next (hothers 1 (by decide))
  rw [hbefore, hafter] at hkept
  exact Option.some_ne_none 0 hkept

end Sys2Proof.Proofs
end

section
/-! Interval measurement: writes of its registers, arming, edges, results and statistics (R201 to R206). -/

namespace Sys2Proof.Machine

/-! Writes of the registers of TDC. -/

theorem writeEffect_tdc (s : State) (r : Req) {a : Nat} (v : Nat) (h : 0x150000 ≤ a) (h' : a < 0x160000) :
    writeEffect s r a v = writeTdc s a v := by
  rw [writeEffect]
  repeat rw [if_neg (by omega)]
  rw [if_pos h']

theorem rowOf_tdcArmAll :
    rowOf A.TDC_ARM_ALL = some ⟨0x10020, 1, 0x4, 1, 0x4, .wo, 0xffff, 0x0, false, false⟩ := by decide

/-- CHi_CTRL is a WO register. -/
theorem tdcCtrl_row (i : Fin 16) : A.TDC_CH_CTRL i.val % 4 = 0 ∧
    rowOf (A.TDC_CH_CTRL i.val) = some ⟨0x1100c, 16, 0x200, 1, 0x4, .wo, 0x7, 0x0, false, false⟩ := by
  revert i
  decide

/-- CHi_CFG is an RW register. -/
theorem tdcCfg_row (i : Fin 16) :
    A.TDC_CH_CFG i.val % 4 = 0 ∧ ∃ row, rowOf (A.TDC_CH_CFG i.val) = some row ∧ row.acc = .rw := by
  refine rwWord_row ?_
  revert i
  decide

/-- Of the registers of a channel that have an effect of their own, CHi_CTRL is CTRL alone. -/
theorem tdcCtrl_entry (i : Fin 16) :
    entryOf (A.TDC_CH_CTRL i.val) (A.TDC_CH_CFG 0) 0x200 16 = none ∧
      (entryOf (A.TDC_CH_CTRL i.val) (A.TDC_CH_THR 0) 0x200 16).or
        (entryOf (A.TDC_CH_CTRL i.val) (A.TDC_CH_WIN 0) 0x200 16) = none ∧
      entryOf (A.TDC_CH_CTRL i.val) (A.TDC_CH_STAT_CFG 0) 0x200 16 = none ∧
      entryOf (A.TDC_CH_CTRL i.val) (A.TDC_CH_CTRL 0) 0x200 16 = some i.val := by
  revert i
  decide

section Writes
variable (s : State) (r : Req) (v : Nat)

theorem writeEffect_tdcArmAll : writeEffect s r A.TDC_ARM_ALL v = .does ((bitsSet v 16).foldl softArm s) :=
  (writeEffect_tdc s r v (by decide) (by decide)).trans (if_pos rfl)

theorem writeEffect_tdcCfg {i : Nat} (hi : i < 16) :
    writeEffect s r (A.TDC_CH_CFG i) v = .of (writeTdcCfg s i (v &&& 0xFFFFFB00)) := by
  have hentry : entryOf (A.TDC_CH_CFG i) (A.TDC_CH_CFG 0) 0x200 16 = some i := entryOf_member 0x151000 (by decide) hi
  obtain ⟨hlow, hhigh⟩ : 0x151000 ≤ A.TDC_CH_CFG i ∧ A.TDC_CH_CFG i < 0x160000 := by rw [A.TDC_CH_CFG]; omega
  rw [writeEffect_tdc s r v (by omega) hhigh, writeTdc, if_neg (by rw [A.TDC_ARM_ALL]; omega),
    if_neg (by rw [A.TDC_GATE_CFG]; omega)]
  simp only [hentry]

theorem writeEffect_tdcCtrl (i : Fin 16) :
    writeEffect s r (A.TDC_CH_CTRL i.val) v = .does (writeTdcCtrl s i.val v) := by
  obtain ⟨hcfg, hlimits, hstat, hctrl⟩ := tdcCtrl_entry i
  obtain ⟨hlow, hhigh⟩ : 0x15100C ≤ A.TDC_CH_CTRL i.val ∧ A.TDC_CH_CTRL i.val < 0x160000 := by rw [A.TDC_CH_CTRL]; omega
  rw [writeEffect_tdc s r v (by omega) hhigh, writeTdc, if_neg (by rw [A.TDC_ARM_ALL]; omega),
    if_neg (by rw [A.TDC_GATE_CFG]; omega)]
  simp only [hcfg, hlimits, hstat, hctrl]

theorem guardedEffect_tdcUnretire : guardedEffect s r A.TDC_UNRETIRE v = tdcUnretire s (v % 2 ^ 16) := rfl

end Writes

/-- A write of CHi_CTRL ends in what its bits ask for. -/
theorem ends_tdcCtrl {c : Instr} {s t : State} {r : Req} {i : Fin 16} {v : Nat}
    (hc : exec c s = done s (write32 s r (A.TDC_CH_CTRL i.val) v)) (h : s.listens r (A.TDC_CH_CTRL i.val) = true)
    (hv : v < 2 ^ 32) (ht : writeTdcCtrl (heard s r 1) i.val v = t) : Ends c s t := by
  obtain ⟨h4, hrow⟩ := tdcCtrl_row i
  exact ends_writeWo hc h h4 hrow rfl hv ((writeEffect_tdcCtrl _ r v i).trans (congrArg _ ht))

theorem writeTdcCtrl_abort (s : State) (i : Nat) : writeTdcCtrl s i 2 = softAbort s i := rfl

theorem writeTdcCtrl_statGo (s : State) (i : Nat) : writeTdcCtrl s i 4 = statGo s i := rfl

/-! Measurements (R201). -/

section Measurements
variable {s : State} {i : Nat}

theorem softAbort_running (hm : tdcMode s i = 2) (hst : tdcState s i = 3) : softAbort s i = measEnd s i := by
  simp [softAbort, hm, hst]

theorem softAbort_armed (hm : tdcMode s i = 2) (hst : tdcState s i = 2) : softAbort s i = setTdcState s i 1 := by
  simp [softAbort, hm, hst]

theorem softAbort_otherMode (hm : tdcMode s i ≠ 2) : softAbort s i = s := if_pos hm

theorem inGap_setGatePin (s : State) (g : Nat) (b : Bool) : inGap (setGatePin s g b) = inGap s := rfl

/-- An edge of a gate's pin that leaves the gate's level, and any in a switch-over gap, sets the pin alone (R203). -/
theorem gateEdge_pinOnly {g fine : Nat} {b : Bool}
    (h : gateLevel (setGatePin s g b) g = gateLevel s g ∨ inGap s = true) :
    gateEdge s g b fine = setGatePin s g b := by
  by_cases hl : gateLevel (setGatePin s g b) g = gateLevel s g
  · exact if_pos hl
  · exact (if_neg hl).trans (if_pos ((inGap_setGatePin s g b).trans (h.resolve_left hl)))

theorem gateMoved_noGap {s : State} (g raw : Nat) (h : inGap s = false) : gateMoved s g raw =
    (List.range 16).foldl (fun s i =>
      if tdcGate s i = g then (if gateLevel s g then gateActive s i raw else gateInactive s i raw) else s) s :=
  if_neg (by rw [h]; decide)

/-- Outside a gap, each channel of a gate whose level changes takes the edge. -/
theorem gateEdge_moved {g fine : Nat} {b : Bool} (hl : gateLevel (setGatePin s g b) g ≠ gateLevel s g)
    (hg : inGap s = false) : gateEdge s g b fine =
      (List.range 16).foldl (fun t i => if tdcGate t i = g then
        (if gateLevel t g then gateActive t i (rawNow s fine) else gateInactive t i (rawNow s fine)) else t)
        (setGatePin s g b) :=
  (if_neg hl).trans (gateMoved_noGap g _ ((inGap_setGatePin s g b).trans hg))

theorem slopeTakes_of {f : Bool} (he : tdcEn s i = true) (h : tdcSlope s i = 2 ∨ tdcSlope s i = bit01 f) :
    slopeTakes s i f = true := by
  rcases h with h | h
  · simp [slopeTakes, he, h]
  · cases f <;> simp [slopeTakes, he, h, bit01]

theorem inputEdge_taken {f tk : Bool} {fine : Nat} (hg : inGap s = false) (he : tdcEn s i = true)
    (h : tdcSlope s i = 2 ∨ tdcSlope s i = bit01 f) :
    inputEdge s i f tk fine = (List.range 16).foldl (fun s j => channelEdge s j i (rawNow s fine) f tk) s :=
  if_neg (by rw [hg, slopeTakes_of he h]; decide)

theorem windowEnd_due (hst : tdcState s i = 3) (hd : s.due (.tdcWin i) = true) : windowEnd s i = measEnd s i :=
  if_pos (by rw [hst, hd]; rfl)

end Measurements

/-! Results (R202, R206). -/

/-- The oldest ended measurement of the channel is taken from those that wait. -/
def measTaken (s : State) (i : Nat) (l : List Meas) : State := putTdc s i { s.tdc i with ended := l }

/-- A check failure of this instant joins those of the last 10 s, and CHECK_ERR is recorded. -/
def checkFailed (s : State) (i : Nat) : State :=
  tdcEvent (putTdc s i { s.tdc i with fails := tdcFails s i ++ [s.now] }) i 16

section Results
variable {s : State} {i : Nat} {m : Meas} {l : List Meas} (h : (s.tdc i).ended = m :: l)
include h

theorem measStore_good : measStore s i true = storeMeas (measTaken s i l) i m := by
  rw [measStore, h]
  exact if_pos rfl

theorem measStore_bad : measStore s i false =
    if 3 ≤ (tdcFails (measTaken s i l) i ++ [s.now]).length ∧ tdcState (checkFailed (measTaken s i l) i) i ≠ 5 then
      tdcRetire (checkFailed (measTaken s i l) i) i
    else checkFailed (measTaken s i l) i := by
  rw [measStore, h]
  exact if_neg (by decide)

end Results

/-! The re-arm timer (R201). -/

theorem tdcState_setTdcState (s : State) (i : Nat) {st : Nat} (h : st < 16) : tdcState (setTdcState s i st) i = st :=
  fld_setFld_self s _ (by decide) (by decide) h

theorem tdcState_stop (s : State) (i : Nat) (t : Timer) : tdcState (s.stop t) i = tdcState s i := rfl

theorem tdcState_tdcArm (s : State) (i : Nat) : tdcState (tdcArm s i) i = 2 := by
  rw [tdcArm, tdcState_stop, tdcState_setTdcState s i (by decide)]

theorem regsKept_setTdcState (s : State) (i st : Nat) :
    RegsKept s (setTdcState s i st) (fun a => decide (a = A.TDC_CH_STAT i)) := regsKept_setFld s _ _ _ (decide_eq_true rfl)

theorem banksKept_setTdcState (s : State) (i st : Nat) : BanksKept s (setTdcState s i st) := banksKept_setFld s _ _ _ _

theorem banksKept_stop (s : State) (t : Timer) : BanksKept s (s.stop t) := fun _ _ => rfl

theorem regsKept_stop (s : State) (t : Timer) (p : Nat → Bool) : RegsKept s (s.stop t) p := fun _ _ => rfl

theorem runs_tdcArm (s : State) (i : Nat) : (tdcArm s i).runs (.tdcRearm i) = false := by rw [tdcArm, runs_stop_self]

theorem tdcs_tdcArm (s : State) (i : Nat) : (tdcArm s i).tdcs = s.tdcs := by
  rw [tdcArm, stop_tdcs, setTdcState, setFld_tdcs]

theorem regsKept_tdcArm (s : State) (i : Nat) : RegsKept s (tdcArm s i) (fun a => decide (a = A.TDC_CH_STAT i)) :=
  (regsKept_setTdcState s i 2).trans (regsKept_stop (setTdcState s i 2) (.tdcRearm i) _)

theorem banksKept_tdcArm (s : State) (i : Nat) : BanksKept s (tdcArm s i) :=
  (banksKept_setTdcState s i 2).trans (banksKept_stop (setTdcState s i 2) (.tdcRearm i))

/-- The timer ends: the channel arms, or stays IDLE where its gate has become inactive. -/
theorem tdcRearm_due {s : State} {i : Nat} (hst : tdcState s i = 1) (hd : s.due (.tdcRearm i) = true) :
    tdcRearm s i = if tdcMode s i = 3 ∨ levelOpen s i = true then tdcArm s i else s.stop (.tdcRearm i) := by
  simp [tdcRearm, hst, hd]

theorem tdcRearm_leaves {s : State} {i : Nat} (hst : tdcState s i = 1) (hd : s.due (.tdcRearm i) = true) :
    tdcState (tdcRearm s i) i = (if tdcMode s i = 3 ∨ levelOpen s i = true then 2 else 1) ∧
      (tdcRearm s i).runs (.tdcRearm i) = false ∧ (tdcRearm s i).tdcs = s.tdcs ∧
      RegsKept s (tdcRearm s i) (fun a => decide (a = A.TDC_CH_STAT i)) ∧ BanksKept s (tdcRearm s i) := by
  rw [tdcRearm_due hst hd]
  split
  · exact ⟨tdcState_tdcArm s i, runs_tdcArm s i, tdcs_tdcArm s i, regsKept_tdcArm s i, banksKept_tdcArm s i⟩
  · exact ⟨(tdcState_stop s i _).trans hst, runs_stop_self _ _, rfl, regsKept_stop s (.tdcRearm i) _,
      banksKept_stop s (.tdcRearm i)⟩

/-! Statistics runs (R205). -/

theorem tdc_putTdc_self (s : State) (i : Nat) (h : TdcHidden) : (putTdc s i h).tdc i = h := by
  simp [State.tdc, putTdc]

theorem tdc_of_tdcs {s t : State} (h : t.tdcs = s.tdcs) (i : Nat) : t.tdc i = s.tdc i := by rw [State.tdc, State.tdc, h]

/-- Bits above a field stay when the field is put. -/
theorem putBits_above (w v : Nat) {hi lo : Nat} (h : lo ≤ hi) : putBits w hi lo v / 2 ^ (hi + 1) = w / 2 ^ (hi + 1) := by
  have hsplit : 2 ^ (hi + 1) = 2 ^ (hi + 1 - lo) * 2 ^ lo := by rw [← Nat.pow_add]; congr 1; omega
  have hfield : (v % 2 ^ (hi + 1 - lo) + 1) * 2 ^ lo ≤ 2 ^ (hi + 1) := by
    rw [hsplit]
    exact Nat.mul_le_mul_right _ (Nat.mod_lt _ (Nat.two_pow_pos _))
  have hlow := Nat.mod_lt w (Nat.two_pow_pos lo)
  rw [Nat.add_mul, Nat.one_mul] at hfield
  have hrest : v % 2 ^ (hi + 1 - lo) * 2 ^ lo + w % 2 ^ lo < 2 ^ (hi + 1) := by omega
  rw [putBits, Nat.add_assoc, Nat.mul_comm, Nat.mul_add_div (Nat.two_pow_pos _), Nat.div_eq_of_lt hrest, Nat.add_zero]

/-- A bit keeps its value where one below it is set. -/
theorem bit_setBit_below (s : State) (a : Nat) {i j : Nat} (b : Bool) (hji : j < i) (hi : i < 32) :
    (s.setBit a j b).bit a i = s.bit a i := by
  have hbit (w : Nat) : w.testBit i = (w / 2 ^ (j + 1)).testBit (i - (j + 1)) := by
    rw [Nat.testBit_div_two_pow]
    congr 1
    omega
  rw [State.bit, State.setBit, State.setFld, rd_wr_self, Nat.testBit_mod_two_pow, decide_eq_true hi, Bool.true_and,
    hbit, putBits_above _ _ (Nat.le_refl j), ← hbit, State.bit]

/-- STAT_GO sets STAT_RUN, clears STAT_VALID, and clears the count of intervals. -/
def statCleared (s : State) (i : Nat) : State :=
  ((s.setBit (A.TDC_CH_STAT i) 26 true).setBit (A.TDC_CH_STAT i) 25 false).wr (A.TDC_CH_N_USED i) 0

/-- The accumulators of a run that begins. -/
def statBegun (s : State) (i : Nat) : TdcHidden :=
  { s.tdc i with
    statK := s.fld (A.TDC_CH_STAT_CFG i) 28 24
    statN := statN s i
    sum := 0
    squares := 0
    least := 0
    most := 0 }

theorem statGo_eq (s : State) (i : Nat) :
    statGo s i = putTdc ((statCleared s i).wr (A.TDC_CH_N_SKIP i) 0) i (statBegun (statCleared s i) i) := rfl

/-- The registers of a channel that STAT_GO writes or reads are different ones. -/
theorem statRegs_ne (i : Nat) : A.TDC_CH_STAT i ≠ A.TDC_CH_N_USED i ∧ A.TDC_CH_STAT i ≠ A.TDC_CH_N_SKIP i ∧
    A.TDC_CH_N_USED i ≠ A.TDC_CH_N_SKIP i ∧ A.TDC_CH_STAT_CFG i ≠ A.TDC_CH_STAT i ∧
    A.TDC_CH_STAT_CFG i ≠ A.TDC_CH_N_USED i := by
  simp only [A.TDC_CH_STAT, A.TDC_CH_N_USED, A.TDC_CH_N_SKIP, A.TDC_CH_STAT_CFG]
  omega

theorem rd_putTdc (s : State) (i : Nat) (h : TdcHidden) (a : Nat) : (putTdc s i h).rd a = s.rd a := rfl

theorem statN_congr {s t : State} {i : Nat} (h : t.rd (A.TDC_CH_STAT_CFG i) = s.rd (A.TDC_CH_STAT_CFG i)) :
    statN t i = statN s i := by rw [statN, statN, State.fld, State.fld, h]

theorem statN_statCleared (s : State) (i : Nat) : statN (statCleared s i) i = statN s i := by
  obtain ⟨-, -, -, hstat, hused⟩ := statRegs_ne i
  exact statN_congr (by rw [statCleared, rd_wr_ne _ _ hused, rd_setBit_ne _ _ _ hstat, rd_setBit_ne _ _ _ hstat])

theorem statRun_statGo (s : State) (i : Nat) : statRun (statGo s i) i = true := by
  obtain ⟨hused, hskip, -⟩ := statRegs_ne i
  rw [statRun, State.bit, statGo_eq, rd_putTdc, rd_wr_ne _ _ hskip, statCleared, rd_wr_ne _ _ hused]
  exact (bit_setBit_below _ _ false (by decide) (by decide)).trans (bit_setBit_true s _ (by decide))

theorem rd_statGo_counts (s : State) (i : Nat) :
    (statGo s i).rd (A.TDC_CH_N_USED i) = 0 ∧ (statGo s i).rd (A.TDC_CH_N_SKIP i) = 0 := by
  obtain ⟨-, -, hne, -⟩ := statRegs_ne i
  rw [statGo_eq, rd_putTdc, rd_putTdc, rd_wr_ne _ _ hne, statCleared, rd_wr_self, rd_wr_self]
  exact ⟨rfl, rfl⟩

theorem tdc_statGo (s : State) (i : Nat) : (statGo s i).tdc i = statBegun (statCleared s i) i := by
  rw [statGo_eq, tdc_putTdc_self]

/-- The registers that STAT_GO writes. -/
def statWrites (i a : Nat) : Bool :=
  decide (a = A.TDC_CH_STAT i) || decide (a = A.TDC_CH_N_USED i) || decide (a = A.TDC_CH_N_SKIP i)

theorem regsKept_statGo (s : State) (i : Nat) : RegsKept s (statGo s i) (statWrites i) := by
  intro a ha
  simp only [statWrites, Bool.or_eq_false_iff, decide_eq_false_iff_not] at ha
  obtain ⟨⟨hstat, hused⟩, hskip⟩ := ha
  rw [statGo_eq, rd_putTdc, rd_wr_ne _ _ hskip, statCleared, rd_wr_ne _ _ hused, rd_setBit_ne _ _ _ hstat,
    rd_setBit_ne _ _ _ hstat]

theorem banksKept_putTdc (s : State) (i : Nat) (h : TdcHidden) : BanksKept s (putTdc s i h) := fun _ _ => rfl

theorem banksKept_wr (s : State) (a v : Nat) : BanksKept s (s.wr a v) := banksKept_of_eq (wr_mem s a v) (wr_banks s a v)

theorem banksKept_statCleared (s : State) (i : Nat) : BanksKept s (statCleared s i) :=
  ((banksKept_setFld s _ _ _ _).trans (banksKept_setFld _ _ _ _ _)).trans (banksKept_wr _ _ _)

theorem banksKept_statGo (s : State) (i : Nat) : BanksKept s (statGo s i) := by
  rw [statGo_eq]
  exact ((banksKept_statCleared s i).trans (banksKept_wr _ _ _)).trans (banksKept_putTdc _ _ _)

theorem statN_heard (s : State) (r : Req) (k i : Nat) : statN (heard s r k) i = statN s i :=
  statN_congr (rd_heard s r k (countsHost_tim (by rw [A.TDC_CH_STAT_CFG]; omega)))

end Sys2Proof.Machine

namespace Sys2Proof.Proofs
open Sys2Proof.Machine

/-- Settles O29: TDC.ARM_ALL, CHi_CTRL and the guarded pair act on the channels that they name, CHi_CFG decides its write,
and each event is the channels' step where its conditions hold. -/
theorem tdcCommands : Obligations.TdcCommands := by
  refine ⟨?arm, ?abort, ?gate, ?input, ?window, ?store, ?rearm, ?statGo, ?unretire, ?config⟩
  case arm =>
    intro s r m h
    exact ends_writeWo rfl h (by decide) rowOf_tdcArmAll rfl (by omega) (writeEffect_tdcArmAll _ r m.toNat)
  case abort =>
    intro s r i h u
    have hend {t : State} (ht : softAbort u i.val = t) : Ends (.tdcAbort r i) s t :=
      ends_tdcCtrl rfl h (by decide) ((writeTdcCtrl_abort u i.val).trans ht)
    exact ⟨fun hm hst => hend (softAbort_running hm hst), fun hm hst => hend (softAbort_armed hm hst),
      fun hm => hend (softAbort_otherMode hm)⟩
  case gate =>
    intro s g b fine h u raw
    have hend {t : State} : gateEdge s g.val b fine.val = t → Ends (.tdcGateEdge g b fine) s t :=
      ends_onTclk (f := fun s => gateEdge s g.val b fine.val) rfl h
    exact ⟨fun hpin => hend (gateEdge_pinOnly hpin), fun hl hg => hend (gateEdge_moved hl hg)⟩
  case input =>
    intro s i f tk fine h hg he hs
    exact ends_onTclk (f := fun s => inputEdge s i.val f tk fine.val) rfl h (inputEdge_taken hg he hs)
  case window =>
    intro s i h hst hd
    exact ends_onTclk (f := fun s => windowEnd s i.val) rfl h (windowEnd_due hst hd)
  case store =>
    intro s i m l h hm u fails w
    have hend {ok : Bool} {t : State} : measStore s i.val ok = t → Ends (.tdcMeasStore i ok) s t :=
      ends_onTclk (f := fun s => measStore s i.val ok) rfl h
    refine ⟨hend (measStore_good hm), fun hfew => hend ((measStore_bad hm).trans (if_neg ?_)),
      fun hmany hst => hend ((measStore_bad hm).trans (if_pos ⟨hmany, hst⟩))⟩
    rintro ⟨hmany, hst⟩
    exact hfew.elim (Nat.not_lt.2 hmany) hst
  case rearm =>
    intro s i h hst hd
    have hend : Ends (.tdcRearmTimer i) s _ := ends_onTclk (f := fun s => tdcRearm s i.val) rfl h rfl
    exact hend.endsWith_of (tdcRearm_leaves hst hd) fun _ _ _ ht => ht
  case statGo =>
    intro s r i h
    have hend : Ends (.statGo r i) s (statGo (heard s r 1) i.val) :=
      ends_tdcCtrl rfl h (by decide) (writeTdcCtrl_statGo _ i.val)
    obtain ⟨hused, hskip⟩ := rd_statGo_counts (heard s r 1) i.val
    refine hend.endsWith_of ⟨statRun_statGo _ _, hused, hskip, ?_, ?_, ?_, ?_, ?_⟩ fun _ _ _ ht => ht
    · rw [tdc_statGo, statBegun]
    · rw [tdc_statGo, statBegun]
    · rw [tdc_statGo, statBegun, statN_statCleared, statN_heard]
    · exact ((regsKept_heard s r 1).mono fun a ha => (Bool.or_eq_false_iff.1 ha).2).trans
        ((regsKept_statGo _ i.val).mono fun a ha => (Bool.or_eq_false_iff.1 ha).1)
    · exact (banksKept_heard s r 1).trans (banksKept_statGo _ _)
  case unretire =>
    intro s r m h
    exact ends_guardedWrite rfl h ((guardedEffect_tdcUnretire _ r m.toNat).trans (by rw [Nat.mod_eq_of_lt m.isLt]))
  case config =>
    intro s r i v h
    obtain ⟨h4, row, hrow, hrw⟩ := tdcCfg_row i
    have hend := ends_writeRw (c := .tdcChannelEnable r i v) (v := v.toNat) rfl h h4 hrow hrw
    rw [Nat.mod_eq_of_lt v.isLt] at hend
    refine ends_ofOption (f := id) hend ((writeEffect_tdcCfg _ r v.toNat i.isLt).trans ?_)
    rw [Option.map_id, id]

end Sys2Proof.Proofs
end

section
/-! The trim region (R223, R224): the fields of a copy's header stand where a reader looks for them, and a record of 16
bytes for each item follows it. -/

namespace Sys2Proof.Machine

/-- The number of `n` bytes, least significant first, that follow the first bytes. -/
theorem leAt_of_split {l p q : List Nat} {i n v : Nat} (h : l = p ++ (leBytes n v ++ q)) (hp : p.length = i) :
    leNat (slice l i n) = v % 256 ^ n := by
  rw [slice_of_split h hp (leBytes_length n v), leNat_leBytes]

/-- The header of a copy up to GEN: its magic, its version and its count. -/
def trimHead : List Nat := leBytes 4 0x52544A46 ++ (leBytes 2 1 ++ leBytes 2 itemCount)

/-- The header of a copy from GEN on, without its CHECK: the serial number, the time of the save and zeros. -/
def trimTail (s : State) : List Nat :=
  leBytes 4 0 ++ (leBytes 4 (s.rd A.GLB_SERIAL_LO) ++ (leBytes 4 (s.rd A.GLB_SERIAL_HI) ++ (leBytes 8 s.cal.saved ++
    List.replicate 28 0)))

/-- The header of a copy without its CHECK. -/
def trimHeader (s : State) (gen : Nat) : List Nat := trimHead ++ (leBytes 4 gen ++ trimTail s)

/-- The records of all items. -/
def trimBody (s : State) : List Nat := allItems.flatMap fun e => recordBytes s e.1 e.2.1 e.2.2

theorem copyBytes_eq (s : State) (gen : Nat) :
    copyBytes s gen = trimHeader s gen ++ (leBytes 4 (crc32c (trimHeader s gen)) ++ trimBody s) := by
  simp only [copyBytes, trimHeader, trimHead, trimTail, trimBody, List.append_assoc]

theorem trimHeader_length (s : State) (gen : Nat) : (trimHeader s gen).length = 0x3C := by
  simp [trimHeader, trimHead, trimTail]

theorem recordBytes_length (s : State) (k j i : Nat) : (recordBytes s k j i).length = 16 := by simp [recordBytes]

/-- The kinds' indexes and subindexes name as many items as the region holds. -/
theorem allItems_length : allItems.length = itemCount := by
  simp only [allItems, List.length_flatMap, List.length_map, List.length_range, List.map_const', List.sum_replicate,
    smul_eq_mul]
  decide

theorem trimBody_length (s : State) : (trimBody s).length = 16 * itemCount := by
  simp only [trimBody, List.length_flatMap, recordBytes_length, List.map_const', List.sum_replicate, allItems_length,
    smul_eq_mul, Nat.mul_comm]

theorem copyBytes_length (s : State) (gen : Nat) : (copyBytes s gen).length = 64 + 16 * itemCount := by
  simp only [copyBytes_eq, List.length_append, trimHeader_length, leBytes_length, trimBody_length]
  omega

/-- The first 60 bytes of a copy are its header without the CHECK. -/
theorem take_copyBytes (s : State) (gen : Nat) : (copyBytes s gen).take 0x3C = trimHeader s gen := by
  rw [copyBytes_eq, List.take_left' (trimHeader_length s gen)]

theorem copyBytes_magic (s : State) (gen : Nat) : leNat (slice (copyBytes s gen) 0 4) = 0x52544A46 :=
  leAt_of_split (p := []) (v := 0x52544A46) (by rw [copyBytes_eq, trimHeader, trimHead]; simp only [List.append_assoc]; rfl)
    rfl

theorem copyBytes_count (s : State) (gen : Nat) : leNat (slice (copyBytes s gen) 6 2) = itemCount :=
  leAt_of_split (p := leBytes 4 0x52544A46 ++ leBytes 2 1) (v := itemCount)
    (by rw [copyBytes_eq, trimHeader, trimHead]; simp only [List.append_assoc]; rfl) rfl

theorem copyBytes_gen (s : State) (gen : Nat) : leNat (slice (copyBytes s gen) 8 4) = gen % 2 ^ 32 :=
  leAt_of_split (p := trimHead) (by rw [copyBytes_eq, trimHeader]; simp only [List.append_assoc]; rfl) rfl

theorem copyBytes_check (s : State) (gen : Nat) :
    leNat (slice (copyBytes s gen) 0x3C 4) = crc32c ((copyBytes s gen).take 0x3C) := by
  rw [take_copyBytes, leAt_of_split (copyBytes_eq s gen) (trimHeader_length s gen)]
  exact Nat.mod_eq_of_lt (crc32c_lt _)

end Sys2Proof.Machine

namespace Sys2Proof.Proofs
open Sys2Proof.Machine

/-- Settles O32: the header's fields by their offsets, and the records by their number and their length. -/
theorem trimCopyLayout : Obligations.TrimCopyLayout := fun s gen =>
  ⟨rfl, copyBytes_length s gen, copyBytes_magic s gen, copyBytes_count s gen, copyBytes_gen s gen, copyBytes_check s gen⟩

end Sys2Proof.Proofs
end

section
/-! The timing cores: the fields of TCO.STAT, each kept by the writes of the others, and the steps of a switch-over (R210,
R212). -/

namespace Sys2Proof.Machine

/-! Fields of one word: a write of one keeps every other. -/

/-- Bits below a field stay when the field is put. -/
theorem putBits_below (w hi v : Nat) {lo : Nat} (h : lo ≤ hi + 1) : putBits w hi lo v % 2 ^ lo = w % 2 ^ lo := by
  have hsplit : 2 ^ (hi + 1) = 2 ^ lo * 2 ^ (hi + 1 - lo) := by rw [← Nat.pow_add]; congr 1; omega
  rw [putBits, hsplit, Nat.mul_comm (v % _), Nat.mul_left_comm, ← Nat.mul_add, Nat.mul_add_mod, Nat.mod_mod]

theorem bits_of_mod {w w' hi lo n : Nat} (hlo : lo ≤ hi + 1) (hn : hi < n) (h : w % 2 ^ n = w' % 2 ^ n) :
    bits w hi lo = bits w' hi lo := by
  have hsplit : 2 ^ n = 2 ^ lo * (2 ^ (hi + 1 - lo) * 2 ^ (n - (hi + 1))) := by
    rw [← Nat.pow_add, ← Nat.pow_add]; congr 1; omega
  have hbits (x : Nat) : bits x hi lo = x % 2 ^ n / 2 ^ lo % 2 ^ (hi + 1 - lo) := by
    rw [bits, hsplit, Nat.mod_mul_right_div_self, Nat.mod_mul_right_mod]
  rw [hbits, hbits, h]

theorem bits_of_div {w w' hi lo n : Nat} (hn : n ≤ lo) (h : w / 2 ^ n = w' / 2 ^ n) : bits w hi lo = bits w' hi lo := by
  have hsplit : 2 ^ lo = 2 ^ n * 2 ^ (lo - n) := by rw [← Nat.pow_add]; congr 1; omega
  rw [bits, bits, hsplit, ← Nat.div_div_eq_div_mul, ← Nat.div_div_eq_div_mul, h]

/-- A field stays when a field above it or below it is put. -/
theorem bits_putBits_apart (w v : Nat) {hi lo hi' lo' : Nat} (hle : lo ≤ hi + 1) (hle' : lo' ≤ hi')
    (h : hi < lo' ∨ hi' < lo) : bits (putBits w hi' lo' v) hi lo = bits w hi lo := by
  rcases h with h | h
  · exact bits_of_mod hle h (putBits_below w hi' v (by omega))
  · exact bits_of_div h (putBits_above w v hle')

/-- Two fields of the register at `a` have no bit in common. -/
theorem fld_setFld_apart (s : State) (a v : Nat) {hi lo hi' lo' : Nat} (hhi : hi < 32) (hle : lo ≤ hi + 1)
    (hle' : lo' ≤ hi') (h : hi < lo' ∨ hi' < lo) : (s.setFld a hi' lo' v).fld a hi lo = s.fld a hi lo := by
  rw [State.fld, State.setFld, rd_wr_self, bits_of_mod (w' := putBits (s.rd a) hi' lo' v) hle hhi (Nat.mod_mod _ _),
    bits_putBits_apart _ _ hle hle' h, State.fld]

/-- A bit is a field of its own. -/
theorem bit_eq_fld (s : State) (a i : Nat) : s.bit a i = decide (s.fld a i i = 1) := by
  rw [State.bit, State.fld, bits, Nat.testBit_eq_decide_div_mod_eq, Nat.add_sub_cancel_left, Nat.pow_one]

theorem bit_setFld_apart (s : State) (a v : Nat) {i hi lo : Nat} (hi32 : i < 32) (hle : lo ≤ hi) (h : i < lo ∨ hi < i) :
    (s.setFld a hi lo v).bit a i = s.bit a i := by
  rw [bit_eq_fld, bit_eq_fld, fld_setFld_apart s a v hi32 (Nat.le_succ i) hle h]

/-! What TCO.STAT shows of the cores. -/

section Shown
variable {s t : State} (h : t.rd A.TCO_STAT = s.rd A.TCO_STAT)
include h

theorem coreState_congr (c : Nat) : coreState t c = coreState s c := by
  rw [coreState, coreState, State.fld, State.fld, State.fld, State.fld, h]

theorem activeCore_congr : activeCore t = activeCore s := by rw [activeCore, activeCore, State.fld, State.fld, h]

theorem inGap_congr : inGap t = inGap s := by rw [inGap, inGap, State.bit, State.bit, h]

theorem coreRuns_congr : coreRuns t = coreRuns s := by
  rw [coreRuns, coreRuns, coreState_congr h, coreState_congr h]

end Shown

theorem activeCore_le (s : State) : activeCore s ≤ 1 := Nat.le_of_lt_succ (bits_lt _ 0 0)

/-- A write of TCO.STAT below or above both cores' fields keeps their states. -/
theorem coreState_setFld (s : State) (v c : Nat) {hi lo : Nat} (hle : lo ≤ hi) (h : hi < 4 ∨ 10 < lo) :
    coreState (s.setFld A.TCO_STAT hi lo v) c = coreState s c := by
  rw [coreState, coreState, fld_setFld_apart s _ v (by decide) (by decide) hle (by omega),
    fld_setFld_apart s _ v (by decide) (by decide) hle (by omega)]

theorem coreState_setCore_self (s : State) (c : Nat) {st : Nat} (h : st < 8) : coreState (setCore s c st) c = st := by
  by_cases hc : c = 0
  · rw [coreState, setCore, if_pos hc, if_pos hc]
    exact fld_setFld_self s _ (by decide) (by decide) h
  · rw [coreState, setCore, if_neg hc, if_neg hc]
    exact fld_setFld_self s _ (by decide) (by decide) h

/-- The other core keeps its state. -/
theorem coreState_setCore_other (s : State) {c d : Nat} (st : Nat) (h : c = 0 ↔ d ≠ 0) :
    coreState (setCore s c st) d = coreState s d := by
  by_cases hc : c = 0
  · have hd : ¬d = 0 := h.1 hc
    rw [coreState, coreState, setCore, if_pos hc, if_neg hd, if_neg hd]
    exact fld_setFld_apart s _ st (by decide) (by decide) (by decide) (by decide)
  · have hd : d = 0 := Decidable.not_not.1 (mt h.2 hc)
    rw [coreState, coreState, setCore, if_neg hc, if_pos hd, if_pos hd]
    exact fld_setFld_apart s _ st (by decide) (by decide) (by decide) (by decide)

theorem activeCore_setFld (s : State) (v : Nat) {hi lo : Nat} (hle : lo ≤ hi) (h : 0 < lo) :
    activeCore (s.setFld A.TCO_STAT hi lo v) = activeCore s :=
  fld_setFld_apart s _ v (by decide) (by decide) hle (.inl h)

theorem activeCore_setCore (s : State) (c st : Nat) : activeCore (setCore s c st) = activeCore s := by
  rw [setCore]
  split
  · exact activeCore_setFld s st (by decide) (by decide)
  · exact activeCore_setFld s st (by decide) (by decide)

theorem inGap_setFld (s : State) (v : Nat) {hi lo : Nat} (hle : lo ≤ hi) (h : 11 < lo ∨ hi < 11) :
    inGap (s.setFld A.TCO_STAT hi lo v) = inGap s :=
  bit_setFld_apart s _ v (by decide) hle h

theorem inGap_setCore (s : State) (c st : Nat) : inGap (setCore s c st) = inGap s := by
  rw [setCore]
  split
  · exact inGap_setFld s st (by decide) (by decide)
  · exact inGap_setFld s st (by decide) (by decide)

theorem rd_setCore_ne (s : State) (c st : Nat) {a : Nat} (h : a ≠ A.TCO_STAT) : (setCore s c st).rd a = s.rd a := by
  rw [setCore]
  split
  · exact rd_setFld_ne s _ _ _ h
  · exact rd_setFld_ne s _ _ _ h

/-! What an event, and a failure of a core, leave of it. -/

theorem rd_tcoEvent (s : State) (mask : Nat) {a : Nat} (ha : raiseTouches a = false) (hne : a ≠ A.TCO_EVT) :
    (tcoEvent s mask).rd a = s.rd a := rd_event s _ _ _ _ (by decide) ha hne

/-- A count of failures is one of the two high fields of TCO.STAT. -/
theorem addCoreFail_eq (s : State) (c : Nat) :
    ∃ hi lo v, 15 < lo ∧ lo ≤ hi ∧ addCoreFail s c = s.setFld A.TCO_STAT hi lo v := by
  by_cases hc : c = 0
  · exact ⟨23, 16, _, by decide, by decide, if_pos hc⟩
  · exact ⟨31, 24, _, by decide, by decide, if_neg hc⟩

/-- The time of a core's failure. -/
def failNoted (s : State) (c : Nat) : State :=
  { s with tco := { s.tco with failedAt := Map.put 0 s.tco.failedAt c s.now } }

/-- A core's failure changes of TCO.STAT the core's state and its count. -/
theorem rd_coreFail (s : State) (c : Nat) {a : Nat} (ha : raiseTouches a = false) (hne : a ≠ A.TCO_EVT) :
    (coreFail s c).rd a = (addCoreFail (setCore (failNoted s c) c 5) c).rd a := rd_tcoEvent _ _ ha hne

theorem stat_coreFail (s : State) (c : Nat) :
    (coreFail s c).rd A.TCO_STAT = (addCoreFail (setCore (failNoted s c) c 5) c).rd A.TCO_STAT :=
  rd_coreFail s c (by decide) (by decide)

theorem coreState_addCoreFail (s : State) (c d : Nat) : coreState (addCoreFail s c) d = coreState s d := by
  obtain ⟨hi, lo, v, hlo, hle, h⟩ := addCoreFail_eq s c
  rw [h, coreState_setFld s v d hle (.inr (by omega))]

theorem coreState_coreFail_self (s : State) (c : Nat) : coreState (coreFail s c) c = 5 := by
  rw [coreState_congr (stat_coreFail s c), coreState_addCoreFail, coreState_setCore_self _ c (by decide)]

theorem coreState_coreFail_other (s : State) {c d : Nat} (h : c = 0 ↔ d ≠ 0) : coreState (coreFail s c) d = coreState s d := by
  rw [coreState_congr (stat_coreFail s c), coreState_addCoreFail, coreState_setCore_other _ 5 h]
  rfl

theorem activeCore_coreFail (s : State) (c : Nat) : activeCore (coreFail s c) = activeCore s := by
  obtain ⟨hi, lo, v, hlo, hle, h⟩ := addCoreFail_eq (setCore (failNoted s c) c 5) c
  rw [activeCore_congr (stat_coreFail s c), h, activeCore_setFld _ v hle (by omega), activeCore_setCore]
  rfl

theorem inGap_coreFail (s : State) (c : Nat) : inGap (coreFail s c) = inGap s := by
  obtain ⟨hi, lo, v, hlo, hle, h⟩ := addCoreFail_eq (setCore (failNoted s c) c 5) c
  rw [inGap_congr (stat_coreFail s c), h, inGap_setFld _ v hle (.inl (by omega)), inGap_setCore]
  rfl

theorem rd_coreFail_ne (s : State) (c : Nat) {a : Nat} (ha : raiseTouches a = false) (hne : a ≠ A.TCO_EVT)
    (hstat : a ≠ A.TCO_STAT) : (coreFail s c).rd a = s.rd a := by
  obtain ⟨hi, lo, v, hlo, hle, h⟩ := addCoreFail_eq (setCore (failNoted s c) c 5) c
  rw [rd_coreFail s c ha hne, h, rd_setFld_ne _ _ _ _ hstat, rd_setCore_ne _ _ _ hstat]
  rfl

theorem coreState_coreSync_self (s : State) (c : Nat) : coreState (coreSync s c) c = 2 :=
  coreState_setCore_self _ c (by decide)

theorem coreState_coreSync_other (s : State) {c d : Nat} (h : c = 0 ↔ d ≠ 0) : coreState (coreSync s c) d = coreState s d :=
  coreState_setCore_other _ 2 h

/-! The steps of a switch-over. -/

/-- The switch-over is noted, with its time and its cause, and the gap is shown. -/
def gapBegun (s : State) (cause : Nat) : State :=
  let held := (List.range 8).map fun n => tbTime s n
  let s := { s with tco := { s.tco with gapAt := s.now, held := held, unlocked := false, carry := s.tco.lag } }
  let s := s.wrTime A.TCO_SWO_W2 (tb0 s)
  let s := (s.addSat A.TCO_SWO_INFO 31 16 1).setFld A.TCO_SWO_INFO 3 0 cause
  tdcGap ((s.setBit A.TCO_STAT 11 true).pmcEvent 23 0x383 1)

/-- Core `c` becomes the active one. -/
def coreHanded (s : State) (c : Nat) : State :=
  ((setCore (s.stop .coreTrack) c 4).setFld A.TCO_STAT 0 0 c).setBit A.TCO_STAT 12 false

/-- The former active core tracks after a manual switch, and has failed otherwise. -/
def coreReleased (s : State) (a cause : Nat) : State := if cause = 4 then coreSync s a else coreFail s a

/-- NO_BACKUP is recorded where the core that took over was not ready. -/
def noteUnready (s : State) (unready : Bool) : State := if unready then tcoEvent s 16 else s

theorem takeOver_eq (s : State) (cause : Nat) :
    takeOver s cause =
      setMisses (holdOutputs (noteUnready
        (coreReleased (coreHanded (gapBegun s cause) (1 - activeCore s)) (activeCore s) cause)
        (decide (coreState s (1 - activeCore s) = 2)))) 0 := rfl

/-! What each step leaves of the registers. -/

theorem rd_tdcGap (s : State) (a : Nat) : (tdcGap s).rd a = s.rd a :=
  foldl_keeps (f := fun s => s.rd a) (fun s i => by
    cases hm : (s.tdc i).meas with
    | none => rfl
    | some m => rfl) _ s

theorem rd_holdOutputs (s : State) (a : Nat) : (holdOutputs s).rd a = s.rd a :=
  foldl_keeps (f := fun s => s.rd a) (fun s k => by
    by_cases hk : synState s k < 2
    · simp only [hk, if_true]
    · simp only [hk, if_false]; rfl) _ s

theorem rd_noteUnready (s : State) (b : Bool) {a : Nat} (ha : raiseTouches a = false) (hne : a ≠ A.TCO_EVT) :
    (noteUnready s b).rd a = s.rd a := by
  rw [noteUnready]
  split
  · exact rd_tcoEvent s 16 ha hne
  · rfl

theorem rd_takeOver (s : State) (cause : Nat) {a : Nat} (ha : raiseTouches a = false) (hne : a ≠ A.TCO_EVT) :
    (takeOver s cause).rd a =
      (coreReleased (coreHanded (gapBegun s cause) (1 - activeCore s)) (activeCore s) cause).rd a := by
  rw [takeOver_eq]
  exact (rd_holdOutputs _ a).trans (rd_noteUnready _ _ ha hne)

theorem stat_takeOver (s : State) (cause : Nat) :
    (takeOver s cause).rd A.TCO_STAT =
      (coreReleased (coreHanded (gapBegun s cause) (1 - activeCore s)) (activeCore s) cause).rd A.TCO_STAT :=
  rd_takeOver s cause (by decide) (by decide)

theorem inGap_gapBegun (s : State) (cause : Nat) : inGap (gapBegun s cause) = true := by
  rw [gapBegun, inGap, State.bit, rd_tdcGap, (quiet_pmcEvent _ 23 _ _ (by decide)).rd (by decide)]
  exact bit_setBit_true _ _ (by decide)

theorem swoCause_gapBegun (s : State) {cause : Nat} (h : cause < 16) :
    (gapBegun s cause).fld A.TCO_SWO_INFO 3 0 = cause := by
  rw [gapBegun, State.fld, rd_tdcGap, (quiet_pmcEvent _ 23 _ _ (by decide)).rd (by decide), rd_setBit_ne _ _ _ (by decide)]
  exact fld_setFld_self _ _ (by decide) (by decide) h

section Handed
variable (s : State) {c : Nat}

theorem activeCore_coreHanded (h : c ≤ 1) : activeCore (coreHanded s c) = c := by
  rw [coreHanded, State.setBit, activeCore_setFld _ _ (by decide) (by decide)]
  exact fld_setFld_self _ _ (by decide) (by decide) (by omega)

theorem coreState_coreHanded_self : coreState (coreHanded s c) c = 4 := by
  rw [coreHanded, State.setBit, coreState_setFld _ _ _ (by decide) (by decide),
    coreState_setFld _ _ _ (by decide) (by decide), coreState_setCore_self _ c (by decide)]

theorem inGap_coreHanded : inGap (coreHanded s c) = inGap s := by
  rw [coreHanded, State.setBit, inGap_setFld _ _ (by decide) (by decide), inGap_setFld _ _ (by decide) (by decide),
    inGap_setCore]
  rfl

theorem rd_coreHanded_ne {a : Nat} (h : a ≠ A.TCO_STAT) : (coreHanded s c).rd a = s.rd a := by
  rw [coreHanded, rd_setBit_ne _ _ _ h, rd_setFld_ne _ _ _ _ h, rd_setCore_ne _ _ _ h, rd_stop]

end Handed

section Released
variable (s : State) (a cause : Nat)

theorem activeCore_coreReleased : activeCore (coreReleased s a cause) = activeCore s := by
  rw [coreReleased]
  split
  · exact activeCore_setCore _ a 2
  · exact activeCore_coreFail s a

theorem inGap_coreReleased : inGap (coreReleased s a cause) = inGap s := by
  rw [coreReleased]
  split
  · exact inGap_setCore _ a 2
  · exact inGap_coreFail s a

theorem coreState_coreReleased_self : coreState (coreReleased s a cause) a = if cause = 4 then 2 else 5 := by
  rw [coreReleased]
  split
  · exact coreState_coreSync_self s a
  · exact coreState_coreFail_self s a

theorem coreState_coreReleased_other {d : Nat} (h : a = 0 ↔ d ≠ 0) :
    coreState (coreReleased s a cause) d = coreState s d := by
  rw [coreReleased]
  split
  · exact coreState_coreSync_other s h
  · exact coreState_coreFail_other s h

theorem rd_coreReleased_ne {b : Nat} (hb : raiseTouches b = false) (hne : b ≠ A.TCO_EVT) (hstat : b ≠ A.TCO_STAT) :
    (coreReleased s a cause).rd b = s.rd b := by
  rw [coreReleased]
  split
  · exact rd_setCore_ne _ a 2 hstat
  · exact rd_coreFail_ne s a hb hne hstat

end Released

/-! The switch-over as a whole. -/

section TakenOver
variable (s : State) (cause : Nat)

theorem activeCore_takeOver : activeCore (takeOver s cause) = 1 - activeCore s := by
  rw [activeCore_congr (stat_takeOver s cause), activeCore_coreReleased, activeCore_coreHanded _ (Nat.sub_le 1 _)]

theorem coreState_takeOver_active : coreState (takeOver s cause) (1 - activeCore s) = 4 := by
  have hle := activeCore_le s
  rw [coreState_congr (stat_takeOver s cause), coreState_coreReleased_other _ _ _ (by omega), coreState_coreHanded_self]

theorem coreState_takeOver_former : coreState (takeOver s cause) (activeCore s) = if cause = 4 then 2 else 5 := by
  rw [coreState_congr (stat_takeOver s cause), coreState_coreReleased_self]

theorem inGap_takeOver : inGap (takeOver s cause) = true := by
  rw [inGap_congr (stat_takeOver s cause), inGap_coreReleased, inGap_coreHanded, inGap_gapBegun]

theorem swoCause_takeOver {cause : Nat} (h : cause < 16) : (takeOver s cause).fld A.TCO_SWO_INFO 3 0 = cause := by
  rw [State.fld, rd_takeOver s cause (by decide) (by decide), rd_coreReleased_ne _ _ _ (by decide) (by decide) (by decide),
    rd_coreHanded_ne _ (by decide)]
  exact swoCause_gapBegun s h

end TakenOver

end Sys2Proof.Machine

namespace Sys2Proof.Proofs
open Sys2Proof.Machine

/-- Settles O31: each step of the switch-over writes its own field of TCO.STAT. -/
theorem switchOver : Obligations.SwitchOver := by
  intro s cause _ hcause _ _ t
  have hact : activeCore t = 1 - activeCore s := activeCore_takeOver s cause
  exact ⟨hact, hact ▸ coreState_takeOver_active s cause, coreState_takeOver_former s cause, inGap_takeOver s cause,
    swoCause_takeOver s (by omega)⟩

end Sys2Proof.Proofs
end

section
/-! The timing cores' commands (R207 to R216): the end of INIT, tracking, the causes of a switch-over, self-test and
repair. -/

namespace Sys2Proof.Machine

/-- A command of the timing cores ends in its step, with what a switch-over in it brings about. -/
theorem ends_onCores {c : Instr} {s t : State} {f : State → State} (hc : exec c s = onCores s f) (h : s.power.ka = true)
    (ht : f s = t) : Ends c s (settle (swoAfter s t)) := ends_of_exec (by rw [hc, onCores_on h, ht])

/-! The end of INIT (R207, R208). -/

theorem coreRuns_iff (s : State) :
    coreRuns s = true ↔ ∃ c, c ≤ 1 ∧ (coreState s c = 4 ∨ coreState s c = 6) := by
  rw [coreRuns, decide_eq_true_iff]
  refine ⟨?_, ?_⟩
  · rintro (h | h | h | h)
    · exact ⟨0, by decide, .inl h⟩
    · exact ⟨0, by decide, .inr h⟩
    · exact ⟨1, by decide, .inl h⟩
    · exact ⟨1, by decide, .inr h⟩
  · rintro ⟨c, hc, h⟩
    obtain rfl | rfl : c = 0 ∨ c = 1 := by omega
    · exact h.imp_right .inl
    · exact .inr (.inr h)

/-- A core that is neither ACTIVE nor ACTIVE_DEGRADED after its change starts no TCLK. -/
theorem coreRuns_of_change {s t : State} {c st : Nat} (hc : c ≤ 1) (hself : coreState t c = st) (h4 : st ≠ 4) (h6 : st ≠ 6)
    (hother : ∀ d, (c = 0 ↔ d ≠ 0) → coreState t d = coreState s d) (h : coreRuns t = true) : coreRuns s = true := by
  obtain ⟨d, hd, hst⟩ := (coreRuns_iff t).1 h
  by_cases hcd : d = c
  · subst hcd
    omega
  · exact (coreRuns_iff s).2 ⟨d, hd, by rwa [hother d (by omega)] at hst⟩

/-- The Drag that leaves OFF for INIT drives nothing, before and after. -/
theorem coreRuns_coresEnter (s : State) : coreRuns (coresEnter s) = coreRuns s := by
  rw [coresEnter]
  split
  next h0 =>
    have hother (d : Nat) (hd : 1 = 0 ↔ d ≠ 0) : coreState (setCore s 1 1) d = coreState s d :=
      coreState_setCore_other s 1 hd
    exact Bool.eq_iff_iff.2
      ⟨coreRuns_of_change (by decide) (coreState_setCore_self s 1 (by decide)) (by decide) (by decide) hother,
        coreRuns_of_change (by decide) h0 (by decide) (by decide) fun d hd => (hother d hd).symm⟩
  · rfl

/-- The state in which LSYN locks with the first active core. -/
def lsynLocked (t : State) : State :=
  (t.setBit (A.PLL_CPLL_STAT 11) 31 true).setFld (A.PLL_CPLL_STAT 11) 15 0 (Config.quot 625 4)

/-- A core ends INIT without starting TCLK. -/
theorem coreStarts_quiet {s t : State} {c : Nat} {ok : Bool} (ht : coreInit (coresEnter s) c ok = t)
    (h : coreRuns t = true → coreRuns s = true) : coreStarts s c ok = t := by
  rw [coreStarts, ht]
  refine if_neg fun hrun => ?_
  simp only [Bool.and_eq_true, Bool.not_eq_true'] at hrun
  obtain ⟨⟨ht, hs⟩, -⟩ := hrun
  rw [h ht] at hs
  cases hs

theorem coreStarts_locks {s t : State} {c : Nat} {ok : Bool} (ht : coreInit (coresEnter s) c ok = t)
    (h : coreRuns t = true) (hs : coreRuns s = false) (hl : loopStopped s 11 = false) :
    coreStarts s c ok = lsynLocked t := by
  rw [coreStarts, ht]
  exact if_pos (by rw [h, hs, hl]; rfl)

section Init
variable {s : State} {c : Nat} (h1 : coreState s c = 1)
include h1

theorem coreInit_fails : coreInit s c false = coreFail s c := by simp [coreInit, h1]

theorem coreInit_sync (h : coreRuns s = true ∨ c ∈ s.tco.repaired) : coreInit s c true = coreSync s c := by
  simp [coreInit, h1, h]

theorem coreInit_active (hr : coreRuns s = false) (hn : c ∉ s.tco.repaired) (h : c = 0 ∨ 2 ≤ coreState s 0) :
    coreInit s c true = (setCore s c 4).setFld A.TCO_STAT 0 0 c := by
  have hwait : ¬(c = 1 ∧ coreState s 0 ≤ 1) := by omega
  simp [coreInit, h1, hr, hn, hwait]

end Init

section Starts
variable {s : State} {c : Nat} (hc : c ≤ 1) (h1 : coreState (coresEnter s) c = 1)
include hc h1

theorem coreStarts_fails : coreStarts s c false = coreFail (coresEnter s) c :=
  coreStarts_quiet (coreInit_fails h1) fun h => coreRuns_coresEnter s ▸
    coreRuns_of_change hc (coreState_coreFail_self _ c) (by decide) (by decide)
      (fun _ hd => coreState_coreFail_other _ hd) h

theorem coreStarts_sync (h : coreRuns (coresEnter s) = true ∨ c ∈ (coresEnter s).tco.repaired) :
    coreStarts s c true = coreSync (coresEnter s) c :=
  coreStarts_quiet (coreInit_sync h1 h) fun h => coreRuns_coresEnter s ▸
    coreRuns_of_change hc (coreState_coreSync_self _ c) (by decide) (by decide)
      (fun _ hd => coreState_coreSync_other _ hd) h

theorem coreStarts_active (hr : coreRuns (coresEnter s) = false) (hn : c ∉ (coresEnter s).tco.repaired)
    (hl : loopStopped s 11 = false) (h : c = 0 ∨ 2 ≤ coreState (coresEnter s) 0) :
    coreStarts s c true = lsynLocked ((setCore (coresEnter s) c 4).setFld A.TCO_STAT 0 0 c) := by
  refine coreStarts_locks (coreInit_active h1 hr hn h) ?_ ?_ hl
  · refine (coreRuns_iff _).2 ⟨c, hc, .inl ?_⟩
    rw [coreState_setFld _ _ _ (by decide) (by decide), coreState_setCore_self _ c (by decide)]
  · rwa [coreRuns_coresEnter] at hr

end Starts

/-! Tracking (R209). -/

/-- A measurement of ε: its correction acts, and TRK_ERR shows it. -/
def trackMeasured (s : State) (e : Int) : State :=
  ({ s with tco := { s.tco with lag := trackCorrect (s.tco.lag + e), trackAt := s.now + us } } : State).wr A.TCO_TRK_ERR
    (ofSigned 32 (clampInt (-(2 ^ 31)) (2 ^ 31 - 1) (halfPs (epsOf (s.tco.lag + e)) 16)))

theorem coreState_trackMeasured (s : State) (e : Int) (c : Nat) : coreState (trackMeasured s e) c = coreState s c :=
  coreState_congr (rd_wr_ne _ _ (by decide)) c

theorem trackMeasure_tracks {s : State} {c : Nat} (e : Int) (hc : trackingCore s = some c) (h : s.tco.trackAt ≤ s.now) :
    trackMeasure s e = trackJudge (trackMeasured s e) c (epsOf (s.tco.lag + e)) := by
  rw [trackMeasure, hc]
  exact if_neg (Nat.not_lt.2 h)

section Judge
variable {s : State} {c : Nat} {h : Int}

theorem trackJudge_syncNear (h2 : coreState s c = 2) (hn : withinTrack s h = true) :
    trackJudge s c h = if s.runs .coreTrack then s else s.start .coreTrack (1000 * ms) :=
  (if_pos h2).trans (if_pos hn)

theorem trackJudge_syncFar (h2 : coreState s c = 2) (hn : withinTrack s h = false) :
    trackJudge s c h = s.stop .coreTrack := (if_pos h2).trans (if_neg (Bool.eq_false_iff.1 hn))

theorem trackJudge_standbyNear (h3 : coreState s c = 3) (hn : withinTrack s h = true) : trackJudge s c h = setMisses s 0 :=
  (if_neg (by omega)).trans (if_pos hn)

theorem trackJudge_standbyFar (h3 : coreState s c = 3) (hn : withinTrack s h = false) :
    trackJudge s c h =
      if 16 ≤ s.tco.misses + 1 then tcoEvent (setCore (setMisses s 0) c 2) 8 else setMisses s (s.tco.misses + 1) :=
  (if_neg (by omega)).trans (if_neg (Bool.eq_false_iff.1 hn))

end Judge

theorem coreTracked_due {s : State} {c : Nat} (hc : trackingCore s = some c) (h2 : coreState s c = 2)
    (hd : s.due .coreTrack = true) :
    coreTracked s = tcoEvent (setCore (setMisses (s.stop .coreTrack) 0) c 3) 4 := by
  rw [coreTracked, hc]
  exact if_pos (by rw [h2, hd]; rfl)

/-- The core that tracks is in SYNC or STANDBY. -/
theorem coreState_of_trackingCore {s : State} {c : Nat} (h : trackingCore s = some c) :
    coreState s c = 2 ∨ coreState s c = 3 := by
  simp only [trackingCore, Option.ite_none_right_eq_some, Option.some.injEq, Bool.and_eq_true, decide_eq_true_eq] at h
  obtain ⟨⟨-, hst⟩, rfl⟩ := h
  exact hst

/-! The causes of a switch-over, and SWITCH (R210, R211, R216). -/

section Fails
variable {s : State} (hact : coreState s (activeCore s) = 4 ∨ coreState s (activeCore s) = 6) (cause : Nat)
include hact

theorem activeFails_takesOver (h : (trackingCore s).isSome = true) : activeFails s cause = takeOver s cause :=
  (if_neg (by omega)).trans (if_pos h)

theorem activeFails_degrades (h : trackingCore s = none) : activeFails s cause = degrade s (decide (cause = 1)) :=
  (if_neg (by omega)).trans (if_neg (by rw [h]; decide))

end Fails

theorem guardedEffect_tcoCtrl (s : State) (r : Req) (v : Nat) :
    guardedEffect s r A.TCO_CTRL v = guardedCore s r A.TCO_CTRL v := rfl

/-- The word of a SWITCH: no repair stands beside it. -/
theorem switchWord : (1).testBit 0 = true ∧ (1).testBit 1 = false ∧ (1).testBit 2 = false := by decide

theorem guardedCore_switch {s : State} (r : Req) (a : Nat) (h : switchOk s = true) :
    guardedCore s r a 1 = swoAfter s (takeOver s 4) := by
  obtain ⟨hswitch, hcope, hdrag⟩ := switchWord
  simp [guardedCore, h, hswitch, hcope, hdrag]

theorem guardedCore_switchRejected {s : State} (r : Req) (a : Nat) (h : switchOk s = false) :
    guardedCore s r a 1 = rejected s r a := if_pos (by rw [h, switchWord.1]; rfl)

/-! Self-test (R214). -/

/-- What the runs of a slot's item make of the core `c`. -/
def slotJudged (s : State) (c item : Nat) (first second : Bool) : State :=
  if first then s
  else
    let s := noteTestFail s c item
    if !second then coreFail s c
    else
      let s := tcoEvent s 64
      if 3 ≤ (testFails s c).length then coreFail s c else s

theorem slotJudged_passed (s : State) (c item : Nat) (second : Bool) : slotJudged s c item true second = s := if_pos rfl

theorem slotJudged_failed (s : State) (c item : Nat) :
    slotJudged s c item false false = coreFail (noteTestFail s c item) c :=
  (if_neg (by decide)).trans (if_pos rfl)

theorem slotJudged_recovered (s : State) (c item : Nat) :
    slotJudged s c item false true =
      if 3 ≤ (testFails (tcoEvent (noteTestFail s c item) 64) c).length then coreFail (tcoEvent (noteTestFail s c item) 64) c
      else tcoEvent (noteTestFail s c item) 64 :=
  (if_neg (by decide)).trans (if_neg (by decide))

section Selftest
variable {s : State} {c item : Nat} (hc : trackingCore s = some c) (hg : inGap s = false)
include hc hg

theorem selftest_tracking {first second : Bool} (h0 : item ≠ 0) :
    selftest s item first second =
      if item = 7 ∧ coreState (slotJudged s c item first second) c ≠ 5 then
        (slotJudged s c item first second).setFld (A.TCO_HEALTH c) 23 0
          ((slotJudged s c item first second).fld (A.TCO_HEALTH c) 23 0 + 1)
      else slotJudged s c item first second := by
  rw [selftest, hc]
  exact if_neg (by simp [h0, hg])

/-- An item that is not the last one completes no cycle. -/
theorem selftest_midCycle {first second : Bool} {t : State} (h0 : item ≠ 0) (h7 : item ≠ 7)
    (ht : slotJudged s c item first second = t) : selftest s item first second = t :=
  (selftest_tracking hc hg h0).trans ((if_neg fun h => h7 h.1).trans ht)

/-- The last item passes: the cycle is counted. -/
theorem selftest_cycleEnds {second : Bool} : selftest s 7 true second =
    s.setFld (A.TCO_HEALTH c) 23 0 (s.fld (A.TCO_HEALTH c) 23 0 + 1) := by
  have hst := coreState_of_trackingCore hc
  rw [selftest_tracking hc hg (by decide), slotJudged_passed, if_pos ⟨rfl, by omega⟩]

end Selftest

/-! Repair (R215). -/

/-- The word of a REPAIR: SWITCH is 0, and a bit for each core. -/
theorem repairWord (m : BitVec 2) : (2 * m.toNat).testBit 0 = false ∧ (2 * m.toNat).testBit 1 = m.toNat.testBit 0 ∧
    (2 * m.toNat).testBit 2 = m.toNat.testBit 1 := by
  revert m
  decide

/-- The repairs that a mask asks for. -/
def coresRepaired (s : State) (mask : Nat) : State :=
  let t := if mask.testBit 0 then coreRepair s 0 else s
  if mask.testBit 1 then coreRepair t 1 else t

theorem guardedCore_repair (s : State) (r : Req) (a : Nat) (m : BitVec 2) :
    guardedCore s r a (2 * m.toNat) = swoAfter s (coresRepaired s m.toNat) := by
  obtain ⟨hswitch, hcope, hdrag⟩ := repairWord m
  rw [guardedCore, hswitch, hcope, hdrag]
  rfl

/-- A core that its repair takes to INIT. -/
def repairBegun (s : State) (c : Nat) : State :=
  setCore { s with tco := { s.tco with repaired := c :: s.tco.repaired.filter (· ≠ c) } } c 1

theorem autoRepair_due {s : State} {c : Nat} (hen : s.bit A.TCO_CFG 0 = true) (hst : coreState s c = 5)
    (ht : Map.get 0 s.tco.failedAt c + 60000 * ms ≤ s.now) (hf : coreFails s c < 3) : autoRepair s c = repairBegun s c := by
  rw [autoRepair, hen, hst, decide_eq_true ht, decide_eq_true hf]
  exact if_pos hst

theorem regsKept_setCore (s : State) (c st : Nat) : RegsKept s (setCore s c st) (fun a => decide (a = A.TCO_STAT)) :=
  fun _ ha => rd_setCore_ne s c st (of_decide_eq_false ha)

theorem banksKept_setCore (s : State) (c st : Nat) : BanksKept s (setCore s c st) := by
  rw [setCore]
  split
  · exact banksKept_setFld s _ _ _ _
  · exact banksKept_setFld s _ _ _ _

theorem repairBegun_leaves (s : State) (c : Nat) : coreState (repairBegun s c) c = 1 ∧
    RegsKept s (repairBegun s c) (fun a => decide (a = A.TCO_STAT)) ∧ BanksKept s (repairBegun s c) :=
  ⟨coreState_setCore_self _ c (by decide), regsKept_setCore _ c 1, banksKept_setCore _ c 1⟩

end Sys2Proof.Machine
end

section
/-! Calibration (R217 to R226): runs, measurements, and saves. -/

namespace Sys2Proof.Machine

/-! Writes of CAL.CTRL (R219, R222). -/

theorem writeEffect_cal (s : State) (r : Req) {a : Nat} (v : Nat) (h : 0x160000 ≤ a) (h' : a < 0x180000) :
    writeEffect s r a v = writeCal s a v := by
  rw [writeEffect]
  repeat rw [if_neg (by omega)]
  rw [if_pos h']

theorem writeEffect_calCtrl (s : State) (r : Req) (v : Nat) : writeEffect s r A.CAL_CTRL v = writeCalCtrl s v :=
  (writeEffect_cal s r v (by decide) (by decide)).trans (if_pos rfl)

theorem rowOf_calCtrl : rowOf A.CAL_CTRL = some ⟨0x0, 1, 0x4, 1, 0x4, .wo, 0x3, 0x0, false, false⟩ := by decide

theorem writeCalCtrl_go (s : State) : writeCalCtrl s 1 = refuseIf (calGoRejects s) (.does (calGo s)) := rfl

theorem writeCalCtrl_abort (s : State) : writeCalCtrl s 2 = .does (calAbort s) :=
  (if_neg (by decide)).trans (congrArg _ (if_pos (by decide)))

/-- A write of a WO register that its own rules decide, by one condition. -/
theorem decided_writeWo {c : Instr} {s : State} {r : Req} {a v : Nat} {row : RegRow} {bad : State → Bool}
    {t : State → State} (hc : exec c s = done s (write32 s r a v)) (h : s.listens r a = true) (ha : a % 4 = 0)
    (hr : rowOf a = some row) (hwo : row.acc = .wo) (hv : v < 2 ^ 32)
    (he : writeEffect (heard s r 1) r a v = refuseIf (bad (heard s r 1)) (.does (t (heard s r 1)))) :
    Decided c s r a bad t := by
  have hw := write32_served v h ha hr
  rw [Nat.mod_eq_of_lt hv, served_wo hwo] at hw
  refine ⟨fun hbad => ?_, fun hok => ?_⟩
  · rw [hbad] at he
    exact ends_of_exec (by rw [hc, hw, writePlain_refuse true he])
  · rw [hok] at he
    exact ends_of_exec (by rw [hc, hw, writePlain_does true he])

/-! Measurements (R219, R220). -/

section Measured
variable {s : State} {v : List Int} (hst : calState s = 2) (hg : inGap s = false)
include hst hg

theorem calMeasured_broken (hb : calBroken s = true) : calMeasured s v = calReject s 8 :=
  (if_neg (by simp [hst, hg])).trans (if_pos hb)

/-- A measurement counts where the item's channel, if it has one, is HELD. -/
theorem calMeasured_counts (hb : calBroken s = false) (ht : calKind s = 4 ∨ calKind s = 5 → tdcState s (calIndex s) = 4) :
    calMeasured s v = s.cal.m1.elim { s with cal := { s.cal with m1 := some v } } fun a => calDecide s a v := by
  refine (if_neg (by simp [hst, hg])).trans
    ((if_neg (Bool.eq_false_iff.1 hb)).trans ((if_neg fun h => h.2 (ht h.1)).trans ?_))
  cases s.cal.m1 with
  | none => rfl
  | some a => rfl

end Measured

theorem calBusyOut_running {s : State} (hst : calState s = 2) (hk : calKind s = 4 ∨ calKind s = 5)
    (hd : s.due .calBusy = true) (ht : tdcState s (calIndex s) = 3) : calBusyOut s = calReject s 7 := by
  have hp : calPhase s = 2 := by simp [calPhase, hst]
  exact if_pos (by rw [hp, hd, ht, decide_eq_true hk]; rfl)

/-! Saves (R226). -/

theorem guardedEffect_calSave (s : State) (r : Req) (v : Nat) : guardedEffect s r A.CAL_SAVE_CTRL v =
    if v.testBit 0 then (if saveOk s then saveStart s else rejected s r A.CAL_SAVE_CTRL) else s := rfl

/-- The save has ended without its copy, before its event. -/
def saveEnded (s : State) (c : Nat) : State :=
  (({ s with cal := { s.cal with saving := [], steps := 0, gens := Map.put 0 s.cal.gens c 0 } } : State).setBit
    A.CAL_STAT 27 false).stop .calSave

theorem saveEnded_cal (s : State) (c : Nat) :
    (saveEnded s c).cal = { s.cal with saving := [], steps := 0, gens := Map.put 0 s.cal.gens c 0 } := rfl

section Save
variable {s : State} {c : Nat} {l : List Nat} (hs : s.cal.saving = c :: l)
include hs

theorem saveStep_noDevice {ok : Bool} (h : (copyPlace s c).isNone = true) : saveStep s ok = s := by
  rw [saveStep, hs]
  exact if_pos h

theorem saveStep_placed {ok : Bool} (h : (copyPlace s c).isSome = true) :
    saveStep s ok =
      if !ok then (if s.cal.steps = 1 then saveFail s else s)
      else if s.cal.steps ≤ 1 then saveCopyDone s c l
      else saveTimer { s with cal := { s.cal with steps := s.cal.steps - 1 } } := by
  rw [saveStep, hs]
  exact if_neg (by rw [Option.isNone_iff_eq_none]; exact Option.isSome_iff_ne_none.1 h)

theorem saveFail_eq : saveFail s = calEvent (saveEnded s c) 16 := by
  rw [saveFail, hs]
  rfl

end Save

theorem saveTimeout_due {s : State} (hb : saveBusy s = true) (hd : s.due .calSave = true) : saveTimeout s = saveFail s :=
  if_pos (by rw [hb, hd]; rfl)

theorem calEvent_cal (s : State) (mask : Nat) : (calEvent s mask).cal = s.cal :=
  event_keeps (f := State.cal) (fun _ _ _ => rfl) (fun _ _ => rfl) s _ _ _ _ (by decide)

theorem calEvent_trims (s : State) (mask : Nat) : (calEvent s mask).trims = s.trims :=
  event_keeps (f := State.trims) (fun _ _ _ => rfl) (fun _ _ => rfl) s _ _ _ _ (by decide)

theorem rd_calEvent (s : State) (mask : Nat) {a : Nat} (ha : raiseTouches a = false) (hne : a ≠ A.CAL_EVT) :
    (calEvent s mask).rd a = s.rd a := rd_event s _ _ _ _ (by decide) ha hne

theorem runs_eq_timer (s : State) (t : Timer) : s.runs t = (s.timer t).isSome := by
  rw [State.timer, Option.isSome_map, State.runs, List.isSome_find?]

theorem runs_record (s : State) (evt mask : Nat) (t : Timer) : (s.record evt mask).runs t = s.runs t :=
  record_keeps (f := fun s => s.runs t) (fun _ _ _ => rfl) s evt mask

/-- An event starts and stops the coalescing timers alone. -/
theorem runs_calEvent (s : State) (mask : Nat) {t : Timer} (h : ∀ n, t ≠ .coalesce n) :
    (calEvent s mask).runs t = s.runs t := by
  obtain ⟨-, -, htimer, -⟩ := quiet_event s A.CAL_EVT A.CAL_EVT_EN 117 mask 0 (by decide)
  rw [runs_eq_timer, calEvent, htimer t h, ← runs_eq_timer, runs_record]

theorem saveBusy_calEvent (s : State) (mask : Nat) : saveBusy (calEvent s mask) = saveBusy s := by
  rw [saveBusy, saveBusy, State.bit, State.bit, rd_calEvent s mask (by decide) (by decide)]

theorem saveBusy_saveEnded (s : State) (c : Nat) : saveBusy (saveEnded s c) = false := by
  rw [saveBusy, State.bit, saveEnded, rd_stop]
  exact bit_setBit_false _ A.CAL_STAT 27

theorem trims_saveEnded (s : State) (c : Nat) : (saveEnded s c).trims = s.trims := by
  rw [saveEnded, stop_trims, State.setBit, setFld_trims]

theorem runs_saveEnded (s : State) (c : Nat) : (saveEnded s c).runs .calSave = false := by rw [saveEnded, runs_stop_self]

theorem saveFail_leaves {s : State} {c : Nat} {l : List Nat} (hs : s.cal.saving = c :: l) :
    saveBusy (saveFail s) = false ∧ (saveFail s).cal.saving = [] ∧ (saveFail s).runs .calSave = false ∧
      Map.get 0 (saveFail s).cal.gens c = 0 ∧ (saveFail s).trims = s.trims := by
  have hgens : Map.get 0 (saveEnded s c).cal.gens c = 0 := by rw [saveEnded_cal, map_get_put_self]
  rw [saveFail_eq hs, saveBusy_calEvent, calEvent_cal, calEvent_trims, runs_calEvent _ _ fun n => Timer.noConfusion]
  exact ⟨saveBusy_saveEnded s c, by rw [saveEnded_cal], runs_saveEnded s c, hgens, trims_saveEnded s c⟩

end Sys2Proof.Machine

namespace Sys2Proof.Proofs
open Sys2Proof.Machine

/-- The first part of CoreAndCalCommands: each core ends INIT as its state and TCLK ask for (R207, R208). -/
theorem coreInitEnds (s : State) (c : Fin 2) (hka : s.power.ka = true) (h1 : coreState (coresEnter s) c.val = 1) :
    let u := coresEnter s
    (coreRuns u = true ∨ c.val ∈ u.tco.repaired → Ends (.coreInitDone c true) s (coreSync u c.val)) ∧
    (coreRuns u = false → c.val ∉ u.tco.repaired → loopStopped s 11 = false → c.val = 0 ∨ 2 ≤ coreState u 0 →
      Ends (.coreInitDone c true) s (lsynLocked ((setCore u c.val 4).setFld A.TCO_STAT 0 0 c))) ∧
    Ends (.coreInitDone c false) s (coreFail u c.val) := by
  have hc : c.val ≤ 1 := by omega
  have hend {ok : Bool} {t : State} : coreStarts s c.val ok = t → Ends (.coreInitDone c ok) s t :=
    ends_onKeep (f := fun s => coreStarts s c.val ok) rfl hka
  exact ⟨fun h => hend (coreStarts_sync hc h1 h), fun hr hn hl h => hend (coreStarts_active hc h1 hr hn hl h),
    hend (coreStarts_fails hc h1)⟩

/-- The second part: a measurement of ε, judged by the state of the core that tracks (R209). -/
theorem trackingMeasured (s : State) (e : Int) (c : Nat) (hka : s.power.ka = true) (hc : trackingCore s = some c)
    (hat : s.tco.trackAt ≤ s.now) :
    let u := trackMeasured s e
    let near := withinTrack u (epsOf (s.tco.lag + e))
    (coreState s c = 2 → near = true → s.runs .coreTrack = true → Ends (.trackingMeasure e) s u) ∧
    (coreState s c = 2 → near = true → s.runs .coreTrack = false →
      Ends (.trackingMeasure e) s (u.start .coreTrack (1000 * ms))) ∧
    (coreState s c = 2 → near = false → Ends (.trackingMeasure e) s (u.stop .coreTrack)) ∧
    (coreState s c = 3 → near = true → Ends (.trackingMeasure e) s (setMisses u 0)) ∧
    (coreState s c = 3 → near = false → s.tco.misses < 15 → Ends (.trackingMeasure e) s (setMisses u (s.tco.misses + 1))) ∧
    (coreState s c = 3 → near = false → 15 ≤ s.tco.misses →
      Ends (.trackingMeasure e) s (tcoEvent (setCore (setMisses u 0) c 2) 8)) := by
  intro u near
  have hend {t : State} (ht : trackJudge u c (epsOf (s.tco.lag + e)) = t) : Ends (.trackingMeasure e) s t :=
    ends_onKeep (f := fun s => trackMeasure s e) rfl hka ((trackMeasure_tracks e hc hat).trans ht)
  rw [← coreState_trackMeasured s e c]
  refine ⟨fun h2 hn hr => hend ?_, fun h2 hn hr => hend ?_, fun h2 hn => hend (trackJudge_syncFar h2 hn),
    fun h3 hn => hend (trackJudge_standbyNear h3 hn), fun h3 hn hm => hend ?_, fun h3 hn hm => hend ?_⟩
  · exact (trackJudge_syncNear h2 hn).trans (if_pos hr)
  · exact (trackJudge_syncNear h2 hn).trans (if_neg (Bool.eq_false_iff.1 hr))
  · exact (trackJudge_standbyFar h3 hn).trans (if_neg (show ¬16 ≤ s.tco.misses + 1 by omega))
  · exact (trackJudge_standbyFar h3 hn).trans (if_pos (show 16 ≤ s.tco.misses + 1 by omega))

/-- Settles O30: the events of the cores and of calibration are the steps of what tracks, runs or is being saved, and the
writes are decided by TCO.CTRL, CAL.CTRL and CAL.SAVE_CTRL. -/
theorem coreAndCalCommands : Obligations.CoreAndCalCommands := by
  refine ⟨coreInitEnds, trackingMeasured, ?tracked, ?swo, ?switch, ?gapEnd, ?slot, ?repair, ?autoRepair, ?go, ?abort,
    ?measured, ?broken, ?busy, ?save, ?saveStep, ?saveTimeout⟩
  case tracked =>
    intro s c hka hc h2 hd
    exact ends_onKeep (f := coreTracked) rfl hka (coreTracked_due hc h2 hd)
  case swo =>
    intro s hka hact
    have hunlock {t : State} : activeFails s 1 = t → Ends .swoMasterUnlock s (settle (swoAfter s t)) :=
      ends_onCores (f := fun s => activeFails s 1) rfl hka
    have hcheck {t : State} : activeFails s 2 = t → Ends .swoCheckFail s (settle (swoAfter s t)) :=
      ends_onCores (f := fun s => activeFails s 2) rfl hka
    have hbeat {t : State} : activeFails s 3 = t → Ends .swoHeartbeatMissing s (settle (swoAfter s t)) :=
      ends_onCores (f := fun s => activeFails s 3) rfl hka
    refine ⟨fun h => ?_, fun h => ?_⟩
    · have htakes (cause : Nat) := activeFails_takesOver hact cause h
      exact ⟨hunlock (htakes 1), hcheck (htakes 2), hbeat (htakes 3)⟩
    · have hdegrades (cause : Nat) := activeFails_degrades hact cause h
      exact ⟨hunlock (hdegrades 1), hcheck (hdegrades 2), hbeat (hdegrades 3)⟩
  case switch =>
    intro s r h
    have hend {t : State} (ht : guardedCore (heard s r 2) r A.TCO_CTRL 1 = t) : Ends (.switch r) s t :=
      ends_guardedWrite rfl h ((guardedEffect_tcoCtrl _ r 1).trans ht)
    exact ⟨fun hok => hend (guardedCore_switch r _ hok), fun hbad => hend (guardedCore_switchRejected r _ hbad)⟩
  case gapEnd =>
    intro s hka hg
    exact ends_onKeep (f := fun s => if inGap s then calGapEnd (gapEnd s) else s) rfl hka (if_pos hg)
  case slot =>
    intro s item again c hka hc hg h0
    have hend {first second : Bool} {t : State} : selftest s item.val first second = t →
        Ends (.selftestSlot item first second) s t :=
      ends_onKeep (f := fun s => selftest s item.val first second) rfl hka
    have hmid {first second : Bool} {t : State} (ht : slotJudged s c item.val first second = t) (h7 : item ≠ 7) :
        Ends (.selftestSlot item first second) s t :=
      hend (selftest_midCycle hc hg (fun h => h0 (Fin.ext h)) (fun h => h7 (Fin.ext h)) ht)
    refine ⟨hmid (slotJudged_passed s c _ again), fun h7 => ?_, hmid (slotJudged_failed s c _),
      hmid (slotJudged_recovered s c _)⟩
    subst h7
    exact hend (selftest_cycleEnds hc hg)
  case repair =>
    intro s r m h
    exact ends_guardedWrite rfl h ((guardedEffect_tcoCtrl _ r _).trans (guardedCore_repair _ r _ m))
  case autoRepair =>
    intro s c hka hen hst ht hf
    have hend : Ends (.coreAutoRepair c) s (repairBegun s c.val) :=
      ends_onKeep (f := fun s => autoRepair s c.val) rfl hka (autoRepair_due hen hst ht hf)
    exact hend.endsWith_of (repairBegun_leaves s c.val) fun _ _ _ ht => ht
  case go =>
    intro s r h
    exact decided_writeWo rfl h (by decide) rowOf_calCtrl rfl (by decide)
      ((writeEffect_calCtrl _ r 1).trans (writeCalCtrl_go _))
  case abort =>
    intro s r h u
    have hend {t : State} (ht : calAbort u = t) : Ends (.calAbort r) s t :=
      ends_writeWo rfl h (by decide) rowOf_calCtrl rfl (by decide)
        ((writeEffect_calCtrl _ r 2).trans ((writeCalCtrl_abort _).trans (congrArg _ ht)))
    exact ⟨fun h0 => hend (if_pos h0), fun h0 => hend (if_neg h0)⟩
  case measured =>
    intro s v hrun hst hg
    have hend {t : State} : calMeasured s v = t → Ends (.calMeasurementDone v) s t :=
      ends_onTclk (f := fun s => calMeasured s v) rfl hrun
    refine ⟨fun hb => hend (calMeasured_broken hst hg hb), fun hb ht hm => hend ?_, fun x hb ht hm => hend ?_⟩
    · rw [calMeasured_counts hst hg hb ht, hm, Option.elim_none]
    · rw [calMeasured_counts hst hg hb ht, hm, Option.elim_some]
  case broken =>
    intro s hrun hb
    exact ends_onTclk (f := calPrecondition) rfl hrun (if_pos hb)
  case busy =>
    intro s hrun hst hk hd ht
    exact ends_onTclk (f := calBusyOut) rfl hrun (calBusyOut_running hst hk hd ht)
  case save =>
    intro s r h u
    have hend {t : State} (ht : (if saveOk u then saveStart u else rejected u r A.CAL_SAVE_CTRL) = t) :
        Ends (.save r) s t :=
      ends_guardedWrite rfl h ((guardedEffect_calSave u r 1).trans ((if_pos (by decide)).trans ht))
    exact ⟨fun hok => hend (if_pos hok), fun hbad => hend (if_neg (Bool.eq_false_iff.1 hbad))⟩
  case saveStep =>
    intro s c l hdie hs
    have hend {ok : Bool} {t : State} : saveStep s ok = t → Ends (.calSaveFlashOpDone ok) s t :=
      ends_onDie (f := fun s => saveStep s ok) rfl hdie
    exact ⟨fun hn ok => hend (saveStep_noDevice hs hn), fun hp =>
      ⟨fun h => hend ((saveStep_placed hs hp).trans (if_pos h)),
        fun h => hend ((saveStep_placed hs hp).trans (if_neg (Nat.not_le.2 h))),
        fun h => hend ((saveStep_placed hs hp).trans (if_pos h))⟩⟩
  case saveTimeout =>
    intro s c l hdie hs hb hd
    have hend : Ends .calSaveTimeout s (saveFail s) := ends_onDie (f := saveTimeout) rfl hdie (saveTimeout_due hb hd)
    exact hend.endsWith_of (saveFail_leaves hs) fun _ _ _ ht => ht

end Sys2Proof.Proofs
end

section
/-! HEAT.STAT (R237, R240): the states of the slots, and the active slot. -/

namespace Sys2Proof.Machine

theorem rd_putCls (s : State) (h : ClsHidden) (a : Nat) : (putCls s h).rd a = s.rd a := rfl

theorem fld_putCls (s : State) (h : ClsHidden) (a hi lo : Nat) : (putCls s h).fld a hi lo = s.fld a hi lo := rfl

theorem putCls_buf (s : State) (h : ClsHidden) : (putCls s h).buf = s.buf := rfl

theorem putCls_regs (s : State) (h : ClsHidden) : (putCls s h).regs = s.regs := rfl

theorem putCls_mem (s : State) (h : ClsHidden) : (putCls s h).mem = s.mem := rfl

theorem putCls_banks (s : State) (h : ClsHidden) : (putCls s h).banks = s.banks := rfl

theorem setSlotState_buf (s : State) (x st : Nat) : (setSlotState s x st).buf = s.buf := setFld_buf s _ _ _ _

theorem banksKept_setSlotState (s : State) (x st : Nat) : BanksKept s (setSlotState s x st) := banksKept_setFld s _ _ _ _

/-- The field of a slot lies within the word. -/
theorem slotState_setSlotState_self (s : State) {x st : Nat} (hx : x ≤ 1) (h : st < 8) :
    slotState (setSlotState s x st) x = st :=
  fld_setFld_self s _ (by omega) (by omega) (by rwa [show 26 + 3 * x + 1 - (24 + 3 * x) = 3 by omega])

/-- The fields of two slots have no bit in common. -/
theorem slotState_setSlotState_ne (s : State) {x y : Nat} (st : Nat) (hy : y ≤ 1) (h : y ≠ x) :
    slotState (setSlotState s x st) y = slotState s y :=
  fld_setFld_apart s _ st (by omega) (by omega) (by omega) (by omega)

/-- A field of HEAT.STAT below or above both slots' fields. -/
theorem slotState_setFld (s : State) (v : Nat) {x hi lo : Nat} (hx : x ≤ 1) (hle : lo ≤ hi) (h : hi < 24 ∨ 29 < lo) :
    slotState (s.setFld A.HEAT_STAT hi lo v) x = slotState s x :=
  fld_setFld_apart s _ v (by omega) (by omega) hle (by omega)

theorem slotState_putCls (s : State) (h : ClsHidden) (x : Nat) : slotState (putCls s h) x = slotState s x := rfl

theorem activeSlot_putCls (s : State) (h : ClsHidden) : activeSlot (putCls s h) = activeSlot s := rfl

theorem banksKept_putCls (s : State) (h : ClsHidden) : BanksKept s (putCls s h) :=
  banksKept_of_eq (putCls_mem s h) (putCls_banks s h)

theorem slotState_congr {s t : State} (h : t.rd A.HEAT_STAT = s.rd A.HEAT_STAT) (x : Nat) :
    slotState t x = slotState s x := by rw [slotState, slotState, State.fld, State.fld, h]

theorem activeSlot_congr {s t : State} (h : t.rd A.HEAT_STAT = s.rd A.HEAT_STAT) : activeSlot t = activeSlot s := by
  rw [activeSlot, activeSlot, State.bit, State.bit, State.fld, State.fld, h]

theorem activeSlot_le {s : State} {y : Nat} (h : activeSlot s = some y) : y ≤ 1 := by
  have hlt : s.fld A.HEAT_STAT 23 23 < 2 := bits_lt _ 23 23
  rw [activeSlot] at h
  split at h
  · cases h
    omega
  · cases h

theorem loadingSlot_of_active {s : State} {y : Nat} (h : activeSlot s = some y) : loadingSlot s = 1 - y := by
  rw [loadingSlot, h]

theorem loadingSlot_le (s : State) : loadingSlot s ≤ 1 := by
  rw [loadingSlot]
  split
  · exact Nat.sub_le 1 _
  · exact Nat.zero_le 1

end Sys2Proof.Machine
end

section
/-! The activation of a heat (R240): the former slot drains, the loading slot is made active, and its heat is shown. -/

namespace Sys2Proof.Machine

/-- The active slot, where there is one, becomes DRAINING. -/
def formerDrains (s : State) (arriving : List Nat) : State :=
  match activeSlot s with
  | some y => putCls (setSlotState s y 6) { (setSlotState s y 6).cls with drainAt := s.now, arriving := arriving }
  | none => s

/-- Slot `x` becomes ACTIVE, and the active slot. -/
def slotActivated (s : State) (x : Nat) : State :=
  ((setSlotState s x 5).setBit A.HEAT_STAT 31 true).setFld A.HEAT_STAT 23 23 x

/-- The heat of the commit and its T are shown. -/
def heatShown (s : State) (c : HeatRec) : State := (s.setFld A.HEAT_STAT 15 0 c.heat).wrTime A.HEAT_CMT_W2 c.t

/-- An activation is these three steps; what is held of the commit is no register, no bank and no buffer. -/
theorem activate_eq (s : State) (c : HeatRec) (arriving : List Nat) :
    ∃ h, activate s c arriving = putCls (heatShown (slotActivated (formerDrains s arriving) (loadingSlot s)) c) h :=
  ⟨_, rfl⟩

/-! The former slot. -/

theorem slotState_formerDrains {s : State} {y : Nat} (arriving : List Nat) (h : activeSlot s = some y) :
    slotState (formerDrains s arriving) y = 6 := by
  rw [formerDrains, h]
  exact slotState_setSlotState_self s (activeSlot_le h) (by decide)

theorem formerDrains_buf (s : State) (arriving : List Nat) : (formerDrains s arriving).buf = s.buf := by
  rw [formerDrains]
  split
  · rw [putCls_buf, setSlotState_buf]
  · rfl

theorem banksKept_formerDrains (s : State) (arriving : List Nat) : BanksKept s (formerDrains s arriving) := by
  rw [formerDrains]
  split
  next y _ => exact fun b i => (banksKept_putCls _ _ b i).trans (banksKept_setSlotState s y 6 b i)
  · exact fun _ _ => rfl

/-! The slot that is made active. -/

theorem slotState_slotActivated_self (s : State) {x : Nat} (hx : x ≤ 1) : slotState (slotActivated s x) x = 5 := by
  rw [slotActivated, slotState_setFld _ _ hx (by decide) (by decide), State.setBit,
    slotState_setFld _ _ hx (by decide) (by decide), slotState_setSlotState_self s hx (by decide)]

theorem slotState_slotActivated_ne (s : State) {x y : Nat} (hy : y ≤ 1) (h : y ≠ x) :
    slotState (slotActivated s x) y = slotState s y := by
  rw [slotActivated, slotState_setFld _ _ hy (by decide) (by decide), State.setBit,
    slotState_setFld _ _ hy (by decide) (by decide), slotState_setSlotState_ne s 5 hy h]

theorem activeSlot_slotActivated (s : State) {x : Nat} (hx : x ≤ 1) : activeSlot (slotActivated s x) = some x := by
  rw [activeSlot, slotActivated, bit_setFld_apart _ _ _ (by decide) (by decide) (by decide),
    bit_setBit_true _ _ (by decide), if_pos rfl, fld_setFld_self _ _ (by decide) (by decide) (by omega)]

theorem slotActivated_buf (s : State) (x : Nat) : (slotActivated s x).buf = s.buf := by
  rw [slotActivated, setFld_buf, setBit_buf, setSlotState_buf]

theorem banksKept_slotActivated (s : State) (x : Nat) : BanksKept s (slotActivated s x) :=
  banksKept_of_eq (by rw [slotActivated, setFld_mem, setBit_mem, setSlotState, setFld_mem])
    (by rw [slotActivated, setFld_banks, setBit_banks, setSlotState, setFld_banks])

/-! The heat that is shown. -/

theorem rd_heatShown_stat (s : State) (c : HeatRec) :
    (heatShown s c).rd A.HEAT_STAT = (s.setFld A.HEAT_STAT 15 0 c.heat).rd A.HEAT_STAT :=
  rd_wrTime_ne _ c.t (by decide)

theorem slotState_heatShown (s : State) (c : HeatRec) {x : Nat} (hx : x ≤ 1) :
    slotState (heatShown s c) x = slotState s x :=
  (slotState_congr (rd_heatShown_stat s c) x).trans (slotState_setFld s _ hx (by decide) (by decide))

theorem activeSlot_heatShown (s : State) (c : HeatRec) : activeSlot (heatShown s c) = activeSlot s := by
  rw [activeSlot_congr (rd_heatShown_stat s c), activeSlot, activeSlot,
    bit_setFld_apart s _ _ (by decide) (by decide) (by decide),
    fld_setFld_apart s _ _ (by decide) (by decide) (by decide) (by decide)]

theorem fld_heatShown (s : State) (c : HeatRec) : (heatShown s c).fld A.HEAT_STAT 15 0 = c.heat % 2 ^ 16 := by
  rw [State.fld, rd_heatShown_stat, State.setFld, rd_wr_self,
    bits_of_mod (w' := putBits _ 15 0 c.heat) (by decide) (by decide : 15 < 32) (Nat.mod_mod _ _),
    bits_putBits_self _ _ _ _ (by decide)]

theorem heatShown_buf (s : State) (c : HeatRec) : (heatShown s c).buf = s.buf := by
  rw [heatShown, State.wrTime, wr_buf, wr_buf, wr_buf, setFld_buf]

theorem banksKept_heatShown (s : State) (c : HeatRec) : BanksKept s (heatShown s c) :=
  banksKept_of_eq (by rw [heatShown, State.wrTime, wr_mem, wr_mem, wr_mem, setFld_mem])
    (by rw [heatShown, State.wrTime, wr_banks, wr_banks, wr_banks, setFld_banks])

end Sys2Proof.Machine

namespace Sys2Proof.Proofs
open Sys2Proof.Machine

/-- Settles O37, by the three steps of an activation: each writes fields of HEAT.STAT that the later ones keep. -/
theorem commitActivates : Obligations.CommitActivates := by
  intro s c arriving
  obtain ⟨h, ht⟩ := activate_eq s c arriving
  rw [ht]
  intro x t
  have hx : x ≤ 1 := loadingSlot_le s
  refine ⟨?_, ?_, ?_, fun y hy => ?_, fun b i => ?_, ?_⟩
  · rw [slotState_putCls, slotState_heatShown _ _ hx, slotState_slotActivated_self _ hx]
  · rw [activeSlot_putCls, activeSlot_heatShown, activeSlot_slotActivated _ hx]
  · rw [fld_putCls, fld_heatShown]
  · have hle : y ≤ 1 := activeSlot_le hy
    have hne : y ≠ x := by
      have hload : x = 1 - y := loadingSlot_of_active hy
      omega
    refine ⟨hne, ?_⟩
    rw [slotState_putCls, slotState_heatShown _ _ hle, slotState_slotActivated_ne _ hle hne,
      slotState_formerDrains arriving hy]
  · calc t.bankByte b i
      _ = (heatShown (slotActivated (formerDrains s arriving) x) c).bankByte b i := banksKept_putCls _ h b i
      _ = (slotActivated (formerDrains s arriving) x).bankByte b i := banksKept_heatShown _ c b i
      _ = (formerDrains s arriving).bankByte b i := banksKept_slotActivated _ x b i
      _ = s.bankByte b i := banksKept_formerDrains s arriving b i
  · rw [putCls_buf, heatShown_buf, slotActivated_buf, formerDrains_buf]

end Sys2Proof.Proofs
end

section
/-! The entries of the Mould: where they stand in the map, which of them are valid, and which one wins a lookup (R232,
R233). -/

namespace Sys2Proof.Machine

/-! The words of the Mould. -/

theorem rowOf_tbl {o : Nat} (h : o < 0x1000000) : rowOf (0x2000000 + o) = rowsTBL.find? (·.covers o) :=
  rowOf_of_index (n := 22) (i := 0) (b := ⟨0x2000000, 0x1000000, 0x1000000, rowsTBL⟩) rfl (by decide) h
    (show 0 * 0x1000000 + o < 0x1000000 by omega)

/-- The row of the Mould's words. -/
def mouldRow : RegRow := ⟨0x0, 65536, 0x80, 32, 0x4, .rw, 0xffffffff, 0x0, false, false⟩

theorem rowOf_mould {o : Nat} (h : o < 0x800000) (h4 : o % 4 = 0) : rowOf (0x2000000 + o) = some mouldRow := by
  rw [rowOf_tbl (by omega), rowsTBL]
  refine List.find?_cons_of_pos ?_
  simp only [RegRow.covers, Bool.and_eq_true, decide_eq_true_eq]
  omega

theorem resetOf_mould {o : Nat} (h : o < 0x800000) (h4 : o % 4 = 0) : resetOf (0x2000000 + o) = 0 := by
  rw [resetOf, rowOf_mould h h4]
  rfl

/-! Valid entries. -/

theorem map_get_absent {α : Type} (d : α) (m : List (Nat × α)) {a : Nat} (h : ∀ e ∈ m, e.1 ≠ a) : Map.get d m a = d := by
  induction m with
  | nil => rfl
  | cons e m ih =>
    rw [Map.get, if_neg (h e (List.mem_cons_self ..)), ih fun e he => h e (List.mem_cons_of_mem _ he)]

/-- A register that the file does not hold reads its reset value. -/
theorem rd_of_absent {s : State} {a : Nat} (h : ∀ e ∈ s.regs, e.1 ≠ a) : s.rd a = (resetOf a).toNat := by
  rw [State.rd, map_get_absent _ _ h]

/-- A valid entry's last word is in the file, since VALID is 0 at reset. -/
theorem mem_validEntries {s : State} {x e : Nat} (hx : x < 2) :
    e ∈ validEntries s x ↔ e < 32768 ∧ (s.rd (A.TBL_MOULD (32768 * x + e) 31)).testBit 27 = true := by
  simp only [validEntries, List.mem_insertionSort, List.mem_map, List.mem_filter, Bool.and_eq_true, decide_eq_true_eq]
  refine ⟨?_, fun ⟨he, hv⟩ => ?_⟩
  · rintro ⟨w, ⟨-, ⟨⟨hlo, hhi⟩, hlast⟩, hv⟩, rfl⟩
    simp only [mouldBase, A.TBL_MOULD] at hlo hhi ⊢
    have hat : 0x2000000 + (32768 * x + (w.1 - (0x2000000 + 32768 * x * 0x80 + 0 * 0x4)) / 128) * 0x80 + 31 * 0x4 =
        w.1 := by omega
    exact ⟨by omega, by rwa [hat]⟩
  · have hin : ∃ w ∈ s.regs, w.1 = A.TBL_MOULD (32768 * x + e) 31 := by
      by_contra hout
      push Not at hout
      have haddr : A.TBL_MOULD (32768 * x + e) 31 = 0x2000000 + ((32768 * x + e) * 0x80 + 124) := by
        simp only [A.TBL_MOULD]
        omega
      rw [rd_of_absent hout, haddr, resetOf_mould (by omega) (by omega)] at hv
      exact absurd hv (by decide)
    obtain ⟨w, hw, hat⟩ := hin
    refine ⟨w, ⟨hw, ?_, by rwa [hat]⟩, ?_⟩ <;> simp only [hat, mouldBase, A.TBL_MOULD] <;> omega

/-! The winner. -/

/-- In a rising list the first element that satisfies `p` is the lowest one that does. -/
theorem find?_rising_iff {l : List Nat} (hl : l.Pairwise (· ≤ ·)) (p : Nat → Bool) (e : Nat) :
    l.find? p = some e ↔ (e ∈ l ∧ p e = true) ∧ ∀ e' ∈ l, p e' = true → e ≤ e' := by
  induction l with
  | nil => simp
  | cons b l ih =>
    obtain ⟨hb, hl⟩ := List.pairwise_cons.1 hl
    cases hp : p b with
    | true =>
      rw [List.find?_cons_of_pos hp, Option.some_inj]
      refine ⟨?_, fun ⟨⟨he, _⟩, hmin⟩ => ?_⟩
      · rintro rfl
        exact ⟨⟨List.mem_cons_self .., hp⟩, List.forall_mem_cons.2 ⟨fun _ => Nat.le_refl b, fun e' he' _ => hb e' he'⟩⟩
      · have hle : e ≤ b := hmin b (List.mem_cons_self ..) hp
        rcases List.mem_cons.1 he with rfl | he
        · rfl
        · exact Nat.le_antisymm (hb e he) hle
    | false =>
      have hne : p e = true → e ≠ b := by
        rintro he rfl
        rw [hp] at he
        cases he
      rw [List.find?_cons_of_neg (by rw [hp]; decide), ih hl]
      refine and_congr (and_congr_left fun he => ?_) ?_
      · rw [List.mem_cons, or_iff_right (hne he)]
      · rw [List.forall_mem_cons, and_iff_right (by rw [hp]; nofun)]

theorem winner_eq_some_iff (s : State) (x key e : Nat) :
    winner s x key = some e ↔
      (e ∈ validEntries s x ∧ entryMatches s x e key = true) ∧
        ∀ e' ∈ validEntries s x, entryMatches s x e' key = true → e ≤ e' :=
  find?_rising_iff (List.pairwise_insertionSort _ _) _ e

theorem winner_eq_none_iff (s : State) (x key : Nat) :
    winner s x key = none ↔ ∀ e ∈ validEntries s x, ¬entryMatches s x e key = true := List.find?_eq_none

/-- A key that no entry of the frame's slot wins is a miss. -/
theorem lookupFrame_miss {s : State} {f : Frame} {d : List Nat} {k : Key} {x : Nat} (hs : f.slot = some x)
    (hk : parseKey d (prsCfg s) = .ok k) (hw : winner s x (keyBits k f.inPort f.pass (tsqFlagged f.tsq)) = none) :
    (lookupFrame s f d).1 = .miss := by
  simp only [lookupFrame, hk, hs, hw]

end Sys2Proof.Machine

namespace Sys2Proof.Proofs
open Sys2Proof.Machine

/-- Settles O35: the valid entries of a slot are searched by rising index, and the first that matches wins. -/
theorem winningEntry : Obligations.WinningEntry := by
  intro s x key hx valid value mask hit
  have hhit (e : Nat) : e < 32768 ∧ hit e ↔ e ∈ validEntries s x ∧ entryMatches s x e key = true := by
    simp only [hit, valid, mask, value, mem_validEntries hx, entryMatches, entryBits, entryWord, decide_eq_true_eq,
      Nat.zero_add, and_assoc]
  refine ⟨fun e => ?_, ?_, fun f d k hs hk hkey hw => ?_⟩
  · rw [winner_eq_some_iff, ← hhit, and_assoc]
    refine and_congr_right fun he => and_congr_right fun _ => ⟨fun hmin e' hlt hm => ?_, fun hmin e' hv hm => ?_⟩
    · obtain ⟨hv', hm'⟩ := (hhit e').1 ⟨Nat.lt_trans hlt he, hm⟩
      exact absurd (hmin e' hv' hm') (Nat.not_le.2 hlt)
    · exact Nat.le_of_not_lt fun hlt => hmin e' hlt ((hhit e').2 ⟨hv, hm⟩).2
  · rw [winner_eq_none_iff]
    exact ⟨fun h e he hm => h e ((hhit e).1 ⟨he, hm⟩).1 ((hhit e).1 ⟨he, hm⟩).2,
      fun h e hv hm => h e ((hhit e).2 ⟨hv, hm⟩).1 ((hhit e).2 ⟨hv, hm⟩).2⟩
  · exact lookupFrame_miss hs hk (by rw [hkey, hw])

end Sys2Proof.Proofs
end

section
/-! A received frame (R227, R232): what stands between its arrival and its lookup. -/

namespace Sys2Proof.Machine

theorem takeDelivered_ethernet {s : State} {p : Nat} (id : Nat) (b : List Byte) (h : typeEff s p ≠ 13) :
    takeDelivered s p id b = some (s, false) := if_pos h

theorem dropReceived_none {s : State} {p : Nat} (hb : bootState s ≠ 8) (hs : portStalled s p = false) :
    dropReceived s p = none := by
  rw [dropReceived, if_neg hb, if_neg (by rw [hs]; decide)]

/-- The arriving frame takes its number, and is none that the blocks still wait for (R241). -/
def arrivalNoted (s : State) (p : Nat) (st : RxStamp) : State :=
  countArrival (freshId s).2 p (rxTime (freshId s).2 p st)

/-- The runner of port `p` counts a received frame of `n` bytes. -/
def receptionCounted (s : State) (p n : Nat) : State :=
  (s.pmcEvent (runnerOfPort p) (0x040 + 16 * (p % 4)) 1).pmcEvent (runnerOfPort p) (0x040 + 16 * (p % 4) + 1) n

theorem quiet_receptionCounted (s : State) {p : Nat} (n : Nat) (hp : p < 64) : Quiet s (receptionCounted s p n) := by
  have hg : runnerOfPort p < 24 := by
    rw [runnerOfPort]
    omega
  exact (quiet_pmcEvent s _ _ 1 hg).trans (quiet_pmcEvent _ _ _ n hg)

/-- Neither the note nor the count touches the loops and GLB.BOOT_STAT. -/
theorem dropReceived_counted {s : State} {p : Nat} (n : Nat) (st : RxStamp) (hp : p < 64) (hb : bootState s ≠ 8)
    (hs : portStalled s p = false) : dropReceived (receptionCounted (arrivalNoted s p st) p n) p = none := by
  have hq := quiet_receptionCounted (arrivalNoted s p st) n hp
  have hkept : (arrivalNoted s p st).loops = s.loops ∧
      (arrivalNoted s p st).rd A.GLB_BOOT_STAT = s.rd A.GLB_BOOT_STAT := by
    rw [arrivalNoted, countArrival]
    split
    · exact ⟨rfl, rfl⟩
    · exact ⟨rfl, rfl⟩
  obtain ⟨hloops, hstat⟩ := hkept
  refine dropReceived_none ?_ ?_
  · rwa [bootState, hq.fld 3 0 (by decide), State.fld, hstat]
  · simp only [portStalled, loopStopped, hq.keeps State.loops fun _ => rfl, hloops]
    exact hs

/-- What a frame that is formed and noted goes through at port `p`: its counts, its ways out, and its lookup. -/
def frameGoesOn (s : State) (p : Nat) (d : List Nat) (f : Frame) : State :=
  let w := receptionCounted s p (frameLen f)
  let w := if f.bad then w.pmcEvent (runnerOfPort p) (0x040 + 16 * (p % 4) + 4) 1 else w
  match dropReceived w p with
  | some t => releaseReady (if f.bad then w else t) p
  | none =>
    if takenOut w p d then releaseReady w p
    else
      let x := lookupFrame w f d
      if f.bad && !mayCutThrough w f x.1 then releaseReady w p else releaseReady (enterFrame w f d x.1 x.2) p

/-- A frame of an Ethernet port waits on no trunk, so that its number changes nothing that waits for classification. -/
theorem classifyFrame_ethernet {s : State} {p : Nat} (b : List Byte) (st : RxStamp) (t : Nat)
    (hup : portUp s p = true) (ht : typeEff s p ≠ 13) :
    classifyFrame s p b st t =
      frameGoesOn (arrivalNoted s p st) p (toNats b) (receivedFrame (arrivalNoted s p st) p (freshId s).1 b st t) := by
  have hfresh : takeDelivered (freshId s).2 p (freshId s).1 b = some ((freshId s).2, false) :=
    takeDelivered_ethernet _ b ht
  have hwaits : unclassified s (lastCommit s) = unclassified (freshId s).2 (lastCommit (freshId s).2) := rfl
  rw [classifyFrame, if_neg (by rw [hup]; decide)]
  simp only [hfresh, if_pos hwaits]
  rfl

theorem frameGoesOn_enters {s : State} {p : Nat} {d : List Nat} {f : Frame} (hgood : f.bad = false)
    (hdrop : dropReceived (receptionCounted s p (frameLen f)) p = none)
    (hout : takenOut (receptionCounted s p (frameLen f)) p d = false) :
    frameGoesOn s p d f =
      let w := receptionCounted s p (frameLen f)
      releaseReady (enterFrame w f d (lookupFrame w f d).1 (lookupFrame w f d).2) p := by
  simp only [frameGoesOn, hgood, Bool.false_and, Bool.false_eq_true, if_false, hdrop, hout]

end Sys2Proof.Machine

namespace Sys2Proof.Proofs
open Sys2Proof.Machine

/-- Settles O34: nothing between the arrival of such a frame and its lookup turns it away. -/
theorem receivedFrameEnters : Obligations.ReceivedFrameEnters := by
  intro s p b st t hup ht hb hs id u f g j w hgood hout
  exact (classifyFrame_ethernet b st t hup ht).trans
    (frameGoesOn_enters hgood (dropReceived_counted _ st p.isLt hb hs) hout)

end Sys2Proof.Proofs
end

section
/-! Commands of an island: where its circuits run, they end in what they do. -/

namespace Sys2Proof.Machine

theorem ends_onIsland {c : Instr} {s t : State} {i : Nat} {f : State → State} (hc : exec c s = onIsland s i f)
    (h : s.islandRuns i = true) (ht : f s = t) : Ends c s t := ends_of_exec (by rw [hc, onIsland_on h, ht])

theorem ends_onIsland_settle {c : Instr} {s t : State} {i : Nat} {f : State → State}
    (hc : exec c s = onIsland s i fun s => settle (f s)) (h : s.islandRuns i = true) (ht : f s = t) :
    Ends c s (settle t) := ends_onIsland hc h (congrArg settle ht)

theorem loopStopped_of_islandRuns {s : State} {i : Nat} (h : s.islandRuns i = true) : loopStopped s i = false := by
  simp only [State.islandRuns, Machine.islandRuns, Bool.and_eq_true, Bool.not_eq_true'] at h
  exact h.2.1

end Sys2Proof.Machine
end

section
/-! Recirculation (R243, R248, R271), the punt buckets (R236), and the errors and writes of Mould entries (R233, R235,
R237). -/

namespace Sys2Proof.Machine

/-! Recirculation. -/

/-- The frame of copy `k` begins its next pass. -/
def nextPass (k : Pkt) (f : Frame) (s : State) : State :=
  let g := { f with pass := f.pass + 1, pool := .none }
  let s := (((f.banks.take 1).foldl (grantRead 5) s).add64 A.QM_RCX_PASSES_LO 1).pmcEvent (runnerOfPort f.inPort) 0x015 1
  let s := refreshGlobal (putFrame s g)
  if f.orphan then removePkt (slag (s.add64 A.HEAT_ORPHAN_LO 1) 12) k
  else applyFound s k g (lookupFrame s g (toNats f.bytes)).2 (lookupFrame s g (toNats f.bytes)).1

/-- The frame at the head of a path that is clocked passes again once the path is free. -/
theorem reenterFrame_head {s : State} {slice : Nat} {k : Pkt} {f : Frame} (ecc : Option EccFault)
    (hrun : s.islandRuns slice = true) (hk : (s.buf.pkts.find? fun k => k.loc = .recirc slice) = some k)
    (hf : frameOf s k.fid = some f) :
    reenterFrame s slice ecc =
      if pathBusy s slice then s else withEcc (takePath s slice (frameLen f)) ecc k false (nextPass k f) := by
  rw [reenterFrame, loopStopped_of_islandRuns hrun, if_neg Bool.false_ne_true]
  simp only [hk, hf]
  rfl

theorem withEcc_none (s : State) (k : Pkt) (ll : Bool) (next : State → State) : withEcc s none k ll next = next s := rfl

theorem withEcc_single (s : State) (k : Pkt) (ll : Bool) (next : State → State) :
    withEcc s (some .single) k ll next = next (qmEvent (s.add64 A.QM_CRU_CE_LO 1) 8) := rfl

theorem withEcc_uncorrectable (s : State) (k : Pkt) (next : State → State) :
    withEcc s (some .uncorrectable) k false next = removePkt (slag (qmEvent (s.add64 A.QM_CRU_UE_LO 1) 16) 8) k := by
  rw [withEcc, eccDrop, if_neg Bool.false_ne_true, eccLost]

/-! The punt buckets. -/

theorem puntDepth_congr {s t : State} (h : t.regs = s.regs) (b : Nat) : puntDepth t b = puntDepth s b := by
  rw [puntDepth, puntDepth, State.fld, State.fld, State.rd, State.rd, h]

theorem puntRate_congr {s t : State} (h : t.regs = s.regs) (b : Nat) : puntRate t b = puntRate s b := by
  rw [puntRate, puntRate, State.fld, State.fld, State.rd, State.rd, h]

theorem puntTokens_congr {s t : State} {b : Nat} (h : t.regs = s.regs)
    (ht : Map.get 0 t.cls.tokens b = Map.get 0 s.cls.tokens b) : puntTokens t b = puntTokens s b := by
  rw [puntTokens, puntTokens, ht, puntDepth_congr h]

theorem setTokens_regs (s : State) (b n : Nat) : (setTokens s b n).regs = s.regs := by
  rw [setTokens, putCls_regs]

theorem setTokens_tokens (s : State) (b n : Nat) :
    (setTokens s b n).cls.tokens = Map.put 0 s.cls.tokens b (if puntDepth s b ≤ n then 0 else n + 1) := rfl

/-- What is held of the buckets is their tokens. -/
theorem puntTokens_putCls {s : State} {h : ClsHidden} {b : Nat} (ht : h.tokens = s.cls.tokens) :
    puntTokens (putCls s h) b = puntTokens s b :=
  puntTokens_congr (t := putCls s h) rfl (congrArg (fun m => Map.get 0 m b) ht)

/-- A bucket holds what it is given, up to its depth. -/
theorem puntTokens_setTokens_self (s : State) (b n : Nat) :
    puntTokens (setTokens s b n) b = Nat.min n (puntDepth s b) := by
  rw [puntTokens, setTokens_tokens, map_get_put_self, puntDepth_congr (setTokens_regs s b n)]
  generalize puntDepth s b = d
  by_cases h : d ≤ n
  · rw [if_pos h]
    exact (Nat.min_eq_right h).symm
  · rw [if_neg h]

theorem puntTokens_setTokens_ne (s : State) {b b' : Nat} (n : Nat) (h : b' ≠ b) :
    puntTokens (setTokens s b n) b' = puntTokens s b' := by
  refine puntTokens_congr (setTokens_regs s b n) ?_
  rw [setTokens_tokens, map_get_put_ne 0 0 _ _ h]

/-- The first `n` buckets fill for `ns` nanoseconds. -/
def fillBuckets (s : State) (ns n : Nat) : State :=
  (List.range n).foldl (fun s b => setTokens s b (puntTokens s b + puntRate s b * ns)) s

theorem fillBuckets_regs (s : State) (ns n : Nat) : (fillBuckets s ns n).regs = s.regs := by
  refine foldl_keeps (f := State.regs) (fun s b => ?_) _ s
  exact setTokens_regs s b _

theorem fillBuckets_buf (s : State) (ns n : Nat) : (fillBuckets s ns n).buf = s.buf := by
  refine foldl_keeps (f := State.buf) (fun s b => ?_) _ s
  rw [setTokens, putCls_buf]

theorem fillBuckets_mem (s : State) (ns n : Nat) : (fillBuckets s ns n).mem = s.mem := by
  refine foldl_keeps (f := State.mem) (fun s b => ?_) _ s
  rw [setTokens, putCls_mem]

theorem fillBuckets_banks (s : State) (ns n : Nat) : (fillBuckets s ns n).banks = s.banks := by
  refine foldl_keeps (f := State.banks) (fun s b => ?_) _ s
  rw [setTokens, putCls_banks]

theorem fillBuckets_succ (s : State) (ns n : Nat) :
    fillBuckets s ns (n + 1) =
      setTokens (fillBuckets s ns n) n (puntTokens (fillBuckets s ns n) n + puntRate (fillBuckets s ns n) n * ns) := by
  rw [fillBuckets, List.range_succ, List.foldl_concat, fillBuckets]

/-- Each bucket fills once, and no other bucket's filling touches it. -/
theorem puntTokens_fillBuckets (s : State) (ns b n : Nat) :
    puntTokens (fillBuckets s ns n) b =
      if b < n then Nat.min (puntTokens s b + puntRate s b * ns) (puntDepth s b) else puntTokens s b := by
  induction n with
  | zero => rfl
  | succ n ih =>
    rw [fillBuckets_succ]
    by_cases hb : b = n
    · subst hb
      have hregs := fillBuckets_regs s ns b
      rw [if_neg (Nat.lt_irrefl b)] at ih
      rw [puntTokens_setTokens_self, ih, puntRate_congr hregs, puntDepth_congr hregs, if_pos (Nat.lt_succ_self b)]
    · rw [puntTokens_setTokens_ne _ _ hb, ih]
      exact if_congr (by omega) rfl rfl

/-- A refill fills the 17 buckets for the time that the island ran, and notes that time. -/
theorem puntRefill_eq (s : State) :
    ∃ h, puntRefill s = putCls (fillBuckets s (s.buf.ran - s.cls.filled) 17) h ∧
      h.tokens = (fillBuckets s (s.buf.ran - s.cls.filled) 17).cls.tokens ∧
      h.filled = (fillBuckets s (s.buf.ran - s.cls.filled) 17).buf.ran := by
  rw [puntRefill, ← fillBuckets]
  exact ⟨_, rfl, rfl, rfl⟩

theorem puntRefill_fills (s : State) :
    let t := puntRefill s
    (∀ b, b < 17 →
      puntTokens t b = Nat.min (puntTokens s b + puntRate s b * (s.buf.ran - s.cls.filled)) (puntDepth s b)) ∧
    t.cls.filled = s.buf.ran ∧ RegsKept s t (fun _ => false) ∧ BanksKept s t := by
  obtain ⟨h, ht, htokens, hfilled⟩ := puntRefill_eq s
  rw [ht]
  refine ⟨fun b hb => ?_, hfilled.trans ?_, fun a _ => ?_, banksKept_of_eq ?_ ?_⟩
  · rw [puntTokens_putCls htokens, puntTokens_fillBuckets, if_pos hb]
  · rw [fillBuckets_buf]
  · rw [rd_putCls, State.rd, State.rd, fillBuckets_regs]
  · rw [putCls_mem, fillBuckets_mem]
  · rw [putCls_banks, fillBuckets_banks]

/-! Errors of entries. -/

/-- A recorded event is seen in its register. -/
theorem bit_record_self (s : State) (evt : Nat) {mask i : Nat} (hm : mask < 2 ^ 24) (hi : mask.testBit i = true) :
    (s.record evt mask).bit evt i = true := by
  have hi24 : i < 24 := Nat.lt_of_not_le fun hle => by
    rw [Nat.testBit_lt_two_pow (Nat.lt_of_lt_of_le hm (Nat.pow_le_pow_right (by decide) hle))] at hi
    cases hi
  have hne : mask ≠ 0 := by
    rintro rfl
    rw [Nat.zero_testBit] at hi
    cases hi
  have hlow : bits (s.rd evt) 23 0 ||| mask < 2 ^ 24 := Nat.or_lt_two_pow (bits_lt _ 23 0) hm
  rw [State.record, if_neg hne, State.bit, rd_stamps, rd_wr_self, Nat.testBit_mod_two_pow, Nat.mul_comm _ (2 ^ 24),
    Nat.testBit_two_pow_mul_add _ hlow, if_pos hi24, Nat.testBit_or, hi, Bool.or_true, decide_eq_true (by omega : i < 32)]
  rfl

/-- The error of an entry is noted in the copy of its slice. -/
def entryNoted (s : State) (slice x e : Nat) : State :=
  putCls s { s.cls with bad := badKey slice x e :: s.cls.bad.filter (· ≠ badKey slice x e) }

theorem scrubEntry_uncorrectable (s : State) (slice x e : Nat) :
    scrubEntry s slice x e .uncorrectable = clsEvent ((entryNoted s slice x e).add64 A.CLS_MOULD_ERR_LO 1) 8 := rfl

theorem clsEvent_cls (s : State) (mask : Nat) : (clsEvent s mask).cls = s.cls :=
  event_keeps (f := State.cls) (fun _ _ _ => rfl) (fun _ _ => rfl) s _ _ mask 8 (by decide)

theorem rd64_clsEvent_mouldErr (s : State) (mask : Nat) :
    (clsEvent s mask).rd64 A.CLS_MOULD_ERR_LO = s.rd64 A.CLS_MOULD_ERR_LO := by
  rw [State.rd64, clsEvent, rd_event s _ _ mask 8 (by decide) (by decide) (by decide),
    rd_event s _ _ mask 8 (by decide) (by decide) (by decide), State.rd64]

theorem bit_clsEvent (s : State) {mask i : Nat} (hm : mask < 2 ^ 24) (hi : mask.testBit i = true) :
    (clsEvent s mask).bit A.CLS_EVT i = true := by
  rw [clsEvent, (quiet_event s _ _ 769 mask 8 (by decide)).bit i (by decide), bit_record_self s _ hm hi]

/-- What the note of an uncorrectable error leaves: the error, its count, and MOULD_UE. -/
theorem scrubEntry_notes (s : State) (slice x e : Nat) :
    let t := scrubEntry s slice x e .uncorrectable
    entryBad t slice x e = true ∧
      t.rd64 A.CLS_MOULD_ERR_LO = (s.rd64 A.CLS_MOULD_ERR_LO + 1) % 2 ^ 64 ∧ t.bit A.CLS_EVT 3 = true := by
  rw [scrubEntry_uncorrectable]
  refine ⟨?_, ?_, bit_clsEvent _ (by decide) (by decide)⟩
  · rw [entryBad, clsEvent_cls, add64_cls]
    exact decide_eq_true (List.mem_cons_self ..)
  · rw [rd64_clsEvent_mouldErr, rd64_add64]
    rfl

/-- A bad entry is rewritten where one of the other three copies is healthy. -/
theorem rewriteEntry_bad {s : State} {slice x e : Nat} (h : entryBad s slice x e = true) :
    ((∃ i, 1 ≤ i ∧ i ≤ 3 ∧ entryBad s ((slice + i) % 4) x e = false) → rewriteEntry s slice x e =
      putCls s { s.cls with bad := s.cls.bad.filter (· ≠ badKey slice x e) }) ∧
    ((∀ i, 1 ≤ i → i ≤ 3 → entryBad s ((slice + i) % 4) x e = true) → rewriteEntry s slice x e =
      settleWaiting (slotBad s x 7 e)) := by
  have hmem (i : Nat) : i ∈ ([1, 2, 3] : List Nat) ↔ 1 ≤ i ∧ i ≤ 3 := by
    simp only [List.mem_cons, List.not_mem_nil, or_false]
    omega
  rw [rewriteEntry, h, if_neg (by decide)]
  refine ⟨fun ⟨i, h1, h3, hgood⟩ => if_pos ?_, fun hbad => if_neg ?_⟩
  · exact List.any_eq_true.2 ⟨i, (hmem i).2 ⟨h1, h3⟩, by rw [hgood]; rfl⟩
  · rw [List.any_eq_true]
    rintro ⟨i, hi, hgood⟩
    rw [hbad i ((hmem i).1 hi).1 ((hmem i).1 hi).2] at hgood
    cases hgood

/-! Writes of entries. -/

theorem writeEffect_mould (s : State) (r : Req) {o : Nat} (v : Nat) (h : o < 0x800000) :
    writeEffect s r (0x2000000 + o) v =
      refuseIf (!mouldWriteOk s (0x2000000 + o)) (.does (mouldWrite s (0x2000000 + o) v)) := by
  rw [writeEffect]
  repeat rw [if_neg (by omega)]
  exact if_pos (show 0x2000000 + o < 0x2800000 by omega)

/-- The slot of a word of the Mould. -/
theorem mouldSlot_at (o : Nat) : (0x2000000 + o - mouldBase 0) / 0x400000 = o / 0x400000 := by
  simp only [mouldBase, A.TBL_MOULD]
  omega

theorem mouldWriteOk_at (s : State) (o : Nat) :
    mouldWriteOk s (0x2000000 + o) = decide (slotState s (o / 0x400000) = 1) := by rw [mouldWriteOk, mouldSlot_at]

theorem mouldWrite_at (s : State) (o v : Nat) :
    mouldWrite s (0x2000000 + o) v =
      if o / 0x400000 ∈ s.cls.clearing then
        putCls s { s.cls with waiting := s.cls.waiting ++ [(0x2000000 + o, v)] }
      else s.wr (0x2000000 + o) v := by simp only [mouldWrite, mouldSlot_at]

/-- A write of a word of the Mould is taken or held back in a LOADING slot, and rejected in any other. -/
theorem ends_mouldEntryWrite {s : State} {r : Req} {o : Fin 8388608} {v : Word}
    (h : s.listens r (0x2000000 + o.val) = true) (h4 : o.val % 4 = 0) :
    let u := heard s r 1
    (mouldWriteOk u (0x2000000 + o.val) = true →
      Ends (.mouldEntryWrite r o v) s (mouldWrite u (0x2000000 + o.val) v.toNat)) ∧
    (mouldWriteOk u (0x2000000 + o.val) = false →
      Ends (.mouldEntryWrite r o v) s (rejected u r (0x2000000 + o.val))) := by
  intro u
  have hends : Ends (.mouldEntryWrite r o v) s (writePlain u r (0x2000000 + o.val) (0x2000000 + o.val) v.toNat false) :=
    ends_write32 rfl h (by omega) (rowOf_mould o.isLt h4)
  obtain ⟨htakes, hrefuses⟩ := ends_refuseIf hends (writeEffect_mould u r v.toNat o.isLt)
  exact ⟨fun hok => htakes (by rw [hok]; rfl), fun hbad => hrefuses (by rw [hbad]; rfl)⟩

end Sys2Proof.Machine

namespace Sys2Proof.Proofs
open Sys2Proof.Machine

/-- Settles O33: each command is a step of its island, and a write of a Mould word is decided by the state of its slot. -/
theorem classifyAndMouldCommands : Obligations.ClassifyAndMouldCommands := by
  refine ⟨?classify, ?recirc, ?refill, ?scrub, ?rewrite, ?write⟩
  case classify =>
    intro s p b st t hdie _
    exact ends_onDie (f := fun s => classifyFrame s p.val b st t) rfl hdie rfl
  case recirc =>
    intro s slice k f hrun hk hf v next
    have hend {ecc : Option EccFault} {t : State} :
        (if pathBusy s slice then s else withEcc v ecc k false (nextPass k f)) = t →
          Ends (.recircReentry slice ecc) s t :=
      fun ht => ends_onIsland (f := fun s => reenterFrame s slice.val ecc) rfl hrun
        ((reenterFrame_head ecc hrun hk hf).trans ht)
    have hnext : next = nextPass k f := rfl
    rw [hnext]
    exact ⟨fun hfree => ⟨hend (by rw [hfree, withEcc_none]; rfl), hend (by rw [hfree, withEcc_single]; rfl),
      hend (by rw [hfree, withEcc_uncorrectable]; rfl)⟩, fun hbusy ecc => hend (if_pos hbusy)⟩
  case refill =>
    intro s hrun
    have hend : Ends .puntBucketRefill s (puntRefill s) := ends_onIsland (f := puntRefill) rfl hrun rfl
    refine hend.endsWith_of (puntRefill_fills s) ?_
    rintro u p n ⟨htokens, hrest⟩
    exact ⟨fun b hb => (puntTokens_congr rfl rfl).trans (htokens b hb), hrest⟩
  case scrub =>
    intro s slice x e hrun
    have hend (f : EccFault) : Ends (.mouldScrub slice x e f) s (scrubEntry s slice.val x.val e.val f) :=
      ends_onIsland (f := fun s => scrubEntry s slice.val x.val e.val f) rfl hrun rfl
    exact ⟨hend .single, (hend .uncorrectable).endsWith_of (scrubEntry_notes s _ _ _) fun _ _ _ ht => ht⟩
  case rewrite =>
    intro s slice x e hrun hbad
    have hend {t : State} : rewriteEntry s slice.val x.val e.val = t → Ends (.mouldEntryRewrite slice x e) s (settle t) :=
      ends_onIsland_settle (f := fun s => rewriteEntry s slice.val x.val e.val) rfl hrun
    obtain ⟨hhealthy, hlost⟩ := rewriteEntry_bad hbad
    exact ⟨fun h => hend (hhealthy h), fun h => hend (hlost h)⟩
  case write =>
    intro s r o v h h4 _ u x
    obtain ⟨htakes, hrefuses⟩ := ends_mouldEntryWrite (v := v) h h4
    rw [mouldWriteOk_at, mouldWrite_at] at htakes
    rw [mouldWriteOk_at] at hrefuses
    refine ⟨fun hload hclear => ?_, fun hload hclear => ?_, fun hload => hrefuses (decide_eq_false hload)⟩
    · have ht := htakes (decide_eq_true hload)
      rwa [if_neg hclear] at ht
    · have ht := htakes (decide_eq_true hload)
      rwa [if_pos hclear] at ht

end Sys2Proof.Proofs
end

section
/-! Heats (R237 to R242): the operations of HEAT.CTRL, the seal, and a commit from its examination to its end. -/

namespace Sys2Proof.Machine

/-! The operations of HEAT.CTRL (R237, R239). -/

theorem guardedEffect_heatCtrl (s : State) (r : Req) (v : Nat) :
    guardedEffect s r A.HEAT_CTRL v = settle (guardedHeat s r A.HEAT_CTRL v) := by
  rw [guardedEffect]
  iterate 11 rw [if_neg (by decide)]
  rw [if_pos rfl]

/-- A command that is a guarded pair of HEAT.CTRL ends in what its operation does. -/
theorem ends_heatCtrl {c : Instr} {s t : State} {r : Req} {v : Nat}
    (hc : exec c s = done s (guardedWrite s r A.HEAT_CTRL v)) (h : s.listens r A.HEAT_CTRL = true)
    (ht : guardedHeat (heard s r 2) r A.HEAT_CTRL v = t) : Ends c s (settle t) :=
  ends_guardedWrite hc h ((guardedEffect_heatCtrl _ r v).trans (congrArg settle ht))

/-- A word of HEAT.CTRL holds the heat above its operation. -/
theorem heatWord (h : BitVec 16) {op : Nat} (ho : op < 32) :
    bits (h.toNat * 2 ^ 16 + op) 31 16 = h.toNat ∧ (h.toNat * 2 ^ 16 + op) % 32 = op := by
  have hlt : h.toNat < 2 ^ 16 := h.isLt
  rw [bits]
  omega

section Operations
variable (s : State) (r : Req) (a : Nat)

theorem guardedHeat_load (h : BitVec 16) :
    guardedHeat s r a (h.toNat * 2 ^ 16 + 1) =
      if loadOk s then heatLoad (s.wr a (h.toNat * 2 ^ 16)) h.toNat else rejected s r a := by
  obtain ⟨hheat, hop⟩ := heatWord h (op := 1) (by decide)
  simp only [guardedHeat, hheat, hop]

theorem guardedHeat_commit (h : BitVec 16) :
    guardedHeat s r a (h.toNat * 2 ^ 16 + 4) =
      requestCommit (s.wr a (h.toNat * 2 ^ 16)) h.toNat (commitTime s) none := by
  obtain ⟨hheat, hop⟩ := heatWord h (op := 4) (by decide)
  simp only [guardedHeat, hheat, hop]

theorem guardedHeat_seal :
    guardedHeat s r a 2 = if sealOk s then heatSeal (s.wr a (0 * 2 ^ 16)) else rejected s r a := rfl

theorem guardedHeat_discard :
    guardedHeat s r a 8 = if discardOk s then heatDiscard (s.wr a (0 * 2 ^ 16)) else rejected s r a := rfl

theorem guardedHeat_cancel :
    guardedHeat s r a 16 = if cancelOk s then heatCancel (s.wr a (0 * 2 ^ 16)) else rejected s r a := rfl

end Operations

theorem heatCancel_held {s : State} {c : HeatRec} (h : s.cls.commit = some c) : heatCancel s = finishCommit s c 8 := by
  simp only [heatCancel, h]

theorem discardOk_iff (s : State) :
    discardOk s = true ↔
      (1 ≤ slotState s (loadingSlot s) ∧ slotState s (loadingSlot s) ≤ 4) ∧ s.cls.commit = none := by
  rw [discardOk, Bool.and_eq_true, decide_eq_true_eq, Option.isNone_iff_eq_none]

/-! The seal (R238). -/

section Seal
variable {s : State} (hst : slotState s (loadingSlot s) = 2) (hcl : loadingSlot s ∉ s.cls.clearing)
include hst hcl

/-- The first entry that is refused spoils the slot. -/
theorem heatSealed_refused {e : Nat}
    (he : ((validEntries s (loadingSlot s)).find? fun e => decide (refusal s (loadingSlot s) e ≠ 0)) = some e) :
    heatSealed s = settleWaiting (slotBad s (loadingSlot s) (refusal s (loadingSlot s) e) e) := by
  rw [heatSealed, if_neg (not_or.2 ⟨not_not.2 hst, hcl⟩)]
  simp only [he]

theorem heatSealed_accepted (he : ∀ e ∈ validEntries s (loadingSlot s), refusal s (loadingSlot s) e = 0) :
    heatSealed s =
      settleWaiting (heatEvent (setSlotState
        ((s.wr (A.HEAT_SLOT_CRC (loadingSlot s)) (crc32c (slotBytes s (loadingSlot s)))).wr
          (A.HEAT_SLOT_SEAL (loadingSlot s)) 0) (loadingSlot s) 3) 1) := by
  have hnone : ((validEntries s (loadingSlot s)).find? fun e => decide (refusal s (loadingSlot s) e ≠ 0)) = none :=
    List.find?_eq_none.2 fun e hin => by rw [he e hin]; decide
  rw [heatSealed, if_neg (not_or.2 ⟨not_not.2 hst, hcl⟩)]
  simp only [hnone]

end Seal

/-! A commit (R239, R240, R242). -/

/-- The heat is the one that is active. -/
def heatActive (s : State) (heat : Nat) : Bool := (activeSlot s).any fun y => decide (slotHeat s y = heat)

theorem heatActive_iff (s : State) (heat : Nat) :
    heatActive s heat = true ↔ ∃ y, activeSlot s = some y ∧ slotHeat s y = heat := by
  rw [heatActive, Option.any_eq_true]
  exact exists_congr fun y => and_congr_right fun _ => decide_eq_true_iff

section Commit
variable {s : State} {c : HeatRec} (hc : s.cls.commit = some c)
include hc

/-- A record that is neither waiting nor examined is examined from T − 1 µs on. -/
theorem examineCommit_ready (hw : c.waiting = false) (hv : c.verdict = none) (ht : c.t ≤ tb0 s + us * nsUnits) :
    examineCommit s =
      if heatActive s c.heat then setCommit s (some { c with verdict := some 3 })
      else if slotState s (loadingSlot s) = 3 then
        setCommit s (some { c with verdict := some (if slotHeat s (loadingSlot s) = c.heat then 1 else 4) })
      else if slotState s (loadingSlot s) = 4 then setCommit s (some { c with verdict := some 5 })
      else setCommit s (some { c with waiting := true }) := by
  have hready : (c.waiting || c.verdict.isSome || decide (tb0 s + us * nsUnits < c.t)) = false := by
    rw [hw, hv, decide_eq_false (Nat.not_lt.2 ht)]
    rfl
  cases ha : activeSlot s with
  | none => simp only [examineCommit, hc, hready, heatActive, ha, Option.any_none, Bool.false_eq_true, if_false]
  | some y => simp only [examineCommit, hc, hready, heatActive, ha, Option.any_some, Bool.false_eq_true, if_false]

/-- A record that has its result takes it up once T has come. -/
theorem executeCommit_due {v : Nat} (l : List Nat) (hv : c.verdict = some v) (ht : c.t ≤ tb0 s) :
    executeCommit s l =
      if inSleep s && c.timed.isSome then finishCommit s c 9
      else if v = 1 ∨ v = 2 then
        (if slotState s (loadingSlot s) = 3 then finishCommit (activate s c l) c v else finishCommit s c 5)
      else finishCommit s c v := by
  simp only [executeCommit, hc, hv, if_neg (Nat.not_lt.2 ht)]

/-- The record's action, where it has one that is scheduled, has its turn. -/
def commitTurn (s : State) (c : HeatRec) : Prop :=
  ∀ a, c.timed.bind (actOf s) = some a → isScheduled a = true → actTurn s a = true

/-- The action of the commit is that of its record. -/
theorem commitAction_held : (s.cls.commit.bind fun r => r.timed.bind (actOf s)) = c.timed.bind (actOf s) := by
  rw [hc, Option.bind_some]

theorem commitAtT_turn (l : List Nat) (ht : commitTurn s c) : commitAtT s l = executeCommit s l := by
  rw [commitAtT, commitAction_held hc]
  cases ha : c.timed.bind (actOf s) with
  | none => rfl
  | some a =>
    refine if_neg ?_
    rw [Bool.and_eq_true, Bool.not_eq_true']
    rintro ⟨hs, hn⟩
    rw [ht a ha hs] at hn
    cases hn

theorem commitAtT_noTurn (l : List Nat) (ht : ¬commitTurn s c) : commitAtT s l = s := by
  rw [commitTurn] at ht
  push Not at ht
  obtain ⟨a, ha, hs, hn⟩ := ht
  rw [commitAtT, commitAction_held hc, ha]
  exact if_pos (by rw [hs, Bool.eq_false_iff.2 hn]; rfl)

theorem commitTimeout_over (hw : c.waiting = true) (hv : c.verdict = none)
    (ht : c.t + Nat.max 1 (s.fld A.HEAT_CFG 15 0) * ms * nsUnits ≤ tb0 s) : commitTimeout s = finishCommit s c 6 := by
  simp only [commitTimeout, hc]
  exact if_pos (by rw [hw, hv, decide_eq_true ht]; rfl)

end Commit

theorem heatDrained_empty {s : State} {x : Nat} (hst : slotState s x = 6) (hr : slotRefs s x = 0) :
    heatDrained s x = settleWaiting (heatEvent (setSlotState s x 0) 32) := if_pos ⟨hst, hr⟩

end Sys2Proof.Machine

namespace Sys2Proof.Proofs
open Sys2Proof.Machine

/-- The first part of HeatCommands: each guarded operation is accepted in the slot states that take it (R237, R239). -/
theorem heatOperations (s : State) (r : Req) (h : s.listens r A.HEAT_CTRL = true) :
    let u := heard s r 2
    let x := loadingSlot u
    let kept := fun h => u.wr A.HEAT_CTRL (h * 2 ^ 16)
    (∀ h : BitVec 16,
      (slotState u x = 0 → Ends (.load r h) s (settle (heatLoad (kept h.toNat) h.toNat))) ∧
      (slotState u x ≠ 0 → Ends (.load r h) s (settle (rejected u r A.HEAT_CTRL))) ∧
      Ends (.commit r h) s (settle (requestCommit (kept h.toNat) h.toNat (commitTime u) none))) ∧
    (slotState u x = 1 → Ends (.seal r) s (settle (heatSeal (kept 0)))) ∧
    (slotState u x ≠ 1 → Ends (.seal r) s (settle (rejected u r A.HEAT_CTRL))) ∧
    (1 ≤ slotState u x → slotState u x ≤ 4 → u.cls.commit = none →
      Ends (.discard r) s (settle (heatDiscard (kept 0)))) ∧
    (slotState u x = 0 ∨ 4 < slotState u x ∨ u.cls.commit.isSome = true →
      Ends (.discard r) s (settle (rejected u r A.HEAT_CTRL))) ∧
    (∀ c, u.cls.commit = some c → Ends (.cancel r) s (settle (finishCommit (kept 0) c 8))) ∧
    (u.cls.commit = none → Ends (.cancel r) s (settle (rejected u r A.HEAT_CTRL))) := by
  intro u x kept
  have hload (w : BitVec 16) {t : State} (ht : (if loadOk u then _ else _) = t) : Ends (.load r w) s (settle t) :=
    ends_heatCtrl rfl h ((guardedHeat_load u r _ w).trans ht)
  have hseal {t : State} (ht : (if sealOk u then _ else _) = t) : Ends (.seal r) s (settle t) :=
    ends_heatCtrl rfl h ((guardedHeat_seal u r _).trans ht)
  have hdiscard {t : State} (ht : (if discardOk u then _ else _) = t) : Ends (.discard r) s (settle t) :=
    ends_heatCtrl rfl h ((guardedHeat_discard u r _).trans ht)
  have hcancel {t : State} (ht : (if cancelOk u then _ else _) = t) : Ends (.cancel r) s (settle t) :=
    ends_heatCtrl rfl h ((guardedHeat_cancel u r _).trans ht)
  refine ⟨fun w => ⟨fun h0 => hload w (if_pos (decide_eq_true h0)),
      fun h0 => hload w (if_neg (decide_eq_true_iff.not.2 h0)), ends_heatCtrl rfl h (guardedHeat_commit u r _ w)⟩,
    fun h1 => hseal (if_pos (decide_eq_true h1)), fun h1 => hseal (if_neg (decide_eq_true_iff.not.2 h1)),
    fun hlo hhi hn => hdiscard (if_pos ((discardOk_iff u).2 ⟨⟨hlo, hhi⟩, hn⟩)),
    fun hbad => hdiscard (if_neg fun hok => ?_), fun c hc => hcancel ?_, fun hn => hcancel (if_neg ?_)⟩
  · obtain ⟨⟨hlo, hhi⟩, hn⟩ := (discardOk_iff u).1 hok
    rcases hbad with h0 | h4 | hsome
    · exact absurd h0 (Nat.ne_of_gt hlo)
    · exact absurd hhi (Nat.not_le.2 h4)
    · rw [hn] at hsome
      cases hsome
  · rw [if_pos (by rw [cancelOk, hc]; rfl)]
    exact heatCancel_held hc
  · rw [cancelOk, hn]
    decide

/-- Settles O36: the operations are decided by HEAT.CTRL, and the events are steps of the central island, each judged by
the record of the commit and by the state of the slot. -/
theorem heatCommands : Obligations.HeatCommands := by
  refine ⟨heatOperations, ?clear, ?sealed, ?examine, ?execute, ?wait, ?drain, ?force⟩
  case clear =>
    intro s hrun
    exact ends_onIsland (f := heatCleared) rfl hrun rfl
  case sealed =>
    intro s hrun hst hcl x
    have hend {t : State} : heatSealed s = t → Ends .heatSealDone s (settle t) :=
      ends_onIsland_settle (f := heatSealed) rfl hrun
    exact ⟨fun e he => hend (heatSealed_refused hst hcl he), fun he => hend (heatSealed_accepted hst hcl he)⟩
  case examine =>
    intro s c hrun hc hw hv ht x st same
    have hend {t : State} (h : (if heatActive s c.heat then _ else _) = t) : Ends .heatCommitExamine s (settle t) :=
      ends_onIsland_settle (f := examineCommit) rfl hrun ((examineCommit_ready hc hw hv ht).trans h)
    have hother (h : ¬same) : ¬heatActive s c.heat = true := (heatActive_iff s c.heat).not.2 h
    refine ⟨fun h => hend (if_pos ((heatActive_iff s c.heat).2 h)), fun h h3 => hend ?_, fun h h4 => hend ?_,
      fun h h3 h4 => hend ?_⟩
    · rw [if_neg (hother h), if_pos h3]
    · rw [if_neg (hother h), if_neg fun h3 => absurd (h4.symm.trans h3) (by decide), if_pos h4]
    · rw [if_neg (hother h), if_neg h3, if_neg h4]
  case execute =>
    intro s c v l hrun hc hv ht go turn
    have hend {t : State} : commitAtT s (l.map Fin.val) = t → Ends go s (settle t) :=
      ends_onIsland_settle (f := fun s => commitAtT s (l.map Fin.val)) rfl hrun
    have hdue (hturn : turn) := (commitAtT_turn hc (l.map Fin.val) hturn).trans (executeCommit_due hc _ hv ht)
    have hawake (h : inSleep s = true → c.timed = none) : ¬(inSleep s && c.timed.isSome) = true := by
      rw [Bool.and_eq_true]
      rintro ⟨hs, htimed⟩
      rw [h hs] at htimed
      cases htimed
    refine ⟨fun hturn => hend (commitAtT_noTurn hc _ hturn),
      fun hturn hs htimed => hend ((hdue hturn).trans (if_pos (by rw [hs, htimed]; rfl))),
      fun hturn h => ⟨fun h12 h3 => hend ?_, fun h12 h3 => hend ?_, fun h1 h2 => hend ?_⟩⟩
    · rw [hdue hturn, if_neg (hawake h), if_pos h12, if_pos h3]
    · rw [hdue hturn, if_neg (hawake h), if_pos h12, if_neg h3]
    · rw [hdue hturn, if_neg (hawake h), if_neg (not_or.2 ⟨h1, h2⟩)]
  case wait =>
    intro s c hrun hc hw hv ht
    exact ends_onIsland_settle (f := commitTimeout) rfl hrun (commitTimeout_over hc hw hv ht)
  case drain =>
    intro s x hrun hst hr
    exact ends_onIsland_settle (f := fun s => heatDrained s x.val) rfl hrun (heatDrained_empty hst hr)
  case force =>
    intro s x hrun _ _ _
    exact ends_onIsland_settle (f := fun s => heatForced s x.val) rfl hrun rfl

end Sys2Proof.Proofs
end

section
/-! Shapers (R267): what a fill leaves in a bucket, and what a refill leaves in the shapers of every port. -/

namespace Sys2Proof.Machine

/-! One bucket. -/

section Bucket
variable {w : Nat}

/-- A shaper without a rate is always passed, whatever its bucket holds. -/
theorem shaperOk_noRate (h : bits w 19 0 = 0) (tokens : Int) : shaperOk w tokens = true := by
  rw [shaperOk, decide_eq_true h, Bool.true_or]

variable (h : bits w 19 0 ≠ 0)
include h

/-- A shaper with a rate fills at its rate, up to its depth. -/
theorem shaperFill_rate (tokens : Int) (ns : Nat) :
    shaperFill w tokens ns = min (shaperDepth w) (tokens + ((bits w 19 0 * ns : Nat) : Int)) := if_neg h

theorem shaperFill_le_depth (tokens : Int) (ns : Nat) : shaperFill w tokens ns ≤ shaperDepth w := by
  rw [shaperFill_rate h]
  exact min_le_left _ _

theorem le_shaperFill {tokens : Int} (ht : tokens ≤ shaperDepth w) (ns : Nat) : tokens ≤ shaperFill w tokens ns := by
  rw [shaperFill_rate h]
  exact le_min ht (Int.le_add_of_nonneg_right (Int.natCast_nonneg _))

/-- What the first fill spills over the depth, the second would have spilled. -/
theorem shaperFill_shaperFill (tokens : Int) (ns ns' : Nat) :
    shaperFill w (shaperFill w tokens ns) ns' = shaperFill w tokens (ns + ns') := by
  have hsum : ((bits w 19 0 * (ns + ns') : Nat) : Int) =
      ((bits w 19 0 * ns : Nat) : Int) + ((bits w 19 0 * ns' : Nat) : Int) := by
    rw [Nat.mul_add, Int.natCast_add]
  rw [shaperFill_rate h, shaperFill_rate h, shaperFill_rate h, hsum]
  omega

end Bucket

/-! The shapers of a port. -/

theorem eg_putEg (s : State) (p q : Nat) (h : EgressHidden) : (putEg s p h).eg q = if q = p then h else s.eg q :=
  map_get_put _ _ _ _ _

/-- Entries put for the first `n` keys: each has its own value, and the other keys keep theirs. -/
theorem map_get_putRange {α : Type} [DecidableEq α] (d : α) (f : Nat → α) (m : List (Nat × α)) (n b : Nat) :
    Map.get d ((List.range n).foldl (fun m c => Map.put d m c (f c)) m) b = if b < n then f b else Map.get d m b := by
  induction n with
  | zero => rfl
  | succ n ih =>
    rw [List.range_succ, List.foldl_concat, map_get_put, ih]
    by_cases hb : b = n
    · rw [if_pos hb, if_pos (by omega), hb]
    · rw [if_neg hb]
      exact if_congr (by omega) rfl rfl

/-- What the egress path of port `p` holds once its shapers are filled for the time that the island has run. -/
def egRefilled (s : State) (p : Nat) : EgressHidden :=
  { s.eg p with
    tokens := portTokens s p, filled := s.buf.ran,
    ctokens := (List.range 8).foldl (fun m c => Map.put 0 m c (classTokens s p c)) (s.eg p).ctokens }

theorem refillPort_eq (s : State) (p : Nat) : refillPort s p = putEg s p (egRefilled s p) := rfl

theorem egRefilled_ctokens (s : State) (p : Nat) {c : Nat} (h : c < 8) :
    Map.get 0 (egRefilled s p).ctokens c = classTokens s p c := by
  rw [egRefilled, map_get_putRange, if_pos h]

/-- A refill looks at the registers, at the time that the island has run, and at the port itself. -/
theorem egRefilled_congr {s t : State} {p : Nat} (hr : t.regs = s.regs) (hn : t.buf.ran = s.buf.ran)
    (he : t.eg p = s.eg p) : egRefilled t p = egRefilled s p := by
  simp only [egRefilled, portTokens, classTokens, State.rd, hr, hn, he]

/-- The shapers of the first `n` ports fill. -/
def refillPorts (s : State) (n : Nat) : State := (List.range n).foldl refillPort s

theorem refillPorts_succ (s : State) (n : Nat) :
    refillPorts s (n + 1) = putEg (refillPorts s n) n (egRefilled (refillPorts s n) n) := by
  rw [refillPorts, List.range_succ, List.foldl_concat, ← refillPorts, refillPort_eq]

/-- A part of the state that no write to an egress path changes stays in a refill. -/
theorem refillPorts_keeps {α : Type} {f : State → α} (hf : ∀ s p h, f (putEg s p h) = f s) (s : State) (n : Nat) :
    f (refillPorts s n) = f s := foldl_keeps (fun s p => hf s p (egRefilled s p)) _ s

/-- Each port is filled once, and the filling of another port does not touch it. -/
theorem eg_refillPorts (s : State) (n p : Nat) :
    (refillPorts s n).eg p = if p < n then egRefilled s p else s.eg p := by
  induction n generalizing p with
  | zero => rfl
  | succ n ih =>
    rw [refillPorts_succ, eg_putEg]
    by_cases hp : p = n
    · subst hp
      have hkept : (refillPorts s p).eg p = s.eg p := (ih p).trans (if_neg (Nat.lt_irrefl p))
      rw [if_pos rfl, if_pos (Nat.lt_succ_self p)]
      exact egRefilled_congr (refillPorts_keeps (f := State.regs) (fun _ _ _ => rfl) s p)
        (refillPorts_keeps (f := fun s => s.buf.ran) (fun _ _ _ => rfl) s p) hkept
    · rw [if_neg hp, ih p]
      exact if_congr (by omega) rfl rfl

/-- What a refill of all ports leaves: each bucket filled for the time since its last fill, and no register or bank
changed. -/
theorem refillPorts_fills (s : State) :
    let t := refillPorts s 64
    (∀ p, p < 64 → let ns := s.buf.ran - (s.eg p).filled
      (t.eg p).tokens = shaperFill (s.rd (A.QM_P_SHAPE p)) (s.eg p).tokens ns ∧
      (t.eg p).filled = s.buf.ran ∧ (t.eg p).busy = (s.eg p).busy ∧
      ∀ c, c < 8 → Map.get 0 (t.eg p).ctokens c = shaperFill (s.rd (A.QM_P_CSHAPE p c)) (Map.get 0 (s.eg p).ctokens c) ns) ∧
    RegsKept s t (fun _ => false) ∧ BanksKept s t := by
  refine ⟨fun p hp => ?_, fun a _ => ?_, banksKept_of_eq ?_ ?_⟩
  · rw [eg_refillPorts, if_pos hp]
    exact ⟨rfl, rfl, rfl, fun c hc => egRefilled_ctokens s p hc⟩
  · exact refillPorts_keeps (f := fun s => s.rd a) (fun _ _ _ => rfl) s 64
  · exact refillPorts_keeps (f := State.mem) (fun _ _ _ => rfl) s 64
  · exact refillPorts_keeps (f := State.banks) (fun _ _ _ => rfl) s 64

end Sys2Proof.Machine

namespace Sys2Proof.Proofs
open Sys2Proof.Machine

/-- Settles O39: with a rate, a fill adds what is never negative and stops at the depth; without one, the rate alone
passes the shaper. -/
theorem shaperBounds : Obligations.ShaperBounds := by
  intro w tokens ns ns'
  exact ⟨fun hrate ht =>
      ⟨le_shaperFill hrate ht ns, shaperFill_le_depth hrate tokens ns, shaperFill_shaperFill hrate tokens ns ns'⟩,
    fun hnone => shaperOk_noRate hnone _⟩

end Sys2Proof.Proofs
end

section
/-! The strict classes of a port (R266). -/

namespace Sys2Proof.Machine

/-- The classes in the order in which they are asked: those above `c`, highest first, come before it. -/
theorem strictOrder_split {c : Nat} (h : c < 8) :
    ([7, 6, 5, 4, 3, 2, 1, 0] : List Nat) = (List.range' (c + 1) (7 - c)).reverse ++ c :: (List.range c).reverse := by
  revert c
  decide

/-- A strict class with an eligible queue is the one that is served, where no higher one has such a queue. -/
theorem strictClass_eq {s : State} {p c : Nat} (hc : c < 8) (hsp : s.bit (A.QM_P_SCHED p) c = true)
    (hq : (chooseQueue s p c).isSome = true)
    (habove : ∀ d, c < d → d < 8 → s.bit (A.QM_P_SCHED p) d = true → chooseQueue s p d = none) :
    strictClass s p = some c := by
  rw [strictClass, List.find?_eq_some_iff_append]
  refine ⟨by rw [hsp, hq]; rfl, _, _, strictOrder_split hc, fun d hd => ?_⟩
  rw [List.mem_reverse, List.mem_range'_1] at hd
  cases hbit : s.bit (A.QM_P_SCHED p) d with
  | false => rfl
  | true =>
    rw [habove d (by omega) (by omega) hbit]
    rfl

theorem selectQueue_strict {s : State} {p c : Nat} (h : strictClass s p = some c) :
    selectQueue s p = chooseQueue s p c := by
  simp only [selectQueue, h]

end Sys2Proof.Machine

namespace Sys2Proof.Proofs
open Sys2Proof.Machine

/-- Settles O40: the search through the strict classes, class 7 first, passes over those above `c` and stops at `c`. -/
theorem strictClassFirst : Obligations.StrictClassFirst := by
  intro s p c hc hsp hq habove
  exact selectQueue_strict (strictClass_eq hc hsp hq habove)

end Sys2Proof.Proofs
end

section
/-! Admission (R250, R252, R275, R276, R294): where the next frame is taken, by its destination. -/

namespace Sys2Proof.Machine

/-- The ports of a group's slots do not lie in its state. -/
theorem slotPort_setStat (s : State) (g hi lo v m : Nat) :
    slotPort (s.setFld (A.SPR_GRP_STAT g) hi lo v) g m = slotPort s g m := by
  rw [slotPort, slotPort, State.fld, State.fld, rd_setFld_ne]
  rw [A.SPR_GRP_STAT, A.SPR_GRP_MEM]
  omega

section Admission
variable {s : State} {k : Pkt} {f : Frame} (hk : nextAdmit s = some k) (hf : frameOf s k.fid = some f)

section
include hk hf

theorem admitNext_port {e : Nat} (hd : k.dest = .port e) : admitNext s = admitAt s { k with e := e } f := by
  simp only [admitNext, hk, hf, hd]

theorem admitNext_lag {g : Nat} (hd : k.dest = .lag g) : admitNext s = admitLag s k f g := by
  simp only [admitNext, hk, hf, hd]

end

variable (s k f) {g : Nat}

theorem admitLag_off (hen : grpEn s g = false) : admitLag s k f g = noMember s k f := by
  rw [admitLag, hen]
  rfl

theorem admitLag_pinned (hen : grpEn s g = true) (hsp : grpSpread s g = false) :
    admitLag s k f g = admitPinned s k f g := by
  rw [admitLag, hen, hsp]
  rfl

theorem admitLag_spread (hen : grpEn s g = true) (hsp : grpSpread s g = true) {m : Nat}
    (hm : firstEligible s g (s.fld (A.SPR_GRP_STAT g) 19 16) = some m) :
    admitLag s k f g =
      admitAt (s.setFld (A.SPR_GRP_STAT g) 19 16 (m + 1)) { k with e := slotPort s g m, via := some (g, m, none) } f := by
  rw [admitLag, hen, hsp, if_neg (by decide), if_pos rfl]
  simp only [hm, slotPort_setStat]

theorem admitLag_noneEligible (hen : grpEn s g = true) (hsp : grpSpread s g = true)
    (hm : firstEligible s g (s.fld (A.SPR_GRP_STAT g) 19 16) = none) : admitLag s k f g = noMember s k f := by
  rw [admitLag, hen, hsp, if_neg (by decide), if_pos rfl]
  simp only [hm]

end Admission

/-- Where an injected frame goes, as a destination of a copy. -/
def outerDest : InjectDest → Dest
  | .port e => .port e.val
  | .lag g => .lag g.val
  | .ladle i => .ladle i.val

/-- A frame of an admitted length joins those that wait. -/
theorem injectOuter_fits (s : State) {x : Injected} (hlo : 60 ≤ x.body.length) (hhi : x.body.length ≤ 16379) :
    injectOuter s x = injectFrame s (toNats x.body) (outerDest x.dest) x.tc.val x.ll (tb0 s)
      (s.now + (8 * (x.body.length + 4) + 99) / 100) 4 := if_neg (by omega)

end Sys2Proof.Machine
end

section
/-! Service and departure (R248, R250, R266, R270). -/

namespace Sys2Proof.Machine

theorem ends_onEgress {c : Instr} {s t : State} {p : Nat} {f : State → State} (hc : exec c s = onEgress s p f)
    (h : s.egressRuns p = true) (ht : f s = t) : Ends c s t := ends_of_exec (by rw [hc, onEgress_on h, ht])

/-- At a frame boundary of an idle port that is up, the head of the queue that has its turn leaves. -/
theorem egressSelect_serves {s : State} {p q n : Nat} {h : EgressHidden} {k : Pkt} {f : Frame}
    (hup : portUp (serveControl s p) p = true) (hidle : ((serveControl s p).eg p).busy = none)
    (hq : selectQueue (serveControl s p) p = some (q, h)) (hh : eligibleHead (serveControl s p) p q = some (k, n))
    (hf : frameOf (serveControl s p) k.fid = some f) :
    egressSelect s p =
      startTx (deduct (putEg (serveControl s p) p h) p (q % 8) n) k f (tb0 (serveControl s p)) 0 := by
  have hfree : ¬(!portUp (serveControl s p) p || ((serveControl s p).eg p).busy.isSome) = true := by
    rw [hup, hidle]
    decide
  simp only [egressSelect, if_neg hfree, hq, hh, hf]

theorem egressEcc_head {s : State} {p q n : Nat} {h : EgressHidden} {k : Pkt} (hq : selectQueue s p = some (q, h))
    (hh : eligibleHead s p q = some (k, n)) (e : EccFault) :
    egressEcc s p e = withEcc s (some e) k false fun s => egressSelect s p := by
  simp only [egressEcc, hq, Option.bind_some, hh]

theorem egressStomp_transmitting {s : State} {p : Nat} {k : Pkt} {f : Frame} (hk : transmitting s p = some k)
    (hf : frameOf s k.fid = some f) : egressStomp s p = stompAs (eccLost s) k f f := by
  simp only [egressStomp, hk, hf]

section Departure
variable {s : State} {p : Nat} {k : Pkt} {f : Frame}
  (hk : transmitting (putEg s p { s.eg p with busy := none }) p = some k)
  (hf : frameOf (putEg s p { s.eg p with busy := none }) k.fid = some f)
include hk hf

theorem departFrame_whole (h : f.early = false) :
    departFrame s p = serveControl (removePkt (putEg s p { s.eg p with busy := none }) k) p := by
  simp only [departFrame, hk, hf, h, Bool.false_eq_true, if_false]

/-- A frame that has not wholly come is cut before its copy is freed. -/
theorem departFrame_early (h : f.early = true) :
    departFrame s p = serveControl (removePkt (cutFrame (putEg s p { s.eg p with busy := none }) f dropCut) k) p := by
  simp only [departFrame, hk, hf, h, if_true]

end Departure

end Sys2Proof.Machine
end

section
/-! The deep tier (R255 to R258): cells that are written and read back, and a region that is used again. -/

namespace Sys2Proof.Machine

/-! Writes (R255). -/

/-- A region that can take the cell staged first, on a channel that suits its queue. -/
theorem writeDeep_staged {s : State} {k : Pkt} {d : DeepCells} {f : Frame} {r : Nat} (ecc : Option EccFault)
    (hk : nextStaged s = some k) (hd : k.deep = some d) (hf : frameOf s k.fid = some f)
    (ha : regionAvailable s r = true) (hu : regionUse s r < 262144)
    (hc : ∀ c, nextChannel s (17 * k.e + k.q) = some c → c = r / 7) :
    writeDeep s r ecc =
      if writeLimited s then dbfEvent s 8 else withEcc s ecc k false fun s => cellWritten s k d f r := by
  have hfree : decide (262144 ≤ regionUse s r) = false := decide_eq_false (Nat.not_le.2 hu)
  cases hn : nextChannel s (17 * k.e + k.q) with
  | none => simp only [writeDeep, hk, hd, hf, ha, hfree, hn, Bool.not_true, Bool.or_false, Bool.false_eq_true, if_false]
  | some c =>
    have hchan : decide (c ≠ r / 7) = false := decide_eq_false (not_not.2 (hc c hn))
    simp only [writeDeep, hk, hd, hf, ha, hfree, hn, hchan, Bool.not_true, Bool.or_false, Bool.false_eq_true, if_false]

/-! Reads (R256, R257). -/

/-- The cell `x` of copy `k` is on its way back, and its region's controller counts the read. -/
def cellFetched (s : State) (k : Pkt) (d : DeepCells) (x : StoredCell) (l : List StoredCell) : State :=
  let u := putPkt s { k with deep := some { d with stored := l, reading := d.reading ++ [(x, s.now)] } }
  let b := { u.buf with fetched := recentMoves u u.buf.fetched, fetching := some k.id, fetchTurn := 17 * k.e + k.q }
  (({ u with buf := b } : State).add64 A.DBF_CELLS_RD_LO 1).pmcEvent (16 + x.region / 224) 0x101 1

theorem prefetchDeep_stored {s : State} {k : Pkt} {d : DeepCells} {x : StoredCell} {l : List StoredCell}
    (hk : nextFetch s = some k) (hd : k.deep = some d) (hx : d.stored = x :: l) (hr : regionRuns s x.region = true)
    (hlim : deepRate s (recentMoves s s.buf.fetched) ≤ deepLimit s) : prefetchDeep s = cellFetched s k d x l := by
  have hgo : ¬(!regionRuns s x.region || decide (deepLimit s < deepRate s (recentMoves s s.buf.fetched))) = true := by
    rw [hr, decide_eq_false (Nat.not_lt.2 hlim)]
    decide
  simp only [prefetchDeep, hk, hd, hx, if_neg hgo, cellFetched]

/-- The copy has a cell that is on its way back. -/
def isReading (k : Pkt) : Bool := match k.deep with | some d => decide (d.reading ≠ []) | none => false

/-- A cell of region `r` that only a re-read returned is back. -/
def cellReread (s : State) (k : Pkt) (d : DeepCells) (r : Nat) : State :=
  cellBack (dbfEvent (lastErr (s.add64 A.DBF_READ_CE_LO 1) 1 r) 1) k d

/-- All three reads of a cell of region `r` failed: the region is retired and the frame dropped. -/
def cellLost (s : State) (k : Pkt) (r : Nat) : State :=
  let u := failReread (failReread (s.pmcEvent (16 + r / 224) 0x102 2) r) r
  removePkt (slag (retireRegion (dbfEvent (lastErr (u.add64 A.DBF_CELL_LOST_LO 1) 2 r) 2) r) 9) k

/-- What a read of a cell of region `r` and its re-reads come to. -/
def cellReadDone (s : State) (k : Pkt) (d : DeepCells) (r : Nat) : List CellRead → State
  | .good :: _ => cellBack s k d
  | .bad :: .good :: _ => cellReread (s.pmcEvent (16 + r / 224) 0x102 1) k d r
  | .bad :: .bad :: .good :: _ => cellReread (failReread (s.pmcEvent (16 + r / 224) 0x102 2) r) k d r
  | _ => cellLost s k r

theorem readDeep_reading {s : State} {e q : Nat} {k : Pkt} {d : DeepCells} {x : StoredCell} {t : Nat}
    {l : List (StoredCell × Nat)} (reads : List CellRead) (hk : (queuePkts s e q).find? isReading = some k)
    (hd : k.deep = some d) (hx : d.reading = (x, t) :: l) (hr : regionRuns s x.region = true) :
    readDeep s e q reads = cellReadDone s k d x.region reads := by
  rw [readDeep]
  split
  next hnone => cases hnone.symm.trans hk
  next j hj =>
    obtain rfl : j = k := Option.some.inj (hj.symm.trans hk)
    simp only [hd, hx, hr, Bool.not_true, Bool.false_eq_true, if_false]
    rfl

theorem toList_threeReads (v : Vector CellRead 3) : v.toList = [v[0], v[1], v[2]] := by
  obtain ⟨⟨l⟩, hl⟩ := v
  match l, hl with
  | [_, _, _], _ => rfl

/-! Regions (R258). -/

theorem guardedEffect_unretire (s : State) (r : Req) (v : Nat) :
    guardedEffect s r A.DBF_UNRETIRE v = guardedUnretire s r A.DBF_UNRETIRE v := rfl

/-- A word of DBF.UNRETIRE holds GO above the region. -/
theorem unretireWord (x : BitVec 10) :
    (2 ^ 31 + x.toNat) % 1024 = x.toNat ∧ (2 ^ 31 + x.toNat).testBit 31 = true := by
  have hlt : x.toNat < 1024 := x.isLt
  refine ⟨by omega, ?_⟩
  rw [Nat.testBit_two_pow_add_eq, Nat.testBit_lt_two_pow (by omega)]
  rfl

theorem guardedUnretire_go (s : State) (r : Req) (a : Nat) (x : BitVec 10) :
    guardedUnretire s r a (2 ^ 31 + x.toNat) =
      if 895 < x.toNat then rejected s r a else unretireRegion (s.wr a x.toNat) x.toNat := by
  obtain ⟨hregion, hgo⟩ := unretireWord x
  simp only [guardedUnretire, hregion, hgo, if_true]

theorem ends_dbfUnretire {s t : State} {r : Req} {x : BitVec 10} (h : s.listens r A.DBF_UNRETIRE = true)
    (ht : guardedUnretire (heard s r 2) r A.DBF_UNRETIRE (2 ^ 31 + x.toNat) = t) : Ends (.dbfUnretire r x) s t :=
  ends_guardedWrite rfl h ((guardedEffect_unretire _ r _).trans ht)

end Sys2Proof.Machine

namespace Sys2Proof.Proofs
open Sys2Proof.Machine

/-- Settles O38: each command is a step of the central island or of the port's egress path, judged by the copy that is
next there; UNRETIRE is a guarded write, judged by the region that it names. -/
theorem queueAndDeepTierCommands : Obligations.QueueAndDeepTierCommands := by
  refine ⟨?admission, ?inject, ?select, ?depart, ?refill, ?write, ?fetch, ?read, ?unretire⟩
  case admission =>
    intro s k f hrun hk hf
    have hend {t : State} (ht : admitNext s = t) : Ends (.frameAdmit none) s t :=
      ends_onIsland (f := admitNext) rfl hrun ht
    have hlag {g : Nat} (hd : k.dest = .lag g) {t : State} (ht : admitLag s k f g = t) : Ends (.frameAdmit none) s t :=
      hend ((admitNext_lag hk hf hd).trans ht)
    exact ⟨fun e hd => hend (admitNext_port hk hf hd), fun g hd hen => hlag hd (admitLag_off s k f hen),
      fun g m hd hen hsp hm => hlag hd (admitLag_spread s k f hen hsp hm),
      fun g hd hen hsp hm => hlag hd (admitLag_noneEligible s k f hen hsp hm),
      fun g hd hen hsp => hlag hd (admitLag_pinned s k f hen hsp)⟩
  case inject =>
    intro s x hrun hlo hhi d
    exact ends_onIsland (f := fun s => admitNext (injectOuter s x)) rfl hrun
      (congrArg admitNext (injectOuter_fits s hlo hhi))
  case select =>
    intro s p hrun
    have hend {ecc : Option EccFault} {b : Bool} {t : State} (ht : selectFrame s p.val ecc b = t) :
        Ends (.egressFrameSelect p ecc b) s t :=
      ends_onEgress (f := fun s => selectFrame s p.val ecc b) rfl hrun ht
    refine ⟨fun q h k n f b hup hidle hq hh hf => hend (egressSelect_serves hup hidle hq hh hf),
      fun q h k n hq hh => ⟨hend (egressEcc_head hq hh .single), hend ?_⟩,
      fun k hk => ⟨hend (if_pos (by rw [hk]; rfl)), fun f hf => hend (egressStomp_transmitting hk hf)⟩⟩
    exact (egressEcc_head hq hh .uncorrectable).trans (withEcc_uncorrectable s k _)
  case depart =>
    intro s p k f hrun hdone u hk hf
    have hend {t : State} (ht : departFrame s p.val = t) : Ends (.frameDepart p) s t :=
      ends_onEgress (f := fun s => if txDone s p.val then departFrame s p.val else s) rfl hrun
        ((if_pos hdone).trans ht)
    exact ⟨fun hwhole => hend (departFrame_whole hk hf hwhole), fun hearly => hend (departFrame_early hk hf hearly)⟩
  case refill =>
    intro s hrun
    have hend : Ends .shaperRefill s (refillPorts s 64) :=
      ends_onIsland (f := fun s => (List.range 64).foldl refillPort s) rfl hrun rfl
    exact hend.endsWith_of (refillPorts_fills s) fun _ _ _ ht => ht
  case write =>
    intro s x k d f hrun hr hk hd hf ha hu hc
    have hend {ecc : Option EccFault} {t : State} (ht : (if writeLimited s then _ else _) = t) :
        Ends (.deepCellWrite x ecc) s t :=
      ends_onIsland (f := fun s => if regionRuns s x.val then writeDeep s x.val ecc else s) rfl hrun
        ((if_pos hr).trans ((writeDeep_staged ecc hk hd hf ha hu hc).trans ht))
    refine ⟨fun hover ecc => hend (if_pos (decide_eq_true hover)), fun hwithin => ?_⟩
    have hgo : ¬writeLimited s = true := by
      rw [writeLimited, decide_eq_true_eq]
      exact Nat.not_lt.2 hwithin
    exact ⟨hend (if_neg hgo), hend (if_neg hgo), hend ((if_neg hgo).trans (withEcc_uncorrectable s k _))⟩
  case fetch =>
    intro s k d x l hrun hk hd hx hr hlim u b
    exact ends_onIsland (f := prefetchDeep) rfl hrun (prefetchDeep_stored hk hd hx hr hlim)
  case read =>
    intro s p q v k d x t l hrun hr hk hd hx r ce twice
    have hend {w : State} (ht : cellReadDone s k d x.region [v[0], v[1], v[2]] = w) : Ends (.deepCellRead p q v) s w :=
      ends_onIsland (f := fun s => readDeep s p.val q.val v.toList) rfl hrun
        ((readDeep_reading v.toList hk hd hx hr).trans (by rw [toList_threeReads, ht]))
    exact ⟨fun h0 => hend (by rw [h0]; rfl), fun h0 h1 => hend (by rw [h0, h1]; rfl),
      fun h0 h1 h2 => hend (by rw [h0, h1, h2]; rfl), fun h0 h1 h2 => hend (by rw [h0, h1, h2]; rfl)⟩
  case unretire =>
    intro s r x h u
    have hend {t : State} (ht : (if 895 < x.toNat then _ else _) = t) : Ends (.dbfUnretire r x) s t :=
      ends_dbfUnretire h ((guardedUnretire_go _ r _ x).trans ht)
    exact ⟨fun hin => hend (if_neg (Nat.not_lt.2 hin)), fun hout => hend (if_pos hout)⟩

end Sys2Proof.Proofs
end

section
/-! How a command completes: every command but TB_ADVANCE ends by `done`, which keeps the queue and true time. -/

namespace Sys2Proof.Machine

/-- The outcome is a next state that `done` gives. -/
def EndsDone (s : State) (o : Host.Outcome State Fault Refusal) : Prop := ∃ t, o = done s t

theorem endsDone_done (s t : State) : EndsDone s (done s t) := ⟨t, rfl⟩

theorem endsDone_onLoop (s : State) (i : Loop) (f : State → State) : EndsDone s (onLoop s i f) := by
  unfold onLoop
  split <;> exact endsDone_done s _

theorem endsDone_onBank (s : State) (b : Nat) (f : State → State) : EndsDone s (onBank s b f) := by
  unfold onBank
  split <;> exact endsDone_done s _

theorem endsDone_msixMaskWrite (s : State) (vec : Option (Fin 32)) (mask : Bool) :
    EndsDone s (execMsixMaskWrite vec mask s) := by
  cases vec <;> exact endsDone_done s _

theorem exec_endsDone (c : Instr) (s : State) (hc : ∀ n, c ≠ .tbAdvance n) : EndsDone s (exec c s) := by
  unfold exec
  cases c with
  | tbAdvance n => exact absurd rfl (hc n)
  | islandLoopLockLoss | islandLoopRelock | islandLoopRelockTimeout => exact endsDone_onLoop s _ _
  | bankStateChangeDone | bankEccError => exact endsDone_onBank s _ _
  | msixMaskWrite => exact endsDone_msixMaskWrite s _ _
  | _ => exact endsDone_done s _

theorem exec_tbAdvance (n : Nat) (s : State) :
    exec (.tbAdvance n) s = .next { arrivals s { timePasses s n with now := s.now + 2 * n } with
      pending := s.pending, now := s.now + 2 * n } := rfl

/-- Every command answers a next state that holds the queue as it was, at a true time that only TB_ADVANCE moves. -/
theorem exec_completes (c : Instr) (s : State) : ∃ t, exec c s = .next t ∧ t.pending = s.pending ∧
    t.now = s.now + (match c with | .tbAdvance n => 2 * n | _ => 0) := by
  by_cases hc : ∃ n, c = .tbAdvance n
  · obtain ⟨n, rfl⟩ := hc
    exact ⟨_, exec_tbAdvance n s, rfl, rfl⟩
  · have hne : ∀ n, c ≠ .tbAdvance n := fun n h => hc ⟨n, h⟩
    obtain ⟨t, ht⟩ := exec_endsDone c s hne
    refine ⟨_, ht, rfl, ?_⟩
    cases c with
    | tbAdvance n => exact absurd rfl (hne n)
    | _ => rfl

theorem step_of_pending {s : State} {c : Instr} {rest : List Instr} (h : s.pending = c :: rest) :
    step s = exec c { s with pending := rest } := by
  unfold step
  rw [h]

theorem step_of_idle {s : State} (h : s.pending = []) : step s = .next s := by
  unfold step
  rw [h]

/-- A step answers a next state that holds the queue's rest, at a true time an even number of nanoseconds on. -/
theorem step_completes (s : State) : ∃ t, step s = .next t ∧ t.pending = s.pending.tail ∧ ∃ k, t.now = s.now + 2 * k := by
  cases hq : s.pending with
  | nil => exact ⟨s, step_of_idle hq, hq, 0, rfl⟩
  | cons c rest =>
    obtain ⟨t, ht, hp, hn⟩ := exec_completes c { s with pending := rest }
    refine ⟨t, (step_of_pending hq).trans ht, hp, ?_⟩
    cases c with
    | tbAdvance n => exact ⟨n, hn⟩
    | _ => exact ⟨0, hn⟩

end Sys2Proof.Machine

namespace Sys2Proof.Proofs
open Sys2Proof.Machine

/-- Settles O1: the two branches of `step`. -/
theorem stepRunsTheFrontCommand : Obligations.StepRunsTheFrontCommand :=
  ⟨fun _ _ _ => step_of_pending, fun _ => step_of_idle⟩

/-- Settles O2: a command ends by `done`, or is TB_ADVANCE; and so every step of a run answers. -/
theorem everyCommandCompletes : Obligations.EveryCommandCompletes :=
  ⟨exec_completes, safeRun_of_steps fun s => (step_completes s).imp fun _ h => h.1⟩

/-- Settles O4: the rest of a queue of well formed commands is one, and true time moves by whole periods of TCLK. -/
theorem stepKeepsInvariant : Obligations.StepKeepsInvariant := by
  rintro s t ⟨hwell, hgrid⟩ hstep
  obtain ⟨u, hu, hqueue, k, htime⟩ := step_completes s
  obtain rfl : u = t := Host.Outcome.next.inj (hu.symm.trans hstep)
  refine ⟨⟨fun c hc => hwell c (List.mem_of_mem_tail (hqueue ▸ hc)), ?_⟩, hqueue, ?_⟩
  · rw [htime]; omega
  · rw [htime]; omega

end Sys2Proof.Proofs
end

section
/-! The state right after reset. -/

namespace Sys2Proof.Machine

/-- One register is listed at reset: GLB.BOOT_STAT. -/
theorem rd_reset {a : Nat} (h : a ≠ A.GLB_BOOT_STAT) : State.reset.rd a = (resetOf a).toNat := by
  simp only [State.rd, State.reset, Map.get]
  rw [if_neg fun e => h (e.symm.trans rfl)]

theorem resetOf_row {a : Nat} {row : RegRow} (h : rowOf a = some row) (hf : row.fuse = false) :
    (resetOf a).toNat = row.reset % 2 ^ 32 := by
  simp [resetOf, h, hf]

theorem bankByte_reset (b i : Nat) : State.reset.bankByte b i =
    (bankDefault State.reset.banks (bankKey b i)).getD (Config.bankByte b i (Map.get {} State.reset.banks b).undefd) := rfl

theorem bankKey_bank {b i : Nat} (h : i < 2 ^ 24) : bankKey b i / 2 ^ 24 = b := by
  unfold bankKey
  omega

/-- A byte of a bank whose contents did not become undefined. -/
theorem bankByte_reset_zero {b i : Nat} (h : i < 2 ^ 24) (hb : (Map.get {} State.reset.banks b).undefd = 0) :
    State.reset.bankByte b i = 0 := by
  rw [bankByte_reset, bankDefault, bankKey_bank h, if_pos hb]
  rfl

theorem bankByte_reset_open {b i : Nat} (h : i < 2 ^ 24) (hb : (Map.get {} State.reset.banks b).undefd = 1) :
    State.reset.bankByte b i = Config.bankByte b i 1 := by
  rw [bankByte_reset, bankDefault, bankKey_bank h, if_neg (by rw [hb]; decide), hb]
  rfl

end Sys2Proof.Machine

namespace Sys2Proof.Proofs
open Sys2Proof.Machine

/-- Settles O5: nothing waits, true time is 0, and the one listed register differs from its reset value. -/
theorem resetMeetsInvariant : Obligations.ResetMeetsInvariant := by
  refine ⟨⟨fun c hc => absurd hc List.not_mem_nil, rfl⟩, ?_⟩
  rw [State.canonical, regs_wf_reset, memory_wf_reset]
  rfl

/-- Settles O6: by the fields of the reset state, and for its registers and banks by what is listed of them. -/
theorem resetStateIsAsStated : Obligations.ResetStateIsAsStated := by
  refine ⟨rfl, rfl, rfl, rfl, rfl, rfl, rfl, ?zeros, ?undefined, fun a => rd_reset, ?rows, by decide⟩
  case zeros => exact fun i hi => ⟨bankByte_reset_zero hi rfl, bankByte_reset_zero hi rfl⟩
  case undefined =>
    intro b hb i hi
    have hdata : b ∈ [0, 1, 2, 3, 4, 5, 6, 7, 10, 11] := by
      simp only [List.mem_cons, List.not_mem_nil]
      omega
    exact bankByte_reset_open hi ((by decide :
      ∀ b ∈ [0, 1, 2, 3, 4, 5, 6, 7, 10, 11], (Map.get {} State.reset.banks b).undefd = 1) b hdata)
  case rows => exact fun a row hr hf ha => (rd_reset ha).trans (resetOf_row hr hf)

end Sys2Proof.Proofs
end

section
/-! Canonical form of the stored registers and of the banks' bytes: what it is, and how it passes through the
combinators that the model's operations are made of. -/

namespace Sys2Proof.Machine


/-- Registers and the banks' bytes are in canonical form. -/
def CanonMaps (regs : List (Nat × Word)) (mem : List Host.Cell) (banks : List (Nat × BankHidden)) : Prop :=
  Map.wf resetOf regs = true ∧ Cells.wfFrom (bankDefault banks) 0 mem = true

/-- The stored maps of a state are in canonical form. -/
def Canon (s : State) : Prop := CanonMaps s.regs s.mem s.banks

theorem canon_foldl {β : Type} {f : State → β → State} {l : List β} {s : State} (hf : ∀ s x, Canon s → Canon (f s x))
    (h : Canon s) : Canon (l.foldl f s) := by
  induction l generalizing s with
  | nil => exact h
  | cons x l ih => exact ih (hf s x h)

/-- The outcome keeps the canonical form. -/
def EndsCanon (s : State) (o : Host.Outcome State Fault Refusal) : Prop := ∃ t, o = done s t ∧ Canon t

/-- The state of a pair. -/
theorem canon_snd {α : Type} {p : α × State} {a : α} {s : State} (h : Canon p.2) (e : p = (a, s)) : Canon s := by
  rw [e] at h
  exact h

theorem canon_fst {α : Type} {p : State × α} {a : α} {s : State} (h : Canon p.1) (e : p = (s, a)) : Canon s := by
  rw [e] at h
  exact h

theorem canon_ite {c : Prop} [Decidable c] {s t : State} (hs : Canon s) (ht : Canon t) : Canon (if c then s else t) := by
  split
  · exact hs
  · exact ht

/-- What a write leads to, where it leads to a state, is in canonical form. -/
def CanonRes (w : WriteRes) : Prop := ∀ t, w = .does t → Canon t

/-- The state, where there is one, is in canonical form. -/
def CanonOpt (o : Option State) : Prop := ∀ t, o = some t → Canon t

theorem canonRes_plain : CanonRes .plain := fun _ h => nomatch h

theorem canonRes_refuse : CanonRes .refuse := fun _ h => nomatch h

theorem canonRes_does {t : State} (h : Canon t) : CanonRes (.does t) := fun _ e => WriteRes.does.inj e ▸ h

theorem canonRes_state {w : WriteRes} {t : State} (h : CanonRes w) (e : w = .does t) : Canon t := h t e

theorem canonRes_ite {c : Prop} [Decidable c] {v w : WriteRes} (hv : CanonRes v) (hw : CanonRes w) :
    CanonRes (if c then v else w) := by
  split
  · exact hv
  · exact hw

theorem canonRes_refuseIf {b : Bool} {w : WriteRes} (h : CanonRes w) : CanonRes (refuseIf b w) :=
  canonRes_ite canonRes_refuse h

theorem canonOpt_none : CanonOpt none := fun _ h => nomatch h

theorem canonOpt_some {t : State} (h : Canon t) : CanonOpt (some t) := fun _ e => Option.some.inj e ▸ h

theorem canonOpt_state {o : Option State} {t : State} (h : CanonOpt o) (e : o = some t) : Canon t := h t e

theorem canonOpt_ite {c : Prop} [Decidable c] {o p : Option State} (ho : CanonOpt o) (hp : CanonOpt p) :
    CanonOpt (if c then o else p) := by
  split
  · exact ho
  · exact hp

theorem canonOpt_map {f : State → State} {o : Option State} (hf : ∀ s, Canon s → Canon (f s)) (ho : CanonOpt o) :
    CanonOpt (o.map f) := by
  cases o with
  | none => exact canonOpt_none
  | some t => exact canonOpt_some (hf t (ho t rfl))

theorem canonRes_of {o : Option State} (h : CanonOpt o) : CanonRes (.of o) := by
  cases o with
  | none => exact canonRes_refuse
  | some t => exact canonRes_does (h t rfl)

theorem canon_with_buf {s : State} {x : BufHidden} (hc : Canon s) :
    Canon { s with buf := x } := hc

theorem canon_with_cal {s : State} {x : CalHidden} (hc : Canon s) :
    Canon { s with cal := x } := hc

theorem canon_with_cls {s : State} {x : ClsHidden} (hc : Canon s) :
    Canon { s with cls := x } := hc

theorem canon_with_guardHost {s : State} {x : List GuardSeq} (hc : Canon s) :
    Canon { s with guardHost := x } := hc

theorem canon_with_guardMgmt {s : State} {x : List GuardSeq} (hc : Canon s) :
    Canon { s with guardMgmt := x } := hc

theorem canon_with_heldMgmt {s : State} {x : List HeldAccess} (hc : Canon s) :
    Canon { s with heldMgmt := x } := hc

theorem canon_with_heldNodes {s : State} {x : List HeldWrite} (hc : Canon s) :
    Canon { s with heldNodes := x } := hc

theorem canon_with_host {s : State} {x : HostHidden} (hc : Canon s) :
    Canon { s with host := x } := hc

theorem canon_with_int {s : State} {x : IntHidden} (hc : Canon s) :
    Canon { s with int := x } := hc

theorem canon_with_lanes {s : State} {x : List (Nat × LaneHidden)} (hc : Canon s) :
    Canon { s with lanes := x } := hc

theorem canon_with_lolPorts {s : State} {x : List Nat} (hc : Canon s) :
    Canon { s with lolPorts := x } := hc

theorem canon_with_march {s : State} {x : Option (Nat × Bool)} (hc : Canon s) :
    Canon { s with march := x } := hc

theorem canon_with_out {s : State} {x : List Out} (hc : Canon s) :
    Canon { s with out := x } := hc

theorem canon_with_pmcWraps {s : State} {x : List (Nat × Nat)} (hc : Canon s) :
    Canon { s with pmcWraps := x } := hc

theorem canon_with_power {s : State} {x : PowerHidden} (hc : Canon s) :
    Canon { s with power := x } := hc

theorem canon_with_refs {s : State} {x : RefHidden} (hc : Canon s) :
    Canon { s with refs := x } := hc

theorem canon_with_retiredRegions {s : State} {x : List Nat} (hc : Canon s) :
    Canon { s with retiredRegions := x } := hc

theorem canon_with_retiredTdc {s : State} {x : List Nat} (hc : Canon s) :
    Canon { s with retiredTdc := x } := hc

theorem canon_with_snp {s : State} {x : SnpHidden} (hc : Canon s) :
    Canon { s with snp := x } := hc

theorem canon_with_stamps {s : State} {x : List (Nat × Nat)} (hc : Canon s) :
    Canon { s with stamps := x } := hc

theorem canon_with_tco {s : State} {x : TcoHidden} (hc : Canon s) :
    Canon { s with tco := x } := hc

theorem canon_with_timers {s : State} {x : List (Timer × Nat)} (hc : Canon s) :
    Canon { s with timers := x } := hc

theorem canon_with_trims {s : State} {x : List (Nat × Option TrimRec)} (hc : Canon s) :
    Canon { s with trims := x } := hc

theorem canon_with_zonesClear {s : State} {x : List Nat} (hc : Canon s) :
    Canon { s with zonesClear := x } := hc

theorem canon_with_zonesReimg {s : State} {x : List Nat} (hc : Canon s) :
    Canon { s with zonesReimg := x } := hc

theorem canon_with_buf_asy {s : State} {x1 : BufHidden} {x2 : AsyHidden} (hc : Canon s) :
    Canon { s with buf := x1, asy := x2 } := hc

theorem canon_with_buf_retiredRegions {s : State} {x1 : BufHidden} {x2 : List Nat} (hc : Canon s) :
    Canon { s with buf := x1, retiredRegions := x2 } := hc

theorem canon_with_zonesClear_zonesReimg {s : State} {x1 : List Nat} {x2 : List Nat} (hc : Canon s) :
    Canon { s with zonesClear := x1, zonesReimg := x2 } := hc

theorem canon_with_guardHost_int_host {s : State} {x1 : List GuardSeq} {x2 : IntHidden} {x3 : HostHidden} (hc : Canon
    s) :
    Canon { s with guardHost := x1, int := x2, host := x3 } := hc

end Sys2Proof.Machine
end

section
/-! Canonical form, kept by the operations of `Machine/Ops`. -/

namespace Sys2Proof.Machine

theorem canon_wr {s : State} {a v : Nat} (hc : Canon s) : Canon (s.wr a v) :=
  ⟨regs_wf_wr s a v hc.1, hc.2⟩

theorem canon_setFld {s : State} {a hi lo v : Nat} (hc : Canon s) : Canon (s.setFld a hi lo v) := canon_wr hc

theorem canon_setBit {s : State} {a i : Nat} {b : Bool} (hc : Canon s) : Canon (s.setBit a i b) := canon_setFld hc

theorem canon_wr64 {s : State} {a v : Nat} (hc : Canon s) : Canon (s.wr64 a v) := canon_wr (canon_wr hc)

theorem canon_add64 {s : State} {a n : Nat} (hc : Canon s) : Canon (s.add64 a n) := canon_wr64 hc

theorem canon_addSat {s : State} {a hi lo n : Nat} (hc : Canon s) : Canon (s.addSat a hi lo n) := canon_setFld hc

theorem canon_resetRegs {s : State} {p : Nat → Bool} (hc : Canon s) : Canon (s.resetRegs p) :=
  ⟨regs_wf_resetRegs s p hc.1, hc.2⟩

theorem canon_stop {s : State} {t : Timer} (hc : Canon s) : Canon (s.stop t) := hc

theorem canon_start {s : State} {t : Timer} {ns : Nat} (hc : Canon s) : Canon (s.start t ns) := hc

theorem canon_draw {s : State} (hc : Canon s) : Canon (s.draw).2 := hc

theorem canon_openBytes {s : State} {n : Nat} (hc : Canon s) : Canon (s.openBytes n).2 := hc

theorem canon_pick {α : Type} {s : State} {d : α} {x0 : List α} (hc : Canon s) : Canon (State.pick s d x0).2 := by
  unfold State.pick
  split
  · exact hc
  · exact hc
  · exact canon_draw hc

theorem canon_emit {s : State} {o : Out} (hc : Canon s) : Canon (s.emit o) := hc

theorem canon_record {s : State} {evt mask : Nat} (hc : Canon s) : Canon (s.record evt mask) := canon_ite hc
    (canon_with_stamps (canon_wr hc))

theorem canon_writeBack {s : State} {evt v : Nat} (hc : Canon s) : Canon (s.writeBack evt v) := canon_foldl (fun _ _
    hc1 => canon_setBit hc1) hc

theorem canon_pmcAdd {s : State} {g j n : Nat} (hc : Canon s) : Canon (pmcAdd s g j n) := canon_ite
    (canon_with_pmcWraps (canon_wr64 hc)) (canon_wr64 hc)

theorem canon_pmcEvent {s : State} {g ev n : Nat} (hc : Canon s) : Canon (s.pmcEvent g ev n) := canon_ite hc
    (canon_foldl (fun _ _ hc1 => canon_ite (canon_pmcAdd hc1) hc1) hc)

end Sys2Proof.Machine
end

section
/-! Canonical form, kept by the operations of `Machine/Operands`. -/

namespace Sys2Proof.Machine

theorem canon_wrTime {s : State} {a t : Nat} (hc : Canon s) : Canon (s.wrTime a t) := canon_wr (canon_wr (canon_wr
    hc))

end Sys2Proof.Machine
end

section
/-! Canonical form, kept by the operations of `Machine/Memory`. -/

namespace Sys2Proof.Machine

theorem canon_putBankByte {s : State} {b i : Nat} {v : Byte} (hc : Canon s) : Canon (s.putBankByte b i v) :=
  ⟨hc.1, memory_wf_putBankByte s b i v hc.2⟩

theorem canon_putBank {s : State} {b i : Nat} {x0 : List Nat} (hc : Canon s) : Canon (s.putBank b i x0) := by
  induction x0 generalizing s i with
  | nil => exact hc
  | cons v l ih => exact ih (canon_putBankByte hc)

theorem canon_clearBank {s : State} {b : Nat} {zero : Bool} (hc : Canon s) : Canon (s.clearBank b zero) :=
  ⟨hc.1, memory_wf_clearBank s b zero hc.2⟩

end Sys2Proof.Machine
end

section
/-! Canonical form, kept by the operations of `Machine/TimeView`. -/

namespace Sys2Proof.Machine

theorem canon_putTb {s : State} {n : Nat} {h : TbHidden} (hc : Canon s) : Canon (s.putTb n h) := hc

end Sys2Proof.Machine
end

section
/-! Canonical form, kept by the operations of `Machine/Observe`. -/

namespace Sys2Proof.Machine

theorem canon_putTdc {s : State} {i : Nat} {h : TdcHidden} (hc : Canon s) : Canon (putTdc s i h) := hc

end Sys2Proof.Machine
end

section
/-! Canonical form, kept by the operations of `Machine/Interrupts`. -/

namespace Sys2Proof.Machine

theorem canon_setPend {s : State} {i : Nat} {b : Bool} (hc : Canon s) : Canon (setPend s i b) := canon_setBit hc

theorem canon_setAct {s : State} {i : Nat} {b : Bool} (hc : Canon s) : Canon (setAct s i b) := canon_setBit hc

theorem canon_setCount {s : State} {t n : Nat} (hc : Canon s) : Canon (setCount s t n) := hc

theorem canon_setNext {s : State} {t st : Nat} (hc : Canon s) : Canon (setNext s t st) := canon_wr hc

theorem canon_latchNext {s : State} {t i : Nat} (hc : Canon s) : Canon (latchNext s t i) := canon_wr hc

theorem canon_refreshPrio {s : State} {t : Nat} (hc : Canon s) : Canon (refreshPrio s t) := canon_setFld hc

theorem canon_sendMsix {s : State} {n : Nat} (hc : Canon s) : Canon (sendMsix s n) := canon_pmcEvent (canon_emit hc)

theorem canon_routeMsix {s : State} {n : Nat} (hc : Canon s) : Canon (routeMsix s n) := by
  unfold routeMsix
  split
  · exact hc
  · exact canon_sendMsix hc
  · exact canon_with_int hc
  · exact canon_with_int hc
  · exact canon_ite (canon_emit (canon_with_int hc)) (canon_with_int hc)

theorem canon_notify {s : State} {t i : Nat} (hc : Canon s) : Canon (notify s t i) := canon_ite (canon_ite
    (canon_setBit (canon_stop (canon_setCount (canon_latchNext hc)))) (canon_routeMsix (canon_stop (canon_setCount
    (canon_latchNext hc))))) (canon_stop (canon_setCount (canon_latchNext hc)))

theorem canon_notifyBest {s : State} {t : Nat} (hc : Canon s) : Canon (notifyBest s t) := by
  unfold notifyBest
  split
  · exact hc
  · exact canon_notify (canon_pick hc)

theorem canon_countRaise {s : State} {t i : Nat} (hc : Canon s) : Canon (countRaise s t i) := canon_ite (canon_notify
    hc) (canon_ite (canon_start (canon_setCount hc)) (canon_setCount hc))

theorem canon_offer {s : State} {t i : Nat} (hc : Canon s) : Canon (offer s t i) := canon_ite (canon_ite
    (canon_countRaise hc) (canon_ite (canon_notify hc) hc)) hc

theorem canon_raiseSource {s : State} {i : Nat} (hc : Canon s) : Canon (raiseSource s i) := canon_ite (canon_offer
    (canon_setPend hc)) hc

theorem canon_entryLost {s : State} {t i : Nat} (hc : Canon s) : Canon (entryLost s t i) := by
  unfold entryLost
  refine canon_ite ?_ hc
  split
  · exact canon_setNext hc
  · exact canon_latchNext (canon_pick hc)

theorem canon_setNest {s : State} {t : Nat} {l : List Nat} (hc : Canon s) : Canon (setNest s t l) := hc

theorem canon_claimSource {s : State} {t v : Nat} (hc : Canon s) : Canon (claimSource s t v) := by
  have h := canon_setAct (i := v) (b := true) (canon_setPend (i := v) (b := false) hc)
  unfold claimSource
  exact canon_notifyBest (canon_setNext (canon_setNest h))

theorem canon_retarget {s : State} {t : Nat} (hc : Canon s) : Canon (retarget s t) := canon_ite hc (canon_ite
    (canon_notifyBest (canon_refreshPrio hc)) (canon_refreshPrio hc))

theorem canon_endSource {s : State} {t v : Nat} (hc : Canon s) : Canon (endSource s t v) := canon_ite
    (canon_refreshPrio (canon_ite (canon_setNest (canon_setAct hc)) (canon_retarget (canon_setNest (canon_setAct
    hc))))) (canon_notifyBest (canon_setNext (canon_ite (canon_setNest (canon_setAct hc)) (canon_retarget
    (canon_setNest (canon_setAct hc))))))

theorem canon_coalesceFire {s : State} {t : Nat} (hc : Canon s) : Canon (coalesceFire s t) := canon_ite
    (canon_notifyBest (canon_stop (canon_setCount hc))) (canon_stop (canon_setCount hc))

end Sys2Proof.Machine
end

section
/-! Canonical form, kept by the operations of `Machine/Snapshot`. -/

namespace Sys2Proof.Machine

theorem canon_eventQuiet {s : State} {evt en src mask forced : Nat} (hc : Canon s) : Canon (s.eventQuiet evt en src
    mask forced) := canon_ite (canon_record hc) (canon_raiseSource (canon_record hc))

theorem canon_snpEvent {s : State} {mask : Nat} (hc : Canon s) : Canon (snpEvent s mask) := canon_eventQuiet hc

theorem canon_latchSection {s : State} {x : SnpSect} (hc : Canon s) : Canon (latchSection s x).2 := by
  unfold latchSection
  cases zoneOf x.addr with
  | some z => exact canon_ite hc (canon_snpEvent hc)
  | none => exact canon_ite (canon_draw hc) (canon_snpEvent (canon_draw hc))

theorem canon_latchAll {s : State} {till : Nat} {x0 : List SnpSect} (hc : Canon s) :
    Canon (latchAll s till x0).2 := by
  induction x0 generalizing s with
  | nil => exact hc
  | cons x l ih =>
    unfold latchAll
    by_cases h : sectDue s till x = true
    · rw [if_pos h]
      exact ih (canon_latchSection hc)
    · rw [if_neg h]
      exact ih hc

theorem canon_latchUpTo {s : State} {till : Nat} (hc : Canon s) : Canon (latchUpTo s till) := canon_ite hc (canon_ite
    (canon_ite (canon_emit (canon_setFld (canon_with_snp (canon_latchAll hc)))) (canon_setFld (canon_with_snp
    (canon_latchAll hc)))) (canon_with_snp (canon_latchAll hc)))

theorem canon_setSlot {s : State} {k : Nat} {v : Bool} (hc : Canon s) : Canon (setSlot s k v) := canon_setFld
    (canon_setBit hc)

theorem canon_missTrigger {s : State} {src cause : Nat} (hc : Canon s) : Canon (missTrigger s src cause) := canon_ite
    (canon_wr hc) (canon_snpEvent (canon_with_snp (canon_wr (canon_add64 hc))))

theorem canon_latchIngot {s : State} {k src tag t : Nat} (hc : Canon s) : Canon (latchIngot s k src tag t) :=
    canon_latchUpTo (canon_setFld (canon_with_snp (canon_setSlot (canon_putBank hc))))

theorem canon_joinIngot {s : State} {src tag t : Nat} (hc : Canon s) : Canon (joinIngot s src tag t) := hc

theorem canon_trigger {s : State} {src tag t : Nat} (hc : Canon s) : Canon (trigger s src tag t).1 := by
  unfold trigger
  split
  · exact canon_missTrigger hc
  · split
    · exact canon_joinIngot hc
    · split
      · exact canon_missTrigger hc
      · split
        · exact canon_missTrigger hc
        · split
          · exact canon_missTrigger hc
          · split
            · exact canon_missTrigger hc
            · exact canon_latchIngot hc

theorem canon_finishIngot {s : State} (hc : Canon s) : Canon (finishIngot s) := canon_snpEvent (canon_with_snp
    (canon_setFld (canon_wr (canon_setFld (canon_setSlot (canon_putBank hc))))))

theorem canon_raise {s : State} {i : Nat} (hc : Canon s) : Canon (s.raise i) := canon_ite (canon_trigger
    (canon_raiseSource hc)) (canon_raiseSource hc)

theorem canon_event {s : State} {evt en src mask forced : Nat} (hc : Canon s) : Canon (s.event evt en src mask
    forced) := canon_ite (canon_record hc) (canon_raise (canon_record hc))

theorem canon_captureErr {s : State} {kind : Nat} {r : Req} {a : Nat} {write : Bool} (hc : Canon s) : Canon
    (captureErr s kind r a write) := canon_ite hc (canon_wr (canon_wr hc))

theorem canon_accessErr {s : State} {kind : Nat} {r : Req} {a : Nat} (hc : Canon s) : Canon (accessErr s kind r a) :=
    canon_raise (canon_record (canon_captureErr (canon_add64 hc)))

theorem canon_guardErr {s : State} {r : Req} {a : Nat} (hc : Canon s) : Canon (guardErr s r a) := canon_raise
    (canon_record (canon_captureErr (canon_add64 hc)))

theorem canon_rejected {s : State} {r : Req} {a : Nat} (hc : Canon s) : Canon (rejected s r a) := canon_accessErr hc

theorem canon_scanSlots {s : State} (hc : Canon s) : Canon (scanSlots s) := by
  unfold scanSlots
  dsimp only
  split
  · exact canon_wr (canon_setFld (canon_foldl (fun _ _ hc1 => canon_setSlot hc1) hc))
  · exact canon_wr (canon_setFld (canon_foldl (fun _ _ hc1 => canon_setSlot hc1) hc))

end Sys2Proof.Machine
end

section
/-! Canonical form, kept by the operations of `Machine/Lanes`. -/

namespace Sys2Proof.Machine

theorem canon_putLane {s : State} {l : Nat} {h : LaneHidden} (hc : Canon s) : Canon (s.putLane l h) := hc

theorem canon_setLaneState {s : State} {l st : Nat} (hc : Canon s) : Canon (setLaneState s l st) := canon_setFld hc

theorem canon_setLaneFlag {s : State} {l i : Nat} {b : Bool} (hc : Canon s) : Canon (setLaneFlag s l i b) :=
    canon_setBit hc

theorem canon_laneEvent {s : State} {l mask : Nat} (hc : Canon s) : Canon (laneEvent s l mask) := canon_event hc

theorem canon_stopLane {s : State} {l : Nat} (hc : Canon s) : Canon (stopLane s l) := canon_stop (canon_stop
    (canon_stop (canon_stop (canon_stop hc))))

theorem canon_setPrecode {s : State} {l : Nat} (hc : Canon s) : Canon (setPrecode s l) := canon_setLaneFlag
    (canon_setLaneFlag hc)

theorem canon_noTraining {s : State} {l : Nat} (hc : Canon s) : Canon (noTraining s l) := canon_putLane hc

theorem canon_setDlyValid {s : State} {l : Nat} (hc : Canon s) : Canon (setDlyValid s l) := canon_setLaneFlag hc

theorem canon_refreshFir {s : State} {l : Nat} (hc : Canon s) : Canon (refreshFir s l) := canon_ite hc (canon_putLane
    (canon_wr hc))

theorem canon_enterService {s : State} {l : Nat} (hc : Canon s) : Canon (enterService s l) := canon_laneEvent
    (canon_setDlyValid (canon_putLane (canon_wr (canon_setLaneFlag (canon_setLaneFlag (canon_setLaneFlag
    (canon_stopLane (canon_setLaneState hc))))))))

theorem canon_exitService {s : State} {l : Nat} (hc : Canon s) : Canon (exitService s l) := canon_ite
    (canon_laneEvent (canon_setLaneFlag (canon_setLaneFlag hc))) hc

theorem canon_toSignalWait {s : State} {l : Nat} (hc : Canon s) : Canon (toSignalWait s l) := canon_setLaneState
    (canon_stop (canon_setLaneFlag (canon_setLaneFlag (canon_setLaneFlag (canon_stop (canon_stop (canon_stop hc)))))))

theorem canon_toCdrAcq {s : State} {l : Nat} (hc : Canon s) : Canon (toCdrAcq s l) := canon_ite (canon_start
    (canon_setLaneState (canon_setLaneFlag (canon_setLaneFlag (canon_stopLane hc))))) (canon_toSignalWait hc)

theorem canon_keepRetired {s : State} {l : Nat} {b : Bool} (hc : Canon s) : Canon (keepRetired s l b) := hc

theorem canon_retireLane {s : State} {l : Nat} (hc : Canon s) : Canon (retireLane s l) := canon_laneEvent
    (canon_setLaneFlag (canon_setLaneState (canon_setLaneFlag (canon_setLaneFlag (canon_setLaneFlag
    (canon_setLaneFlag (canon_setLaneFlag (canon_setLaneFlag (canon_keepRetired (canon_stopLane hc))))))))))

theorem canon_failAttempt {s : State} {l cause : Nat} (hc : Canon s) : Canon (failAttempt s l cause) := canon_ite
    (canon_retireLane (canon_setLaneFlag (canon_stopLane (canon_laneEvent (canon_setFld (canon_addSat (canon_putLane
    hc))))))) (canon_start (canon_setLaneState (canon_setLaneFlag (canon_stopLane (canon_laneEvent (canon_setFld
    (canon_addSat (canon_putLane hc))))))))

theorem canon_dropFromService {s : State} {l cause : Nat} (hc : Canon s) : Canon (dropFromService s l cause) :=
    canon_ite (canon_failAttempt (canon_setLaneFlag (canon_exitService hc))) (canon_toCdrAcq (canon_exitService hc))

theorem canon_retrainLane {s : State} {l : Nat} (hc : Canon s) : Canon (retrainLane s l) := canon_toCdrAcq
    (canon_exitService hc)

theorem canon_laneOff {s : State} {l : Nat} (hc : Canon s) : Canon (laneOff s l) := canon_setPrecode (canon_setFld
    (canon_setLaneState (canon_noTraining (canon_putLane (canon_setLaneFlag (canon_setLaneFlag (canon_setLaneFlag
    (canon_setLaneFlag (canon_setLaneFlag (canon_setLaneFlag (canon_stopLane (canon_exitService hc))))))))))))

theorem canon_lanePowerup {s : State} {l mode : Nat} {trunk : Bool} (hc : Canon s) : Canon (lanePowerup s l mode
    trunk) := canon_setPrecode (canon_noTraining (canon_putLane (canon_setFld (canon_setLaneState (canon_setLaneFlag
    (canon_setLaneFlag (canon_setLaneFlag (canon_setLaneFlag (canon_setLaneFlag (canon_setLaneFlag (canon_stopLane
    (canon_exitService hc))))))))))))

theorem canon_setPrbsLock {s : State} {l : Nat} {b : Bool} (hc : Canon s) : Canon (setPrbsLock s l b) := canon_setBit
    hc

theorem canon_setLaneTrunk {s : State} {l : Nat} {trunk : Bool} (hc : Canon s) : Canon (setLaneTrunk s l trunk) :=
    canon_ite (canon_setLaneFlag hc) (canon_setLaneFlag (canon_setLaneFlag (canon_setLaneFlag hc)))

theorem canon_setLaneRate {s : State} {l mode : Nat} {trunk : Bool} (hc : Canon s) : Canon (setLaneRate s l mode
    trunk) := canon_ite hc (canon_ite (canon_ite hc (canon_lanePowerup (canon_setPrbsLock (canon_setBit hc))))
    (canon_ite (canon_ite hc (canon_laneOff hc)) (canon_ite (canon_setLaneTrunk hc) (canon_lanePowerup hc))))

theorem canon_finishCheck {s : State} {l : Nat} (hc : Canon s) : Canon (finishCheck s l) := canon_ite
    (canon_enterService (canon_setLaneFlag hc)) (canon_laneEvent (canon_start (canon_setLaneState (canon_stopLane
    (canon_setLaneFlag (canon_setLaneFlag (canon_setLaneFlag hc)))))))

theorem canon_startCheck {s : State} {l : Nat} (hc : Canon s) : Canon (startCheck s l) := canon_setLaneState
    (canon_stop hc)

theorem canon_recheckOnWrite {s : State} {l m : Nat} (hc : Canon s) : Canon (recheckOnWrite s l m) := canon_ite
    (canon_startCheck hc) hc

theorem canonOpt_writeEqWord {s : State} {l m w v : Nat} (hc : Canon s) : CanonOpt (writeEqWord s l m w v) :=
    canonOpt_ite canonOpt_none (canonOpt_some (canon_ite (canon_setLaneFlag (canon_wr hc)) (canon_recheckOnWrite
    (canon_wr hc))))

theorem canonOpt_writeEqValid {s : State} {l v : Nat} (hc : Canon s) : CanonOpt (writeEqValid s l v) := canonOpt_ite
    canonOpt_none (canonOpt_some (canon_ite (canon_recheckOnWrite (canon_wr hc)) (canon_wr hc)))

theorem canon_writeLaneCtrl {s : State} {l v : Nat} (hc : Canon s) : Canon (writeLaneCtrl s l v) := canon_ite
    (canon_retrainLane (canon_refreshFir (canon_setPrecode (canon_wr hc)))) (canon_refreshFir (canon_setPrecode
    (canon_wr hc)))

theorem canon_writeLaneTest {s : State} {l v mode : Nat} {trunk : Bool} (hc : Canon s) : Canon (writeLaneTest s l v
    mode trunk) := canon_ite (canon_ite (canon_ite (canon_wr hc) (canon_setPrbsLock (canon_wr hc))) (canon_setPrecode
    (canon_setFld (canon_noTraining (canon_setLaneState (canon_stopLane (canon_exitService (canon_ite (canon_wr hc)
    (canon_setPrbsLock (canon_wr hc)))))))))) (canon_ite (canon_ite (canon_laneOff (canon_ite (canon_wr hc)
    (canon_setPrbsLock (canon_wr hc)))) (canon_lanePowerup (canon_ite (canon_wr hc) (canon_setPrbsLock (canon_wr
    hc))))) (canon_ite (canon_wr hc) (canon_setPrbsLock (canon_wr hc))))

theorem canon_unretireLane {s : State} {l mode : Nat} {trunk : Bool} (hc : Canon s) : Canon (unretireLane s l mode
    trunk) := canon_ite (canon_ite (canon_laneOff (canon_putLane (canon_keepRetired (canon_setLaneFlag hc))))
    (canon_lanePowerup (canon_putLane (canon_keepRetired (canon_setLaneFlag hc))))) hc

theorem canon_clearFailTotal {s : State} {l : Nat} (hc : Canon s) : Canon (clearFailTotal s l) := canon_setFld
    (canon_setFld hc)

theorem canon_countLaneErrors {s : State} {l n : Nat} (hc : Canon s) : Canon (countLaneErrors s l n) := canon_ite
    (canon_add64 hc) hc

end Sys2Proof.Machine
end

section
/-! Canonical form, kept by the operations of `Machine/TimeBase`. -/

namespace Sys2Proof.Machine

theorem canon_setArmed {s : State} {n : Nat} {b : Bool} (hc : Canon s) : Canon (setArmed s n b) := canon_setBit hc

theorem canon_setRate {s : State} {n : Nat} {r : Int} (hc : Canon s) : Canon (setRate s n r) := canon_wr hc

theorem canon_tbEvent {s : State} {n mask : Nat} (hc : Canon s) : Canon (tbEvent s n mask) := canon_event hc

theorem canon_refreshFreqOnly {s : State} (hc : Canon s) : Canon (refreshFreqOnly s) := canon_foldl (fun _ _ hc1 =>
    canon_setBit hc1) hc

theorem canon_freezeRate {s : State} {n : Nat} (hc : Canon s) : Canon (freezeRate s n) := canon_putTb hc

theorem canon_enterHoldover {s : State} {n : Nat} (hc : Canon s) : Canon (enterHoldover s n) := canon_ite
    (canon_tbEvent (canon_stop (canon_setFld (canon_freezeRate hc)))) hc

theorem canon_enterLocked {s : State} {n : Nat} (hc : Canon s) : Canon (enterLocked s n) := canon_tbEvent
    (canon_start (canon_setFld hc))

theorem canon_enterAcq {s : State} {n : Nat} (hc : Canon s) : Canon (enterAcq s n) := canon_start (canon_setFld
    (canon_putTb hc))

theorem canon_enterSteered {s : State} {n : Nat} (hc : Canon s) : Canon (enterSteered s n) := canon_ite
    (canon_enterAcq hc) (canon_enterLocked hc)

theorem canon_clearTheta {s : State} {n : Nat} (hc : Canon s) : Canon (clearTheta s n) := canon_putTb hc

theorem canon_enterFree {s : State} {n : Nat} (hc : Canon s) : Canon (enterFree s n) := canon_stop (canon_setFld
    (canon_freezeRate (canon_wr (canon_clearTheta hc))))

theorem canon_checkSources {s : State} (hc : Canon s) : Canon (checkSources s) := canon_foldl (fun _ _ hc1 =>
    canon_ite (canon_enterHoldover hc1) hc1) (canon_refreshFreqOnly hc)

theorem canon_tbPortLost {s : State} {p : Nat} (hc : Canon s) : Canon (tbPortLost s p) := canon_ite
    (canon_enterHoldover hc) hc

theorem canon_tbDataDieStops {s : State} (hc : Canon s) : Canon (tbDataDieStops s) := canon_ite (canon_enterHoldover
    hc) hc

theorem canon_changeSource {s : State} {n v : Nat} (hc : Canon s) : Canon (changeSource s n v) :=
    canon_refreshFreqOnly (canon_ite (canon_ite (canon_wr hc) (canon_enterFree (canon_wr hc))) (canon_ite (canon_ite
    (canon_enterHoldover (canon_enterSteered (canon_putTb (canon_wr hc)))) (canon_enterSteered (canon_putTb (canon_wr
    hc)))) (canon_ite (canon_ite (canon_enterHoldover (canon_clearTheta (canon_wr hc))) (canon_clearTheta (canon_wr
    hc))) (canon_wr hc))))

theorem canon_moveAcc {s : State} {n : Nat} {d : Int} (hc : Canon s) : Canon (moveAcc s n d) := canon_putTb hc

theorem canon_applyStep {s : State} {n : Nat} {d : Int} (hc : Canon s) : Canon (applyStep s n d) := canon_tbEvent
    (canon_setBit (canon_putTb (canon_moveAcc hc)))

theorem canon_decideStep {s : State} {n : Nat} {d : Int} (hc : Canon s) : Canon (decideStep s n d) := canon_ite
    (canon_setBit (canon_putTb hc)) (canon_putTb hc)

theorem canon_decideLater {s : State} {n : Nat} {x : LaterStep} (hc : Canon s) : Canon (decideLater s n x) :=
    canon_putTb hc

theorem canon_setStep {s : State} {n t : Nat} (hc : Canon s) : Canon (setStep s n t) := canon_ite (canon_decideLater
    hc) (canon_decideStep (canon_setArmed hc))

theorem canon_decideWaiting {s : State} {n : Nat} (hc : Canon s) : Canon (decideWaiting s n) := by
  unfold decideWaiting
  dsimp only
  split
  · exact canon_decideStep (canon_setArmed (canon_putTb hc))
  · exact canon_setStep (canon_putTb hc)
  · exact hc

theorem canon_setTarget {s : State} {n : Nat} {r : Int} (hc : Canon s) : Canon (setTarget s n r) := canon_ite
    (canon_tbEvent (canon_setBit (canon_putTb hc))) (canon_setBit (canon_putTb hc))

theorem canon_servo {s : State} {n : Nat} {theta : Int} (hc : Canon s) : Canon (servo s n theta) := canon_setTarget
    (canon_putTb hc)

theorem canon_acqEstimate {s : State} {n : Nat} {r : Int} (hc : Canon s) : Canon (acqEstimate s n r) := canon_ite
    (canon_enterLocked (canon_freezeRate (canon_setRate (canon_putTb hc)))) (canon_freezeRate (canon_setRate
    (canon_putTb hc)))

theorem canon_phaseEstimate {s : State} {n : Nat} (hc : Canon s) : Canon (phaseEstimate s n).2 := by
  unfold phaseEstimate
  split
  · exact hc
  · exact canon_draw hc

theorem canon_outlierTest {s : State} {n : Nat} {theta : Int} (hc : Canon s) :
    Canon (outlierTest s n theta).2 := by
  unfold outlierTest
  extract_lets h lim far
  clear_value far
  split
  · exact canon_putTb hc
  · split
    · exact canon_tbEvent (canon_putTb hc)
    · exact canon_wr (canon_putTb hc)

theorem canon_alarmCheck {s : State} {n : Nat} {theta : Int} (hc : Canon s) : Canon (alarmCheck s n theta) :=
    canon_ite hc (canon_ite (canon_ite (canon_tbEvent (canon_setBit (canon_putTb hc))) (canon_putTb hc)) (canon_ite
    (canon_setBit (canon_putTb hc)) (canon_putTb hc)))

theorem canon_acceptSample {s : State} {n : Nat} {theta : Int} (hc : Canon s) : Canon (acceptSample s n theta) :=
    canon_ite (canon_tbEvent (canon_enterSteered (canon_pmcEvent (canon_alarmCheck (canon_wr (canon_putTb hc))))))
    (canon_start (canon_pmcEvent (canon_alarmCheck (canon_wr (canon_putTb hc)))))

theorem canon_correctPhase {s : State} {n : Nat} {theta : Int} (hc : Canon s) : Canon (correctPhase s n theta) :=
    canon_ite (canon_acqEstimate (canon_phaseEstimate hc)) (canon_ite (canon_ite (canon_decideLater hc)
    (canon_decideStep (canon_setArmed hc))) (canon_servo (canon_setArmed hc)))

theorem canon_phaseSample {s : State} {n : Nat} {theta : Int} (hc : Canon s) : Canon (phaseSample s n theta) := by
  have h := canon_outlierTest (n := n) (theta := theta) hc
  unfold phaseSample
  refine canon_ite hc ?_
  split
  next t e => exact canon_snd h e
  next t e => exact canon_correctPhase (canon_acceptSample (canon_snd h e))

theorem canon_rateSample {s : State} {n : Nat} {ppt : Int} (hc : Canon s) : Canon (rateSample s n ppt) := canon_ite
    hc (canon_ite (canon_acqEstimate (canon_ite (canon_tbEvent (canon_enterSteered hc)) (canon_start hc)))
    (canon_setTarget (canon_ite (canon_tbEvent (canon_enterSteered hc)) (canon_start hc))))

theorem canon_slewOne {s : State} {n : Nat} (hc : Canon s) : Canon (slewOne s n) := canon_setRate hc

theorem canon_advanceTb {s : State} {n x0 x1 x2 : Nat} (hc : Canon s) : Canon (advanceTb s n x0 x1 x2) := by
  induction x0 generalizing s x1 x2 with
  | zero => exact canon_putTb hc
  | succ fuel ih =>
    exact canon_ite (canon_putTb hc) (canon_ite (ih (canon_slewOne (canon_putTb hc))) (canon_putTb hc))

theorem canon_advanceAll {s : State} {k : Nat} (hc : Canon s) : Canon (advanceAll s k) := canon_foldl (fun _ _ hc1 =>
    canon_advanceTb hc1) hc

theorem canon_captureShadow {s : State} {r : Req} {n : Nat} (hc : Canon s) : Canon (captureShadow s r n) := hc

theorem canon_latchTbs {s : State} {v : Nat} (hc : Canon s) : Canon (latchTbs s v) := canon_foldl (fun _ _ hc1 =>
    canon_wrTime hc1) hc

theorem canon_armTbs {s : State} {v : Nat} (hc : Canon s) : Canon (armTbs s v) := canon_foldl (fun _ _ hc1 =>
    canon_setArmed hc1) hc

theorem canonOpt_writeRateMan {s : State} {n v : Nat} (hc : Canon s) : CanonOpt (writeRateMan s n v) := canonOpt_ite
    canonOpt_none (canonOpt_some (canon_ite (canon_freezeRate (canon_wr (canon_wr hc))) (canon_wr hc)))

end Sys2Proof.Machine
end

section
/-! Canonical form, kept by the operations of `Machine/References`. -/

namespace Sys2Proof.Machine

theorem canon_refEvent {s : State} {mask : Nat} (hc : Canon s) : Canon (refEvent s mask) := canon_event hc

theorem canon_setRefState {s : State} {k st : Nat} (hc : Canon s) : Canon (setRefState s k st) := canon_setFld hc

theorem canon_cancelWtr {s : State} (hc : Canon s) : Canon (cancelWtr s) := canon_stop (canon_setFld hc)

theorem canon_selEnterLoss {s : State} (hc : Canon s) : Canon (selEnterLoss s) := canon_ite hc (canon_checkSources
    (canon_refEvent (canon_cancelWtr (canon_setFld (canon_setFld hc)))))

theorem canon_selSwitch {s : State} {k : Nat} (hc : Canon s) : Canon (selSwitch s k) := canon_checkSources
    (canon_cancelWtr (canon_setFld (canon_setFld hc)))

theorem canon_selNext {s : State} (hc : Canon s) : Canon (selNext s) := by
  unfold selNext
  split
  · exact canon_selSwitch hc
  · exact canon_selEnterLoss hc

theorem canon_wtrEval {s : State} (hc : Canon s) : Canon (wtrEval s) := by
  unfold wtrEval
  split
  · exact canon_ite hc (canon_cancelWtr hc)
  · exact canon_ite (canon_ite hc (canon_cancelWtr hc)) (canon_ite (canon_selSwitch (canon_refEvent hc)) (canon_ite
      hc (canon_start (canon_setFld hc))))

theorem canon_selEval {s : State} (hc : Canon s) : Canon (selEval s) := canon_ite (canon_ite (canon_selNext hc) hc)
    (canon_ite (canon_ite (canon_selNext (canon_refEvent hc)) (canon_selNext hc)) (canon_ite (canon_wtrEval hc) hc))

theorem canon_selRewrite {s : State} {newMan : Bool} (hc : Canon s) : Canon (selRewrite s newMan) := by
  unfold selRewrite
  dsimp only
  split
  · exact canon_selEnterLoss (canon_ite (canon_refEvent hc) hc)
  · exact canon_ite (canon_selEval hc) (canon_selSwitch (canon_ite (canon_refEvent hc) hc))

theorem canon_refChanged {s : State} (hc : Canon s) : Canon (refChanged s) := canon_selEval (canon_checkSources hc)

theorem canon_refFail {s : State} {k cause : Nat} (hc : Canon s) : Canon (refFail s k cause) := canon_refEvent
    (canon_stop (canon_setFld (canon_setRefState hc)))

theorem canon_refToValid {s : State} {k : Nat} (hc : Canon s) : Canon (refToValid s k) := canon_refEvent (canon_stop
    (canon_setRefState (canon_with_refs hc)))

theorem canon_refInactive {s : State} {k : Nat} (hc : Canon s) : Canon (refInactive s k) := canon_ite hc (canon_ite
    (canon_setFld (canon_setBit hc)) (canon_refChanged (canon_refFail (canon_setBit hc))))

theorem canon_markSuspects {s : State} (hc : Canon s) : Canon (markSuspects s) := canon_ite (canon_refEvent
    (canon_foldl (fun _ _ hc1 => canon_setRefState hc1) hc)) (canon_foldl (fun _ _ hc1 => canon_setRefState hc1) hc)

theorem canon_clearAgreed {s : State} {k : Nat} (hc : Canon s) : Canon (clearAgreed s k) := canon_ite
    (canon_with_refs hc) (canon_ite (canon_with_refs hc) (canon_ite (canon_refToValid hc) hc))

theorem canon_compareRanks {s : State} (hc : Canon s) : Canon (compareRanks s) := canon_foldl (fun _ _ hc1 =>
    canon_clearAgreed hc1) (canon_markSuspects hc)

theorem canon_refMeasure {s : State} {k : Nat} {ppt : Int} (hc : Canon s) : Canon (refMeasure s k ppt) := canon_ite
    hc (canon_refChanged (canon_compareRanks (canon_ite (canon_ite (canon_setFld (canon_wr (canon_setBit hc)))
    (canon_refFail (canon_wr (canon_setBit hc)))) (canon_ite (canon_start (canon_setRefState (canon_wr (canon_setBit
    hc)))) (canon_wr (canon_setBit hc))))))

theorem canon_refQualified {s : State} {k : Nat} (hc : Canon s) : Canon (refQualified s k) := canon_ite
    (canon_refChanged (canon_refToValid hc)) hc

theorem canon_suspClear {s : State} {v : Nat} (hc : Canon s) : Canon (suspClear s v) := canon_refChanged (canon_foldl
    (fun _ _ hc1 => canon_ite (canon_refToValid hc1) hc1) hc)

theorem canon_writeRefCfg {s : State} {k v : Nat} (hc : Canon s) : Canon (writeRefCfg s k v) := canon_refChanged
    (canon_ite (canon_wr hc) (canon_ite (canon_refFail (canon_setBit (canon_wr hc))) (canon_stop (canon_setBit
    (canon_setRefState (canon_with_refs (canon_wr hc)))))))

theorem canonOpt_writeRefFreq {s : State} {k v : Nat} (hc : Canon s) : CanonOpt (writeRefFreq s k v) := canonOpt_ite
    canonOpt_none (canonOpt_some (canon_refreshFreqOnly (canon_wr hc)))

theorem canonOpt_writeSelCtrl {s : State} {v : Nat} (hc : Canon s) : CanonOpt (writeSelCtrl s v) := canonOpt_ite
    canonOpt_none (canonOpt_some (canon_ite (canon_selRewrite (canon_wr hc)) (canon_selEval (canon_wr hc))))

theorem canon_selAcquired {s : State} (hc : Canon s) : Canon (selAcquired s) := canon_ite (canon_wtrEval
    (canon_checkSources (canon_refEvent (canon_setFld hc)))) hc

theorem canon_wtrExpire {s : State} (hc : Canon s) : Canon (wtrExpire s) := canon_ite (canon_selSwitch
    (canon_refEvent hc)) hc

theorem canon_ppsEdge {s : State} {k : Nat} {falling : Bool} (hc : Canon s) : Canon (ppsEdge s k falling) :=
    canon_ite (canon_foldl (fun _ _ hc1 => canon_ite (canon_phaseSample hc1) hc1) (canon_setBit hc)) hc

theorem canon_rcvdMoved {s : State} {k : Nat} (hc : Canon s) : Canon (rcvdMoved s k) := by
  unfold rcvdMoved
  split
  · exact hc
  · exact canon_with_refs hc

theorem canon_refreshRcvd {s : State} (hc : Canon s) : Canon (refreshRcvd s) := canon_foldl (fun _ _ hc1 =>
    canon_rcvdMoved hc1) hc

theorem canon_freqSample {s : State} {n : Nat} {ppt : Int} (hc : Canon s) : Canon (freqSample s n ppt) := canon_ite
    (canon_ite (canon_with_refs hc) (canon_rateSample hc)) hc

theorem canon_xoLost {s : State} (hc : Canon s) : Canon (xoLost s) := canon_ite hc (canon_refEvent (canon_setBit hc))

theorem canon_xoBack {s : State} (hc : Canon s) : Canon (xoBack s) := canon_setBit hc

end Sys2Proof.Machine
end

section
/-! Canonical form, kept by the operations of `Machine/Synth`. -/

namespace Sys2Proof.Machine

theorem canon_putSyn {s : State} {k : Nat} {h : SynHidden} (hc : Canon s) : Canon (putSyn s k h) := hc

theorem canon_synEvent {s : State} {k mask : Nat} (hc : Canon s) : Canon (synEvent s k mask) := canon_event hc

theorem canon_setSynState {s : State} {k st : Nat} (hc : Canon s) : Canon (setSynState s k st) := canon_setFld hc

theorem canon_setAligned {s : State} {k : Nat} {b : Bool} (hc : Canon s) : Canon (setAligned s k b) := canon_setBit hc

theorem canon_outSoon {s : State} {k : Nat} (hc : Canon s) : Canon (outSoon s k) := canon_putSyn hc

theorem canon_drawPhase {s : State} {k : Nat} (hc : Canon s) : Canon (drawPhase s k) := canon_putSyn (canon_draw
    (canon_draw hc))

theorem canon_rampAbort {s : State} {k : Nat} (hc : Canon s) : Canon (rampAbort s k) := canon_ite (canon_synEvent
    (canon_stop (canon_setFld (canon_setBit (canon_putSyn hc))))) hc

theorem canon_slewStop {s : State} {k : Nat} (hc : Canon s) : Canon (slewStop s k) := canon_putSyn hc

theorem canon_synOff {s : State} {k : Nat} (hc : Canon s) : Canon (synOff s k) := canon_setAligned (canon_setSynState
    (canon_putSyn (canon_stop (canon_stop (canon_slewStop (canon_rampAbort hc))))))

theorem canon_synWrite {s : State} {k : Nat} {reg : SynReg} {v : Nat} (hc : Canon s) : Canon (synWrite s k reg v) :=
    by
  unfold synWrite
  dsimp only
  split
  · exact canon_ite (canon_setSynState (canon_ite (canon_setAligned (canon_putSyn (canon_wr hc))) (canon_putSyn
      (canon_wr hc)))) (canon_ite (canon_synOff (canon_ite (canon_setAligned (canon_putSyn (canon_wr hc)))
      (canon_putSyn (canon_wr hc)))) (canon_ite (canon_outSoon (canon_ite (canon_setAligned (canon_putSyn (canon_wr
      hc))) (canon_putSyn (canon_wr hc)))) (canon_ite (canon_setAligned (canon_putSyn (canon_wr hc))) (canon_putSyn
      (canon_wr hc)))))
  · exact canon_putSyn (canon_wr hc)
  · exact canon_putSyn (canon_wr hc)
  · exact canon_wr hc

theorem canon_synOutApply {s : State} {k : Nat} (hc : Canon s) : Canon (synOutApply s k) := canon_ite (canon_putSyn
    hc) hc

theorem canon_synLock {s : State} {k : Nat} (hc : Canon s) : Canon (synLock s k) := canon_ite (canon_outSoon
    (canon_drawPhase (canon_setSynState hc))) hc

theorem canon_toRelock {s : State} {k : Nat} (hc : Canon s) : Canon (toRelock s k) := canon_start (canon_setSynState
    hc)

theorem canon_synLoseLock {s : State} {k : Nat} (hc : Canon s) : Canon (synLoseLock s k) := canon_ite (canon_toRelock
    (canon_ite (canon_putSyn (canon_setAligned (canon_slewStop (canon_ite (canon_rampAbort (canon_synEvent hc))
    (canon_synEvent hc))))) (canon_setAligned (canon_slewStop (canon_ite (canon_rampAbort (canon_synEvent hc))
    (canon_synEvent hc)))))) hc

theorem canon_synRelock {s : State} {k : Nat} (hc : Canon s) : Canon (synRelock s k) := canon_ite (canon_ite
    (canon_outSoon (canon_synEvent (canon_drawPhase (canon_stop (canon_stop (canon_setSynState hc))))))
    (canon_synEvent (canon_drawPhase (canon_stop (canon_stop (canon_setSynState hc)))))) hc

theorem canon_synRelockFail {s : State} {k : Nat} (hc : Canon s) : Canon (synRelockFail s k) := canon_ite
    (canon_start (canon_synEvent (canon_putSyn (canon_stop (canon_setSynState hc))))) hc

theorem canon_synRetry {s : State} {k : Nat} (hc : Canon s) : Canon (synRetry s k) := canon_ite (canon_start hc) hc

theorem canon_rampStart {s : State} {k : Nat} (hc : Canon s) : Canon (rampStart s k) := canon_ite (canon_start
    (canon_setFld (canon_setSynState (canon_putSyn (canon_setBit hc))))) (canon_synEvent (canon_putSyn (canon_putSyn
    (canon_setBit hc))))

theorem canon_rampGo {s : State} {k : Nat} (hc : Canon s) : Canon (rampGo s k) := canon_ite (canon_rampStart hc)
    (canon_ite (canon_rampStart (canon_synEvent hc)) (canon_setBit hc))

theorem canon_rampAt {s : State} {k : Nat} (hc : Canon s) : Canon (rampAt s k) := canon_ite (canon_rampStart hc) hc

theorem canon_rampEnd {s : State} {k : Nat} (hc : Canon s) : Canon (rampEnd s k) := canon_synEvent (canon_stop
    (canon_setFld (canon_setSynState (canon_putSyn (canon_wr (canon_wr hc))))))

theorem canon_rampSegEnd {s : State} {k : Nat} (hc : Canon s) : Canon (rampSegEnd s k) := canon_ite (canon_ite
    (canon_rampEnd hc) (canon_start (canon_setFld (canon_putSyn hc)))) hc

theorem canon_rampStop {s : State} {k : Nat} (hc : Canon s) : Canon (rampStop s k) := canon_ite (canon_putSyn
    (canon_setSynState (canon_rampAbort hc))) (canon_rampAbort hc)

theorem canon_alignError {s : State} {k late : Nat} (hc : Canon s) : Canon (alignError s k late).2 := by
  unfold alignError
  exact canon_pick hc

theorem canon_stepPhase {s : State} {k : Nat} {e : Int} (hc : Canon s) : Canon (stepPhase s k e) := canon_putSyn hc

theorem canon_slewBegin {s : State} {k : Nat} {e : Int} (hc : Canon s) : Canon (slewBegin s k e) := canon_putSyn hc

theorem canon_synAlign {s : State} {k : Nat} {falling : Bool} {late : Nat} (hc : Canon s) : Canon (synAlign s k
    falling late) := canon_ite (canon_ite (canon_synEvent (canon_setAligned (canon_slewStop (canon_putSyn (canon_wr
    (canon_alignError hc)))))) (canon_ite (canon_synEvent (canon_setAligned (canon_stepPhase (canon_slewStop
    (canon_putSyn (canon_wr (canon_alignError hc))))))) (canon_setAligned (canon_slewBegin (canon_slewStop
    (canon_putSyn (canon_wr (canon_alignError hc)))))))) hc

theorem canon_synAdvance {s : State} {n : Nat} {t : State} {k : Nat} (hct : Canon t) : Canon
    (synAdvance s n t k) := canon_ite (canon_ite (canon_putSyn (canon_synOutApply hct)) (canon_synOutApply hct))
    (canon_putSyn (canon_synOutApply hct))

theorem canon_synsAdvance {s t : State} {n : Nat} (hct : Canon t) : Canon (synsAdvance s t n) :=
    canon_foldl (fun _ _ hc2 => canon_synAdvance hc2) hct

theorem canon_synSlewDone {s : State} {k : Nat} (hc : Canon s) : Canon (synSlewDone s k) := canon_ite
    (canon_setAligned (canon_slewStop hc)) hc

end Sys2Proof.Machine
end

section
/-! Canonical form, kept by the operations of `Machine/Pulses`. -/

namespace Sys2Proof.Machine

theorem canon_putOut {s : State} {k : Nat} {h : PlsHidden} (hc : Canon s) : Canon (putOut s k h) := hc

theorem canon_setPlsState {s : State} {k st : Nat} (hc : Canon s) : Canon (setPlsState s k st) := canon_setFld hc

theorem canon_plsEvent {s : State} {k mask : Nat} (hc : Canon s) : Canon (plsEvent s k mask) := canon_event hc

theorem canon_addFired {s : State} {k : Nat} (hc : Canon s) : Canon (addFired s k) := canon_wr hc

theorem canon_addMissed {s : State} {k n : Nat} (hc : Canon s) : Canon (addMissed s k n) := canon_wr hc

theorem canon_dropQueue {s : State} {k : Nat} (hc : Canon s) : Canon (dropQueue s k) := canon_ite hc (canon_plsEvent
    (canon_setFld (canon_wr (canon_putOut hc))))

theorem canon_endBursts {s : State} {k : Nat} (hc : Canon s) : Canon (endBursts s k) := by
  unfold endBursts
  refine canon_foldl (fun _ _ hc1 => ?_) hc
  split
  · exact canon_ite (canon_putOut hc1) hc1
  · exact hc1

theorem canon_plsDone {s : State} {k : Nat} (hc : Canon s) : Canon (plsDone s k) := canon_endBursts (canon_plsEvent
    (canon_setPlsState (canon_putOut (canon_dropQueue hc))))

theorem canon_plsIdle {s : State} {k : Nat} (hc : Canon s) : Canon (plsIdle s k) := canon_endBursts
    (canon_setPlsState hc)

theorem canon_takeSet {s : State} {k : Nat} {p : PlsSet} {now : Nat} (hc : Canon s) : Canon (takeSet s k p now) :=
    canon_ite (canon_ite (canon_setPlsState (canon_putOut (canon_setBit (canon_setBit (canon_ite hc (canon_dropQueue
    hc)))))) (canon_ite (canon_plsEvent (canon_setPlsState (canon_putOut (canon_setBit (canon_setBit (canon_ite hc
    (canon_dropQueue hc))))))) (canon_plsDone (canon_plsEvent (canon_addMissed (canon_putOut (canon_setBit
    (canon_setBit (canon_ite hc (canon_dropQueue hc)))))))))) (canon_ite (canon_ite (canon_plsEvent
    (canon_setPlsState (canon_putOut (canon_setBit (canon_setBit (canon_ite hc (canon_dropQueue hc)))))))
    (canon_setPlsState (canon_putOut (canon_setBit (canon_setBit (canon_ite hc (canon_dropQueue hc)))))))
    (canon_setPlsState (canon_putOut (canon_setBit (canon_setBit (canon_ite hc (canon_dropQueue hc)))))))

theorem canon_armAccept {s : State} {k : Nat} (hc : Canon s) : Canon (armAccept s k) := canon_ite (canon_setBit
    (canon_putOut hc)) (canon_takeSet hc)

theorem canon_armOutputs {s : State} {mask : Nat} (hc : Canon s) : Canon (armOutputs s mask) := canon_foldl (fun _ _
    hc1 => canon_armAccept hc1) hc

theorem canon_stopOutput {s : State} {k : Nat} (hc : Canon s) : Canon (stopOutput s k) := canon_ite (canon_ite
    (canon_putOut (canon_putOut (canon_setBit hc))) (canon_plsDone (canon_putOut (canon_setBit hc)))) (canon_putOut
    (canon_setBit hc))

theorem canon_stopOutputs {s : State} {mask : Nat} (hc : Canon s) : Canon (stopOutputs s mask) := canon_foldl (fun _
    _ hc1 => canon_stopOutput hc1) hc

theorem canon_writeOutCfg {s : State} {k v : Nat} (hc : Canon s) : Canon (writeOutCfg s k v) := canon_ite (canon_wr
    hc) (canon_ite (canon_stopOutput (canon_wr hc)) (canon_plsIdle (canon_stopOutput (canon_wr hc))))

theorem canon_emitEdge {s : State} {k : Nat} {rising : Bool} {t : Nat} (hc : Canon s) : Canon (emitEdge s k rising t)
    := canon_emit hc

theorem canon_startBursts {s : State} {k n t : Nat} (hc : Canon s) : Canon (startBursts s k n t) := by
  unfold startBursts
  refine canon_foldl (fun _ _ hc1 => ?_) hc
  split
  · exact canon_ite (canon_putOut hc1) hc1
  · exact hc1

theorem canon_countPulse {s : State} {k : Nat} {p : PlsSet} {t : Nat} (hc : Canon s) : Canon (countPulse s k p t) :=
    canon_ite (canon_putOut hc) (canon_putOut hc)

theorem canon_missPulse {s : State} {k : Nat} {p : PlsSet} {t : Nat} (hc : Canon s) : Canon (missPulse s k p t) :=
    canon_ite (canon_plsDone (canon_countPulse (canon_plsEvent (canon_addMissed hc)))) (canon_countPulse
    (canon_plsEvent (canon_addMissed hc)))

theorem canon_emitRise {s : State} {k : Nat} {p : PlsSet} {t : Nat} (hc : Canon s) : Canon (emitRise s k p t) :=
    canon_startBursts (canon_ite (canon_plsEvent (canon_setBit (canon_setBit (canon_setPlsState (canon_putOut
    (canon_emitEdge (canon_pmcEvent (canon_addFired hc)))))))) (canon_setBit (canon_setPlsState (canon_putOut
    (canon_emitEdge (canon_pmcEvent (canon_addFired hc)))))))

theorem canon_riseGrid {s : State} {k : Nat} {p : PlsSet} {t : Nat} (hc : Canon s) : Canon (riseGrid s k p t) :=
    canon_ite (canon_missPulse hc) (canon_countPulse (canon_emitRise hc))

theorem canon_riseBurst {s : State} {k : Nat} {p : PlsSet} {t : Nat} (hc : Canon s) : Canon (riseBurst s k p t) :=
    canon_ite (canon_putOut hc) (canon_ite (canon_missPulse hc) (canon_countPulse (canon_emitRise hc)))

theorem canon_dropExt {s : State} {k : Nat} (hc : Canon s) : Canon (dropExt s k) := canon_plsEvent (canon_wr hc)

theorem canon_setDepth {s : State} {k : Nat} (hc : Canon s) : Canon (setDepth s k) := canon_setFld hc

theorem canon_riseExt {s : State} {k : Nat} {p : PlsSet} {t : Nat} (hc : Canon s) : Canon (riseExt s k p t) :=
    canon_ite (canon_dropExt (canon_setDepth (canon_putOut hc))) (canon_emitRise (canon_setDepth (canon_putOut hc)))

theorem canon_endPulse {s : State} {k : Nat} {p : PlsSet} {t : Nat} (hc : Canon s) : Canon (endPulse s k p t) := by
  unfold endPulse
  dsimp only
  split
  · exact canon_takeSet (canon_setBit (canon_putOut (canon_emitEdge hc)))
  · exact canon_ite (canon_ite (canon_plsDone (canon_setBit (canon_putOut (canon_emitEdge hc)))) (canon_plsIdle
      (canon_plsDone (canon_setBit (canon_putOut (canon_emitEdge hc)))))) (canon_setBit (canon_putOut (canon_emitEdge
      hc)))

theorem canon_plsFall {s : State} {k : Nat} (hc : Canon s) : Canon (plsFall s k) := by
  unfold plsFall
  refine canon_ite hc ?_
  split
  · exact canon_ite (canon_endPulse hc) hc
  · exact hc

theorem canon_fallFirst {s : State} {k : Nat} (hc : Canon s) : Canon (fallFirst s k) := by
  unfold fallFirst
  split
  · exact canon_ite (canon_plsFall hc) hc
  · exact hc

theorem canon_plsRise {s : State} {k : Nat} (hc : Canon s) : Canon (plsRise s k) := by
  unfold plsRise
  refine canon_ite hc ?_
  dsimp only
  split
  · exact canon_fallFirst hc
  · refine canon_ite (canon_fallFirst hc) ?_
    refine canon_ite ?_ ?_
    · split
      · exact canon_ite (canon_riseExt (canon_fallFirst hc)) (canon_fallFirst hc)
      · exact canon_fallFirst hc
    · split
      · exact canon_ite (canon_ite (canon_riseBurst (canon_fallFirst hc)) (canon_riseGrid (canon_fallFirst hc)))
          (canon_fallFirst hc)
      · exact canon_fallFirst hc

theorem canon_extRequest {s : State} {k fire : Nat} (hc : Canon s) : Canon (extRequest s k fire) := by
  unfold extRequest
  split
  · exact hc
  · exact canon_ite hc (canon_ite (canon_dropExt hc) (canon_ite (canon_dropExt hc) (canon_setDepth (canon_putOut
      hc))))

theorem canon_shiftNow {s : State} {k : Nat} {p : PlsSet} {t : Nat} {e : Int} (hc : Canon s) : Canon (shiftNow s k p
    t e) := canon_ite (canon_missPulse (canon_putOut hc)) (canon_putOut hc)

theorem canon_edgeError {s : State} (hc : Canon s) : Canon (edgeError s).2 := by
  unfold edgeError
  exact canon_draw hc

theorem canon_pulseError {s : State} {k : Nat} {p : PlsSet} {x : Nat} (hc : Canon s) : Canon (pulseError s k p x).2
    := by
  unfold pulseError
  exact canon_edgeError hc

theorem canon_shiftGrid {s : State} {k : Nat} {p : PlsSet} {x : Nat} {e : Int} (hc : Canon s) : Canon (shiftGrid s k
    p x e) := by
  unfold shiftGrid
  split
  · exact canon_ite (canon_shiftNow hc) (canon_putOut hc)
  · exact hc

theorem canon_plsAlign {s : State} {k : Nat} {falling : Bool} {late : Nat} (hc : Canon s) :
    Canon (plsAlign s k falling late) := by
  unfold plsAlign
  split
  · exact hc
  next p _ =>
    have h := canon_pulseError (k := k) (p := p) (x := tbAt s p.base late) hc
    dsimp only
    generalize pulseError s k p _ = q at h ⊢
    exact canon_ite (canon_ite (canon_putOut (canon_putOut (canon_wr h))) (canon_shiftGrid (canon_putOut (canon_wr h)))) hc

theorem canon_alignDue {s : State} {t k : Nat} (hc : Canon s) : Canon (alignDue s t k) := by
  unfold alignDue
  split
  · exact canon_ite (canon_plsEvent (canon_setBit (canon_putOut hc))) hc
  · exact hc

theorem canon_alignsDue {s : State} {t : Nat} (hc : Canon s) : Canon (alignsDue s t) := canon_foldl (fun _ _ hc1 =>
    canon_alignDue hc1) hc

theorem canon_skipBurst {s0 s : State} {k : Nat} {p : PlsSet} {t x : Nat} (hcs : Canon s) : Canon
    (skipBurst s0 s k p t x) := canon_ite (canon_putOut hcs) (canon_plsEvent (canon_addMissed (canon_putOut hcs)))

theorem canon_skipEdges {s0 s : State} {k : Nat} {p : PlsSet} {t : Nat} (hcs : Canon s) : Canon
    (skipEdges s0 s k p t) := by
  unfold skipEdges
  split
  · exact hcs
  · exact canon_ite hcs (canon_ite (canon_skipBurst hcs) (canon_ite (canon_plsEvent (canon_addMissed
      (canon_putOut hcs))) (canon_plsEvent (canon_addMissed (canon_putOut hcs)))))

theorem canon_skipQueue {s : State} {k t : Nat} {drop : Bool} (hc : Canon s) : Canon (skipQueue s k t drop) :=
    canon_ite hc (canon_ite (canon_plsEvent (canon_wr (canon_setDepth (canon_putOut hc)))) (canon_plsEvent
    (canon_addMissed (canon_setDepth (canon_putOut hc)))))

theorem canon_closeSchedule {s : State} {k : Nat} {p : PlsSet} (hc : Canon s) : Canon (closeSchedule s k p) :=
    canon_ite (canon_plsDone hc) hc

theorem canon_hurryFall {s : State} {k t : Nat} (hc : Canon s) : Canon (hurryFall s k t) := by
  unfold hurryFall
  dsimp only
  split
  · exact canon_ite (canon_putOut hc) hc
  · exact hc

theorem canon_pulseStep {s0 : State} {n : Nat} {forward : Bool} (hc : Canon s0) : Canon (pulseStep s0 n forward) := by
  unfold pulseStep
  refine canon_foldl (fun _ _ hc1 => ?_) hc
  split
  · exact canon_ite (canon_plsEvent (canon_ite (canon_closeSchedule (canon_skipQueue (canon_skipEdges
      (canon_hurryFall (canon_putOut hc1))))) (canon_putOut hc1))) hc1
  · exact hc1

theorem canon_gapFall {s : State} {k : Nat} (hc : Canon s) : Canon (gapFall s k) := by
  unfold gapFall
  split
  · exact canon_ite (canon_plsEvent (canon_endPulse hc)) hc
  · exact hc

theorem canon_pulseGapEnd {s0 : State} (hc : Canon s0) : Canon (pulseGapEnd s0) := by
  unfold pulseGapEnd
  refine canon_foldl (fun _ _ hc1 => ?_) hc
  dsimp only
  split
  · exact canon_ite (canon_closeSchedule (canon_skipQueue (canon_skipEdges (canon_ite (canon_plsEvent
      (canon_gapFall hc1)) (canon_gapFall hc1))))) (canon_gapFall hc1)
  · exact canon_gapFall hc1

theorem canon_finishPulses {s : State} (hc : Canon s) : Canon (finishPulses s) := by
  unfold finishPulses
  refine canon_foldl (fun _ _ hc1 => ?_) hc
  split
  · exact canon_emitEdge hc1
  · exact hc1

end Sys2Proof.Machine
end

section
/-! Canonical form, kept by the operations of `Machine/Tdc`. -/

namespace Sys2Proof.Machine

theorem canon_setTdcState {s : State} {i st : Nat} (hc : Canon s) : Canon (setTdcState s i st) := canon_setFld hc

theorem canon_tdcEvent {s : State} {i mask : Nat} (hc : Canon s) : Canon (tdcEvent s i mask) := canon_event hc

theorem canon_statAbort {s : State} {i : Nat} (hc : Canon s) : Canon (statAbort s i) := canon_ite (canon_tdcEvent
    (canon_setBit hc)) hc

theorem canon_statGo {s : State} {i : Nat} (hc : Canon s) : Canon (statGo s i) := canon_putTdc (canon_wr (canon_wr
    (canon_setBit (canon_setBit hc))))

theorem canon_statFinish {s : State} {i : Nat} (hc : Canon s) : Canon (statFinish s i) := by
  have h : Canon (if (2 * (s.tdc i).sum) % (2 * s.rd (A.TDC_CH_N_USED i)) = s.rd (A.TDC_CH_N_USED i) then s.draw
      else (0, s)).2 := by
    split
    · exact canon_draw hc
    · exact hc
  unfold statFinish
  exact canon_tdcEvent (canon_setBit (canon_setBit (canon_wr64 (canon_wr64 (canon_wr (canon_wr64 h))))))

theorem canon_statAdd {s : State} {i x : Nat} (hc : Canon s) : Canon (statAdd s i x) := canon_ite (canon_statFinish
    (canon_wr (canon_putTdc hc))) (canon_wr (canon_putTdc hc))

theorem canon_statTake {s : State} {i : Nat} {m : Meas} (hc : Canon s) : Canon (statTake s i m) := by
  unfold statTake
  refine canon_ite hc ?_
  split
  · exact canon_ite (canon_addSat hc) (canon_statAdd hc)
  · exact canon_addSat hc

theorem canon_tdcArm {s : State} {i : Nat} (hc : Canon s) : Canon (tdcArm s i) := canon_stop (canon_setTdcState hc)

theorem canon_measStart {s : State} {i raw : Nat} (hc : Canon s) : Canon (measStart s i raw) := canon_ite
    (canon_setTdcState (canon_putTdc hc)) (canon_start (canon_setTdcState (canon_putTdc hc)))

theorem canon_measEnd {s : State} {i : Nat} (hc : Canon s) : Canon (measEnd s i) := by
  unfold measEnd
  refine canon_ite ?_ ?_
  · refine canon_stop ?_
    refine canon_statAbort ?_
    refine canon_setTdcState ?_
    refine canon_stop ?_
    split
    · exact canon_putTdc hc
    · exact hc
  · refine canon_ite ?_ ?_
    · refine canon_start ?_
      refine canon_setTdcState ?_
      refine canon_stop ?_
      split
      · exact canon_putTdc hc
      · exact hc
    · refine canon_setTdcState ?_
      refine canon_stop ?_
      split
      · exact canon_putTdc hc
      · exact hc

theorem canon_gateActive {s : State} {i raw : Nat} (hc : Canon s) : Canon (gateActive s i raw) := canon_ite
    (canon_tdcEvent (canon_putTdc (canon_ite (canon_measEnd hc) hc))) (canon_ite (canon_measStart (canon_ite
    (canon_tdcArm (canon_putTdc (canon_ite (canon_measEnd hc) hc))) (canon_putTdc (canon_ite (canon_measEnd hc)
    hc)))) (canon_ite (canon_tdcArm (canon_putTdc (canon_ite (canon_measEnd hc) hc))) (canon_putTdc (canon_ite
    (canon_measEnd hc) hc))))

theorem canon_dropLate {s : State} {i raw : Nat} (hc : Canon s) : Canon (dropLate s i raw) := by
  unfold dropLate
  split
  · exact canon_ite (canon_ite (canon_draw hc) (canon_ite (canon_putTdc (canon_draw hc)) (canon_putTdc (canon_draw
      hc)))) hc
  · exact hc

theorem canon_gateInactive {s : State} {i raw : Nat} (hc : Canon s) : Canon (gateInactive s i raw) := canon_ite hc
    (canon_ite (canon_measEnd (canon_dropLate hc)) (canon_ite (canon_setTdcState hc) (canon_stop hc)))

theorem canon_gateMoved {s : State} {g raw : Nat} (hc : Canon s) : Canon (gateMoved s g raw) := canon_ite hc
    (canon_foldl (fun _ _ hc1 => canon_ite (canon_ite (canon_gateActive hc1) (canon_gateInactive hc1)) hc1) hc)

theorem canon_setGatePin {s : State} {g : Nat} {high : Bool} (hc : Canon s) : Canon (setGatePin s g high) := hc

theorem canon_gateEdge {s : State} {g : Nat} {high : Bool} {fine : Nat} (hc : Canon s) : Canon (gateEdge s g high
    fine) := canon_ite (canon_setGatePin hc) (canon_gateMoved (canon_setGatePin hc))

theorem canon_writeGateCfg {s : State} {v : Nat} (hc : Canon s) : Canon (writeGateCfg s v) := canon_foldl (fun _ _
    hc1 => canon_gateMoved hc1) (canon_wr hc)

theorem canon_takeStop {s : State} {i raw : Nat} {falling : Bool} (hc : Canon s) : Canon (takeStop s i raw falling)
    := by
  unfold takeStop
  split
  · exact hc
  · exact canon_ite (canon_tdcEvent hc) (canon_ite (canon_measEnd (canon_putTdc hc)) (canon_putTdc hc))

theorem canon_channelEdge {s : State} {i j raw : Nat} {falling taken : Bool} (hc : Canon s) : Canon (channelEdge s i
    j raw falling taken) := canon_ite hc (canon_ite (canon_measEnd hc) (canon_ite (canon_ite (canon_takeStop hc) hc)
    (canon_ite (canon_ite (canon_measStart hc) hc) hc)))

theorem canon_inputEdge {s : State} {j : Nat} {falling taken : Bool} {fine : Nat} (hc : Canon s) : Canon (inputEdge s
    j falling taken fine) := canon_ite hc (canon_foldl (fun _ _ hc1 => canon_channelEdge hc1) hc)

theorem canon_windowEnd {s : State} {i : Nat} (hc : Canon s) : Canon (windowEnd s i) := canon_ite (canon_measEnd hc)
    hc

theorem canon_tdcRearm {s : State} {i : Nat} (hc : Canon s) : Canon (tdcRearm s i) := canon_ite (canon_ite
    (canon_tdcArm hc) (canon_stop hc)) hc

theorem canon_softArm {s : State} {i : Nat} (hc : Canon s) : Canon (softArm s i) := canon_ite (canon_tdcArm hc) hc

theorem canon_softAbort {s : State} {i : Nat} (hc : Canon s) : Canon (softAbort s i) := canon_ite hc (canon_ite
    (canon_measEnd hc) (canon_ite (canon_setTdcState hc) hc))

theorem canon_tdcRetire {s : State} {i : Nat} (hc : Canon s) : Canon (tdcRetire s i) := canon_statAbort
    (canon_tdcEvent (canon_setTdcState (canon_stop (canon_stop (canon_putTdc (canon_with_retiredTdc hc))))))

theorem canon_storeStops {s : State} {i : Nat} {m : Meas} (hc : Canon s) : Canon (storeStops s i m) := by
  unfold storeStops
  refine canon_foldl (fun _ _ hc1 => ?_) hc
  split
  · exact canon_wr (canon_wr hc1)
  · exact canon_wr (canon_wr hc1)

theorem canon_storeMeas {s : State} {i : Nat} {m : Meas} (hc : Canon s) : Canon (storeMeas s i m) := by
  have h := canon_storeStops (i := i) (m := m) (canon_wrTime (a := A.TDC_CH_START_W2 i) (t := m.start) hc)
  unfold storeMeas
  cases m.gate with
  | some g => exact canon_statTake (canon_pmcEvent (canon_tdcEvent (canon_wr (canon_wr h))))
  | none => exact canon_statTake (canon_pmcEvent (canon_tdcEvent (canon_wr (canon_wr (canon_draw h)))))

theorem canon_measStore {s : State} {i : Nat} {agree : Bool} (hc : Canon s) : Canon (measStore s i agree) := by
  unfold measStore
  split
  · exact hc
  · exact canon_ite (canon_storeMeas (canon_putTdc hc)) (canon_ite (canon_tdcRetire (canon_tdcEvent (canon_putTdc
      (canon_putTdc hc)))) (canon_tdcEvent (canon_putTdc (canon_putTdc hc))))

theorem canon_tdcUnretire {s : State} {mask : Nat} (hc : Canon s) : Canon (tdcUnretire s mask) := canon_foldl (fun _
    _ hc1 => canon_ite (canon_ite (canon_setTdcState (canon_putTdc (canon_with_retiredTdc hc1))) (canon_ite
    (canon_tdcArm (canon_putTdc (canon_with_retiredTdc hc1))) (canon_setTdcState (canon_putTdc (canon_with_retiredTdc
    hc1))))) hc1) hc

theorem canonOpt_writeTdcCfg {s : State} {i v : Nat} (hc : Canon s) : CanonOpt (writeTdcCfg s i v) := canonOpt_ite
    canonOpt_none (canonOpt_some (canon_ite (canon_wr hc) (canon_ite (canon_stop (canon_setTdcState (canon_wr hc)))
    (canon_ite (canon_tdcArm (canon_wr hc)) (canon_ite (canon_tdcArm (canon_wr hc)) (canon_stop (canon_setTdcState
    (canon_wr hc))))))))

theorem canon_tdcStep {s : State} {n : Nat} (hc : Canon s) : Canon (tdcStep s n) := by
  unfold tdcStep
  refine canon_foldl (fun _ _ hc1 => ?_) hc
  split
  · exact canon_ite (canon_putTdc hc1) hc1
  · exact hc1

theorem canon_tdcGap {s : State} (hc : Canon s) : Canon (tdcGap s) := by
  unfold tdcGap
  refine canon_foldl (fun _ _ hc1 => ?_) hc
  split
  · exact canon_putTdc hc1
  · exact hc1

theorem canon_tdcGapEnd {s : State} (hc : Canon s) : Canon (tdcGapEnd s) := canon_foldl (fun _ _ hc1 => canon_ite hc1
    (canon_ite (canon_ite (canon_tdcArm hc1) hc1) (canon_gateInactive hc1))) hc

theorem canon_keepDac {s : State} {i : Nat} (hc : Canon s) : Canon (keepDac s i) := canon_putTdc hc

theorem canon_tdcHold {s : State} {i : Nat} (hc : Canon s) : Canon (tdcHold s i) := canon_ite (canon_start
    (canon_setBit hc)) (canon_statAbort (canon_stop (canon_setTdcState (canon_setBit hc))))

theorem canon_tdcRelease {s : State} {i : Nat} (hc : Canon s) : Canon (tdcRelease s i) := canon_ite (canon_stop
    (canon_setBit (canon_putTdc hc))) (canon_ite (canon_setTdcState (canon_stop (canon_setBit (canon_putTdc hc))))
    (canon_ite (canon_tdcArm (canon_stop (canon_setBit (canon_putTdc hc)))) (canon_setTdcState (canon_stop
    (canon_setBit (canon_putTdc hc))))))

end Sys2Proof.Machine
end

section
/-! Canonical form, kept by the operations of `Machine/Redundancy`. -/

namespace Sys2Proof.Machine

theorem canon_tcoEvent {s : State} {mask : Nat} (hc : Canon s) : Canon (tcoEvent s mask) := canon_event hc

theorem canon_setCore {s : State} {c st : Nat} (hc : Canon s) : Canon (setCore s c st) := canon_ite (canon_setFld hc)
    (canon_setFld hc)

theorem canon_addCoreFail {s : State} {c : Nat} (hc : Canon s) : Canon (addCoreFail s c) := canon_ite (canon_addSat
    hc) (canon_addSat hc)

theorem canon_coreFail {s : State} {c : Nat} (hc : Canon s) : Canon (coreFail s c) := canon_tcoEvent (canon_stop
    (canon_addCoreFail (canon_setCore (canon_with_tco hc))))

theorem canon_coresEnter {s : State} (hc : Canon s) : Canon (coresEnter s) := canon_ite (canon_setCore hc) hc

theorem canon_coreSync {s : State} {c : Nat} (hc : Canon s) : Canon (coreSync s c) := canon_setCore (canon_with_tco
    hc)

theorem canon_coreInit {s : State} {c : Nat} {ok : Bool} (hc : Canon s) : Canon (coreInit s c ok) := canon_ite hc
    (canon_ite (canon_coreFail hc) (canon_ite (canon_coreSync hc) (canon_ite hc (canon_setFld (canon_setCore hc)))))

theorem canon_setMisses {s : State} {n : Nat} (hc : Canon s) : Canon (setMisses s n) := hc

theorem canon_trackJudge {s : State} {c : Nat} {h : Int} (hc : Canon s) : Canon (trackJudge s c h) := canon_ite
    (canon_ite (canon_ite hc (canon_start hc)) (canon_stop hc)) (canon_ite (canon_setMisses hc) (canon_ite
    (canon_tcoEvent (canon_setCore (canon_setMisses hc))) (canon_setMisses hc)))

theorem canon_trackMeasure {s : State} {drift : Int} (hc : Canon s) : Canon (trackMeasure s drift) := by
  unfold trackMeasure
  split
  · exact hc
  · exact canon_ite hc (canon_trackJudge (canon_wr (canon_with_tco hc)))

theorem canon_coreTracked {s : State} (hc : Canon s) : Canon (coreTracked s) := by
  unfold coreTracked
  split
  · exact canon_ite (canon_tcoEvent (canon_setCore (canon_setMisses (canon_stop hc)))) hc
  · exact hc

theorem canon_carryError {s : State} (hc : Canon s) : Canon (carryError s) := canon_foldl (fun _ _ hc1 =>
    canon_moveAcc hc1) (canon_with_tco hc)

theorem canon_holdOutputs {s : State} (hc : Canon s) : Canon (holdOutputs s) := canon_foldl (fun _ _ hc1 => canon_ite
    hc1 (canon_putSyn (canon_draw hc1))) hc

theorem canon_takeOver {s : State} {cause : Nat} (hc : Canon s) : Canon (takeOver s cause) := canon_setMisses
    (canon_holdOutputs (canon_ite (canon_tcoEvent (canon_ite (canon_coreSync (canon_setBit (canon_setFld
    (canon_setCore (canon_stop (canon_tdcGap (canon_pmcEvent (canon_setBit (canon_setFld (canon_addSat (canon_wrTime
    (canon_with_tco hc)))))))))))) (canon_coreFail (canon_setBit (canon_setFld (canon_setCore (canon_stop
    (canon_tdcGap (canon_pmcEvent (canon_setBit (canon_setFld (canon_addSat (canon_wrTime (canon_with_tco
    hc)))))))))))))) (canon_ite (canon_coreSync (canon_setBit (canon_setFld (canon_setCore (canon_stop (canon_tdcGap
    (canon_pmcEvent (canon_setBit (canon_setFld (canon_addSat (canon_wrTime (canon_with_tco hc))))))))))))
    (canon_coreFail (canon_setBit (canon_setFld (canon_setCore (canon_stop (canon_tdcGap (canon_pmcEvent
    (canon_setBit (canon_setFld (canon_addSat (canon_wrTime (canon_with_tco hc)))))))))))))))

theorem canon_degrade {s : State} {unlocked : Bool} (hc : Canon s) : Canon (degrade s unlocked) := canon_ite
    (canon_coreFail (canon_setBit (canon_with_tco hc))) (canon_tcoEvent (canon_setBit (canon_addCoreFail
    (canon_setCore (canon_with_tco hc)))))

theorem canon_activeFails {s : State} {cause : Nat} (hc : Canon s) : Canon (activeFails s cause) := canon_ite hc
    (canon_ite (canon_takeOver hc) (canon_degrade hc))

theorem canon_followStep {s : State} {n : Nat} {d : Int} (hc : Canon s) : Canon (followStep s n d) := canon_tdcStep
    (canon_pulseStep (canon_applyStep hc))

theorem canon_settleSteps {s : State} (hc : Canon s) : Canon (settleSteps s) := by
  unfold settleSteps
  refine canon_foldl (fun _ _ hc1 => ?_) hc
  split
  · exact canon_ite hc1 (canon_followStep hc1)
  · exact hc1

theorem canon_synGapEnd {s : State} {len : Nat} (hc : Canon s) : Canon (synGapEnd s len) := by
  unfold synGapEnd
  refine canon_foldl (fun _ _ hc1 => ?_) hc
  refine canon_ite ?_ (canon_ite (canon_rampStart (canon_synEvent hc1)) hc1)
  dsimp only
  split
  · exact canon_with_timers (canon_putSyn hc1)
  · exact canon_putSyn hc1

theorem canon_gapEnd {s : State} (hc : Canon s) : Canon (gapEnd s) := canon_ite hc (canon_tdcGapEnd
    (canon_settleSteps (canon_foldl (fun _ _ hc1 => canon_decideWaiting hc1) (canon_pulseGapEnd (canon_synGapEnd
    (canon_carryError (canon_tcoEvent (canon_with_tco (canon_setFld (canon_setBit hc))))))))))

theorem canon_noteTestFail {s : State} {c item : Nat} (hc : Canon s) : Canon (noteTestFail s c item) := canon_setFld
    (canon_with_tco hc)

theorem canon_selftest {s : State} {item : Nat} {first second : Bool} (hc : Canon s) : Canon (selftest s item first
    second) := by
  unfold selftest
  split
  · exact hc
  · exact canon_ite hc (canon_ite (canon_setFld (canon_ite hc (canon_ite (canon_coreFail (canon_noteTestFail hc))
      (canon_ite (canon_coreFail (canon_tcoEvent (canon_noteTestFail hc))) (canon_tcoEvent (canon_noteTestFail
      hc)))))) (canon_ite hc (canon_ite (canon_coreFail (canon_noteTestFail hc)) (canon_ite (canon_coreFail
      (canon_tcoEvent (canon_noteTestFail hc))) (canon_tcoEvent (canon_noteTestFail hc))))))

theorem canon_coreRepair {s : State} {c : Nat} (hc : Canon s) : Canon (coreRepair s c) := canon_ite (canon_setCore
    (canon_with_tco hc)) hc

theorem canon_autoRepair {s : State} {c : Nat} (hc : Canon s) : Canon (autoRepair s c) := canon_ite (canon_coreRepair
    hc) hc

end Sys2Proof.Machine
end

section
/-! Canonical form, kept by the operations of `Machine/PortBase`. -/

namespace Sys2Proof.Machine

theorem canon_portEvent {s : State} {p mask : Nat} (hc : Canon s) : Canon (portEvent s p mask) := canon_event hc

end Sys2Proof.Machine
end

section
/-! Canonical form, kept by the operations of `Machine/Cal`. -/

namespace Sys2Proof.Machine

theorem canon_calEvent {s : State} {mask : Nat} (hc : Canon s) : Canon (calEvent s mask) := canon_event hc

theorem canon_setCalState {s : State} {st : Nat} (hc : Canon s) : Canon (setCalState s st) := canon_setFld hc

theorem canon_setTrim {s : State} {kind sub index : Nat} {r : TrimRec} (hc : Canon s) : Canon (setTrim s kind sub
    index r) := hc

theorem canon_calRelease {s : State} (hc : Canon s) : Canon (calRelease s) := canon_setFld (canon_setFld (canon_ite
    (canon_tdcRelease (canon_with_cal hc)) (canon_ite (canon_setBit (canon_with_cal hc)) (canon_with_cal hc))))

theorem canon_noteReject {s : State} {kind index cause : Nat} (hc : Canon s) : Canon (noteReject s kind index cause)
    := canon_calEvent (canon_addSat (canon_wr hc))

theorem canon_calHold {s : State} {kind index : Nat} (hc : Canon s) : Canon (calHold s kind index) := canon_ite
    (canon_tdcHold (canon_setFld (canon_setFld (canon_setCalState (canon_with_cal hc))))) (canon_ite (canon_tdcHold
    (canon_keepDac (canon_setFld (canon_setFld (canon_setCalState (canon_with_cal hc)))))) (canon_ite (canon_setBit
    (canon_setFld (canon_setFld (canon_setCalState (canon_with_cal hc))))) (canon_setFld (canon_setFld
    (canon_setCalState (canon_with_cal hc))))))

theorem canon_calNextOf {s : State} {x0 : List (Nat × Nat)} (hc : Canon s) : Canon (calNextOf s x0) := by
  induction x0 generalizing s with
  | nil => exact canon_calEvent (canon_setCalState (canon_with_cal hc))
  | cons x l ih => exact canon_ite (canon_calHold (canon_with_cal hc)) (ih (canon_noteReject hc))

theorem canon_calWait {s : State} {st : Nat} (hc : Canon s) : Canon (calWait s st) := canon_setCalState
    (canon_with_cal hc)

theorem canon_calNext {s : State} (hc : Canon s) : Canon (calNext s) := canon_ite (canon_calWait hc) (canon_calNextOf
    hc)

theorem canon_calGo {s : State} (hc : Canon s) : Canon (calGo s) := canon_calNext (canon_wr (canon_with_cal hc))

theorem canon_calAbort {s : State} (hc : Canon s) : Canon (calAbort s) := canon_ite hc (canon_calEvent
    (canon_setCalState (canon_with_cal (canon_calRelease hc))))

theorem canon_calReject {s : State} {cause : Nat} (hc : Canon s) : Canon (calReject s cause) := canon_calNext
    (canon_noteReject (canon_calRelease hc))

theorem canon_drawTemp {s : State} (hc : Canon s) : Canon (drawTemp s).2 := by
  unfold drawTemp
  exact canon_draw hc

theorem canon_noteOk {s : State} {temp : Nat} (hc : Canon s) : Canon (noteOk s temp) := canon_calEvent (canon_addSat
    (canon_wr hc))

theorem canon_calInstall {s : State} {values : List (Nat × Word)} (hc : Canon s) : Canon (calInstall s values) :=
    canon_calNext (canon_noteOk (canon_calRelease (canon_ite (canon_laneEvent (canon_foldl (fun _ _ hc1 =>
    canon_setTrim hc1) (canon_drawTemp hc))) (canon_foldl (fun _ _ hc1 => canon_setTrim hc1) (canon_drawTemp hc)))))

theorem canon_keepBad {s : State} {bad : Nat} (hc : Canon s) : Canon (keepBad s bad) := canon_ite hc (canon_setTrim
    hc)

theorem canon_decideLane {s : State} {l : List (Nat × Int × Int)} (hc : Canon s) : Canon (decideLane s l) := by
  unfold decideLane
  dsimp only
  split
  · exact canon_calReject (canon_keepBad hc)
  · exact canon_ite (canon_calInstall (canon_keepBad hc)) (canon_calReject (canon_keepBad hc))

theorem canon_decideBins {s : State} {a b : List Int} (hc : Canon s) : Canon (decideBins s a b) := canon_ite
    (canon_calReject hc) (canon_ite (canon_calInstall hc) (canon_calReject hc))

theorem canon_decideOne {s : State} {a b : Int} (hc : Canon s) : Canon (decideOne s a b) := canon_ite
    (canon_calReject hc) (canon_ite (canon_calReject hc) (canon_ite (canon_setCalState (canon_with_cal
    (canon_drawTemp hc))) (canon_calInstall hc)))

theorem canon_calDecide {s : State} {a b : List Int} (hc : Canon s) : Canon (calDecide s a b) := canon_ite
    (canon_decideLane hc) (canon_ite (canon_decideBins hc) (canon_decideOne hc))

theorem canon_calPrecondition {s : State} (hc : Canon s) : Canon (calPrecondition s) := canon_ite (canon_calReject
    hc) hc

theorem canon_calMeasured {s : State} {v : List Int} (hc : Canon s) : Canon (calMeasured s v) := by
  unfold calMeasured
  refine canon_ite hc ?_
  refine canon_ite (canon_calReject hc) ?_
  refine canon_ite hc ?_
  split
  · exact canon_with_cal hc
  · exact canon_calDecide hc

theorem canon_calPulseInstall {s : State} {k : Nat} (hc : Canon s) : Canon (calPulseInstall s k) := by
  unfold calPulseInstall
  split
  · exact hc
  · exact canon_ite (canon_calNext (canon_noteOk (canon_calRelease (canon_setTrim hc)))) hc

theorem canon_calBusyOut {s : State} (hc : Canon s) : Canon (calBusyOut s) := canon_ite (canon_calReject hc) hc

theorem canon_calGapBegin {s : State} (hc : Canon s) : Canon (calGapBegin s) := canon_ite (canon_ite (canon_calReject
    hc) (canon_calWait (canon_with_cal hc))) (canon_ite (canon_calWait hc) hc)

theorem canon_calGapEnd {s : State} (hc : Canon s) : Canon (calGapEnd s) := canon_ite hc (canon_ite
    (canon_setCalState hc) (canon_calNext hc))

theorem canon_calDegraded {s : State} (hc : Canon s) : Canon (calDegraded s) := canon_ite (canon_calAbort hc) hc

theorem canon_trimLoad {s : State} {c0 c1 : List Nat} (hc : Canon s) : Canon (trimLoad s c0 c1) := canon_setBit
    (canon_wr (canon_wr (canon_with_trims (canon_with_cal hc))))

theorem canon_saveIssue {s : State} {c wide narrow off : Nat} {b : List Nat} (hc : Canon s) : Canon (saveIssue s c
    wide narrow off b) := by
  unfold saveIssue
  split
  · exact hc
  · exact canon_emit (canon_emit (canon_emit hc))

theorem canon_saveNext {s : State} {c g : Nat} (hc : Canon s) : Canon (saveNext s c g) := canon_ite (canon_start
    (canon_saveIssue hc)) (canon_ite (canon_start (canon_saveIssue hc)) (canon_ite (canon_start (canon_saveIssue hc))
    (canon_stop hc)))

theorem canon_saveTimer {s : State} (hc : Canon s) : Canon (saveTimer s) := by
  unfold saveTimer
  split
  · exact canon_saveNext hc
  · exact hc

theorem canon_saveStart {s : State} (hc : Canon s) : Canon (saveStart s) := canon_setBit (canon_saveTimer
    (canon_with_cal hc))

theorem canon_saveFail {s : State} (hc : Canon s) : Canon (saveFail s) := by
  unfold saveFail
  split
  · exact hc
  · exact canon_calEvent (canon_stop (canon_setBit (canon_with_cal hc)))

theorem canon_saveCopyDone {s : State} {c : Nat} {l : List Nat} (hc : Canon s) : Canon (saveCopyDone s c l) :=
    canon_ite (canon_calEvent (canon_stop (canon_setBit (canon_wr (canon_with_cal hc))))) (canon_saveTimer
    (canon_with_cal hc))

theorem canon_saveStep {s : State} {ok : Bool} (hc : Canon s) : Canon (saveStep s ok) := by
  unfold saveStep
  split
  · exact hc
  · exact canon_ite hc (canon_ite (canon_ite (canon_saveFail hc) hc) (canon_ite (canon_saveCopyDone hc)
      (canon_saveTimer (canon_with_cal hc))))

theorem canon_saveTimeout {s : State} (hc : Canon s) : Canon (saveTimeout s) := canon_ite (canon_saveFail hc) hc

end Sys2Proof.Machine
end

section
/-! Canonical form, kept by the operations of `Machine/Stamps`. -/

namespace Sys2Proof.Machine

theorem canon_portChanged {s : State} {p : Nat} (hc : Canon s) : Canon (portChanged s p) := hc

end Sys2Proof.Machine
end

section
/-! Canonical form, kept by the operations of `Machine/Ptp`. -/

namespace Sys2Proof.Machine

theorem canon_putPtp {s : State} {p : Nat} {h : PtpHidden} (hc : Canon s) : Canon (putPtp s p h) := hc

theorem canon_ptpEvent {s : State} {p mask : Nat} (hc : Canon s) : Canon (ptpEvent s p mask) := canon_event hc

theorem canon_setDlyOk {s : State} {p : Nat} {b : Bool} (hc : Canon s) : Canon (setDlyOk s p b) := canon_setBit hc

theorem canon_ptpRestart {s : State} {p : Nat} (hc : Canon s) : Canon (ptpRestart s p) := canon_wr (canon_wr
    (canon_setDlyOk (canon_putPtp hc)))

theorem canon_portSample {s : State} {p tsq : Nat} {theta : Int} (hc : Canon s) : Canon (portSample s p tsq theta).1
    := by
  unfold portSample
  split
  · split
    · exact canon_ptpEvent (canon_add64 hc)
    · exact canon_wr (canon_add64 hc)
  · exact hc

theorem canon_ptpDiscard {s : State} {p : Nat} (hc : Canon s) : Canon (ptpDiscard s p) := canon_add64 hc

theorem canon_ptpMessage {s : State} {p : Nat} {b kinds : List Nat} {f : State → State} (hc : Canon s) (hf : ∀ s,
    Canon s → Canon (f s)) : Canon (ptpMessage s p b kinds f) := canon_ite hc (canon_ite (canon_ptpDiscard hc)
    (canon_ite (hf _ hc) hc))

theorem canon_syncSample {s : State} {p : Nat} {t1 : Int} {st : RxStamp} (hc : Canon s) : Canon (syncSample s p t1
    st) := canon_ite (canon_phaseSample (canon_portSample (canon_putPtp hc))) (canon_portSample (canon_putPtp hc))

theorem canon_ptpSync {s : State} {p : Nat} {b follow : List Nat} {st : RxStamp} (hc : Canon s) : Canon (ptpSync s p
    b follow st) := canon_ptpMessage hc (fun _ hc1 => canon_ite (canon_syncSample hc1) (canon_ptpMessage hc1 (fun _
    hc2 => canon_ite (canon_syncSample hc2) hc2)))

theorem canon_delayReg {s : State} {d : Int} (hc : Canon s) : Canon (delayReg s d).2 := by
  unfold delayReg
  split
  · exact canon_draw hc
  · exact hc

theorem canon_delayExchange {s : State} {p : Nat} {t4 : Int} (hc : Canon s) : Canon (delayExchange s p t4) := by
  unfold delayExchange
  dsimp only
  split
  · exact canon_ite (canon_ite (canon_wr (canon_wr (canon_delayReg (canon_delayReg (canon_setDlyOk (canon_putPtp
      hc)))))) (canon_setDlyOk (canon_putPtp hc))) (canon_ptpEvent (canon_ite (canon_wr (canon_wr (canon_delayReg
      (canon_delayReg (canon_setDlyOk (canon_putPtp hc)))))) (canon_setDlyOk (canon_putPtp hc))))
  · exact hc

theorem canon_ptpDelayResp {s : State} {p : Nat} {b : List Nat} (hc : Canon s) : Canon (ptpDelayResp s p b) :=
    canon_ptpMessage hc (fun _ hc1 => canon_ite (canon_delayExchange hc1) hc1)

theorem canon_ptpUnsupported {s : State} {p : Nat} {b : List Nat} (hc : Canon s) : Canon (ptpUnsupported s p b) :=
  canon_ptpMessage hc fun _ h => h

theorem canon_setL1 {s : State} {p v : Nat} (hc : Canon s) : Canon (setL1 s p v) := canon_ite hc (canon_ptpEvent
    (canon_setFld hc))

theorem canon_drawL1 {s : State} {p : Nat} (hc : Canon s) : Canon (drawL1 s p) := canon_setL1 (canon_draw hc)

theorem canon_ptpGeneral {s : State} {p : Nat} {m : List Byte} (hc : Canon s) : Canon (ptpGeneral s p m) :=
    canon_ptpMessage hc (fun _ hc1 => canon_ite (canon_drawL1 (canon_putPtp hc1)) (canon_putPtp hc1))

theorem canon_writePtpCfg {s : State} {p v : Nat} (hc : Canon s) : Canon (writePtpCfg s p v) := canon_ite (canon_ite
    (canon_tbPortLost (canon_ptpRestart (canon_setL1 (canon_setFld (canon_wr hc))))) (canon_ptpRestart (canon_setL1
    (canon_setFld (canon_wr hc))))) (canon_ite (canon_setL1 (canon_ite (canon_wr hc) (canon_ptpRestart (canon_wr
    hc)))) (canon_ite (canon_ite (canon_wr hc) (canon_ptpRestart (canon_wr hc))) (canon_drawL1 (canon_ite (canon_wr
    hc) (canon_ptpRestart (canon_wr hc))))))

theorem canon_bmcaStates {s : State} {l : List (Fin 64 × Fin 10)} (hc : Canon s) : Canon (bmcaStates s l) :=
    canon_foldl (fun _ _ hc1 => canon_ite (canon_setFld hc1) hc1) hc

theorem canon_movePort {s : State} {p : Nat} (hc : Canon s) : Canon (movePort s p) := canon_ite (canon_setFld hc)
    (canon_ite (canon_enterHoldover (canon_clearTheta (canon_setFld hc))) (canon_clearTheta (canon_setFld hc)))

theorem canon_bmca {s : State} {port : Option (Fin 64)} {l : List (Fin 64 × Fin 10)} (hc : Canon s) : Canon (bmca s
    port l) := by
  unfold bmca
  dsimp only
  split
  · exact canon_ite (canon_movePort (canon_bmcaStates hc)) (canon_ite (canon_enterHoldover (canon_bmcaStates hc))
      (canon_bmcaStates hc))
  · exact canon_ite (canon_enterHoldover (canon_bmcaStates hc)) (canon_bmcaStates hc)

theorem canon_phaseMeasure {s : State} {p phase : Nat} {ppt : Int} (hc : Canon s) : Canon (phaseMeasure s p phase
    ppt) := canon_ite (canon_wr (canon_wr hc)) (canon_wr hc)

end Sys2Proof.Machine
end

section
/-! Canonical form, kept by the operations of `Machine/Buffers`. -/

namespace Sys2Proof.Machine

theorem canon_putFrame {s : State} {f : Frame} (hc : Canon s) : Canon (putFrame s f) := hc

theorem canon_addFrame {s : State} {f : Frame} (hc : Canon s) : Canon (addFrame s f) := hc

theorem canon_freshId {s : State} (hc : Canon s) : Canon (freshId s).2 := hc

theorem canon_movePkt {s : State} {k : Pkt} (hc : Canon s) : Canon (movePkt s k) := hc

theorem canon_frontPkts {s : State} {l : List Pkt} (hc : Canon s) : Canon (frontPkts s l) := hc

theorem canon_putPkt {s : State} {k : Pkt} (hc : Canon s) : Canon (putPkt s k) := hc

theorem canon_dropPkt {s : State} {id : Nat} (hc : Canon s) : Canon (dropPkt s id) := hc

theorem canon_grantWrite {req : Nat} {s : State} {b : Nat} (hc : Canon s) : Canon (grantWrite req s b) := hc

theorem canon_grantRead {req : Nat} {s : State} {b : Nat} (hc : Canon s) : Canon (grantRead req s b) := hc

theorem canon_writeCells {s : State} {req n : Nat} (hc : Canon s) : Canon (writeCells s req n).2 := canon_foldl (fun
    _ _ hc1 => canon_grantWrite hc1) hc

theorem canon_writeFrame {s : State} {f : Frame} (hc : Canon s) : Canon (writeFrame s f).2 := by
  unfold writeFrame
  exact canon_ite (canon_pmcEvent (canon_writeCells hc)) (canon_writeCells hc)

theorem canon_storeFrame {s : State} {f : Frame} {p : Pool} (hc : Canon s) : Canon (storeFrame s f p) := canon_ite
    (canon_putFrame (canon_writeFrame hc)) (canon_putFrame hc)

theorem canon_qmEvent {s : State} {mask : Nat} (hc : Canon s) : Canon (qmEvent s mask) := canon_event hc

theorem canon_dbfEvent {s : State} {mask : Nat} (hc : Canon s) : Canon (dbfEvent s mask) := canon_event hc

theorem canon_slag {s : State} {cause : Nat} (hc : Canon s) : Canon (slag s cause) := canon_pmcEvent (canon_add64 hc)

theorem canon_putPg {s : State} {g : Nat} {h : PgHidden} (hc : Canon s) : Canon (putPg s g h) := hc

theorem canon_putEg {s : State} {p : Nat} {h : EgressHidden} (hc : Canon s) : Canon (putEg s p h) := hc

theorem canon_putPort {s : State} {p : Nat} {h : PortHidden} (hc : Canon s) : Canon (putPort s p h) := hc

theorem canon_putTrunk {s : State} {p : Nat} {h : TrunkHidden} (hc : Canon s) : Canon (putTrunk s p h) := hc

theorem canon_emitPfc {s : State} {p c quanta : Nat} (hc : Canon s) : Canon (emitPfc s p c quanta) := canon_ite
    (canon_add64 (canon_emit hc)) (canon_start (canon_add64 (canon_emit hc)))

theorem canon_servePfc {s : State} {p : Nat} (hc : Canon s) : Canon (servePfc s p) := by
  unfold servePfc
  split
  · exact hc
  · exact canon_ite hc (canon_emitPfc (canon_putEg hc))

theorem canon_sendPfc {s : State} {p c quanta : Nat} (hc : Canon s) : Canon (sendPfc s p c quanta) := canon_servePfc
    (canon_putEg hc)

theorem canon_countSent {s : State} {p n : Nat} (hc : Canon s) : Canon (countSent s p n) := canon_pmcEvent
    (canon_pmcEvent hc)

theorem canon_addRecord {s : State} {p c : Nat} {r : StreamRec} (hc : Canon s) : Canon (addRecord s p c r) :=
    canon_putTrunk hc

theorem canon_emitAction {s : State} {p : Nat} {d : List Byte} (hc : Canon s) : Canon (emitAction s p d) := canon_ite
    (canon_addRecord (canon_countSent (canon_emit hc))) (canon_countSent (canon_emit hc))

theorem canon_serveControl {s : State} {p : Nat} (hc : Canon s) : Canon (serveControl s p) := by
  unfold serveControl
  dsimp only
  split
  · exact canon_ite (canon_emitAction (canon_putEg (canon_servePfc hc))) (canon_servePfc hc)
  · exact canon_ite (canon_emit (canon_putEg (canon_servePfc hc))) (canon_servePfc hc)
  · exact canon_servePfc hc

theorem canon_releaseWithheld {s : State} {p c : Nat} (hc : Canon s) : Canon (releaseWithheld s p c) := canon_ite
    (canon_putTrunk hc) (canon_putTrunk hc)

theorem canon_releaseBlock {s : State} {p : Nat} {b : HeldBlock} (hc : Canon s) : Canon (releaseBlock s p b) :=
    canon_ite (canon_putTrunk hc) (canon_putTrunk hc)

theorem canon_releaseReady {s : State} {p : Nat} (hc : Canon s) : Canon (releaseReady s p) := canon_ite hc
    (canon_foldl (fun _ _ hc1 => canon_releaseBlock hc1) (canon_putTrunk hc))

theorem canon_pauseGroup {s : State} {g : Nat} (hc : Canon s) : Canon (pauseGroup s g) := canon_ite hc (canon_ite
    (canon_putPg hc) (canon_sendPfc (canon_putPg hc)))

theorem canon_resumeClass {s : State} {p c : Nat} (hc : Canon s) : Canon (resumeClass s p c) := canon_ite hc
    (canon_ite (canon_releaseWithheld hc) (canon_ite (canon_stop (canon_sendPfc hc)) hc))

theorem canon_resumeGroup {s : State} {g : Nat} (hc : Canon s) : Canon (resumeGroup s g) := canon_resumeClass
    (canon_putPg hc)

theorem canon_refreshPg {s : State} {g : Nat} (hc : Canon s) : Canon (refreshPg s g) := canon_ite hc (canon_ite hc
    (canon_ite (canon_pauseGroup hc) (canon_resumeGroup hc)))

theorem canon_refreshGlobal {s : State} (hc : Canon s) : Canon (refreshGlobal s) := canon_ite (canon_ite
    (canon_qmEvent (canon_with_buf hc)) (canon_with_buf hc)) (canon_foldl (fun _ _ hc1 => canon_refreshPg hc1)
    (canon_ite (canon_qmEvent (canon_with_buf (canon_ite (canon_qmEvent (canon_with_buf hc)) (canon_with_buf hc))))
    (canon_with_buf (canon_ite (canon_qmEvent (canon_with_buf hc)) (canon_with_buf hc)))))

theorem canon_refreshPressure {s : State} {g : Nat} (hc : Canon s) : Canon (refreshPressure s g) :=
    canon_releaseReady (canon_refreshPg (canon_refreshGlobal hc))

theorem canon_pgLeave {s : State} {g k : Nat} (hc : Canon s) : Canon (pgLeave s g k) := canon_ite hc (canon_putPg hc)

theorem canon_freeFrame {s : State} {fid : Nat} (hc : Canon s) : Canon (freeFrame s fid) := by
  unfold freeFrame
  split
  · exact hc
  · exact canon_ite hc (canon_ite (canon_refreshPressure (canon_pgLeave (canon_pmcEvent (canon_ite (canon_pmcEvent
      (canon_with_buf hc)) (canon_with_buf hc))))) (canon_releaseReady (canon_refreshGlobal (canon_ite
      (canon_pmcEvent (canon_with_buf hc)) (canon_with_buf hc)))))

theorem canon_refreshTier {s : State} {e q : Nat} (hc : Canon s) : Canon (refreshTier s e q) := canon_ite hc
    (canon_with_buf hc)

theorem canon_removePkt {s : State} {k : Pkt} (hc : Canon s) : Canon (removePkt s k) := by
  unfold removePkt
  refine canon_freeFrame ?_
  refine canon_refreshTier ?_
  split
  · exact canon_ite (canon_refreshPressure (canon_pgLeave (canon_pmcEvent (canon_dropPkt hc)))) (canon_pmcEvent
      (canon_dropPkt hc))
  · exact canon_dropPkt hc

end Sys2Proof.Machine
end

section
/-! Canonical form, kept by the operations of `Machine/Lld`. -/

namespace Sys2Proof.Machine

theorem canon_lldEvent {s : State} {mask : Nat} (hc : Canon s) : Canon (lldEvent s mask) := canon_event hc

theorem canon_trunkStep {s : State} {d : Int} (hc : Canon s) : Canon (trunkStep s d) := hc

theorem canon_lldLog {s : State} {sent : Bool} {cause : Nat} {f : Frame} {e tgt late : Nat} {aon : Bool} (hc : Canon
    s) : Canon (lldLog s sent cause f e tgt late aon) := canon_setFld (canon_setFld (canon_wr (canon_wr (canon_wr
    (canon_wr (canon_wrTime (canon_wr hc)))))))

theorem canon_countCause {s : State} {c : Nat} (hc : Canon s) : Canon (countCause s c) := canon_pmcEvent (canon_add64
    hc)

theorem canon_ldlDrop {s : State} {p : Nat} (hc : Canon s) : Canon (ldlDrop s p) := canon_event (canon_add64 hc)

theorem canon_countDrop {s : State} {e cause slagCause : Nat} (hc : Canon s) : Canon (countDrop s e cause slagCause)
    := canon_lldEvent (canon_slag (canon_add64 (canon_countCause hc)))

theorem canon_countWithheld {s : State} {e : Nat} (hc : Canon s) : Canon (countWithheld s e) := canon_lldEvent
    (canon_slag (canon_add64 (canon_countCause hc)))

theorem canon_endAon {s : State} {fid : Nat} (hc : Canon s) : Canon (endAon s fid) := hc

theorem canon_aonCommit {s : State} {f : Frame} {a : AonHidden} (hc : Canon s) : Canon (aonCommit s f a) := by
  unfold aonCommit
  dsimp only
  split
  · refine canon_foldl (fun _ _ hc1 => ?_) (canon_endAon hc)
    split
    · exact canon_putPkt hc1
    · exact hc1
  · exact canon_foldl (fun _ _ hc1 => canon_removePkt (canon_countWithheld hc1)) (canon_lldLog (canon_endAon hc))

theorem canon_aonSeen {s : State} {f : Frame} {e cause tgt : Nat} (hc : Canon s) : Canon (aonSeen s f e cause tgt) :=
    by
  unfold aonSeen
  split
  · exact hc
  · exact canon_ite (canon_aonCommit hc) (canon_with_buf hc)

theorem canon_aonFails {s : State} {fid e cause tgt : Nat} (hc : Canon s) : Canon (aonFails s fid e cause tgt) := hc

theorem canon_dropOverdue {s : State} {k : Pkt} {f : Frame} {w : LlInfo} {cause slagCause : Nat} (hc : Canon s) :
    Canon (dropOverdue s k f w cause slagCause) := canon_lldLog (canon_removePkt (canon_lldEvent (canon_slag
    (canon_add64 (canon_ite (canon_countCause hc) hc)))))

theorem canon_lldDrop {s : State} {k : Pkt} {cause slagCause : Nat} (hc : Canon s) : Canon (lldDrop s k cause
    slagCause) := by
  unfold lldDrop
  split
  · exact hc
  · split
    · exact canon_dropOverdue hc
    · dsimp only
      split
      · exact canon_ite (canon_aonFails (canon_ite (canon_lldEvent (canon_removePkt (canon_countDrop hc)))
          (canon_removePkt (canon_countDrop hc)))) (canon_aonSeen (canon_ite (canon_lldEvent (canon_removePkt
          (canon_countDrop hc))) (canon_removePkt (canon_countDrop hc))))
      · exact canon_ite (canon_lldEvent (canon_lldLog (canon_ite (canon_lldEvent (canon_removePkt (canon_countDrop
          hc))) (canon_removePkt (canon_countDrop hc))))) (canon_lldLog (canon_ite (canon_lldEvent (canon_removePkt
          (canon_countDrop hc))) (canon_removePkt (canon_countDrop hc))))

theorem canon_lldMiss {s : State} {k : Pkt} {w : LlInfo} {cause : Nat} (hc : Canon s) : Canon (lldMiss s k w cause)
    := canon_ite (canon_putPkt hc) (canon_ite (canon_putPkt (canon_countCause hc)) (canon_lldDrop (canon_putPkt hc)))

theorem canon_reserveAt {s : State} {k : Pkt} {f : Frame} {w : LlInfo} (hc : Canon s) : Canon (reserveAt s k f w) :=
    canon_ite (canon_ite (canon_aonSeen (canon_putPkt hc)) (canon_lldDrop hc)) (canon_ite (canon_putPkt hc)
    (canon_lldMiss hc))

theorem canon_reserveLate {s : State} {k : Pkt} {f : Frame} {w : LlInfo} (hc : Canon s) : Canon (reserveLate s k f w)
    := by
  unfold reserveLate
  refine canon_ite hc ?_
  split
  · exact canon_putPkt hc
  · exact hc

theorem canon_lldReserve {s : State} {p : Nat} (hc : Canon s) : Canon (lldReserve s p) := by
  unfold lldReserve
  split
  · exact hc
  · split
    · exact canon_ite (canon_reserveLate hc) (canon_reserveAt hc)
    · exact hc

theorem canon_pruneWindows {s : State} (hc : Canon s) : Canon (pruneWindows s) := hc

theorem canon_lldExpire {s : State} {p : Nat} (hc : Canon s) : Canon (lldExpire s p) := by
  unfold lldExpire
  refine canon_foldl (fun _ _ hc1 => ?_) hc
  split
  · exact canon_dropOverdue hc1
  · exact hc1

theorem canon_reshare {s : State} {k : Pkt} (hc : Canon s) : Canon (reshare s k) := by
  unfold reshare
  split
  · exact hc
  · exact canon_ite (canon_lldDrop hc) hc

theorem canon_lldStep {s : State} {x : Nat} {d : Int} (hc : Canon s) : Canon (lldStep s x d) := canon_foldl (fun _ _
    hc1 => canon_reshare hc1) (canon_trunkStep (canon_with_buf hc))

end Sys2Proof.Machine
end

section
/-! Canonical form, kept by the operations of `Machine/Spread`. -/

namespace Sys2Proof.Machine

theorem canon_sprEvent {s : State} {mask : Nat} (hc : Canon s) : Canon (sprEvent s mask) := canon_event hc

theorem canon_takeNumber {s : State} {g c : Nat} (hc : Canon s) : Canon (takeNumber s g c).2 := by
  unfold takeNumber
  exact canon_with_buf hc

theorem canon_restartFlows {s : State} {g : Nat} (hc : Canon s) : Canon (restartFlows s g) := hc

theorem canon_setMember {s : State} {g b : Nat} {m : Option Nat} (hc : Canon s) : Canon (setMember s g b m) := hc

theorem canon_beginHold {s : State} {g b old : Nat} {eff : Option Nat} (hc : Canon s) : Canon (beginHold s g b old
    eff) := canon_start (canon_add64 (canon_with_buf hc))

theorem canon_markMoved {s : State} {g b : Nat} (hc : Canon s) : Canon (markMoved s g b) := hc

theorem canon_releaseHold {s : State} {g b : Nat} (hc : Canon s) : Canon (releaseHold s g b) := canon_frontPkts
    (canon_stop (canon_with_buf hc))

theorem canon_checkBucket {s : State} {g b : Nat} (hc : Canon s) : Canon (checkBucket s g b) := by
  unfold checkBucket
  dsimp only
  split
  · exact canon_ite hc (canon_ite (canon_setMember (canon_markMoved (canon_releaseHold hc))) (canon_setMember
      (canon_start (canon_with_buf hc))))
  · refine canon_ite hc ?_
    split
    · exact canon_setMember hc
    · exact canon_ite (canon_setMember hc) (canon_ite (canon_setMember (canon_markMoved hc)) (canon_setMember
        (canon_beginHold hc)))

theorem canon_refreshMigration {s : State} (hc : Canon s) : Canon (refreshMigration s) := canon_foldl (fun _ _ hc1 =>
    canon_checkBucket hc1) hc

theorem canon_countMoved {s : State} {n : Nat} (hc : Canon s) : Canon (countMoved s n) := canon_ite hc
    (canon_sprEvent (canon_add64 hc))

theorem canon_dropNoMember {s : State} {k : Pkt} (hc : Canon s) : Canon (dropNoMember s k) := canon_removePkt
    (canon_sprEvent (canon_slag (canon_add64 hc)))

theorem canon_memberLeaves {s : State} {g m : Nat} (hc : Canon s) : Canon (memberLeaves s g m) := canon_sprEvent
    (canon_setBit (canon_setBit hc))

end Sys2Proof.Machine
end

section
/-! Canonical form, kept by the operations of `Machine/Egress`. -/

namespace Sys2Proof.Machine

theorem canon_refillPort {s : State} {p : Nat} (hc : Canon s) : Canon (refillPort s p) := canon_putEg hc

theorem canon_deduct {s : State} {p c n : Nat} (hc : Canon s) : Canon (deduct s p c n) := canon_putEg
    (canon_refillPort hc)

theorem canon_trunkRecord {s : State} {p c : Nat} {ll : Bool} {off : Nat} {bytes : List Nat} (hc : Canon s) : Canon
    (trunkRecord s p c ll off bytes) := canon_addRecord hc

theorem canon_startTx {s : State} {k : Pkt} {f : Frame} {t off : Nat} (hc : Canon s) : Canon (startTx s k f t off) :=
    canon_ite (canon_trunkRecord (canon_ite (canon_add64 (canon_countSent (canon_emit (canon_putEg (canon_foldl (fun
    _ _ hc1 => canon_grantRead hc1) (canon_putPkt hc)))))) (canon_countSent (canon_emit (canon_putEg (canon_foldl
    (fun _ _ hc1 => canon_grantRead hc1) (canon_putPkt hc))))))) (canon_ite (canon_add64 (canon_countSent (canon_emit
    (canon_putEg (canon_foldl (fun _ _ hc1 => canon_grantRead hc1) (canon_putPkt hc)))))) (canon_countSent
    (canon_emit (canon_putEg (canon_foldl (fun _ _ hc1 => canon_grantRead hc1) (canon_putPkt hc))))))

theorem canon_egressSelect {s : State} {p : Nat} (hc : Canon s) : Canon (egressSelect s p) := by
  unfold egressSelect
  refine canon_ite (canon_serveControl hc) ?_
  split
  · exact canon_serveControl hc
  · split
    · exact canon_serveControl hc
    · split
      · exact canon_serveControl hc
      · exact canon_startTx (canon_deduct (canon_putEg (canon_serveControl hc)))

theorem canon_eccSingle {s : State} (hc : Canon s) : Canon (eccSingle s) := canon_qmEvent (canon_add64 hc)

theorem canon_eccLost {s : State} (hc : Canon s) : Canon (eccLost s) := canon_qmEvent (canon_add64 hc)

theorem canon_eccDrop {s : State} {k : Pkt} {ll : Bool} (hc : Canon s) : Canon (eccDrop s k ll) := canon_ite
    (canon_lldDrop (canon_eccLost hc)) (canon_removePkt (canon_slag (canon_eccLost hc)))

theorem canon_withEcc {s : State} {ecc : Option EccFault} {k : Pkt} {ll : Bool} {next : State → State} (hc : Canon s)
    (hnext : ∀ s, Canon s → Canon (next s)) : Canon (withEcc s ecc k ll next) := by
  unfold withEcc
  split
  · exact hnext _ hc
  · exact hnext _ (canon_eccSingle hc)
  · exact canon_eccDrop hc

theorem canon_egressEcc {s : State} {p : Nat} {e : EccFault} (hc : Canon s) : Canon (egressEcc s p e) := by
  unfold egressEcc
  split
  · exact hc
  · exact canon_withEcc hc (fun _ hc1 => canon_egressSelect hc1)

theorem canon_restream {s : State} {p c : Nat} {good bad : List Byte} (hc : Canon s) : Canon (restream s p c good
    bad) := by
  unfold restream
  dsimp only
  split
  · exact hc
  · exact canon_ite (canon_putTrunk hc) hc

theorem canon_stompAs {s : State} {k : Pkt} {f g : Frame} (hc : Canon s) : Canon (stompAs s k f g) := canon_ite hc
    (canon_with_out (canon_ite (canon_restream (canon_add64 hc)) (canon_add64 hc)))

theorem canon_egressStomp {s : State} {p : Nat} (hc : Canon s) : Canon (egressStomp s p) := by
  unfold egressStomp
  split
  · exact hc
  · split
    · exact hc
    · exact canon_stompAs (canon_eccLost hc)

theorem canon_cutFrame {s : State} {f : Frame} {drop : State → Pkt → State} (hc : Canon s) (hdrop : ∀ s k, Canon s →
    Canon (drop s k)) : Canon (cutFrame s f drop) := canon_refreshGlobal (canon_foldl (fun _ _ hc2 => canon_ite
    (canon_ite hc2 (canon_stompAs hc2)) (hdrop _ _ hc2)) (canon_putFrame (canon_ite (canon_openBytes hc)
    (canon_pmcEvent (canon_openBytes hc)))))

theorem canon_dropCut {s : State} {k : Pkt} (hc : Canon s) : Canon (dropCut s k) := canon_ite (canon_lldDrop hc)
    (canon_removePkt hc)

theorem canon_departFrame {s : State} {p : Nat} (hc : Canon s) : Canon (departFrame s p) := by
  unfold departFrame
  dsimp only
  split
  · exact canon_serveControl (canon_putEg hc)
  · refine canon_serveControl ?_
    refine canon_removePkt ?_
    split
    · exact canon_ite (canon_cutFrame (canon_putEg hc) (fun _ _ hc1 => canon_dropCut hc1)) (canon_putEg hc)
    · exact canon_putEg hc

theorem canon_startPoint {s : State} {p t : Nat} (hc : Canon s) : Canon (startPoint s p t).2 := by
  unfold startPoint
  split
  · exact hc
  · exact canon_draw (canon_draw hc)

theorem canon_holdWindow {s : State} {p stop : Nat} (hc : Canon s) : Canon (holdWindow s p stop) := canon_putEg hc

theorem canon_windowStart {s : State} {k : Pkt} {f : Frame} {w : LlInfo} (hc : Canon s) :
    Canon (windowStart s k f w) := by
  unfold windowStart
  extract_lets p _ u late lead
  have h1 : Canon u := canon_pruneWindows (canon_with_buf hc)
  clear_value u late lead
  have h2 := canon_startPoint (p := p) (t := if late then w.start + lead else w.tgt) h1
  generalize startPoint u p _ = x at h2 ⊢
  obtain ⟨⟨t, off⟩, v⟩ := x
  have h3 := canon_holdWindow (p := p) (stop := w.stop) (canon_startTx (k := k) (f := f) (t := t) (off := off)
    (s := v) h2)
  exact canon_ite (canon_lldLog (canon_lldEvent (canon_add64 h3))) (canon_ite (canon_lldLog (canon_lldEvent
    (canon_pmcEvent (canon_wr (canon_add64 h3))))) (canon_pmcEvent (canon_wr (canon_add64 h3))))

theorem canon_windowOpen {s : State} {p : Nat} {ecc : Option EccFault} (hc : Canon s) : Canon (windowOpen s p ecc) :=
    by
  unfold windowOpen
  split
  · exact hc
  · split
    · exact canon_ite (canon_lldDrop hc) (canon_ite (canon_lldMiss hc) (canon_ite (canon_lldMiss hc) (canon_ite
        (canon_lldMiss hc) (canon_withEcc hc (fun _ hc1 => canon_windowStart hc1)))))
    · exact hc

end Sys2Proof.Machine
end

section
/-! Canonical form, kept by the operations of `Machine/Queues`. -/

namespace Sys2Proof.Machine

theorem canon_countDown {s : State} {p : Nat} (hc : Canon s) : Canon (countDown s p) := canon_add64 hc

theorem canon_dropDown {s : State} {k : Pkt} {f : Frame} (hc : Canon s) : Canon (dropDown s k f) := canon_ite
    (canon_lldDrop (canon_ite (canon_ldlDrop (canon_countDown hc)) (canon_countDown hc))) (canon_removePkt
    (canon_slag (canon_ite (canon_ldlDrop (canon_countDown hc)) (canon_countDown hc))))

theorem canon_uncount {s : State} {f : Frame} (hc : Canon s) : Canon (uncount s f) := hc

theorem canon_enqueue {s : State} {k : Pkt} {f : Frame} (hc : Canon s) : Canon (enqueue s k f) := by
  unfold enqueue
  split
  · refine canon_ite (canon_movePkt (canon_takeNumber hc)) ?_
    refine canon_movePkt ?_
    split
    · exact canon_setMember hc
    · exact hc
  · exact canon_movePkt hc

theorem canon_charge {s : State} {f : Frame} {first : Bool} {p : Pool} (hc : Canon s) : Canon (charge s f first p) :=
    canon_ite (canon_pmcEvent (canon_uncount (canon_storeFrame hc))) hc

theorem canon_admitCru {s : State} {k : Pkt} {f : Frame} {min shared : Nat} {holds : Bool} (hc : Canon s) : Canon
    (admitCru s k f min shared holds) := canon_refreshPressure (canon_enqueue (canon_charge hc))

theorem canon_setSpill {s : State} {e q : Nat} (hc : Canon s) : Canon (setSpill s e q) := canon_ite hc
    (canon_with_buf hc)

theorem canon_admitDeep {s : State} {k : Pkt} {f : Frame} {headroom : Bool} (hc : Canon s) :
    Canon (admitDeep s k f headroom) := by
  have h : Canon (if firstEver s f && !f.banks.isEmpty then (f.banks, s) else writeFrame s f).2 := by
    split
    · exact hc
    · exact canon_writeFrame hc
  unfold admitDeep
  dsimp only
  generalize (if firstEver s f && !f.banks.isEmpty then (f.banks, s) else writeFrame s f) = x at h ⊢
  exact canon_enqueue (canon_ite (canon_ite (canon_pmcEvent (canon_uncount (canon_putFrame h))) h)
    (canon_pmcEvent (canon_ite (canon_pmcEvent (canon_uncount (canon_putFrame h))) h)))

theorem canon_admitHeadroom {s : State} {k : Pkt} {f : Frame} (hc : Canon s) : Canon (admitHeadroom s k f) :=
    canon_ite (canon_refreshPressure (canon_ite (canon_admitDeep (canon_pauseGroup (canon_ite (canon_putPg hc) hc)))
    (canon_enqueue (canon_charge (canon_pauseGroup (canon_ite (canon_putPg hc) hc)))))) (canon_releaseReady
    (canon_refreshGlobal (canon_ite (canon_admitDeep (canon_pauseGroup (canon_ite (canon_putPg hc) hc)))
    (canon_enqueue (canon_charge (canon_pauseGroup (canon_ite (canon_putPg hc) hc)))))))

theorem canon_refuse {s : State} {k : Pkt} {f : Frame} (hc : Canon s) : Canon (refuse s k f) := canon_ite
    (canon_removePkt (canon_qmEvent (canon_slag (canon_ite (canon_ldlDrop hc) hc)))) (canon_removePkt (canon_slag
    (canon_ite (canon_ldlDrop hc) hc)))

theorem canon_admitRefused {s : State} {k : Pkt} {f : Frame} (hc : Canon s) : Canon (admitRefused s k f) := canon_ite
    (canon_admitHeadroom hc) (canon_refuse hc)

theorem canon_admitSpill {s : State} {k : Pkt} {f : Frame} (hc : Canon s) : Canon (admitSpill s k f) := canon_ite
    (canon_refreshPressure (canon_admitDeep hc)) (canon_admitRefused hc)

theorem canon_admitQueue {s : State} {k : Pkt} {f : Frame} (hc : Canon s) : Canon (admitQueue s k f) := canon_ite
    (canon_admitSpill hc) (canon_ite (canon_admitCru hc) (canon_ite (canon_admitCru hc) (canon_ite (canon_admitSpill
    (canon_setSpill hc)) (canon_admitRefused hc))))

theorem canon_admitLl {s : State} {k : Pkt} {f : Frame} (hc : Canon s) : Canon (admitLl s k f) := canon_ite
    (canon_releaseReady (canon_enqueue (canon_charge hc))) (canon_lldDrop (canon_ite (canon_ldlDrop hc) hc))

theorem canon_cutThrough {s : State} {k : Pkt} {f : Frame} (hc : Canon s) : Canon (cutThrough s k f) := by
  unfold cutThrough
  split
  · exact canon_ite (canon_removePkt hc) hc
  · exact canon_startTx (canon_deduct (canon_pmcEvent (canon_add64 hc)))

theorem canon_admitAt {s : State} {k : Pkt} {f : Frame} (hc : Canon s) : Canon (admitAt s k f) := canon_ite
    (canon_dropDown hc) (canon_ite (canon_ite (canon_aonSeen (canon_countCause (canon_removePkt (canon_sprEvent
    (canon_slag (canon_add64 hc)))))) (canon_removePkt (canon_sprEvent (canon_slag (canon_add64 hc))))) (canon_ite
    (canon_ite (canon_removePkt hc) (canon_admitLl hc)) (canon_ite (canon_removePkt hc) (canon_ite (canon_cutThrough
    (canon_admitQueue hc)) (canon_admitQueue hc)))))

theorem canon_noMember {s : State} {k : Pkt} {f : Frame} (hc : Canon s) : Canon (noMember s k f) := canon_ite
    (canon_aonSeen (canon_countCause (canon_dropNoMember hc))) (canon_dropNoMember hc)

theorem canon_admitPinned {s : State} {k : Pkt} {f : Frame} {g : Nat} (hc : Canon s) :
    Canon (admitPinned s k f g) := by
  have h := canon_checkBucket (g := g) (b := bucketOf s g f) hc
  unfold admitPinned
  dsimp only
  split
  · exact canon_noMember h
  · split
    · exact canon_ite (canon_refreshPressure (canon_movePkt (canon_ite (canon_storeFrame h) h)))
        (canon_markMoved (canon_releaseHold (canon_frontPkts h)))
    · exact canon_ite (canon_ite (canon_countMoved (canon_admitAt h)) (canon_admitAt h)) (canon_admitAt (canon_with_buf h))

theorem canon_admitLag {s : State} {k : Pkt} {f : Frame} {g : Nat} (hc : Canon s) : Canon (admitLag s k f g) := by
  unfold admitLag
  refine canon_ite (canon_noMember hc) ?_
  refine canon_ite ?_ (canon_admitPinned hc)
  split
  · exact canon_noMember hc
  · exact canon_admitAt (canon_setFld hc)

theorem canon_admitNext {s : State} (hc : Canon s) : Canon (admitNext s) := by
  unfold admitNext
  split
  · exact hc
  · split
    · exact canon_dropPkt hc
    · split
      · exact canon_admitAt hc
      · exact canon_admitLag hc
      · exact hc

theorem canon_cellData {s : State} {f : Frame} {i : Nat} (hc : Canon s) : Canon (cellData s f i).2 := by
  unfold cellData
  exact canon_openBytes hc

theorem canon_storedCell {s : State} {f : Frame} {i seq r : Nat} (hc : Canon s) : Canon (storedCell s f i seq r).2 :=
    by
  unfold storedCell
  exact canon_cellData hc

theorem canon_takeCellSeq {s : State} {qk : Nat} (hc : Canon s) : Canon (takeCellSeq s qk).2 := hc

theorem canon_cellWritten {s : State} {k : Pkt} {d : DeepCells} {f : Frame} {r : Nat} (hc : Canon s) :
    Canon (cellWritten s k d f r) := by
  have h1 := canon_takeCellSeq (qk := 17 * k.e + k.q) (canon_grantRead (req := 4) (b := d.stagedIn.headD 0) hc)
  unfold cellWritten
  dsimp only
  generalize takeCellSeq _ _ = x at h1 ⊢
  have h2 := canon_storedCell (f := f) (i := frameCells f - d.staged) (seq := x.1) (r := r) h1
  generalize storedCell _ _ _ _ _ = y at h2 ⊢
  exact canon_ite (canon_refreshPressure (canon_pgLeave (canon_pmcEvent (canon_pmcEvent (canon_add64 (canon_with_buf
    (canon_putPkt h2))))))) (canon_refreshGlobal (canon_pmcEvent (canon_pmcEvent (canon_add64 (canon_with_buf
    (canon_putPkt h2))))))

theorem canon_writeDeep {s : State} {r : Nat} {ecc : Option EccFault} (hc : Canon s) : Canon (writeDeep s r ecc) := by
  unfold writeDeep
  split
  · exact hc
  · split
    · exact hc
    · refine canon_ite hc ?_
      refine canon_ite (canon_dbfEvent hc) ?_
      split
      · exact canon_withEcc hc (fun _ hc1 => canon_cellWritten hc1)
      · exact hc

theorem canon_prefetchDeep {s : State} (hc : Canon s) : Canon (prefetchDeep s) := by
  unfold prefetchDeep
  split
  · exact hc
  · split
    · exact hc
    · split
      · exact hc
      · exact canon_ite hc (canon_pmcEvent (canon_add64 (canon_with_buf (canon_putPkt hc))))

theorem canon_retireRegion {s : State} {r : Nat} (hc : Canon s) : Canon (retireRegion s r) := canon_ite hc
    (canon_dbfEvent (canon_setFld (canon_with_retiredRegions (canon_setBit hc))))

theorem canon_failReread {s : State} {r : Nat} (hc : Canon s) : Canon (failReread s r) := canon_ite
    (canon_retireRegion (canon_add64 (canon_with_buf hc))) (canon_add64 (canon_with_buf hc))

theorem canon_lastErr {s : State} {cause r : Nat} (hc : Canon s) : Canon (lastErr s cause r) := canon_wr hc

theorem canon_cellBack {s : State} {k : Pkt} {d : DeepCells} (hc : Canon s) : Canon (cellBack s k d) := by
  unfold cellBack
  split
  next x0 u1 he =>
    have hc1 := canon_snd (canon_writeCells hc) he
    dsimp only
    split
    · exact canon_refreshPressure (canon_refreshTier (canon_pmcEvent (canon_putPkt hc1)))
    · exact canon_pmcEvent (canon_putPkt hc1)

theorem canon_readDeep {s : State} {e q : Nat} {reads : List CellRead} (hc : Canon s) : Canon (readDeep s e q reads)
    := by
  unfold readDeep
  split
  · exact hc
  · split
    · exact hc
    · split
      · exact hc
      · refine canon_ite hc ?_
        dsimp only
        split
        · exact canon_cellBack hc
        · exact canon_cellBack (canon_dbfEvent (canon_lastErr (canon_add64 (canon_pmcEvent hc))))
        · exact canon_cellBack (canon_dbfEvent (canon_lastErr (canon_add64 (canon_failReread (canon_pmcEvent hc)))))
        · exact canon_removePkt (canon_slag (canon_retireRegion (canon_dbfEvent (canon_lastErr (canon_add64
            (canon_failReread (canon_failReread (canon_pmcEvent hc))))))))

theorem canon_unretireRegion {s : State} {r : Nat} (hc : Canon s) : Canon (unretireRegion s r) := canon_ite hc
    (canon_setFld (canon_with_buf_retiredRegions (canon_setBit hc)))

theorem canon_quenchPkt {s : State} {p : Nat} {k : Pkt} (hc : Canon s) : Canon (quenchPkt s p k) := by
  unfold quenchPkt
  dsimp only
  split
  · exact canon_ite (canon_lldDrop (canon_ite (canon_ldlDrop (canon_add64 hc)) (canon_add64 hc))) (canon_removePkt
      (canon_slag (canon_ite (canon_ldlDrop (canon_add64 hc)) (canon_add64 hc))))
  · exact canon_removePkt (canon_ite (canon_ldlDrop (canon_add64 hc)) (canon_add64 hc))

theorem canon_flushPort {s : State} {p : Nat} {disable : Bool} (hc : Canon s) : Canon (flushPort s p disable) := by
  unfold flushPort
  refine canon_with_buf ?_
  refine canon_ite (canon_foldl (fun _ _ hc1 => canon_quenchPkt hc1) hc) ?_
  refine canon_putEg ?_
  split
  · exact canon_removePkt (canon_slag (canon_add64 (canon_ite (canon_ldlDrop (canon_foldl (fun _ _ hc1 =>
      canon_quenchPkt hc1) hc)) (canon_foldl (fun _ _ hc1 => canon_quenchPkt hc1) hc))))
  · exact canon_foldl (fun _ _ hc1 => canon_quenchPkt hc1) hc

end Sys2Proof.Machine
end

section
/-! Canonical form, kept by the operations of `Machine/Ports`. -/

namespace Sys2Proof.Machine

theorem canon_refreshPhase {s : State} {p : Nat} (hc : Canon s) : Canon (refreshPhase s p) := canon_ite (canon_setBit
    hc) hc

theorem canon_applyLanes {s : State} {p : Nat} (hc : Canon s) : Canon (applyLanes s p) := canon_refreshPhase
    (canon_foldl (fun _ _ hc1 => canon_setLaneRate hc1) hc)

theorem canon_trunkDown {s : State} {p : Nat} (hc : Canon s) : Canon (trunkDown s p) := canon_setBit (canon_wr
    (canon_wr (canon_putTrunk hc)))

theorem canon_setTypeEff {s : State} {p t : Nat} (hc : Canon s) : Canon (setTypeEff s p t) := canon_setFld (canon_ite
    (canon_trunkDown hc) hc)

theorem canon_setUsed {s : State} {p mask : Nat} (hc : Canon s) : Canon (setUsed s p mask) := canon_setFld hc

theorem canon_setPortState {s : State} {p st : Nat} (hc : Canon s) : Canon (setPortState s p st) := canon_setFld hc

theorem canon_setHold {s : State} {p c : Nat} (hc : Canon s) : Canon (setHold s p c) := canon_setFld hc

theorem canon_setDegraded {s : State} {p : Nat} {b : Bool} (hc : Canon s) : Canon (setDegraded s p b) := canon_setBit
    hc

theorem canon_takeType {s : State} {p t : Nat} (hc : Canon s) : Canon (takeType s p t) := canon_applyLanes
    (canon_setUsed (canon_setTypeEff hc))

theorem canon_lanesOff {s : State} {p : Nat} (hc : Canon s) : Canon (lanesOff s p) := canon_applyLanes (canon_setUsed
    (canon_setTypeEff hc))

theorem canon_refreshPending {s : State} {p : Nat} (hc : Canon s) : Canon (refreshPending s p) := canon_setBit hc

theorem canon_refreshQuench {s : State} (hc : Canon s) : Canon (refreshQuench s) := canon_foldl (fun _ _ hc1 =>
    canon_ite (canon_refreshPending hc1) hc1) hc

theorem canon_stopPort {s : State} {p : Nat} (hc : Canon s) : Canon (stopPort s p) := canon_stop (canon_stop
    (canon_stop (canon_stop (canon_stop (canon_stop (canon_stop (canon_stop (canon_stop hc))))))))

theorem canon_setStage {s : State} {p : Nat} {st : StepUp} (hc : Canon s) : Canon (setStage s p st) := canon_putPort
    hc

theorem canon_enterHeld {s : State} {p c : Nat} (hc : Canon s) : Canon (enterHeld s p c) := canon_portEvent
    (canon_ite (canon_start (canon_setHold (canon_setPortState (canon_stopPort hc)))) (canon_ite (canon_start
    (canon_applyLanes (canon_setUsed (canon_setTypeEff (canon_setStage (canon_setHold (canon_setPortState
    (canon_stopPort hc)))))))) (canon_lanesOff (canon_setStage (canon_setHold (canon_setPortState (canon_stopPort
    hc)))))))

theorem canon_sendPage {s : State} {p : Nat} (hc : Canon s) : Canon (sendPage s p) := canon_emit hc

theorem canon_startNrz {s : State} {p : Nat} (hc : Canon s) : Canon (startNrz s p) := canon_sendPage (canon_start
    (canon_applyLanes (canon_setUsed (canon_setTypeEff (canon_setHold (canon_setPortState (canon_stopPort
    (canon_putPort hc))))))))

theorem canon_startSlow {s : State} {p : Nat} (hc : Canon s) : Canon (startSlow s p) := canon_start (canon_takeType
    (canon_setStage (canon_stopPort hc)))

theorem canon_startAn {s : State} {p : Nat} (hc : Canon s) : Canon (startAn s p) := canon_applyLanes (canon_setUsed
    (canon_setTypeEff hc))

theorem canon_startTrunk {s : State} {p : Nat} (hc : Canon s) : Canon (startTrunk s p) := canon_ite (canon_setFld
    (canon_applyLanes (canon_setUsed (canon_setTypeEff (canon_setBit (canon_wr (canon_wr (canon_setL1 (canon_putTrunk
    hc))))))))) (canon_applyLanes (canon_setUsed (canon_setTypeEff (canon_setBit (canon_wr (canon_wr (canon_setL1
    (canon_putTrunk hc))))))))

theorem canon_markDegraded {s : State} {p t : Nat} (hc : Canon s) : Canon (markDegraded s p t) := canon_ite
    (canon_portEvent (canon_setDegraded hc)) hc

theorem canon_startBringup {s : State} {p : Nat} (hc : Canon s) : Canon (startBringup s p) := canon_ite
    (canon_enterHeld hc) (canon_ite (canon_startTrunk (canon_putPort (canon_setHold (canon_setPortState
    (canon_setStage (canon_stopPort hc)))))) (canon_ite (canon_startNrz (canon_putPort (canon_setHold
    (canon_setPortState (canon_setStage (canon_stopPort hc)))))) (canon_ite (canon_startAn (canon_putPort
    (canon_setHold (canon_setPortState (canon_setStage (canon_stopPort hc)))))) (canon_markDegraded (canon_takeType
    (canon_putPort (canon_setHold (canon_setPortState (canon_setStage (canon_stopPort hc))))))))))

theorem canon_parkPort {s : State} {p : Nat} (hc : Canon s) : Canon (parkPort s p) := canon_lanesOff (canon_setHold
    (canon_setPortState (canon_setStage (canon_stopPort hc))))

theorem canon_bringUp {s : State} {p : Nat} (hc : Canon s) : Canon (bringUp s p) := canon_ite (canon_startBringup hc)
    (canon_parkPort hc)

theorem canon_enterDisabled {s : State} {p : Nat} (hc : Canon s) : Canon (enterDisabled s p) := canon_lanesOff
    (canon_setBit (canon_setHold (canon_setPortState (canon_setStage (canon_stopPort hc)))))

theorem canon_resignal {s : State} {p : Nat} (hc : Canon s) : Canon (resignal s p) := canon_foldl (fun _ _ hc1 =>
    canon_ite (canon_sendPfc (canon_refreshPg hc1)) (canon_refreshPg hc1)) hc

theorem canon_upDegraded {s : State} {p : Nat} (hc : Canon s) : Canon (upDegraded s p) := canon_ite
    (canon_setDegraded hc) (canon_ite (canon_setDegraded hc) hc)

theorem canon_enterUp {s : State} {p : Nat} (hc : Canon s) : Canon (enterUp s p) := canon_refreshMigration
    (canon_resignal (canon_portEvent (canon_ptpRestart (canon_upDegraded (canon_setBit (canon_setHold
    (canon_setPortState (canon_setStage (canon_stopPort hc)))))))))

theorem canon_linkUp {s : State} {p : Nat} (hc : Canon s) : Canon (linkUp s p) := canon_ite (canon_enterUp hc) hc

theorem canon_dropPartial {s : State} {p : Nat} (hc : Canon s) : Canon (dropPartial s p) := canon_foldl (fun _ _ hc1
    => canon_cutFrame hc1 (fun _ _ hc2 => canon_dropCut hc2)) (canon_with_cls hc)

theorem canon_quenchTrunk {s : State} {p : Nat} {disable : Bool} (hc : Canon s) : Canon (quenchTrunk s p disable) :=
    canon_ite (canon_putTrunk hc) (canon_setBit (canon_wr (canon_putTrunk (canon_putTrunk hc))))

theorem canon_startQuench {s : State} {p : Nat} {disable : Bool} (hc : Canon s) : Canon (startQuench s p disable) :=
    canon_ite hc (canon_refreshPending (canon_refreshMigration (canon_tbPortLost (canon_ite (canon_quenchTrunk
    (canon_dropPartial (canon_flushPort (canon_portEvent (canon_foldl (fun _ _ hc1 => canon_stop hc1) (canon_putEg
    (canon_putPort (canon_setPortState (canon_setBit (canon_stopPort hc)))))))))) (canon_dropPartial (canon_flushPort
    (canon_portEvent (canon_foldl (fun _ _ hc1 => canon_stop hc1) (canon_putEg (canon_putPort (canon_setPortState
    (canon_setBit (canon_stopPort hc)))))))))))))

theorem canon_setShed {s : State} {p : Nat} {b : Bool} (hc : Canon s) : Canon (setShed s p b) := canon_ite hc
    (canon_raise (canon_setFld (canon_setBit (canon_putPort hc))))

theorem canon_quenchDone {s : State} {p : Nat} (hc : Canon s) : Canon (quenchDone s p) := canon_ite hc (canon_ite
    (canon_enterDisabled (canon_setBit (canon_portEvent (canon_putPort (canon_ite (canon_setShed hc) hc)))))
    (canon_bringUp (canon_setBit (canon_portEvent (canon_putPort (canon_ite (canon_setShed hc) hc))))))

theorem canon_leaveTests {s : State} {p : Nat} (hc : Canon s) : Canon (leaveTests s p) := canon_foldl (fun _ _ hc1 =>
    canon_ite (canon_laneOff (canon_setPrbsLock (canon_setBit hc1))) hc1) hc

theorem canon_writeEnable {s : State} {p : Nat} {b : Bool} (hc : Canon s) : Canon (writeEnable s p b) := canon_ite hc
    (canon_ite (canon_ite (canon_refreshPending (canon_leaveTests (canon_setBit hc))) (canon_ite (canon_startBringup
    (canon_leaveTests (canon_setBit hc))) (canon_ite (canon_parkPort (canon_leaveTests (canon_setBit hc)))
    (canon_leaveTests (canon_setBit hc))))) (canon_ite (canon_startQuench (canon_setBit hc)) (canon_ite
    (canon_refreshPending (canon_lanesOff (canon_setBit (canon_setBit hc)))) (canon_enterDisabled (canon_setBit
    hc)))))

theorem canon_restartPort {s : State} {p : Nat} (hc : Canon s) : Canon (restartPort s p) := canon_ite
    (canon_startQuench (canon_setBit hc)) (canon_ite (canon_bringUp (canon_setBit hc)) (canon_setBit hc))

theorem canon_writePortCfg {s : State} {p v : Nat} (hc : Canon s) : Canon (writePortCfg s p v) := canon_ite
    (canon_ite (canon_ite (canon_foldl (fun _ _ hc1 => canon_ite hc1 (canon_refreshPg hc1)) (canon_wr hc))
    (canon_refreshGlobal (canon_foldl (fun _ _ hc1 => canon_ite hc1 (canon_refreshPg hc1)) (canon_wr hc))))
    (canon_ite (canon_startQuench (canon_ite (canon_foldl (fun _ _ hc1 => canon_ite hc1 (canon_refreshPg hc1))
    (canon_wr hc)) (canon_refreshGlobal (canon_foldl (fun _ _ hc1 => canon_ite hc1 (canon_refreshPg hc1)) (canon_wr
    hc))))) (canon_ite (canon_bringUp (canon_ite (canon_foldl (fun _ _ hc1 => canon_ite hc1 (canon_refreshPg hc1))
    (canon_wr hc)) (canon_refreshGlobal (canon_foldl (fun _ _ hc1 => canon_ite hc1 (canon_refreshPg hc1)) (canon_wr
    hc))))) (canon_ite (canon_foldl (fun _ _ hc1 => canon_ite hc1 (canon_refreshPg hc1)) (canon_wr hc))
    (canon_refreshGlobal (canon_foldl (fun _ _ hc1 => canon_ite hc1 (canon_refreshPg hc1)) (canon_wr hc)))))))
    (canon_ite (canon_startQuench (canon_ite (canon_foldl (fun _ _ hc1 => canon_ite hc1 (canon_refreshPg hc1))
    (canon_wr hc)) (canon_refreshGlobal (canon_foldl (fun _ _ hc1 => canon_ite hc1 (canon_refreshPg hc1)) (canon_wr
    hc))))) (canon_ite (canon_bringUp (canon_ite (canon_foldl (fun _ _ hc1 => canon_ite hc1 (canon_refreshPg hc1))
    (canon_wr hc)) (canon_refreshGlobal (canon_foldl (fun _ _ hc1 => canon_ite hc1 (canon_refreshPg hc1)) (canon_wr
    hc))))) (canon_ite (canon_foldl (fun _ _ hc1 => canon_ite hc1 (canon_refreshPg hc1)) (canon_wr hc))
    (canon_refreshGlobal (canon_foldl (fun _ _ hc1 => canon_ite hc1 (canon_refreshPg hc1)) (canon_wr hc))))))

theorem canon_anComplete {s : State} {p common fec : Nat} (hc : Canon s) : Canon (anComplete s p common fec) := by
  unfold anComplete
  refine canon_ite ?_ hc
  split
  · exact canon_markDegraded (canon_takeType (canon_putPort hc))
  · exact canon_start hc

theorem canon_anRestart {s : State} {p : Nat} (hc : Canon s) : Canon (anRestart s p) := canon_ite (canon_startAn
    (canon_stop hc)) hc

theorem canon_stepUpAgree {s : State} {p : Nat} {b : List Nat} (hc : Canon s) : Canon (stepUpAgree s p b) :=
    canon_ite (canon_startSlow (canon_putPort hc)) (canon_ite (canon_startSlow (canon_putPort hc)) (canon_enterHeld
    hc))

theorem canon_stepUpPage {s : State} {p : Nat} {b : List Nat} (hc : Canon s) : Canon (stepUpPage s p b) := canon_ite
    hc (canon_ite (canon_start (canon_putPort hc)) (canon_ite (canon_enterHeld (canon_ite (canon_wr (canon_start
    (canon_putPort hc))) (canon_sendPage (canon_putPort (canon_wr (canon_start (canon_putPort hc))))))) (canon_ite
    (canon_stepUpAgree (canon_ite (canon_wr (canon_start (canon_putPort hc))) (canon_sendPage (canon_putPort
    (canon_wr (canon_start (canon_putPort hc))))))) (canon_ite (canon_wr (canon_start (canon_putPort hc)))
    (canon_sendPage (canon_putPort (canon_wr (canon_start (canon_putPort hc)))))))))

theorem canon_stepUpNoPartner {s : State} {p : Nat} (hc : Canon s) : Canon (stepUpNoPartner s p) := canon_ite
    (canon_enterHeld hc) hc

theorem canon_stepUpSlowOk {s : State} {p : Nat} (hc : Canon s) : Canon (stepUpSlowOk s p) := canon_ite (canon_start
    (canon_setStage (canon_stop hc))) hc

theorem canon_stepUpSlowOut {s : State} {p : Nat} (hc : Canon s) : Canon (stepUpSlowOut s p) := canon_ite
    (canon_startNrz (canon_portEvent hc)) hc

theorem canon_stepUpQualified {s : State} {p : Nat} (hc : Canon s) : Canon (stepUpQualified s p) := canon_ite
    (canon_ite (canon_start (canon_takeType (canon_setStage (canon_stopPort hc)))) (canon_ite (canon_enterUp
    (canon_ite (canon_markDegraded hc) hc)) hc)) hc

theorem canon_stepUpFastOk {s : State} {p : Nat} (hc : Canon s) : Canon (stepUpFastOk s p) := canon_ite
    (canon_enterUp (canon_ite (canon_markDegraded hc) hc)) hc

theorem canon_stepUpFastOut {s : State} {p : Nat} (hc : Canon s) : Canon (stepUpFastOut s p) := canon_ite
    (canon_startSlow (canon_putPort (canon_portEvent (canon_setBit hc)))) hc

theorem canon_stepUpRetry {s : State} {p : Nat} (hc : Canon s) : Canon (stepUpRetry s p) := canon_ite (canon_bringUp
    hc) hc

theorem canon_stepUpCodeword {s : State} {p : Nat} (hc : Canon s) : Canon (stepUpCodeword s p) := canon_ite
    (canon_start hc) hc

theorem canon_stepUpFault {s : State} {p : Nat} (hc : Canon s) : Canon (stepUpFault s p) := canon_ite (canon_start
    (canon_setStage (canon_stop hc))) hc

theorem canon_refreshReach {s : State} {p : Nat} (hc : Canon s) : Canon (refreshReach s p) := canon_setBit hc

theorem canon_setActive {s : State} {p m : Nat} (hc : Canon s) : Canon (setActive s p m) := canon_ite hc (canon_ite
    (canon_portEvent (canon_portChanged (canon_refreshReach (canon_setFld hc)))) (canon_ite (canon_startQuench
    (canon_portEvent (canon_portChanged (canon_refreshReach (canon_setFld hc))))) (canon_setDegraded (canon_portEvent
    (canon_portChanged (canon_refreshReach (canon_setFld hc)))))))

theorem canon_trunkLaneLeft {s : State} {p j : Nat} (hc : Canon s) : Canon (trunkLaneLeft s p j) := canon_setActive
    (canon_ite (canon_setFld (canon_setBit (canon_putTrunk hc))) (canon_putTrunk hc))

theorem canon_retireEffect {s : State} {p : Nat} (hc : Canon s) : Canon (retireEffect s p) := canon_ite (canon_ite
    (canon_enterHeld (canon_setUsed hc)) (canon_setUsed hc)) (canon_ite (canon_startQuench (canon_setBit hc))
    (canon_ite (canon_bringUp hc) hc))

theorem canon_laneAfter {before s : State} {l : Nat} (hcs : Canon s) : Canon (laneAfter
    before s l) := canon_ite (canon_retireEffect (canon_ite (canon_ite (canon_trunkLaneLeft (canon_refreshPhase hcs))
    (canon_ite (canon_setFld (canon_refreshPhase hcs)) (canon_refreshPhase hcs))) (canon_refreshPhase hcs)))
    (canon_ite (canon_ite (canon_trunkLaneLeft (canon_refreshPhase hcs)) (canon_ite (canon_setFld (canon_refreshPhase
    hcs)) (canon_refreshPhase hcs))) (canon_refreshPhase hcs))

theorem canon_unretire {s : State} {l : Nat} (hc : Canon s) : Canon (unretire s l) := canon_ite hc (canon_ite
    (canon_bringUp (canon_unretireLane (canon_ite (canon_setBit hc) hc))) (canon_unretireLane (canon_ite
    (canon_setBit hc) hc)))

theorem canon_sidebandPort {s : State} {p : Nat} {here int : Bool} (hc : Canon s) : Canon (sidebandPort s p here int)
    := canon_ite (canon_putPort hc) (canon_ite (canon_ite (canon_bringUp (canon_putPort hc)) (canon_refreshPending
    (canon_putPort hc))) (canon_ite (canon_startQuench (canon_putPort hc)) (canon_ite (canon_enterHeld (canon_putPort
    hc)) (canon_refreshPending (canon_putPort hc)))))

theorem canon_sidebandOut {s : State} (hc : Canon s) : Canon (sidebandOut s) := canon_emit (canon_draw hc)

theorem canon_sidebandScan {s : State} {prs intN : Nat} (hc : Canon s) : Canon (sidebandScan s prs intN) :=
    canon_foldl (fun _ _ hc1 => canon_sidebandPort hc1) (canon_sidebandOut hc)

theorem canon_moduleActivated {s : State} {p : Nat} (hc : Canon s) : Canon (moduleActivated s p) := canon_ite
    (canon_putPort hc) hc

theorem canon_pfcReceive {s : State} {p vector : Nat} {quanta : List Nat} (hc : Canon s) : Canon (pfcReceive s p
    vector quanta) := canon_ite hc (canon_ite (canon_add64 (canon_pmcEvent hc)) (canon_foldl (fun _ _ hc1 =>
    canon_ite (canon_stop hc1) (canon_start hc1)) (canon_pmcEvent hc)))

theorem canon_pfcExpire {s : State} {p c : Nat} (hc : Canon s) : Canon (pfcExpire s p c) := canon_ite (canon_stop hc)
    hc

theorem canon_macControl {s : State} {p : Nat} (hc : Canon s) : Canon (macControl s p) := canon_ite (canon_add64 hc)
    hc

theorem canon_pfcRepeatTick {s : State} {p c : Nat} (hc : Canon s) : Canon (pfcRepeatTick s p c) := canon_ite
    (canon_sendPfc (canon_stop hc)) hc

end Sys2Proof.Machine
end

section
/-! Canonical form, kept by the operations of `Machine/PtpMsg`. -/

namespace Sys2Proof.Machine

theorem canon_ptpAddr {s : State} (hc : Canon s) : Canon (ptpAddr s).2 := canon_draw hc

theorem canon_noteFlagged {s : State} {p : Nat} (hc : Canon s) : Canon (noteFlagged s p) := canon_ite (canon_ptpEvent
    hc) hc

theorem canon_sendGeneral {s : State} {p kind seq t : Nat} {corr : Int} {target : List Nat} (hc : Canon s) : Canon
    (sendGeneral s p kind seq t corr target) := canon_ite (canon_trunkRecord (canon_ptpAddr hc)) (canon_serveControl
    (canon_putEg (canon_ptpAddr hc)))

theorem canon_eventStamped {s : State} {p : Nat} {e : PtpEvent} {t : Nat} (hc : Canon s) : Canon (eventStamped s p e
    t) := canon_ite (canon_ite (canon_putPtp (canon_noteFlagged hc)) (canon_noteFlagged hc)) (canon_ite
    (canon_sendGeneral (canon_noteFlagged hc)) (canon_noteFlagged hc))

theorem canon_sendEvent {s : State} {p kind seq : Nat} {st : TxStamp} (hc : Canon s) : Canon (sendEvent s p kind seq
    st) := canon_ite (canon_addRecord (canon_ptpAddr hc)) (canon_eventStamped (canon_emit (canon_putEg (canon_ptpAddr
    hc))))

theorem canon_ptpSyncTx {s : State} {p : Nat} {st : TxStamp} (hc : Canon s) : Canon (ptpSyncTx s p st) := canon_ite
    (canon_sendEvent (canon_putPtp hc)) hc

theorem canon_ptpDelayReqTx {s : State} {p : Nat} {st : TxStamp} (hc : Canon s) : Canon (ptpDelayReqTx s p st) :=
    canon_ite (canon_sendEvent (canon_putPtp hc)) hc

theorem canon_ptpDelayReqRx {s : State} {p : Nat} {b : List Nat} {st : RxStamp} (hc : Canon s) : Canon (ptpDelayReqRx
    s p b st) := canon_ptpMessage hc (fun _ hc1 => canon_ite (canon_sendGeneral hc1) hc1)

end Sys2Proof.Machine
end

section
/-! Canonical form, kept by the operations of `Machine/Trunk`. -/

namespace Sys2Proof.Machine

theorem canon_setTrunkState {s : State} {p st : Nat} (hc : Canon s) : Canon (setTrunkState s p st) := canon_setFld hc

theorem canon_trunkDeskew {s : State} {p : Nat} (hc : Canon s) : Canon (trunkDeskew s p) := canon_ite (canon_setFld
    (canon_wr hc)) (canon_portEvent (canon_setFld (canon_wr hc)))

theorem canon_toHello {s : State} {p : Nat} (hc : Canon s) : Canon (toHello s p) := canon_ite hc (canon_start
    (canon_setTrunkState (canon_stop (canon_putTrunk hc))))

theorem canon_alignProgress {s : State} {p : Nat} (hc : Canon s) : Canon (alignProgress s p) := canon_ite hc
    (canon_ite (canon_toHello hc) (canon_ite hc (canon_start hc)))

theorem canon_markerSample {s : State} {p j : Nat} {b : List Nat} {arrival : Nat} (hc : Canon s) : Canon
    (markerSample s p j b arrival) := canon_ite (canon_ite (canon_phaseSample (canon_portSample hc))
    (canon_portSample hc)) hc

theorem canon_goodMarker {s : State} {p j block : Nat} {b : List Nat} {arrival : Nat} (hc : Canon s) : Canon
    (goodMarker s p j block b arrival) := canon_markerSample (canon_alignProgress (canon_trunkDeskew (canon_putTrunk
    hc)))

theorem canon_markerRx {s : State} {p j block sync0 : Nat} {b : List Nat} {arrival : Nat} (hc : Canon s) : Canon
    (markerRx s p j block sync0 b arrival) := canon_ite hc (canon_ite (canon_goodMarker hc) (canon_ite (canon_ite
    (canon_laneAfter (canon_retrainLane (canon_setLaneFlag (canon_putTrunk hc)))) (canon_putTrunk hc)) hc))

theorem canon_markerTx {s : State} {p : Nat} (hc : Canon s) : Canon (markerTx s p) := canon_ite hc (canon_ite
    (canon_ite (canon_setActive (canon_putTrunk hc)) (canon_putTrunk hc)) (canon_foldl (fun _ _ hc1 => canon_emit
    hc1) (canon_putTrunk (canon_ite (canon_setActive (canon_putTrunk hc)) (canon_putTrunk hc)))))

theorem canon_sendBlock {s : State} {p btype cls seq first fill : Nat} {rsync : Bool} {payload : List Nat} (hc :
    Canon s) : Canon (sendBlock s p btype cls seq first fill rsync payload) := canon_emit (canon_putTrunk hc)

theorem canon_eventLead {s : State} {p : Nat} {o : Option PtpEvent} (hc : Canon s) : Canon (eventLead s p o).1 := by
  unfold eventLead
  split
  · exact hc
  · exact canon_eventStamped hc

theorem canon_sendData {s : State} {p c : Nat} (hc : Canon s) : Canon (sendData s p c) := canon_putTrunk
    (canon_sendBlock (canon_eventLead hc))

theorem canon_resend {s : State} {p x : Nat} (hc : Canon s) : Canon (resend s p x) := by
  unfold resend
  dsimp only
  split
  · exact canon_putTrunk hc
  · exact canon_add64 (canon_putTrunk (canon_sendBlock (canon_eventLead hc)))

theorem canon_sendNull {s : State} {p : Nat} (hc : Canon s) : Canon (sendNull s p) := canon_sendBlock hc

theorem canon_startBlock {s : State} {p : Nat} (hc : Canon s) : Canon (startBlock s p) := canon_putTrunk hc

theorem canon_blockTx {s : State} {p : Nat} (hc : Canon s) : Canon (blockTx s p) := by
  unfold blockTx
  refine canon_ite hc ?_
  refine canon_ite (canon_sendNull (canon_startBlock hc)) ?_
  refine canon_ite (canon_startBlock hc) ?_
  dsimp only
  split
  · exact canon_sendData (canon_windowOpen (canon_startBlock hc))
  · exact canon_resend (canon_windowOpen (canon_startBlock hc))
  · exact canon_sendNull (canon_windowOpen (canon_startBlock hc))
  · exact canon_ite (canon_sendData (canon_windowOpen (canon_startBlock hc))) (canon_sendData (canon_pick
      (canon_windowOpen (canon_startBlock hc))))

theorem canon_nakRx {s : State} {p x : Nat} (hc : Canon s) : Canon (nakRx s p x) := canon_ite hc (canon_ite hc
    (canon_ite (canon_putTrunk hc) (canon_putTrunk hc)))

theorem canon_headerRx {s : State} {p ack : Nat} {nak : Bool} (hc : Canon s) : Canon (headerRx s p ack nak) :=
    canon_ite (canon_nakRx (canon_putTrunk hc)) (canon_putTrunk hc)

theorem canon_earlyComplete {s : State} {fid : Nat} {bytes : List Byte} (hc : Canon s) : Canon (earlyComplete s fid
    bytes) := by
  unfold earlyComplete
  split
  · exact hc
  · exact canon_ite (canon_refreshGlobal (canon_putFrame hc)) (canon_cutFrame (canon_putFrame hc) (fun _ _ hc1 =>
      canon_dropCut hc1))

theorem canon_takeEarly {s : State} {p c : Nat} {o : PartialStart} {fs : List (List Nat)} (hc : Canon s) : Canon
    (takeEarly s p c o fs).1 := by
  unfold takeEarly
  dsimp only
  split
  · exact canon_earlyComplete (canon_putTrunk hc)
  · exact hc

theorem canon_cutEarly {s : State} {p : Nat} {o : Option Nat} (hc : Canon s) : Canon (cutEarly s p o) := by
  unfold cutEarly
  refine canon_foldl (fun _ _ hc1 => ?_) (canon_putTrunk hc)
  split
  · exact canon_cutFrame hc1 (fun _ _ hc2 => canon_dropCut hc2)
  · exact hc1

theorem canon_deliverTo {s : State} {p c : Nat} {o : PartialStart} {r : List (List Nat) × List Nat × Bool} (hc :
    Canon s) : Canon (deliverTo s p c o r) := canon_ite (canon_add64 (canon_putTrunk (canon_ite (canon_cutEarly
    (canon_takeEarly hc)) (canon_takeEarly hc)))) (canon_putTrunk (canon_ite (canon_cutEarly (canon_takeEarly hc))
    (canon_takeEarly hc)))

theorem canon_deliver {s : State} {p c first fill : Nat} {payload : List Nat} (hc : Canon s) : Canon (deliver s p c
    first fill payload) := canon_releaseReady (canon_ite (canon_ite (canon_putTrunk (canon_putTrunk hc)) (canon_ite
    (canon_putTrunk hc) (canon_deliverTo (canon_putTrunk hc)))) (canon_deliverTo (canon_ite (canon_putTrunk
    (canon_putTrunk hc)) (canon_ite (canon_putTrunk hc) (canon_deliverTo (canon_putTrunk hc))))))

theorem canon_dataRx {s : State} {p c seq first fill : Nat} {rsync : Bool} {payload : List Nat} (hc : Canon s) :
    Canon (dataRx s p c seq first fill rsync payload) := canon_ite (canon_deliver (canon_portEvent (canon_add64
    (canon_putTrunk (canon_cutEarly hc))))) (canon_ite (canon_deliver (canon_putTrunk hc)) (canon_putTrunk hc))

theorem canon_trunkUp {s : State} {p : Nat} (hc : Canon s) : Canon (trunkUp s p) := canon_enterUp
    (canon_setTrunkState (canon_putTrunk hc))

theorem canon_helloRtt {s : State} {b : List Nat} (hc : Canon s) : Canon (helloRtt s b).2 := by
  generalize h : helloRtt s b = q
  unfold helloRtt at h
  extract_lets d at h
  clear_value d
  split at h
  · exact h ▸ hc
  · exact h ▸ canon_draw hc

theorem canon_countHello {s : State} {p : Nat} (hc : Canon s) : Canon (countHello s p) := canon_putTrunk hc

theorem canon_helloRx {s : State} {p : Nat} {b : List Nat} (hc : Canon s) : Canon (helloRx s p b) := by
  unfold helloRx
  refine canon_ite hc ?_
  extract_lets node
  split
  next rtt u e =>
    have h0 := canon_snd (canon_helloRtt hc) e
    extract_lets v w h t
    have h1 : Canon t := canon_putTrunk (canon_refreshReach (canon_wr (canon_wr h0)))
    clear_value v w h t
    exact canon_ite (canon_ite (canon_enterHeld h1) (canon_ite (canon_trunkUp (canon_countHello (canon_start h1)))
      (canon_countHello (canon_start h1)))) h1

theorem canon_blockRx {s : State} {p : Nat} {b : List Nat} (hc : Canon s) : Canon (blockRx s p b) := canon_ite hc
    (canon_ite (canon_ite (canon_putTrunk (canon_add64 hc)) (canon_add64 hc)) (canon_ite (canon_helloRx (canon_ite
    (canon_headerRx hc) hc)) (canon_ite (canon_dataRx (canon_ite (canon_headerRx hc) hc)) (canon_ite (canon_headerRx
    hc) hc))))

theorem canon_helloTx {s : State} {p : Nat} (hc : Canon s) : Canon (helloTx s p) := canon_ite hc (canon_putTrunk
    (canon_sendBlock (canon_startBlock hc)))

theorem canon_alignTimeout {s : State} {p : Nat} (hc : Canon s) : Canon (alignTimeout s p) := canon_ite
    (canon_toHello (canon_stop hc)) hc

theorem canon_helloTimeout {s : State} {p : Nat} (hc : Canon s) : Canon (helloTimeout s p) := canon_ite
    (canon_setTrunkState (canon_stop hc)) hc

theorem canon_conflictRetry {s : State} {p : Nat} (hc : Canon s) : Canon (conflictRetry s p) := canon_ite (canon_ite
    (canon_enterHeld hc) (canon_toHello (canon_setTrunkState (canon_setHold (canon_setPortState (canon_stop hc))))))
    hc

end Sys2Proof.Machine
end

section
/-! Canonical form, kept by the operations of `Machine/Zones`. -/

namespace Sys2Proof.Machine

theorem canon_heldFail {s : State} {z : Nat} (hc : Canon s) : Canon (heldFail s z) := canon_foldl (fun _ _ hc1 =>
    canon_emit hc1) (canon_with_heldNodes hc)

theorem canon_zoneFail {s : State} {z : Nat} (hc : Canon s) : Canon (zoneFail s z) := canon_ite hc (canon_raise
    (canon_record (canon_heldFail (canon_setBit hc))))

theorem canon_zoneDisable {s : State} {p : Nat} (hc : Canon s) : Canon (zoneDisable s p) := canon_ite
    (canon_startQuench (canon_setBit hc)) (canon_ite (canon_refreshPending (canon_lanesOff (canon_setBit hc)))
    (canon_enterDisabled (canon_setBit hc)))

theorem canon_zoneBegin {s : State} {z : Nat} {reimg : Bool} (hc : Canon s) : Canon (zoneBegin s z reimg) :=
    canon_ite hc (canon_foldl (fun _ _ hc1 => canon_zoneDisable hc1) (canon_setBit (canon_setBit (canon_setBit
    (canon_setBit hc)))))

theorem canon_zoneResets {s : State} {zrst zreimg : Nat} (hc : Canon s) : Canon (zoneResets s zrst zreimg) :=
    canon_foldl (fun _ _ hc1 => canon_zoneBegin hc1) hc

theorem canon_laneCold {s : State} {l : Nat} (hc : Canon s) : Canon (laneCold s l) := canon_ite (canon_setLaneFlag
    (canon_setLaneState (canon_with_lanes (canon_stopLane hc)))) (canon_with_lanes (canon_stopLane hc))

theorem canon_zoneClear {s : State} {z : Nat} (hc : Canon s) : Canon (zoneClear s z) := canon_ite hc
    (canon_with_zonesClear (canon_foldl (fun _ _ hc1 => canon_refreshGlobal (canon_putPtp (canon_putTrunk
    (canon_putPort (canon_stopPort hc1))))) (canon_foldl (fun _ _ hc1 => canon_laneCold hc1) (canon_resetRegs
    (canon_foldl (fun _ _ hc1 => canon_exitService hc1) hc)))))

theorem canon_zoneDone {s : State} {z : Nat} (hc : Canon s) : Canon (zoneDone s z) := canon_ite hc (canon_raise
    (canon_record (canon_setBit (canon_setBit (canon_setBit (canon_setBit (canon_setBit
    (canon_with_zonesClear_zonesReimg hc))))))))

end Sys2Proof.Machine
end

section
/-! Canonical form, kept by the operations of `Machine/Loops`. -/

namespace Sys2Proof.Machine

theorem canon_putLoop {s : State} {i : Nat} {h : LoopHidden} (hc : Canon s) : Canon (putLoop s i h) := hc

theorem canon_loopEvent {s : State} {mask : Nat} (hc : Canon s) : Canon (loopEvent s mask) := canon_event hc

theorem canon_setPlol {s : State} {p : Nat} {b : Bool} (hc : Canon s) : Canon (setPlol s p b) := canon_setBit hc

theorem canon_xoffPort {s : State} {p : Nat} {cs : List Nat} (hc : Canon s) : Canon (xoffPort s p cs) := canon_ite hc
    (canon_foldl (fun _ _ hc1 => canon_sendPfc hc1) hc)

theorem canon_lolDrop {s : State} (hc : Canon s) : Canon (lolDrop s) := canon_slag (canon_add64 hc)

theorem canon_lolLose {s : State} {k : Pkt} (hc : Canon s) : Canon (lolLose s k) := canon_ite (canon_lldDrop
    (canon_add64 hc)) (canon_removePkt (canon_lolDrop hc))

theorem canon_stallPort {s : State} {p : Nat} (hc : Canon s) : Canon (stallPort s p) := canon_xoffPort (canon_foldl
    (fun _ _ hc1 => canon_cutFrame hc1 (fun _ _ hc2 => canon_lolLose hc2)) hc)

theorem canon_missWindows {s : State} {p : Nat} (hc : Canon s) : Canon (missWindows s p) := by
  unfold missWindows
  refine canon_foldl (fun _ _ hc1 => ?_) hc
  split
  · exact canon_ite (canon_lldMiss hc1) hc1
  · exact hc1

theorem canon_unstallPort {s : State} {p : Nat} (hc : Canon s) : Canon (unstallPort s p) := canon_ite
    (canon_missWindows hc) (canon_foldl (fun _ _ hc1 => canon_ite hc1 (canon_resumeClass hc1)) (canon_missWindows hc))

theorem canon_stallChanges {before s : State} (hcs : Canon s) : Canon (stallChanges before
    s) := canon_foldl (fun _ _ hc2 => canon_ite hc2 (canon_ite (canon_stallPort hc2) (canon_unstallPort hc2))) hcs

theorem canon_loopLose {s : State} {i : Nat} (hc : Canon s) : Canon (loopLose s i) := canon_ite hc (canon_loopEvent
    (canon_stallChanges (canon_start (canon_with_lolPorts (canon_ite (canon_addSat (canon_setBit (canon_putLoop
    hc))) (canon_setPlol (canon_putLoop hc)))))))

theorem canon_dropStale {s : State} {i : Nat} (hc : Canon s) : Canon (dropStale s i) := by
  unfold dropStale
  refine canon_foldl (fun _ _ hc1 => ?_) hc
  split
  · exact hc1
  · exact canon_ite (canon_removePkt (canon_lolDrop hc1)) (canon_ite hc1 (canon_ite (canon_lolLose (canon_ite
      (canon_putEg hc1) hc1)) (canon_ite hc1 (canon_putPkt hc1))))

theorem canon_loopLock {s : State} {i : Nat} (hc : Canon s) : Canon (loopLock s i) := canon_ite hc
    (canon_stallChanges (canon_dropStale (canon_ite (canon_setBit (canon_putLoop (canon_stop hc))) (canon_setPlol
    (canon_putLoop (canon_stop hc))))))

theorem canon_loopFail {s : State} {i : Nat} (hc : Canon s) : Canon (loopFail s i) := canon_ite (canon_foldl (fun _ _
    hc1 => canon_zoneFail hc1) (canon_loopEvent (canon_ite (canon_setBit (canon_putLoop (canon_stop hc)))
    (canon_putLoop (canon_stop hc))))) (canon_loopEvent (canon_ite (canon_setBit (canon_putLoop (canon_stop hc)))
    (canon_putLoop (canon_stop hc))))

theorem canon_loopTimeout {s : State} {i : Nat} (hc : Canon s) : Canon (loopTimeout s i) := canon_ite hc (canon_ite
    (canon_loopFail (canon_putLoop hc)) (canon_start (canon_putLoop hc)))

theorem canon_lolClear {s : State} {p : Nat} (hc : Canon s) : Canon (lolClear s p) := canon_ite hc
    (canon_with_lolPorts hc)

end Sys2Proof.Machine
end

section
/-! Canonical form, kept by the operations of `Machine/Governor`. -/

namespace Sys2Proof.Machine

theorem canon_putPower {s : State} {h : PowerHidden} (hc : Canon s) : Canon (putPower s h) := hc

theorem canon_setGov {s : State} {i : Nat} {b : Bool} (hc : Canon s) : Canon (setGov s i b) := canon_ite hc
    (canon_raise (canon_setBit hc))

theorem canon_rampSlices {s : State} {down : Bool} (hc : Canon s) : Canon (rampSlices s down) := canon_ite
    (canon_start (canon_putPower hc)) (canon_putPower hc)

theorem canon_rampPending {s : State} (hc : Canon s) : Canon (rampPending s) := by
  unfold rampPending
  split
  · exact canon_ite (canon_rampSlices hc) hc
  · exact hc

theorem canon_shedPort {s : State} {p : Nat} (hc : Canon s) : Canon (shedPort s p) := canon_ite (canon_startQuench
    (canon_putPort (canon_setShed (canon_putPower hc)))) (canon_ite (canon_enterHeld (canon_putPort (canon_setShed
    (canon_putPower hc)))) (canon_putPort (canon_setShed (canon_putPower hc))))

theorem canon_restorePort {s : State} {p : Nat} (hc : Canon s) : Canon (restorePort s p) := canon_ite (canon_putPort
    (canon_putPower hc)) (canon_ite (canon_bringUp (canon_setShed (canon_putPower hc))) (canon_setShed
    (canon_putPower hc)))

theorem canon_govFree {s : State} (hc : Canon s) : Canon (govFree s) := canon_ite (canon_stop (canon_setGov hc)) hc

theorem canon_govRestore {s : State} (hc : Canon s) : Canon (govRestore s) := canon_ite hc (canon_ite (canon_ite
    (canon_stop hc) (canon_rampSlices (canon_stop (canon_stop hc)))) (canon_ite (canon_govFree (canon_stop hc))
    (canon_ite (canon_stop hc) (canon_start (canon_stop hc)))))

theorem canon_govEval {s : State} (hc : Canon s) : Canon (govEval s) := canon_ite hc (canon_ite (canon_govRestore hc)
    (canon_ite (canon_ite (canon_ite (canon_setGov (canon_stop hc)) (canon_start (canon_setGov (canon_stop hc))))
    (canon_ite (canon_setGov (canon_stop hc)) (canon_rampSlices (canon_stop (canon_setGov (canon_stop hc))))))
    (canon_ite (canon_ite (canon_start hc) hc) (canon_stop hc))))

theorem canon_govSample {s : State} {mw vmain vka : Nat} (hc : Canon s) : Canon (govSample s mw vmain vka) :=
    canon_govEval (canon_putPower (canon_setFld (canon_setFld hc)))

theorem canon_govLimit {s : State} {b : Bool} (hc : Canon s) : Canon (govLimit s b) := canon_govEval (canon_setGov hc)

theorem canon_writeCap {s : State} {v : Nat} (hc : Canon s) : Canon (writeCap s v) := canon_govEval (canon_wr hc)

theorem canon_govRampDone {s : State} (hc : Canon s) : Canon (govRampDone s) := by
  unfold govRampDone
  split
  · exact hc
  · exact canon_ite hc (canon_ite (canon_rampPending (canon_setGov (canon_foldl (fun _ _ hc1 => canon_setFld hc1)
      (canon_stop (canon_putPower hc))))) (canon_ite (canon_govEval (canon_rampPending (canon_setGov (canon_foldl
      (fun _ _ hc1 => canon_setFld hc1) (canon_stop (canon_putPower hc)))))) (canon_govRestore (canon_rampPending
      (canon_setGov (canon_foldl (fun _ _ hc1 => canon_setFld hc1) (canon_stop (canon_putPower hc))))))))

theorem canon_govShed {s : State} (hc : Canon s) : Canon (govShed s) := by
  unfold govShed
  refine canon_ite hc ?_
  split
  · exact canon_start (canon_shedPort hc)
  · exact canon_stop hc

theorem canon_govBelow {s : State} (hc : Canon s) : Canon (govBelow s) := canon_ite (canon_govRestore hc) hc

theorem canon_govRestoreOne {s : State} (hc : Canon s) : Canon (govRestoreOne s) := by
  unfold govRestoreOne
  refine canon_ite hc ?_
  split
  · exact canon_ite (canon_govFree (canon_restorePort hc)) (canon_start (canon_restorePort hc))
  · exact canon_govFree hc

end Sys2Proof.Machine
end

section
/-! Canonical form, kept by the operations of `Machine/Ladle`. -/

namespace Sys2Proof.Machine

theorem canon_ldlEvent {s : State} {mask : Nat} (hc : Canon s) : Canon (ldlEvent s mask) := canon_event hc

theorem canon_toLadle {s : State} {k : Pkt} {i : Nat} (hc : Canon s) : Canon (toLadle s k i) := canon_ite
    (canon_removePkt (canon_ldlEvent (canon_slag (canon_add64 hc)))) (canon_movePkt (canon_add64 hc))

theorem canon_makeCopy {s : State} {k : Pkt} {d : Dest} (hc : Canon s) : Canon (makeCopy s k d) := canon_with_buf
    (canon_freshId hc)

theorem canon_replicate {s : State} (hc : Canon s) : Canon (replicate s) := by
  unfold replicate
  split
  · exact hc
  · split
    · exact canon_ite (canon_removePkt (canon_ldlEvent (canon_slag (canon_add64 hc)))) (canon_ite (canon_removePkt
        (canon_ldlEvent (canon_slag (canon_add64 (canon_ite hc (canon_add64 hc)))))) (canon_removePkt (canon_foldl
        (fun _ _ hc1 => canon_makeCopy hc1) (canon_ite (canon_with_buf (canon_pmcEvent (canon_add64 (canon_ite hc
        (canon_add64 hc))))) (canon_pmcEvent (canon_add64 (canon_ite hc (canon_add64 hc))))))))
    · exact canon_dropPkt hc

theorem canon_proceed {s : State} {k : Pkt} (hc : Canon s) : Canon (proceed s k) := by
  unfold proceed
  split
  · exact canon_toLadle hc
  · exact canon_movePkt hc

theorem canon_rsqEvent {s : State} {mask : Nat} (hc : Canon s) : Canon (rsqEvent s mask) := canon_event hc

theorem canon_setRiserState {s : State} {c st : Nat} (hc : Canon s) : Canon (setRiserState s c st) := canon_setFld hc

theorem canon_setExpect {s : State} {c n : Nat} (hc : Canon s) : Canon (setExpect s c n) := canon_setFld hc

theorem canon_releaseNumber {s : State} {c n : Nat} (hc : Canon s) : Canon (releaseNumber s c n) := by
  unfold releaseNumber
  dsimp only
  split
  · exact canon_with_buf hc
  · exact canon_proceed (canon_with_buf hc)

theorem canon_drain {s : State} {c x0 : Nat} (hc : Canon s) : Canon (drain s c x0) := by
  induction x0 generalizing s with
  | zero => exact hc
  | succ fuel ih => exact canon_ite (ih (canon_setExpect (canon_releaseNumber hc))) hc

theorem canon_drainAll {s : State} {c : Nat} (hc : Canon s) : Canon (drainAll s c) := canon_drain hc

theorem canon_gapTo {s : State} {c n : Nat} (hc : Canon s) : Canon (gapTo s c n) := canon_ite hc (canon_rsqEvent
    (canon_setExpect (canon_add64 (canon_addSat hc))))

theorem canon_releaseHeld {s : State} {c x0 : Nat} (hc : Canon s) : Canon (releaseHeld s c x0) := by
  induction x0 generalizing s with
  | zero => exact hc
  | succ fuel ih =>
    unfold releaseHeld
    split
    · exact hc
    · exact ih (canon_releaseNumber hc)

theorem canon_releaseAll {s : State} {c : Nat} (hc : Canon s) : Canon (releaseAll s c) := canon_releaseHeld hc

theorem canon_makeRoom {s : State} {c cells n x0 : Nat} (hc : Canon s) : Canon (makeRoom s c cells n x0).1 := by
  induction x0 generalizing s with
  | zero => exact hc
  | succ fuel ih =>
    unfold makeRoom
    split
    · exact hc
    · split
      · exact hc
      · dsimp only
        split
        · exact canon_gapTo hc
        · exact ih (canon_drainAll (canon_gapTo hc))

theorem canon_riserLate {s : State} {c : Nat} {o : Option Pkt} (hc : Canon s) : Canon (riserLate s c o) := by
  unfold riserLate
  dsimp only
  split
  · exact canon_rsqEvent (canon_add64 (canon_addSat hc))
  · exact canon_ite (canon_removePkt (canon_slag (canon_rsqEvent (canon_add64 (canon_addSat hc))))) (canon_proceed
      (canon_rsqEvent (canon_add64 (canon_addSat hc))))

theorem canon_riserDup {s : State} {c : Nat} {o : Option Pkt} (hc : Canon s) : Canon (riserDup s c o) := by
  unfold riserDup
  dsimp only
  split
  · exact canon_add64 (canon_with_buf hc)
  · exact canon_removePkt (canon_slag (canon_add64 (canon_with_buf hc)))

theorem canon_riserPass {s : State} {c n : Nat} {o : Option Pkt} (hc : Canon s) : Canon (riserPass s c n o) := by
  unfold riserPass
  refine canon_drainAll ?_
  refine canon_setExpect ?_
  split
  · exact canon_proceed hc
  · exact hc

theorem canon_riserHold {s : State} {c n : Nat} {o : Option Pkt} (hc : Canon s) : Canon (riserHold s c n o) := by
  unfold riserHold
  split
  · exact canon_with_buf hc
  · split
    · exact hc
    · exact canon_refreshPressure (canon_movePkt (canon_pmcEvent (canon_storeFrame hc)))

theorem canon_riserSequence {s : State} {c n : Nat} {rst : Bool} {o : Option Pkt} {cells : Nat} (hc : Canon s) :
    Canon (riserSequence s c n rst o cells) := by
  have h1 : Canon (if rst then rsqEvent (setExpect (releaseAll s c) c n) 16 else s) :=
    canon_ite (canon_rsqEvent (canon_setExpect (canon_releaseAll hc))) hc
  unfold riserSequence
  extract_lets u v d
  have h2 : Canon v := canon_ite (canon_setRiserState (canon_setExpect h1)) h1
  clear_value v
  refine canon_ite (canon_riserLate h2) (canon_ite (canon_riserDup h2) (canon_ite (canon_riserPass h2) ?_))
  cases o with
  | none => exact canon_riserHold h2
  | some k =>
    have h3 := canon_makeRoom (c := c) (cells := cells) (n := n) (x0 := (heldNumbers v c).length + 2) h2
    dsimp only
    generalize makeRoom v c cells n _ = x at h3 ⊢
    have h4 : Canon (if x.2 then rsqEvent x.1 4 else x.1) := canon_ite (canon_rsqEvent h3) h3
    exact canon_ite (canon_riserPass h4) (canon_riserHold h4)

theorem canon_riserTake {s : State} {x : Intake} {k : Option Pkt} (hc : Canon s) : Canon (riserTake s x k) := by
  unfold riserTake
  refine canon_ite (canon_riserSequence hc) ?_
  dsimp only
  split
  · exact canon_proceed (canon_add64 hc)
  · exact canon_add64 hc

theorem canon_riserArrive {s : State} (hc : Canon s) : Canon (riserArrive s) := by
  unfold riserArrive
  split
  · exact hc
  · dsimp only
    split
    · exact canon_ite (canon_removePkt (canon_with_buf hc)) (canon_riserTake (canon_with_buf hc))
    · exact canon_riserTake (canon_with_buf hc)

theorem canon_takeWaiting {c x0 : Nat} {x1 : State} (hc : Canon x1) : Canon (takeWaiting c x0 x1) := by
  induction x0 generalizing x1 with
  | zero => exact hc
  | succ n ih => exact canon_ite (ih (canon_riserArrive hc)) hc

theorem canon_riserExpire {s : State} {c : Nat} (hc : Canon s) : Canon (riserExpire s c) := by
  unfold riserExpire
  dsimp only
  split
  · exact canon_ite (canon_rsqEvent (canon_drainAll (canon_gapTo (canon_takeWaiting hc)))) (canon_takeWaiting hc)
  · exact canon_takeWaiting hc

theorem canon_riserEnable {s : State} {c : Nat} (hc : Canon s) : Canon (riserEnable s c) := canon_setRiserState
    (canon_wr (canon_with_buf hc))

theorem canon_riserDisable {s : State} {c : Nat} (hc : Canon s) : Canon (riserDisable s c) := canon_setRiserState
    (canon_releaseAll hc)

theorem canon_riserSleep {s : State} (hc : Canon s) : Canon (riserSleep s) := canon_foldl (fun _ _ hc1 => canon_ite
    hc1 (canon_setRiserState (canon_releaseAll hc1))) hc

theorem canon_riserStep {s : State} {d : Int} (hc : Canon s) : Canon (riserStep s d) := hc

end Sys2Proof.Machine
end

section
/-! Canonical form, kept by the operations of `Machine/Assay`. -/

namespace Sys2Proof.Machine

theorem canon_injectFrame {s : State} {body : List Nat} {d : Dest} {tc : Nat} {ll : Bool} {tRef upAt slice : Nat} (hc
    : Canon s) : Canon (injectFrame s body d tc ll tRef upAt slice) := canon_proceed (canon_addFrame (canon_freshId
    (canon_freshId hc)))

theorem canon_injectOuter {s : State} {x : Injected} (hc : Canon s) : Canon (injectOuter s x) := canon_ite hc
    (canon_injectFrame hc)

theorem canon_putAsyCtx {s : State} {c : Nat} {h : AsyCtx} (hc : Canon s) : Canon (putAsyCtx s c h) := hc

theorem canon_putAsy {s : State} {h : AsyHidden} (hc : Canon s) : Canon (putAsy s h) := hc

theorem canon_asyEvent {s : State} {mask : Nat} (hc : Canon s) : Canon (asyEvent s mask) := canon_event hc

theorem canon_migEvent {s : State} {mask : Nat} (hc : Canon s) : Canon (migEvent s mask) := canon_event hc

theorem canon_ctxEvent {s : State} {c mask : Nat} (hc : Canon s) : Canon (ctxEvent s c mask) := canon_event hc

theorem canon_noteOld {s : State} {c a : Nat} (hc : Canon s) : Canon (noteOld s c a) := canon_putAsyCtx hc

theorem canon_freeHist {s : State} {c : Nat} (hc : Canon s) : Canon (freeHist s c) := canon_putAsy hc

theorem canon_freeAll {s : State} (hc : Canon s) : Canon (freeAll s) := canon_foldl (fun _ _ hc1 => canon_freeHist
    hc1) hc

theorem canon_queueRec {s : State} {r : AsyRec} (hc : Canon s) : Canon (queueRec s r) := canon_ite (canon_asyEvent
    (canon_add64 hc)) (canon_putAsy hc)

theorem canon_readRec {s : State} {f : AsyFrame} {b : List Nat} (hc : Canon s) : Canon (readRec s f b) := canon_ite
    (canon_asyEvent (canon_add64 hc)) (canon_queueRec hc)

theorem canon_unpack {f : AsyFrame} {d : List Nat} {o x0 x1 : Nat} {x2 : State} (hc : Canon x2) :
    Canon (unpack f d o x0 x1 x2) := by
  induction x0 generalizing x1 x2 with
  | zero => exact hc
  | succ n ih =>
    exact canon_ite (canon_asyEvent (canon_add64 hc)) (canon_ite (canon_ite (canon_asyEvent (canon_add64
      (canon_readRec hc))) (ih (canon_readRec hc))) (canon_readRec hc))

theorem canon_toAssay {s : State} {f : AsyFrame} (hc : Canon s) : Canon (toAssay s f) := canon_putAsy hc

theorem canon_intakeFrame {s : State} {slice : Nat} (hc : Canon s) : Canon (intakeFrame s slice) := by
  unfold intakeFrame
  split
  · exact hc
  · refine canon_ite (canon_asyEvent (canon_add64 (canon_putAsy hc))) ?_
    dsimp only
    split
    · exact canon_unpack (canon_putAsy hc)
    · exact canon_asyEvent (canon_add64 (canon_putAsy hc))

theorem canon_mark {s : State} {c t : Nat} {late : Bool} (hc : Canon s) : Canon (mark s c t late) := canon_putAsy hc

theorem canon_sendMem {s : State} {x : AsyMem} (hc : Canon s) : Canon (sendMem s x) := canon_ite (canon_asyEvent
    (canon_mark (canon_add64 hc))) (canon_putAsy hc)

theorem canon_sendSlot {s : State} {r : AsyRec} {i j : Nat} (hc : Canon s) : Canon (sendSlot s r i j) := canon_ite hc
    (canon_foldl (fun _ _ hc1 => canon_sendMem hc1) hc)

theorem canon_lookupRec {s : State} {r : AsyRec} (hc : Canon s) : Canon (lookupRec s r) := by
  conv => arg 1; fun; fun; delta lookupRec
  extract_lets u
  have h1 : Canon u := canon_pmcEvent (canon_add64 hc)
  clear_value u
  split
  · exact canon_asyEvent (canon_add64 h1)
  · exact canon_foldl (fun _ _ h => canon_foldl (fun _ _ h => canon_sendSlot h) h) h1

theorem canon_grantOne {s : State} (hc : Canon s) : Canon (grantOne s) := by
  unfold grantOne
  split
  · exact hc
  · split
    · exact hc
    · exact canon_lookupRec (canon_putAsy hc)

theorem canon_grantMany {x0 : Nat} {x1 : State} (hc : Canon x1) : Canon (grantMany x0 x1) := by
  induction x0 generalizing x1 with
  | zero => exact hc
  | succ n ih => exact canon_ite hc (ih (canon_grantOne hc))

theorem canon_intakeGrant {s : State} (hc : Canon s) : Canon (intakeGrant s) := canon_grantMany (canon_putAsy hc)

theorem canonOpt_storeHist {s : State} {r : AsyHist} (hc : Canon s) : CanonOpt (storeHist s r) := by
  unfold storeHist
  dsimp only
  split
  · exact canonOpt_none
  · exact canonOpt_some (canon_putBank (canon_putAsy (canon_putAsyCtx (canon_freeHist hc))))

theorem canon_membership {s : State} {e : Nat} (hc : Canon s) : Canon (membership s e) := by
  unfold membership
  split
  · exact hc
  · refine canon_ite (canon_putAsy hc) ?_
    refine canon_ite (canon_ite (canon_putAsy hc) (canon_add64 (canon_putAsy hc))) ?_
    refine canon_ite (canon_ite (canon_mark (canon_putAsy hc)) (canon_ctxEvent (canon_mark (canon_add64 (canon_putAsy
      hc))))) ?_
    split
    · next he =>
        have hc1 := canonOpt_state (canonOpt_storeHist (canon_putAsy hc)) he
        exact hc1
    · exact canon_ctxEvent (canon_mark (canon_add64 (canon_putAsy hc)))

theorem canon_issueFrame {s : State} {d : Decision} {body : List Nat} (hc : Canon s) : Canon (issueFrame s d body) :=
    canon_injectFrame hc

theorem canon_issuePulse {s : State} {d : Decision} (hc : Canon s) : Canon (issuePulse s d) := by
  unfold issuePulse
  dsimp only
  split
  · exact canon_ite (canon_extRequest hc) (canon_asyEvent (canon_add64 hc))
  · exact canon_asyEvent (canon_add64 hc)

theorem canon_issue {s : State} {d : Decision} (hc : Canon s) : Canon (issue s d) := canon_ite (canon_trigger
    (canon_ite (canon_issuePulse (canon_ite (canon_issueFrame (canon_ctxEvent (canon_add64 hc))) (canon_ite
    (canon_issueFrame (canon_ctxEvent (canon_add64 hc))) (canon_ite (canon_queueRec (canon_ctxEvent (canon_add64
    hc))) (canon_ctxEvent (canon_add64 hc)))))) (canon_ite (canon_issueFrame (canon_ctxEvent (canon_add64 hc)))
    (canon_ite (canon_issueFrame (canon_ctxEvent (canon_add64 hc))) (canon_ite (canon_queueRec (canon_ctxEvent
    (canon_add64 hc))) (canon_ctxEvent (canon_add64 hc))))))) (canon_ite (canon_issuePulse (canon_ite
    (canon_issueFrame (canon_ctxEvent (canon_add64 hc))) (canon_ite (canon_issueFrame (canon_ctxEvent (canon_add64
    hc))) (canon_ite (canon_queueRec (canon_ctxEvent (canon_add64 hc))) (canon_ctxEvent (canon_add64 hc))))))
    (canon_ite (canon_issueFrame (canon_ctxEvent (canon_add64 hc))) (canon_ite (canon_issueFrame (canon_ctxEvent
    (canon_add64 hc))) (canon_ite (canon_queueRec (canon_ctxEvent (canon_add64 hc))) (canon_ctxEvent (canon_add64
    hc))))))

theorem canon_decideWindow {s : State} {c : Nat} {w : Nat × Nat} (hc : Canon s) : Canon (decideWindow s c w) :=
    canon_ite (canon_freeHist (canon_putAsyCtx hc)) (canon_freeHist (canon_ite (canon_ite (canon_pmcEvent
    (canon_putAsyCtx hc)) (canon_ctxEvent (canon_pmcEvent (canon_putAsyCtx hc)))) (canon_ite (canon_ctxEvent
    (canon_add64 (canon_add64 (canon_ite (canon_pmcEvent (canon_putAsyCtx hc)) (canon_ctxEvent (canon_pmcEvent
    (canon_putAsyCtx hc))))))) (canon_ite (canon_add64 (canon_ite (canon_pmcEvent (canon_putAsyCtx hc))
    (canon_ctxEvent (canon_pmcEvent (canon_putAsyCtx hc))))) (canon_ite (canon_putAsyCtx (canon_add64 (canon_ite
    (canon_pmcEvent (canon_putAsyCtx hc)) (canon_ctxEvent (canon_pmcEvent (canon_putAsyCtx hc)))))) (canon_issue
    (canon_wr (canon_putAsyCtx (canon_add64 (canon_ite (canon_pmcEvent (canon_putAsyCtx hc)) (canon_ctxEvent
    (canon_pmcEvent (canon_putAsyCtx hc)))))))))))))

theorem canon_setCtxStat {s : State} {c st e : Nat} (hc : Canon s) : Canon (setCtxStat s c st e) := canon_setFld
    (canon_setFld hc)

theorem canon_clearCtx {s : State} {c : Nat} (hc : Canon s) : Canon (clearCtx s c) := canon_putAsy hc

theorem canon_endMig {s : State} {m : AsyMig} {result st : Nat} (hc : Canon s) : Canon (endMig s m result st) :=
    canon_setCtxStat (canon_setFld (canon_setFld (canon_putAsyCtx (canon_putAsy hc))))

theorem canon_failMig {s : State} (hc : Canon s) : Canon (failMig s) := by
  unfold failMig
  split
  · exact hc
  · exact canon_migEvent (canon_endMig hc)

theorem canon_ctxEnable {s : State} {c v : Nat} (hc : Canon s) : Canon (ctxEnable s c v) := canon_setCtxStat
    (canon_clearCtx (canon_wr (canon_wr hc)))

theorem canon_ctxDisable {s : State} {c v : Nat} (hc : Canon s) : Canon (ctxDisable s c v) := by
  unfold ctxDisable
  refine canon_setCtxStat ?_
  refine canon_clearCtx ?_
  split
  · exact canon_ite (canon_failMig (canon_wr hc)) (canon_wr hc)
  · exact canon_wr hc

theorem canon_srcCommit {s : State} {i : Nat} {ws : List Nat} (hc : Canon s) : Canon (srcCommit s i ws) :=
    canon_foldl (fun _ _ hc1 => canon_wr hc1) hc

theorem canon_migWaiting {s : State} {m : AsyMig} {x : AsyMem} (hc : Canon s) : Canon (migWaiting s m x) := canon_ite
    hc (canon_ite (canon_sendMem (canon_putAsy hc)) (canon_ite (canon_sendMem hc) hc))

theorem canon_migGo {s : State} (hc : Canon s) : Canon (migGo s) := canon_ite (canon_failMig (canon_setCtxStat
    (canon_wr (canon_putAsyCtx (canon_foldl (fun _ _ hc1 => canon_migWaiting hc1) (canon_putAsy hc))))))
    (canon_setCtxStat (canon_wr (canon_putAsyCtx (canon_foldl (fun _ _ hc1 => canon_migWaiting hc1) (canon_putAsy
    hc)))))

theorem canon_keepHist {s : State} {r : AsyHist} (hc : Canon s) : Canon (keepHist s r) := by
  unfold keepHist
  split
  · next he =>
      have hc1 := canonOpt_state (canonOpt_storeHist hc) he
      exact hc1
  · exact canon_ctxEvent (canon_mark (canon_add64 hc))

theorem canon_copyHist {s : State} {j : AsyCopy} {r : AsyHist} (hc : Canon s) : Canon (copyHist s j r) :=
    canon_keepHist (canon_ite (canon_addSat hc) (canon_putAsy (canon_addSat hc)))

theorem canon_runCopy {s : State} {j : AsyCopy} (hc : Canon s) : Canon (runCopy s j) := canon_putAsy (canon_foldl
    (fun _ _ hc1 => canon_copyHist hc1) hc)

theorem canon_migLate {s : State} (hc : Canon s) : Canon (migLate s) := canon_migEvent (canon_ite (canon_setFld hc)
    hc)

theorem canon_migReached {s : State} (hc : Canon s) : Canon (migReached s) := by
  unfold migReached
  split
  · exact hc
  · exact canon_ite hc (canon_setCtxStat (canon_setFld (canon_putAsy hc)))

theorem canon_migHandover {s : State} (hc : Canon s) : Canon (migHandover s) := by
  unfold migHandover
  split
  · exact hc
  · refine canon_ite hc ?_
    dsimp only
    split
    · refine canon_foldl (fun _ _ hc1 => ?_) (canon_foldl (fun _ _ hc1 => canon_runCopy hc1) (canon_migReached hc))
      split
      · exact canon_ite (canon_decideWindow hc1) hc1
      · exact hc1
    · refine canon_migEvent ?_
      refine canon_setCtxStat ?_
      refine canon_setFld ?_
      refine canon_setFld ?_
      refine canon_putAsy ?_
      refine canon_wr ?_
      refine canon_setFld ?_
      refine canon_foldl (fun _ _ hc1 => ?_) (canon_foldl (fun _ _ hc1 => canon_runCopy hc1) (canon_migReached hc))
      split
      · exact canon_ite (canon_decideWindow hc1) hc1
      · exact hc1

theorem canon_decide1 {s : State} {c : Nat} (hc : Canon s) : Canon (decide1 s c) := by
  unfold decide1
  dsimp only
  split
  · exact canon_ite (canon_migHandover hc) hc
  · refine canon_ite (canon_ite (canon_migHandover hc) hc) ?_
    split
    · exact canon_decideWindow (canon_ite (canon_migHandover hc) hc)
    · exact canon_ite (canon_ite (canon_migHandover hc) hc) (canon_migLate (canon_putAsy (canon_ite
        (canon_migHandover hc) hc)))

theorem canon_decideDue {cs : List Nat} {x0 : Nat} {x1 : State} (hc : Canon x1) : Canon (decideDue cs x0 x1) := by
  induction x0 generalizing x1 with
  | zero => exact hc
  | succ n ih =>
    unfold decideDue
    extract_lets o h
    clear_value h
    refine canon_ite (ih (canon_migHandover hc)) ?_
    cases o with
    | none => exact hc
    | some x => exact ih (canon_decideWindow hc)

theorem canon_assayStep {s : State} (hc : Canon s) : Canon (assayStep s) := canon_ite hc (canon_freeAll
    (canon_decideDue hc))

theorem canon_migCopied {s : State} (hc : Canon s) : Canon (migCopied s) := by
  unfold migCopied
  split
  · exact hc
  · exact canon_decideDue (canon_ite (canon_migLate (canon_runCopy hc)) (canon_runCopy hc))

theorem canon_migCancel {s : State} (hc : Canon s) : Canon (migCancel s) := by
  unfold migCancel
  split
  · exact hc
  · exact canon_foldl (fun _ _ hc1 => canon_keepHist hc1) (canon_endMig (canon_putAsy hc))

theorem canon_assaySleep {s : State} (hc : Canon s) : Canon (assaySleep s) := canon_putAsy (canon_failMig hc)

theorem canon_assayWake {s : State} (hc : Canon s) : Canon (assayWake s) := canon_putAsy hc

end Sys2Proof.Machine
end

section
/-! Canonical form, kept by the operations of `Machine/Heats`. -/

namespace Sys2Proof.Machine

theorem canon_putCls {s : State} {h : ClsHidden} (hc : Canon s) : Canon (putCls s h) := hc

theorem canon_heatEvent {s : State} {mask : Nat} (hc : Canon s) : Canon (heatEvent s mask) := canon_event hc

theorem canon_clsEvent {s : State} {mask : Nat} (hc : Canon s) : Canon (clsEvent s mask) := canon_event hc

theorem canon_setSlotState {s : State} {x st : Nat} (hc : Canon s) : Canon (setSlotState s x st) := canon_setFld hc

theorem canon_setCommit {s : State} {o : Option HeatRec} (hc : Canon s) : Canon (setCommit s o) := canon_setFld
    (canon_putCls hc)

theorem canon_slotBad {s : State} {x cause e : Nat} (hc : Canon s) : Canon (slotBad s x cause e) := canon_ite
    (canon_heatEvent (canon_setSlotState (canon_wr hc))) (canon_wr hc)

theorem canon_finishCommit {s : State} {r : HeatRec} {result : Nat} (hc : Canon s) : Canon (finishCommit s r result)
    := by
  unfold finishCommit
  refine canon_heatEvent ?_
  split
  · exact canon_putCls (canon_wr (canon_setCommit hc))
  · exact canon_wr (canon_setCommit hc)

theorem canon_requestCommit {s : State} {heat t : Nat} {timed : Option Nat} (hc : Canon s) : Canon (requestCommit s
    heat t timed) := by
  unfold requestCommit
  split
  · dsimp only
    split
    · exact canon_putCls (canon_heatEvent (canon_setFld (canon_setFld hc)))
    · exact canon_heatEvent (canon_setFld (canon_setFld hc))
  · exact canon_setCommit (canon_wr (canon_wrTime hc))

theorem canon_examineCommit {s : State} (hc : Canon s) : Canon (examineCommit s) := by
  unfold examineCommit
  split
  · exact hc
  · exact canon_ite hc (canon_ite (canon_setCommit hc) (canon_ite (canon_setCommit hc) (canon_ite (canon_setCommit
      hc) (canon_setCommit hc))))

theorem canon_settleWaiting {s : State} (hc : Canon s) : Canon (settleWaiting s) := by
  unfold settleWaiting
  split
  · exact hc
  · exact canon_ite hc (canon_ite (canon_finishCommit hc) (canon_ite (canon_ite (canon_setCommit hc)
      (canon_finishCommit hc)) hc))

theorem canon_activate {s : State} {r : HeatRec} {arriving : List Nat} (hc : Canon s) : Canon (activate s r arriving)
    := by
  unfold activate
  refine canon_putCls ?_
  refine canon_wrTime ?_
  refine canon_setFld ?_
  refine canon_setFld ?_
  refine canon_setBit ?_
  refine canon_setSlotState ?_
  split
  · exact canon_putCls (canon_setSlotState hc)
  · exact hc

theorem canon_executeCommit {s : State} {arriving : List Nat} (hc : Canon s) : Canon (executeCommit s arriving) := by
  unfold executeCommit
  split
  · exact hc
  · split
    · exact hc
    · exact canon_ite hc (canon_ite (canon_finishCommit hc) (canon_ite (canon_ite (canon_finishCommit (canon_activate
        hc)) (canon_finishCommit hc)) (canon_finishCommit hc)))

theorem canon_commitTimeout {s : State} (hc : Canon s) : Canon (commitTimeout s) := by
  unfold commitTimeout
  split
  · exact hc
  · exact canon_ite (canon_finishCommit hc) hc

theorem canon_rewriteEntry {s : State} {slice x e : Nat} (hc : Canon s) : Canon (rewriteEntry s slice x e) :=
    canon_ite hc (canon_ite (canon_putCls hc) (canon_settleWaiting (canon_slotBad hc)))

theorem canon_scrubEntry {s : State} {slice x e : Nat} {f : EccFault} (hc : Canon s) : Canon (scrubEntry s slice x e
    f) := by
  unfold scrubEntry
  split
  · exact canon_clsEvent hc
  · exact canon_clsEvent (canon_add64 (canon_putCls hc))

theorem canon_heatLoad {s : State} {heat : Nat} (hc : Canon s) : Canon (heatLoad s heat) := canon_putCls
    (canon_resetRegs (canon_wr (canon_wr (canon_setSlotState hc))))

theorem canon_clearSlot {s : State} {x : Nat} (hc : Canon s) : Canon (clearSlot s x) := canon_foldl (fun _ _ hc1 =>
    canon_wr hc1) (canon_putCls (canon_resetRegs hc))

theorem canon_heatCleared {s : State} (hc : Canon s) : Canon (heatCleared s) := canon_foldl (fun _ _ hc1 =>
    canon_clearSlot hc1) hc

theorem canon_mouldWrite {s : State} {a v : Nat} (hc : Canon s) : Canon (mouldWrite s a v) := canon_ite (canon_putCls
    hc) (canon_wr hc)

theorem canon_heatSeal {s : State} (hc : Canon s) : Canon (heatSeal s) := canon_setSlotState hc

theorem canon_heatDiscard {s : State} (hc : Canon s) : Canon (heatDiscard s) := canon_setBit (canon_setSlotState hc)

theorem canon_heatCancel {s : State} (hc : Canon s) : Canon (heatCancel s) := by
  unfold heatCancel
  split
  · exact canon_finishCommit hc
  · exact hc

theorem canon_heatSealed {s : State} (hc : Canon s) : Canon (heatSealed s) := by
  unfold heatSealed
  refine canon_ite hc ?_
  split
  · exact canon_settleWaiting (canon_slotBad hc)
  · exact canon_settleWaiting (canon_heatEvent (canon_setSlotState (canon_wr (canon_wr hc))))

theorem canon_countArrival {s : State} {p t : Nat} (hc : Canon s) : Canon (countArrival s p t) := canon_ite
    (canon_putCls hc) hc

theorem canon_heatDrained {s : State} {x : Nat} (hc : Canon s) : Canon (heatDrained s x) := canon_ite
    (canon_settleWaiting (canon_heatEvent (canon_setSlotState hc))) hc

theorem canon_heatForced {s : State} {x : Nat} (hc : Canon s) : Canon (heatForced s x) := canon_ite
    (canon_settleWaiting (canon_heatEvent (canon_setSlotState (canon_putCls (canon_with_buf_asy hc))))) hc

end Sys2Proof.Machine
end

section
/-! Canonical form, kept by the operations of `Machine/Rings`. -/

namespace Sys2Proof.Machine

theorem canon_ringAdvance {s : State} {r : Nat} (hc : Canon s) : Canon (ringAdvance s r) := canon_ite (canon_wr hc)
    (canon_wr (canon_with_host hc))

theorem canon_ringWrite {s : State} {r w0 : Nat} {rest : List Nat} (hc : Canon s) : Canon (ringWrite s r w0 rest) :=
    canon_raise (canon_pmcEvent (canon_ringAdvance (canon_emit hc)))

theorem canon_ringStart {s : State} {r : Nat} (hc : Canon s) : Canon (ringStart s r) := canon_with_host (canon_wr
    (canon_wr hc))

theorem canon_writeRingCfg {s : State} {r v : Nat} (hc : Canon s) : Canon (writeRingCfg s r v) := canon_ite
    (canon_ringStart (canon_wr hc)) (canon_wr hc)

theorem canon_captWrite {s : State} {f : Frame} (hc : Canon s) : Canon (captWrite s f) := canon_setFld (canon_setFld
    (canon_putBank hc))

theorem canon_writeCaptRd {s : State} {v : Nat} (hc : Canon s) : Canon (writeCaptRd s v) := canon_setFld (canon_wr hc)

theorem canon_telRecord {s : State} {r g t : Nat} (hc : Canon s) : Canon (telRecord s r g t) := canon_ite
    (canon_add64 hc) (canon_with_host (canon_ringWrite hc))

theorem canon_telSample {s : State} {r : Nat} (hc : Canon s) : Canon (telSample s r) := canon_ite hc (canon_foldl
    (fun _ _ hc1 => canon_telRecord hc1) (canon_with_host hc))

theorem canon_ringsStop {s : State} (hc : Canon s) : Canon (ringsStop s) := canon_foldl (fun _ _ hc1 => canon_ite
    (canon_setBit hc1) hc1) hc

end Sys2Proof.Machine
end

section
/-! Canonical form, kept by the operations of `Machine/Classify`. -/

namespace Sys2Proof.Machine

theorem canon_setTokens {s : State} {b n : Nat} (hc : Canon s) : Canon (setTokens s b n) := canon_putCls hc

theorem canon_puntRefill {s : State} (hc : Canon s) : Canon (puntRefill s) := canon_putCls (canon_foldl (fun _ _ hc1
    => canon_setTokens hc1) hc)

theorem canon_writePunt {s : State} {b v : Nat} (hc : Canon s) : Canon (writePunt s b v) := canon_wr (canon_putCls
    (canon_puntRefill hc))

theorem canon_punt {s : State} {f : Frame} {r : Nat} (hc : Canon s) : Canon (punt s f r).1 := by
  generalize h : punt s f r = q
  unfold punt at h
  extract_lets u v w at h
  have h1 : Canon u := canon_puntRefill hc
  have h2 : Canon w := canon_pmcEvent (canon_add64 (canon_setTokens (canon_setTokens h1)))
  clear_value u v w
  split at h
  · split at h
    · exact h ▸ canon_clsEvent (canon_slag (canon_add64 h2))
    · exact h ▸ canon_ringWrite h2
  · exact h ▸ canon_clsEvent (canon_add64 h1)

theorem canon_toRiser {s : State} {f : Frame} {pkt : Option Nat} (hc : Canon s) : Canon (toRiser s f pkt) := by
  unfold toRiser
  split
  · exact hc
  · exact canon_with_buf hc

theorem canon_forward {s : State} {k : Pkt} {f : Frame} {d : Dest} {tc : Nat} {ll : Bool} (hc : Canon s) : Canon
    (forward s k f d tc ll) := canon_ite (canon_toRiser (canon_movePkt (canon_putFrame hc))) (canon_proceed
    (canon_toRiser (canon_putFrame hc)))

theorem canon_finish {s : State} {k : Pkt} {f : Frame} (hc : Canon s) : Canon (finish s k f) := canon_removePkt
    (canon_toRiser hc)

theorem canon_capture {s : State} {k : Pkt} {f : Frame} (hc : Canon s) : Canon (capture s k f) := canon_ite
    (canon_finish (canon_slag (canon_add64 hc))) (canon_finish (canon_captWrite hc))

theorem canon_defaultAction {s : State} {k : Pkt} {f : Frame} {c : Nat} (hc : Canon s) :
    Canon (defaultAction s k f c) := by
  conv => arg 1; fun; fun; fun; fun; delta defaultAction
  extract_lets u w
  have h1 : Canon u := canon_add64 hc
  clear_value u w
  split
  · exact canon_finish (canon_slag h1)
  · exact canon_forward h1
  · split
    next t ok e =>
      have h2 := canon_fst (canon_punt h1) e
      exact canon_finish (canon_ite h2 (canon_slag h2))
  · exact canon_capture h1

theorem canon_puntOrDefault {s : State} {k : Pkt} {f : Frame} {r : Nat} (hc : Canon s) : Canon (puntOrDefault s k f
    r) := canon_ite (canon_finish (canon_punt hc)) (canon_defaultAction (canon_punt hc))

theorem canon_recirculate {s : State} {k : Pkt} {f : Frame} (hc : Canon s) : Canon (recirculate s k f) := canon_ite
    (canon_finish (canon_clsEvent (canon_slag (canon_add64 hc)))) (canon_ite (canon_finish (canon_qmEvent (canon_slag
    hc))) (canon_toRiser (canon_movePkt (canon_storeFrame hc))))

theorem canon_steer {s : State} {k : Pkt} {f : Frame} {key : Key} (hc : Canon s) : Canon (steer s k f key) :=
    canon_finish (canon_toAssay (canon_pmcEvent hc))

theorem canon_operate {s : State} {k : Pkt} {f : Frame} {key : Key} {a : Nat} (hc : Canon s) : Canon (operate s k f
    key a) := by
  unfold operate
  split
  · exact canon_finish (canon_slag hc)
  · exact canon_forward hc
  · exact canon_forward hc
  · exact canon_forward hc
  · exact canon_puntOrDefault hc
  · exact canon_capture hc
  · exact canon_steer hc
  · exact canon_recirculate hc
  · exact canon_defaultAction hc

theorem canon_applyFound {s : State} {k : Pkt} {f : Frame} {key : Key} {x : Found} (hc : Canon s) :
    Canon (applyFound s k f key x) := by
  unfold applyFound
  cases x with
  | fail c => exact canon_defaultAction (canon_clsEvent (canon_pmcEvent (canon_add64 hc)))
  | noHeat => exact canon_defaultAction hc
  | error => exact canon_defaultAction hc
  | miss => exact canon_puntOrDefault (canon_pmcEvent (canon_add64 hc))
  | hit e =>
    refine canon_operate (canon_ite ?_ (canon_add64 hc))
    split
    next t ok e =>
      have h2 := canon_fst (canon_punt (canon_add64 hc)) e
      exact canon_ite h2 (canon_slag h2)

theorem canon_takeDelivered {s : State} {p id : Nat} {bytes : List Byte} {u : State × Bool} (hc : Canon s)
    (hu : takeDelivered s p id bytes = some u) : Canon u.1 := by
  unfold takeDelivered at hu
  split at hu
  · cases hu; exact hc
  · dsimp only at hu
    split at hu
    · cases hu; exact canon_putTrunk hc
    · split at hu
      · cases hu; exact canon_putTrunk hc
      · cases hu

theorem canon_enterFrame {s : State} {f : Frame} {d : List Nat} {x : Found} {key : Key} (hc : Canon s) : Canon
    (enterFrame s f d x key) := canon_applyFound (canon_ite (canon_rsqEvent (canon_add64 (canon_pmcEvent
    (canon_with_buf (canon_addFrame (canon_freshId hc)))))) (canon_pmcEvent (canon_with_buf (canon_addFrame
    (canon_freshId hc)))))

theorem canonOpt_dropReceived {s : State} {p : Nat} (hc : Canon s) : CanonOpt (dropReceived s p) := canonOpt_ite
    (canonOpt_some (canon_slag hc)) (canonOpt_ite (canonOpt_some (canon_slag (canon_add64 hc))) canonOpt_none)

theorem canon_classifyFrame {s : State} {p : Nat} {bytes : List Byte} {st : RxStamp} {sinceSof : Nat}
    (hc : Canon s) : Canon (classifyFrame s p bytes st sinceSof) := by
  unfold classifyFrame
  refine canon_ite hc ?_
  extract_lets before
  clear_value before
  split
  next id u hid =>
    have h0 := canon_snd (canon_freshId hc) hid
    split
    · exact h0
    next v early ht =>
      have h1 := canon_takeDelivered h0 ht
      extract_lets w f0 f x y
      have h2 : Canon w := canon_ite (canon_countArrival h1) h1
      have h3 : Canon y := canon_ite (canon_pmcEvent (canon_pmcEvent (canon_pmcEvent h2))) (canon_pmcEvent (canon_pmcEvent h2))
      clear_value w f0 f x y
      split
      next t hd => exact canon_releaseReady (canon_ite h3 (canonOpt_dropReceived h3 t hd))
      · refine canon_ite (canon_releaseReady h3) ?_
        split
        exact canon_ite (canon_releaseReady h3) (canon_releaseReady (canon_enterFrame h3))

theorem canon_takePath {s : State} {slice n : Nat} (hc : Canon s) : Canon (takePath s slice n) := hc

theorem canon_reenterFrame {s : State} {slice : Nat} {ecc : Option EccFault} (hc : Canon s) : Canon (reenterFrame s
    slice ecc) := by
  unfold reenterFrame
  refine canon_ite hc ?_
  split
  · exact hc
  · split
    · exact canon_dropPkt hc
    · exact canon_ite hc (canon_withEcc (canon_takePath hc) (fun _ hc1 => canon_ite (canon_removePkt (canon_slag
        (canon_add64 (canon_refreshGlobal (canon_putFrame (canon_pmcEvent (canon_add64 (canon_foldl (fun _ _ hc2 =>
        canon_grantRead hc2) hc1)))))))) (canon_applyFound (canon_refreshGlobal (canon_putFrame (canon_pmcEvent
        (canon_add64 (canon_foldl (fun _ _ hc2 => canon_grantRead hc2) hc1))))))))

theorem canon_writePrsCfg {s : State} {v : Nat} (hc : Canon s) : Canon (writePrsCfg s v) := canon_wr (canon_putCls hc)

end Sys2Proof.Machine
end

section
/-! Canonical form, kept by the operations of `Machine/Mailbox`. -/

namespace Sys2Proof.Machine

theorem canon_setMbx {s : State} {st : Nat} (hc : Canon s) : Canon (setMbx s st) := canon_wr hc

theorem canon_mbxDoor {s : State} {v : Nat} (hc : Canon s) : Canon (mbxDoor s v) := canon_ite (canon_raise
    (canon_setMbx (canon_with_host hc))) (canon_ite (canon_setMbx hc) hc)

theorem canon_mbxAct {s : State} (hc : Canon s) : Canon (mbxAct s) := canon_ite (canon_emit hc) (canon_ite
    (canon_emit hc) (canon_ite (canon_emit hc) hc))

theorem canon_putResponse {s : State} {w : Nat} {x0 : List Nat} (hc : Canon s) : Canon (putResponse s w x0) := by
  induction x0 generalizing s w with
  | nil => exact hc
  | cons x l ih => exact ih (canon_wr hc)

theorem canon_mbxRespond {s : State} {data : List Nat} {ioOk : Bool} (hc : Canon s) : Canon (mbxRespond s data ioOk)
    := canon_ite hc (canon_raise (canon_setMbx (canon_putResponse (canon_ite (canon_mbxAct hc) hc))))

theorem canon_sendHeld {s : State} {n : Nat} (hc : Canon s) : Canon (sendHeld s n) := canon_ite (canon_setBit hc)
    (canon_routeMsix hc)

theorem canon_hostLinkUp {s : State} (hc : Canon s) : Canon (hostLinkUp s) := canon_foldl (fun _ _ hc1 =>
    canon_sendHeld hc1) (canon_with_int hc)

theorem canon_linkL1 {s : State} (hc : Canon s) : Canon (linkL1 s) := by
  unfold linkL1
  split
  · exact canon_with_int hc
  · exact hc

theorem canon_linkL1Exit {s : State} (hc : Canon s) : Canon (linkL1Exit s) := by
  unfold linkL1Exit
  split
  · exact canon_pmcEvent (canon_hostLinkUp hc)
  · exact canon_pmcEvent (canon_hostLinkUp hc)
  · exact hc

theorem canon_linkD3 {s : State} {pmeEn : Bool} (hc : Canon s) : Canon (linkD3 s pmeEn) := canon_ite hc
    (canon_with_int hc)

theorem canon_linkD0 {s : State} (hc : Canon s) : Canon (linkD0 s) := by
  unfold linkD0
  split
  · exact canon_hostLinkUp hc
  · exact hc

theorem canon_unmask {s : State} {n : Nat} (hc : Canon s) : Canon (unmask s n) := canon_ite (canon_routeMsix
    (canon_setBit hc)) hc

theorem canon_writeMask {s : State} {v : Option Nat} {mask : Bool} (hc : Canon s) : Canon (writeMask s v mask) := by
  unfold writeMask
  split
  · exact canon_unmask (canon_setBit hc)
  · exact canon_foldl (fun _ _ hc1 => canon_unmask hc1) (canon_with_int hc)

end Sys2Proof.Machine
end

section
/-! Canonical form, kept by the operations of `Machine/Power`. -/

namespace Sys2Proof.Machine

/-- The registers are in canonical form, and so are the banks' bytes outside the banks of the list. -/
def CanonOff (l : List Nat) (s : State) : Prop :=
  CanonMaps s.regs (s.mem.filter fun e => decide (e.1 / 2 ^ 24 ∉ l)) s.banks

theorem canon_of_canonOff_nil {s : State} (h : CanonOff [] s) : Canon s := by
  simpa [CanonOff, Canon] using h

/-- Of the banks whose bytes are out of form, clearing one leaves the others. -/
theorem canonOff_clearBank {s : State} {b : Nat} {l : List Nat} {zero : Bool} (h : CanonOff (b :: l) s) :
    CanonOff l (s.clearBank b zero) := by
  refine ⟨h.1, ?_⟩
  have hm : (s.clearBank b zero).mem.filter (fun e => decide (e.1 / 2 ^ 24 ∉ l)) =
      s.mem.filter fun e => decide (e.1 / 2 ^ 24 ∉ b :: l) := by
    show (s.mem.filter fun e => decide (e.1 / 2 ^ 24 ≠ b)).filter _ = _
    rw [List.filter_filter]
    congr 1
    funext e
    simp [not_or, Bool.and_comm]
  rw [hm, cells_wfFrom_congr _ (bankDefault s.banks)]
  · exact h.2
  · intro e he
    have hb : e.1 / 2 ^ 24 ≠ b := by
      have := (List.mem_filter.mp he).2
      simp at this
      exact this.1
    show bankDefault (Map.put {} s.banks b _) e.1 = _
    unfold bankDefault
    rw [map_get_put_ne _ _ _ _ hb]

theorem canon_clearBanks {l : List Nat} {s : State} {zero : Bool} (h : CanonOff l s) :
    Canon (l.foldl (fun s b => s.clearBank b zero) s) := by
  induction l generalizing s with
  | nil => exact canon_of_canonOff_nil h
  | cons b l ih => exact ih (canonOff_clearBank h)

/-- The hidden state of the banks that hold nothing without the data die is forgotten before their bytes are. -/
theorem canonOff_clearHidden {s : State} (hc : Canon s) : CanonOff dataBanks (clearHidden s) := by
  refine ⟨hc.1, ?_⟩
  show Cells.wfFrom (bankDefault (s.banks.filter fun e => !dataBanks.contains e.1)) 0
    (s.mem.filter fun e => decide (e.1 / 2 ^ 24 ∉ dataBanks)) = true
  rw [cells_wfFrom_congr _ (bankDefault s.banks)]
  · exact cells_wfFrom_filter _ _ s.mem 0 hc.2
  · intro e he
    have hb : e.1 / 2 ^ 24 ∉ dataBanks := by simpa using (List.mem_filter.mp he).2
    have hg : Map.get {} (s.banks.filter fun e => !dataBanks.contains e.1) (e.1 / 2 ^ 24) =
        Map.get {} s.banks (e.1 / 2 ^ 24) :=
      (map_get_filter_keys {} (fun i => !dataBanks.contains i) s.banks _).trans (if_pos (by simpa using hb))
    rw [bankDefault, bankDefault, hg]

theorem canonOff_resetRegs {s : State} {l : List Nat} {p : Nat → Bool} (h : CanonOff l s) :
    CanonOff l (s.resetRegs p) := ⟨regs_wf_resetRegs s p h.1, h.2⟩

theorem canon_placeRetired {s : State} (hc : Canon s) : Canon (placeRetired s) := canon_foldl (fun _ _ hc1 =>
    canon_setFld (canon_setBit hc1)) (canon_foldl (fun _ _ hc1 => canon_setLaneFlag (canon_setLaneState hc1)) hc)

theorem canon_dieReset {s : State} (hc : Canon s) : Canon (dieReset s) :=
  canon_placeRetired (canon_setBit (canon_foldl (fun _ _ hc => canon_setFld hc) (canon_clearBanks
    (canonOff_clearHidden (canon_resetRegs (canon_tbDataDieStops (canon_ite (canon_saveFail hc) hc)))))))

theorem canon_coldReset {s : State} {cause : Nat} : Canon (coldReset s cause) :=
  ⟨regs_wf_reset, rfl⟩

theorem canon_setBoot {s : State} {st : Nat} (hc : Canon s) : Canon (setBoot s st) := canon_raise (canon_setFld hc)

theorem canon_dieStart {s : State} (hc : Canon s) : Canon (dieStart s) := canon_ite hc (canon_setBoot (canon_setFld
    (canon_with_power hc)))

theorem canon_warmDown {s : State} {c : Nat} (hc : Canon s) : Canon (warmDown s c) := canon_with_power
    (canon_dieReset hc)

theorem canon_warmReset {s : State} (hc : Canon s) : Canon (warmReset s) := canon_ite (canon_dieStart (canon_warmDown
    hc)) hc

theorem canon_timingReset {s : State} (_ : Canon s) : Canon (timingReset s) := canon_coldReset

theorem canon_mainLoss {s : State} (hc : Canon s) : Canon (mainLoss s) := canon_with_power (canon_warmDown hc)

theorem canon_thermalTrip {s : State} (hc : Canon s) : Canon (thermalTrip s) := canon_with_power (canon_warmDown hc)

theorem canon_startDie {s : State} {cool : Bool} (hc : Canon s) : Canon (startDie s cool) := canon_ite
    (canon_dieStart (canon_ite (canon_with_power hc) hc)) hc

theorem canon_mainRise {s : State} (hc : Canon s) : Canon (mainRise s) := canon_ite hc (canon_with_power hc)

theorem canon_kaLoss {s : State} (_ : Canon s) : Canon (kaLoss s) := canon_with_power canon_coldReset

theorem canon_kaRise {s : State} (hc : Canon s) : Canon (kaRise s) := canon_ite hc (canon_with_power canon_coldReset)

theorem canon_resetNLow {s : State} (hc : Canon s) : Canon (resetNLow s) := canon_ite hc (canon_with_power
    (canon_warmDown hc))

theorem canon_resetNHigh {s : State} (hc : Canon s) : Canon (resetNHigh s) := canon_dieStart (canon_with_power hc)

theorem canon_hostReset {s : State} (hc : Canon s) : Canon (hostReset s) := canon_with_guardHost_int_host
    (canon_resetRegs hc)

theorem canon_tapScan {s : State} {x : TapScan} (hc : Canon s) : Canon (tapScan s x) := canon_ite (canon_with_power
    (canon_emit hc)) (canon_emit hc)

theorem canon_tapInstr {s : State} {i : TapInstr} (hc : Canon s) : Canon (tapInstr s i) := by
  unfold tapInstr
  dsimp only
  split
  · exact canon_with_power hc
  · exact canon_with_power hc
  · exact canon_with_power hc
  · exact canon_with_power (canon_ite (canon_with_power hc) (canon_warmDown (canon_with_power hc)))
  · exact canon_with_power (canon_ite (canon_with_power hc) (canon_warmDown (canon_with_power hc)))
  · exact canon_with_power (canon_ite (canon_with_power hc) (canon_warmDown (canon_with_power hc)))

theorem canon_tapReset {s : State} (hc : Canon s) : Canon (tapReset s) := canon_dieStart (canon_with_power hc)

end Sys2Proof.Machine
end

section
/-! Canonical form, kept by the operations of `Machine/Scratch`. -/

namespace Sys2Proof.Machine

theorem canon_memEvent {s : State} {mask : Nat} (hc : Canon s) : Canon (memEvent s mask) := canon_ite (canon_event
    hc) hc

/-- What is kept of a bank beside its bytes may change, as long as what unlisted bytes read as stays. -/
theorem canon_putBankH {s : State} {b : Nat} {h : BankHidden} (hc : Canon s) (e : h.undefd = (s.bank b).undefd) :
    Canon (putBankH s b h) := by
  have hd : bankDefault (Map.put {} s.banks b h) = bankDefault s.banks := by
    funext k
    unfold bankDefault
    by_cases hk : k / 2 ^ 24 = b
    · rw [hk, map_get_put_self, e]
      rfl
    · rw [map_get_put_ne _ _ _ _ hk]
  refine ⟨hc.1, ?_⟩
  show Cells.wfFrom (bankDefault (Map.put {} s.banks b h)) 0 s.mem = true
  rw [hd]
  exact hc.2

/-- The same, where the state's banks are those of a state before. -/
theorem canon_putBankH_of {s t : State} {b : Nat} {h : BankHidden} (hc : Canon t) (hb : t.banks = s.banks)
    (e : h.undefd = (s.bank b).undefd) : Canon (putBankH t b h) :=
  canon_putBankH hc (by rw [e, State.bank, State.bank, hb])

theorem canon_setBankState {s : State} {b st : Nat} (hc : Canon s) : Canon (setBankState s b st) := canon_setFld hc

theorem canon_setBankPending {s : State} {b : Nat} {p : Bool} (hc : Canon s) : Canon (setBankPending s b p) :=
    canon_setBit hc

theorem canon_bankBegin {s : State} {b req : Nat} (hc : Canon s) : Canon (bankBegin s b req) :=
  canon_ite hc (canon_putBankH_of (canon_setBankState hc) (setFld_banks ..) rfl)

theorem canon_bankRequest {s : State} {b v : Nat} (hc : Canon s) : Canon (bankRequest s b v) := by
  unfold bankRequest
  dsimp only
  split
  · exact canon_setBankPending (canon_putBankH_of (canon_wr hc) rfl rfl)
  · exact canon_wr hc
  · exact canon_bankBegin (canon_wr hc)

theorem canon_bankChanged {s : State} {b : Nat} (hc : Canon s) : Canon (bankChanged s b) := by
  unfold bankChanged
  extract_lets h
  split
  · exact hc
  next g _ =>
    extract_lets u v
    have h1 : Canon u := canon_putBankH_of (canon_setBankState hc) (setFld_banks ..) rfl
    have h2 : Canon v := canon_ite (canon_clearBank h1) h1
    clear_value u v
    split
    · exact h2
    · exact canon_bankBegin (canon_setBankPending h2)

theorem canon_repairRow {s : State} {b row mask : Nat} (hc : Canon s) : Canon (repairRow s b row mask) := by
  unfold repairRow
  exact canon_ite (canon_memEvent (canon_putBankH_of (canon_setFld hc) (setFld_banks ..) rfl))
    (canon_memEvent (canon_putBankH_of (canon_setBankPending (canon_setBankState hc))
      ((setBit_banks ..).trans (setFld_banks ..)) rfl))

theorem canon_bankCorrected {s : State} {b word : Nat} (hc : Canon s) : Canon (bankCorrected s b word) := canon_ite
    (canon_repairRow (canon_putBankH (canon_addSat hc) rfl)) (canon_memEvent (canon_putBankH (canon_addSat hc) rfl))

theorem canon_bankUncorrectable {s : State} {b word : Nat} (hc : Canon s) : Canon (bankUncorrectable s b word) :=
    canon_repairRow (canon_ite (canon_wr (canon_putBank hc)) (canon_putBank hc))

theorem canon_bankError {s : State} {b word : Nat} {ue : Bool} (hc : Canon s) : Canon (bankError s b word ue) :=
    canon_ite (canon_ite (canon_bankUncorrectable hc) (canon_bankCorrected hc)) hc

theorem canon_marchStart {s : State} {banks : Nat} {preserving : Bool} (hc : Canon s) : Canon (marchStart s banks
    preserving) := canon_ite (canon_wr (canon_with_march hc)) (canon_foldl (fun _ _ hc1 => canon_clearBank hc1)
    (canon_wr (canon_with_march hc)))

theorem canon_writeMarch {s : State} {v : Nat} (hc : Canon s) : Canon (writeMarch s v) := canon_ite (canon_marchStart
    (canon_wr hc)) (canon_wr hc)

theorem canon_marchEnd {s : State} {failing : List (Nat × Nat)} (hc : Canon s) : Canon (marchEnd s failing) := by
  unfold marchEnd
  split
  · exact hc
  · exact canon_memEvent (canon_wr (canon_foldl (fun _ _ hc1 => canon_repairRow hc1) (canon_with_march (canon_ite hc
      (canon_foldl (fun _ _ hc1 => canon_clearBank hc1) hc)))))

theorem canon_pmcFreeze {s : State} (hc : Canon s) : Canon (pmcFreeze s) := canon_setBit hc

theorem canon_pmcRun {s : State} (hc : Canon s) : Canon (pmcRun s) := canon_setBit hc

theorem canon_pmcSnap {s : State} (hc : Canon s) : Canon (pmcSnap s) := canon_foldl (fun _ _ hc1 => canon_foldl (fun
    _ _ hc2 => canon_wr hc2) hc1) hc

theorem canon_pmcCtrl {s : State} {v : Nat} (hc : Canon s) : Canon (pmcCtrl s v) := by
  unfold pmcCtrl
  extract_lets u
  have h : Canon u := canon_ite (canon_pmcSnap hc) hc
  clear_value u
  have h2 := canon_pick (d := false) (x0 := [false, true]) h
  generalize u.pick false [false, true] = x at h2 ⊢
  exact canon_ite (canon_ite (canon_pmcFreeze h2) (canon_pmcRun h2)) (canon_ite (canon_pmcFreeze h)
    (canon_ite (canon_pmcRun h) h))

theorem canon_pmcClear {s : State} {mask : Nat} (hc : Canon s) : Canon (pmcClear s mask) := canon_foldl (fun _ _ hc1
    => canon_foldl (fun _ _ hc2 => canon_wr hc2) hc1) hc

theorem canon_pmcWrap {s : State} {g j : Nat} (hc : Canon s) : Canon (pmcWrap s g j) := canon_ite (canon_event
    (canon_with_pmcWraps hc)) hc

theorem canon_writeSnpList {s : State} {i v : Nat} (hc : Canon s) : Canon (writeSnpList s i v) := canon_wr (canon_wr
    hc)

theorem canon_snpTrig {s : State} (hc : Canon s) : Canon (snpTrig s) := canon_trigger hc

theorem canon_snpFire {s : State} (hc : Canon s) : Canon (snpFire s) := by
  conv => arg 1; fun; delta snpFire
  exact canon_trigger (canon_setBit hc)

theorem canon_snpArm {s : State} (hc : Canon s) : Canon (snpArm s) := canon_ite (canon_snpEvent (canon_snpFire hc))
    (canon_setBit hc)

theorem canon_snpDisarm {s : State} (hc : Canon s) : Canon (snpDisarm s) := canon_setBit hc

theorem canon_snpCtrl {s : State} {v : Nat} (hc : Canon s) : Canon (snpCtrl s v) := by
  unfold snpCtrl
  extract_lets u
  have h : Canon u := canon_ite (canon_snpTrig hc) hc
  clear_value u
  have h2 := canon_pick (d := false) (x0 := [false, true]) h
  generalize u.pick false [false, true] = x at h2 ⊢
  exact canon_ite (canon_ite (canon_snpArm h2) (canon_snpDisarm h2)) (canon_ite (canon_snpArm h)
    (canon_ite (canon_snpDisarm h) h))

theorem canon_snpReached {s : State} (hc : Canon s) : Canon (snpReached s) := canon_ite (canon_snpFire hc) hc

theorem canon_snpEdge {s : State} {rising : Bool} (hc : Canon s) : Canon (snpEdge s rising) := canon_ite
    (canon_trigger (canon_draw hc)) hc

theorem canon_snpCopied {s : State} (hc : Canon s) : Canon (snpCopied s) := canon_ite (canon_finishIngot hc) hc

theorem canon_snpFree {s : State} {high : Bool} {v : Nat} (hc : Canon s) : Canon (snpFree s high v) := canon_foldl
    (fun _ _ hc1 => canon_setSlot hc1) hc

end Sys2Proof.Machine
end

section
/-! Canonical form, kept by the operations of `Machine/Tac`. -/

namespace Sys2Proof.Machine

theorem canon_tacEvent {s : State} {mask : Nat} (hc : Canon s) : Canon (tacEvent s mask) := canon_event hc

theorem canon_putTac {s : State} {h : TacHidden} (hc : Canon s) : Canon (putTac s h) := hc

theorem canon_setPairBit {s : State} {lo p : Nat} {b : Bool} (hc : Canon s) : Canon (setPairBit s lo p b) :=
    canon_setBit hc

theorem canon_refreshTree {s : State} (hc : Canon s) : Canon (refreshTree s) := by
  unfold refreshTree
  dsimp only
  split
  · exact canon_setFld (canon_setBit (canon_foldl (fun _ _ hc1 => canon_ite (canon_ite (canon_setPairBit (canon_ite
      (canon_setPairBit hc1) hc1)) (canon_ite (canon_setPairBit hc1) hc1)) (canon_setPairBit (canon_ite
      (canon_setPairBit (canon_ite (canon_setPairBit hc1) hc1)) (canon_ite (canon_setPairBit hc1) hc1)))) hc))
  · exact canon_setFld (canon_setFld (canon_setBit (canon_foldl (fun _ _ hc1 => canon_ite (canon_ite
      (canon_setPairBit (canon_ite (canon_setPairBit hc1) hc1)) (canon_ite (canon_setPairBit hc1) hc1))
      (canon_setPairBit (canon_ite (canon_setPairBit (canon_ite (canon_setPairBit hc1) hc1)) (canon_ite
      (canon_setPairBit hc1) hc1)))) hc)))

theorem canon_writeDepth {s : State} {steps : Nat} (hc : Canon s) : Canon (writeDepth s steps) := canon_ite
    (canon_setFld hc) hc

theorem canon_expectClear {s : State} {high : Bool} {v : Nat} (hc : Canon s) : Canon (expectClear s high v) :=
    canon_foldl (fun _ _ hc1 => canon_setPairBit hc1) hc

theorem canon_sendAction {s : State} {p : Nat} {d : List Nat} (hc : Canon s) : Canon (sendAction s p d) := canon_ite
    (canon_trunkRecord (canon_countSent hc)) (canon_serveControl (canon_putEg hc))

theorem canon_putAct {s : State} {a : TacAct} (hc : Canon s) : Canon (putAct s a) := canon_putTac hc

theorem canon_evict {s : State} {a : TacAct} (hc : Canon s) : Canon (evict s a) := canon_putTac hc

theorem canon_giveUpEntry {s : State} {a : TacAct} (hc : Canon s) : Canon (giveUpEntry s a) := canon_ite (canon_evict
    hc) (canon_putAct hc)

theorem canon_writeEntry {s : State} {a : TacAct} (hc : Canon s) : Canon (writeEntry s a) := by
  unfold writeEntry
  split
  · exact hc
  · exact canon_wr (canon_wr (canon_wr (canon_wr (canon_wr hc))))

theorem canon_setResult {s : State} {id r : Nat} (hc : Canon s) : Canon (setResult s id r) := by
  unfold setResult
  split
  · exact hc
  · exact canon_ite hc (canon_tacEvent (canon_putAct hc))

theorem canon_writeOwn {s : State} {a : TacAct} (hc : Canon s) : Canon (writeOwn s a) := canon_tacEvent (canon_wr
    (canon_wr (canon_foldl (fun _ _ hc1 => canon_wr hc1) hc)))

theorem canon_closeAct {s : State} {a : TacAct} (hc : Canon s) : Canon (closeAct s a) := by
  unfold closeAct
  refine canon_putAct ?_
  split
  · exact canon_ite (canon_sendAction (canon_ite (canon_writeOwn (canon_ite (canon_tacEvent hc) hc)) (canon_ite
      (canon_tacEvent hc) hc))) (canon_ite (canon_writeOwn (canon_ite (canon_tacEvent hc) hc)) (canon_ite
      (canon_tacEvent hc) hc))
  · exact canon_ite (canon_writeOwn (canon_ite (canon_tacEvent hc) hc)) (canon_ite (canon_tacEvent hc) hc)

theorem canon_takeResults {s : State} (hc : Canon s) : Canon (takeResults s) := canon_foldl (fun _ _ hc1 =>
    canon_setResult hc1) (canon_putCls hc)

theorem canon_settleAct {s : State} {id : Nat} (hc : Canon s) : Canon (settleAct s id) := by
  unfold settleAct
  split
  · exact hc
  · dsimp only
    split
    · exact canon_ite (canon_closeAct (canon_putAct hc)) (canon_putAct hc)
    · exact canon_ite (canon_evict (canon_ite (canon_closeAct (canon_putAct hc)) (canon_putAct hc)))
        (canon_writeEntry (canon_ite (canon_closeAct (canon_putAct hc)) (canon_putAct hc)))

theorem canon_tacSettle {s : State} (hc : Canon s) : Canon (tacSettle s) := canon_setFld (canon_setFld (canon_foldl
    (fun _ _ hc1 => canon_settleAct hc1) (canon_takeResults (canon_refreshTree hc))))

theorem canon_beginAct {s : State} {a : TacAct} (hc : Canon s) : Canon (beginAct s a) := canon_putAct hc

theorem canon_endAct {s : State} {a : TacAct} {r : Nat} (hc : Canon s) : Canon (endAct s a r) := canon_setResult
    (canon_beginAct hc)

theorem canon_doHeatCommit {s : State} {a : TacAct} {arriving : List Nat} (hc : Canon s) : Canon (doHeatCommit s a
    arriving) := by
  unfold doHeatCommit
  split
  · exact hc
  · exact canon_ite hc (canon_ite (canon_finishCommit (canon_beginAct hc)) (canon_executeCommit (canon_examineCommit
      (canon_beginAct hc))))

theorem canon_doPortEnable {s : State} {a : TacAct} (hc : Canon s) : Canon (doPortEnable s a) := canon_endAct
    (canon_foldl (fun _ _ hc1 => canon_writeEnable hc1) hc)

theorem canon_writeArm {s : State} {r : Req} {mask : Nat} (hc : Canon s) : Canon (writeArm s r mask) := canon_ite
    (canon_armOutputs hc) (canon_rejected (canon_armOutputs hc))

theorem canon_doPulse {s : State} {a : TacAct} (hc : Canon s) : Canon (doPulse s a) := canon_endAct (canon_writeArm
    (canon_stopOutputs hc))

theorem canon_doReset {s : State} {a : TacAct} (hc : Canon s) : Canon (doReset s a) := canon_ite (canon_warmReset hc)
    (canon_endAct (canon_zoneResets hc))

theorem canon_doSnapshot {s : State} {a : TacAct} (hc : Canon s) : Canon (doSnapshot s a) := canon_ite (canon_endAct
    (canon_trigger hc)) (canon_endAct hc)

theorem canon_doCounterClear {s : State} {a : TacAct} (hc : Canon s) : Canon (doCounterClear s a) := canon_endAct
    (canon_pmcClear hc)

theorem canon_doBarrier {s : State} {a : TacAct} (hc : Canon s) : Canon (doBarrier s a) := canon_endAct hc

theorem canon_doCancel {s : State} {a : TacAct} (hc : Canon s) : Canon (doCancel s a) := by
  unfold doCancel
  split
  · exact canon_endAct hc
  · refine canon_endAct ?_
    split
    · exact canon_ite (canon_finishCommit (canon_endAct hc)) (canon_endAct hc)
    · exact canon_endAct hc

theorem canon_doAct {s : State} {a : TacAct} {arriving : List Nat} (hc : Canon s) : Canon (doAct s a arriving) :=
    canon_ite (canon_doHeatCommit hc) (canon_ite (canon_endAct hc) (canon_ite (canon_doSnapshot hc) (canon_ite
    (canon_doCounterClear hc) (canon_ite (canon_doPortEnable hc) (canon_ite (canon_doPulse hc) (canon_ite
    (canon_doReset hc) (canon_ite (canon_doBarrier hc) (canon_ite (canon_doCancel hc) hc))))))))

theorem canon_commitAtT {s : State} {arriving : List Nat} (hc : Canon s) : Canon (commitAtT s arriving) := by
  unfold commitAtT
  split
  · exact canon_ite hc (canon_executeCommit hc)
  · exact canon_executeCommit hc

theorem canon_executeEntry {s : State} {k kind : Nat} {arriving : List Nat} (hc : Canon s) : Canon (executeEntry s k
    kind arriving) := by
  unfold executeEntry
  split
  · exact hc
  · exact canon_ite (canon_doAct hc) hc

theorem canon_forwardAct {s : State} {a : TacAct} {asked local_ : Bool} (hc : Canon s) : Canon (forwardAct s a asked
    local_).1 := by
  unfold forwardAct
  split
  · exact hc
  · exact canon_foldl (fun _ _ hc1 => canon_sendAction hc1) hc

theorem canon_enterAct {s : State} {a : TacAct} {full : Bool} (hc : Canon s) : Canon (enterAct s a full) := by
  unfold enterAct
  refine canon_ite (canon_putTac hc) ?_
  split
  next x0 u1 he =>
    have hc1 := canon_snd (canon_pick hc) he
    refine canon_putTac ?_
    split
    · exact canon_giveUpEntry hc1
    · exact hc1

theorem canon_acceptAct {s : State} {a : TacAct} {asked local_ own : Bool} (hc : Canon s) :
    Canon (acceptAct s a asked local_ own) := by
  unfold acceptAct
  split
  next d late _ =>
  extract_lets b _ t
  have h1 : Canon t := canon_putTac hc
  clear_value t b
  split
  next u c e =>
    have h2 := canon_fst (canon_forwardAct h1) e
    extract_lets c v
    have h3 : Canon v := canon_enterAct h2
    clear_value v c
    split
    · exact canon_setResult h3
    · refine canon_ite ?_ (canon_ite (canon_examineCommit (canon_requestCommit h3)) h3)
      split
      · exact canon_ite (canon_requestCommit (canon_beginAct h3)) (canon_doAct h3)
      · exact h3

theorem canon_tacReceive {s : State} {p : Nat} {bytes : List Byte} {sub : Nat} (hc : Canon s) :
    Canon (tacReceive s p bytes sub).1 := by
  generalize h : tacReceive s p bytes sub = q
  unfold tacReceive at h
  dsimp only at h
  split at h
  · split at h
    · exact h ▸ hc
    · split at h
      · exact h ▸ hc
      · exact h ▸ hc
      next u ht =>
        have h1 := canon_pmcEvent (g := runnerOfPort p) (ev := 0x040 + 16 * (p % 4) + 1) (n := (toNats bytes).length)
          (canon_pmcEvent (g := runnerOfPort p) (ev := 0x040 + 16 * (p % 4)) (n := 1) (canon_releaseReady (p := p)
            (canon_takeDelivered hc ht)))
        split at h
        · exact h ▸ canon_pmcEvent h1
        · split at h
          next t hd => exact h ▸ canonOpt_dropReceived h1 t hd
          · exact h ▸ canon_add64 h1
  · exact h ▸ hc

theorem canon_tacBad {s : State} (hc : Canon s) : Canon (tacBad s) := canon_tacEvent (canon_add64 hc)

theorem canon_tacAnnounce {s : State} {p : Nat} {bytes : List Byte} (hc : Canon s) :
    Canon (tacAnnounce s p bytes) := by
  have h1 := canon_tacReceive (p := p) (bytes := bytes) (sub := 3) hc
  unfold tacAnnounce
  generalize tacReceive s p bytes 3 = q at h1 ⊢
  obtain ⟨u, o⟩ := q
  cases o with
  | none => exact h1
  | some b =>
    dsimp only
    cases readAnnounce b with
    | none => exact canon_tacBad h1
    | some a =>
      exact canon_ite (canon_add64 h1) (canon_ite (canon_add64 h1) (canon_acceptAct h1))

theorem canon_tacReport {s : State} {p : Nat} {bytes : List Byte} (hc : Canon s) :
    Canon (tacReport s p bytes) := by
  have h1 := canon_tacReceive (p := p) (bytes := bytes) (sub := 5) hc
  unfold tacReport
  generalize tacReceive s p bytes 5 = q at h1 ⊢
  obtain ⟨u, o⟩ := q
  cases o with
  | none => exact h1
  | some b =>
    refine canon_ite (canon_tacBad h1) ?_
    dsimp only
    split
    · exact canon_ite (canon_tacEvent (canon_add64 h1)) (canon_ite (canon_add64 h1) (canon_ite (canon_putAct h1)
        (canon_add64 h1)))
    · exact canon_ite (canon_tacEvent (canon_add64 h1)) (canon_add64 h1)

theorem canon_originate {s : State} {v : Nat} (hc : Canon s) : Canon (originate s v) := canon_ite (canon_wr hc)
    (canon_acceptAct (canon_setFld (canon_wr hc)))

theorem canon_tacDeadline {s : State} {k : Nat} (hc : Canon s) : Canon (tacDeadline s k) := by
  unfold tacDeadline
  split
  · exact hc
  · exact canon_ite (canon_closeAct hc) hc

theorem canon_tacWake {s : State} (hc : Canon s) : Canon (tacWake s) := canon_foldl (fun _ _ hc1 => canon_ite
    (canon_putAct hc1) hc1) hc

end Sys2Proof.Machine
end

section
/-! Canonical form, kept by the operations of `Machine/Sleep`. -/

namespace Sys2Proof.Machine

theorem canon_sleepBegin {s : State} (hc : Canon s) : Canon (sleepBegin s) := canon_start (canon_assaySleep
    (canon_riserSleep (canon_tbDataDieStops (canon_foldl (fun _ _ hc1 => canon_xoffPort hc1) (canon_putPower
    (canon_setBoot hc))))))

theorem canon_sleepEnter {s : State} (hc : Canon s) : Canon (sleepEnter s) := canon_ite (canon_putPower hc)
    (canon_sleepBegin hc)

theorem canon_sleepAfterZone {s : State} (hc : Canon s) : Canon (sleepAfterZone s) := canon_ite (canon_sleepBegin hc)
    hc

theorem canon_sleepPort {s : State} {p : Nat} (hc : Canon s) : Canon (sleepPort s p) := canon_ite (canon_startQuench
    (canon_putPort hc)) (canon_ite (canon_parkPort (canon_putPort hc)) hc)

theorem canon_sleepDrained {s : State} (hc : Canon s) : Canon (sleepDrained s) := canon_ite hc (canon_foldl (fun _ _
    hc1 => canon_sleepPort hc1) (canon_putPower (canon_stop hc)))

theorem canon_bankSleep {s : State} {b : Nat} (hc : Canon s) : Canon (bankSleep s b) := by
  have h := canon_bankChanged (b := b) (canon_bankChanged (b := b) hc)
  unfold bankSleep
  generalize bankChanged (bankChanged s b) b = u at h ⊢
  exact canon_ite (canon_putBankH_of (canon_setBankState h) (setFld_banks ..) rfl) h

theorem canon_bankWake {s : State} {b : Nat} (hc : Canon s) : Canon (bankWake s b) :=
  canon_ite (canon_putBankH_of (canon_setBankState hc) (setFld_banks ..) rfl) hc

theorem canon_hbmSleep {s : State} (hc : Canon s) : Canon (hbmSleep s) := canon_ite (canon_setFld hc) hc

theorem canon_hbmWake {s : State} (hc : Canon s) : Canon (hbmWake s) := canon_ite (canon_setFld hc) hc

theorem canon_lanesSleep {s : State} (hc : Canon s) : Canon (lanesSleep s) := canon_foldl (fun _ _ hc1 =>
    canon_refreshPhase hc1) (canon_foldl (fun _ _ hc1 => canon_ite hc1 (canon_laneOff hc1)) hc)

theorem canon_wakeLanes {s : State} {p : Nat} (hc : Canon s) : Canon (wakeLanes s p) := canon_foldl (fun _ _ hc1 =>
    canon_putLane hc1) hc

theorem canon_wakePort {s : State} {p : Nat} (hc : Canon s) : Canon (wakePort s p) := canon_ite hc (canon_ite
    (canon_wakeLanes (canon_startTrunk hc)) (canon_wakeLanes (canon_takeType hc)))

theorem canon_startWake {s : State} {tw : Nat} (hc : Canon s) : Canon (startWake s tw) := canon_foldl (fun _ _ hc1 =>
    canon_wakePort hc1) (canon_putPower (canon_setBoot hc))

theorem canon_wakeEvent {s : State} {tw : Nat} (hc : Canon s) : Canon (wakeEvent s tw) := canon_ite (canon_startWake
    hc) (canon_ite (canon_putPower hc) hc)

theorem canon_wakeTimed {s : State} (hc : Canon s) : Canon (wakeTimed s) := canon_ite (canon_wakeEvent hc) hc

theorem canon_wakeAlarm {s : State} (hc : Canon s) : Canon (wakeAlarm s) := canon_ite (canon_wakeEvent hc) hc

theorem canon_wakeSnap {s : State} {rising : Bool} (hc : Canon s) : Canon (wakeSnap s rising) := canon_ite
    (canon_wakeEvent hc) hc

theorem canon_sleepEntered {s : State} (hc : Canon s) : Canon (sleepEntered s) := canon_ite hc (canon_ite
    (canon_startWake (canon_raise (canon_setBoot (canon_pmcFreeze (canon_lanesSleep (canon_hbmSleep (canon_foldl (fun
    _ _ hc1 => canon_bankSleep hc1) (canon_ringsStop (canon_snpCopied (canon_latchUpTo (canon_assaySleep (canon_foldl
    (fun _ _ hc1 => canon_ite hc1 (canon_coalesceFire hc1)) hc)))))))))))) (canon_raise (canon_setBoot
    (canon_pmcFreeze (canon_lanesSleep (canon_hbmSleep (canon_foldl (fun _ _ hc1 => canon_bankSleep hc1)
    (canon_ringsStop (canon_snpCopied (canon_latchUpTo (canon_assaySleep (canon_foldl (fun _ _ hc1 => canon_ite hc1
    (canon_coalesceFire hc1)) hc))))))))))))

theorem canon_wakePortUp {s : State} {p : Nat} {ready : Bool} (hc : Canon s) : Canon (wakePortUp s p ready) :=
    canon_ite hc (canon_ite (canon_trunkUp (canon_setActive (canon_putTrunk (canon_setTrunkState hc)))) (canon_ite
    (canon_enterUp hc) (canon_startBringup hc)))

theorem canon_wakeTests {s : State} (hc : Canon s) : Canon (wakeTests s) := canon_foldl (fun _ _ hc1 => canon_ite
    (canon_writeLaneTest hc1) hc1) hc

theorem canon_wakeDone {s : State} {ready : Nat} (hc : Canon s) : Canon (wakeDone s ready) := canon_ite hc
    (canon_tacWake (canon_putPower (canon_foldl (fun _ _ hc1 => canon_wakePortUp hc1) (canon_wakeTests
    (canon_assayWake (canon_setBoot (canon_ite (canon_hbmWake (canon_foldl (fun _ _ hc1 => canon_bankWake hc1) hc))
    (canon_pmcRun (canon_hbmWake (canon_foldl (fun _ _ hc1 => canon_bankWake hc1) hc))))))))))

end Sys2Proof.Machine
end

section
/-! Canonical form, kept by the operations of `Machine/Boot`. -/

namespace Sys2Proof.Machine

theorem canon_putBoot {s : State} {h : BootHidden} (hc : Canon s) : Canon (putBoot s h) := hc

theorem canon_setImageErr {s : State} {i c : Nat} (hc : Canon s) : Canon (setImageErr s i c) := canon_ite
    (canon_setFld hc) (canon_setFld hc)

theorem canon_bootFail {s : State} (hc : Canon s) : Canon (bootFail s) := canon_lanesSleep (canon_setBoot
    (canon_putBoot hc))

theorem canon_blocksReset {s : State} (hc : Canon s) : Canon (blocksReset s) := by
  have h := canonOff_clearHidden hc
  exact canon_placeRetired (canon_setFld (canon_setFld (canon_foldl (fun _ _ hc => canon_setFld hc)
    (canon_clearBanks (canonOff_resetRegs h)))))

theorem canon_imageFail {s : State} {c : Nat} (hc : Canon s) : Canon (imageFail s c) := canon_ite (canon_bootFail
    (canon_putBoot (canon_setImageErr hc))) (canon_start (canon_blocksReset (canon_setBoot (canon_putBoot
    (canon_setImageErr hc)))))

theorem canon_lockLoops {s : State} (hc : Canon s) : Canon (lockLoops s) := by
  refine canon_foldl (fun s i hc => canon_ite hc ?_) hc
  have h : Canon (if i < 7 then ([1500, 1500, 1500, 1500, 1500, 1000, 500].getD i 0, s) else
      if i = 11 then (Config.quot 625 4, s) else s.draw).2 := by
    split
    · exact hc
    · split
      · exact hc
      · exact canon_draw hc
  exact canon_setFld (canon_setBit h)

theorem canon_trainHost {s : State} {refclk : Bool} (hc : Canon s) : Canon (trainHost s refclk) := canon_ite
    (canon_with_int hc) hc

theorem canon_fusesRead {s : State} {ok : Bool} {sel : Nat} {refclk : Bool} (hc : Canon s) : Canon (fusesRead s ok
    sel refclk) := canon_ite hc (canon_ite (canon_setBoot (canon_putBoot (canon_lockLoops (canon_setFld
    (canon_trainHost hc))))) (canon_bootFail (canon_putBoot (canon_lockLoops (canon_setFld (canon_trainHost hc))))))

theorem canon_enterLoad {s : State} {h t : List Nat} (hc : Canon s) : Canon (enterLoad s h t) := canon_ite
    (canon_marchStart (canon_putBoot (canon_ite (canon_setFld (canon_setImageErr (canon_setFld (canon_ite hc
    (canon_setBoot hc))))) (canon_setImageErr (canon_setFld (canon_ite hc (canon_setBoot hc))))))) (canon_putBoot
    (canon_ite (canon_setFld (canon_setImageErr (canon_setFld (canon_ite hc (canon_setBoot hc))))) (canon_setImageErr
    (canon_setFld (canon_ite hc (canon_setBoot hc))))))

theorem canon_attempt {s : State} {h t : List Nat} (hc : Canon s) : Canon (attempt s h t) := by
  unfold attempt
  refine canon_ite (canon_imageFail hc) ?_
  split
  · exact canon_enterLoad hc
  · exact canon_imageFail (canon_pick hc)

theorem canon_headerRead {s : State} {sfdp0 sfdp1 h t : List Nat} (hc : Canon s) : Canon (headerRead s sfdp0 sfdp1 h
    t) := canon_ite hc (canon_ite (canon_ite (canon_setBoot (canon_putBoot hc)) (canon_attempt (canon_putBoot hc)))
    (canon_ite (canon_attempt (canon_putBoot hc)) (canon_ite (canon_attempt (canon_putBoot hc)) hc)))

theorem canon_fallbackDone {s : State} (hc : Canon s) : Canon (fallbackDone s) := canon_ite (canon_putBoot
    (canon_stop hc)) hc

theorem canon_bootGo {s : State} {sel : Nat} (hc : Canon s) : Canon (bootGo s sel) := canon_setBoot (canon_putBoot
    (canon_setFld hc))

theorem canon_nextSect {s : State} (hc : Canon s) : Canon (nextSect s) := canon_putBoot (canon_stop hc)

theorem canon_sectFail {s : State} {c : Nat} (hc : Canon s) : Canon (sectFail s c) := by
  unfold sectFail
  split
  · exact hc
  · exact canon_ite (canon_imageFail (canon_stop (canon_setFld hc))) (canon_nextSect (canon_setBit (canon_putBoot
      (canon_setFld hc))))

theorem canon_scriptGoes {s : State} {l : List (Nat × Nat × Nat)} (hc : Canon s) : Canon (scriptGoes s l) := by
  unfold scriptGoes
  split
  · exact canon_ite (canon_nextSect hc) (canon_putBoot hc)
  · exact canon_ite (canon_sectFail hc) (canon_putBoot hc)

theorem canon_loadEq {s : State} {b : List Nat} (hc : Canon s) : Canon (loadEq s b) := canon_setBit (canon_foldl (fun
    _ _ hc1 => canon_wr hc1) hc)

theorem canon_loadEqs {x0 : List (List Nat)} {x1 : List (Nat × Nat)} {x2 : State} (hc : Canon x2) :
    Canon (loadEqs x0 x1 x2) := by
  induction x0 generalizing x1 x2 with
  | nil => exact hc
  | cons b l ih => exact canon_ite (ih hc) (ih (canon_loadEq hc))

theorem canon_applySect {s : State} {x : Sect} {b : List Nat} (hc : Canon s) : Canon (applySect s x b) := canon_ite
    (canon_nextSect (canon_putBoot hc)) (canon_ite (canon_ite (canon_sectFail hc) (canon_scriptGoes hc)) (canon_ite
    (canon_ite (canon_sectFail hc) (canon_nextSect (canon_loadEqs hc))) (canon_ite (canon_putBoot hc) (canon_ite
    (canon_nextSect hc) (canon_sectFail hc)))))

theorem canon_sectionLoad {s : State} {p q trim0 trim1 : List Nat} (hc : Canon s) : Canon (sectionLoad s p q trim0
    trim1) := by
  unfold sectionLoad
  split
  · exact hc
  · exact canon_ite hc (canon_ite (canon_applySect (canon_ite (canon_putPower (canon_trimLoad hc)) hc)) (canon_ite
      (canon_applySect (canon_ite (canon_putPower (canon_trimLoad hc)) hc)) (canon_sectFail (canon_ite
      (canon_putPower (canon_trimLoad hc)) hc))))

theorem canon_firmwareStart {s : State} (hc : Canon s) : Canon (firmwareStart s) := canon_ite hc (canon_start
    (canon_wr (canon_putBoot (canon_putBank (canon_clearBank (canon_clearBank hc))))))

theorem canon_firmwareReady {s : State} (hc : Canon s) : Canon (firmwareReady s) := canon_ite (canon_putBoot
    (canon_stop (canon_foldl (fun _ _ hc1 => canon_setBit hc1) hc))) hc

theorem canon_firmwareTimeout {s : State} (hc : Canon s) : Canon (firmwareTimeout s) := canon_ite (canon_imageFail
    (canon_stop hc)) hc

theorem canon_hbmTrained {s : State} {ok : Nat} (hc : Canon s) : Canon (hbmTrained s ok) := canon_ite hc (canon_ite
    (canon_setFld (canon_putBoot (canon_setFld hc))) (canon_dbfEvent (canon_setFld (canon_putBoot (canon_setFld
    hc)))))

theorem canon_dieRelease {s : State} (hc : Canon s) : Canon (dieRelease s) := canon_ite (canon_foldl (fun _ _ hc1 =>
    canon_ite (canon_startBringup hc1) hc1) (canon_setBoot (canon_putBoot (canon_setFld (canon_scanSlots hc))))) hc

end Sys2Proof.Machine
end

section
/-! Canonical form, kept by the operations of `Machine/Writes`. -/

namespace Sys2Proof.Machine

theorem canon_takeWord {s : State} {a v : Nat} (hc : Canon s) : Canon (takeWord s a v) := canon_wr hc

theorem canon_settle {s : State} (hc : Canon s) : Canon (settle s) := canon_ite (canon_settleSteps (canon_refreshRcvd
    hc)) (canon_ite (canon_refreshQuench (canon_settleSteps (canon_refreshRcvd hc))) (canon_tacSettle
    (canon_refreshQuench (canon_settleSteps (canon_refreshRcvd hc)))))

theorem canon_eitherOrder {s : State} {f g : State → State} (hc : Canon s) (hf : ∀ s, Canon s → Canon (f s))
    (hg : ∀ s, Canon s → Canon (g s)) : Canon (eitherOrder s f g) := by
  have h := canon_pick (d := false) (x0 := [false, true]) hc
  unfold eitherOrder
  dsimp only
  split
  · exact hg _ (hf _ h)
  · exact hf _ (hg _ h)

theorem canonRes_writeGlb {s : State} {a v : Nat} (hc : Canon s) : CanonRes (writeGlb s a v) := canonRes_ite
    (canonRes_does (canon_ite (canon_setBit hc) hc)) canonRes_plain

theorem canonRes_writePwr {s : State} {a v : Nat} (hc : Canon s) : CanonRes (writePwr s a v) := canonRes_ite
    (canonRes_does (canon_settle (canon_writeCap hc))) canonRes_plain

theorem canonRes_softRaise {s : State} {r : Req} {v : Nat} (hc : Canon s) : CanonRes (softRaise s r v) :=
    canonRes_refuseIf (canonRes_does (canon_ite (canon_raise hc) hc))

theorem canonRes_writeSrc {s : State} {r : Req} {i v : Nat} (hc : Canon s) : CanonRes (writeSrc s r i v) :=
    canonRes_refuseIf (canonRes_does (canon_ite (canon_retarget (canon_retarget (canon_ite (canon_wr hc)
    (canon_entryLost (canon_setPend (canon_wr hc)))))) (canon_ite (canon_wr hc) (canon_entryLost (canon_setPend
    (canon_wr hc))))))

theorem canon_writeTargetCfg {s : State} {t v : Nat} (hc : Canon s) : Canon (writeTargetCfg s t v) := canon_ite
    (canon_notifyBest (canon_takeWord hc)) (canon_takeWord hc)

theorem canonRes_writeClaim {s : State} {r : Req} {t v : Nat} (hc : Canon s) : CanonRes (writeClaim s r t v) :=
    canonRes_refuseIf (canonRes_does (canon_claimSource hc))

theorem canonRes_writeEoi {s : State} {r : Req} {t v : Nat} (hc : Canon s) : CanonRes (writeEoi s r t v) :=
    canonRes_refuseIf (canonRes_does (canon_endSource hc))

theorem canonRes_writeInt {s : State} {r : Req} {a v : Nat} (hc : Canon s) : CanonRes (writeInt s r a v) := by
  unfold writeInt
  refine canonRes_ite (canonRes_softRaise hc) ?_
  split
  · exact canonRes_writeSrc hc
  · split
    · exact canonRes_does (canon_writeTargetCfg hc)
    · split
      · exact canonRes_writeClaim hc
      · split
        · exact canonRes_writeEoi hc
        · exact canonRes_plain

theorem canonRes_writePmc {s : State} {a v : Nat} (hc : Canon s) : CanonRes (writePmc s a v) := by
  unfold writePmc
  refine canonRes_ite (canonRes_does (canon_pmcCtrl hc)) ?_
  refine canonRes_ite (canonRes_does (canon_pmcClear hc)) ?_
  split
  · exact canonRes_refuseIf canonRes_plain
  · exact canonRes_plain

theorem canonRes_writeSnp {s : State} {a v : Nat} (hc : Canon s) : CanonRes (writeSnp s a v) := by
  unfold writeSnp
  refine canonRes_ite (canonRes_refuseIf canonRes_plain) ?_
  refine canonRes_ite (canonRes_does (canon_snpCtrl hc)) ?_
  refine canonRes_ite (canonRes_does (canon_snpFree hc)) ?_
  refine canonRes_ite (canonRes_does (canon_snpFree hc)) ?_
  split
  · exact canonRes_refuseIf (canonRes_does (canon_writeSnpList hc))
  · exact canonRes_plain

theorem canonRes_writeMem {s : State} {r : Req} {a v : Nat} (hc : Canon s) : CanonRes (writeMem s r a v) := by
  unfold writeMem
  refine canonRes_ite (canonRes_refuseIf canonRes_plain) ?_
  refine canonRes_ite (canonRes_does (canon_writeCaptRd hc)) ?_
  refine canonRes_ite canonRes_refuse ?_
  split
  · exact canonRes_refuseIf (canonRes_does (canon_bankRequest hc))
  · exact canonRes_plain

theorem canonRes_writeTac {s : State} {a v : Nat} (hc : Canon s) : CanonRes (writeTac s a v) := canonRes_ite
    (canonRes_refuseIf (canonRes_does (canon_settle (canon_takeWord hc)))) (canonRes_ite (canonRes_does (canon_settle
    (canon_takeWord hc))) (canonRes_ite (canonRes_does (canon_settle (canon_expectClear hc))) (canonRes_ite
    (canonRes_does (canon_settle (canon_expectClear hc))) (canonRes_ite (canonRes_refuseIf canonRes_plain)
    canonRes_plain))))

theorem canonRes_writeHost {s : State} {r : Req} {a v : Nat} (hc : Canon s) : CanonRes (writeHost s r a v) := by
  unfold writeHost
  refine canonRes_ite (canonRes_refuseIf (canonRes_does (canon_mbxDoor hc))) ?_
  refine canonRes_ite (canonRes_refuseIf canonRes_plain) ?_
  split
  · exact canonRes_refuseIf (canonRes_does (canon_writeRingCfg hc))
  · refine canonRes_ite (canonRes_does hc) ?_
    split
    · exact canonRes_refuseIf canonRes_plain
    · split
      · exact canonRes_refuseIf canonRes_plain
      · split
        · exact canonRes_does (canon_writeMask hc)
        · exact canonRes_plain

theorem canonRes_writeTbSrc {s : State} {n v : Nat} (hc : Canon s) : CanonRes (writeTbSrc s n v) := canonRes_refuseIf
    (canonRes_does (canon_settle (canon_changeSource hc)))

theorem canonRes_writeTim {s : State} {a v : Nat} (hc : Canon s) : CanonRes (writeTim s a v) := by
  unfold writeTim
  refine canonRes_ite (canonRes_does (canon_latchTbs hc)) ?_
  split
  · exact canonRes_writeTbSrc hc
  · split
    · exact canonRes_of (canonOpt_writeRateMan hc)
    · exact canonRes_plain

theorem canonRes_writeRef {s : State} {a v : Nat} (hc : Canon s) : CanonRes (writeRef s a v) := by
  unfold writeRef
  refine canonRes_ite (canonRes_of (canonOpt_map (fun _ hc1 => canon_settle hc1) (canonOpt_writeSelCtrl hc))) ?_
  refine canonRes_ite (canonRes_does (canon_settle (canon_suspClear hc))) ?_
  split
  · exact canonRes_does (canon_settle (canon_writeRefCfg hc))
  · split
    · exact canonRes_of (canonOpt_map (fun _ hc1 => canon_settle hc1) (canonOpt_writeRefFreq hc))
    · exact canonRes_plain

theorem canonRes_writeSynReg {s : State} {k : Nat} {reg : SynReg} {v : Nat} (hc : Canon s) : CanonRes (writeSynReg s
    k reg v) := canonRes_refuseIf (canonRes_does (canon_synWrite hc))

theorem canonRes_writeRamp {s : State} {k v : Nat} (hc : Canon s) : CanonRes (writeRamp s k v) := canonRes_ite
    (canonRes_refuseIf (canonRes_does (canon_ite (canon_eitherOrder (canon_setBit hc) (fun _ hc1 => canon_rampGo hc1)
    (fun _ hc1 => canon_rampStop hc1)) (canon_rampGo (canon_setBit hc))))) (canonRes_does (canon_ite (canon_rampStop
    (canon_setBit hc)) (canon_setBit hc)))

theorem canonRes_writePll {s : State} {a v : Nat} (hc : Canon s) : CanonRes (writePll s a v) := by
  unfold writePll
  split
  · exact canonRes_refuseIf canonRes_plain
  · refine canonRes_ite ?_ canonRes_plain
    dsimp only
    split
    · exact canonRes_writeSynReg hc
    · exact canonRes_ite (canonRes_writeRamp hc) canonRes_plain

theorem canonRes_writeOut {s : State} {k v : Nat} (hc : Canon s) : CanonRes (writeOut s k v) := canonRes_refuseIf
    (canonRes_does (canon_writeOutCfg hc))

theorem canonRes_writeOutCtrl {s : State} {k v : Nat} (hc : Canon s) : CanonRes (writeOutCtrl s k v) := canonRes_ite
    (canonRes_refuseIf (canonRes_does (canon_ite (canon_eitherOrder hc (fun _ hc1 => canon_armAccept hc1) (fun _ hc1
    => canon_stopOutput hc1)) (canon_armAccept hc)))) (canonRes_does (canon_ite (canon_stopOutput hc) hc))

theorem canonRes_writePls {s : State} {r : Req} {a v : Nat} (hc : Canon s) : CanonRes (writePls s r a v) := by
  unfold writePls
  refine canonRes_ite (canonRes_does (canon_writeArm hc)) ?_
  refine canonRes_ite (canonRes_does (canon_stopOutputs hc)) ?_
  split
  · exact canonRes_writeOut hc
  · split
    · exact canonRes_writeOutCtrl hc
    · exact canonRes_plain

theorem canon_writeTdcCtrl {s : State} {i v : Nat} (hc : Canon s) : Canon (writeTdcCtrl s i v) := canon_ite
    (canon_statGo (canon_ite (canon_eitherOrder hc (fun _ hc1 => canon_softArm hc1) (fun _ hc1 => canon_softAbort
    hc1)) (canon_ite (canon_softArm hc) (canon_ite (canon_softAbort hc) hc)))) (canon_ite (canon_eitherOrder hc (fun
    _ hc1 => canon_softArm hc1) (fun _ hc1 => canon_softAbort hc1)) (canon_ite (canon_softArm hc) (canon_ite
    (canon_softAbort hc) hc)))

theorem canonRes_writeTdc {s : State} {a v : Nat} (hc : Canon s) : CanonRes (writeTdc s a v) := by
  unfold writeTdc
  refine canonRes_ite (canonRes_does (canon_foldl (fun _ _ hc1 => canon_softArm hc1) hc)) ?_
  refine canonRes_ite (canonRes_does (canon_writeGateCfg hc)) ?_
  split
  · exact canonRes_of (canonOpt_writeTdcCfg hc)
  · split
    · exact canonRes_refuseIf canonRes_plain
    · split
      · exact canonRes_refuseIf canonRes_plain
      · split
        · exact canonRes_does (canon_writeTdcCtrl hc)
        · exact canonRes_plain

theorem canonRes_writeCalCtrl {s : State} {v : Nat} (hc : Canon s) : CanonRes (writeCalCtrl s v) := canonRes_ite
    (canonRes_refuseIf (canonRes_does (canon_ite (canon_eitherOrder hc (fun _ hc1 => canon_calGo hc1) (fun _ hc1 =>
    canon_calAbort hc1)) (canon_calGo hc)))) (canonRes_does (canon_ite (canon_calAbort hc) hc))

theorem canonRes_writeCal {s : State} {a v : Nat} (hc : Canon s) : CanonRes (writeCal s a v) := canonRes_ite
    (canonRes_writeCalCtrl hc) (canonRes_ite (canonRes_refuseIf canonRes_plain) canonRes_plain)

theorem canonRes_writeTest {s : State} {l v : Nat} (hc : Canon s) : CanonRes (writeTest s l v) := canonRes_refuseIf
    (canonRes_does (canon_settle (canon_laneAfter (canon_writeLaneTest hc))))

theorem canonRes_writeLane {s : State} {a v : Nat} (hc : Canon s) : CanonRes (writeLane s a v) := by
  unfold writeLane
  refine canonRes_ite (canonRes_does (canon_settle (canon_laneAfter (canon_writeLaneCtrl hc)))) ?_
  refine canonRes_ite (canonRes_of (canonOpt_map (fun _ hc1 => canon_settle (canon_laneAfter hc1))
    (canonOpt_writeEqValid hc))) ?_
  refine canonRes_ite (canonRes_writeTest hc) ?_
  split
  · exact canonRes_of (canonOpt_map (fun _ hc1 => canon_settle (canon_laneAfter hc1)) (canonOpt_writeEqWord hc))
  · exact canonRes_plain

theorem canonRes_writePortCtrl {s : State} {p v : Nat} (hc : Canon s) : CanonRes (writePortCtrl s p v) :=
    canonRes_refuseIf (canonRes_does (canon_settle (canon_ite (canon_restartPort (canon_writeEnable hc))
    (canon_writeEnable hc))))

theorem canonRes_writePort {s : State} {a v : Nat} (hc : Canon s) : CanonRes (writePort s a v) := by
  unfold writePort
  dsimp only
  exact canonRes_ite (canonRes_refuseIf (canonRes_does (canon_settle (canon_writePortCfg hc)))) (canonRes_ite
    (canonRes_writePortCtrl hc) (canonRes_ite (canonRes_does (canon_settle (canon_takeWord hc))) canonRes_plain))

theorem canonRes_writePtp {s : State} {a v : Nat} (hc : Canon s) : CanonRes (writePtp s a v) := by
  unfold writePtp
  dsimp only
  exact canonRes_ite (canonRes_refuseIf (canonRes_does (canon_settle (canon_writePtpCfg hc)))) canonRes_plain

theorem canonRes_writePrs {s : State} {a v : Nat} (hc : Canon s) : CanonRes (writePrs s a v) := by
  unfold writePrs
  refine canonRes_ite (canonRes_does (canon_writePrsCfg hc)) ?_
  refine canonRes_ite (canonRes_does (canon_writePunt hc)) ?_
  split
  · exact canonRes_does (canon_writePunt hc)
  · exact canonRes_plain

theorem canon_refreshLimits {s : State} (hc : Canon s) : Canon (refreshLimits s) := canon_foldl (fun _ _ hc1 =>
    canon_refreshPg hc1) (canon_refreshGlobal hc)

theorem canon_captureOcc {s : State} {v : Nat} (hc : Canon s) : Canon (captureOcc s v) := canon_wr (canon_wr
    (canon_wr (canon_wr (canon_wr (canon_takeWord hc)))))

theorem canonRes_writePool {s : State} {a v : Nat} (hc : Canon s) : CanonRes (writePool s a v) := canonRes_refuseIf
    (canonRes_does (canon_refreshLimits (canon_takeWord hc)))

theorem canonRes_writeProfile {s : State} {a v : Nat} (hc : Canon s) : CanonRes (writeProfile s a v) := canonRes_ite
    canonRes_plain (canonRes_refuseIf (canonRes_does (canon_refreshLimits (canon_takeWord hc))))

theorem canonRes_writeQmPort {s : State} {p a o v : Nat} (hc : Canon s) : CanonRes (writeQmPort s p a o v) :=
    canonRes_ite (canonRes_refuseIf (canonRes_does (canon_refreshLimits (canon_takeWord hc)))) (canonRes_ite
    (canonRes_does (canon_refreshLimits (canon_takeWord hc))) (canonRes_ite (canonRes_does (canon_takeWord
    (canon_refillPort hc))) canonRes_plain))

theorem canonRes_writeQm {s : State} {a v : Nat} (hc : Canon s) : CanonRes (writeQm s a v) := canonRes_ite
    (canonRes_writePool hc) (canonRes_ite (canonRes_refuseIf (canonRes_does (canon_refreshLimits (canon_takeWord
    hc)))) (canonRes_ite (canonRes_refuseIf (canonRes_does (canon_captureOcc hc))) (canonRes_ite
    (canonRes_writeProfile hc) (canonRes_ite (canonRes_refuseIf (canonRes_does (canon_refreshLimits (canon_takeWord
    hc)))) (canonRes_ite (canonRes_writeQmPort hc) canonRes_plain)))))

theorem canonRes_writeGroup {s : State} {g v : Nat} (hc : Canon s) : CanonRes (writeGroup s g v) := canonRes_refuseIf
    (canonRes_does (canon_refreshMigration (canon_ite (canon_restartFlows (canon_setFld (canon_takeWord hc)))
    (canon_takeWord hc))))

theorem canonRes_writeMember {s : State} {g m v : Nat} (hc : Canon s) : CanonRes (writeMember s g m v) :=
    canonRes_refuseIf (canonRes_does (canon_refreshMigration (canon_takeWord hc)))

theorem canonRes_writeCtxCfg {s : State} {c v : Nat} (hc : Canon s) : CanonRes (writeCtxCfg s c v) := canonRes_ite
    (canonRes_refuseIf (canonRes_does (canon_takeWord hc))) (canonRes_ite (canonRes_does (canon_riserDisable
    (canon_takeWord hc))) (canonRes_ite (canonRes_does (canon_riserEnable (canon_takeWord hc))) (canonRes_does
    (canon_takeWord hc))))

theorem canonRes_writeSpr {s : State} {a v : Nat} (hc : Canon s) : CanonRes (writeSpr s a v) := by
  unfold writeSpr
  split
  · exact canonRes_writeGroup hc
  · split
    · exact canonRes_does (canon_ite (canon_restartFlows hc) hc)
    · split
      · exact canonRes_writeMember hc
      · split
        · exact canonRes_writeCtxCfg hc
        · split
          · exact canonRes_refuseIf canonRes_plain
          · exact canonRes_plain

theorem canon_writePair {s : State} {a v : Nat} (hc : Canon s) : Canon (writePair s a v) := canon_takeWord
    (canon_with_buf hc)

theorem canonRes_writeLld {s : State} {a v : Nat} (hc : Canon s) : CanonRes (writeLld s a v) := by
  unfold writeLld
  refine canonRes_ite (canonRes_refuseIf (canonRes_does (canon_writePair hc))) ?_
  split
  · exact canonRes_refuseIf canonRes_plain
  · exact canonRes_plain

theorem canonRes_writeAsyCfg {s : State} {c v : Nat} (hc : Canon s) : CanonRes (writeAsyCfg s c v) := canonRes_ite
    (canonRes_refuseIf (canonRes_does (canon_putAsyCtx (canon_wr hc)))) (canonRes_ite (canonRes_does
    (canon_ctxDisable hc)) (canonRes_ite (canonRes_refuseIf (canonRes_does (canon_ctxEnable hc))) canonRes_plain))

theorem canonRes_writeAsyCtx {s : State} {c o a v : Nat} (hc : Canon s) : CanonRes (writeAsyCtx s c o a v) :=
    canonRes_ite (canonRes_writeAsyCfg hc) (canonRes_ite (canonRes_refuseIf canonRes_plain) (canonRes_ite
    (canonRes_does (canon_takeWord (canon_noteOld hc))) canonRes_plain))

theorem canonRes_writeMigCtrl {s : State} {v : Nat} (hc : Canon s) : CanonRes (writeMigCtrl s v) := canonRes_ite
    (canonRes_refuseIf (canonRes_does (canon_eitherOrder hc (fun _ hc1 => canon_migGo hc1) (fun _ hc1 =>
    canon_migCancel hc1)))) (canonRes_ite (canonRes_refuseIf (canonRes_does (canon_migGo hc))) (canonRes_ite
    (canonRes_refuseIf (canonRes_does (canon_migCancel hc))) (canonRes_does hc)))

theorem canonRes_writeAsy {s : State} {a v : Nat} (hc : Canon s) : CanonRes (writeAsy s a v) := canonRes_ite
    (canonRes_refuseIf canonRes_plain) (canonRes_ite (canonRes_writeMigCtrl hc) (canonRes_ite (canonRes_writeAsyCtx
    hc) canonRes_plain))

theorem canon_putStaged {s : State} {k v : Nat} (hc : Canon s) : Canon (putStaged s k v) := hc

theorem canon_loadStage {s : State} {r : Req} {addr : Nat → Nat → Nat} {n i : Nat} (hc : Canon s) : Canon (loadStage
    s r addr n i) := canon_foldl (fun _ _ hc1 => canon_putStaged hc1) (canon_putStaged hc)

theorem canon_stageWord {s : State} {r : Req} {addr : Nat → Nat → Nat} {n i j v : Nat} (hc : Canon s) : Canon
    (stageWord s r addr n i j v) := canon_putStaged (canon_ite hc (canon_loadStage hc))

theorem canonRes_commitLadle {s : State} {r : Req} {i v : Nat} (hc : Canon s) : CanonRes (commitLadle s r i v) :=
    canonRes_refuseIf (canonRes_does (canon_loadStage (canon_foldl (fun _ _ hc1 => canon_wr hc1) hc)))

theorem canonRes_commitSource {s : State} {r : Req} {i v : Nat} (hc : Canon s) : CanonRes (commitSource s r i v) :=
    canonRes_refuseIf (canonRes_does (canon_loadStage (canon_srcCommit hc)))

theorem canonRes_writeTbl {s : State} {r : Req} {a v : Nat} (hc : Canon s) : CanonRes (writeTbl s r a v) := by
  unfold writeTbl
  refine canonRes_ite (canonRes_refuseIf (canonRes_does (canon_mouldWrite hc))) ?_
  split
  · exact canonRes_ite (canonRes_commitLadle hc) (canonRes_does (canon_stageWord hc))
  · split
    · exact canonRes_ite (canonRes_commitSource hc) (canonRes_does (canon_stageWord hc))
    · exact canonRes_ite (canonRes_does (canon_refreshMigration (canon_takeWord hc))) canonRes_plain

theorem canonRes_writeEffect {s : State} {r : Req} {a v : Nat} (hc : Canon s) : CanonRes (writeEffect s r a v) :=
    canonRes_ite (canonRes_writeGlb hc) (canonRes_ite (canonRes_writePwr hc) (canonRes_ite (canonRes_writeInt hc)
    (canonRes_ite (canonRes_writePmc hc) (canonRes_ite (canonRes_writeSnp hc) (canonRes_ite (canonRes_writeMem hc)
    (canonRes_ite (canonRes_writeTac hc) (canonRes_ite (canonRes_writeHost hc) (canonRes_ite canonRes_plain
    (canonRes_ite (canonRes_writeTim hc) (canonRes_ite (canonRes_writeRef hc) (canonRes_ite (canonRes_writePll hc)
    (canonRes_ite (canonRes_writePls hc) (canonRes_ite (canonRes_writeTdc hc) (canonRes_ite (canonRes_writeCal hc)
    (canonRes_ite (canonRes_writePtp hc) (canonRes_ite (canonRes_writePrs hc) (canonRes_ite (canonRes_writeQm hc)
    (canonRes_ite canonRes_plain (canonRes_ite (canonRes_writeSpr hc) (canonRes_ite (canonRes_writeLld hc)
    (canonRes_ite (canonRes_writeAsy hc) (canonRes_ite (canonRes_writePort hc) (canonRes_ite (canonRes_writeLane hc)
    (canonRes_writeTbl hc))))))))))))))))))))))))

end Sys2Proof.Machine
end

section
/-! Canonical form, kept by the operations of `Machine/Bus`. -/

namespace Sys2Proof.Machine

theorem canon_putGuards {s : State} {r : Req} {l : List GuardSeq} (hc : Canon s) : Canon (putGuards s r l) := by
  unfold putGuards
  split
  · exact canon_with_guardHost hc
  · exact canon_with_guardMgmt hc

theorem canon_dropGuard {s : State} {r : Req} {a : Nat} (hc : Canon s) : Canon (dropGuard s r a) := canon_putGuards hc

theorem canon_beginGuard {s : State} {r : Req} {a v : Nat} (hc : Canon s) : Canon (beginGuard s r a v) :=
    canon_putGuards hc

theorem canon_guardFails {s : State} {r : Req} {a : Nat} (hc : Canon s) : Canon (guardFails s r a) := by
  unfold guardFails
  split
  · exact canon_guardErr (canon_dropGuard hc)
  · exact hc

theorem canon_breakGuards {s : State} {a : Nat} {keep : Option Req} (hc : Canon s) : Canon (breakGuards s a keep) :=
    canon_foldl (fun _ _ hc1 => canon_ite hc1 (canon_guardFails hc1)) hc

theorem canon_swoAfter {before s : State} (hcs : Canon s) : Canon (swoAfter before s) :=
    canon_calDegraded (canon_ite (canon_wakeAlarm (canon_calGapBegin hcs)) hcs)

theorem canon_guardedBoot {s : State} {r : Req} {a v : Nat} (hc : Canon s) : Canon (guardedBoot s r a v) := canon_ite
    (canon_ite (canon_bootGo (canon_takeWord hc)) (canon_rejected hc)) (canon_takeWord hc)

theorem canon_guardedReset {s : State} {v : Nat} (hc : Canon s) : Canon (guardedReset s v) := canon_ite
    (canon_timingReset hc) (canon_ite (canon_warmReset hc) hc)

theorem canon_guardedSleep {s : State} {r : Req} {a v : Nat} (hc : Canon s) : Canon (guardedSleep s r a v) :=
    canon_ite (canon_ite (canon_rejected hc) (canon_ite (canon_eitherOrder hc (fun _ hc1 => canon_sleepEnter hc1)
    (fun _ hc1 => canon_wakeEvent hc1)) (canon_sleepEnter hc))) (canon_ite (canon_wakeEvent hc) hc)

theorem canon_guardedCore {s : State} {r : Req} {a v : Nat} (hc : Canon s) : Canon (guardedCore s r a v) := canon_ite
    (canon_rejected hc) (canon_swoAfter (canon_ite (canon_takeOver (canon_ite (canon_coreRepair (canon_ite
    (canon_coreRepair hc) hc)) (canon_ite (canon_coreRepair hc) hc))) (canon_ite (canon_coreRepair (canon_ite
    (canon_coreRepair hc) hc)) (canon_ite (canon_coreRepair hc) hc))))

theorem canon_guardedHeat {s : State} {r : Req} {a v : Nat} (hc : Canon s) : Canon (guardedHeat s r a v) := by
  unfold guardedHeat
  dsimp only
  split
  · exact canon_ite (canon_heatLoad (canon_wr hc)) (canon_rejected hc)
  · exact canon_ite (canon_heatSeal (canon_wr hc)) (canon_rejected hc)
  · exact canon_requestCommit (canon_wr hc)
  · exact canon_ite (canon_heatDiscard (canon_wr hc)) (canon_rejected hc)
  · exact canon_ite (canon_heatCancel (canon_wr hc)) (canon_rejected hc)
  · exact canon_rejected hc

theorem canon_guardedUnretire {s : State} {r : Req} {a v : Nat} (hc : Canon s) : Canon (guardedUnretire s r a v) :=
    canon_ite (canon_rejected hc) (canon_ite (canon_unretireRegion (canon_wr hc)) (canon_wr hc))

theorem canon_guardedOrig {s : State} {r : Req} {a v : Nat} (hc : Canon s) : Canon (guardedOrig s r a v) := canon_ite
    (canon_rejected hc) (canon_settle (canon_originate hc))

theorem canon_guardedFault {s : State} {l v : Nat} (hc : Canon s) : Canon (guardedFault s l v) := canon_ite
    (canon_settle (canon_laneAfter (canon_unretire (canon_ite (canon_clearFailTotal hc) hc)))) (canon_ite
    (canon_clearFailTotal hc) hc)

theorem canon_guardedEffect {s : State} {r : Req} {a v : Nat} (hc : Canon s) : Canon (guardedEffect s r a v) :=
    canon_ite (canon_settle (canon_zoneResets hc)) (canon_ite (canon_guardedBoot hc) (canon_ite (canon_guardedReset
    hc) (canon_ite (canon_guardedSleep hc) (canon_ite (canon_takeWord hc) (canon_ite (canon_ite (canon_rejected hc)
    (canon_writeMarch hc)) (canon_ite (canon_guardedOrig hc) (canon_ite (canon_guardedCore hc) (canon_ite
    (canon_armTbs hc) (canon_ite (canon_tdcUnretire hc) (canon_ite (canon_ite (canon_ite (canon_saveStart hc)
    (canon_rejected hc)) hc) (canon_ite (canon_settle (canon_guardedHeat hc)) (canon_ite (canon_guardedUnretire hc)
    (canon_ite (canon_guardedFault hc) (canon_takeWord hc))))))))))))))

theorem canon_complementWrite {s : State} {r : Req} {a v : Nat} (hc : Canon s) : Canon (complementWrite s r a v) := by
  unfold complementWrite
  split
  · exact canon_ite (canon_ite (canon_guardedEffect (canon_dropGuard (canon_breakGuards hc))) (canon_guardFails
      (canon_breakGuards hc))) (canon_guardErr (canon_breakGuards hc))
  · exact canon_guardErr (canon_breakGuards hc)

theorem canon_guardExpire {s : State} {r : Req} (hc : Canon s) : Canon (guardExpire s r) := canon_foldl (fun _ _ hc1
    => canon_guardFails hc1) hc

theorem canonOpt_commitTo {s : State} {a t : Nat} (hc : Canon s) : CanonOpt (commitTo s a t) := by
  unfold commitTo
  split
  · exact canonOpt_ite (canonOpt_some (canon_settle (canon_setStep (canon_wrTime hc)))) canonOpt_none
  · exact canonOpt_some (canon_wrTime hc)

theorem canon_writeTime {s : State} {r : Req} {acc a w v : Nat} (hc : Canon s) : Canon (writeTime s r acc a w v) := by
  unfold writeTime
  split
  · exact canon_rejected hc
  · refine canon_ite ?_ (canon_putStaged hc)
    refine canon_ite (canon_rejected hc) ?_
    dsimp only
    split
    · next he =>
        have hc1 := canonOpt_state (canonOpt_commitTo hc) he
        exact hc1
    · exact canon_rejected hc

theorem canon_writePlain {s : State} {r : Req} {acc a v : Nat} {wo : Bool} (hc : Canon s) : Canon (writePlain s r acc
    a v wo) := by
  unfold writePlain
  split
  · exact canon_ite hc (canon_takeWord hc)
  · exact canon_rejected hc
  · next he =>
      have hc1 := canonRes_state (canonRes_writeEffect hc) he
      exact hc1

theorem canon_regWrite {s : State} {r : Req} {acc a v : Nat} {ap : Bool} (hc : Canon s) : Canon (regWrite s r acc a v
    ap) := by
  unfold regWrite
  split
  · exact canon_ite (canon_ite (canon_accessErr (canon_breakGuards hc)) (canon_complementWrite hc)) (canon_accessErr
      (canon_breakGuards hc))
  · refine canon_ite (canon_accessErr (canon_breakGuards hc)) ?_
    split
    · exact canon_breakGuards hc
    · exact canon_rejected (canon_breakGuards hc)
    · exact canon_beginGuard (canon_breakGuards hc)
    · exact canon_ite (canon_accessErr (canon_breakGuards hc)) (canon_writeBack (canon_breakGuards hc))
    · exact canon_takeWord (canon_breakGuards hc)
    · exact canon_writeTime (canon_breakGuards hc)
    · exact canon_writePlain (canon_breakGuards hc)
    · exact canon_writePlain (canon_breakGuards hc)

theorem canon_holdWrite {s : State} {h : HeldWrite} (hc : Canon s) : Canon (holdWrite s h) := hc

theorem canon_nodeWrite {s : State} {r : Req} {acc a v : Nat} {ap : Bool} (hc : Canon s) : Canon (nodeWrite s r acc a
    v ap).1 := by
  unfold nodeWrite
  split
  · exact canon_accessErr hc
  · split
    · exact hc
    · split
      · exact canon_regWrite hc
      · exact canon_holdWrite hc

theorem canon_recordBreaks {before : State} {r : Req} {t : State} (hct : Canon t) : Canon
    (recordBreaks before r t) := canon_ite (canon_sectFail (canon_putBoot hct)) hct

theorem canon_heldWrites {s : State} (hc : Canon s) : Canon (heldWrites s) := canon_foldl (fun _ _ hc1 =>
    canon_recordBreaks (canon_ite (canon_nodeWrite hc1) (canon_emit (canon_nodeWrite hc1))))
    (canon_with_heldNodes hc)

theorem canon_writeEach {r : Req} {acc v : Nat} {place : Nat → Nat} {x0 : List Nat} {x1 : State} (hc : Canon x1) :
    Canon (writeEach r acc v place x0 x1).1 := by
  induction x0 generalizing x1 with
  | nil => exact hc
  | cons p l ih => exact ih (canon_nodeWrite hc)

theorem canon_writeRanks {s : State} {v : Nat} {l : List Nat} (hc : Canon s) : Canon (writeRanks s v l) :=
    canon_foldl (fun _ _ hc1 => canon_setFld (canon_breakGuards hc1)) hc

theorem canon_portAperture {s : State} {r : Req} {acc o v : Nat} {l : List Nat} (hc : Canon s) : Canon (portAperture
    s r acc o v l).1 := by
  unfold portAperture
  split
  · exact canon_writeEach hc
  · split
    · exact canon_writeRanks hc
    · split
      · exact hc
      · exact canon_accessErr hc

theorem canon_wordWrite {s : State} {r : Req} {a v : Nat} (hc : Canon s) : Canon (wordWrite s r a v).1 := by
  unfold wordWrite
  split
  · exact canon_portAperture hc
  · split
    · exact canon_writeEach hc
    · exact canon_nodeWrite hc

theorem canon_writeWords {r : Req} {a : Nat} {x0 : List Word} {x1 : State} (hc : Canon x1) :
    Canon (writeWords r a x0 x1).1 := by
  induction x0 generalizing a x1 with
  | nil => exact hc
  | cons v l ih => exact ih (canon_wordWrite hc)

theorem canon_heard {s : State} {r : Req} {n : Nat} (hc : Canon s) : Canon (heard s r n) := canon_ite (canon_pmcEvent
    hc) hc

theorem canon_busAccess {s : State} {r : Req} {a bytes : Nat} {data : List Word} (hc : Canon s) : Canon (busAccess s
    r a bytes data).1 := by
  unfold busAccess
  split
  · exact canon_emit hc
  · dsimp only
    split
    · exact canon_accessErr (canon_heard hc)
    · exact canon_ite (canon_writeWords (canon_heard hc)) (canon_emit (canon_writeWords (canon_heard hc)))

theorem canon_busWrite {s : State} {r : Req} {a bytes : Nat} {data : List Word} (hc : Canon s) : Canon (busWrite s r
    a bytes data).1 := by
  unfold busWrite
  split
  · exact hc
  · split
    · exact canon_with_heldMgmt hc
    · exact canon_recordBreaks (canon_busAccess hc)

theorem canon_write32 {s : State} {r : Req} {a v : Nat} (hc : Canon s) : Canon (write32 s r a v) := canon_busWrite hc

theorem canon_guardedNode {s : State} {r : Req} {a v : Nat} (hc : Canon s) : Canon (guardedNode s r a v) := canon_ite
    (canon_accessErr (canon_accessErr hc)) (canon_ite (canon_emit (canon_emit hc)) (canon_ite (canon_guardedEffect
    hc) (canon_holdWrite (canon_holdWrite hc))))

theorem canon_guardedWrite {s : State} {r : Req} {a v : Nat} (hc : Canon s) : Canon (guardedWrite s r a v) :=
    canon_ite hc (canon_ite (canon_with_heldMgmt hc) (canon_ite (canon_emit (canon_emit hc)) (canon_recordBreaks
    (canon_guardedNode (canon_breakGuards (canon_heard hc))))))

theorem canon_heldAccesses {s : State} (hc : Canon s) : Canon (heldAccesses s) := canon_foldl (fun _ _ hc1 =>
    canon_ite (canon_guardedWrite hc1) (canon_busWrite hc1)) (canon_with_heldMgmt hc)

end Sys2Proof.Machine
end

section
/-! Canonical form, kept by the operations of `Machine/Script`. -/

namespace Sys2Proof.Machine

theorem canon_guardPair {s : State} {r : Req} {a v : Nat} (hc : Canon s) : Canon (guardPair s r a v).1 := by
  unfold guardPair
  exact canon_busWrite (canon_busWrite hc)

theorem canon_recordEnds {before : State} {a : Nat} {res : State × Bool} {l : List (Nat × Nat × Nat)}
    (hc : Canon res.1) : Canon (recordEnds before a res l) :=
  canon_ite (canon_sectFail (canon_putBoot hc)) (canon_scriptGoes hc)

theorem canon_scriptWrite {s : State} (hc : Canon s) : Canon (scriptWrite s) := by
  unfold scriptWrite
  split
  · exact canon_ite hc (canon_ite (canon_sectFail hc) (canon_recordEnds (canon_busWrite hc)))
  · exact hc

theorem canon_scriptGuarded {s : State} (hc : Canon s) : Canon (scriptGuarded s) := by
  unfold scriptGuarded
  split
  · exact canon_ite hc (canon_ite (canon_sectFail hc) (canon_recordEnds (canon_guardPair hc)))
  · exact hc

theorem canon_guardTimeout {s : State} {r : Req} (hc : Canon s) : Canon (guardTimeout s r) := canon_ite
    (canon_sectFail (canon_putBoot (canon_guardExpire hc))) (canon_guardExpire hc)

theorem canon_scriptWait {s : State} (hc : Canon s) : Canon (scriptWait s) := by
  unfold scriptWait
  split
  · exact canon_ite hc (canon_start hc)
  · exact hc

theorem canon_scriptWaitDone {s : State} (hc : Canon s) : Canon (scriptWaitDone s) := by
  unfold scriptWaitDone
  split
  · exact canon_ite (canon_scriptGoes (canon_stop hc)) hc
  · exact hc

theorem canon_tableNext {s : State} (hc : Canon s) : Canon (tableNext s) := by
  unfold tableNext
  split
  · exact hc
  · exact canon_ite hc (canon_ite (canon_sectFail (canon_putBoot hc)) (canon_ite (canon_sectFail (canon_putBoot
      (canon_writeWords hc))) (canon_ite (canon_nextSect (canon_writeWords hc)) (canon_putBoot (canon_writeWords
      hc)))))

theorem canon_replayWrite {s : State} {z a v : Nat} (hc : Canon s) : Canon (replayWrite s z a v) := canon_ite
    (canon_busWrite hc) (canon_ite hc (canon_ite (canon_busWrite hc) (canon_ite hc (canon_ite (canon_portAperture hc)
    (canon_writeEach hc)))))

theorem canon_replayEq {s : State} {b : List Nat} (hc : Canon s) : Canon (replayEq s b) := canon_ite (canon_accessErr
    hc) (canon_ite (canon_emit hc) (canon_loadEq hc))

theorem canon_replay {z : Nat} {x0 : List ReplayRec} {x1 : List (Nat × Nat)} {x2 : State} (hc : Canon x2) :
    Canon (replay z x0 x1 x2) := by
  induction x0 generalizing x1 x2 with
  | nil => exact hc
  | cons e l ih =>
    cases e with
    | write n a v => exact ih (canon_ite hc (canon_replayWrite hc))
    | guarded n a v => exact ih (canon_ite hc (canon_guardPair hc))
    | eq n b => exact canon_ite (ih hc) (ih (canon_replayEq hc))

theorem canon_zoneReplay {s : State} {z : Nat} {recs : List ReplayRec} (hc : Canon s) : Canon (zoneReplay s z recs)
    := canon_ite (canon_settle (canon_replay (canon_with_zonesReimg hc))) hc

end Sys2Proof.Machine
end

section
/-! Canonical form, kept by the operations of `Machine/RunBus`. -/

namespace Sys2Proof.Machine

theorem canon_timedOut {s : State} {r : Req} {a z : Nat} (hc : Canon s) : Canon (timedOut s r a z) := canon_emit
    (canon_zoneFail hc)

theorem canonOpt_writeOthers {s : State} {r : Req} {a z v : Nat} (hc : Canon s) : CanonOpt (writeOthers s r a z v) :=
    canonOpt_ite (canonOpt_ite (canonOpt_some (canon_portAperture hc)) canonOpt_none) (canonOpt_ite (canonOpt_some
    (canon_writeEach hc)) canonOpt_none)

theorem canon_accessTimeout {s : State} {r : Req} {a z : Nat} {data : Option Word} (hc : Canon s) : Canon
    (accessTimeout s r a z data) := by
  unfold accessTimeout
  refine canon_ite hc ?_
  split
  · exact canon_ite (canon_timedOut hc) hc
  · split
    · next he =>
        have hc1 := canonOpt_state (canonOpt_writeOthers hc) he
        exact canon_recordBreaks (canon_timedOut hc1)
    · exact hc
  · exact hc

end Sys2Proof.Machine
end

section
/-! Canonical form, kept by the operations of `Machine/RunCore`. -/

namespace Sys2Proof.Machine

theorem canon_coreStarts {s : State} {c : Nat} {ok : Bool} (hc : Canon s) : Canon (coreStarts s c ok) := canon_ite
    (canon_setFld (canon_setBit (canon_coreInit (canon_coresEnter hc)))) (canon_coreInit (canon_coresEnter hc))

end Sys2Proof.Machine
end

section
/-! Canonical form, kept by the operations of `Machine/RunLane`. -/

namespace Sys2Proof.Machine

theorem canon_lanePowered {s : State} {l : Nat} (hc : Canon s) : Canon (lanePowered s l) := canon_ite hc (canon_ite
    (canon_start (canon_setLaneState hc)) (canon_toSignalWait hc))

theorem canon_laneSignal {s : State} {l : Nat} (hc : Canon s) : Canon (laneSignal s l) := canon_ite
    (canon_setLaneFlag hc) (canon_ite hc (canon_ite (canon_toCdrAcq (canon_setLaneFlag hc)) (canon_setLaneFlag hc)))

theorem canon_laneSignalLost {s : State} {l : Nat} (hc : Canon s) : Canon (laneSignalLost s l) := canon_ite
    (canon_setPrbsLock (canon_setLaneFlag (canon_setLaneFlag hc))) (canon_ite hc (canon_ite (canon_setLaneFlag hc)
    (canon_toSignalWait (canon_exitService hc))))

theorem canon_cdrLocked {s : State} {l phase : Nat} (hc : Canon s) : Canon (cdrLocked s l phase) := canon_setFld
    (canon_setLaneFlag hc)

theorem canon_laneLocks {s : State} {l phase : Nat} {training : Option Bool} (hc : Canon s) : Canon (laneLocks s l
    phase training) := by
  unfold laneLocks
  refine canon_ite (canon_setPrbsLock (canon_cdrLocked hc)) ?_
  refine canon_ite ?_ hc
  dsimp only
  split
  · exact canon_ite (canon_setPrecode (canon_putLane (canon_start (canon_setLaneState (canon_cdrLocked (canon_stop
      hc)))))) (canon_setPrecode (canon_noTraining (canon_start (canon_setLaneState (canon_cdrLocked (canon_stop
      hc))))))
  · exact canon_setPrecode (canon_noTraining (canon_start (canon_setLaneState (canon_cdrLocked (canon_stop hc)))))

theorem canon_laneCdrOut {s : State} {l : Nat} (hc : Canon s) : Canon (laneCdrOut s l) := canon_ite
    (canon_failAttempt hc) hc

theorem canon_takeAdapted {s : State} {l : Nat} {w : List Word} (hc : Canon s) : Canon (takeAdapted s l w) :=
    canon_foldl (fun _ _ hc1 => canon_wr hc1) hc

theorem canon_laneAdapted {s : State} {l : Nat} {w : List Word} {pre : Bool} (hc : Canon s) : Canon (laneAdapted s l
    w pre) := canon_ite (canon_setLaneState (canon_setPrecode (canon_ite (canon_putLane (canon_takeAdapted
    (canon_stop hc))) (canon_takeAdapted (canon_stop hc))))) (canon_ite (canon_takeAdapted hc) hc)

theorem canon_laneAdaptOut {s : State} {l : Nat} (hc : Canon s) : Canon (laneAdaptOut s l) := canon_ite
    (canon_failAttempt hc) hc

theorem canon_laneChecked {s : State} {l : Nat} (hc : Canon s) : Canon (laneChecked s l) := canon_ite
    (canon_finishCheck hc) hc

theorem canon_laneRecheck {s : State} {l : Nat} (hc : Canon s) : Canon (laneRecheck s l) := canon_ite
    (canon_startCheck hc) hc

theorem canon_laneRetry {s : State} {l : Nat} (hc : Canon s) : Canon (laneRetry s l) := canon_ite (canon_toCdrAcq
    (canon_stop hc)) hc

theorem canon_laneDrops {s : State} {l cause : Nat} (hc : Canon s) : Canon (laneDrops s l cause) := canon_ite
    (canon_dropFromService hc) hc

theorem canon_cdrLost {s : State} {l : Nat} (hc : Canon s) : Canon (cdrLost s l) := canon_ite (canon_setPrbsLock
    (canon_setLaneFlag hc)) (canon_laneDrops hc)

theorem canon_blockLocks {s : State} {l : Nat} {headers : List Nat} (hc : Canon s) : Canon (blockLocks s l headers)
    := canon_ite (canon_setLaneFlag hc) hc

theorem canon_blockUnlocks {s : State} {l : Nat} {headers : List Nat} (hc : Canon s) : Canon (blockUnlocks s l
    headers) := canon_ite hc (canon_ite (canon_dropFromService (canon_setLaneFlag hc)) (canon_setLaneFlag hc))

theorem canon_laneErrors {s : State} {l n : Nat} (hc : Canon s) : Canon (laneErrors s l n) := canon_ite (canon_ite
    (canon_add64 hc) hc) (canon_ite (canon_laneDrops (canon_countLaneErrors hc)) (canon_countLaneErrors hc))

theorem canon_laneResumes {s : State} {l phase : Nat} (hc : Canon s) : Canon (laneResumes s l phase) := canon_ite hc
    (canon_ite (canon_enterService (canon_cdrLocked (canon_setLaneFlag hc))) (canon_cdrLocked (canon_setLaneFlag hc)))

theorem canon_laneResumeOut {s : State} {l : Nat} (hc : Canon s) : Canon (laneResumeOut s l) := canon_ite
    (canon_toCdrAcq (canon_putLane (canon_stop hc))) hc

theorem canon_laneSlip {s : State} {l : Nat} (hc : Canon s) : Canon (laneSlip s l) := canon_ite (canon_setDlyValid
    (canon_putLane hc)) hc

end Sys2Proof.Machine
end

section
/-! Canonical form, kept by the operations of `Machine/RunQueue`. -/

namespace Sys2Proof.Machine

theorem canon_selectFrame {s : State} {p : Nat} {ecc : Option EccFault} {firstCellLeft : Bool} (hc : Canon s) : Canon
    (selectFrame s p ecc firstCellLeft) := by
  unfold selectFrame
  split
  · exact canon_egressSelect hc
  · exact canon_egressEcc hc
  · exact canon_ite (canon_eccSingle hc) hc
  · exact canon_egressStomp hc

end Sys2Proof.Machine
end

section
/-! Canonical form, kept by the operations of `Machine/RunSpread`. -/

namespace Sys2Proof.Machine

theorem canon_holdEnds {s : State} {g b : Nat} (hc : Canon s) : Canon (holdEnds s g b) := by
  unfold holdEnds
  split
  · exact canon_ite hc (canon_releaseHold hc)
  · exact hc

theorem canon_holdExpires {s : State} {g b : Nat} (hc : Canon s) : Canon (holdExpires s g b) := canon_ite
    (canon_sprEvent (canon_releaseHold hc)) hc

end Sys2Proof.Machine
end

section
/-! Canonical form, kept by the operations of `Machine/RunSynth`. -/

namespace Sys2Proof.Machine

theorem canon_spoilTx {s : State} {p : Nat} (hc : Canon s) : Canon (spoilTx s p) := canon_ite (canon_with_out hc) hc

theorem canon_loopLost {s : State} {i : Nat} (hc : Canon s) : Canon (loopLost s i) := canon_ite hc (canon_foldl (fun
    _ _ hc1 => canon_spoilTx hc1) (canon_loopLose hc))

theorem canon_loopRestart {s : State} {i : Nat} (hc : Canon s) : Canon (loopRestart s i) := canon_ite
    (canon_heldAccesses (canon_heldWrites (canon_loopLock hc))) (canon_heldWrites (canon_loopLock hc))

end Sys2Proof.Machine
end

section
/-! Canonical form, kept by the operations of `Machine/RunSystem`. -/

namespace Sys2Proof.Machine

theorem canon_requestWords {s : State} {w : Nat} {x0 : List Nat} (hc : Canon s) : Canon (requestWords s w x0) := by
  induction x0 generalizing s w with
  | nil => exact hc
  | cons x l ih => exact ih (canon_write32 hc)

theorem canon_request {s : State} {cmd : Nat} {tag : Byte} {args : List Word} (hc : Canon s) : Canon (request s cmd
    tag args) := canon_write32 (canon_requestWords hc)

end Sys2Proof.Machine
end

section
/-! Canonical form, kept by the operations of `Machine/RunTime`. -/

namespace Sys2Proof.Machine

theorem canon_islandClocks {s : State} {g n : Nat} (hc : Canon s) : Canon (islandClocks s g n).2 := by
  unfold islandClocks
  split
  · split
    · exact hc
    · split
      · exact canon_draw hc
      · split
        · exact hc
        · exact hc
  · split
    · split
      · exact hc
      · exact canon_draw hc
    · split
      · split
        · exact hc
        · exact hc
      · split
        · exact canon_draw hc
        · exact hc

theorem canon_cycleAdd {s : State} {g n : Nat} (hc : Canon s) : Canon (cycleAdd s g n) := canon_ite
    (canon_with_pmcWraps (canon_wr64 hc)) (canon_wr64 hc)

theorem canon_openEvent {s : State} {g ev k : Nat} (hc : Canon s) : Canon (openEvent s g ev k) := canon_ite
    (canon_pmcEvent (canon_draw hc)) hc

theorem canon_runnerClocks {s : State} {g n k : Nat} (hc : Canon s) : Canon (runnerClocks s g n k) := canon_openEvent
    (canon_openEvent (canon_foldl (fun _ _ hc1 => canon_ite hc1 (canon_pmcEvent hc1)) hc))

theorem canon_hostReads {s : State} (hc : Canon s) : Canon (hostReads s) := canon_ite (canon_pmcEvent (canon_draw
    hc)) hc

theorem canon_countClocks {s : State} {n : Nat} (hc : Canon s) : Canon (countClocks s n) := canon_ite hc (canon_foldl
    (fun _ _ hc1 => canon_ite (canon_runnerClocks (canon_pmcEvent (canon_cycleAdd (canon_islandClocks hc1))))
    (canon_ite (canon_ite (canon_openEvent (canon_pmcEvent (canon_cycleAdd (canon_islandClocks hc1))))
    (canon_pmcEvent (canon_cycleAdd (canon_islandClocks hc1)))) (canon_ite (canon_hostReads (canon_pmcEvent
    (canon_cycleAdd (canon_islandClocks hc1)))) (canon_pmcEvent (canon_cycleAdd (canon_islandClocks hc1)))))) hc)

theorem canon_clockAdvance {s : State} {n : Nat} (hc : Canon s) : Canon (clockAdvance s n) := canon_alignsDue
    (canon_synsAdvance (canon_advanceAll hc))

theorem canon_timePasses {s : State} {n : Nat} (hc : Canon s) : Canon (timePasses s n) := canon_countClocks
    (canon_ite (canon_clockAdvance (canon_ite (canon_with_buf (canon_ite (canon_coresEnter (canon_ite
    (canon_latchUpTo hc) hc)) (canon_ite (canon_latchUpTo hc) hc))) (canon_ite (canon_coresEnter (canon_ite
    (canon_latchUpTo hc) hc)) (canon_ite (canon_latchUpTo hc) hc)))) (canon_ite (canon_with_buf (canon_ite
    (canon_coresEnter (canon_ite (canon_latchUpTo hc) hc)) (canon_ite (canon_latchUpTo hc) hc))) (canon_ite
    (canon_coresEnter (canon_ite (canon_latchUpTo hc) hc)) (canon_ite (canon_latchUpTo hc) hc))))

theorem canon_arrivals {before s : State} (hcs : Canon s) : Canon (arrivals before s) :=
    canon_ite hcs (canon_ite (canon_refreshGlobal (canon_freeAll hcs)) (canon_freeAll hcs))

theorem canon_timeRead {s : State} {r : Req} {n : Nat} (hc : Canon s) : Canon (timeRead s r n) := canon_ite
    (canon_emit hc) (canon_captureShadow (canon_ite (canon_pmcEvent hc) hc))

theorem canon_tb0Step {s : State} (hc : Canon s) : Canon (tb0Step s) := by
  unfold tb0Step
  split
  · exact hc
  · exact canon_ite hc (canon_ite (canon_assayStep (canon_lldStep (canon_riserStep (canon_followStep hc))))
      (canon_followStep hc))

theorem canon_referenceLost {s : State} {k : Nat} (hc : Canon s) : Canon (referenceLost s k) := canon_ite
    (canon_wakeAlarm (canon_refInactive hc)) (canon_refInactive hc)

end Sys2Proof.Machine
end

section
/-! Every command keeps the canonical form of the stored registers and of the banks. -/

namespace Sys2Proof.Machine

section
variable {s t : State} {f : State → State}

theorem endsCanon_done (h : Canon t) : EndsCanon s (done s t) := ⟨t, rfl, h⟩

theorem endsCanon_onDie (hc : Canon s) (hf : Canon s → Canon (f s)) : EndsCanon s (onDie s f) :=
  endsCanon_done (canon_ite (hf hc) hc)

theorem endsCanon_onKeep (hc : Canon s) (hf : Canon s → Canon (f s)) : EndsCanon s (onKeep s f) :=
  endsCanon_done (canon_ite (hf hc) hc)

theorem endsCanon_onTclk (hc : Canon s) (hf : Canon s → Canon (f s)) : EndsCanon s (onTclk s f) :=
  endsCanon_done (canon_ite (hf hc) hc)

theorem endsCanon_onAwake (hc : Canon s) (hf : Canon s → Canon (f s)) : EndsCanon s (onAwake s f) :=
  endsCanon_done (canon_ite (hf hc) hc)

theorem endsCanon_onIsland {i : Nat} (hc : Canon s) (hf : Canon s → Canon (f s)) : EndsCanon s (onIsland s i f) :=
  endsCanon_done (canon_ite (hf hc) hc)

theorem endsCanon_onCentral (hc : Canon s) (hf : Canon s → Canon (f s)) : EndsCanon s (onCentral s f) :=
  endsCanon_onIsland hc hf

theorem endsCanon_onEngine (hc : Canon s) (hf : Canon s → Canon (f s)) : EndsCanon s (onEngine s f) :=
  endsCanon_onCentral hc fun hc => canon_ite hc (hf hc)

theorem endsCanon_onFirmware (hc : Canon s) (hf : Canon s → Canon (f s)) : EndsCanon s (onFirmware s f) :=
  endsCanon_onIsland hc hf

theorem endsCanon_onZones (hc : Canon s) (hf : Canon s → Canon (f s)) : EndsCanon s (onZones s f) :=
  endsCanon_onIsland hc hf

theorem endsCanon_onPort {p : Nat} (hc : Canon s) (hf : Canon s → Canon (f s)) : EndsCanon s (onPort s p f) :=
  endsCanon_done (canon_ite (hf hc) hc)

theorem endsCanon_onEgress {p : Nat} (hc : Canon s) (hf : Canon s → Canon (f s)) : EndsCanon s (onEgress s p f) :=
  endsCanon_done (canon_ite (hf hc) hc)

theorem endsCanon_onLane {l : Nat} (hc : Canon s) (hf : Canon s → Canon (f s)) : EndsCanon s (onLane s l f) :=
  endsCanon_onAwake hc fun hc => canon_settle (canon_laneAfter (hf hc))

theorem endsCanon_onCores (hc : Canon s) (hf : Canon s → Canon (f s)) : EndsCanon s (onCores s f) :=
  endsCanon_onKeep hc fun hc => canon_settle (canon_swoAfter (hf hc))

theorem endsCanon_onLoop {i : Loop} (hc : Canon s) (hf : Canon s → Canon (f s)) : EndsCanon s (onLoop s i f) := by
  unfold onLoop
  split
  · exact endsCanon_onKeep hc hf
  · exact endsCanon_onDie hc hf

theorem endsCanon_onBank {b : Nat} (hc : Canon s) (hf : Canon s → Canon (f s)) : EndsCanon s (onBank s b f) := by
  unfold onBank
  split
  · exact endsCanon_onKeep hc hf
  · exact endsCanon_onDie hc hf

theorem endsCanon_atT {k kind : Nat} {arriving : List Nat} (hc : Canon s) : EndsCanon s (atT s k kind arriving) :=
  endsCanon_onDie hc fun hc => canon_ite hc (canon_settle (canon_executeEntry hc))

theorem endsCanon_msixMaskWrite {vec : Option (Fin 32)} {mask : Bool} (hc : Canon s) :
    EndsCanon s (execMsixMaskWrite vec mask s) := by
  cases vec with
  | none => exact endsCanon_onDie (f := fun s => writeMask s none mask) hc canon_writeMask
  | some n => exact endsCanon_done (canon_write32 hc)

theorem endsCanon_tapInstruction {i : TapInstr} {scan : Option TapScan} (hc : Canon s) :
    EndsCanon s (execTapInstruction i scan s) := by
  cases scan with
  | none => exact endsCanon_done (canon_tapInstr hc)
  | some x => exact endsCanon_done (canon_tapScan (canon_tapInstr hc))

theorem endsCanon_stepupPageRx {p : Fin 64} {blocks} (hc : Canon s) : EndsCanon s (execStepupPageRx p blocks s) := by
  refine endsCanon_onPort hc fun hc => ?_
  cases pageOf blocks with
  | none => exact hc
  | some b => exact canon_settle (canon_stepUpPage hc)

theorem endsCanon_frameAdmit {injected : Option Injected} (hc : Canon s) : EndsCanon s (execFrameAdmit injected s) := by
  cases injected with
  | none => exact endsCanon_onCentral hc fun hc => canon_admitNext hc
  | some x => exact endsCanon_onCentral hc fun hc => canon_admitNext (canon_injectOuter hc)

end

/-- Every command but TB_ADVANCE keeps the canonical form. The cases that stay for the last arm are the guarded writes
(R362), one of which bears a name that Lean keeps for itself. -/
theorem exec_endsCanon {s : State} (c : Instr) (hc : Canon s) (hne : ∀ n, c ≠ .tbAdvance n) : EndsCanon s (exec c s) := by
  unfold exec
  cases c with
  | tbAdvance n => exact absurd rfl (hne n)
  | registerWrite => exact endsCanon_done (canon_busWrite hc)
  | ftimeCommit | guardFirstWrite | guardComplementWrite | sqcWriteBack | apertureWrite | aerrClr | retrain
  | laneCtrlWrite | laneEqTableWrite | laneEqValidWrite | laneTestWrite | portCfgWrite | portEnableWrite | restart
  | latch | tbSetStep | tbSrcWrite | suspClr | refCfgWrite | refSelWrite | synCfgWrite | synRampGo | synRampStop
  | plsArm | plsStop | plsDisable | tdcArm | tdcAbort | statGo | calGo | calAbort | mouldEntryWrite
  | riserContextDisable | rstSeq | ladleGroupStage | ladleGroupCommit | assaySourceCommit | assayContextEnable
  | assayContextDisable | assayMigGo | assayMigCancel | tacExpectClear | trig | atArm | atDisarm | snpFreeSlot | swset
  | intSourceCfgWrite | claim | eoi | ack | abort | ringEnable | freeze | run | snap | pmcGroupClear
  | bankStateRequest | captRd | govCapWrite | tdcChannelEnable | riserContextEnable | lagGroupEnable | lagMemberWrite
  | pinTableWrite =>
    exact endsCanon_done (canon_write32 hc)
  | guardTimeout => exact endsCanon_onDie hc fun h => canon_settle (canon_guardTimeout h)
  | zoneAccessTimeout => exact endsCanon_onDie hc fun h => canon_accessTimeout (canon_ite (canon_pmcEvent h) h)
  | zoneCheckError => exact endsCanon_onZones hc fun h => canon_zoneFail h
  | zoneResetQuenched => exact endsCanon_onDie hc fun h => canon_settle (canon_zoneClear h)
  | zoneResetDone => exact endsCanon_onDie hc fun h => canon_settle (canon_sleepAfterZone (canon_zoneDone h))
  | zoneReimage => exact endsCanon_onFirmware hc fun h => canon_zoneReplay h
  | vinKaRise => exact endsCanon_done (canon_kaRise hc)
  | vinKaLoss => exact endsCanon_onKeep hc fun h => canon_kaLoss h
  | vinMainLoss => exact endsCanon_done (canon_ite (canon_mainLoss hc) hc)
  | thermalTrip => exact endsCanon_onDie hc fun h => canon_thermalTrip h
  | dataDieStart => exact endsCanon_done (canon_startDie hc)
  | resetNAssert => exact endsCanon_done (canon_resetNLow hc)
  | resetNRelease => exact endsCanon_done (canon_resetNHigh hc)
  | hostReset => exact endsCanon_onDie hc fun h => canon_hostReset h
  | fuseReadDone => exact endsCanon_onDie hc fun h => canon_settle (canon_fusesRead h)
  | imageHeaderRead => exact endsCanon_onFirmware hc fun h => canon_settle (canon_headerRead h)
  | sectionLoad => exact endsCanon_onFirmware hc fun h => canon_settle (canon_sectionLoad h)
  | regscriptWrite => exact endsCanon_onFirmware hc fun h => canon_scriptWrite h
  | regscriptGuarded => exact endsCanon_onFirmware hc fun h => canon_scriptGuarded h
  | regscriptWait => exact endsCanon_onFirmware hc fun h => canon_scriptWait h
  | regscriptWaitDone => exact endsCanon_onFirmware hc fun h => canon_scriptWaitDone h
  | tableChunk => exact endsCanon_onFirmware hc fun h => canon_tableNext h
  | firmwareStart => exact endsCanon_onFirmware hc fun h => canon_firmwareStart h
  | firmwareReady => exact endsCanon_onFirmware hc fun h => canon_firmwareReady h
  | firmwareReadyTimeout => exact endsCanon_onDie hc fun h => canon_settle (canon_firmwareTimeout h)
  | hbmTrainingDone => exact endsCanon_onDie hc fun h => canon_hbmTrained h
  | dataDieRelease => exact endsCanon_onDie hc fun h => canon_settle (canon_dieRelease h)
  | fallbackResetDone => exact endsCanon_onDie hc fun h => canon_fallbackDone h
  | govPowerSample => exact endsCanon_onDie hc fun h => canon_settle (canon_govSample h)
  | govLimitEntry | govLimitExit =>
    exact endsCanon_onDie hc fun h => canon_settle (canon_govLimit h)
  | govShedTick => exact endsCanon_onDie hc fun h => canon_settle (canon_govShed h)
  | govBelowCapTimeout => exact endsCanon_onDie hc fun h => canon_settle (canon_govBelow h)
  | govRestoreTick => exact endsCanon_onDie hc fun h => canon_settle (canon_govRestoreOne h)
  | sleepDrainDone => exact endsCanon_onDie hc fun h => canon_settle (canon_sleepDrained h)
  | sleepEntryComplete => exact endsCanon_onDie hc fun h => canon_settle (canon_sleepEntered h)
  | wakeTimeReached => exact endsCanon_onDie hc fun h => canon_settle (canon_wakeTimed h)
  | wakeComplete => exact endsCanon_onDie hc fun h => canon_settle (canon_wakeDone h)
  | lanePowerupDone => exact endsCanon_onLane hc fun h => canon_lanePowered h
  | laneSignalDetect => exact endsCanon_onLane hc fun h => canon_laneSignal h
  | laneSignalLoss => exact endsCanon_onLane hc fun h => canon_laneSignalLost h
  | laneCdrLock => exact endsCanon_onLane hc fun h => canon_laneLocks h
  | cdrAcqTimeout => exact endsCanon_onLane hc fun h => canon_laneCdrOut h
  | adaptConverged => exact endsCanon_onLane hc fun h => canon_laneAdapted h
  | adaptTimeout => exact endsCanon_onLane hc fun h => canon_laneAdaptOut h
  | laneCheckDone => exact endsCanon_onLane hc fun h => canon_laneChecked h
  | laneRecheckTimer => exact endsCanon_onLane hc fun h => canon_laneRecheck h
  | laneCdrLoss => exact endsCanon_onLane hc fun h => canon_cdrLost h
  | blockLockAcquired => exact endsCanon_onLane hc fun h => canon_blockLocks h
  | blockLockLoss => exact endsCanon_onLane hc fun h => canon_blockUnlocks h
  | laneErrorLimit => exact endsCanon_onLane hc fun h => canon_laneErrors h
  | laneRetryTimer => exact endsCanon_onLane hc fun h => canon_laneRetry h
  | resumeLock => exact endsCanon_onLane hc fun h => canon_laneResumes h
  | resumeTimeout => exact endsCanon_onLane hc fun h => canon_laneResumeOut h
  | portLinkUp => exact endsCanon_onPort hc fun h => canon_settle (canon_linkUp h)
  | portLinkLoss => exact endsCanon_onPort hc fun h => canon_ite (canon_settle (canon_startQuench h)) h
  | quenchDone => exact endsCanon_onPort hc fun h => canon_settle (canon_quenchDone h)
  | anComplete => exact endsCanon_onPort hc fun h => canon_settle (canon_anComplete h)
  | anRestartTimer => exact endsCanon_onPort hc fun h => canon_settle (canon_anRestart h)
  | stepupPageRx => exact endsCanon_stepupPageRx hc
  | stepupNoPartnerTimeout => exact endsCanon_onPort hc fun h => canon_settle (canon_stepUpNoPartner h)
  | stepupSlowLinkOk => exact endsCanon_onPort hc fun h => canon_settle (canon_stepUpSlowOk h)
  | stepupSlowTimeout => exact endsCanon_onPort hc fun h => canon_settle (canon_stepUpSlowOut h)
  | stepupQualDone => exact endsCanon_onPort hc fun h => canon_settle (canon_stepUpQualified h)
  | stepupFastLinkOk => exact endsCanon_onPort hc fun h => canon_settle (canon_stepUpFastOk h)
  | stepupFastTimeout => exact endsCanon_onPort hc fun h => canon_settle (canon_stepUpFastOut h)
  | stepupHoldRetry => exact endsCanon_onPort hc fun h => canon_settle (canon_stepUpRetry h)
  | trunkMarkerTx => exact endsCanon_onPort hc fun h => canon_settle (canon_markerTx h)
  | trunkMarkerRx => exact endsCanon_onPort hc fun h => canon_settle (canon_markerRx h)
  | trunkBlockTx => exact endsCanon_onPort hc fun h => canon_settle (canon_blockTx h)
  | trunkBlockRx => exact endsCanon_onPort hc fun h => canon_settle (canon_blockRx h)
  | trunkHelloTx => exact endsCanon_onPort hc fun h => canon_helloTx h
  | trunkHelloRx => exact endsCanon_onPort hc fun h => canon_settle (canon_helloRx h)
  | trunkAlignTimeout => exact endsCanon_onPort hc fun h => canon_settle (canon_alignTimeout h)
  | trunkHelloTimeout => exact endsCanon_onPort hc fun h => canon_settle (canon_helloTimeout h)
  | trunkConflictRetry => exact endsCanon_onPort hc fun h => canon_settle (canon_conflictRetry h)
  | pfcFrameRx => exact endsCanon_onPort hc fun h => canon_pfcReceive h
  | pfcPauseExpiry => exact endsCanon_onPort hc fun h => canon_pfcExpire h
  | macControlRx => exact endsCanon_onPort hc fun h => canon_ite h (canon_macControl h)
  | sidebandScan => exact endsCanon_onAwake hc fun h => canon_settle (canon_sidebandScan h)
  | moduleDatapathActivated => exact endsCanon_onFirmware hc fun h => canon_settle (canon_moduleActivated h)
  | tbTimeRead => exact endsCanon_onDie hc fun h => canon_ite h (canon_timeRead h)
  | tb0StepApply => exact endsCanon_onKeep hc fun h => canon_settle (canon_tb0Step h)
  | ptpSyncSample => exact endsCanon_onPort hc fun h => canon_settle (canon_ptpSync h)
  | ppsEdgeSample => exact endsCanon_onKeep hc fun h => canon_settle (canon_ppsEdge h)
  | freqEstimate => exact endsCanon_onKeep hc fun h => canon_settle (canon_freqSample h)
  | tbHoldTimeout => exact endsCanon_onKeep hc fun h => canon_ite (canon_enterHoldover h) h
  | ptpSyncTx => exact endsCanon_onPort hc fun h => canon_ptpSyncTx h
  | ptpDelayReqTx => exact endsCanon_onPort hc fun h => canon_ptpDelayReqTx h
  | ptpDelayReqRx => exact endsCanon_onPort hc fun h => canon_ptpDelayReqRx h
  | ptpDelayRespRx => exact endsCanon_onPort hc fun h => canon_ptpDelayResp h
  | ptpMessageDiscard => exact endsCanon_onPort hc fun h => canon_ptpUnsupported h
  | ptpGeneralRx => exact endsCanon_onPort hc fun h => canon_settle (canon_ptpGeneral h)
  | bmcaSelect => exact endsCanon_onFirmware hc fun h => canon_ite (canon_settle (canon_writeDepth (canon_bmca h))) h
  | portPhaseMeasure => exact endsCanon_onPort hc fun h => canon_phaseMeasure h
  | xoLoss => exact endsCanon_onKeep hc fun h => canon_xoLost h
  | xoRecover => exact endsCanon_onKeep hc fun h => canon_xoBack h
  | refInactive => exact endsCanon_onKeep hc fun h => canon_settle (canon_referenceLost h)
  | refFreqMeasure => exact endsCanon_onKeep hc fun h => canon_settle (canon_refMeasure h)
  | refQualDone => exact endsCanon_onKeep hc fun h => canon_settle (canon_refQualified h)
  | refSwitchAcquired => exact endsCanon_onKeep hc fun h => canon_settle (canon_selAcquired h)
  | refWtrExpiry => exact endsCanon_onKeep hc fun h => canon_settle (canon_wtrExpire h)
  | synOutputEnableApply => exact endsCanon_onTclk hc fun h => canon_synOutApply h
  | synLockLost => exact endsCanon_onTclk hc fun h => canon_synLoseLock h
  | synRelocked => exact endsCanon_onTclk hc fun h => canon_synRelock h
  | synRelockTimeout => exact endsCanon_onTclk hc fun h => canon_synRelockFail h
  | synRelockRetry => exact endsCanon_onTclk hc fun h => canon_synRetry h
  | synRampAt => exact endsCanon_onTclk hc fun h => canon_ite h (canon_rampAt h)
  | synRampSegmentEnd => exact endsCanon_onTclk hc fun h => canon_ite h (canon_rampSegEnd h)
  | synAlignEdge => exact endsCanon_onTclk hc fun h => canon_ite h (canon_synAlign h)
  | synAlignSlewDone => exact endsCanon_onTclk hc fun h => canon_synSlewDone h
  | islandLoopLockLoss => exact endsCanon_onLoop hc fun h => canon_loopLost h
  | islandLoopRelock => exact endsCanon_onLoop hc fun h => canon_rampPending (canon_settle (canon_loopRestart h))
  | islandLoopRelockTimeout => exact endsCanon_onLoop hc fun h => canon_loopTimeout h
  | lolFlagClear => exact endsCanon_onDie hc fun h => canon_lolClear h
  | plsRisingEdge => exact endsCanon_onTclk hc fun h => canon_plsRise h
  | plsFallingEdge => exact endsCanon_onTclk hc fun h => canon_plsFall h
  | plsExtRequest => exact endsCanon_onTclk hc fun h => canon_extRequest h
  | plsAlignEdge => exact endsCanon_onTclk hc fun h => canon_plsAlign h
  | plsTrimInstall => exact endsCanon_onTclk hc fun h => canon_calPulseInstall h
  | tdcGateEdge => exact endsCanon_onTclk hc fun h => canon_gateEdge h
  | tdcInputEdge => exact endsCanon_onTclk hc fun h => canon_inputEdge h
  | tdcWindowExpiry => exact endsCanon_onTclk hc fun h => canon_windowEnd h
  | tdcMeasStore => exact endsCanon_onTclk hc fun h => canon_measStore h
  | tdcRearmTimer => exact endsCanon_onTclk hc fun h => canon_tdcRearm h
  | coreInitDone => exact endsCanon_onKeep hc fun h => canon_coreStarts h
  | trackingMeasure => exact endsCanon_onKeep hc fun h => canon_trackMeasure h
  | coreSyncTracked => exact endsCanon_onKeep hc fun h => canon_coreTracked h
  | swoMasterUnlock | swoCheckFail | swoHeartbeatMissing =>
    exact endsCanon_onCores hc fun h => canon_activeFails h
  | swoGapEnd => exact endsCanon_onKeep hc fun h => canon_ite (canon_calGapEnd (canon_gapEnd h)) h
  | selftestSlot => exact endsCanon_onKeep hc fun h => canon_selftest h
  | coreAutoRepair => exact endsCanon_onKeep hc fun h => canon_autoRepair h
  | calMeasurementDone => exact endsCanon_onTclk hc fun h => canon_calMeasured h
  | calPreconditionBroken => exact endsCanon_onTclk hc fun h => canon_calPrecondition h
  | calBusyTimeout => exact endsCanon_onTclk hc fun h => canon_calBusyOut h
  | calSaveFlashOpDone => exact endsCanon_onDie hc fun h => canon_saveStep h
  | calSaveTimeout => exact endsCanon_onDie hc fun h => canon_saveTimeout h
  | frameClassify => exact endsCanon_onDie hc fun h => canon_classifyFrame h
  | mouldScrub => exact endsCanon_onIsland hc fun h => canon_scrubEntry h
  | mouldEntryRewrite => exact endsCanon_onIsland hc fun h => canon_settle (canon_rewriteEntry h)
  | heatLoadClearDone => exact endsCanon_onCentral hc fun h => canon_heatCleared h
  | heatSealDone => exact endsCanon_onCentral hc fun h => canon_settle (canon_heatSealed h)
  | heatCommitExamine => exact endsCanon_onCentral hc fun h => canon_settle (canon_examineCommit h)
  | heatCommitExecute => exact endsCanon_onCentral hc fun h => canon_settle (canon_commitAtT h)
  | heatCommitWaitTimeout => exact endsCanon_onCentral hc fun h => canon_settle (canon_commitTimeout h)
  | heatDrainDone => exact endsCanon_onCentral hc fun h => canon_settle (canon_heatDrained h)
  | heatDrainTimeout => exact endsCanon_onCentral hc fun h => canon_settle (canon_heatForced h)
  | frameAdmit => exact endsCanon_frameAdmit hc
  | pfcXoffRepeat => exact endsCanon_onPort hc fun h => canon_pfcRepeatTick h
  | egressFrameSelect => exact endsCanon_onEgress hc fun h => canon_selectFrame h
  | frameDepart => exact endsCanon_onEgress hc fun h => canon_ite (canon_departFrame h) h
  | shaperRefill => exact endsCanon_onCentral hc fun h => canon_foldl (fun _ _ h => canon_refillPort h) h
  | deepCellWrite => exact endsCanon_onCentral hc fun h => canon_ite (canon_writeDeep h) h
  | deepPrefetchRead => exact endsCanon_onCentral hc fun h => canon_prefetchDeep h
  | deepCellRead => exact endsCanon_onCentral hc fun h => canon_readDeep h
  | recircReentry => exact endsCanon_onIsland hc fun h => canon_reenterFrame h
  | riserFrameArrival => exact endsCanon_onCentral hc fun h => canon_riserArrive h
  | riserTimeout => exact endsCanon_onCentral hc fun h => canon_riserExpire h
  | migrationHoldEnd => exact endsCanon_onCentral hc fun h => canon_holdEnds h
  | migrationHoldTimeout => exact endsCanon_onCentral hc fun h => canon_holdExpires h
  | memberOut => exact endsCanon_onCentral hc fun h => canon_ite (canon_memberLeaves h) h
  | ladleReplicate => exact endsCanon_onCentral hc fun h => canon_replicate h
  | lldReserve => exact endsCanon_onCentral hc fun h => canon_lldReserve h
  | lldWindowStart => exact endsCanon_onEgress hc fun h => canon_windowOpen h
  | lldLateExpiry => exact endsCanon_onCentral hc fun h => canon_lldExpire h
  | assayIntakeFrame => exact endsCanon_onEngine hc fun h => canon_intakeFrame h
  | assayIntakeGrant => exact endsCanon_onEngine hc fun h => canon_intakeGrant h
  | assayMembership => exact endsCanon_onEngine hc fun h => canon_membership h
  | assayDecide => exact endsCanon_onEngine hc fun h => canon_decide1 h
  | assayMigCopyDone => exact endsCanon_onEngine hc fun h => canon_migCopied h
  | assayMigHandover => exact endsCanon_onEngine hc fun h => canon_migHandover h
  | tacAnnounceRx => exact endsCanon_onPort hc fun h => canon_settle (canon_tacAnnounce h)
  | heatCommit | snapshot | counterClear | portEnable | pulse | reset | barrier | tacCancel =>
    exact endsCanon_atT hc
  | tacReportRx => exact endsCanon_onPort hc fun h => canon_settle (canon_tacReport h)
  | tacReportDeadline => exact endsCanon_onDie hc fun h => canon_ite h (canon_settle (canon_tacDeadline h))
  | snpAtReached => exact endsCanon_onCentral hc fun h => canon_snpReached h
  | snapInEdge => exact endsCanon_onDie hc fun h => canon_settle (canon_wakeSnap (canon_snpEdge h))
  | snpCopyDone => exact endsCanon_onCentral hc fun h => canon_snpCopied h
  | sourceRaise => exact endsCanon_onDie hc fun h => canon_ite (canon_raise h) h
  | intCoalesceTimeout => exact endsCanon_onDie hc fun h => canon_ite (canon_coalesceFire h) h
  | pcieL1ExitDone => exact endsCanon_onDie hc fun h => canon_linkL1Exit h
  | pcieD0Return => exact endsCanon_onDie hc fun h => canon_linkD0 h
  | getVersion | getHealth | flashRead | flashErase | flashProgram | cmisRead | cmisWrite =>
    exact endsCanon_done (canon_request hc)
  | mbxResponse => exact endsCanon_onFirmware hc fun h => canon_mbxRespond h
  | telemetrySample => exact endsCanon_onCentral hc fun h => canon_telSample h
  | pmcCounterWrap => exact endsCanon_onDie hc fun h => canon_ite h (canon_pmcWrap h)
  | bankStateChangeDone => exact endsCanon_onBank hc fun h => canon_bankChanged h
  | bankEccError => exact endsCanon_onBank hc fun h => canon_bankError h
  | marchDone => exact endsCanon_onDie hc fun h => canon_ite h (canon_marchEnd h)
  | tapInstruction => exact endsCanon_tapInstruction hc
  | tapReset => exact endsCanon_done (canon_tapReset hc)
  | vinMainRise => exact endsCanon_done (canon_mainRise hc)
  | govClockRampDone => exact endsCanon_onDie hc fun h => canon_settle (canon_govRampDone h)
  | laneBitSlip => exact endsCanon_onLane hc fun h => canon_laneSlip h
  | stepupQualCodewordError => exact endsCanon_onPort hc fun h => canon_stepUpCodeword h
  | stepupQualLinkFault => exact endsCanon_onPort hc fun h => canon_settle (canon_stepUpFault h)
  | synLockAcquired => exact endsCanon_onTclk hc fun h => canon_synLock h
  | puntBucketRefill => exact endsCanon_onCentral hc fun h => canon_puntRefill h
  | assayMigTReached => exact endsCanon_onEngine hc fun h => canon_migReached h
  | pcieL1Entry => exact endsCanon_onDie hc fun h => canon_linkL1 h
  | pcieD3hotEntry => exact endsCanon_onDie hc fun h => canon_linkD3 h
  | msixMaskWrite => exact endsCanon_msixMaskWrite hc
  | _ => exact endsCanon_done (canon_guardedWrite hc)

theorem canon_tbAdvance {s t : State} {n : Nat} (hc : Canon s) (h : exec (.tbAdvance n) s = .next t) : Canon t := by
  rw [exec_tbAdvance] at h
  obtain rfl := Host.Outcome.next.inj h
  exact canon_arrivals (canon_timePasses hc)

theorem exec_canon {s t : State} (c : Instr) (hc : Canon s) (h : exec c s = .next t) : Canon t := by
  by_cases hn : ∃ n, c = .tbAdvance n
  · obtain ⟨n, rfl⟩ := hn
    exact canon_tbAdvance hc h
  · obtain ⟨u, hu, hcu⟩ := exec_endsCanon c hc fun n e => hn ⟨n, e⟩
    obtain rfl := Host.Outcome.next.inj (hu.symm.trans h)
    exact hcu

theorem canonical_iff (s : State) : s.canonical = true ↔ Canon s := by
  rw [State.canonical, Bool.and_eq_true]
  rfl

end Sys2Proof.Machine

namespace Sys2Proof.Proofs
open Sys2Proof.Machine

/-- Settles O3: an idle step changes nothing, and every command keeps the canonical form. -/
theorem stepKeepsCanonicalForm : Obligations.StepKeepsCanonicalForm := by
  intro s t hcan hstep
  rw [canonical_iff] at hcan ⊢
  cases hq : s.pending with
  | nil => exact Host.Outcome.next.inj ((step_of_idle hq).symm.trans hstep) ▸ hcan
  | cons c rest => exact exec_canon (s := { s with pending := rest }) c hcan ((step_of_pending hq).symm.trans hstep)

end Sys2Proof.Proofs
end

section
/-! The write back of an SQC register (R364): which event bits it clears, by SEQ and the stamps of the bits. -/

namespace Sys2Proof.Machine

theorem mem_bitsSet {w n i : Nat} : i ∈ bitsSet w n ↔ i < n ∧ w.testBit i = true := by
  rw [bitsSet, List.mem_filter, List.mem_range]

theorem bit_setBit_ne (s : State) (a : Nat) {i j : Nat} (b : Bool) (hi : i < 32) (h : i ≠ j) :
    (s.setBit a j b).bit a i = s.bit a i := bit_setFld_apart s a _ hi (Nat.le_refl j) (by omega)

/-- Clearing the listed bits clears these and no other. -/
theorem bit_clearBits (s : State) (a : Nat) (l : List Nat) {i : Nat} (hi : i < 32) :
    (l.foldl (fun s j => s.setBit a j false) s).bit a i = (s.bit a i && decide (i ∉ l)) := by
  induction l generalizing s with
  | nil => simp
  | cons j l ih =>
    rw [List.foldl_cons, ih]
    by_cases h : i = j
    · simp [h, bit_setBit_false]
    · rw [bit_setBit_ne s a false hi h]
      simp [h]

/-- The listed bits of the register bear the new stamp, the others the one they had. -/
theorem stamp_setStamps (m : List (Nat × Nat)) (evt seq : Nat) (l : List Nat) (i : Nat) :
    Map.get 0 (setStamps m evt seq l) (32 * evt + i) =
      if i ∈ l then seq else Map.get 0 m (32 * evt + i) := by
  unfold setStamps
  induction l generalizing m with
  | nil => simp
  | cons j l ih =>
    rw [List.foldl_cons, ih, map_get_put]
    by_cases hl : i ∈ l
    · simp [hl]
    · by_cases hj : i = j
      · simp [hj]
      · simp [hl, hj]

/-- A record of events moves SEQ on by one, modulo 256. -/
theorem seq_record (s : State) (evt : Nat) {m : Nat} (h : m ≠ 0) (hm : m < 2 ^ 24) :
    bits ((s.record evt m).rd evt) 31 24 = (bits (s.rd evt) 31 24 + 1) % 256 := by
  have hlow : bits (s.rd evt) 23 0 ||| m < 2 ^ 24 := Nat.or_lt_two_pow (bits_lt _ 23 0) hm
  rw [State.record, if_neg h, rd_stamps, rd_wr_self]
  generalize bits (s.rd evt) 23 0 ||| m = x at hlow ⊢
  generalize bits (s.rd evt) 31 24 = q
  rw [bits]
  omega

theorem stamps_record (s : State) (evt : Nat) {m : Nat} (h : m ≠ 0) :
    (s.record evt m).stamps = setStamps s.stamps evt ((bits (s.rd evt) 31 24 + 1) % 256) (bitsSet m 24) := by
  rw [State.record, if_neg h]
  exact congrArg (setStamps · evt _ _) (wr_stamps s evt _)

/-- An event bit of a record is stamped with its SEQ, and the stamp of every other one stays. -/
theorem stamp_record (s : State) (evt i : Nat) {m : Nat} (h : m ≠ 0) :
    Map.get 0 (s.record evt m).stamps (32 * evt + i) =
      if i ∈ bitsSet m 24 then (bits (s.rd evt) 31 24 + 1) % 256 else Map.get 0 s.stamps (32 * evt + i) := by
  rw [stamps_record s evt h, stamp_setStamps]

theorem testBit_bits_low (w : Nat) {i : Nat} (h : i < 24) : (bits w 23 0).testBit i = w.testBit i := by
  rw [bits, Nat.pow_zero, Nat.div_one, Nat.testBit_mod_two_pow, decide_eq_true h, Bool.true_and]

/-- A write back leaves a bit that it does not name, or that is stamped later than its SEQ. -/
theorem bit_writeBack (s : State) (evt v : Nat) {i : Nat} (hi : i < 24) :
    (s.writeBack evt v).bit evt i = (s.bit evt i && !(v.testBit i &&
      decide ((bits v 31 24 + 256 - Map.get 0 s.stamps (32 * evt + i)) % 256 < 128))) := by
  rw [State.writeBack, bit_clearBits s evt _ (by omega)]
  simp only [sqcClears, List.mem_filter, mem_bitsSet, testBit_bits_low v hi, hi, true_and, decide_not, Bool.decide_and,
    Bool.decide_eq_true]

/-- A bit that a later record does not name is as it was. -/
theorem bit_record_other (s : State) (evt : Nat) {m i : Nat} (hm : m < 2 ^ 24) (hi : i < 24) (h : m.testBit i = false) :
    (s.record evt m).bit evt i = s.bit evt i := by
  have hlow : bits (s.rd evt) 23 0 ||| m < 2 ^ 24 := Nat.or_lt_two_pow (bits_lt _ 23 0) hm
  by_cases h0 : m = 0
  · rw [State.record, if_pos h0]
  · rw [State.record, if_neg h0, State.bit, rd_stamps, rd_wr_self, Nat.testBit_mod_two_pow, Nat.mul_comm _ (2 ^ 24),
      Nat.testBit_two_pow_mul_add _ hlow, if_pos hi, Nat.testBit_or, h, Bool.or_false, testBit_bits_low _ hi,
      decide_eq_true (by omega : i < 32), Bool.true_and, State.bit]

end Sys2Proof.Machine

namespace Sys2Proof.Proofs
open Sys2Proof.Machine

/-- Settles O12: the bit bears the SEQ that was read, or the next one where it is recorded again, which is 255 ahead. -/
theorem writeBackKeepsNewerEvents : Obligations.WriteBackKeepsNewerEvents := by
  intro s evt m1 m2 i hm1 hm2 hne hi hbit s1 s2
  have hset : s1.bit evt i = true := bit_record_self s evt hm1 hbit
  have hseq : bits (s1.rd evt) 31 24 = (bits (s.rd evt) 31 24 + 1) % 256 := seq_record s evt hne hm1
  have hstamp : Map.get 0 s1.stamps (32 * evt + i) = bits (s1.rd evt) 31 24 := by
    rw [stamp_record s evt i hne, if_pos (mem_bitsSet.mpr ⟨hi, hbit⟩), hseq]
  have hlt := bits_lt (s1.rd evt) 31 24
  rw [bit_writeBack s2 evt _ hi, show (s1.rd evt).testBit i = true from hset, Bool.true_and]
  cases hbit2 : m2.testBit i with
  | true =>
    have h0 : m2 ≠ 0 := by
      rintro rfl
      simp at hbit2
    rw [bit_record_self s1 evt hm2 hbit2, stamp_record s1 evt i h0, if_pos (mem_bitsSet.mpr ⟨hi, hbit2⟩),
      decide_eq_false (by omega)]
    rfl
  | false =>
    have hold : Map.get 0 s2.stamps (32 * evt + i) = bits (s1.rd evt) 31 24 := by
      by_cases h0 : m2 = 0
      · rw [show s2 = s1 from if_pos h0, hstamp]
      · rw [stamp_record s1 evt i h0, if_neg (by simp [mem_bitsSet, hbit2]), hstamp]
    rw [hold, decide_eq_true (by omega), Bool.not_true, Bool.and_false]

end Sys2Proof.Proofs
end

section
/-! The effective member of a bucket (R281): the slots are searched upwards from the pinned one, wrapping from 15 to 0. -/

namespace Sys2Proof.Machine

theorem pinnedSlot_lt (s : State) (g b : Nat) : pinnedSlot s g b < 16 := by
  have h := bits_lt (s.rd (A.TBL_PIN g (b / 4))) (8 * (b % 4) + 3) (8 * (b % 4))
  rwa [show 8 * (b % 4) + 3 + 1 - 8 * (b % 4) = 4 by omega] at h

/-- The search from slot `m` answers the slot at the least distance from it that is eligible. -/
theorem firstEligible_eq_some {s : State} {g m x : Nat} : firstEligible s g m = some x ↔
    ∃ i, i < 16 ∧ x = (m + i) % 16 ∧ slotEligible s g x = true ∧ ∀ j, j < i → slotEligible s g ((m + j) % 16) = false := by
  rw [firstEligible, List.find?_map, Option.map_eq_some_iff]
  simp only [List.find?_range_eq_some, Function.comp_apply, List.mem_range, Bool.not_eq_true']
  constructor
  · rintro ⟨i, ⟨hel, hi, hmin⟩, rfl⟩
    exact ⟨i, hi, rfl, hel, hmin⟩
  · rintro ⟨i, hi, rfl, hel, hmin⟩
    exact ⟨i, ⟨hel, hi, hmin⟩, rfl⟩

/-- A slot lies at its distance after slot `m`. -/
theorem slot_at_distance {m j : Nat} (hm : m < 16) (hj : j < 16) : (m + (j + 16 - m) % 16) % 16 = j := by omega

/-- The search answers none where no slot is eligible. -/
theorem firstEligible_eq_none {s : State} {g m : Nat} (hm : m < 16) :
    firstEligible s g m = none ↔ ∀ j, j < 16 → slotEligible s g j = false := by
  rw [firstEligible, List.find?_eq_none]
  simp only [List.mem_map, List.mem_range, Bool.not_eq_true]
  constructor
  · exact fun h j hj => h j ⟨_, Nat.mod_lt _ (by decide), slot_at_distance hm hj⟩
  · rintro h _ ⟨i, _, rfl⟩
    exact h _ (Nat.mod_lt _ (by decide))

end Sys2Proof.Machine

namespace Sys2Proof.Proofs
open Sys2Proof.Machine

/-- Settles O42: the pinned slot lies at distance 0, and what the search finds is nearest after it. -/
theorem effectiveMember : Obligations.EffectiveMember := by
  intro s g b _
  have hp := pinnedSlot_lt s g b
  refine ⟨hp, fun hel => ?pinned, fun hel => ⟨fun m hm => ?nearest, firstEligible_eq_none hp⟩⟩
  case pinned =>
    exact firstEligible_eq_some.mpr ⟨0, by decide, by omega, hel, fun j hj => absurd hj (Nat.not_lt_zero j)⟩
  case nearest =>
    obtain ⟨i, hi, rfl, helm, hmin⟩ := firstEligible_eq_some.mp hm
    refine ⟨Nat.mod_lt _ (by decide), helm, fun j hj helj => Nat.le_of_not_lt fun hlt => ?_⟩
    have hskip := hmin ((j + 16 - pinnedSlot s g b) % 16) (by omega)
    rw [slot_at_distance hp hj, helj] at hskip
    cases hskip

end Sys2Proof.Proofs
end

section
/-! What a reserved window needs (R299, R300, R304). -/

namespace Sys2Proof.Machine

theorem le_foldl_max {x : Nat} (l : List Nat) (m : Nat) (h : x ∈ l ∨ x ≤ m) : x ≤ l.foldl Nat.max m := by
  induction l generalizing m with
  | nil => exact h.resolve_left List.not_mem_nil
  | cons y l ih =>
    refine ih _ ?_
    rcases h with h | h
    · rcases List.mem_cons.mp h with rfl | h
      · exact .inr (Nat.le_max_right m _)
      · exact .inl h
    · exact .inr (Nat.le_trans h (Nat.le_max_left m y))

/-- No window of the port ends after the last end. -/
theorem windowEnd_le_lastWindowEnd {s : State} {p : Nat} {x : Nat × Nat} (h : x ∈ portWindows s p) :
    x.1 + x.2 ≤ lastWindowEnd s p :=
  le_foldl_max _ 0 (.inl (List.mem_map_of_mem h))

end Sys2Proof.Machine

namespace Sys2Proof.Proofs
open Sys2Proof.Machine

/-- Settles O46: the test answers no cause only where each of its conditions fails to hold. -/
theorem reservedWindowIsFree : Obligations.ReservedWindowIsFree := by
  intro s k f w h
  simp only [reserveCause] at h
  split_ifs at h with hen hhold hfar hpast hport hlast hshare hcount hbusy
  simp only [Bool.not_eq_true', Bool.not_eq_false, Bool.and_eq_true, not_and, Bool.not_eq_true, Nat.not_lt,
    Nat.not_le] at hen hhold hfar hpast hport hlast hshare hcount hbusy
  exact ⟨hen, hhold, hpast, hfar, hport, hlast, hbusy, hcount, hshare,
    fun x hx => Nat.le_trans (windowEnd_le_lastWindowEnd hx) hlast⟩

end Sys2Proof.Proofs
end

section
/-! The windows of an Assay context (R323). -/

namespace Sys2Proof.Machine

theorem fixedWindow_before {s : State} {c t : Nat} (h : t < ctxOff s c) : fixedWindow s c t = (0, ctxOff s c) :=
  if_pos h

/-- From OFF on, the window of a record is the block of W that it lies in. -/
theorem fixedWindow_from {s : State} {c t : Nat} (hw : 0 < ctxW s c) (h : ctxOff s c ≤ t) :
    fixedWindow s c t = (ctxOff s c + (t - ctxOff s c) / ctxW s c * ctxW s c,
      ctxOff s c + (t - ctxOff s c) / ctxW s c * ctxW s c + ctxW s c) := by
  have hmax : Nat.max 1 (ctxW s c) = ctxW s c := Nat.max_eq_right hw
  simp only [fixedWindow, hmax, if_neg (Nat.not_lt.mpr h)]

/-- A record lies in its block of `w`. -/
theorem in_block {w d : Nat} (h : 0 < w) : d / w * w ≤ d ∧ d < d / w * w + w :=
  ⟨Nat.div_mul_le_self d w, Nat.lt_div_mul_add h⟩

/-- Two blocks of `w` are equal or apart. -/
theorem blocks_apart (w a b : Nat) : a = b ∨ a * w + w ≤ b * w ∨ b * w + w ≤ a * w := by
  rcases Nat.lt_trichotomy a b with h | h | h
  · exact .inr (.inl (Nat.succ_mul a w ▸ Nat.mul_le_mul_right w h))
  · exact .inl h
  · exact .inr (.inr (Nat.succ_mul b w ▸ Nat.mul_le_mul_right w h))

theorem fixedWindow_covers {s : State} {c t : Nat} (hw : 0 < ctxW s c) :
    (fixedWindow s c t).1 ≤ t ∧ t < (fixedWindow s c t).2 := by
  by_cases h : t < ctxOff s c
  · rw [fixedWindow_before h]
    exact ⟨Nat.zero_le t, h⟩
  · rw [fixedWindow_from hw (Nat.not_lt.mp h)]
    have := in_block (d := t - ctxOff s c) hw
    omega

theorem fixedWindows_apart {s : State} {c t u : Nat} (hw : 0 < ctxW s c) : fixedWindow s c t = fixedWindow s c u ∨
    (fixedWindow s c t).2 ≤ (fixedWindow s c u).1 ∨ (fixedWindow s c u).2 ≤ (fixedWindow s c t).1 := by
  by_cases ht : t < ctxOff s c <;> by_cases hu : u < ctxOff s c
  · exact .inl ((fixedWindow_before ht).trans (fixedWindow_before hu).symm)
  · rw [fixedWindow_before ht, fixedWindow_from hw (Nat.not_lt.mp hu)]
    exact .inr (.inl (Nat.le_add_right _ _))
  · rw [fixedWindow_before hu, fixedWindow_from hw (Nat.not_lt.mp ht)]
    exact .inr (.inr (Nat.le_add_right _ _))
  · rw [fixedWindow_from hw (Nat.not_lt.mp ht), fixedWindow_from hw (Nat.not_lt.mp hu)]
    rcases blocks_apart (ctxW s c) ((t - ctxOff s c) / ctxW s c) ((u - ctxOff s c) / ctxW s c) with h | h | h
    · exact .inl (by rw [h])
    · exact .inr (.inl (by omega))
    · exact .inr (.inr (by omega))

end Sys2Proof.Machine

namespace Sys2Proof.Proofs
open Sys2Proof.Machine

/-- Settles O48: a FIXED window is the stretch before OFF or a block of W after it. -/
theorem assayWindows : Obligations.AssayWindows := by
  intro s c t u hw
  refine ⟨fun hfix => ?fixed, fun hsl => ?sliding⟩
  case fixed =>
    have hat (t : Nat) : windowAt s c t = fixedWindow s c t := by simp [windowAt, hfix]
    rw [hat, hat]
    obtain ⟨hlo, hhi⟩ := fixedWindow_covers (t := t) hw
    refine ⟨by simp [windowCovers, hfix, hlo, hhi], fun hoff => ?_, fixedWindows_apart hw⟩
    rw [fixedWindow_from hw hoff]
    exact ⟨rfl, by simp⟩
  case sliding =>
    have hat : windowAt s c t = (t - ctxW s c, t) := by simp [windowAt, hsl]
    exact ⟨hat, by simp [hat, windowCovers, hsl]⟩

end Sys2Proof.Proofs
end

section
/-! The outcome of a trigger (R370, R371, R372). What latching a section changes outside SNP is what the raise of an
interrupt source changes, and so its status stays but for the phase that the trigger itself sets. -/

namespace Sys2Proof.Machine

/-! The raise of a source, by itself, writes no register of SNP. -/

/-- The registers that the raise of a source writes: Tt_NEXT and PEND, the counters, and the Pending Bit Array. -/
def sourceWrites (a : Nat) : Bool :=
  decide (0x20100 ≤ a ∧ a < 0x20500) || decide (0x31000 ≤ a ∧ a < 0x32000) || decide (a = A.HOST_PBA)

theorem sourceWrites_iff (a : Nat) : sourceWrites a = true ↔
    (0x20100 ≤ a ∧ a < 0x20500) ∨ (0x31000 ≤ a ∧ a < 0x32000) ∨ a = A.HOST_PBA := by
  simp only [sourceWrites, Bool.or_eq_true, decide_eq_true_eq, or_assoc]

theorem sourceWrites_next {t : Nat} (h : t < 64) : sourceWrites (A.INT_T_NEXT t) = true := by
  rw [sourceWrites_iff, A.INT_T_NEXT]; omega

theorem sourceWrites_pend {i : Nat} (h : i < 1024) : sourceWrites (A.INT_PEND (i / 32)) = true := by
  rw [sourceWrites_iff, A.INT_PEND]; omega

theorem sourceWrites_pmcEvent (s : State) (ev n : Nat) : RegsKept s (s.pmcEvent 22 ev n) sourceWrites := by
  obtain ⟨m, w, -, hr⟩ := pmcEvent_shape s 22 ev n
  refine fun a ha => hr a ?_
  simp only [sourceWrites, Bool.or_eq_false_iff, decide_eq_false_iff_not] at ha
  simp only [A.PMC_CTR_LO, A.PMC_CYC_LO]
  omega

theorem sourceWrites_routeMsix (s : State) (n : Nat) : RegsKept s (routeMsix s n) sourceWrites := by
  unfold routeMsix
  split
  · exact RegsKept.refl s _
  · exact (regsKept_emit s _ _).trans (sourceWrites_pmcEvent _ _ _)
  · exact fun _ _ => rfl
  · exact fun _ _ => rfl
  · simp only []
    split <;> exact fun _ _ => rfl

theorem sourceWrites_notify (s : State) {t : Nat} (i : Nat) (h : t < 64) : RegsKept s (notify s t i) sourceWrites := by
  have h0 : RegsKept s ((setCount (latchNext s t i) t 0).stop (.coalesce t)) sourceWrites :=
    (regsKept_wr s _ (sourceWrites_next h)).trans (regsKept_of_regs _ rfl)
  unfold notify
  simp only []
  split
  · split
    · exact h0.trans (regsKept_setBit _ _ _ (by decide))
    · exact h0.trans (sourceWrites_routeMsix _ _)
  · exact h0

theorem sourceWrites_countRaise (s : State) {t : Nat} (i : Nat) (h : t < 64) :
    RegsKept s (countRaise s t i) sourceWrites := by
  unfold countRaise
  simp only []
  split
  · exact sourceWrites_notify s i h
  · split <;> exact regsKept_of_regs _ rfl

theorem sourceWrites_offer (s : State) {t : Nat} (i : Nat) (h : t < 64) : RegsKept s (offer s t i) sourceWrites := by
  unfold offer
  split
  · split
    · exact sourceWrites_countRaise s i h
    · split
      · exact sourceWrites_notify s i h
      · exact RegsKept.refl s _
  · exact RegsKept.refl s _

theorem sourceWrites_raiseSource (s : State) {i : Nat} (h : i < 1024) : RegsKept s (raiseSource s i) sourceWrites := by
  unfold raiseSource
  split
  · exact (regsKept_setBit s _ _ (sourceWrites_pend h)).trans (sourceWrites_offer _ i (srcTarget_lt s i))
  · exact RegsKept.refl s _

/-! The status of SNP while sections are latched. -/

theorem rd_stat_snpEvent (s : State) (mask : Nat) : (snpEvent s mask).rd A.SNP_STAT = s.rd A.SNP_STAT := by
  have h0 : (s.record A.SNP_EVT mask).rd A.SNP_STAT = s.rd A.SNP_STAT := rd_record_ne s mask (by decide)
  unfold snpEvent State.eventQuiet
  simp only []
  split
  · exact h0
  · exact (sourceWrites_raiseSource _ (by decide) _ (by decide)).trans h0

theorem rd_stat_latchSection (s : State) (x : SnpSect) : (latchSection s x).2.rd A.SNP_STAT = s.rd A.SNP_STAT := by
  have h (t : State) (c : Prop) [Decidable c] (ht : t.rd A.SNP_STAT = s.rd A.SNP_STAT) :
      (if c then t else snpEvent t 4).rd A.SNP_STAT = s.rd A.SNP_STAT := by
    split
    · exact ht
    · exact (rd_stat_snpEvent t 4).trans ht
  unfold latchSection
  cases zoneOf x.addr with
  | some _ => exact h _ _ rfl
  | none => exact h _ _ rfl

theorem rd_stat_latchAll (till : Nat) (l : List SnpSect) (s : State) :
    (latchAll s till l).2.rd A.SNP_STAT = s.rd A.SNP_STAT := by
  induction l generalizing s with
  | nil => rfl
  | cons x l ih =>
    simp only [latchAll]
    split
    · exact (ih _).trans (rd_stat_latchSection s x)
    · exact ih s

/-- An ingot that is being latched is latched further, or copied. -/
theorem snpPhase_latchUpTo {s : State} (till : Nat) (h : snpPhase s = 1) :
    snpPhase (latchUpTo s till) = 1 ∨ snpPhase (latchUpTo s till) = 2 := by
  have hall : snpPhase { (latchAll s till s.snp.sects).2 with
      snp := { (latchAll s till s.snp.sects).2.snp with sects := (latchAll s till s.snp.sects).1 } } = 1 := by
    rw [← h, snpPhase, snpPhase, State.fld, State.fld]
    exact congrArg (bits · 31 28) (rd_stat_latchAll till _ s)
  have hset (u : State) : snpPhase (u.setFld A.SNP_STAT 31 28 2) = 2 :=
    fld_setFld_self u _ (by decide) (by decide) (by decide)
  unfold latchUpTo
  rw [if_neg (not_not.mpr h)]
  simp only []
  generalize ({ (latchAll s till s.snp.sects).2 with snp := _ } : State) = u at hall ⊢
  split
  · split
    · exact .inr (hset u)
    · exact .inr (hset u)
  · exact .inl hall

theorem snpPhase_latchIngot (s : State) (k src tag t : Nat) :
    snpPhase (latchIngot s k src tag t) = 1 ∨ snpPhase (latchIngot s k src tag t) = 2 :=
  snpPhase_latchUpTo _ (fld_setFld_self _ _ (by decide) (by decide) (by decide))

/-! The branches of a trigger. -/

section
variable {s : State} {src tag t : Nat}

theorem trigger_disabled (h : s.bit A.SNP_CFG 31 = false) : trigger s src tag t = (missTrigger s src 3, false) := by
  rw [trigger, if_pos (by simp [h])]

theorem trigger_sameClock (h : s.bit A.SNP_CFG 31 = true) (hc : sameClock s = true) :
    trigger s src tag t = (joinIngot s src tag t, true) := by
  rw [trigger, if_neg (by simp [h]), if_pos hc]

theorem trigger_busy (h : s.bit A.SNP_CFG 31 = true) (hc : sameClock s = false) (hp : snpPhase s ≠ 0) :
    trigger s src tag t = (missTrigger s src 1, false) := by
  rw [trigger, if_neg (by simp [h]), if_neg (by simp [hc]), if_pos hp]

theorem trigger_full (h : s.bit A.SNP_CFG 31 = true) (hc : sameClock s = false) (hp : snpPhase s = 0)
    (hk : nextSlot s = none) : trigger s src tag t = (missTrigger s src 2, false) := by
  rw [trigger, if_neg (by simp [h]), if_neg (by simp [hc]), if_neg (not_not.mpr hp), hk]

/-- An idle, enabled block with a free slot latches an ingot where the die is in RUN and the slot's bank is ON. -/
theorem trigger_free {k : Nat} (h : s.bit A.SNP_CFG 31 = true) (hc : sameClock s = false) (hp : snpPhase s = 0)
    (hk : nextSlot s = some k) : trigger s src tag t =
      if inRun s = false then (missTrigger s src 4, false)
      else if bankOn s (8 + k / 32) = false then (missTrigger s src 5, false) else (latchIngot s k src tag t, true) := by
  rw [trigger, if_neg (by simp [h]), if_neg (by simp [hc]), if_neg (not_not.mpr hp), hk]
  simp only [Bool.not_eq_true']

end

/-- A clock in which the present ingot began is one with an ingot. -/
theorem snpPhase_of_sameClock {s : State} (h : sameClock s = true) : snpPhase s ≠ 0 := by
  simp only [sameClock, Bool.and_eq_true, decide_eq_true_eq] at h
  exact h.1

/-- The five outcomes of a trigger: with the block disabled, in the clock of the present ingot, during an ingot, without a
free slot, and with one. -/
theorem trigger_cases {P : State × Bool → Prop} (s : State) (src tag t : Nat)
    (disabled : s.bit A.SNP_CFG 31 = false → P (missTrigger s src 3, false))
    (joined : s.bit A.SNP_CFG 31 = true → sameClock s = true → P (joinIngot s src tag t, true))
    (busy : sameClock s = false → snpPhase s ≠ 0 → P (missTrigger s src 1, false))
    (full : sameClock s = false → nextSlot s = none → P (missTrigger s src 2, false))
    (free : ∀ k, s.bit A.SNP_CFG 31 = true → sameClock s = false → snpPhase s = 0 → nextSlot s = some k →
      P (if inRun s = false then (missTrigger s src 4, false)
        else if bankOn s (8 + k / 32) = false then (missTrigger s src 5, false) else (latchIngot s k src tag t, true))) :
    P (trigger s src tag t) := by
  cases hen : s.bit A.SNP_CFG 31 with
  | false => exact trigger_disabled hen ▸ disabled hen
  | true =>
    cases hc : sameClock s with
    | true => exact trigger_sameClock hen hc ▸ joined hen hc
    | false =>
      by_cases hp : snpPhase s = 0
      · cases hk : nextSlot s with
        | none => exact trigger_full hen hc hp hk ▸ full hc hk
        | some k => exact trigger_free hen hc hp hk ▸ free k hen hc hp hk
      · exact trigger_busy hen hc hp ▸ busy hc hp

end Sys2Proof.Machine

namespace Sys2Proof.Proofs
open Sys2Proof.Machine

/-- Settles O53: by the outcomes of a trigger. -/
theorem triggerOutcome : Obligations.TriggerOutcome := by
  intro s src tag t
  refine ⟨?accepted, ?phase, ?joined, ?missed⟩
  case accepted =>
    refine trigger_cases (P := fun p => p.2 = true ↔ _) s src tag t ?_ ?_ ?_ ?_ ?_
    · exact fun hen => by simp [hen]
    · exact fun hen hc => by simp [hen, hc]
    · exact fun hc hp => by simp [hc, hp]
    · exact fun hc hk => by simp [hc, hk]
    · intro k hen hc hp hk
      cases hr : inRun s <;> cases hb : bankOn s (8 + k / 32) <;> simp [hen, hc, hp, hk, hb]
  case phase =>
    refine trigger_cases (P := fun p => p.2 = true → sameClock s = false → snpPhase p.1 = 1 ∨ snpPhase p.1 = 2)
      s src tag t ?_ ?_ ?_ ?_ ?_
    · exact fun _ h => nomatch h
    · exact fun _ hc _ hn => absurd hc (by simp [hn])
    · exact fun _ _ h => nomatch h
    · exact fun _ _ h => nomatch h
    · intro k _ _ _ _
      have hl := snpPhase_latchIngot s k src tag t
      generalize latchIngot s k src tag t = u at hl ⊢
      cases inRun s <;> cases bankOn s (8 + k / 32) <;> simp [hl]
  case joined =>
    intro hen hc
    rw [trigger_sameClock hen hc]
    exact ⟨snpPhase_of_sameClock hc, rfl, rfl⟩
  case missed =>
    refine trigger_cases (P := fun p => p.2 = false → ∃ c, 1 ≤ c ∧ c ≤ 5 ∧ p.1 = missTrigger s src c)
      s src tag t ?_ ?_ ?_ ?_ ?_
    · exact fun _ _ => ⟨3, by decide, by decide, rfl⟩
    · exact fun _ _ h => nomatch h
    · exact fun _ _ _ => ⟨1, by decide, by decide, rfl⟩
    · exact fun _ _ _ => ⟨2, by decide, by decide, rfl⟩
    · intro k _ _ _ _ hno
      generalize latchIngot s k src tag t = u at hno ⊢
      by_cases hr : inRun s = false
      · exact ⟨4, by decide, by decide, by rw [if_pos hr]⟩
      · by_cases hb : bankOn s (8 + k / 32) = false
        · exact ⟨5, by decide, by decide, by rw [if_neg hr, if_pos hb]⟩
        · rw [if_neg hr, if_neg hb] at hno
          cases hno

end Sys2Proof.Proofs
end

section
/-! Running priority and deliverability (R379). -/

namespace Sys2Proof.Machine

/-- The highest value of a list is 0 or one of its values. -/
theorem foldl_max_mem (l : List Nat) (m : Nat) : l.foldl Nat.max m = m ∨ l.foldl Nat.max m ∈ l := by
  induction l generalizing m with
  | nil => exact .inl rfl
  | cons y l ih =>
    rcases ih (Nat.max m y) with h | h
    · rcases Nat.le_total m y with hle | hle
      · exact .inr (by rw [List.foldl_cons, h]; exact List.mem_cons.mpr (.inl (Nat.max_eq_right hle)))
      · exact .inl (h.trans (Nat.max_eq_left hle))
    · exact .inr (List.mem_cons_of_mem y h)

theorem mem_sourcesIn {s : State} {bank : Nat → Nat} {i : Nat} :
    i ∈ sourcesIn s bank ↔ i < 1024 ∧ s.bit (bank (i / 32)) (i % 32) = true := by
  have hword (w : Nat) : (i ∈ if s.rd (bank w) = 0 then [] else (bitsSet (s.rd (bank w)) 32).map fun j => 32 * w + j) ↔
      w = i / 32 ∧ s.bit (bank w) (i % 32) = true := by
    by_cases h0 : s.rd (bank w) = 0
    · simp [h0, State.bit]
    · rw [if_neg h0, List.mem_map]
      constructor
      · rintro ⟨j, hj, rfl⟩
        obtain ⟨hj, hb⟩ := mem_bitsSet.mp hj
        exact ⟨by omega, by rw [show (32 * w + j) % 32 = j by omega]; exact hb⟩
      · rintro ⟨rfl, hb⟩
        exact ⟨i % 32, mem_bitsSet.mpr ⟨Nat.mod_lt _ (by decide), hb⟩, Nat.div_add_mod i 32⟩
  simp only [sourcesIn, List.mem_flatMap, List.mem_range, hword]
  constructor
  · rintro ⟨w, hw, rfl, hb⟩
    exact ⟨by omega, hb⟩
  · rintro ⟨hi, hb⟩
    exact ⟨i / 32, by omega, rfl, hb⟩

/-- The running priority is the highest of the priorities of the target's active sources. -/
theorem runningPrio_eq (s : State) (t : Nat) : runningPrio s t =
    ((((sourcesIn s A.INT_ACT).filter fun i => decide (srcTarget s i = t)).map (srcPrio s)).foldl Nat.max 0) := by
  rw [List.foldl_map, runningPrio]

theorem mem_activePrios {s : State} {t p : Nat} :
    p ∈ ((sourcesIn s A.INT_ACT).filter fun i => decide (srcTarget s i = t)).map (srcPrio s) ↔
      ∃ j, j < 1024 ∧ srcAct s j = true ∧ srcTarget s j = t ∧ srcPrio s j = p := by
  simp only [List.mem_map, List.mem_filter, mem_sourcesIn, decide_eq_true_eq, srcAct, and_assoc]

theorem deliverable_iff {s : State} {t i : Nat} : deliverable s t i = true ↔ srcPend s i = true ∧ srcAct s i = false ∧
    srcEn s i = true ∧ srcTarget s i = t ∧ s.fld (A.INT_T_CFG t) 3 0 < srcPrio s i ∧ runningPrio s t < srcPrio s i := by
  simp only [deliverable, Bool.and_eq_true, Bool.not_eq_true', decide_eq_true_eq, and_assoc]

/-- A source of priority 0 is above no threshold. -/
theorem deliverable_of_prio_zero {s : State} {t i : Nat} (h : srcPrio s i = 0) : deliverable s t i = false := by
  rw [Bool.eq_false_iff, ne_eq, deliverable_iff, h]
  omega

theorem srcPrio_setPend (s : State) {i : Nat} (b : Bool) (h : i < 1024) : srcPrio (setPend s i b) i = srcPrio s i := by
  have hne : A.INT_SRC i ≠ A.INT_PEND (i / 32) := by simp only [A.INT_SRC, A.INT_PEND]; omega
  rw [srcPrio, srcPrio, State.fld, State.fld, setPend, rd_setBit_ne _ _ _ hne]

/-- The raise of a source of priority 0 sets its bit of PENDw and offers nothing. -/
theorem raiseSource_of_prio_zero {s : State} {i : Nat} (hi : i < 1024) (h : srcPrio s i = 0) (hl : srcLive s i = true) :
    raiseSource s i = setPend s i true := by
  rw [raiseSource, if_pos hl, offer, deliverable_of_prio_zero ((srcPrio_setPend s true hi).trans h)]
  exact if_neg Bool.false_ne_true

end Sys2Proof.Machine

namespace Sys2Proof.Proofs
open Sys2Proof.Machine

/-- Settles O54: RPRI is a maximum over the active sources, and a priority of 0 is above nothing. -/
theorem runningPriority : Obligations.RunningPriority := by
  intro s t
  refine ⟨fun j hj hact ht => ?_, ?_, fun i => deliverable_iff,
    fun i hi h hl => ⟨deliverable_of_prio_zero h, raiseSource_of_prio_zero hi h hl⟩⟩
  · rw [runningPrio_eq]
    exact le_foldl_max _ 0 (.inl (mem_activePrios.mpr ⟨j, hj, hact, ht, rfl⟩))
  · rw [runningPrio_eq]
    exact (foldl_max_mem _ 0).imp id mem_activePrios.mp

end Sys2Proof.Proofs
end

section
/-! The Riser, where a context holds nothing (R285, R286). A copy that leaves the buffers on its way on changes pauses,
releases and counts, and none of what the Riser holds. -/

namespace Sys2Proof.Machine

/-- The registers of the Riser's contexts, the copies in the buffers, the Riser's placeholders and the verdicts on
ALL_OR_NONE frames are the same. -/
def RiserKept (s t : State) : Prop :=
  (∀ a, 0x3d0000 ≤ a → a < 0x3e0000 → t.rd a = s.rd a) ∧ t.buf.pkts = s.buf.pkts ∧ t.buf.holders = s.buf.holders ∧
    t.buf.aons = s.buf.aons

theorem RiserKept.refl (s : State) : RiserKept s s := ⟨fun _ _ _ => rfl, rfl, rfl, rfl⟩

theorem RiserKept.trans {s t u : State} (h : RiserKept s t) (g : RiserKept t u) : RiserKept s u :=
  ⟨fun a hl hu => (g.1 a hl hu).trans (h.1 a hl hu), g.2.1.trans h.2.1, g.2.2.1.trans h.2.2.1,
    g.2.2.2.trans h.2.2.2⟩

/-! Registers, counters and events. -/

theorem riserKept_wr (s : State) {a : Nat} (v : Nat) (h : a < 0x3d0000 ∨ 0x3e0000 ≤ a) : RiserKept s (s.wr a v) :=
  ⟨fun b hl hu => rd_wr_ne s v (by omega), rfl, rfl, rfl⟩

theorem riserKept_add64 (s : State) {a : Nat} (n : Nat) (h : a + 4 < 0x3d0000 ∨ 0x3e0000 ≤ a) : RiserKept s (s.add64 a n) :=
  (riserKept_wr s _ (by omega)).trans (riserKept_wr _ _ (by omega))

theorem riserKept_pmcEvent (s : State) {g : Nat} (ev n : Nat) (h : g < 24) : RiserKept s (s.pmcEvent g ev n) := by
  obtain ⟨m, w, he, hr⟩ := pmcEvent_shape s g ev n
  refine ⟨fun a hl hu => hr a ?_, by rw [he], by rw [he], by rw [he]⟩
  simp only [A.PMC_CTR_LO, A.PMC_CYC_LO]
  omega

/-- An event of a block outside the Riser's contexts. -/
theorem riserKept_event (s : State) {evt src : Nat} (en mask forced : Nat) (h : evt < 0x3d0000 ∨ 0x3e0000 ≤ evt)
    (hs : src < 1024) : RiserKept s (s.event evt en src mask forced) := by
  have hraise (a : Nat) (hl : 0x3d0000 ≤ a) (hu : a < 0x3e0000) : raiseTouches a = false := by
    rw [Bool.eq_false_iff]
    simp only [raiseTouches, Bool.or_eq_true, Bool.and_eq_true, decide_eq_true_eq, ne_eq]
    unfold A.HOST_PBA
    omega
  exact ⟨fun a hl hu => rd_event s en src mask forced hs (hraise a hl hu) (by omega),
    event_keeps (f := fun s => s.buf.pkts) (fun _ _ _ => rfl) (fun _ _ => rfl) s evt en mask forced hs,
    event_keeps (f := fun s => s.buf.holders) (fun _ _ _ => rfl) (fun _ _ => rfl) s evt en mask forced hs,
    event_keeps (f := fun s => s.buf.aons) (fun _ _ _ => rfl) (fun _ _ => rfl) s evt en mask forced hs⟩

theorem riserKept_slag (s : State) {cause : Nat} (h : cause < 24) : RiserKept s (slag s cause) :=
  (riserKept_add64 s 1 (by simp only [A.QM_SLAG_LO]; omega)).trans (riserKept_pmcEvent _ _ _ (by decide))

theorem riserKept_qmEvent (s : State) (mask : Nat) : RiserKept s (qmEvent s mask) :=
  riserKept_event s _ _ _ (by decide) (by decide)

theorem riserKept_foldl {β : Type} {g : State → β → State} (h : ∀ s b, RiserKept s (g s b)) (l : List β) (s : State) :
    RiserKept s (l.foldl g s) := by
  induction l generalizing s with
  | nil => exact RiserKept.refl s
  | cons b l ih => exact (h s b).trans (ih _)

theorem riserKept_ite {c : Prop} [Decidable c] {s t u : State} (ht : RiserKept s t) (hu : RiserKept s u) :
    RiserKept s (if c then t else u) := by
  split
  · exact ht
  · exact hu

/-! The records of the ports and of the ingress groups, pauses and releases (R111, R260 to R262). -/

theorem riserKept_putEg (s : State) (p : Nat) (h : EgressHidden) : RiserKept s (putEg s p h) := RiserKept.refl s
theorem riserKept_putPg (s : State) (g : Nat) (h : PgHidden) : RiserKept s (putPg s g h) := RiserKept.refl s
theorem riserKept_putTrunk (s : State) (p : Nat) (h : TrunkHidden) : RiserKept s (putTrunk s p h) := RiserKept.refl s

theorem riserKept_emit (s : State) (o : Out) : RiserKept s (s.emit o) := RiserKept.refl s
theorem riserKept_start (s : State) (t : Timer) (ns : Nat) : RiserKept s (s.start t ns) := RiserKept.refl s

theorem riserKept_emitPfc (s : State) (p c quanta : Nat) : RiserKept s (emitPfc s p c quanta) := by
  unfold emitPfc
  extract_lets t
  have h : RiserKept s t := (riserKept_emit s _).trans (riserKept_add64 _ 1 (by decide))
  clear_value t
  exact riserKept_ite h (h.trans (riserKept_start t _ _))

theorem riserKept_servePfc (s : State) (p : Nat) : RiserKept s (servePfc s p) := by
  unfold servePfc
  split
  · exact RiserKept.refl s
  · exact riserKept_ite (RiserKept.refl s) ((riserKept_putEg s p _).trans (riserKept_emitPfc _ _ _ _))

theorem riserKept_sendPfc (s : State) (p c quanta : Nat) : RiserKept s (sendPfc s p c quanta) :=
  (riserKept_putEg s p _).trans (riserKept_servePfc _ p)

theorem riserKept_resumeClass (s : State) (p c : Nat) : RiserKept s (resumeClass s p c) :=
  riserKept_ite (RiserKept.refl s) (riserKept_ite (riserKept_ite (riserKept_putTrunk s p _) (riserKept_putTrunk s p _))
    (riserKept_ite (riserKept_sendPfc s p c 0) (RiserKept.refl s)))

theorem riserKept_pauseGroup (s : State) (g : Nat) : RiserKept s (pauseGroup s g) :=
  riserKept_ite (RiserKept.refl s) (riserKept_ite (riserKept_putPg s g _)
    ((riserKept_putPg s g _).trans (riserKept_sendPfc _ _ _ _)))

theorem riserKept_refreshPg (s : State) (g : Nat) : RiserKept s (refreshPg s g) :=
  riserKept_ite (RiserKept.refl s) (riserKept_ite (RiserKept.refl s) (riserKept_ite (riserKept_pauseGroup s g)
    ((riserKept_putPg s g _).trans (riserKept_resumeClass _ _ _))))

theorem riserKept_refreshGlobal (s : State) : RiserKept s (refreshGlobal s) := by
  have hbuf (s : State) (x : Bool) : RiserKept s { s with buf := { s.buf with globalXoff := x } } := RiserKept.refl s
  unfold refreshGlobal
  extract_lets free xoff low _ s1 _ s2 s3
  have h1 : RiserKept s s1 := riserKept_ite (riserKept_qmEvent _ 4) ⟨fun _ _ _ => rfl, rfl, rfl, rfl⟩
  have h3 : RiserKept s s3 := (h1.trans (hbuf s1 xoff)).trans (riserKept_ite (riserKept_qmEvent s2 1) (RiserKept.refl s2))
  clear_value s1 s3
  exact riserKept_ite h1 (h3.trans (riserKept_foldl riserKept_refreshPg _ _))

theorem riserKept_releaseReady (s : State) (p : Nat) : RiserKept s (releaseReady s p) :=
  riserKept_ite (RiserKept.refl s) ((riserKept_putTrunk s p _).trans (riserKept_foldl (fun s _ =>
    riserKept_ite (riserKept_putTrunk s p _) (riserKept_putTrunk s p _)) _ _))

theorem riserKept_refreshPressure (s : State) (g : Nat) : RiserKept s (refreshPressure s g) :=
  ((riserKept_refreshGlobal s).trans (riserKept_refreshPg _ g)).trans (riserKept_releaseReady _ _)

theorem riserKept_pgLeave (s : State) (g k : Nat) : RiserKept s (pgLeave s g k) :=
  riserKept_ite (RiserKept.refl s) (riserKept_putPg s g _)

/-! A copy leaves the buffers (R250). -/

theorem riserKept_freeFrame (s : State) (fid : Nat) : RiserKept s (freeFrame s fid) := by
  unfold freeFrame
  split
  · exact RiserKept.refl s
  next f _ =>
    refine riserKept_ite (RiserKept.refl s) ?_
    extract_lets _ s0 s1
    have h0 : RiserKept s s0 := ⟨fun _ _ _ => rfl, rfl, rfl, rfl⟩
    have h1 : RiserKept s s1 := h0.trans (riserKept_ite (riserKept_pmcEvent _ _ _ (by decide)) (RiserKept.refl _))
    clear_value s1
    exact riserKept_ite (h1.trans ((riserKept_pmcEvent s1 _ _ (by decide)).trans ((riserKept_pgLeave _ _ _).trans
      (riserKept_refreshPressure _ _)))) (h1.trans ((riserKept_refreshGlobal s1).trans (riserKept_releaseReady _ _)))

theorem riserKept_refreshTier (s : State) (e q : Nat) : RiserKept s (refreshTier s e q) :=
  riserKept_ite (RiserKept.refl s) ⟨fun _ _ _ => rfl, rfl, rfl, rfl⟩

theorem riserKept_removePkt (s : State) (k : Pkt) : RiserKept (dropPkt s k.id) (removePkt s k) := by
  unfold removePkt
  extract_lets s1 s2
  have h2 : RiserKept s1 s2 := by
    show RiserKept s1 (match k.deep, frameOf s k.fid with
      | some d, some f =>
        let s1 := s1.pmcEvent 20 0x201 (d.staged + d.back)
        if d.pg then refreshPressure (pgLeave s1 (pgOf f) (d.staged + d.back)) (pgOf f) else s1
      | _, _ => s1)
    split
    next d f _ _ =>
      have hp := riserKept_pmcEvent s1 (g := 20) 0x201 (d.staged + d.back) (by decide)
      exact riserKept_ite (hp.trans ((riserKept_pgLeave _ _ _).trans (riserKept_refreshPressure _ _))) hp
    · exact RiserKept.refl s1
  exact h2.trans ((riserKept_refreshTier s2 _ _).trans (riserKept_freeFrame _ _))

/-! What a context holds, and its number and state. -/

theorem heldNumbers_congr {s t : State} (hp : t.buf.pkts = s.buf.pkts) (hh : t.buf.holders = s.buf.holders) (c : Nat) :
    heldNumbers t c = heldNumbers s c := by
  simp only [heldNumbers, riserPkts, riserMarks, hp, hh]

theorem RiserKept.heldNumbers {s t : State} (h : RiserKept s t) (c : Nat) : heldNumbers t c = heldNumbers s c :=
  heldNumbers_congr h.2.1 h.2.2.1 c

theorem RiserKept.rd_stat {s t : State} (h : RiserKept s t) {c : Nat} (hc : c < 4096) :
    t.rd (A.RSQ_CTX_STAT c) = s.rd (A.RSQ_CTX_STAT c) := h.1 _ (by simp only [A.RSQ_CTX_STAT]; omega)
    (by simp only [A.RSQ_CTX_STAT]; omega)

theorem heldNumbers_of_buf {s t : State} (h : t.buf = s.buf) (c : Nat) : heldNumbers t c = heldNumbers s c :=
  heldNumbers_congr (by rw [h]) (by rw [h]) c

theorem heldNumbers_setExpect (s : State) (c n d : Nat) : heldNumbers (setExpect s c n) d = heldNumbers s d :=
  heldNumbers_of_buf (setFld_buf ..) d

theorem heldNumbers_setRiserState (s : State) (c st d : Nat) : heldNumbers (setRiserState s c st) d = heldNumbers s d :=
  heldNumbers_of_buf (setFld_buf ..) d

/-- A field takes a value modulo its size. -/
theorem setFld_mod (s : State) (a hi lo v : Nat) : s.setFld a hi lo (v % 2 ^ (hi + 1 - lo)) = s.setFld a hi lo v := by
  rw [State.setFld, State.setFld, putBits, putBits, Nat.mod_mod]

theorem riserExpect_setExpect (s : State) (c n : Nat) : riserExpect (setExpect s c n) c = n % 65536 := by
  rw [setExpect, ← setFld_mod]
  exact fld_setFld_self s _ (by decide) (by decide) (Nat.mod_lt _ (by decide))

theorem riserState_setExpect (s : State) (c n : Nat) : riserState (setExpect s c n) c = riserState s c :=
  fld_setFld_apart s _ _ (by decide) (by decide) (by decide) (by decide)

theorem riserExpect_setRiserState (s : State) (c st : Nat) : riserExpect (setRiserState s c st) c = riserExpect s c :=
  fld_setFld_apart s _ _ (by decide) (by decide) (by decide) (by decide)

theorem riserState_setRiserState (s : State) (c : Nat) {st : Nat} (h : st < 4) :
    riserState (setRiserState s c st) c = st := fld_setFld_self s _ (by decide) (by decide) h

/-- A context holds nothing where no copy waits in it and no placeholder stands in it. -/
theorem heldNumbers_eq_nil {s : State} {c : Nat} : heldNumbers s c = [] ↔
    (∀ k ∈ s.buf.pkts, ∀ n t, k.loc ≠ .riser c n t) ∧ riserMarks s c = [] := by
  have hloc (k : Pkt) : (match k.loc with
      | .riser d n _ => if d = c then some (k, n) else none | _ => none) = none ↔ ∀ n t, k.loc ≠ .riser c n t := by
    cases k.loc with
    | riser d n t => by_cases h : d = c <;> simp [h]
    | _ => simp
  rw [heldNumbers, List.append_eq_nil_iff, List.map_eq_nil_iff, riserPkts, List.filterMap_eq_nil_iff]
  exact and_congr (forall₂_congr fun k _ => hloc k) Iff.rfl

/-- A copy that is moved to a place outside the Riser adds no held number. -/
theorem heldNumbers_movePkt {s : State} {k : Pkt} {c : Nat} (h : heldNumbers s c = []) (hk : ∀ n t, k.loc ≠ .riser c n t) :
    heldNumbers (movePkt s k) c = [] := by
  rw [heldNumbers_eq_nil] at h ⊢
  refine ⟨fun j hj => ?_, h.2⟩
  rcases List.mem_append.mp hj with hj | hj
  · exact h.1 j (List.mem_of_mem_filter hj)
  · obtain rfl := List.mem_singleton.mp hj
    exact hk

theorem heldNumbers_removePkt {s : State} {k : Pkt} {c : Nat} (h : heldNumbers s c = []) :
    heldNumbers (removePkt s k) c = [] := by
  rw [(riserKept_removePkt s k).heldNumbers]
  rw [heldNumbers_eq_nil] at h ⊢
  exact ⟨fun j hj => h.1 j (List.mem_of_mem_filter hj), h.2⟩

/-- The context holds nothing in `t`, and its status is that of `s`. -/
def StandsEmpty (c : Nat) (s t : State) : Prop :=
  heldNumbers t c = [] ∧ t.rd (A.RSQ_CTX_STAT c) = s.rd (A.RSQ_CTX_STAT c)

section
variable {s u : State} {k : Pkt} {c : Nat} (hc : c < 4096) (h : heldNumbers s c = []) (hu : RiserKept s u)
include hc h hu

theorem standsEmpty_movePkt (hk : ∀ n t, k.loc ≠ .riser c n t) : StandsEmpty c s (movePkt u k) :=
  ⟨heldNumbers_movePkt ((hu.heldNumbers c).trans h) hk, hu.rd_stat hc⟩

theorem standsEmpty_removePkt : StandsEmpty c s (removePkt u k) :=
  ⟨heldNumbers_removePkt ((hu.heldNumbers c).trans h), ((riserKept_removePkt u k).rd_stat hc).trans (hu.rd_stat hc)⟩

end

theorem standsEmpty_toLadle {s : State} {k : Pkt} {c i : Nat} (hc : c < 4096) (h : heldNumbers s c = []) :
    StandsEmpty c s (toLadle s k i) := by
  by_cases hfull : 4096 ≤ (ladleFifo s).length
  · rw [toLadle, if_pos hfull]
    exact standsEmpty_removePkt hc h (((riserKept_add64 s 1 (by decide)).trans (riserKept_slag _ (by decide))).trans
      (riserKept_event _ _ _ _ (by decide) (by decide)))
  · rw [toLadle, if_neg hfull]
    exact standsEmpty_movePkt hc h (riserKept_add64 s 1 (by decide)) fun _ _ e => nomatch e

/-- A copy that goes on leaves the Riser as it was. -/
theorem standsEmpty_proceed {s : State} {k : Pkt} {c : Nat} (hc : c < 4096) (h : heldNumbers s c = []) :
    StandsEmpty c s (proceed s k) := by
  unfold proceed
  split
  · exact standsEmpty_toLadle hc h
  · exact standsEmpty_movePkt hc h (RiserKept.refl s) fun _ _ e => nomatch e

/-! A number in turn. -/

theorem releaseAll_of_nil {s : State} {c : Nat} (h : heldNumbers s c = []) : releaseAll s c = s := by
  rw [releaseAll, h]
  rfl

theorem drainAll_of_nil {s : State} {c : Nat} (h : heldNumbers s c = []) : drainAll s c = s := by
  rw [drainAll, h]
  exact if_neg (by rw [h]; exact List.not_mem_nil)

/-- The next number passes with its copy, and EXPECT moves on. -/
theorem riserPass_of_nil {s : State} {c n : Nat} {o : Option Pkt} (hc : c < 4096) (h : heldNumbers s c = []) :
    let v := match o with | some k => proceed s k | none => s
    riserPass s c n o = setExpect v c (n + 1) ∧ StandsEmpty c s v := by
  cases o with
  | none => exact ⟨drainAll_of_nil ((heldNumbers_setExpect _ _ _ _).trans h), h, rfl⟩
  | some k =>
    have hp := standsEmpty_proceed (k := k) hc h
    exact ⟨drainAll_of_nil ((heldNumbers_setExpect _ _ _ _).trans hp.1), hp⟩

theorem ahead_eq_zero {s : State} {c n : Nat} (h : riserExpect s c = n % 65536) : ahead s c n = 0 := by
  rw [ahead, h]
  omega

/-- The state in which a context begins with a number: EXPECT is the number for one with RST. -/
def restarted (s : State) (c n : Nat) (rst : Bool) : State := if rst then rsqEvent (setExpect s c n) 16 else s

/-- The state in which a number is looked at: one in UNSYNC is in turn. -/
def synced (s r : State) (c n : Nat) : State :=
  if riserState s c = 1 then setRiserState (setExpect r c n) c 2 else r

theorem restarted_true (s : State) (c n : Nat) : restarted s c n true = rsqEvent (setExpect s c n) 16 := if_pos rfl

theorem restarted_false (s : State) (c n : Nat) : restarted s c n false = s := if_neg Bool.false_ne_true

theorem riserKept_rsqEvent (s : State) (mask : Nat) : RiserKept s (rsqEvent s mask) :=
  riserKept_event s _ _ _ (by decide) (by decide)

theorem restarted_leaves {s : State} {c n : Nat} {rst : Bool} (hc : c < 4096) (h : heldNumbers s c = []) :
    heldNumbers (restarted s c n rst) c = [] ∧ riserState (restarted s c n rst) c = riserState s c ∧
      riserExpect (restarted s c n rst) c = if rst then n % 65536 else riserExpect s c := by
  cases rst with
  | false =>
    rw [restarted_false, if_neg Bool.false_ne_true]
    exact ⟨h, rfl, rfl⟩
  | true =>
    rw [restarted_true, if_pos rfl]
    have hk := riserKept_rsqEvent (setExpect s c n) 16
    have hr := hk.rd_stat hc
    refine ⟨(hk.heldNumbers c).trans ((heldNumbers_setExpect _ _ _ _).trans h), ?_, ?_⟩
    · exact (congrArg (bits · 13 12) hr).trans (riserState_setExpect s c n)
    · exact (congrArg (bits · 31 16) hr).trans (riserExpect_setExpect s c n)

/-- A number in turn is looked at in state 2, with EXPECT at it. -/
theorem synced_leaves {s : State} {c n : Nat} {rst : Bool} (hc : c < 4096) (h : heldNumbers s c = [])
    (hturn : riserState s c = 1 ∨ (riserState s c = 2 ∧ (rst = true ∨ riserExpect s c = n))) :
    let u := synced s (restarted s c n rst) c n
    heldNumbers u c = [] ∧ riserState u c = 2 ∧ ahead u c n = 0 := by
  obtain ⟨hheld, hstate, hexp⟩ := restarted_leaves (n := n) (rst := rst) hc h
  generalize restarted s c n rst = r at hheld hstate hexp
  rcases hturn with h1 | ⟨h2, hor⟩
  · simp only [synced, if_pos h1]
    exact ⟨(heldNumbers_setRiserState _ _ _ _).trans ((heldNumbers_setExpect _ _ _ _).trans hheld),
      riserState_setRiserState _ c (by decide),
      ahead_eq_zero ((riserExpect_setRiserState _ c 2).trans (riserExpect_setExpect r c n))⟩
  · have hne : ¬riserState s c = 1 := by omega
    simp only [synced, if_neg hne]
    refine ⟨hheld, hstate.trans h2, ?_⟩
    rw [ahead, hexp]
    rcases hor with rfl | he
    · rw [if_pos rfl]
      omega
    · rw [he]
      split <;> omega

/-- On the way only the status of the context changes. -/
theorem synced_keeps (s r : State) (c n : Nat) :
    RegsKept r (synced s r c n) (fun a => decide (a = A.RSQ_CTX_STAT c)) ∧ (synced s r c n).buf = r.buf := by
  unfold synced
  split
  · exact ⟨(regsKept_setFld r _ _ _ (decide_eq_true rfl)).trans (regsKept_setFld _ _ _ _ (decide_eq_true rfl)),
      (setFld_buf ..).trans (setFld_buf ..)⟩
  · exact ⟨RegsKept.refl r _, rfl⟩

/-- A number in turn passes in the state in which it is looked at. -/
theorem riserSequence_in_turn {s : State} {c n : Nat} {rst : Bool} {o : Option Pkt} {cells : Nat} (hc : c < 4096)
    (h : heldNumbers s c = [])
    (hturn : riserState s c = 1 ∨ (riserState s c = 2 ∧ (rst = true ∨ riserExpect s c = n))) :
    riserSequence s c n rst o cells = riserPass (synced s (restarted s c n rst) c n) c n o := by
  obtain ⟨-, -, hahead⟩ := synced_leaves hc h hturn
  have hstate := (restarted_leaves (n := n) (rst := rst) hc h).2.1
  unfold riserSequence
  rw [releaseAll_of_nil h]
  extract_lets r u d
  have hu : u = synced s (restarted s c n rst) c n := by
    show (if riserState (restarted s c n rst) c = 1 then _ else _) = _
    rw [hstate]
    rfl
  have hd : d = 0 := (congrArg (ahead · c n) hu).trans hahead
  clear_value u d
  rw [hd, hu, if_neg (by decide), if_neg (by simp), if_pos rfl]

end Sys2Proof.Machine

namespace Sys2Proof.Proofs
open Sys2Proof.Machine

/-- Settles O44: in each of the three cases EXPECT is the number, and nothing is held that could follow it. -/
theorem riserInOrder : Obligations.RiserInOrder := by
  intro s c n rst o cells hc hheld hturn r u v t
  obtain ⟨huheld, hustate, -⟩ := synced_leaves hc hheld hturn
  obtain ⟨hpass, hv⟩ := riserPass_of_nil (n := n) (o := o) hc huheld
  have ht : t = setExpect v c (n + 1) := (riserSequence_in_turn hc hheld hturn).trans hpass
  have hvstate : riserState v c = 2 := (congrArg (bits · 13 12) hv.2).trans hustate
  refine ⟨ht, ht ▸ riserExpect_setExpect v c (n + 1), ht ▸ (riserState_setExpect v c _).trans hvstate,
    ht ▸ (heldNumbers_setExpect _ _ _ _).trans hv.1, ?_⟩
  rintro rfl rfl
  have hus : u = synced s s c n := congrArg (synced s · c n) (restarted_false s c n)
  obtain ⟨hregs, hbuf⟩ := synced_keeps s s c n
  rw [ht, show v = synced s s c n from hus]
  exact ⟨hregs.trans (regsKept_setFld _ _ _ _ (decide_eq_true rfl)), (setFld_buf ..).trans hbuf⟩

end Sys2Proof.Proofs
end

section
/-! A frame for a LAG group without an eligible member (R276). The rule is stated for a group of any number, and the member
words of a group above 31 lie among the counters of the block: slot 4 of group 32 is MIG_HOLDS. A hold that begins as
the frame is admitted is counted there, and the slot turns eligible. -/

namespace Sys2Proof.Machine

def group32Frame : Frame where
  id := 1
  bytes := ofNats (List.replicate 64 0)
  inPort := 0
  tIn := 0
  tsq := 0
  tRef := 0
  heat := none
  slot := none
  orphan := false
  pass := 0
  tc := 7
  ll := false
  fields := []
  frag := false
  tag := none
  done := 0
  bad := false
  pool := .none

/-- The copy that is next to be admitted, and one of its bucket that waits at slot 0. -/
def group32Copy : Pkt := ⟨1, 1, .lag 32, 0, 0, .toAdmit, none, none, none, none, false, false, 0⟩
def group32Waiting : Pkt := ⟨2, 1, .lag 32, 0, 0, .queue, some (32, 0, some 0), none, none, none, false, false, 0⟩

/-- RUN with port 0 UP. MIG_CFG, where group 32 has its configuration, enables the group and gives holds a time, and
MIG_HOLDS, where slot 4 lies, is one below the number at which it enables that slot. -/
def group32 : State :=
  { State.reset with
    regs := [(A.GLB_BOOT_STAT, 5), (A.SPR_GRP_CFG 32, 0x80000001), (A.SPR_GRP_MEM 32 4, 0x7FFFFFFF),
      (A.PORT_STAT 0, 0x20000000)]
    power := { State.reset.power with die := true }
    buf := { frames := [group32Frame], pkts := [group32Copy, group32Waiting], members := [(256 * 32, 1)] } }

theorem group32_admits : group32.islandRuns 4 = true ∧ nextAdmit group32 = some group32Copy ∧
    frameOf group32 group32Copy.fid = some group32Frame ∧ grpEn group32 32 = true ∧
    (∀ j, j < 16 → slotEligible group32 32 j = false) ∧ grpSpread group32 32 = false := by decide +kernel

theorem ends_frameAdmit_group32 : Ends (.frameAdmit none) group32 (admitNext group32) :=
  ends_onIsland (f := admitNext) rfl group32_admits.1 rfl

/-- The copy stays, held for the member that its own look at the bucket made eligible. -/
theorem pkts_group32 : (admitNext group32).buf.pkts.length = 2 ∧
    (dropNoMember (checkBucket group32 32 (bucketOf group32 32 group32Frame)) group32Copy).buf.pkts.length = 1 := by
  decide +kernel

end Sys2Proof.Machine

namespace Sys2Proof.Proofs
open Sys2Proof.Machine

/-- Refutes O43: group 32 has no eligible member, and admission makes one eligible before the frame is judged. -/
theorem not_noEligibleMember : ¬ Obligations.NoEligibleMember := by
  intro h
  obtain ⟨hrun, hnext, hframe, hen, hnone, hpinned⟩ := group32_admits
  obtain ⟨hkept, hgone⟩ := pkts_group32
  have hend := ((h group32 group32Copy group32Frame 32 hrun hnext rfl hframe (.inl rfl)).2 hen hnone).2 hpinned
  have hpkts := congrArg (fun t : State => t.buf.pkts.length) (Host.Outcome.next.inj (ends_frameAdmit_group32.symm.trans hend))
  exact absurd (hkept.symm.trans (hpkts.trans hgone)) (by decide)

end Sys2Proof.Proofs
end

section
/-! Reads of one word: the user page of the counters (R393) and the window on a bank (R396). -/

namespace Sys2Proof.Machine

/-! A register's row in a block whose rows before it end below it. -/

theorem RegRow.covers_iff (x : RegRow) (o : Nat) : x.covers o = true ↔
    x.off ≤ o ∧ (o - x.off) / x.s1 < x.n1 ∧ (o - x.off) % x.s1 / x.s2 < x.n2 ∧ (o - x.off) % x.s1 % x.s2 = 0 := by
  simp only [RegRow.covers, Bool.and_eq_true, decide_eq_true_eq, and_assoc]

theorem RegRow.covers_below {x : RegRow} {o : Nat} (hs : 0 < x.s1) (h : x.off + x.n1 * x.s1 ≤ o) : x.covers o = false := by
  have hn : ¬(o - x.off) / x.s1 < x.n1 := by
    rw [Nat.div_lt_iff_lt_mul hs]
    omega
  simp [RegRow.covers, hn]

/-- The rows before it lie elsewhere. -/
theorem find_row_apart {rows : List RegRow} {row : RegRow} {n o : Nat} (hn : rows[n]? = some row)
    (hapart : ∀ x ∈ rows.take n, 0 < x.s1 ∧ (x.off + x.n1 * x.s1 ≤ o ∨ o < x.off)) (hc : row.covers o = true) :
    rows.find? (·.covers o) = some row := by
  obtain ⟨hlt, rfl⟩ := List.getElem?_eq_some_iff.1 hn
  refine List.find?_eq_some_iff_getElem.2 ⟨hc, n, hlt, rfl, fun j hj => ?_⟩
  obtain ⟨hs, hb | hb⟩ := hapart rows[j] (List.mem_take_iff_getElem.2 ⟨j, by omega, rfl⟩)
  · simp [RegRow.covers_below hs hb]
  · simp [RegRow.covers, Nat.not_le.2 hb]

theorem find_row {rows : List RegRow} {row : RegRow} {n o : Nat} (hn : rows[n]? = some row)
    (hlow : ∀ x ∈ rows.take n, 0 < x.s1 ∧ x.off + x.n1 * x.s1 ≤ row.off) (h : row.off ≤ o) (hc : row.covers o = true) :
    rows.find? (·.covers o) = some row :=
  find_row_apart hn (fun x hx => ⟨(hlow x hx).1, .inl ((hlow x hx).2.trans h)⟩) hc

theorem rowOf_pmc {o : Nat} (h : o < 0x10000) : rowOf (0x30000 + o) = rowsPMC.find? (·.covers o) :=
  rowOf_of_index (n := 3) (i := 0) (b := ⟨0x30000, 0x10000, 0x10000, rowsPMC⟩) rfl (by decide) h
    (show 0 * 0x10000 + o < 0x10000 by omega)

theorem rowOf_mem {o : Nat} (h : o < 0x10000) : rowOf (0x50000 + o) = rowsMEM.find? (·.covers o) :=
  rowOf_of_index (n := 5) (i := 0) (b := ⟨0x50000, 0x10000, 0x10000, rowsMEM⟩) rfl (by decide) h
    (show 0 * 0x10000 + o < 0x10000 by omega)

/-- The row of the user page. -/
def userRow : RegRow := ⟨0x8000, 1024, 0x4, 1, 0x4, .ro, 0xffffffff, 0x0, false, false⟩

theorem rowOf_user {o : Nat} (h : o < 0x1000) (h4 : o % 4 = 0) : rowOf (A.PMC_USER 0 + o) = some userRow := by
  have hc : userRow.covers (0x8000 + o) = true := by
    refine (RegRow.covers_iff _ _).2 ⟨Nat.le_add_right _ _, ?_⟩
    rw [show 0x8000 + o - userRow.off = o from Nat.add_sub_cancel_left _ _]
    exact ⟨show o / 4 < 1024 by omega, show o % 4 / 4 < 1 by omega, show o % 4 % 4 = 0 by omega⟩
  rw [show A.PMC_USER 0 + o = 0x30000 + (0x8000 + o) by simp only [A.PMC_USER]; omega, rowOf_pmc (by omega)]
  exact find_row (n := 12) rfl (by decide) (Nat.le_add_right _ _) hc

/-- The row of the window on a bank. -/
def windowRow : RegRow := ⟨0x8000, 8192, 0x4, 1, 0x4, .window, 0xffffffff, 0x0, false, false⟩

theorem rowOf_window {a : Nat} (h : 0x58000 ≤ a) (h' : a < 0x60000) (h4 : a % 4 = 0) : rowOf a = some windowRow := by
  obtain ⟨o, rfl⟩ := Nat.exists_eq_add_of_le h
  have hc : windowRow.covers (0x8000 + o) = true := by
    refine (RegRow.covers_iff _ _).2 ⟨Nat.le_add_right _ _, ?_⟩
    rw [show 0x8000 + o - windowRow.off = o from Nat.add_sub_cancel_left _ _]
    exact ⟨show o / 4 < 8192 by omega, show o % 4 / 4 < 1 by omega, show o % 4 % 4 = 0 by omega⟩
  rw [show 0x58000 + o = 0x50000 + (0x8000 + o) by omega, rowOf_mem (by omega)]
  exact find_row (n := 10) rfl (by decide) (Nat.le_add_right _ _) hc

/-- The 18 words of a counter group are words of CNT registers. -/
theorem counterRows : ∀ g < 24, ∀ j < 18, ((rowOf (A.PMC_CYC_LO g + 4 * j)).map RegRow.acc) = some .cnt := by decide +kernel

/-! A read of one word of the blocks PMC to TAC, whose nodes lie in the central island. -/

/-- What a read of one word answers where its register shows `v`. -/
def wordAnswer : Option Nat → List Nat × Bool
  | some v => ([v], true)
  | none => ([allOnes], false)

section Central
variable {a : Nat} (h : 0x30000 ≤ a) (h' : a < 0x70000)
include h h'

theorem zoneOf_central : zoneOf a = none := by
  rw [zoneOf, if_neg (by omega), if_neg (by omega), if_neg (by omega)]

theorem aperture_central : (isPortAperture a || isLaneAperture a) = false := by
  simp only [isPortAperture, isLaneAperture, Bool.or_eq_false_iff, decide_eq_false_iff_not]
  omega

theorem off_central : alwaysOn a = false ∧ onTimingDie a = false := by
  simp only [alwaysOn, onTimingDie, Bool.or_eq_false_iff, decide_eq_false_iff_not]
  omega

theorem gateOpen_central (s : State) (r : Req) : gateOpen s r a = gateOpen s r (A.PMC_USER 0) := by
  obtain ⟨ha, ht⟩ := off_central h h'
  simp only [gateOpen, ha, ht]
  rfl

theorem wordRead_central (s : State) (r : Req) :
    wordRead s r a = ((viewReg s (some r) a).getD allOnes, (viewReg s (some r) a).isSome) := by
  simp only [wordRead, aperture_central h h', zoneRefuses, zoneFails, zoneOf_central h h', Bool.false_eq_true, if_false]
  cases viewReg s (some r) a <;> rfl

theorem busRead_central (s : State) (r : Req) {row : RegRow} (h4 : a % 4 = 0) (hr : rowOf a = some row) :
    busRead s r a 4 =
      if !reaches s r || waitsAtCore s r then none
      else if !gateOpen s r (A.PMC_USER 0) then some ([allOnes], false)
      else if !islandRuns s 4 then none
      else some (wordAnswer (viewReg s (some r) a)) := by
  have hm : mapped a = true := by
    obtain ⟨b, hb, -⟩ := rowOf_block hr
    simp [mapped, hb]
  obtain ⟨ha, ht⟩ := off_central h h'
  have hwait : nodeWaits s a = !islandRuns s 4 := by
    simp only [nodeWaits, zoneRefuses, zoneFails, nodeRuns, zoneOf_central h h', ha, ht, Bool.not_false, Bool.true_and,
      Bool.false_or]
  have hone : readWords s r a 1 = wordAnswer (viewReg s (some r) a) := by
    simp only [readWords, wordRead_central h h']
    cases viewReg s (some r) a <;> rfl
  simp only [busRead, hm, gateOpen_central h h', accessWidth_word h4, readWaits, List.range_one, List.any_cons, List.any_nil,
    Nat.mul_zero, Nat.add_zero, hwait, hone, Bool.not_true, Bool.false_or, Bool.or_false]

end Central

/-! What the words show. -/

theorem viewReg_user (s : State) (r : Option Req) {o : Nat} (h : o < 0x1000) (h4 : o % 4 = 0) :
    viewReg s r (A.PMC_USER 0 + o) = some (if s.bit A.PMC_UPAGE 0 then s.rd (A.PMC_CYC_LO 0 + o) else 0) := by
  have ho : A.PMC_USER 0 + o - A.PMC_USER 0 + A.PMC_CYC_LO 0 = A.PMC_CYC_LO 0 + o := by omega
  rw [viewReg, rowOf_user h h4]
  simp only
  rw [if_neg (by decide), if_neg (by decide), if_neg (by simp only [A.PMC_USER, A.SNP_RD]; omega), if_pos (by omega), ho]

theorem poolWord_counter (s : State) {a : Nat} (h : a < 0x32000) : poolWord s a = none := by
  have hne : ∀ b, 0x32000 ≤ b → a ≠ b := fun b hb => by omega
  rw [poolWord]
  repeat rw [if_neg (hne _ (by decide))]

theorem entryOf_below {a base : Nat} (stride n : Nat) (h : a < base) : entryOf a base stride n = none := by
  rw [entryOf, if_neg (by omega)]

theorem arrayWord_counter (s : State) {a : Nat} (h : a < 0x32000) : arrayWord s a = none := by
  have hb : ∀ base stride n, 0x32000 ≤ base → entryOf a base stride n = none :=
    fun _ stride n hb => entryOf_below stride n (by omega)
  rw [arrayWord]
  repeat rw [hb _ _ _ (by decide)]

theorem viewReg_counter (s : State) (r : Option Req) {a : Nat} {row : RegRow} (h : 0x31000 ≤ a) (h' : a < 0x32000)
    (hr : rowOf a = some row) (hc : row.acc = .cnt) : viewReg s r a = some (s.rd a) := by
  rw [viewReg, hr]
  simp only [hc]
  rw [if_neg (by decide), if_neg (by decide), if_neg (by simp only [A.SNP_RD]; omega), if_neg (by simp only [A.PMC_USER]; omega),
    if_neg (by simp only [A.TIM_TB_TIME_W2]; omega), poolWord_counter s h', arrayWord_counter s h']
  rfl

theorem bankWord_bytes (s : State) (b i : Nat) : s.bankWord b i = (s.bankByte b i).toNat + (s.bankByte b (i + 1)).toNat * 2 ^ 8 +
    (s.bankByte b (i + 2)).toNat * 2 ^ 16 + (s.bankByte b (i + 3)).toNat * 2 ^ 24 := by
  simp only [State.bankWord, List.range, List.range.loop, List.map_cons, List.map_nil, leNat, Nat.add_zero]
  omega

theorem viewReg_window (s : State) (r : Option Req) {a : Nat} (h : 0x58000 ≤ a) (h' : a < 0x60000) (h4 : a % 4 = 0) :
    viewReg s r a = memWindow s (a - 0x58000) := by
  rw [viewReg, rowOf_window h h' h4]
  rfl

end Sys2Proof.Machine

namespace Sys2Proof.Proofs
open Sys2Proof.Machine

/-- Settles O59: a word of the page and the counter that it mirrors lie in one block and one island, so that their reads go
the same way to their registers. -/
theorem userPageMirror : Obligations.UserPageMirror := by
  refine ⟨rfl, rfl, fun s r o ho h4 hr hw hi hg hen => ?off, fun s r g j hg hj _ _ hen => ?mirror⟩
  case off =>
    have hlow : 0x30000 ≤ A.PMC_USER 0 + o := by simp only [A.PMC_USER]; omega
    have hhigh : A.PMC_USER 0 + o < 0x70000 := by simp only [A.PMC_USER]; omega
    have hal : (A.PMC_USER 0 + o) % 4 = 0 := by simp only [A.PMC_USER]; omega
    rw [busRead_central hlow hhigh s r hal (rowOf_user ho h4), viewReg_user s _ ho h4, hr, hw, hg, hi, hen]
    rfl
  case mirror =>
    have hc : A.PMC_CYC_LO g + 4 * j = 0x31000 + (0x80 * g + 4 * j) := by simp only [A.PMC_CYC_LO]; omega
    have ho : A.PMC_CYC_LO g + 4 * j - A.PMC_CYC_LO 0 = 0x80 * g + 4 * j := by rw [hc]; exact Nat.add_sub_cancel_left _ _
    obtain ⟨row, hrow, hacc⟩ := Option.map_eq_some_iff.1 (counterRows g hg j hj)
    have hsmall : 0x80 * g + 4 * j < 0x1000 := by omega
    have h4 : (0x80 * g + 4 * j) % 4 = 0 := by omega
    intro o
    rw [show o = 0x80 * g + 4 * j from ho, hc]
    rw [hc] at hrow
    rw [busRead_central (by simp only [A.PMC_USER]; omega) (by simp only [A.PMC_USER]; omega) s r
        (by simp only [A.PMC_USER]; omega) (rowOf_user hsmall h4),
      busRead_central (by omega) (by omega) s r (by omega) hrow, viewReg_user s _ hsmall h4,
      viewReg_counter s _ (by omega) (by omega) hrow hacc, hen]
    rfl

/-- Settles O60: the window's words are words of one row, which reads the bank and refuses each write. -/
theorem bankWindow : Obligations.BankWindow := by
  refine ⟨rfl, fun s r a v h h' h4 hl => ?_⟩
  obtain ⟨hr, hw, hg, ho, -, -⟩ := (listens_iff s r _).1 hl
  have hrow := rowOf_window h h' h4
  have hi : islandRuns s 4 = true := by
    obtain ⟨ha, ht⟩ := off_central (by omega) (by omega : a.toNat < 0x70000)
    simp only [State.nodeOpen, nodeRuns, zoneOf_central (by omega) (by omega : a.toNat < 0x70000), ha, ht, Bool.and_eq_true,
      Bool.false_or] at ho
    exact ho.2
  have hread := busRead_central (by omega) (by omega) s r h4 hrow
  rw [← gateOpen_central (by omega : 0x30000 ≤ a.toNat) (by omega), hr, hw, hg, hi, viewReg_window s _ h h' h4] at hread
  refine ⟨fun hb => ?on, fun hb => ?off, ?write⟩
  case on =>
    rw [hread, memWindow, bankOn, decide_eq_true hb, if_pos rfl, bankWord_bytes]
    rfl
  case off =>
    rw [hread, memWindow, bankOn, decide_eq_false hb]
    rfl
  case write => exact ends_registerWrite hl h4 hrow

end Sys2Proof.Proofs
end

section
/-! Guard sequences: the first write, the complement and the time between them (R362). -/

namespace Sys2Proof.Machine

@[simp] theorem heard_guardsOf (s : State) (r q : Req) (n : Nat) : guardsOf (heard s r n) q = guardsOf s q := by
  cases q
  · exact heard_guardHost s r n
  · exact heard_guardMgmt s r n

theorem guardAt_heard (s : State) (r q : Req) (n a : Nat) : guardAt (heard s r n) q a = guardAt s q a := by
  rw [guardAt, heard_guardsOf, guardAt]

/-! The first write. -/

theorem guardAt_beginGuard (s : State) (r : Req) (a v : Nat) :
    guardAt (beginGuard s r a v) r a = some ⟨a, BitVec.ofNat 32 v, s.now + us⟩ := by
  cases r <;> simp [guardAt, guardsOf, beginGuard, putGuards, GuardSeq.inBlock]

theorem regsKept_beginGuard (s : State) (r : Req) (a v : Nat) (w : Nat → Bool) : RegsKept s (beginGuard s r a v) w := by
  cases r <;> exact RegsKept.refl s w

/-! A sequence that fails. -/

theorem guardErr_guardMgmt (s : State) (r : Req) (a : Nat) : (guardErr s r a).guardMgmt = s.guardMgmt := by
  have hraise : ∀ u : State, (u.raise 3).guardMgmt = u.guardMgmt :=
    fun u => (quiet_raise u 3 (by decide)).keeps State.guardMgmt fun _ => rfl
  rw [guardErr, hraise, record_keeps (f := State.guardMgmt) (fun _ _ _ => rfl),
    captureErr_keeps (f := State.guardMgmt) (fun _ _ _ => rfl), add64_guardMgmt]

theorem guardFails_some {s : State} {r : Req} {a : Nat} {q : GuardSeq} (h : guardAt s r a = some q) :
    guardFails s r a = guardErr (dropGuard s r a) r q.addr := by simp only [guardFails, h]

theorem guardFails_none {s : State} {r : Req} {a : Nat} (h : guardAt s r a = none) : guardFails s r a = s := by
  simp only [guardFails, h]

/-- Only a write of the host that ends a sequence of the management complex fails a record's section. -/
theorem recordBreaks_guardFails (s : State) (r : Req) (n a b : Nat) :
    recordBreaks s r (guardErr (dropGuard (heard s r n) r a) r b) = guardErr (dropGuard (heard s r n) r a) r b := by
  cases r with
  | host => exact recordBreaks_kept .host ((guardErr_guardMgmt _ _ _).trans (heard_guardMgmt s .host n))
  | mgmt => simp [recordBreaks]

/-! The complement. -/

/-- The requester that is not this one. -/
def otherReq (r : Req) : Req := match r with | .host => .mgmt | .mgmt => .host

theorem breakGuards_alone {s : State} {r : Req} {a : Nat} (h : guardAt s (otherReq r) a = none) :
    breakGuards s a (some r) = s := by
  cases r with
  | host => simpa [breakGuards] using guardFails_none (r := .mgmt) h
  | mgmt => simpa [breakGuards] using guardFails_none (r := .host) h

theorem isComplementOf_iff (v w : Word) : v.toNat + w.toNat = 2 ^ 32 - 1 ↔ v = ~~~w := by
  rw [← BitVec.toNat_inj, BitVec.toNat_not]
  have := w.isLt
  omega

/-- A complement write to a sequence of the same register: the register acts, or the sequence fails. -/
theorem complementWrite_pending {s : State} {r : Req} {a : Nat} {q : GuardSeq} (v : Word) (h : guardAt s r a = some q)
    (hq : q.addr = a ^^^ 0x800) (ho : guardAt s (otherReq r) a = none) :
    complementWrite s r a v.toNat =
      if s.now ≤ q.till ∧ v = ~~~q.value then guardedEffect (dropGuard s r a) r q.addr q.value.toNat
      else guardErr (dropGuard s r a) r q.addr := by
  simp only [complementWrite, h, hq, if_true, breakGuards_alone ho, guardFails_some h, isComplementOf_iff, Bool.and_eq_true,
    decide_eq_true_eq]

/-- The write reaches its node, which is open, and no other. -/
theorem write32_complement {s : State} {r : Req} {a : Nat} (v : Word) (hr : reaches s r = true) (hw : waitsAtCore s r = false)
    (hg : gateOpen s r a = true) (hn : s.nodeOpen a = true) (h4 : a % 4 = 0) (hp : isPortAperture a = false)
    (hl : isLaneAperture a = false) (hm : mapped a = true) (hrow : rowOf a = none) (hc : isComplement a = true) :
    write32 s r a v.toNat = recordBreaks s r (complementWrite (heard s r 1) r a v.toNat) := by
  obtain ⟨hz, hf, hi⟩ := (nodeOpen_iff _ _).1 ((nodeOpen_heard s r 1 a).trans hn)
  have hreg : regWrite (heard s r 1) r a a v.toNat false = complementWrite (heard s r 1) r a v.toNat := by
    unfold regWrite
    rw [hrow]
    simp only [hc, if_true, Bool.false_eq_true, if_false]
  have hword : wordWrite (heard s r 1) r a v.toNat = (complementWrite (heard s r 1) r a v.toNat, true) := by
    simp [wordWrite, hp, hl, nodeWrite, hz, hf, hi, hreg]
  rw [write32_wordWrite v hr hw hm hg h4, hword, if_pos rfl]

/-! The time between the two writes. -/

theorem guardExpire_one {s : State} {r : Req} {q : GuardSeq} (h : guardsOf s r = [q]) (ht : q.till ≤ s.now) :
    guardExpire s r = guardErr (putGuards s r []) r q.addr := by
  have hin : q.inBlock q.addr = true := by simp [GuardSeq.inBlock]
  have hat : guardAt s r q.addr = some q := by simp [guardAt, h, hin]
  have hdrop : dropGuard s r q.addr = putGuards s r [] := by simp [dropGuard, h, hin]
  have hpast : [q].filter (fun q => decide (q.till ≤ s.now)) = [q] := by simp [ht]
  rw [guardExpire, h, hpast, List.foldl_cons, List.foldl_nil, guardFails_some hat, hdrop]

theorem guardTimeout_outside {s : State} (r : Req) (h : bootState s ≠ 3) : guardTimeout s r = guardExpire s r := by
  simp [guardTimeout, h]

end Sys2Proof.Machine

namespace Sys2Proof.Proofs
open Sys2Proof.Machine

/-- Settles O10: the sequence that a first write leaves is the one that its complement write, or its time, finds. -/
theorem guardSequence : Obligations.GuardSequence := by
  refine ⟨fun s r a v row hl h4 hr hacc => ?first, fun s r a v q hre hw hg hn h4 hq hqa ho hp hla hm hrow hc => ?second,
    fun s r q hd hb hq ht => ?time⟩
  case first =>
    have hserved : served (heard s r 1) r a.toNat v.toNat row = beginGuard (heard s r 1) r a.toNat v.toNat := by
      rw [served, hacc]
    have hend : Ends (.guardFirstWrite r a v) s (served (heard s r 1) r a.toNat v.toNat row) :=
      ends_write32 rfl hl h4 hr
    rw [hserved] at hend
    refine hend.endsWith_of ⟨?_, ?_⟩ fun _ _ _ h => h
    · rw [guardAt_beginGuard, BitVec.ofNat_toNat, BitVec.setWidth_eq, heard_now]
    · exact (regsKept_heard s r 1).trans (regsKept_beginGuard _ _ _ _ _)
  case second =>
    have hat := (guardAt_heard s r r 1 a.toNat).trans hq
    have hat' := (guardAt_heard s r (otherReq r) 1 a.toNat).trans ho
    have hexec : exec (.guardComplementWrite r a v) s = done s (write32 s r a.toNat v.toNat) := rfl
    rw [write32_complement v hre hw hg hn h4 hp hla hm hrow hc, complementWrite_pending v hat hqa hat', heard_now] at hexec
    refine ⟨fun ht hv => ends_of_exec ?act, fun hbad => ends_of_exec ?fail⟩
    case act => rw [hexec, if_pos ⟨ht, hv⟩]
    case fail =>
      have hnot : ¬(s.now ≤ q.till ∧ v = ~~~q.value) := fun ⟨ht, hv⟩ => hbad.elim (fun h => absurd ht (by omega)) (· hv)
      rw [hexec, if_neg hnot, recordBreaks_guardFails]
  case time =>
    exact ends_onDie_settle (f := fun s => guardTimeout s r) rfl hd ((guardTimeout_outside r hb).trans (guardExpire_one hq ht))

end Sys2Proof.Proofs
end

section
/-! Tables of several words that are staged and committed with their last word: the Ladle and the sources of Assay (R290,
R319), and the pin tables of the groups beside them (R282). -/

namespace Sys2Proof.Machine

/-! The words of the staging. -/

section Staging
variable (s : State) (r : Req) (addr : Nat → Nat → Nat)

theorem stagedWord_putStaged_self (j v : Nat) :
    stagedWord (putStaged s (2 * addr 0 j + reqNum r) v) r addr j = v % 2 ^ 32 := by
  simp [stagedWord, putStaged]

theorem stagedWord_putStaged_ne {i j : Nat} (v : Nat) (h : addr 0 j ≠ addr 0 i) :
    stagedWord (putStaged s (2 * addr 0 i + reqNum r) v) r addr j = stagedWord s r addr j := by
  have hk : 2 * addr 0 j + reqNum r ≠ 2 * addr 0 i + reqNum r := by omega
  simp [stagedWord, putStaged, map_get_put_ne _ _ _ _ hk]

theorem stageOf_loadStage {n i : Nat} (h : ∀ j < n, addr 0 n ≠ addr 0 j) (hi : i + 1 < 2 ^ 32) :
    stageOf (loadStage s r addr n i) r addr n = i + 1 := by
  have hfold : ∀ (l : List Nat) (u : State), (∀ j ∈ l, j < n) →
      stagedWord (l.foldl (fun u j => putStaged u (2 * addr 0 j + reqNum r) (u.rd (addr i j))) u) r addr n =
        stagedWord u r addr n := by
    intro l
    induction l with
    | nil => exact fun _ _ => rfl
    | cons j l ih =>
      intro u hl
      rw [List.foldl_cons, ih _ fun k hk => hl k (List.mem_cons_of_mem _ hk),
        stagedWord_putStaged_ne _ _ _ _ (h j (hl j (List.mem_cons_self ..)))]
  exact (hfold _ _ fun j => List.mem_range.1).trans
    ((stagedWord_putStaged_self _ r addr n _).trans (Nat.mod_eq_of_lt hi))

theorem stageOf_stageWord {n i j : Nat} (v : Nat) (h : ∀ j < n, addr 0 n ≠ addr 0 j) (hj : j < n) (hi : i + 1 < 2 ^ 32) :
    stageOf (stageWord s r addr n i j v) r addr n = i + 1 := by
  refine (stagedWord_putStaged_ne _ r addr v (h j hj)).trans ?_
  split
  case isTrue hsame => exact hsame
  case isFalse => exact stageOf_loadStage s r addr h hi

theorem stagedWord_stageWord (n i j v : Nat) : stagedWord (stageWord s r addr n i j v) r addr j = v % 2 ^ 32 :=
  stagedWord_putStaged_self _ r addr j v

/-- The staging is all that a staged word changes. -/
theorem stageWord_keeps {α : Type} {f : State → α} (hf : ∀ (u : State) m, f { u with staged := m } = f u) (n i j v : Nat) :
    f (stageWord s r addr n i j v) = f s ∧ f (loadStage s r addr n i) = f s := by
  have hload : f (loadStage s r addr n i) = f s := (foldl_keeps (fun _ _ => hf _ _) _ _).trans (hf _ _)
  refine ⟨(hf _ _).trans ?_, hload⟩
  split
  · rfl
  · exact hload

end Staging

/-! The words of an entry. -/

/-- Words that are written at places apart from each other hold what was written. -/
theorem rd_writeWords (s : State) {place g : Nat → Nat} (hplace : ∀ i j, place i = place j → i = j) {n j : Nat} (hj : j < n) :
    ((List.range n).foldl (fun s j => s.wr (place j) (g j)) s).rd (place j) = g j % 2 ^ 32 := by
  induction n with
  | zero => exact absurd hj (Nat.not_lt_zero j)
  | succ n ih =>
    rw [List.range_succ, List.foldl_concat]
    rcases Nat.lt_succ_iff_lt_or_eq.1 hj with hlt | rfl
    · rw [rd_wr_ne _ _ fun h => hlt.ne (hplace j n h), ih hlt]
    · exact rd_wr_self _ _ _

theorem writeWords_regsKept (s : State) {place g : Nat → Nat} {n : Nat} {p : Nat → Bool} (h : ∀ j < n, p (place j) = true) :
    RegsKept s ((List.range n).foldl (fun s j => s.wr (place j) (g j)) s) p :=
  regsKept_foldl _ (fun u j hj => regsKept_wr u _ (h j (List.mem_range.1 hj))) s

theorem writeWords_banksKept (s : State) (place g : Nat → Nat) (n : Nat) :
    BanksKept s ((List.range n).foldl (fun s j => s.wr (place j) (g j)) s) :=
  banksKept_of_eq (foldl_keeps (f := State.mem) (fun _ _ => wr_mem _ _ _) _ s)
    (foldl_keeps (f := State.banks) (fun _ _ => wr_banks _ _ _) _ s)

/-! Where the tables stand in the map. -/

/-- The rows of the Ladle's words, of the sources' and of the pin tables'. -/
def ladleRow : RegRow := ⟨0x900000, 16384, 0x10, 4, 0x4, .rw, 0xffffffff, 0x0, false, false⟩
def srcRow : RegRow := ⟨0xa00000, 16384, 0x20, 8, 0x4, .rw, 0xffffffff, 0x0, false, false⟩
def pinRow : RegRow := ⟨0x940000, 32, 0x100, 64, 0x4, .rw, 0xf0f0f0f, 0x0, false, false⟩

theorem rowOf_ladle {i j : Nat} (hi : i < 16384) (hj : j < 4) : rowOf (A.TBL_LADLE i j) = some ladleRow := by
  have hc : ladleRow.covers (0x900000 + (0x10 * i + 4 * j)) = true := by
    refine (RegRow.covers_iff _ _).2 ⟨Nat.le_add_right _ _, ?_⟩
    rw [show 0x900000 + (0x10 * i + 4 * j) - ladleRow.off = 0x10 * i + 4 * j from Nat.add_sub_cancel_left _ _]
    exact ⟨show (0x10 * i + 4 * j) / 0x10 < 16384 by omega, show (0x10 * i + 4 * j) % 0x10 / 4 < 4 by omega,
      show (0x10 * i + 4 * j) % 0x10 % 4 = 0 by omega⟩
  rw [show A.TBL_LADLE i j = 0x2000000 + (0x900000 + (0x10 * i + 4 * j)) by simp only [A.TBL_LADLE]; omega, rowOf_tbl (by omega)]
  refine find_row_apart (n := 5) rfl ?_ hc
  simp only [rowsTBL, List.take, List.forall_mem_cons, List.not_mem_nil, false_implies, implies_true, and_true]
  omega

theorem rowOf_src {i j : Nat} (hi : i < 16384) (hj : j < 8) : rowOf (A.TBL_SRC i j) = some srcRow := by
  have hc : srcRow.covers (0xa00000 + (0x20 * i + 4 * j)) = true := by
    refine (RegRow.covers_iff _ _).2 ⟨Nat.le_add_right _ _, ?_⟩
    rw [show 0xa00000 + (0x20 * i + 4 * j) - srcRow.off = 0x20 * i + 4 * j from Nat.add_sub_cancel_left _ _]
    exact ⟨show (0x20 * i + 4 * j) / 0x20 < 16384 by omega, show (0x20 * i + 4 * j) % 0x20 / 4 < 8 by omega,
      show (0x20 * i + 4 * j) % 0x20 % 4 = 0 by omega⟩
  rw [show A.TBL_SRC i j = 0x2000000 + (0xa00000 + (0x20 * i + 4 * j)) by simp only [A.TBL_SRC]; omega, rowOf_tbl (by omega)]
  exact find_row (n := 3) rfl (by decide) (Nat.le_add_right _ _) hc

theorem rowOf_pin {g w : Nat} (hg : g < 32) (hw : w < 64) : rowOf (A.TBL_PIN g w) = some pinRow := by
  have hc : pinRow.covers (0x940000 + (0x100 * g + 4 * w)) = true := by
    refine (RegRow.covers_iff _ _).2 ⟨Nat.le_add_right _ _, ?_⟩
    rw [show 0x940000 + (0x100 * g + 4 * w) - pinRow.off = 0x100 * g + 4 * w from Nat.add_sub_cancel_left _ _]
    exact ⟨show (0x100 * g + 4 * w) / 0x100 < 32 by omega, show (0x100 * g + 4 * w) % 0x100 / 4 < 64 by omega,
      show (0x100 * g + 4 * w) % 0x100 % 4 = 0 by omega⟩
  rw [show A.TBL_PIN g w = 0x2000000 + (0x940000 + (0x100 * g + 4 * w)) by simp only [A.TBL_PIN]; omega, rowOf_tbl (by omega)]
  refine find_row_apart (n := 4) rfl ?_ hc
  simp only [rowsTBL, List.take, List.forall_mem_cons, List.not_mem_nil, false_implies, implies_true, and_true]
  omega

/-! What a write of a word does. -/

/-- The entry and the word of a table that an address names. -/
theorem entryOf2_word {base stride n m i j : Nat} (hi : i < n) (hj : j < m) (hm : 4 * m ≤ stride) :
    entryOf2 (base + i * stride + j * 4) base stride n 4 m = some (i, j) := by
  have hoff : base + i * stride + j * 4 - base = 4 * j + stride * i := by rw [Nat.mul_comm stride]; omega
  have hdiv : (4 * j + stride * i) / stride = i := by
    rw [Nat.add_mul_div_left _ _ (by omega), Nat.div_eq_of_lt (by omega), Nat.zero_add]
  have hmod : (4 * j + stride * i) % stride = 4 * j := by rw [Nat.add_mul_mod_self_left, Nat.mod_eq_of_lt (by omega)]
  rw [entryOf2, hoff, hdiv, hmod, Nat.mul_div_cancel_left _ (by decide), if_pos ⟨by omega, hi, hj, by omega⟩]

theorem entryOf2_above {a base stride n step m : Nat} (hs : 0 < stride) (h : base + n * stride ≤ a) :
    entryOf2 a base stride n step m = none := by
  refine if_neg fun ⟨_, hlt, _⟩ => ?_
  rw [Nat.div_lt_iff_lt_mul hs] at hlt
  omega

theorem entryOf2_below {a base stride n step m : Nat} (h : a < base) : entryOf2 a base stride n step m = none :=
  if_neg fun ⟨hle, _⟩ => absurd hle (Nat.not_le.2 h)

theorem writeEffect_tbl (s : State) (r : Req) {a : Nat} (v : Nat) (h : 0x2000000 ≤ a) : writeEffect s r a v = writeTbl s r a v := by
  rw [writeEffect]
  repeat rw [if_neg (by omega)]

theorem writeEffect_ladle (s : State) (r : Req) {i j : Nat} (v : Nat) (hi : i < 16384) (hj : j < 4) :
    writeEffect s r (A.TBL_LADLE i j) v =
      if j = 3 then commitLadle s r i v else .does (stageWord s r A.TBL_LADLE 3 i j v) := by
  have hentry : entryOf2 (A.TBL_LADLE i j) (A.TBL_LADLE 0 0) 0x10 16384 4 4 = some (i, j) := entryOf2_word hi hj (by decide)
  rw [writeEffect_tbl s r v (by simp only [A.TBL_LADLE]; omega), writeTbl, if_neg (by simp only [A.TBL_LADLE, A.TBL_HITS_LO]; omega),
    hentry]

theorem writeEffect_src (s : State) (r : Req) {i j : Nat} (v : Nat) (hi : i < 16384) (hj : j < 8) :
    writeEffect s r (A.TBL_SRC i j) v = if j = 7 then commitSource s r i v else .does (stageWord s r A.TBL_SRC 7 i j v) := by
  have hentry : entryOf2 (A.TBL_SRC i j) (A.TBL_SRC 0 0) 0x20 16384 4 8 = some (i, j) := entryOf2_word hi hj (by decide)
  rw [writeEffect_tbl s r v (by simp only [A.TBL_SRC]; omega), writeTbl, if_neg (by simp only [A.TBL_SRC, A.TBL_HITS_LO]; omega),
    entryOf2_above (by decide) (by simp only [A.TBL_SRC, A.TBL_LADLE]; omega), hentry]

theorem writeEffect_pin (s : State) (r : Req) {g w : Nat} (v : Nat) (hg : g < 32) (hw : w < 64) :
    writeEffect s r (A.TBL_PIN g w) v = .does (refreshMigration (takeWord s (A.TBL_PIN g w) v)) := by
  rw [writeEffect_tbl s r v (by simp only [A.TBL_PIN]; omega), writeTbl, if_neg (by simp only [A.TBL_PIN, A.TBL_HITS_LO]; omega),
    entryOf2_above (by decide) (by simp only [A.TBL_PIN, A.TBL_LADLE]; omega),
    entryOf2_below (by simp only [A.TBL_PIN, A.TBL_SRC]; omega)]
  exact if_pos (by simp only [A.TBL_PIN]; omega)

end Sys2Proof.Machine
end

section
/-! The Ladle and the latency-locked queue: staging and commits, replication and pruning, windows and late copies (R290,
R291, R294 to R305). -/

namespace Sys2Proof.Machine

/-! Words of a group. -/

theorem ladle_injective (i : Nat) : ∀ j k, A.TBL_LADLE i j = A.TBL_LADLE i k → j = k := by
  simp only [A.TBL_LADLE]
  omega

/-- The three words and the last one that a commit leaves in the table and in the requester's staging. -/
def ladleCommitted (s : State) (r : Req) (i : Nat) (ws : List Nat) : State :=
  loadStage ((List.range 4).foldl (fun s j => s.wr (A.TBL_LADLE i j) (ws.getD j 0)) s) r A.TBL_LADLE 3 i

theorem rd_ladleCommitted (s : State) (r : Req) (i : Nat) (ws : List Nat) {j : Nat} (hj : j < 4) :
    (ladleCommitted s r i ws).rd (A.TBL_LADLE i j) = ws.getD j 0 % 2 ^ 32 :=
  ((stageWord_keeps _ r A.TBL_LADLE (f := fun s => s.rd (A.TBL_LADLE i j)) (fun _ _ => rfl) 3 i 0 0).2).trans
    (rd_writeWords s (ladle_injective i) hj)

/-- The words of group `i`. -/
def inLadle (i a : Nat) : Bool := decide (A.TBL_LADLE i 0 ≤ a) && decide (a ≤ A.TBL_LADLE i 3)

theorem ladleCommitted_regsKept (s : State) (r : Req) (i : Nat) (ws : List Nat) :
    RegsKept s (ladleCommitted s r i ws) (inLadle i) := by
  have hwords : ∀ j < 4, inLadle i (A.TBL_LADLE i j) = true := by
    intro j hj
    rw [inLadle, Bool.and_eq_true, decide_eq_true_eq, decide_eq_true_eq, A.TBL_LADLE, A.TBL_LADLE, A.TBL_LADLE]
    omega
  exact (writeWords_regsKept s hwords).trans
    (regsKept_of_regs _ (stageWord_keeps _ r A.TBL_LADLE (f := State.regs) (fun _ _ => rfl) 3 i 0 0).2)

theorem ladleCommitted_banksKept (s : State) (r : Req) (i : Nat) (ws : List Nat) : BanksKept s (ladleCommitted s r i ws) :=
  fun b x => ((stageWord_keeps _ r A.TBL_LADLE (f := fun s => s.bankByte b x) (fun _ _ => rfl) 3 i 0 0).2).trans
    (writeWords_banksKept s (A.TBL_LADLE i) (fun j => ws.getD j 0) 4 b x)

/-! The head of the Ladle's FIFO. -/

section Head
variable {s : State} {k : Pkt} {f : Frame} {w : List Nat} {l : List Pkt}
  (hfifo : ladleFifo s = k :: l) (hloc : k.loc = .ladle w) (hf : frameOf s k.fid = some f)
include hfifo hloc hf

theorem replicate_invalid (hv : (w.getD 3 0).testBit 31 = false) :
    replicate s = removePkt (ldlEvent (slag (s.add64 A.LDL_INVALID_LO 1) 14) 2) k := by
  simp only [replicate, hfifo, hloc, hf, entryValid, hv, Bool.not_false, if_true]

/-- The frame's copies that pruning takes away are counted. -/
def prunedCount (s : State) (w : List Nat) (p : Nat) : State :=
  let pruned := (ladlePorts w).length + (ladleLags w).length - (ladleCopies s w p).length
  if pruned = 0 then s else s.add64 A.LDL_PRUNED_LO pruned

theorem replicate_empty (hv : (w.getD 3 0).testBit 31 = true) (he : ladleCopies s w f.inPort = []) :
    replicate s = removePkt (ldlEvent (slag ((prunedCount s w f.inPort).add64 A.LDL_EMPTY_LO 1) 14) 4) k := by
  simp only [replicate, hfifo, hloc, hf, entryValid, hv, Bool.not_true, Bool.false_eq_true, if_false, he, List.isEmpty_nil,
    if_true, prunedCount]

theorem replicate_copies (hv : (w.getD 3 0).testBit 31 = true) (he : ladleCopies s w f.inPort ≠ []) (hll : f.ll = false) :
    replicate s = removePkt ((ladleCopies s w f.inPort).foldl (fun s d => makeCopy s k d)
      (((prunedCount s w f.inPort).add64 A.LDL_COPIES_LO (ladleCopies s w f.inPort).length).pmcEvent 21 0x280
        (ladleCopies s w f.inPort).length)) k := by
  have hne : (ladleCopies s w f.inPort).isEmpty = false := by simpa using he
  simp only [replicate, hfifo, hloc, hf, entryValid, hv, Bool.not_true, Bool.false_eq_true, if_false, hne, hll,
    Bool.false_and, prunedCount]

end Head

/-! Pruning. -/

theorem mem_ladleCopies_port (s : State) {w : List Nat} {p q : Nat} (h : (w.getD 3 0).testBit 30 = true) :
    Dest.port q ∈ ladleCopies s w p ↔ q ∈ ladlePorts w ∧ q ≠ p := by
  rw [ladleCopies, entryPrunes, if_pos h]
  simp

theorem mem_ladleCopies_lag (s : State) {w : List Nat} {p g : Nat} (h : (w.getD 3 0).testBit 30 = true) :
    Dest.lag g ∈ ladleCopies s w p ↔ g ∈ ladleLags w ∧ memberOf s g p = none := by
  rw [ladleCopies, entryPrunes, if_pos h]
  simp

/-! The windows of the latency-locked queue. -/

theorem lldReserve_next {s : State} {p : Nat} {k : Pkt} {f : Frame} {w : LlInfo} (hn : nextReserve s p = some k)
    (hf : frameOf s k.fid = some f) (hw : k.ll = some w) :
    lldReserve s p = if w.state = .late then reserveLate s k f w else reserveAt s k f w := by
  simp only [lldReserve, hn, hf, hw]

theorem windowOpen_due {s : State} {p : Nat} {k : Pkt} {f : Frame} {w : LlInfo} (ecc : Option EccFault)
    (hd : windowDue s p = some k) (hf : frameOf s k.fid = some f) (hw : k.ll = some w) :
    windowOpen s p ecc =
      if !portUp s p then lldDrop s k 6 5
      else if !pktComplete s k then lldMiss s k w 11
      else if typeEff s p = 13 && !trunkCredit s p f.tc then lldMiss s k w 12
      else if typeEff s p = 13 && recordOpen s p f.tc then lldMiss s k w 10
      else withEcc s ecc k true fun s => windowStart s k f w := by
  simp only [windowOpen, hd, hf, hw]

theorem withEcc_uncorrectable_ll (s : State) (k : Pkt) (next : State → State) :
    withEcc s (some .uncorrectable) k true next = lldDrop (qmEvent (s.add64 A.QM_CRU_UE_LO 1) 16) k 11 8 := by
  rw [withEcc, eccDrop, if_pos rfl, eccLost]

end Sys2Proof.Machine

namespace Sys2Proof.Proofs
open Sys2Proof.Machine

/-- Settles O45: a Ladle word is staged or committed by its place, and each of the other commands is a step of its island
whose branches the hypotheses choose. -/
theorem ladleAndLldCommands : Obligations.LadleAndLldCommands := by
  refine ⟨?stage, ?commit, ?enter, ?replicates, ?prunes, ?reserve, ?window, ?expire⟩
  case stage =>
    intro s r i w v hl
    have hend : Ends (.ladleGroupStage r i w v) s
        (writePlain (heard s r 1) r (A.TBL_LADLE i.val w.val) (A.TBL_LADLE i.val w.val) (v.toNat % 2 ^ 32) false) :=
      ends_writeRw rfl hl (by simp only [A.TBL_LADLE]; omega) (rowOf_ladle i.isLt (by omega)) rfl
    rw [Nat.mod_eq_of_lt v.isLt, writePlain_does false ((writeEffect_ladle _ r v.toNat i.isLt (by omega)).trans
      (if_neg (by omega)))] at hend
    have hkeeps {α : Type} {f : State → α} (hf : ∀ (u : State) m, f { u with staged := m } = f u) :=
      (stageWord_keeps (heard s r 1) r A.TBL_LADLE hf 3 i.val w.val v.toNat).1
    refine hend.endsWith_of ⟨?_, ?_, ?_, ?_⟩ fun _ _ _ h => h
    · rw [stagedWord_stageWord, Nat.mod_eq_of_lt v.isLt]
    · exact stageOf_stageWord _ r _ _ (fun j hj h => absurd (ladle_injective 0 3 j h) (by omega)) w.isLt (by omega)
    · exact (regsKept_heard s r 1).trans (regsKept_of_regs _ (hkeeps (f := State.regs) fun _ _ => rfl))
    · exact fun b x => (hkeeps (f := fun s => s.bankByte b x) fun _ _ => rfl).trans (banksKept_heard s r 1 b x)
  case commit =>
    intro s r i v hl ws
    have hend : Ends (.ladleGroupCommit r i v) s
        (writePlain (heard s r 1) r (A.TBL_LADLE i.val 3) (A.TBL_LADLE i.val 3) (v.toNat % 2 ^ 32) false) :=
      ends_writeRw rfl hl (by simp only [A.TBL_LADLE]; omega) (rowOf_ladle i.isLt (by omega)) rfl
    rw [Nat.mod_eq_of_lt v.isLt] at hend
    obtain ⟨htakes, hrefuses⟩ := ends_refuseIf hend ((writeEffect_ladle _ r v.toNat i.isLt (by decide)).trans (if_pos rfl))
    refine ⟨fun hok => (htakes hok).endsWith_of (t := ladleCommitted (heard s r 1) r i.val ws) ⟨fun j hj => ?_, ?_, ?_⟩
      fun _ _ _ h => h, hrefuses⟩
    · exact rd_ladleCommitted _ r _ ws hj
    · exact ((regsKept_heard s r 1).mono fun a ha => (Bool.or_eq_false_iff.1 ha).2).trans
        ((ladleCommitted_regsKept _ r i.val ws).mono fun a ha => (Bool.or_eq_false_iff.1 ha).1)
    · exact fun b x => (ladleCommitted_banksKept _ r i.val ws b x).trans (banksKept_heard s r 1 b x)
  case enter =>
    intro s k i hroom
    exact if_neg (Nat.not_le.2 hroom)
  case replicates =>
    intro s k f w l hrun hfifo hloc hf
    have hend {t : State} (ht : replicate s = t) : Ends .ladleReplicate s t := ends_onIsland (f := replicate) rfl hrun ht
    exact ⟨fun hv => hend (replicate_invalid hfifo hloc hf hv),
      fun hv => ⟨fun he => hend (replicate_empty hfifo hloc hf hv he),
        fun he hll => hend (replicate_copies hfifo hloc hf hv he hll)⟩⟩
  case prunes =>
    intro s w p hprune
    exact ⟨fun h => ((mem_ladleCopies_port s hprune).1 h).2 rfl, fun g h => ((mem_ladleCopies_lag s hprune).1 h).2,
      fun q hq => (mem_ladleCopies_port s hprune).trans (and_iff_left hq)⟩
  case reserve =>
    intro s p k f w hrun hn hf hw
    have hend {t : State} (ht : lldReserve s p.val = t) : Ends (.lldReserve p) s t :=
      ends_onIsland (f := fun s => lldReserve s p.val) rfl hrun ht
    exact ⟨fun h => hend ((lldReserve_next hn hf hw).trans (if_pos h)),
      fun h => hend ((lldReserve_next hn hf hw).trans (if_neg h))⟩
  case window =>
    intro s p k f w ecc hrun hd hf hw
    have hend {e : Option EccFault} {t : State} (ht : windowOpen s p.val e = t) : Ends (.lldWindowStart p e) s t :=
      ends_onEgress (f := fun s => windowOpen s p.val e) rfl hrun ht
    have hopen := fun e => windowOpen_due e hd hf hw
    refine ⟨fun hup => hend ?_, fun hup hc => hend ?_, fun hup hc hready => ?_, fun hup hc ht hcr => hend ?_,
      fun hup hc ht hcr hrec => hend ?_⟩
    · simp [hopen, hup]
    · simp [hopen, hup, hc]
    · have hstart : ∀ e, windowOpen s p.val e = withEcc s e k true fun s => windowStart s k f w := fun e => by
        by_cases ht : typeEff s p.val = 13
        · obtain ⟨hcr, hrec⟩ := hready ht
          simp [hopen, hup, hc, hcr, hrec]
        · simp [hopen, hup, hc, ht]
      exact ⟨hend ((hstart none).trans (withEcc_none s k true _)), hend ((hstart _).trans (withEcc_single s k true _)),
        hend ((hstart _).trans (withEcc_uncorrectable_ll s k _))⟩
    · simp [hopen, hup, hc, ht, hcr]
    · simp [hopen, hup, hc, ht, hcr, hrec]
  case expire =>
    intro s p hrun
    exact ends_onIsland (f := fun s => lldExpire s p.val) rfl hrun rfl

end Sys2Proof.Proofs
end

section
/-! LAG groups and the Riser: where their registers stand, what writes of them do, holds and members, and the numbers that
arrive or time out (R274 to R288). -/

namespace Sys2Proof.Machine

/-! Where the registers stand. -/

/-- The rows of the groups' registers. -/
def grpCfgRow : RegRow := ⟨0x0, 32, 0x80, 1, 0x4, .rw, 0xc0ff0fff, 0x780000, false, false⟩
def grpCtrlRow : RegRow := ⟨0x8, 32, 0x80, 1, 0x4, .wo, 0x1, 0x0, false, false⟩
def grpMemRow : RegRow := ⟨0x40, 32, 0x80, 16, 0x4, .rw, 0xc000003f, 0x0, false, false⟩

theorem grpRows : ∀ g < 32, rowOf (A.SPR_GRP_CFG g) = some grpCfgRow ∧ rowOf (A.SPR_GRP_CTRL g) = some grpCtrlRow ∧
    ∀ m < 16, rowOf (A.SPR_GRP_MEM g m) = some grpMemRow := by decide +kernel

/-- The row of the Riser's contexts. -/
def riserCfgRow : RegRow := ⟨0x10000, 4096, 0x10, 1, 0x4, .rw, 0xff0003ff, 0x32, false, false⟩

theorem rowOf_riserCfg {c : Nat} (h : c < 4096) : rowOf (A.RSQ_CTX_CFG c) = some riserCfgRow := by
  have hc : riserCfgRow.covers (0x10000 + 0x10 * c) = true := by
    refine (RegRow.covers_iff _ _).2 ⟨Nat.le_add_right _ _, ?_⟩
    rw [show 0x10000 + 0x10 * c - riserCfgRow.off = 0x10 * c from Nat.add_sub_cancel_left _ _]
    exact ⟨show 0x10 * c / 0x10 < 4096 by omega, show 0x10 * c % 0x10 / 4 < 1 by omega, show 0x10 * c % 0x10 % 4 = 0 by omega⟩
  have hrow : rowOf (0x3c0000 + 0 * 0x40000 + (0x10000 + 0x10 * c)) = rowsRSQ.find? (·.covers (0x10000 + 0x10 * c)) :=
    rowOf_of_index (n := 17) (b := ⟨0x3c0000, 0x40000, 0x40000, rowsRSQ⟩) rfl (by decide)
      (show 0x10000 + 0x10 * c < 0x40000 by omega) (show 0 * 0x40000 + (0x10000 + 0x10 * c) < 0x40000 by omega)
  rw [show A.RSQ_CTX_CFG c = 0x3c0000 + 0 * 0x40000 + (0x10000 + 0x10 * c) by simp only [A.RSQ_CTX_CFG]; omega, hrow]
  exact find_row (n := 30) rfl (by decide) (Nat.le_add_right _ _) hc

/-! What a write of them does. -/

theorem entryOf_between {a base stride : Nat} (n : Nat) (h : (a - base) % stride ≠ 0) : entryOf a base stride n = none :=
  if_neg fun ⟨_, _, hz⟩ => h hz

theorem entryOf_above {a base stride n : Nat} (h : base + stride * n ≤ a) : entryOf a base stride n = none :=
  if_neg fun ⟨_, hlt, _⟩ => absurd hlt (Nat.not_lt.2 h)

theorem writeEffect_spr (s : State) (r : Req) {a : Nat} (v : Nat) (h : 0x3c0000 ≤ a) (h' : a < 0x400000) :
    writeEffect s r a v = writeSpr s a v := by
  rw [writeEffect]
  repeat rw [if_neg (by omega)]
  rw [if_pos h']

section Effects
variable (s : State) (r : Req) (v : Nat)

theorem writeEffect_grpCfg {g : Nat} (hg : g < 32) : writeEffect s r (A.SPR_GRP_CFG g) v = writeGroup s g v := by
  have hentry : entryOf (A.SPR_GRP_CFG g) (A.SPR_GRP_CFG 0) 0x80 32 = some g := entryOf_member (A.SPR_GRP_CFG 0) (by decide) hg
  rw [writeEffect_spr s r v (by simp only [A.SPR_GRP_CFG]; omega) (by simp only [A.SPR_GRP_CFG]; omega), writeSpr, hentry]

theorem writeEffect_grpCtrl {g : Nat} (hg : g < 32) :
    writeEffect s r (A.SPR_GRP_CTRL g) v = .does (if v.testBit 0 then restartFlows s g else s) := by
  have hentry : entryOf (A.SPR_GRP_CTRL g) (A.SPR_GRP_CTRL 0) 0x80 32 = some g :=
    entryOf_member (A.SPR_GRP_CTRL 0) (by decide) hg
  rw [writeEffect_spr s r v (by simp only [A.SPR_GRP_CTRL]; omega) (by simp only [A.SPR_GRP_CTRL]; omega), writeSpr,
    entryOf_between 32 (by simp only [A.SPR_GRP_CTRL, A.SPR_GRP_CFG]; omega), hentry]

theorem writeEffect_grpMem {g m : Nat} (hg : g < 32) (hm : m < 16) :
    writeEffect s r (A.SPR_GRP_MEM g m) v = writeMember s g m v := by
  have hentry : entryOf2 (A.SPR_GRP_MEM g m) (A.SPR_GRP_MEM 0 0) 0x80 32 4 16 = some (g, m) := entryOf2_word hg hm (by decide)
  rw [writeEffect_spr s r v (by simp only [A.SPR_GRP_MEM]; omega) (by simp only [A.SPR_GRP_MEM]; omega), writeSpr,
    entryOf_between 32 (by simp only [A.SPR_GRP_MEM, A.SPR_GRP_CFG]; omega),
    entryOf_between 32 (by simp only [A.SPR_GRP_MEM, A.SPR_GRP_CTRL]; omega), hentry]

theorem writeEffect_riserCfg {c : Nat} (hc : c < 4096) : writeEffect s r (A.RSQ_CTX_CFG c) v = writeCtxCfg s c v := by
  have hentry : entryOf (A.RSQ_CTX_CFG c) (A.RSQ_CTX_CFG 0) 0x10 4096 = some c :=
    entryOf_member (A.RSQ_CTX_CFG 0) (by decide) hc
  rw [writeEffect_spr s r v (by simp only [A.RSQ_CTX_CFG]; omega) (by simp only [A.RSQ_CTX_CFG]; omega), writeSpr,
    entryOf_above (by simp only [A.RSQ_CTX_CFG, A.SPR_GRP_CFG]; omega),
    entryOf_above (by simp only [A.RSQ_CTX_CFG, A.SPR_GRP_CTRL]; omega),
    entryOf2_above (by decide) (by simp only [A.RSQ_CTX_CFG, A.SPR_GRP_MEM]; omega), hentry]

end Effects

/-! The flows of a group. -/

theorem heard_buf (s : State) (r : Req) (n : Nat) : (heard s r n).buf = s.buf := by
  obtain ⟨m, w, h, -⟩ := heard_shape s r n
  rw [h]

theorem flowOf_restartFlows (s : State) (g h c : Nat) (hc : c < 8) :
    flowOf (restartFlows s g) h c = if h = g then (0, true) else flowOf s h c := by
  have hdiv : (8 * h + c) / 8 = h := by omega
  rw [flowOf, restartFlows, map_get_filter_keys (0, true) (fun a => decide (a / 8 ≠ g))]
  simp only [hdiv, flowOf]
  by_cases hg : h = g <;> simp [hg]

/-! Holds and members. -/

theorem holdEnds_released {s : State} {g b : Nat} {h : MigHold} (hh : holdOf s g b = some h)
    (hm : onMember s g b h.old = false) : holdEnds s g b = releaseHold s g b := by
  simp only [holdEnds, hh, hm, Bool.false_eq_true, if_false]

theorem holdExpires_due {s : State} {g b : Nat} {h : MigHold} (hh : holdOf s g b = some h)
    (hd : s.due (.migration g b) = true) : holdExpires s g b = sprEvent (releaseHold s g b) 4 := by
  rw [holdExpires, hd, hh, Option.isSome_some, Bool.and_self, if_pos rfl]

/-! Numbers at the Riser. -/

/-- The state in which the next number has been taken from the intake, and its copy. -/
def intakeTaken (s : State) (x : Intake) : State :=
  { s with buf := { s.buf with intake := s.buf.intake.erase x, riserTurn := (x.slice + 1) % 4 } }

def intakeCopy (s : State) (x : Intake) : Option Pkt := x.pkt.bind fun n => (intakeTaken s x).buf.pkts.find? fun k => decide (k.id = n)

/-- What the Riser does with a number and its copy. -/
def arriveWith (u : State) (x : Intake) (k : Option Pkt) : State :=
  match k, k.bind fun k => frameOf u k.fid with
  | some k, some f => if f.bad && !badLeaves u x k f then removePkt u k else riserTake u x (some k)
  | _, _ => riserTake u x k

theorem riserArrive_next {s : State} {x : Intake} (hn : nextIntake s = some x) :
    riserArrive s = arriveWith (intakeTaken s x) x (intakeCopy s x) := by
  rw [riserArrive, hn]
  rfl

/-- The copy's frame is bad and does not leave, so that its number is a gap. -/
def copyLost (u : State) (x : Intake) (j : Pkt) : Prop := ∃ f, frameOf u j.fid = some f ∧ f.bad = true ∧ badLeaves u x j f = false

theorem arriveWith_lost {u : State} {x : Intake} {j : Pkt} (h : copyLost u x j) : arriveWith u x (some j) = removePkt u j := by
  obtain ⟨f, hf, hbad, hleaves⟩ := h
  simp only [arriveWith, Option.bind_some, hf, hbad, hleaves, Bool.not_false, Bool.and_self, if_true]

theorem arriveWith_kept {u : State} {x : Intake} {k : Option Pkt} (h : ∀ j, k = some j → ¬copyLost u x j) :
    arriveWith u x k = riserTake u x k := by
  cases k with
  | none => rfl
  | some j =>
    cases hf : frameOf u j.fid with
    | none => simp only [arriveWith, Option.bind_some, hf]
    | some f =>
      have hkept : (f.bad && !badLeaves u x j f) = false := by
        rw [Bool.eq_false_iff]
        intro hlost
        simp only [Bool.and_eq_true, Bool.not_eq_true'] at hlost
        exact h j rfl ⟨f, hf, hlost⟩
      simp only [arriveWith, Option.bind_some, hf, hkept, Bool.false_eq_true, if_false]

theorem riserTake_takes {u : State} {x : Intake} (k : Option Pkt) (h : riserTakes u x = true) :
    riserTake u x k = riserSequence u x.tag.flow x.tag.seq x.tag.rst k (k.elim 0 (pktCells u)) := by
  rw [riserTake, if_pos h]

theorem riserTake_bypasses {u : State} {x : Intake} (h : riserTakes u x = false) :
    riserTake u x none = u.add64 A.RSQ_BYPASS_LO 1 ∧ ∀ j, riserTake u x (some j) = proceed (u.add64 A.RSQ_BYPASS_LO 1) j := by
  have hno : ¬riserTakes u x = true := by rw [h]; exact Bool.false_ne_true
  exact ⟨by rw [riserTake, if_neg hno], fun j => by rw [riserTake, if_neg hno]⟩

theorem riserExpire_oldest {s : State} {c t n : Nat} (ho : oldestHeld s c = some t) (hn : nearest s c [] = some n)
    (ht : t + riserTmo s c * us * nsUnits ≤ tb0 s) (hw : ∀ y ∈ s.buf.intake, y.tag.flow ≠ c) :
    riserExpire s c = rsqEvent (drainAll (gapTo s c n) c) 2 := by
  have htake : ∀ m, takeWaiting c m s = s := fun m => by
    cases m with
    | zero => rfl
    | succ m => exact if_neg (by simpa using hw)
  simp only [riserExpire, htake, ho, hn, if_pos ht]

/-! Writes of a context's configuration. -/

section Context
variable (s : State) (c v : Nat)

theorem writeCtxCfg_enable (hv : v.testBit 31 = true) (hon : s.bit (A.RSQ_CTX_CFG c) 31 = false) :
    writeCtxCfg s c v = .does (riserEnable (takeWord s (A.RSQ_CTX_CFG c) v) c) := by
  have hold : (s.rd (A.RSQ_CTX_CFG c)).testBit 31 = false := hon
  rw [writeCtxCfg]
  simp only [hold, hv, Bool.false_and, Bool.false_eq_true, if_false, if_true]

theorem writeCtxCfg_again (hv : v.testBit 31 = true) (hon : s.bit (A.RSQ_CTX_CFG c) 31 = true) :
    writeCtxCfg s c v = refuseIf (decide (bits (s.rd (A.RSQ_CTX_CFG c)) 29 24 ≠ bits v 29 24))
      (.does (takeWord s (A.RSQ_CTX_CFG c) v)) := by
  have hold : (s.rd (A.RSQ_CTX_CFG c)).testBit 31 = true := hon
  rw [writeCtxCfg]
  simp only [hold, hv, Bool.and_self, if_true]

theorem writeCtxCfg_disable (hv : v.testBit 31 = false) (hon : s.bit (A.RSQ_CTX_CFG c) 31 = true) :
    writeCtxCfg s c v = .does (riserDisable (takeWord s (A.RSQ_CTX_CFG c) v) c) := by
  have hold : (s.rd (A.RSQ_CTX_CFG c)).testBit 31 = true := hon
  rw [writeCtxCfg]
  simp only [hold, hv, Bool.and_false, Bool.false_eq_true, if_false, if_true]

theorem writeCtxCfg_off (hv : v.testBit 31 = false) (hon : s.bit (A.RSQ_CTX_CFG c) 31 = false) :
    writeCtxCfg s c v = .does (takeWord s (A.RSQ_CTX_CFG c) v) := by
  have hold : (s.rd (A.RSQ_CTX_CFG c)).testBit 31 = false := hon
  rw [writeCtxCfg]
  simp only [hold, hv, Bool.and_false, Bool.false_eq_true, if_false]

end Context

/-- The contexts of the Riser do not count the host's writes. -/
theorem countsHost_riserCfg (c : Nat) : countsHost (A.RSQ_CTX_CFG c) = false := by
  rw [countsHost, Bool.and_eq_false_iff, decide_eq_false_iff_not, decide_eq_false_iff_not]
  simp only [A.RSQ_CTX_CFG, A.PMC_CTR_LO, A.PMC_CYC_LO]
  omega

end Sys2Proof.Machine

namespace Sys2Proof.Proofs
open Sys2Proof.Machine

/-- Settles O41: each write is decided by its register's own rules, and each other command is a step of the central island
whose branch the hypotheses choose. -/
theorem spreadAndRiserCommands : Obligations.SpreadAndRiserCommands := by
  refine ⟨?restart, ?group, ?member, ?pin, ?holdEnd, ?holdTimeout, ?out, ?arrival, ?timeout, ?context⟩
  case restart =>
    intro s r g hl
    obtain ⟨-, hrow, -⟩ := grpRows g.val g.isLt
    have hend : Ends (.rstSeq r g) s (restartFlows (heard s r 1) g.val) :=
      ends_writeWo rfl hl (by simp only [A.SPR_GRP_CTRL]; omega) hrow rfl (by decide) (writeEffect_grpCtrl _ r 1 g.isLt)
    have hflow (h c : Nat) (hc : c < 8) := flowOf_restartFlows (heard s r 1) g.val h c hc
    refine hend.endsWith_of ⟨fun c hc => ?_, fun h c hc hne => ?_, ?_, ?_⟩ fun _ _ _ h => h
    · rw [hflow _ c hc, if_pos rfl]
    · rw [hflow _ c hc, if_neg hne, flowOf, flowOf, heard_buf]
    · exact (regsKept_heard s r 1).trans (regsKept_of_regs _ rfl)
    · exact banksKept_heard s r 1
  case group =>
    intro s r g v hl
    obtain ⟨hrow, -, -⟩ := grpRows g.val g.isLt
    have hend := ends_writeRw (c := .lagGroupEnable r g v) (v := v.toNat) rfl hl (by simp only [A.SPR_GRP_CFG]; omega) hrow rfl
    rw [Nat.mod_eq_of_lt v.isLt] at hend
    exact decided_of_refuseIf hend (writeEffect_grpCfg _ r v.toNat g.isLt)
  case member =>
    intro s r g m v hl
    obtain ⟨-, -, hrow⟩ := grpRows g.val g.isLt
    have hend := ends_writeRw (c := .lagMemberWrite r g m v) (v := v.toNat) rfl hl (by simp only [A.SPR_GRP_MEM]; omega)
      (hrow m.val m.isLt) rfl
    rw [Nat.mod_eq_of_lt v.isLt] at hend
    exact decided_of_refuseIf hend (writeEffect_grpMem _ r v.toNat g.isLt m.isLt)
  case pin =>
    intro s r g w v hl
    have hend := ends_writeRw (c := .pinTableWrite r g w v) (v := v.toNat) rfl hl (by simp only [A.TBL_PIN]; omega)
      (rowOf_pin g.isLt w.isLt) rfl
    rwa [Nat.mod_eq_of_lt v.isLt, writePlain_does false (writeEffect_pin _ r v.toNat g.isLt w.isLt)] at hend
  case holdEnd =>
    intro s g b h hrun hh hm
    exact ends_onIsland (f := fun s => holdEnds s g.val b.toNat) rfl hrun (holdEnds_released hh hm)
  case holdTimeout =>
    intro s g b h hrun hh hd
    exact ends_onIsland (f := fun s => holdExpires s g.val b.toNat) rfl hrun (holdExpires_due hh hd)
  case out =>
    intro s g m hrun hm
    exact ends_onIsland (f := fun s => if memberGone s g.val m.val then memberLeaves s g.val m.val else s) rfl hrun (if_pos hm)
  case arrival =>
    intro s x hrun hn u k lost
    have hend {t : State} (ht : arriveWith u x k = t) : Ends .riserFrameArrival s t :=
      ends_onIsland (f := riserArrive) rfl hrun ((riserArrive_next hn).trans ht)
    refine ⟨fun j hk hl => hend ?_, fun hkept => ?_⟩
    · rw [hk]
      exact arriveWith_lost hl
    · have htake : arriveWith u x k = riserTake u x k := arriveWith_kept hkept
      refine ⟨fun ht => hend (htake.trans (riserTake_takes k ht)), fun ht hk => hend (htake.trans ?_),
        fun j ht hk => hend (htake.trans ?_)⟩
      · rw [hk]
        exact (riserTake_bypasses ht).1
      · rw [hk]
        exact (riserTake_bypasses ht).2 j
  case timeout =>
    intro s c t n hrun ho hn ht hw
    exact ends_onIsland (f := fun s => riserExpire s c.val) rfl hrun (riserExpire_oldest ho hn ht hw)
  case context =>
    intro s r c v hl u w on
    have hon : u.bit (A.RSQ_CTX_CFG c.val) 31 = on := bit_heard s r 1 31 (countsHost_riserCfg c.val)
    have hrd : u.rd (A.RSQ_CTX_CFG c.val) = s.rd (A.RSQ_CTX_CFG c.val) := rd_heard s r 1 (countsHost_riserCfg c.val)
    have h4 : A.RSQ_CTX_CFG c.val % 4 = 0 := by simp only [A.RSQ_CTX_CFG]; omega
    have heffect := writeEffect_riserCfg u r v.toNat c.isLt
    have hend {i : Instr} (hi : exec i s = done s (write32 s r (A.RSQ_CTX_CFG c.val) v.toNat)) :
        Ends i s (writePlain u r (A.RSQ_CTX_CFG c.val) (A.RSQ_CTX_CFG c.val) v.toNat false) := by
      have h := ends_writeRw hi hl h4 (rowOf_riserCfg c.isLt) rfl
      rwa [Nat.mod_eq_of_lt v.isLt] at h
    have hdoes {i : Instr} {t : State} (hi : exec i s = done s (write32 s r (A.RSQ_CTX_CFG c.val) v.toNat))
        (ht : writeCtxCfg u c.val v.toNat = .does t) : Ends i s t := by
      have h := hend hi
      rwa [writePlain_does false (heffect.trans ht)] at h
    refine ⟨fun hv ho => hdoes rfl (writeCtxCfg_enable u _ _ hv (hon.trans ho)), fun hv ho => ?_,
      fun hv ho => hdoes rfl (writeCtxCfg_disable u _ _ hv (hon.trans ho)),
      fun hv ho => hdoes rfl (writeCtxCfg_off u _ _ hv (hon.trans ho))⟩
    obtain ⟨htakes, hrefuses⟩ := ends_refuseIf (hend (i := .riserContextEnable r c v) rfl)
      (heffect.trans (writeCtxCfg_again u _ _ hv (hon.trans ho)))
    rw [hrd] at htakes hrefuses
    exact ⟨fun hsame => htakes (decide_eq_false (not_not.2 hsame)), fun hdiff => hrefuses (decide_eq_true hdiff)⟩

end Sys2Proof.Proofs
end

section
/-! Assay: what each of its commands does in the case that a statement names (R313 to R337), and the writes of its
registers and of its source table. -/

namespace Sys2Proof.Machine

theorem ends_onEngine {c : Instr} {s t : State} {f : State → State} (hc : exec c s = onEngine s f)
    (h : s.islandRuns 4 = true) (hs : inSleep s = false) (ht : f s = t) : Ends c s t :=
  ends_of_exec (by rw [hc, onEngine_on h hs, ht])

/-! Intake. -/

/-- The frame at the head of a slice's intake has been taken. -/
def frameTaken (s : State) (f : AsyFrame) : State := putAsy s { s.asy with frames := s.asy.frames.erase f }

section Intake
variable {s : State} {e : Nat} {f : AsyFrame} (hf : (s.asy.frames.find? fun f => decide (f.slice = e)) = some f)
include hf

theorem intakeFrame_bad (h : s.bit A.ASY_CFG 31 = false ∨ f.prim = false) :
    intakeFrame s e = asyEvent ((frameTaken s f).add64 A.ASY_BAD_FRAME_LO 1) 1 := by
  have hbad : (!(frameTaken s f).bit A.ASY_CFG 31 || !f.prim) = true := by
    change (!s.bit A.ASY_CFG 31 || !f.prim) = true
    rcases h with h | h <;> simp [h]
  rw [intakeFrame, hf]
  exact if_pos hbad

theorem intakeFrame_good {x : L2} (hen : s.bit A.ASY_CFG 31 = true) (hp : f.prim = true)
    (hx : parseL2 (toNats f.bytes) = .ok x) :
    intakeFrame s e = unpack f ((toNats f.bytes).take ((toNats f.bytes).length - 4)) (x.at_ + 2) 15 0 (frameTaken s f) := by
  have hgood : ¬(!(frameTaken s f).bit A.ASY_CFG 31 || !f.prim) = true := by
    change ¬(!s.bit A.ASY_CFG 31 || !f.prim) = true
    simp [hen, hp]
  rw [intakeFrame, hf]
  refine (if_neg hgood).trans ?_
  simp only [hx]
  rfl

end Intake

/-! Memberships. -/

/-- The membership at the head of a slice's FIFO has been taken. -/
def memTaken (s : State) (x : AsyMem) : State := putAsy s { s.asy with fifo := s.asy.fifo.erase x }

/-- The record that a membership stores on slice `e`. -/
def memRecord (u : State) (e : Nat) (x : AsyMem) : AsyHist :=
  ⟨e, x.c, 0, recTime u x.c x.r, x.r.chan, x.veto, x.slot, x.r.amp, x.weight, recFlagged u x.c x.r, x.r.user⟩

section Membership
variable {s : State} {e : Nat} {x : AsyMem} (hx : (s.asy.fifo.find? fun x => decide (x.e = e)) = some x)
include hx

theorem membership_off (hen : ctxEn (memTaken s x) x.c = false) : membership s e = memTaken s x := by
  rw [membership, hx]
  exact if_pos (congrArg (!·) hen)

variable (hen : ctxEn (memTaken s x) x.c = true)
include hen

theorem membership_ignored (hf : recFlagged (memTaken s x) x.c x.r = true) (hi : (memTaken s x).bit (A.ASY_CTX_CFG x.c) 22 = true)
    (ht : x.twin = false) : membership s e = (memTaken s x).add64 (A.ASY_CTX_IGNORED_LO x.c) 1 := by
  have hon : ¬(!ctxEn (memTaken s x) x.c) = true := by simp [hen]
  have hig : (recFlagged (memTaken s x) x.c x.r && (memTaken s x).bit (A.ASY_CTX_CFG x.c) 22) = true := by simp [hf, hi]
  rw [membership, hx]
  exact (if_neg hon).trans ((if_pos hig).trans (if_neg (by simp [ht])))

variable (hplain : ¬(recFlagged (memTaken s x) x.c x.r = true ∧ (memTaken s x).bit (A.ASY_CTX_CFG x.c) 22 = true))
include hplain

theorem membership_late (hl : recTime (memTaken s x) x.c x.r + ctxClose (memTaken s x) x.c < tb0 (memTaken s x))
    (ht : x.twin = false) :
    membership s e = ctxEvent (mark ((memTaken s x).add64 (A.ASY_CTX_LATE_LO x.c) 1) x.c (recTime (memTaken s x) x.c x.r) true)
      x.c 4 := by
  have hon : ¬(!ctxEn (memTaken s x) x.c) = true := by simp [hen]
  have hig : ¬(recFlagged (memTaken s x) x.c x.r && (memTaken s x).bit (A.ASY_CTX_CFG x.c) 22) = true := by simpa using hplain
  rw [membership, hx]
  exact (if_neg hon).trans ((if_neg hig).trans ((if_pos hl).trans (if_neg (by simp [ht]))))

theorem membership_stored (hl : tb0 (memTaken s x) ≤ recTime (memTaken s x) x.c x.r + ctxClose (memTaken s x) x.c) :
    (∀ v, storeHist (memTaken s x) (memRecord (memTaken s x) e x) = some v → membership s e = v) ∧
    (storeHist (memTaken s x) (memRecord (memTaken s x) e x) = none → membership s e =
      ctxEvent (mark ((memTaken s x).add64 (A.ASY_CTX_HIST_FULL_LO x.c) 1) x.c (recTime (memTaken s x) x.c x.r) false) x.c 8) := by
  have hon : ¬(!ctxEn (memTaken s x) x.c) = true := by simp [hen]
  have hig : ¬(recFlagged (memTaken s x) x.c x.r && (memTaken s x).bit (A.ASY_CTX_CFG x.c) 22) = true := by simpa using hplain
  have hstore : membership s e = match storeHist (memTaken s x) (memRecord (memTaken s x) e x) with
      | some s => s
      | none => ctxEvent (mark ((memTaken s x).add64 (A.ASY_CTX_HIST_FULL_LO x.c) 1) x.c (recTime (memTaken s x) x.c x.r) false) x.c 8 := by
    rw [membership, hx]
    exact (if_neg hon).trans ((if_neg hig).trans (if_neg (Nat.not_lt.2 hl)))
  exact ⟨fun v hv => hstore.trans (by rw [hv]), fun hn => hstore.trans (by rw [hn])⟩

end Membership

/-! Decisions. -/

/-- The copy on which a window of context `c` waits. -/
def copyFor (s : State) (c : Nat) (w : Nat × Nat) : Option AsyCopy :=
  s.asy.copies.find? fun j => decide (j.c = c) && decide (windowSlice s c w = j.e)

/-- A window whose t_dec has come is decided, or found waiting for a copy. -/
def decideOrWait (s : State) (c : Nat) (w : Nat × Nat) : State :=
  match copyFor s c w with
  | none => decideWindow s c w
  | some j =>
    if j.late then s
    else migLate (putAsy s { s.asy with copies := s.asy.copies.map fun i => if i = j then { j with late := true } else i })

section Decision
variable {s : State} {c : Nat} {w : Nat × Nat}
  (hmig : ∀ m, s.asy.mig = some m → m.c = c → tb0 s < m.t + ctxClose s m.c) (hw : nextWindowOf s c = some w)
  (hen : ctxEn s c = true) (hd : w.2 + ctxClose s c ≤ tb0 s)
include hmig hw hen hd

theorem decide1_due : decide1 s c = decideOrWait s c w := by
  have hno : ¬(handoverDue s && (match s.asy.mig with | some m => decide (m.c = c) | none => false)) = true := by
    intro h
    obtain ⟨hdue, hctx⟩ := Bool.and_eq_true_iff.1 h
    cases hm : s.asy.mig with
    | none => rw [hm] at hctx; cases hctx
    | some m =>
      rw [hm] at hctx
      rw [handoverDue, hm] at hdue
      exact absurd (of_decide_eq_true hdue) (Nat.not_le.2 (hmig m hm (of_decide_eq_true hctx)))
  have hdecided : ¬(!ctxEn s c || decide (tb0 s < w.2 + ctxClose s c)) = true := by
    simp [hen, hd]
  unfold decide1
  extract_lets t
  have ht : t = s := if_neg hno
  clear_value t
  subst ht
  simp only [hw]
  exact if_neg hdecided

end Decision

/-! Migration. -/

theorem migCopied_head {s : State} {j : AsyCopy} {l : List AsyCopy} (h : s.asy.copies = j :: l) :
    migCopied s =
      let waited := (openWindows s j.c).any fun w => decide (windowSlice s j.c w = j.e) && decide (w.2 + ctxClose s j.c < tb0 s)
      let w := if waited && !j.late then migLate (runCopy s j) else runCopy s j
      decideDue [j.c] (w.asy.hist.length + 2) w := by
  rw [migCopied, h]

theorem migReached_at {s : State} {m : AsyMig} (hm : s.asy.mig = some m) (hr : m.reached = false) (ht : m.t ≤ tb0 s) :
    migReached s =
      setCtxStat ((putAsy s { s.asy with mig := some { m with reached := true } }).setFld A.ASY_MIG_STAT 31 28 2) m.c 3 m.new := by
  have hno : ¬(m.reached || decide (tb0 s < m.t)) = true := by simp [hr, ht]
  rw [migReached, hm]
  exact if_neg hno

/-! Where the registers stand, and what writes of them do. -/

theorem rowOf_migCtrl : rowOf A.ASY_MIG_CTRL = some ⟨0x110, 1, 0x4, 1, 0x4, .wo, 0x3, 0x0, false, false⟩ := by decide

/-- The row of the contexts' configuration. -/
def ctxCfgRow : RegRow := ⟨0x10000, 256, 0x80, 1, 0x4, .rw, 0xffffe000, 0x0, false, false⟩

theorem rowOf_ctxCfg {c : Nat} (h : c < 256) : rowOf (A.ASY_CTX_CFG c) = some ctxCfgRow := by
  have hc : ctxCfgRow.covers (0x10000 + 0x80 * c) = true := by
    refine (RegRow.covers_iff _ _).2 ⟨Nat.le_add_right _ _, ?_⟩
    rw [show 0x10000 + 0x80 * c - ctxCfgRow.off = 0x80 * c from Nat.add_sub_cancel_left _ _]
    exact ⟨show 0x80 * c / 0x80 < 256 by omega, show 0x80 * c % 0x80 / 4 < 1 by omega, show 0x80 * c % 0x80 % 4 = 0 by omega⟩
  have hrow : rowOf (0x440000 + 0 * 0xc0000 + (0x10000 + 0x80 * c)) = rowsASY.find? (·.covers (0x10000 + 0x80 * c)) :=
    rowOf_of_index (n := 19) (b := ⟨0x440000, 0xc0000, 0xc0000, rowsASY⟩) rfl (by decide)
      (show 0x10000 + 0x80 * c < 0xc0000 by omega) (show 0 * 0xc0000 + (0x10000 + 0x80 * c) < 0xc0000 by omega)
  rw [show A.ASY_CTX_CFG c = 0x440000 + 0 * 0xc0000 + (0x10000 + 0x80 * c) by simp only [A.ASY_CTX_CFG]; omega, hrow]
  exact find_row (n := 33) rfl (by decide) (Nat.le_add_right _ _) hc

theorem writeEffect_asy (s : State) (r : Req) {a : Nat} (v : Nat) (h : 0x440000 ≤ a) (h' : a < 0x800000) :
    writeEffect s r a v = writeAsy s a v := by
  rw [writeEffect]
  repeat rw [if_neg (by omega)]
  rw [if_pos h']

theorem writeEffect_migCtrl (s : State) (r : Req) (v : Nat) : writeEffect s r A.ASY_MIG_CTRL v = writeMigCtrl s v := by
  rw [writeEffect_asy s r v (by decide) (by decide), writeAsy, if_neg (by decide), if_pos rfl]

theorem writeMigCtrl_go (s : State) : writeMigCtrl s 1 = refuseIf (migBad s) (.does (migGo s)) := by
  rw [writeMigCtrl, if_neg (by decide), if_pos (by decide)]

theorem writeMigCtrl_cancel (s : State) : writeMigCtrl s 2 = refuseIf (migCancelBad s) (.does (migCancel s)) := by
  rw [writeMigCtrl, if_neg (by decide), if_neg (by decide), if_pos (by decide)]

theorem writeEffect_ctxCfg (s : State) (r : Req) {c : Nat} (v : Nat) (hc : c < 256) :
    writeEffect s r (A.ASY_CTX_CFG c) v = writeAsyCfg s c v := by
  have hfar : 0x450000 ≤ A.ASY_CTX_CFG c := Nat.le_add_right _ _
  have hidx : (A.ASY_CTX_CFG c - A.ASY_CTX_CFG 0) / 0x80 = c := by simp only [A.ASY_CTX_CFG]; omega
  have hoff : (A.ASY_CTX_CFG c - A.ASY_CTX_CFG 0) % 0x80 = 0 := by simp only [A.ASY_CTX_CFG]; omega
  have hmig : ¬(A.ASY_CTX_CFG c = A.ASY_MIG_CFG ∨ A.ASY_CTX_CFG c = A.ASY_MIG_T_W2 ∨ A.ASY_CTX_CFG c = A.ASY_MIG_T_W1 ∨
      A.ASY_CTX_CFG c = A.ASY_MIG_T_W0) := by simp only [A.ASY_MIG_CFG, A.ASY_MIG_T_W2, A.ASY_MIG_T_W1, A.ASY_MIG_T_W0]; omega
  rw [writeEffect_asy s r v (by omega) (by simp only [A.ASY_CTX_CFG]; omega), writeAsy, if_neg hmig,
    if_neg (by simp only [A.ASY_MIG_CTRL]; omega), if_pos (by simp only [A.ASY_CTX_CFG]; omega), hidx, hoff, writeAsyCtx, if_pos rfl]

section Configuration
variable (s : State) (c v : Nat)

theorem writeAsyCfg_enable (hv : v.testBit 31 = true) (hon : s.bit (A.ASY_CTX_CFG c) 31 = false) :
    writeAsyCfg s c v = refuseIf (ctxEnableBad s c v) (.does (ctxEnable s c v)) := by
  have hold : (s.rd (A.ASY_CTX_CFG c)).testBit 31 = false := hon
  rw [writeAsyCfg]
  simp only [hold, hv, Bool.false_and, Bool.false_eq_true, if_false, if_true]

theorem writeAsyCfg_again (hv : v.testBit 31 = true) (hon : s.bit (A.ASY_CTX_CFG c) 31 = true)
    (hne : s.rd (A.ASY_CTX_CFG c) ≠ v &&& 0xFFFFE000) : writeAsyCfg s c v = .refuse := by
  have hold : (s.rd (A.ASY_CTX_CFG c)).testBit 31 = true := hon
  rw [writeAsyCfg]
  simp only [hold, hv, Bool.and_self, if_true, refuseIf, decide_eq_true hne]

theorem writeAsyCfg_disable (hv : v.testBit 31 = false) (hon : s.bit (A.ASY_CTX_CFG c) 31 = true) :
    writeAsyCfg s c v = .does (ctxDisable s c v) := by
  have hold : (s.rd (A.ASY_CTX_CFG c)).testBit 31 = true := hon
  rw [writeAsyCfg]
  simp only [hold, hv, Bool.and_false, Bool.false_eq_true, if_false, if_true]

end Configuration

/-- The contexts of Assay do not count the host's writes. -/
theorem countsHost_ctxCfg (c : Nat) : countsHost (A.ASY_CTX_CFG c) = false := by
  rw [countsHost, Bool.and_eq_false_iff, decide_eq_false_iff_not, decide_eq_false_iff_not]
  simp only [A.ASY_CTX_CFG, A.PMC_CTR_LO, A.PMC_CYC_LO]
  omega

/-! The words of a source. -/

theorem src_injective (i : Nat) : ∀ j k, A.TBL_SRC i j = A.TBL_SRC i k → j = k := by
  simp only [A.TBL_SRC]
  omega

/-- The eight words of source `i`. -/
def inSource (i a : Nat) : Bool := decide (A.TBL_SRC i 0 ≤ a) && decide (a ≤ A.TBL_SRC i 7)

theorem srcCommit_regsKept (s : State) (i : Nat) (ws : List Nat) : RegsKept s (srcCommit s i ws) (inSource i) := by
  refine writeWords_regsKept s fun j hj => ?_
  rw [inSource, Bool.and_eq_true, decide_eq_true_eq, decide_eq_true_eq, A.TBL_SRC, A.TBL_SRC, A.TBL_SRC]
  omega

end Sys2Proof.Machine

namespace Sys2Proof.Proofs
open Sys2Proof.Machine

/-- Settles O47: each command is a step of the engine whose branches the hypotheses choose, and each write is decided by its
register's own rules. -/
theorem assayCommands : Obligations.AssayCommands := by
  refine ⟨?intake, ?grant, ?membership, ?window, ?source, ?context, ?migration, ?copied, ?handover⟩
  case intake =>
    intro s slice f hrun hs hf u b
    have hend {t : State} (ht : intakeFrame s slice.val = t) : Ends (.assayIntakeFrame slice) s t :=
      ends_onEngine (f := fun s => intakeFrame s slice.val) rfl hrun hs ht
    exact ⟨fun hbad => hend (intakeFrame_bad hf hbad), fun x hen hp hx => hend (intakeFrame_good hf hen hp hx)⟩
  case grant =>
    intro s hrun hs used
    exact ends_onEngine (f := intakeGrant) rfl hrun hs rfl
  case membership =>
    intro s e x hrun hs hx u t ignored plain
    have hend {t : State} (ht : membership s e.val = t) : Ends (.assayMembership e) s t :=
      ends_onEngine (f := fun s => membership s e.val) rfl hrun hs ht
    exact ⟨fun hen => hend (membership_off hx hen),
      fun hen ⟨hf, hi⟩ ht => hend (membership_ignored hx hen hf hi ht),
      fun ⟨hen, hno⟩ hl ht => hend (membership_late hx hen hno hl ht),
      fun v ⟨hen, hno⟩ hl hv => hend ((membership_stored hx hen hno hl).1 v hv),
      fun ⟨hen, hno⟩ hl hn => hend ((membership_stored hx hen hno hl).2 hn)⟩
  case window =>
    intro s c w hrun hs hmig hw hen hd copy
    have hdue := decide1_due hmig hw hen hd
    have hend {t : State} (ht : decide1 s c.val = t) : Ends (.assayDecide c) s t :=
      ends_onEngine (f := fun s => decide1 s c.val) rfl hrun hs ht
    refine ⟨fun hn => hend ?_, fun j hj hl => hend ?_, fun j hj hl => hend ?_⟩
    · rw [hdue, decideOrWait, show copyFor s c.val w = none from hn]
    · rw [hdue, decideOrWait, show copyFor s c.val w = some j from hj]
      exact if_pos hl
    · rw [hdue, decideOrWait, show copyFor s c.val w = some j from hj]
      exact if_neg (by rw [hl]; exact Bool.false_ne_true)
  case source =>
    intro s r i v hl u ws
    have hend := ends_writeRw (c := .assaySourceCommit r i v) (v := v.toNat) rfl hl (by simp only [A.TBL_SRC]; omega)
      (rowOf_src i.isLt (by decide : 7 < 8)) rfl
    rw [Nat.mod_eq_of_lt v.isLt] at hend
    obtain ⟨htakes, hrefuses⟩ := ends_refuseIf hend ((writeEffect_src u r v.toNat i.isLt (by decide)).trans (if_pos rfl))
    have hkeeps {α : Type} {f : State → α} (hf : ∀ (u : State) m, f { u with staged := m } = f u) :=
      (stageWord_keeps (srcCommit u i.val ws) r A.TBL_SRC hf 7 i.val 0 0).2
    refine ⟨fun hok => (htakes hok).endsWith_of ⟨fun j hj => ?_, ?_, fun b x => ?_⟩ fun _ _ _ h => h, hrefuses⟩
    · exact (hkeeps (f := fun s => s.rd (A.TBL_SRC i.val j)) fun _ _ => rfl).trans (rd_writeWords u (src_injective i.val) hj)
    · exact ((regsKept_heard s r 1).mono fun a ha => (Bool.or_eq_false_iff.1 ha).2).trans
        (((srcCommit_regsKept u i.val ws).trans (regsKept_of_regs _ (hkeeps (f := State.regs) fun _ _ => rfl))).mono
          fun a ha => (Bool.or_eq_false_iff.1 ha).1)
    · exact (hkeeps (f := fun s => s.bankByte b x) fun _ _ => rfl).trans
        ((writeWords_banksKept u _ _ 8 b x).trans (banksKept_heard s r 1 b x))
  case context =>
    intro s r c v hl u on
    have hon : u.bit (A.ASY_CTX_CFG c.val) 31 = on := bit_heard s r 1 31 (countsHost_ctxCfg c.val)
    have hrd : u.rd (A.ASY_CTX_CFG c.val) = s.rd (A.ASY_CTX_CFG c.val) := rd_heard s r 1 (countsHost_ctxCfg c.val)
    have hend {i : Instr} (hi : exec i s = done s (write32 s r (A.ASY_CTX_CFG c.val) v.toNat)) :
        Ends i s (writePlain u r (A.ASY_CTX_CFG c.val) (A.ASY_CTX_CFG c.val) v.toNat false) := by
      have h := ends_writeRw hi hl (by simp only [A.ASY_CTX_CFG]; omega) (rowOf_ctxCfg c.isLt) rfl
      rwa [Nat.mod_eq_of_lt v.isLt] at h
    have heffect := writeEffect_ctxCfg u r v.toNat c.isLt
    have henable := hend (i := .assayContextEnable r c v) rfl
    refine ⟨fun hv ho => ?_, fun hv ho => ?_, fun hv ho hne => ?_, fun hv ho => ?_⟩
    · exact (ends_refuseIf henable (heffect.trans (writeAsyCfg_enable u _ _ hv (hon.trans ho)))).1
    · exact (ends_refuseIf henable (heffect.trans (writeAsyCfg_enable u _ _ hv (hon.trans ho)))).2
    · rwa [writePlain_refuse false (heffect.trans (writeAsyCfg_again u _ _ hv (hon.trans ho) (hrd ▸ hne)))] at henable
    · have hoff := hend (i := .assayContextDisable r c v) rfl
      rwa [writePlain_does false (heffect.trans (writeAsyCfg_disable u _ _ hv (hon.trans ho)))] at hoff
  case migration =>
    intro s r hl
    exact ⟨decided_writeWo rfl hl (by decide) rowOf_migCtrl rfl (by decide)
        ((writeEffect_migCtrl _ r 1).trans (writeMigCtrl_go _)),
      decided_writeWo rfl hl (by decide) rowOf_migCtrl rfl (by decide)
        ((writeEffect_migCtrl _ r 2).trans (writeMigCtrl_cancel _))⟩
  case copied =>
    intro s j l hrun hs hj waited u v w
    exact ends_onEngine (f := migCopied) rfl hrun hs (migCopied_head hj)
  case handover =>
    intro s m hrun hs hm
    exact ⟨fun _ => ends_onEngine (f := migHandover) rfl hrun hs rfl,
      fun hr ht => ends_onEngine (f := migReached) rfl hrun hs (migReached_at hm hr ht)⟩

end Sys2Proof.Proofs
end

section
/-! Timed actions: the action whose turn it is takes effect by its KIND, and announcements, reports, origination and the
clearing of EXPECT (R339 to R353). -/

namespace Sys2Proof.Machine

/-! Execution at T. -/

section Execution
variable {s : State} {k : Nat} {x : TacAct} (hx : slotAct s k = some x)
include hx

theorem actIsland_of_slot : actIsland s k = actLoop x := by
  rw [actIsland, hx]
  rfl

theorem executeEntry_turn {kind : Nat} (l : List Nat) (hk : x.kind = kind) (hd : actDue s x = true) (ht : actTurn s x = true) :
    executeEntry s k kind l = doAct s x l := by
  rw [executeEntry, hx]
  exact if_pos ⟨hk, hd, ht⟩

/-- The action takes effect, or waits for a clock of its island. -/
theorem ends_atT {c : Instr} {kind : Nat} {l : List Nat} {t : State} (hc : exec c s = atT s k kind l)
    (hdie : s.power.die = true) (hd : actDue s x = true) (ht : actTurn s x = true) (hk : x.kind = kind)
    (hdo : doAct s x l = t) :
    (loopStopped s (actLoop x) = false → Ends c s (settle t)) ∧ (loopStopped s (actLoop x) = true → Ends c s s) := by
  have hend {t : State} (h : (if loopStopped s (actIsland s k) then s else settle (executeEntry s k kind l)) = t) :
      Ends c s t :=
    ends_onDie (f := fun s => if loopStopped s (actIsland s k) then s else settle (executeEntry s k kind l)) hc hdie h
  rw [actIsland_of_slot hx, executeEntry_turn hx l hk hd ht, hdo] at hend
  exact ⟨fun hl => hend (if_neg (by rw [hl]; exact Bool.false_ne_true)), fun hl => hend (if_pos hl)⟩

end Execution

/-! What an action does, by its KIND. -/

section Kinds
variable {s : State} {x : TacAct} (l : List Nat)

theorem doAct_heatCommit (hk : x.kind = 1) : doAct s x l = doHeatCommit s x l := by rw [doAct, if_pos hk]

theorem doAct_pulse (hk : x.kind = 5) : doAct s x l = doPulse s x := by
  rw [doAct, hk]
  simp

theorem doAct_asleep (hs : inSleep s = true) (h1 : x.kind ≠ 1) (h5 : x.kind ≠ 5) : doAct s x l = endAct s x 4 := by
  rw [doAct, if_neg h1, hs, decide_eq_true h5]
  rfl

variable (hs : inSleep s = false)
include hs

theorem doAct_awake (h1 : x.kind ≠ 1) (h5 : x.kind ≠ 5) :
    doAct s x l =
      if x.kind = 2 then doSnapshot s x
      else if x.kind = 3 then doCounterClear s x
      else if x.kind = 4 then doPortEnable s x
      else if x.kind = 6 then doReset s x
      else if x.kind = 7 then doBarrier s x
      else if x.kind = 8 then doCancel s x
      else s := by
  rw [doAct, if_neg h1, hs, Bool.false_and, if_neg Bool.false_ne_true, if_neg h5]

end Kinds

theorem doBarrier_holds {s : State} {x : TacAct} (h : argNat x 0 1 = 0 ∨ barrierHolds s (argNat x 2 2) (argNat x 4 4) = true) :
    doBarrier s x = endAct s x 0 := by
  have hok : (decide (argNat x 0 1 = 0) || barrierHolds s (argNat x 2 2) (argNat x 4 4)) = true := by simpa using h
  simp only [doBarrier, hok, if_true]

theorem doBarrier_fails {s : State} {x : TacAct} (h : ¬(argNat x 0 1 = 0 ∨ barrierHolds s (argNat x 2 2) (argNat x 4 4) = true)) :
    doBarrier s x = endAct s x 2 := by
  have hok : (decide (argNat x 0 1 = 0) || barrierHolds s (argNat x 2 2) (argNat x 4 4)) = false := by simpa using h
  simp only [doBarrier, hok, Bool.false_eq_true, if_false]

/-! Frames of TAC. -/

section Announcement
variable {s u : State} {p : Nat} {b : List Byte} {d : List Nat} (hr : tacReceive s p b 3 = (u, some d))
include hr

theorem tacAnnounce_bad (hd : readAnnounce d = none) : tacAnnounce s p b = tacBad u := by
  simp only [tacAnnounce, hr, hd]

theorem tacAnnounce_read {x : TacAct} (hd : readAnnounce d = some x) :
    tacAnnounce s p b =
      if upPort u ≠ some p then u.add64 A.TAC_WRONG_PORT_LO 1
      else if (x.orig, x.actId) ∈ u.tac.recent then u.add64 A.TAC_DUP_LO 1
      else acceptAct u { x with hops := x.hops + 1, src := some p } ((byteAt d 1).testBit 2) false false := by
  simp only [tacAnnounce, hr, hd]

end Announcement

/-- The action that a report names. -/
def reportedAct (u : State) (d : List Nat) : Option TacAct :=
  u.tac.acts.reverse.find? fun a => decide ((a.orig, a.actId) = (beAt d 2 2, beAt d 4 2))

section Report
variable {s u : State} {p : Nat} {b : List Byte} {d : List Nat} (hr : tacReceive s p b 5 = (u, some d))
include hr

theorem tacReport_bad (hd : reportOk d = false) : tacReport s p b = tacBad u := by
  simp only [tacReport, hr, hd, Bool.not_false, if_true]

theorem tacReport_found {x : TacAct} (hd : reportOk d = true) (hx : reportedAct u d = some x) :
    tacReport s p b =
      if x.closed && x.report then tacEvent (u.add64 A.TAC_REP_LATE_LO 1) 64
      else if p ∈ x.heard then u.add64 A.TAC_DUP_LO 1
      else if p ∈ x.sent then putAct u (sumReport x p d)
      else u.add64 A.TAC_WRONG_PORT_LO 1 := by
  rw [reportedAct] at hx
  simp only [tacReport, hr, hd, Bool.not_true, Bool.false_eq_true, if_false, hx]

end Report

theorem tacDeadline_due {s : State} {k : Nat} {x : TacAct} (hx : slotAct s k = some x) (hd : reportDue s x = true) :
    tacDeadline s k = closeAct s x := by
  rw [tacDeadline, hx]
  exact if_pos hd

/-! Origination, and EXPECT. -/

theorem guardedEffect_orig (s : State) (r : Req) (v : Nat) :
    guardedEffect s r A.TAC_ORIG_CTRL v = guardedOrig s r A.TAC_ORIG_CTRL v := by
  rw [guardedEffect]
  repeat rw [if_neg (by decide)]
  rw [if_pos rfl]

/-- The register that clears the low or the high half of EXPECT. -/
def expectClrAt (high : Bool) : Nat := if high then A.TAC_EXPECT_CLR_HI else A.TAC_EXPECT_CLR_LO

theorem rowOf_expectClr (high : Bool) : ∃ row, rowOf (expectClrAt high) = some row ∧ row.acc = .wo := by
  cases high
  · exact ⟨_, rfl, rfl⟩
  · exact ⟨_, rfl, rfl⟩

theorem writeEffect_expectClr (s : State) (r : Req) (high : Bool) (v : Nat) :
    writeEffect s r (expectClrAt high) v = .does (settle (expectClear s high v)) := by
  have htac : ∀ a, 0x60000 ≤ a → a < 0x70000 → writeEffect s r a v = writeTac s a v := fun a h h' => by
    rw [writeEffect]
    repeat rw [if_neg (by omega)]
    rw [if_pos h']
  cases high
  · rw [htac _ (by decide) (by decide), writeTac, if_neg (by decide), if_neg (by decide), if_pos (by decide)]
  · rw [htac _ (by decide) (by decide), writeTac, if_neg (by decide), if_neg (by decide), if_neg (by decide), if_pos (by decide)]

end Sys2Proof.Machine

namespace Sys2Proof.Proofs
open Sys2Proof.Machine

/-- Settles O49: the entry's action takes effect by its KIND, and each other command is a step whose branch the hypotheses
choose. -/
theorem timedActionCommands : Obligations.TimedActionCommands := by
  refine ⟨?act, ?announce, ?report, ?deadline, ?originate, ?expect⟩
  case act =>
    intro s k x hdie hx hd ht island runs
    have hruns {kind : Nat} {c : Instr} {l : List Nat} {t : State} (hc : exec c s = atT s k.val kind l)
        (hdo : x.kind = kind → doAct s x l = t) : runs kind c t :=
      fun hk => ends_atT hx hc hdie hd ht hk (hdo hk)
    refine ⟨fun l => hruns (l := l.map Fin.val) rfl fun hk => doAct_heatCommit _ hk, hruns (l := []) rfl fun hk => doAct_pulse _ hk,
      fun hs => ?_, fun hs => ?_⟩
    · have hawake {kind : Nat} {c : Instr} {t : State} (hc : exec c s = atT s k.val kind []) (h1 : kind ≠ 1) (h5 : kind ≠ 5)
          (hdo : (if kind = 2 then doSnapshot s x else if kind = 3 then doCounterClear s x
            else if kind = 4 then doPortEnable s x else if kind = 6 then doReset s x
            else if kind = 7 then doBarrier s x else if kind = 8 then doCancel s x else s) = t) : runs kind c t :=
        hruns hc fun hk => by rw [doAct_awake [] hs (by rwa [hk]) (by rwa [hk]), hk, hdo]
      exact ⟨hawake rfl (by decide) (by decide) rfl, hawake rfl (by decide) (by decide) rfl,
        hawake rfl (by decide) (by decide) rfl, hawake rfl (by decide) (by decide) rfl,
        ⟨fun hok => hawake rfl (by decide) (by decide) (doBarrier_holds hok),
          fun hno => hawake rfl (by decide) (by decide) (doBarrier_fails hno)⟩,
        hawake rfl (by decide) (by decide) rfl⟩
    · have hasleep {kind : Nat} {c : Instr} (hc : exec c s = atT s k.val kind []) (h1 : kind ≠ 1) (h5 : kind ≠ 5) :
          runs kind c (endAct s x 4) := hruns hc fun hk => doAct_asleep [] hs (by rwa [hk]) (by rwa [hk])
      exact ⟨hasleep rfl (by decide) (by decide), hasleep rfl (by decide) (by decide), hasleep rfl (by decide) (by decide),
        hasleep rfl (by decide) (by decide), hasleep rfl (by decide) (by decide), hasleep rfl (by decide) (by decide)⟩
  case announce =>
    intro s u p b d hrun hr
    have hend {t : State} (ht : tacAnnounce s p.val b = t) : Ends (.tacAnnounceRx p b) s (settle t) :=
      ends_onPort_settle (f := fun s => tacAnnounce s p.val b) rfl hrun ht
    refine ⟨fun hbad => hend (tacAnnounce_bad hr hbad), fun x hread => ⟨fun hport => ?_, fun hport hdup => ?_,
      fun hport hnew => ?_⟩⟩
    · exact hend ((tacAnnounce_read hr hread).trans (if_pos hport))
    · exact hend ((tacAnnounce_read hr hread).trans ((if_neg (not_not.2 hport)).trans (if_pos hdup)))
    · exact hend ((tacAnnounce_read hr hread).trans ((if_neg (not_not.2 hport)).trans (if_neg hnew)))
  case report =>
    intro s u p b d hrun hr found
    have hend {t : State} (ht : tacReport s p.val b = t) : Ends (.tacReportRx p b) s (settle t) :=
      ends_onPort_settle (f := fun s => tacReport s p.val b) rfl hrun ht
    refine ⟨fun hbad => hend (tacReport_bad hr hbad), fun x hok hx => ?_⟩
    have hfound := tacReport_found hr hok hx
    have hopen (hc : x.closed = false) : ¬(x.closed && x.report) = true := by simp [hc]
    exact ⟨fun hc hrep => hend (hfound.trans (if_pos (by simp [hc, hrep]))),
      fun hc hdup => hend (hfound.trans ((if_neg (hopen hc)).trans (if_pos hdup))),
      fun hc hnew hsent => hend (hfound.trans ((if_neg (hopen hc)).trans ((if_neg hnew).trans (if_pos hsent)))),
      fun hc hnew hother => hend (hfound.trans ((if_neg (hopen hc)).trans ((if_neg hnew).trans (if_neg hother))))⟩
  case deadline =>
    intro s k x hdie hl hx hd
    exact ends_onDie (f := fun s => if loopStopped s 4 then s else settle (tacDeadline s k.val)) rfl hdie
      ((if_neg (by rw [hl]; exact Bool.false_ne_true)).trans (congrArg settle (tacDeadline_due hx hd)))
  case originate =>
    intro s r v hl u bad
    have hiff : (ownBusy u || (v.toNat.testBit 0 && goBad u v.toNat)) = true ↔ bad := by
      rw [Bool.or_eq_true, Bool.and_eq_true]
    have hend {t : State} (ht : guardedOrig u r A.TAC_ORIG_CTRL v.toNat = t) : Ends (.tacOriginate r v) s t :=
      ends_guardedWrite rfl hl ((guardedEffect_orig u r v.toNat).trans ht)
    exact ⟨fun hbad => hend (if_pos (hiff.2 hbad)), fun hok => hend (if_neg fun h => hok (hiff.1 h))⟩
  case expect =>
    intro s r high v hl
    obtain ⟨row, hrow, hwo⟩ := rowOf_expectClr high
    exact ends_writeWo (a := expectClrAt high) rfl hl (by cases high <;> decide) hrow hwo v.isLt
      (writeEffect_expectClr _ r high v.toNat)

end Sys2Proof.Proofs
end

section
/-! Ingot triggers and slots, interrupt sources, claims, masks and the link (R370 to R384). -/

namespace Sys2Proof.Machine

/-! SNP: writes of CTRL and FREE. -/

theorem rowOf_snpCtrl : rowOf A.SNP_CTRL = some ⟨0x4, 1, 0x4, 1, 0x4, .wo, 0x7, 0x0, false, false⟩ := by decide

theorem rowOf_snpFree (b : Bool) : rowOf (A.SNP_FREE (bit01 b)) = some ⟨0x58, 2, 0x4, 1, 0x4, .wo, 0xffffffff, 0x0, false, false⟩ := by
  cases b <;> decide

theorem writeEffect_snp (s : State) (r : Req) {a : Nat} (v : Nat) (h : 0x40000 ≤ a) (h' : a < 0x50000) :
    writeEffect s r a v = writeSnp s a v := by
  rw [writeEffect]
  repeat rw [if_neg (by omega)]
  rw [if_pos h']

theorem writeEffect_snpCtrl (s : State) (r : Req) (v : Nat) : writeEffect s r A.SNP_CTRL v = .does (snpCtrl s v) := by
  rw [writeEffect_snp s r v (by decide) (by decide), writeSnp, if_neg (by decide), if_pos rfl]

theorem writeEffect_snpFree (s : State) (r : Req) (b : Bool) (v : Nat) :
    writeEffect s r (A.SNP_FREE (bit01 b)) v = .does (snpFree s b v) := by
  cases b
  · rw [writeEffect_snp s r v (by decide) (by decide), writeSnp, if_neg (by decide), if_neg (by decide), if_pos (by decide)]
  · rw [writeEffect_snp s r v (by decide) (by decide), writeSnp, if_neg (by decide), if_neg (by decide), if_neg (by decide),
      if_pos (by decide)]

/-- The words of CTRL that trigger, arm and disarm. -/
theorem snpCtrl_words (s : State) : snpCtrl s 1 = (trigger s 1 0 (tb0 s)).1 ∧ snpCtrl s 2 = snpArm s ∧
    snpCtrl s 4 = s.setBit A.SNP_STAT 27 false := by
  have hword (v : Nat) {b0 b1 b2 : Bool} (h0 : v.testBit 0 = b0) (h1 : v.testBit 1 = b1) (h2 : v.testBit 2 = b2)
      (hone : (b1 && b2) = false) :
      snpCtrl s v =
        let t := if b0 then snpTrig s else s
        if b1 then snpArm t else if b2 then snpDisarm t else t := by
    subst h0 h1 h2
    simp only [snpCtrl, hone, Bool.false_eq_true, if_false]
  have htrig := hword 1 (b0 := true) (b1 := false) (b2 := false) rfl rfl rfl rfl
  have harm := hword 2 (b0 := false) (b1 := true) (b2 := false) rfl rfl rfl rfl
  have hdisarm := hword 4 (b0 := false) (b1 := false) (b2 := true) rfl rfl rfl rfl
  simp only [if_true, Bool.false_eq_true, if_false, snpTrig, snpDisarm] at htrig harm hdisarm
  exact ⟨htrig, harm, hdisarm⟩

/-- The trigger that fires at AT. -/
theorem snpFire_eq (s : State) :
    snpFire s = (trigger (s.setBit A.SNP_STAT 27 false) 4 (s.rd A.SNP_AT_TAG) (s.rdTime A.SNP_AT_W2)).1 := by
  conv => lhs; fun; delta snpFire

theorem snpReached_due {s : State} (h : s.bit A.SNP_STAT 27 = true) (ht : s.rdTime A.SNP_AT_W2 ≤ tb0 s) :
    snpReached s = snpFire s := by
  rw [snpReached, h, decide_eq_true ht, Bool.and_self, if_pos rfl]

/-! The slots of the store. -/

/-- A slot is filled or freed, and no other is. -/
theorem slotBit_setSlot (s : State) {j k : Nat} (v : Bool) :
    slotBit (setSlot s j v) A.SNP_VALID k = if k = j then v else slotBit s A.SNP_VALID k := by
  have hstat : A.SNP_VALID (k / 32) ≠ A.SNP_STAT := by simp only [A.SNP_VALID, A.SNP_STAT]; omega
  have hset : slotBit (setSlot s j v) A.SNP_VALID k = (s.setBit (A.SNP_VALID (j / 32)) (j % 32) v).bit (A.SNP_VALID (k / 32)) (k % 32) := by
    rw [slotBit, setSlot, State.bit, rd_setFld_ne _ _ _ _ hstat, State.bit]
  rw [hset, slotBit]
  by_cases hw : k / 32 = j / 32
  · rw [hw]
    by_cases hb : k % 32 = j % 32
    · rw [hb, if_pos (by omega)]
      cases v
      · exact bit_setBit_false s _ _
      · exact bit_setBit_true s _ (by omega)
    · rw [bit_setBit_ne s _ v (by omega) hb, if_neg (by rintro rfl; exact hb rfl)]
  · have hne : A.SNP_VALID (k / 32) ≠ A.SNP_VALID (j / 32) := by simp only [A.SNP_VALID]; omega
    rw [State.bit, rd_setBit_ne s _ v hne, if_neg (by rintro rfl; exact hw rfl), State.bit]

theorem slotBit_freeSlots {base k : Nat} (l : List Nat) (s : State) :
    slotBit (l.foldl (fun s i => setSlot s (base + i) false) s) A.SNP_VALID k =
      (slotBit s A.SNP_VALID k && !(l.any fun i => decide (k = base + i))) := by
  induction l generalizing s with
  | nil => simp
  | cons i l ih =>
    rw [List.foldl_cons, ih, slotBit_setSlot s false, List.any_cons]
    by_cases h : k = base + i <;> simp [h]

/-- The slots that a word of FREE names. -/
theorem any_bitsSet_slot (b : Bool) (v k : Nat) :
    ((bitsSet v 32).any fun i => decide (k = 32 * bit01 b + i)) = (decide (k / 32 = bit01 b) && v.testBit (k % 32)) := by
  rw [Bool.eq_iff_iff, List.any_eq_true, Bool.and_eq_true, decide_eq_true_eq]
  constructor
  · rintro ⟨i, hi, hk⟩
    obtain ⟨hlt, hset⟩ := mem_bitsSet.1 hi
    have hk := of_decide_eq_true hk
    exact ⟨by omega, by rwa [show k % 32 = i by omega]⟩
  · rintro ⟨hdiv, hset⟩
    exact ⟨k % 32, mem_bitsSet.2 ⟨Nat.mod_lt _ (by decide), hset⟩, decide_eq_true (by omega)⟩

theorem snpFree_regsKept (s : State) (b : Bool) (v : Nat) :
    RegsKept s (snpFree s b v) (fun a => decide (a = A.SNP_VALID (bit01 b)) || decide (a = A.SNP_STAT)) := by
  refine regsKept_foldl _ (fun u i hi => ?_) s
  have hdiv : (32 * bit01 b + i) / 32 = bit01 b := by
    have := (mem_bitsSet.1 hi).1
    omega
  refine (regsKept_setBit u _ _ ?_).trans (regsKept_setFld _ _ _ _ (by simp))
  rw [hdiv]
  simp

theorem snpFree_banksKept (s : State) (b : Bool) (v : Nat) : BanksKept s (snpFree s b v) :=
  banksKept_of_eq (foldl_keeps (f := State.mem) (fun _ _ => (setFld_mem _ _ _ _ _).trans (setBit_mem _ _ _ _)) _ s)
    (foldl_keeps (f := State.banks) (fun _ _ => (setFld_banks _ _ _ _ _).trans (setBit_banks _ _ _ _)) _ s)

/-! Interrupt sources and targets: where their registers stand, and what writes of them do. -/

theorem rowOf_swset : rowOf A.INT_SWSET = some ⟨0x10, 1, 0x4, 1, 0x4, .wo, 0x3ff, 0x0, false, false⟩ := by decide

theorem targetRows : ∀ t < 35,
    rowOf (A.INT_T_CLAIM t) = some ⟨0x108, 35, 0x10, 1, 0x4, .wo, 0x3ff, 0x0, false, false⟩ ∧
    rowOf (A.INT_T_EOI t) = some ⟨0x10c, 35, 0x10, 1, 0x4, .wo, 0x3ff, 0x0, false, false⟩ := by decide +kernel

/-- The row of the sources' registers. -/
def sourceRow : RegRow := ⟨0x1000, 1024, 0x4, 1, 0x4, .rw, 0xc00f003f, 0x10000, false, false⟩

theorem rowOf_source {i : Nat} (h : i < 1024) : rowOf (A.INT_SRC i) = some sourceRow := by
  have hc : sourceRow.covers (0x1000 + 4 * i) = true := by
    refine (RegRow.covers_iff _ _).2 ⟨Nat.le_add_right _ _, ?_⟩
    rw [show 0x1000 + 4 * i - sourceRow.off = 4 * i from Nat.add_sub_cancel_left _ _]
    exact ⟨show 4 * i / 4 < 1024 by omega, show 4 * i % 4 / 4 < 1 by omega, show 4 * i % 4 % 4 = 0 by omega⟩
  have hrow : rowOf (0x20000 + 0 * 0x10000 + (0x1000 + 4 * i)) = rowsINT.find? (·.covers (0x1000 + 4 * i)) :=
    rowOf_of_index (n := 2) (b := ⟨0x20000, 0x10000, 0x10000, rowsINT⟩) rfl (by decide)
      (show 0x1000 + 4 * i < 0x10000 by omega) (show 0 * 0x10000 + (0x1000 + 4 * i) < 0x10000 by omega)
  rw [show A.INT_SRC i = 0x20000 + 0 * 0x10000 + (0x1000 + 4 * i) by simp only [A.INT_SRC]; omega, hrow]
  exact find_row (n := 7) rfl (by decide) (Nat.le_add_right _ _) hc

section Effects
variable (s : State) (r : Req) (v : Nat)

theorem writeEffect_int {a : Nat} (h : 0x20000 ≤ a) (h' : a < 0x30000) : writeEffect s r a v = writeInt s r a v := by
  rw [writeEffect]
  repeat rw [if_neg (by omega)]
  rw [if_pos h']

theorem writeEffect_swset : writeEffect s r A.INT_SWSET v = softRaise s r v := by
  rw [writeEffect_int s r v (by decide) (by decide), writeInt, if_pos rfl]

theorem writeEffect_source {i : Nat} (hi : i < 1024) : writeEffect s r (A.INT_SRC i) v = writeSrc s r i v := by
  have hentry : entryOf (A.INT_SRC i) (A.INT_SRC 0) 4 1024 = some i := entryOf_member (A.INT_SRC 0) (by decide) hi
  rw [writeEffect_int s r v (by simp only [A.INT_SRC]; omega) (by simp only [A.INT_SRC]; omega), writeInt,
    if_neg (by simp only [A.INT_SRC, A.INT_SWSET]; omega), hentry]

theorem writeEffect_claim {t : Nat} (ht : t < 35) : writeEffect s r (A.INT_T_CLAIM t) v = writeClaim s r t v := by
  have hentry : entryOf (A.INT_T_CLAIM t) (A.INT_T_CLAIM 0) 0x10 35 = some t := entryOf_member (A.INT_T_CLAIM 0) (by decide) ht
  rw [writeEffect_int s r v (by simp only [A.INT_T_CLAIM]; omega) (by simp only [A.INT_T_CLAIM]; omega), writeInt,
    if_neg (by simp only [A.INT_T_CLAIM, A.INT_SWSET]; omega), entryOf_below _ _ (by simp only [A.INT_T_CLAIM, A.INT_SRC]; omega),
    entryOf_between 35 (by simp only [A.INT_T_CLAIM, A.INT_T_CFG]; omega), hentry]

theorem writeEffect_eoi {t : Nat} (ht : t < 35) : writeEffect s r (A.INT_T_EOI t) v = writeEoi s r t v := by
  have hentry : entryOf (A.INT_T_EOI t) (A.INT_T_EOI 0) 0x10 35 = some t := entryOf_member (A.INT_T_EOI 0) (by decide) ht
  rw [writeEffect_int s r v (by simp only [A.INT_T_EOI]; omega) (by simp only [A.INT_T_EOI]; omega), writeInt,
    if_neg (by simp only [A.INT_T_EOI, A.INT_SWSET]; omega), entryOf_below _ _ (by simp only [A.INT_T_EOI, A.INT_SRC]; omega),
    entryOf_between 35 (by simp only [A.INT_T_EOI, A.INT_T_CFG]; omega),
    entryOf_between 35 (by simp only [A.INT_T_EOI, A.INT_T_CLAIM]; omega), hentry]

end Effects

/-! The host's masks and its link. -/

theorem msixRows : ∀ n < 32, rowOf (A.HOST_MSIX_CTL n) = some ⟨0x800c, 32, 0x10, 1, 0x4, .rw, 0x1, 0x1, false, false⟩ := by
  decide +kernel

theorem writeEffect_host (s : State) (r : Req) {a : Nat} (v : Nat) (h : 0x70000 ≤ a) (h' : a < 0x80000) :
    writeEffect s r a v = writeHost s r a v := by
  rw [writeEffect]
  repeat rw [if_neg (by omega)]
  rw [if_pos h']

theorem writeEffect_msix (s : State) (r : Req) {n : Nat} (v : Nat) (hn : n < 32) :
    writeEffect s r (A.HOST_MSIX_CTL n) v = .does (writeMask s (some n) (v.testBit 0)) := by
  have hfar : 0x78000 ≤ A.HOST_MSIX_CTL n := by simp only [A.HOST_MSIX_CTL]; omega
  have habove : ∀ base stride n', base + stride * n' ≤ 0x78000 → entryOf (A.HOST_MSIX_CTL n) base stride n' = none :=
    fun _ _ _ hb => entryOf_above (hb.trans hfar)
  have hentry : entryOf (A.HOST_MSIX_CTL n) (A.HOST_MSIX_CTL 0) 0x10 32 = some n := entryOf_member (A.HOST_MSIX_CTL 0) (by decide) hn
  rw [writeEffect_host s r v (by omega) (by simp only [A.HOST_MSIX_CTL]; omega), writeHost,
    if_neg (by simp only [A.HOST_MBX_DB]; omega), habove (A.HOST_MBX_REQ 0) 4 64 (by decide), Option.isSome_none,
    if_neg Bool.false_ne_true, habove (A.HOST_RING_CFG 0) 0x40 32 (by decide)]
  simp only
  rw [if_neg (by simp only [A.HOST_RING_TEL_GRP]; omega), habove (A.HOST_RING_TEL_PER 0) 0x40 32 (by decide),
    habove (A.HOST_RING_BASE_LO 0) 0x40 32 (by decide), habove (A.HOST_RING_BASE_HI 0) 0x40 32 (by decide), Option.or_none, hentry]

theorem testBit_bit01 (b : Bool) : (bit01 b).testBit 0 = b := by cases b <;> rfl

theorem bit01_lt (b : Bool) : bit01 b < 2 ^ 32 := by cases b <;> decide

theorem linkL1Exit_up {s : State} (h : s.int.link = .l1 ∨ s.int.link = .l1Exit) :
    linkL1Exit s = (hostLinkUp s).pmcEvent 22 0x304 1 := by
  rcases h with h | h <;> rw [linkL1Exit, h]

theorem linkD0_up {s : State} (h : s.int.link = .d3hot) : linkD0 s = hostLinkUp s := by rw [linkD0, h]

theorem linkL1_low {s : State} (h : s.int.link = .l0) : linkL1 s = { s with int := { s.int with link := .l1 } } := by
  rw [linkL1, h]

/-- Nothing happens on a link that is down. -/
theorem link_down {s : State} (h : s.int.link = .down) : linkL1Exit s = s ∧ linkD0 s = s ∧ linkL1 s = s :=
  ⟨by rw [linkL1Exit, h], by rw [linkD0, h], by rw [linkL1, h]⟩

end Sys2Proof.Machine

namespace Sys2Proof.Proofs
open Sys2Proof.Machine

/-- Settles O52: each write is decided by its register's own rules, and each other command is a step of its island or of the
data die whose branch the hypotheses choose. -/
theorem ingotAndInterruptCommands : Obligations.IngotAndInterruptCommands := by
  refine ⟨?control, ?reached, ?edge, ?copied, ?free, ?raises, ?swset, ?source, ?claim, ?eoi, ?coalesce, ?mask, ?function, ?link⟩
  case control =>
    intro s r hl u
    obtain ⟨htrig, harm, hdisarm⟩ := snpCtrl_words u
    have hend {c : Instr} {v : Nat} (hc : exec c s = done s (write32 s r A.SNP_CTRL v)) (hv : v < 2 ^ 32) :
        Ends c s (snpCtrl u v) :=
      ends_writeWo hc hl (by decide) rowOf_snpCtrl rfl hv (writeEffect_snpCtrl u r v)
    refine ⟨?_, fun hle => ?_, fun hlt => ?_, ?_⟩
    · have h := hend (c := .trig r) rfl (by decide)
      rwa [htrig] at h
    · have h := hend (c := .atArm r) rfl (by decide)
      rwa [harm, snpArm, if_neg (Nat.not_lt.2 hle)] at h
    · have h := hend (c := .atArm r) rfl (by decide)
      rwa [harm, snpArm, if_pos hlt] at h
    · have h := hend (c := .atDisarm r) rfl (by decide)
      rwa [hdisarm] at h
  case reached =>
    intro s hrun harmed ht
    exact ends_onIsland (f := snpReached) rfl hrun ((snpReached_due harmed ht).trans (snpFire_eq s))
  case edge =>
    intro s b hdie
    exact ends_onDie_settle (f := fun s => wakeSnap (snpEdge s b) b) rfl hdie rfl
  case copied =>
    intro s hrun hp
    exact ends_onIsland (f := snpCopied) rfl hrun (if_pos hp)
  case free =>
    intro s r b v hl
    have hend : Ends (.snpFreeSlot r b v) s (snpFree (heard s r 1) b v.toNat) :=
      ends_writeWo rfl hl (by cases b <;> decide) (rowOf_snpFree b) rfl v.isLt (writeEffect_snpFree _ r b v.toNat)
    refine hend.endsWith_of ⟨fun k _ => ?_, ?_, ?_⟩ fun _ _ _ h => h
    · rw [snpFree, slotBit_freeSlots, any_bitsSet_slot, slotBit, slotBit,
        bit_heard s r 1 _ (by rw [countsHost, Bool.and_eq_false_iff, decide_eq_false_iff_not, decide_eq_false_iff_not]
                              simp only [A.SNP_VALID, A.PMC_CTR_LO, A.PMC_CYC_LO]; omega)]
    · exact ((regsKept_heard s r 1).mono fun a ha => (Bool.or_eq_false_iff.1 ha).2).trans
        ((snpFree_regsKept _ b v.toNat).mono fun a ha => (Bool.or_eq_false_iff.1 ha).1)
    · exact fun k i => (snpFree_banksKept _ b v.toNat k i).trans (banksKept_heard s r 1 k i)
  case raises =>
    intro s i hdie
    have hend {t : State} (ht : (if sourceAssigned i.val then s.raise i.val else s) = t) : Ends (.sourceRaise i) s t :=
      ends_onDie (f := fun s => if sourceAssigned i.val then s.raise i.val else s) rfl hdie ht
    exact ⟨fun ha => hend (if_pos ha), fun hn => hend (if_neg (by rw [hn]; exact Bool.false_ne_true))⟩
  case swset =>
    intro s r v hl
    exact decided_writeWo rfl hl (by decide) rowOf_swset rfl v.isLt (writeEffect_swset _ r v.toNat)
  case source =>
    intro s r i v hl a w moved
    have hend := ends_writeRw (c := .intSourceCfgWrite r i v) (v := v.toNat) rfl hl (by simp only [A.INT_SRC]; omega)
      (rowOf_source i.isLt) rfl
    rw [Nat.mod_eq_of_lt v.isLt] at hend
    exact decided_of_refuseIf hend (writeEffect_source _ r v.toNat i.isLt)
  case claim =>
    intro s r t v hl
    exact decided_writeWo rfl hl (by simp only [A.INT_T_CLAIM]; omega) (targetRows t.val t.isLt).1 rfl v.isLt
      (writeEffect_claim _ r v.toNat t.isLt)
  case eoi =>
    intro s r t v hl
    exact decided_writeWo rfl hl (by simp only [A.INT_T_EOI]; omega) (targetRows t.val t.isLt).2 rfl v.isLt
      (writeEffect_eoi _ r v.toNat t.isLt)
  case coalesce =>
    intro s t hdie hd
    exact ends_onDie (f := fun s => if s.due (.coalesce t.val) then coalesceFire s t.val else s) rfl hdie (if_pos hd)
  case mask =>
    intro s n b hl
    have hend := ends_writeRw (c := .msixMaskWrite (some n) b) (v := bit01 b) rfl hl (by simp only [A.HOST_MSIX_CTL]; omega)
      (msixRows n.val n.isLt) rfl
    rwa [Nat.mod_eq_of_lt (bit01_lt b), writePlain_does false (writeEffect_msix _ .host (bit01 b) n.isLt), testBit_bit01] at hend
  case function =>
    intro s b hdie
    exact ends_onDie (f := fun s => writeMask s none b) rfl hdie rfl
  case link =>
    intro s hdie
    have hexit {t : State} (ht : linkL1Exit s = t) : Ends .pcieL1ExitDone s t := ends_onDie (f := linkL1Exit) rfl hdie ht
    have hd0 {t : State} (ht : linkD0 s = t) : Ends .pcieD0Return s t := ends_onDie (f := linkD0) rfl hdie ht
    have hl1 {t : State} (ht : linkL1 s = t) : Ends .pcieL1Entry s t := ends_onDie (f := linkL1) rfl hdie ht
    have hd3 {b : Bool} {t : State} (ht : linkD3 s b = t) : Ends (.pcieD3hotEntry b) s t :=
      ends_onDie (f := fun s => linkD3 s b) rfl hdie ht
    refine ⟨fun h => hexit (linkL1Exit_up h), fun h => hd0 (linkD0_up h), fun h => hl1 (linkL1_low h),
      fun b => ⟨fun h => hd3 (if_neg h), fun h => hd3 (if_pos h)⟩, fun h => ?_⟩
    obtain ⟨hx, h0, h1⟩ := link_down h
    exact ⟨hexit hx, hd0 h0, hl1 h1⟩

end Sys2Proof.Proofs
end

section
/-! The host's mailbox, its rings and telemetry (R386 to R389). -/

namespace Sys2Proof.Machine

/-! The registers of the block HOST, which answers whenever the host reaches the data die. -/

theorem mbxDbRow : rowOf A.HOST_MBX_DB = some ⟨0x0, 1, 0x4, 1, 0x4, .wo, 0x7, 0x0, false, false⟩ := by decide

/-- The row of the request words. -/
def mbxReqRow : RegRow := ⟨0x100, 64, 0x4, 1, 0x4, .rw, 0xffffffff, 0x0, false, false⟩

theorem mbxReqRows : ∀ i < 64, rowOf (A.HOST_MBX_REQ i) = some mbxReqRow := by decide +kernel

theorem ringCfgRows : ∀ n < 32, rowOf (A.HOST_RING_CFG n) = some ⟨0x1008, 32, 0x40, 1, 0x4, .rw, 0x800f0000, 0x0, false, false⟩ := by
  decide +kernel

/-- What the block needs to take the host's writes with no guard sequence pending. -/
theorem listens_host {s : State} {a : Nat} (h : 0x70000 ≤ a) (h' : a < 0x80000) : s.listens .host a = true ↔
    reaches s .host = true ∧ s.guardHost = [] ∧ s.guardMgmt = [] := by
  have hon : alwaysOn a = true := by
    rw [alwaysOn, Bool.or_eq_true, decide_eq_true_eq, decide_eq_true_eq]
    exact .inr ⟨h, h'⟩
  have hgate : gateOpen s .host a = true := by simp [gateOpen, hon]
  have hzone : zoneOf a = none := by rw [zoneOf, if_neg (by omega), if_neg (by omega), if_neg (by omega)]
  have hnode : s.nodeOpen a = true := by simp [State.nodeOpen, zoneRefuses, zoneFails, nodeRuns, hzone, hon]
  have hwait : waitsAtCore s .host = false := rfl
  rw [listens_iff, hgate, hnode, hwait]
  simp only [true_and]

/-- A write of the host that does not come to the data die does nothing. -/
theorem write32_unreached {s : State} (a v : Nat) (h : reaches s .host = false) : write32 s .host a v = s := by
  simp only [write32, busWrite, h, Bool.not_false, if_true]

/-! What writes of them do. -/

theorem writeEffect_mbxDb (s : State) (r : Req) (v : Nat) :
    writeEffect s r A.HOST_MBX_DB v = refuseIf (mbxBad s v) (.does (mbxDoor s v)) := by
  rw [writeEffect_host s r v (by decide) (by decide), writeHost, if_pos rfl]

theorem writeEffect_mbxReq (s : State) (r : Req) {i : Nat} (v : Nat) (hi : i < 64) :
    writeEffect s r (A.HOST_MBX_REQ i) v = refuseIf (decide (r = .host) && decide (mbxState s = 1)) .plain := by
  have hentry : entryOf (A.HOST_MBX_REQ i) (A.HOST_MBX_REQ 0) 4 64 = some i := entryOf_member (A.HOST_MBX_REQ 0) (by decide) hi
  rw [writeEffect_host s r v (by simp only [A.HOST_MBX_REQ]; omega) (by simp only [A.HOST_MBX_REQ]; omega), writeHost,
    if_neg (by simp only [A.HOST_MBX_REQ, A.HOST_MBX_DB]; omega), hentry, Option.isSome_some, if_pos rfl]

theorem writeEffect_ringCfg (s : State) (r : Req) {n : Nat} (v : Nat) (hn : n < 32) :
    writeEffect s r (A.HOST_RING_CFG n) v = refuseIf (ringCfgBad s n v) (.does (writeRingCfg s n v)) := by
  have hentry : entryOf (A.HOST_RING_CFG n) (A.HOST_RING_CFG 0) 0x40 32 = some n := entryOf_member (A.HOST_RING_CFG 0) (by decide) hn
  rw [writeEffect_host s r v (by simp only [A.HOST_RING_CFG]; omega) (by simp only [A.HOST_RING_CFG]; omega), writeHost,
    if_neg (by simp only [A.HOST_RING_CFG, A.HOST_MBX_DB]; omega),
    entryOf_above (by simp only [A.HOST_RING_CFG, A.HOST_MBX_REQ]; omega), Option.isSome_none, if_neg Bool.false_ne_true, hentry]

/-! The mailbox's own registers: its state and the request words. -/

/-- The registers of the mailbox that a request reads back. -/
def inMailbox (a : Nat) : Bool := decide (a = A.HOST_MBX_STAT) || decide (0x70100 ≤ a ∧ a < 0x70200)

theorem inMailbox_stat : inMailbox A.HOST_MBX_STAT = true := by decide

theorem inMailbox_req {i : Nat} (hi : i < 64) : inMailbox (A.HOST_MBX_REQ i) = true := by
  rw [inMailbox, Bool.or_eq_true, decide_eq_true_eq, decide_eq_true_eq, A.HOST_MBX_REQ]
  omega

/-- Neither the count of the host's writes nor an access error touches them. -/
theorem inMailbox_apart {a : Nat} (h : inMailbox a = true) : countsHost a = false ∧ errWrites a = false ∧ raiseTouches a = false := by
  rw [inMailbox, Bool.or_eq_true, decide_eq_true_eq, decide_eq_true_eq, A.HOST_MBX_STAT] at h
  refine ⟨?_, Bool.eq_false_iff.2 fun herr => ?_, ?_⟩
  · rw [countsHost, Bool.and_eq_false_iff, decide_eq_false_iff_not, decide_eq_false_iff_not]
    simp only [A.PMC_CTR_LO, A.PMC_CYC_LO]
    omega
  · rw [errWrites_iff, raiseWrites_iff, A.HOST_PBA] at herr
    omega
  · rw [raiseTouches, Bool.or_eq_false_iff, Bool.and_eq_false_iff, decide_eq_false_iff_not, decide_eq_false_iff_not,
      decide_eq_false_iff_not, A.HOST_PBA]
    omega

theorem rd_heard_mailbox (s : State) (r : Req) (n : Nat) {a : Nat} (h : inMailbox a = true) : (heard s r n).rd a = s.rd a :=
  rd_heard s r n (inMailbox_apart h).1

theorem mbxState_heard (s : State) (r : Req) (n : Nat) : mbxState (heard s r n) = mbxState s :=
  fld_heard s r n 1 0 (inMailbox_apart inMailbox_stat).1

theorem mbxState_congr {s t : State} (h : t.rd A.HOST_MBX_STAT = s.rd A.HOST_MBX_STAT) : mbxState t = mbxState s := by
  rw [mbxState, mbxState, State.fld, State.fld, h]

/-! A request outside IDLE. -/

/-- The mailbox's registers are as they were, and no guard sequence is pending. -/
def MailboxKept (s t : State) : Prop :=
  t.guardHost = [] ∧ t.guardMgmt = [] ∧ mbxState t = mbxState s ∧
    (mbxState s = 1 → ∀ i, i < 64 → t.rd (A.HOST_MBX_REQ i) = s.rd (A.HOST_MBX_REQ i))

theorem MailboxKept.trans {s t u : State} (h : MailboxKept s t) (g : MailboxKept t u) : MailboxKept s u := by
  obtain ⟨-, -, hst, hreq⟩ := h
  obtain ⟨hgh, hgm, gst, greq⟩ := g
  exact ⟨hgh, hgm, gst.trans hst, fun h1 i hi => (greq (hst.trans h1) i hi).trans (hreq h1 i hi)⟩

theorem mailboxKept_rejected {s : State} (hh : s.guardHost = []) (hm : s.guardMgmt = []) (a : Nat) :
    MailboxKept s (rejected (heard s .host 1) .host a) := by
  have hrd (b : Nat) (hb : inMailbox b = true) : (rejected (heard s .host 1) .host a).rd b = s.rd b :=
    (regsKept_accessErr _ 5 .host a b (inMailbox_apart hb).2.1).trans (rd_heard_mailbox s .host 1 hb)
  refine ⟨?_, ?_, mbxState_congr (hrd _ inMailbox_stat), fun _ i hi => hrd _ (inMailbox_req hi)⟩
  · exact (accessErr_keeps (f := State.guardHost) (fun _ _ _ => rfl) (fun _ _ => rfl) _ 5 .host a).trans
      ((heard_guardHost s .host 1).trans hh)
  · exact (accessErr_guardMgmt _ 5 .host a).trans ((heard_guardMgmt s .host 1).trans hm)

theorem mailboxKept_word {s : State} (hh : s.guardHost = []) (hm : s.guardMgmt = []) {i : Nat} (hi : i < 64) (v : Nat) :
    MailboxKept s (write32 s .host (A.HOST_MBX_REQ i) v) := by
  cases hr : reaches s .host with
  | false =>
    rw [write32_unreached _ _ hr]
    exact ⟨hh, hm, rfl, fun _ _ _ => rfl⟩
  | true =>
    have hl : s.listens .host (A.HOST_MBX_REQ i) = true :=
      (listens_host (by simp only [A.HOST_MBX_REQ]; omega) (by simp only [A.HOST_MBX_REQ]; omega)).2 ⟨hr, hh, hm⟩
    have heffect := writeEffect_mbxReq (heard s .host 1) .host (v % 2 ^ 32) hi
    rw [mbxState_heard] at heffect
    rw [write32_served v hl (by simp only [A.HOST_MBX_REQ]; omega) (mbxReqRows i hi)]
    by_cases hbusy : mbxState s = 1
    · rw [hbusy] at heffect
      have hrefuse : served (heard s .host 1) .host (A.HOST_MBX_REQ i) (v % 2 ^ 32) mbxReqRow =
          rejected (heard s .host 1) .host (A.HOST_MBX_REQ i) := by
        rw [served]
        exact writePlain_refuse false heffect
      rw [hrefuse]
      exact mailboxKept_rejected hh hm _
    · rw [decide_eq_false hbusy, Bool.and_false] at heffect
      have htake : served (heard s .host 1) .host (A.HOST_MBX_REQ i) (v % 2 ^ 32) mbxReqRow =
          takeWord (heard s .host 1) (A.HOST_MBX_REQ i) (v % 2 ^ 32) := served_rw rfl heffect
      have hne : A.HOST_MBX_STAT ≠ A.HOST_MBX_REQ i := by simp only [A.HOST_MBX_STAT, A.HOST_MBX_REQ]; omega
      rw [htake]
      exact ⟨(heard_guardHost s .host 1).trans hh, (heard_guardMgmt s .host 1).trans hm,
        mbxState_congr ((rd_wr_ne _ _ hne).trans (rd_heard_mailbox s .host 1 inMailbox_stat)), fun h => absurd h hbusy⟩

/-- DB with SEND, ACK or ABORT alone. -/
theorem mbxBad_words (s : State) : mbxBad s 1 = decide (mbxState s ≠ 0) ∧ mbxBad s 2 = decide (mbxState s ≠ 2) ∧ mbxBad s 4 = false := by
  have hone : ∀ v ∈ [1, 2, 4], decide (1 < (bitsSet v 3).length) = false := by decide
  have hbits : Nat.testBit 1 0 = true ∧ Nat.testBit 1 1 = false ∧ Nat.testBit 2 0 = false ∧ Nat.testBit 2 1 = true ∧
      Nat.testBit 4 0 = false ∧ Nat.testBit 4 1 = false := by decide
  obtain ⟨h10, h11, h20, h21, h40, h41⟩ := hbits
  simp only [mbxBad, hone 1 (by decide), hone 2 (by decide), hone 4 (by decide), h10, h11, h20, h21, h40, h41, Bool.false_or,
    Bool.true_and, Bool.false_and, Bool.or_false, and_self]

theorem mbxDoor_send (s : State) : mbxDoor s 1 = (setMbx { s with host := { s.host with saveRan := saveBusy s } } 1).raise 1022 := by
  rw [mbxDoor, if_pos (by decide)]

theorem mbxDoor_idle (s : State) : mbxDoor s 2 = setMbx s 0 ∧ mbxDoor s 4 = setMbx s 0 :=
  ⟨by rw [mbxDoor, if_neg (by decide), if_pos (.inl (by decide))],
    by rw [mbxDoor, if_neg (by decide), if_pos (.inr (by decide))]⟩

/-- The doorbell, once it is served. -/
theorem write32_doorbell {s : State} (hl : s.listens .host A.HOST_MBX_DB = true) :
    write32 s .host A.HOST_MBX_DB 1 =
      if mbxState s = 0 then mbxDoor (heard s .host 1) 1 else rejected (heard s .host 1) .host A.HOST_MBX_DB := by
  have heffect := writeEffect_mbxDb (heard s .host 1) .host 1
  rw [(mbxBad_words _).1, mbxState_heard] at heffect
  rw [write32_served 1 hl (by decide) mbxDbRow, served_wo rfl]
  by_cases h : mbxState s = 0
  · rw [decide_eq_false (not_not.2 h)] at heffect
    rw [if_pos h]
    exact writePlain_does true heffect
  · rw [decide_eq_true h] at heffect
    rw [if_neg h]
    exact writePlain_refuse true heffect

theorem mailboxKept_doorbell {s : State} (hh : s.guardHost = []) (hm : s.guardMgmt = []) (h : mbxState s ≠ 0) :
    MailboxKept s (write32 s .host A.HOST_MBX_DB 1) := by
  cases hr : reaches s .host with
  | false =>
    rw [write32_unreached _ _ hr]
    exact ⟨hh, hm, rfl, fun _ _ _ => rfl⟩
  | true =>
    rw [write32_doorbell ((listens_host (by decide) (by decide)).2 ⟨hr, hh, hm⟩), if_neg h]
    exact mailboxKept_rejected hh hm _

theorem mailboxKept_words {s : State} (hh : s.guardHost = []) (hm : s.guardMgmt = []) (l : List Nat) {w : Nat}
    (hw : w + l.length ≤ 64) : MailboxKept s (requestWords s w l) := by
  induction l generalizing s w with
  | nil => exact ⟨hh, hm, rfl, fun _ _ _ => rfl⟩
  | cons v l ih =>
    rw [List.length_cons] at hw
    have hword := mailboxKept_word hh hm (i := w) (by omega) v
    obtain ⟨hh', hm', -, -⟩ := id hword
    exact hword.trans (ih hh' hm' (by omega))

theorem mailboxKept_request {s : State} (hh : s.guardHost = []) (hm : s.guardMgmt = []) (h : mbxState s ≠ 0) (cmd : Nat)
    (tag : Byte) {args : List Word} (hn : args.length ≤ 63) : MailboxKept s (request s cmd tag args) := by
  have hwords := mailboxKept_words hh hm
    ((cmd * 2 ^ 16 + args.length % 256 * 2 ^ 8 + tag.toNat) :: args.map (·.toNat)) (w := 0) (by simpa using Nat.lt_succ_iff.2 hn)
  obtain ⟨hh', hm', hst, -⟩ := id hwords
  exact hwords.trans (mailboxKept_doorbell hh' hm' (hst ▸ h))

/-! A request in IDLE. -/

/-- The host reaches the mailbox, which is IDLE. -/
def MailboxIdle (s : State) : Prop := reaches s .host = true ∧ s.guardHost = [] ∧ s.guardMgmt = [] ∧ mbxState s = 0

theorem MailboxIdle.listens {s : State} (h : MailboxIdle s) {a : Nat} (ha : 0x70000 ≤ a) (ha' : a < 0x80000) :
    s.listens .host a = true := by
  obtain ⟨hr, hh, hm, -⟩ := h
  exact (listens_host ha ha').2 ⟨hr, hh, hm⟩

theorem reaches_heard (s : State) (r : Req) (n : Nat) : reaches (heard s r n) r = reaches s r := by
  obtain ⟨m, w, h, -⟩ := heard_shape s r n
  rw [h]
  rfl

theorem write32_idleWord {s : State} (h : MailboxIdle s) {i : Nat} (hi : i < 64) {v : Nat} (hv : v < 2 ^ 32) :
    write32 s .host (A.HOST_MBX_REQ i) v = (heard s .host 1).wr (A.HOST_MBX_REQ i) v := by
  have heffect := writeEffect_mbxReq (heard s .host 1) .host (v % 2 ^ 32) hi
  obtain ⟨-, -, -, hst⟩ := id h
  rw [mbxState_heard, hst] at heffect
  have hmask : v % 2 ^ 32 &&& maskOf (A.HOST_MBX_REQ i) = v := by
    rw [maskOf_row (mbxReqRows i hi), show mbxReqRow.mask = 2 ^ 32 - 1 from rfl, Nat.and_two_pow_sub_one_eq_mod,
      Nat.mod_mod, Nat.mod_eq_of_lt hv]
  rw [write32_served v (h.listens (by simp only [A.HOST_MBX_REQ]; omega) (by simp only [A.HOST_MBX_REQ]; omega))
    (by simp only [A.HOST_MBX_REQ]; omega) (mbxReqRows i hi), served_rw rfl heffect, takeWord, hmask]

theorem mailboxIdle_word {s : State} (h : MailboxIdle s) (i v : Nat) :
    MailboxIdle ((heard s .host 1).wr (A.HOST_MBX_REQ i) v) := by
  obtain ⟨hr, hh, hm, hst⟩ := h
  have hne : A.HOST_MBX_STAT ≠ A.HOST_MBX_REQ i := by simp only [A.HOST_MBX_STAT, A.HOST_MBX_REQ]; omega
  exact ⟨(reaches_heard s .host 1).trans hr, (heard_guardHost s .host 1).trans hh, (heard_guardMgmt s .host 1).trans hm,
    (mbxState_congr ((rd_wr_ne _ _ hne).trans (rd_heard_mailbox s .host 1 inMailbox_stat))).trans hst⟩

theorem mbxReq_injective {i j : Nat} (h : i ≠ j) : A.HOST_MBX_REQ i ≠ A.HOST_MBX_REQ j := by
  simp only [A.HOST_MBX_REQ]
  omega

/-- The words stand one after the other, and those before them stay. -/
theorem requestWords_idle {s : State} (h : MailboxIdle s) (l : List Nat) {w : Nat} (hw : w + l.length ≤ 64)
    (hl : ∀ v ∈ l, v < 2 ^ 32) : MailboxIdle (requestWords s w l) ∧
      (∀ i, i < w → (requestWords s w l).rd (A.HOST_MBX_REQ i) = s.rd (A.HOST_MBX_REQ i)) ∧
      ∀ j, j < l.length → (requestWords s w l).rd (A.HOST_MBX_REQ (w + j)) = l.getD j 0 := by
  induction l generalizing s w with
  | nil => exact ⟨h, fun _ _ => rfl, fun _ hj => absurd hj (Nat.not_lt_zero _)⟩
  | cons v l ih =>
    rw [List.length_cons] at hw
    have hv := hl v (List.mem_cons_self ..)
    have hidle := mailboxIdle_word h w v
    obtain ⟨hend, hbefore, hwords⟩ := ih hidle (w := w + 1) (by omega) fun x hx => hl x (List.mem_cons_of_mem _ hx)
    rw [requestWords, write32_idleWord h (by omega) hv]
    refine ⟨hend, fun i hi => ?_, fun j hj => ?_⟩
    · rw [hbefore i (by omega), rd_wr_ne _ _ (mbxReq_injective (by omega)), rd_heard_mailbox s .host 1 (inMailbox_req (by omega))]
    · cases j with
      | zero =>
        rw [show A.HOST_MBX_REQ (w + 0) = A.HOST_MBX_REQ w from rfl, hbefore w (by omega), rd_wr_self, Nat.mod_eq_of_lt hv, List.getD_cons_zero]
      | succ j => rw [show w + (j + 1) = w + 1 + j by omega, hwords j (by simpa using hj), List.getD_cons_succ]

/-- The doorbell makes the mailbox BUSY and leaves the request words. -/
theorem doorbell_sent {s : State} (h : MailboxIdle s) : mbxState (write32 s .host A.HOST_MBX_DB 1) = 1 ∧
    ∀ i, i < 64 → (write32 s .host A.HOST_MBX_DB 1).rd (A.HOST_MBX_REQ i) = s.rd (A.HOST_MBX_REQ i) := by
  obtain ⟨-, -, -, hst⟩ := id h
  rw [write32_doorbell (h.listens (by decide) (by decide)), if_pos hst, mbxDoor_send]
  have hquiet (u : State) := quiet_raise (setMbx u 1) 1022 (by decide)
  refine ⟨?_, fun i hi => ?_⟩
  · rw [mbxState_congr ((hquiet _).rd (inMailbox_apart inMailbox_stat).2.2), mbxState, State.fld, setMbx, rd_wr_self]
    rfl
  · have hne : A.HOST_MBX_REQ i ≠ A.HOST_MBX_STAT := by simp only [A.HOST_MBX_STAT, A.HOST_MBX_REQ]; omega
    rw [(hquiet _).rd (inMailbox_apart (inMailbox_req hi)).2.2, setMbx, rd_wr_ne _ _ hne]
    exact rd_heard_mailbox s .host 1 (inMailbox_req hi)

theorem request_sent {s : State} (h : MailboxIdle s) {cmd : Nat} (hcmd : cmd < 2 ^ 16) (tag : Byte) {args : List Word}
    (hn : args.length ≤ 63) : mbxState (request s cmd tag args) = 1 ∧
      (request s cmd tag args).rd (A.HOST_MBX_REQ 0) = cmd * 2 ^ 16 + args.length * 2 ^ 8 + tag.toNat ∧
      ∀ i, i < args.length → (request s cmd tag args).rd (A.HOST_MBX_REQ (i + 1)) = (args.getD i 0).toNat := by
  have hmod : args.length % 256 = args.length := Nat.mod_eq_of_lt (by omega)
  have htag := tag.isLt
  have hwords := requestWords_idle h (w := 0) ((cmd * 2 ^ 16 + args.length % 256 * 2 ^ 8 + tag.toNat) :: args.map (·.toNat))
    (by simpa using Nat.lt_succ_iff.2 hn) (by
      intro v hv
      rcases List.mem_cons.1 hv with rfl | hv
      · omega
      · obtain ⟨x, -, rfl⟩ := List.mem_map.1 hv
        exact x.isLt)
  obtain ⟨hidle, -, hrd⟩ := hwords
  obtain ⟨hst, hkept⟩ := doorbell_sent hidle
  have hword (j : Nat) (hj : j < args.length + 1) := (hkept j (by omega)).trans (by simpa using hrd j (by simpa using hj))
  refine ⟨hst, (hword 0 (by omega)).trans ?_, fun i hi => (hword (i + 1) (by omega)).trans ?_⟩
  · simp [hmod]
  · simp [List.getElem?_eq_getElem hi]

/-- A command of the mailbox: an IDLE one takes it, and another one keeps what it holds. -/
theorem ends_request {c : Instr} {s : State} {cmd : Nat} {tag : Byte} {args : List Word}
    (hl : s.listens .host A.HOST_MBX_DB = true) (hc : exec c s = done s (request s cmd tag args)) (hcmd : cmd < 2 ^ 16)
    (hn : args.length ≤ 63) :
    (mbxState s = 0 → EndsWith c s fun t =>
      mbxState t = 1 ∧ t.rd (A.HOST_MBX_REQ 0) = cmd * 2 ^ 16 + args.length * 2 ^ 8 + tag.toNat ∧
      ∀ i, i < args.length → t.rd (A.HOST_MBX_REQ (i + 1)) = (args.getD i 0).toNat) ∧
    (mbxState s ≠ 0 → EndsWith c s fun t => mbxState t = mbxState s ∧
      (mbxState s = 1 → ∀ i, i < 64 → t.rd (A.HOST_MBX_REQ i) = s.rd (A.HOST_MBX_REQ i))) := by
  obtain ⟨hr, hh, hm⟩ := (listens_host (by decide) (by decide)).1 hl
  have hend : Ends c s (request s cmd tag args) := ends_of_exec hc
  refine ⟨fun hidle => ?_, fun hbusy => ?_⟩
  · exact hend.endsWith_of (request_sent ⟨hr, hh, hm, hidle⟩ hcmd tag hn) fun _ _ _ h => h
  · obtain ⟨-, -, hst, hreq⟩ := mailboxKept_request hh hm hbusy cmd tag hn
    exact hend.endsWith_of ⟨hst, hreq⟩ fun _ _ _ h => h

/-! The answer, the rings and telemetry. -/

theorem mbxRespond_busy {s : State} {ok : Bool} (data : List Nat) (hrun : s.islandRuns 5 = true) (hst : mbxState s = 1)
    (hserve : romServes s = true ∨ firmwareServes s = true) :
    mbxRespond s data ok =
      let st := mbxStatus s ok
      let l := if st = 0 then mbxWords s data else []
      let u := if st = 0 then mbxAct s else s
      (setMbx (putResponse u 0 ((st * 2 ^ 16 + l.length * 2 ^ 8 + mbxArg u 0 % 256) :: l)) 2).raise 1023 := by
  have hfirm : firmwareRuns s = true := by rw [firmwareRuns, loopStopped_of_islandRuns hrun]; rfl
  have hboth : ((romServes s || firmwareServes s) && firmwareRuns s) = true := by
    rw [hfirm, Bool.and_true, Bool.or_eq_true]
    exact hserve
  rw [mbxRespond]
  refine if_neg ?_
  rw [not_or]
  exact ⟨not_not.2 hst, by rw [hboth]; decide⟩

theorem ends_mbxResponse {s v : State} {data : List Word} {ok : Bool} (hrun : s.islandRuns 5 = true)
    (hv : mbxRespond s (data.map (·.toNat)) ok = v) : Ends (.mbxResponse data ok) s v :=
  ends_of_exec (by
    have hexec : exec (.mbxResponse data ok) s = onFirmware s (fun s => mbxRespond s (data.map (·.toNat)) ok) := rfl
    rw [hexec, onFirmware_on hrun, hv])

theorem telSample_due {s : State} {n : Nat} (h : telDue s n = true) :
    telSample s n =
      let per := Nat.max 1 (s.rd (A.HOST_RING_TEL_PER n))
      let next := Map.put 0 s.host.telNext n (Map.get 0 s.host.telNext n + per * us * nsUnits)
      (bitsSet (s.rd (A.HOST_RING_TEL_GRP n)) 24).foldl (fun u g => telRecord u n g (tb0 s))
        { s with host := { s.host with telNext := next } } := by
  rw [telSample]
  exact if_neg (by rw [h]; decide)

end Sys2Proof.Machine

namespace Sys2Proof.Proofs
open Sys2Proof.Machine

/-- Settles O55: a request is written word by word, which an IDLE mailbox takes and a BUSY one refuses, and the other commands
are decided by their registers or by their steps. -/
theorem hostCommands : Obligations.HostCommands := by
  refine ⟨?request, ?response, ?doorbell, ?ring, ?telemetry⟩
  case request =>
    intro s tag hl sent
    have hsent (c : Instr) (cmd : Nat) (args : List Word) (hc : exec c s = done s (request s cmd tag args)) (hcmd : cmd < 2 ^ 16) :
        sent c cmd args := fun hn => ends_request hl hc hcmd hn
    exact ⟨hsent (.getVersion tag) 0x0001 [] rfl (by decide), hsent (.getHealth tag) 0x0002 [] rfl (by decide),
      fun d a n => hsent (.flashRead tag d a n) 0x0010 [d, a, n] rfl (by decide),
      fun d a => hsent (.flashErase tag d a) 0x0011 [d, a] rfl (by decide),
      fun d a n l => hsent (.flashProgram tag d a n l) 0x0012 ([d, a, n] ++ l) rfl (by decide),
      fun p b o n => hsent (.cmisRead tag p b o n) 0x0020 [p, b, o, n] rfl (by decide),
      fun p b o n l => hsent (.cmisWrite tag p b o n l) 0x0021 ([p, b, o, n] ++ l) rfl (by decide)⟩
  case response =>
    intro s data ok hrun hst hserve st l u
    refine ends_mbxResponse hrun ?_
    rw [mbxRespond_busy (data.map (·.toNat)) hrun hst hserve]
  case doorbell =>
    intro s r hl
    obtain ⟨-, hack, habort⟩ := mbxBad_words (heard s r 1)
    obtain ⟨hdoor2, hdoor4⟩ := mbxDoor_idle (heard s r 1)
    refine ⟨decided_writeWo rfl hl (by decide) mbxDbRow rfl (by decide) ?_,
      ends_writeWo rfl hl (by decide) mbxDbRow rfl (by decide) ?_⟩
    · rw [writeEffect_mbxDb, hack, hdoor2]
    · rw [writeEffect_mbxDb, habort, hdoor4]
      rfl
  case ring =>
    intro s r n v hl
    have hend := ends_writeRw (c := .ringEnable r n v) (v := v.toNat) rfl hl (by simp only [A.HOST_RING_CFG]; omega)
      (ringCfgRows n.val n.isLt) rfl
    rw [Nat.mod_eq_of_lt v.isLt] at hend
    exact decided_of_refuseIf hend (writeEffect_ringCfg _ r v.toNat n.isLt)
  case telemetry =>
    intro s n hrun hdue per next
    exact ends_onIsland (f := fun s => telSample s n.val) rfl hrun (telSample_due hdue)

end Sys2Proof.Proofs
end

section
/-! Counters (R391 to R393), scratchpad banks (R394 to R399) and the test port (R422, R423). -/

namespace Sys2Proof.Machine

/-! Registers of PMC and MEM that act on a write. -/

theorem rowOf_pmcCtrl : rowOf A.PMC_CTRL = some ⟨0x0, 1, 0x4, 1, 0x4, .wo, 0x7, 0x0, false, false⟩ := by decide

theorem rowOf_pmcClr : rowOf A.PMC_CLR = some ⟨0x4, 1, 0x4, 1, 0x4, .wo, 0xffffff, 0x0, false, false⟩ := by decide

theorem rowOf_upage : rowOf A.PMC_UPAGE = some ⟨0x10, 1, 0x4, 1, 0x4, .grd, 0x1, 0x0, false, false⟩ := by decide

theorem rowOf_captRd : rowOf A.MEM_CAPT_RD = some ⟨0x44, 1, 0x4, 1, 0x4, .rw, 0x3fff, 0x0, false, false⟩ := by decide

theorem bankCtrlRows : ∀ b < 12, rowOf (A.MEM_BANK_CTRL b) = some ⟨0x100, 12, 0x10, 1, 0x4, .rw, 0x3, 0x1, false, false⟩ := by
  decide

theorem writeEffect_pmc (s : State) (r : Req) {a : Nat} (v : Nat) (h : 0x30000 ≤ a) (h' : a < 0x40000) :
    writeEffect s r a v = writePmc s a v := by
  rw [writeEffect]
  repeat rw [if_neg (by omega)]
  rw [if_pos h']

theorem writeEffect_mem (s : State) (r : Req) {a : Nat} (v : Nat) (h : 0x50000 ≤ a) (h' : a < 0x60000) :
    writeEffect s r a v = writeMem s r a v := by
  rw [writeEffect]
  repeat rw [if_neg (by omega)]
  rw [if_pos h']

theorem writeEffect_pmcCtrl (s : State) (r : Req) (v : Nat) : writeEffect s r A.PMC_CTRL v = .does (pmcCtrl s v) := by
  rw [writeEffect_pmc s r v (by decide) (by decide), writePmc, if_pos rfl]

theorem writeEffect_pmcClr (s : State) (r : Req) (v : Nat) :
    writeEffect s r A.PMC_CLR v = .does (pmcClear s (v % 2 ^ 24)) := by
  rw [writeEffect_pmc s r v (by decide) (by decide), writePmc, if_neg (by decide), if_pos rfl]

theorem writeEffect_captRd (s : State) (r : Req) (v : Nat) :
    writeEffect s r A.MEM_CAPT_RD v = .does (writeCaptRd s v) := by
  rw [writeEffect_mem s r v (by decide) (by decide), writeMem, if_neg (by decide), if_pos rfl]

theorem writeEffect_bankCtrl (s : State) (r : Req) {b : Nat} (v : Nat) (hb : b < 12) :
    writeEffect s r (A.MEM_BANK_CTRL b) v = refuseIf (bankWriteBad s r b v) (.does (bankRequest s b v)) := by
  have ha : A.MEM_BANK_CTRL b = A.MEM_BANK_CTRL 0 + b * 0x10 := by simp only [A.MEM_BANK_CTRL]
  rw [writeEffect_mem s r v (by simp only [A.MEM_BANK_CTRL]; omega) (by simp only [A.MEM_BANK_CTRL]; omega), writeMem,
    if_neg (by simp only [A.MEM_BANK_CTRL, A.MEM_WIN_SEL]; omega),
    if_neg (by simp only [A.MEM_BANK_CTRL, A.MEM_CAPT_RD]; omega),
    if_neg (by simp only [A.MEM_BANK_CTRL, A.MEM_WIN]; omega), ha, entryOf_member _ (by decide) hb]

theorem guardedEffect_upage (s : State) (r : Req) (v : Nat) : guardedEffect s r A.PMC_UPAGE v = takeWord s A.PMC_UPAGE v := by
  rw [guardedEffect]
  repeat rw [if_neg (by decide)]
  rw [if_pos rfl]

theorem guardedEffect_march (s : State) (r : Req) (v : Nat) : guardedEffect s r A.MEM_MARCH_CTRL v =
    if v.testBit 31 && marchBad s v then rejected s r A.MEM_MARCH_CTRL else writeMarch s v := by
  rw [guardedEffect]
  repeat rw [if_neg (by decide)]
  rw [if_pos rfl]

/-- An event of the data die that a sleeping one does not have ends, on a die that is awake, in what it does. -/
theorem ends_onDie_awake {c : Instr} {s t : State} (f : State → State)
    (hc : exec c s = onDie s fun s => if asleep s then s else f s) (h : s.awake = true) (ht : f s = t) : Ends c s t := by
  rw [State.awake, Bool.and_eq_true, Bool.not_eq_true'] at h
  obtain ⟨hd, ha⟩ := h
  exact ends_onDie hc hd ((if_neg (by rw [ha]; decide)).trans ht)

theorem die_of_awake {s : State} (h : s.awake = true) : s.power.die = true := (Bool.and_eq_true_iff.1 h).1

/-! The counters (R391 to R393). -/

theorem pmcCtrl_words (s : State) : pmcCtrl s 1 = s.setBit A.PMC_STAT 31 true ∧
    pmcCtrl s 2 = s.setBit A.PMC_STAT 31 false ∧ pmcCtrl s 4 = pmcSnap s :=
  ⟨rfl, rfl, rfl⟩

/-- The words of the 24 groups: each group's number and its word's. -/
def groupWords (gs : List Nat) : List (Nat × Nat) := gs.flatMap fun g => (List.range 18).map fun j => (g, j)

theorem mem_groupWords {gs : List Nat} {g j : Nat} : (g, j) ∈ groupWords gs ↔ g ∈ gs ∧ j < 18 := by
  simp [groupWords]

theorem foldl_groupWords (f : State → Nat → Nat → State) (gs : List Nat) (s : State) :
    gs.foldl (fun s g => (List.range 18).foldl (fun s j => f s g j) s) s =
      (groupWords gs).foldl (fun s e => f s e.1 e.2) s := by
  rw [groupWords, List.foldl_flatMap]
  simp only [List.foldl_map]

theorem pmcSnap_words (s : State) : pmcSnap s = (groupWords (List.range 24)).foldl
    (fun s e => s.wr (A.PMC_SHADOW e.1 e.2) (s.rd (A.PMC_CYC_LO e.1 + 4 * e.2))) s :=
  foldl_groupWords (fun s g j => s.wr (A.PMC_SHADOW g j) (s.rd (A.PMC_CYC_LO g + 4 * j))) _ s

theorem pmcClear_words (s : State) (mask : Nat) : pmcClear s mask =
    (groupWords (bitsSet mask 24)).foldl (fun s e => s.wr (A.PMC_CYC_LO e.1 + 4 * e.2) 0) s :=
  foldl_groupWords (fun s g j => s.wr (A.PMC_CYC_LO g + 4 * j) 0) _ s

/-- Words copied one after another, from places to which none is copied: each reads what its source did. -/
theorem rd_copyWords {α : Type} {place src : α → Nat} (l : List α) (hsep : ∀ x ∈ l, ∀ y ∈ l, src x ≠ place y)
    (hinj : ∀ x ∈ l, ∀ y ∈ l, place x = place y → x = y) (s : State) {x : α} (hx : x ∈ l) :
    (l.foldl (fun s y => s.wr (place y) (s.rd (src y))) s).rd (place x) = s.rd (src x) := by
  induction l generalizing s with
  | nil => cases hx
  | cons y l ih =>
    by_cases hxl : x ∈ l
    · rw [List.foldl_cons, ih (fun u hu v hv => hsep u (.tail _ hu) v (.tail _ hv))
        (fun u hu v hv => hinj u (.tail _ hu) v (.tail _ hv)) _ hxl, rd_wr_ne _ _ (hsep x hx y (List.mem_cons_self ..))]
    · obtain rfl : x = y := (List.mem_cons.1 hx).resolve_right hxl
      have hkept := regsKept_foldl (g := fun s y => s.wr (place y) (s.rd (src y))) (p := fun a => decide (a ≠ place x)) l
        (fun s z hz => regsKept_wr s _ (decide_eq_true fun e => hxl (hinj z (.tail _ hz) x hx e ▸ hz)))
        (s.wr (place x) (s.rd (src x)))
      rw [List.foldl_cons, hkept _ (decide_eq_false (not_not.2 rfl)), rd_wr_self, Nat.mod_eq_of_lt (rd_lt s _)]

theorem regsKept_pmcSnap (s : State) : RegsKept s (pmcSnap s)
    (fun a => decide (A.PMC_SHADOW 0 0 ≤ a) && decide (a < A.PMC_SHADOW 24 0)) := by
  rw [pmcSnap_words]
  refine regsKept_foldl _ (fun s e he => regsKept_wr s _ ?_) s
  obtain ⟨hg, hj⟩ := mem_groupWords.1 he
  rw [List.mem_range] at hg
  exact Bool.and_eq_true_iff.2 ⟨decide_eq_true (by simp only [A.PMC_SHADOW]; omega), decide_eq_true (by simp only [A.PMC_SHADOW]; omega)⟩

theorem banksKept_pmcSnap (s : State) : BanksKept s (pmcSnap s) := by
  rw [pmcSnap_words]
  exact banksKept_of_eq (foldl_keeps (fun s _ => wr_mem s _ _) _ s) (foldl_keeps (fun s _ => wr_banks s _ _) _ s)

theorem rd_pmcSnap (s : State) {g j : Nat} (hg : g < 24) (hj : j < 18) :
    (pmcSnap s).rd (A.PMC_SHADOW g j) = s.rd (A.PMC_CYC_LO g + 4 * j) := by
  have hlt {x : Nat × Nat} (hx : x ∈ groupWords (List.range 24)) : x.1 < 24 ∧ x.2 < 18 := by
    obtain ⟨hg, hj⟩ := mem_groupWords.1 hx
    exact ⟨List.mem_range.1 hg, hj⟩
  rw [pmcSnap_words]
  refine rd_copyWords (place := fun e : Nat × Nat => A.PMC_SHADOW e.1 e.2) (src := fun e => A.PMC_CYC_LO e.1 + 4 * e.2) _
    (fun x hx y hy => ?_) (fun x hx y hy => ?_) s (x := (g, j)) (mem_groupWords.2 ⟨List.mem_range.2 hg, hj⟩)
  · have hx := hlt hx
    simp only [A.PMC_CYC_LO, A.PMC_SHADOW]
    omega
  · have hx := hlt hx
    have hy := hlt hy
    simp only [A.PMC_SHADOW]
    exact fun h => Prod.ext (by omega) (by omega)

theorem regsKept_pmcClear (s : State) (v : Nat) : RegsKept s (pmcClear s (v % 2 ^ 24)) (fun a => (List.range 24).any fun g =>
    v.testBit g && decide (A.PMC_CYC_LO g ≤ a) && decide (a < A.PMC_CYC_LO g + 72)) := by
  rw [pmcClear_words]
  refine regsKept_foldl _ (fun s e he => regsKept_wr s _ ?_) s
  obtain ⟨hg, hj⟩ := mem_groupWords.1 he
  obtain ⟨hlt, hbit⟩ := mem_bitsSet.1 hg
  rw [Nat.testBit_mod_two_pow, Bool.and_eq_true] at hbit
  simp only [List.any_eq_true, List.mem_range, Bool.and_eq_true, decide_eq_true_eq]
  exact ⟨e.1, hlt, ⟨hbit.2, by omega⟩, by omega⟩

theorem banksKept_pmcClear (s : State) (mask : Nat) : BanksKept s (pmcClear s mask) := by
  rw [pmcClear_words]
  exact banksKept_of_eq (foldl_keeps (fun s _ => wr_mem s _ _) _ s) (foldl_keeps (fun s _ => wr_banks s _ _) _ s)

/-- Of words cleared one after another each reads 0. -/
theorem rd_clearWords {α : Type} (place : α → Nat) (l : List α) (s : State) {x : α} (hx : x ∈ l ∨ s.rd (place x) = 0) :
    (l.foldl (fun s y => s.wr (place y) 0) s).rd (place x) = 0 := by
  induction l generalizing s with
  | nil => exact hx.resolve_left List.not_mem_nil
  | cons y l ih =>
    refine ih _ ?_
    rw [rd_wr]
    split
    next h => exact .inr rfl
    next h => exact hx.imp_left fun hx => (List.mem_cons.1 hx).resolve_left fun e => h (congrArg place e)

theorem rd_pmcClear (s : State) (v : Nat) {g j : Nat} (hg : g < 24) (hj : j < 18) (h : v.testBit g = true) :
    (pmcClear s (v % 2 ^ 24)).rd (A.PMC_CYC_LO g + 4 * j) = 0 := by
  rw [pmcClear_words]
  refine rd_clearWords (fun e : Nat × Nat => A.PMC_CYC_LO e.1 + 4 * e.2) _ s (x := (g, j)) (.inl (mem_groupWords.2 ⟨?_, hj⟩))
  exact mem_bitsSet.2 ⟨hg, by rw [Nat.testBit_mod_two_pow, h, decide_eq_true hg]; rfl⟩

end Sys2Proof.Machine
end

section
/-! Requests for a bank's state, its errors, the capture reads and the test port (R394 to R398, R422, R423). -/

namespace Sys2Proof.Machine

theorem bankRequest_eq (s : State) (b v : Nat) :
    bankRequest s b v =
      let t := s.wr (A.MEM_BANK_CTRL b) (v % 4)
      if bankState t b = 3 then setBankPending (putBankH t b { t.bank b with held := some (v % 4) }) b true
      else if bankState t b = 4 then t else bankBegin t b (v % 4) := by
  simp only [bankRequest]
  split
  next h => rw [if_pos h]
  next h => rw [if_neg (by omega), if_pos h]
  next h3 h4 => rw [if_neg h3, if_neg h4]

theorem bankChanged_released {s : State} {b g : Nat} (hg : (s.bank b).goal = some g) (hh : (s.bank b).held = none) :
    bankChanged s b =
      let u := putBankH (setBankState s b g) b { s.bank b with goal := none, held := none }
      if g = 0 then u.clearBank b false else u := by
  simp only [bankChanged, hg, hh]

theorem bankError_lies {s : State} {b w : Nat} (ue : Bool) (hst : bankState s b = 1 ∨ bankState s b = 3)
    (hw : 8 * w < bankSize b) : bankError s b w ue = if ue then bankUncorrectable s b w else bankCorrected s b w :=
  if_pos ⟨hst, hw⟩

theorem ends_onBank {c : Instr} {s t : State} {b : Nat} {f : State → State} (hc : exec c s = onBank s b f)
    (h : (if b = 8 ∨ b = 9 then s.power.ka else s.power.die) = true) (ht : f s = t) : Ends c s t := by
  rw [onBank] at hc
  split at h
  next hb =>
    rw [if_pos hb] at hc
    exact ends_onKeep hc h ht
  next hb =>
    rw [if_neg hb] at hc
    exact ends_onDie hc h ht

/-! Capture reads (R397). -/

theorem rd_writeCaptRd (s : State) (v : Nat) : (writeCaptRd s v).rd A.MEM_CAPT_RD = v % 16384 := by
  rw [writeCaptRd, State.setFld, rd_wr_ne _ _ (by decide), rd_wr_self]
  omega

theorem fld_writeCaptRd (s : State) (v : Nat) : (writeCaptRd s v).fld A.MEM_CAPT_STAT 14 0 =
    s.fld A.MEM_CAPT_STAT 14 0 - (v % 16384 + 16384 - s.rd A.MEM_CAPT_RD) % 16384 := by
  have hlt : s.fld A.MEM_CAPT_STAT 14 0 < 2 ^ 15 := Nat.mod_lt _ (by decide)
  rw [writeCaptRd, fld_setFld_self _ _ (by decide) (by decide) (by omega)]

theorem regsKept_writeCaptRd (s : State) (v : Nat) : RegsKept s (writeCaptRd s v)
    (fun a => decide (a = A.MEM_CAPT_RD) || decide (a = A.MEM_CAPT_STAT)) :=
  (regsKept_wr s _ (by decide)).trans (regsKept_setFld _ _ _ _ (by decide))

theorem banksKept_writeCaptRd (s : State) (v : Nat) : BanksKept s (writeCaptRd s v) :=
  (banksKept_wr s _ _).trans (banksKept_setFld _ _ _ _ _)

/-! The test port (R422, R423). -/

/-- An instruction takes the outputs from the data die: it holds that die in reset. -/
def holdsDie : TapInstr → Bool
  | .extest | .clamp | .highz => true
  | .bypass | .idcode | .samplePreload => false

theorem tapInstr_passes {s : State} {i : TapInstr} (h : holdsDie i = false) :
    tapInstr s i = { s with power := { s.power with tap := i } } := by
  cases i
  case extest | clamp | highz => cases h
  case bypass | idcode | samplePreload => rfl

/-- The instruction is current and holds the data die, which is reset where it was not held before. -/
theorem power_tapInstr_holds {s : State} {i : TapInstr} (h : holdsDie i = true) : (tapInstr s i).power =
    let u : State := { s with power := { s.power with tap := i } }
    { (if s.power.tapHold then u.power else downPower u.power (nextCause u 1)) with tapHold := true } := by
  have hi : tapInstr s i =
      let u : State := { s with power := { s.power with tap := i } }
      let w := if s.power.tapHold then u else warmDown u 1
      { w with power := { w.power with tapHold := true } } := by
    cases i
    case extest | clamp | highz => rfl
    case bypass | idcode | samplePreload => cases h
  rw [hi]
  simp only []
  split
  · rfl
  · rw [warmDown_power]

/-- What no instruction touches of the test port's die: the supplies and the cells. -/
theorem power_tapInstr (s : State) (i : TapInstr) : (tapInstr s i).power.tap = i ∧ (tapInstr s i).power.ka = s.power.ka ∧
    (tapInstr s i).power.main = s.power.main ∧ (tapInstr s i).power.cells = s.power.cells := by
  cases h : holdsDie i with
  | false =>
    rw [tapInstr_passes h]
    exact ⟨rfl, rfl, rfl, rfl⟩
  | true =>
    rw [power_tapInstr_holds h]
    simp only []
    split <;> exact ⟨rfl, rfl, rfl, rfl⟩

theorem tapInstr_hold {s : State} {i : TapInstr} (h : holdsDie i = true) :
    (tapInstr s i).power.tapHold = true ∧ (s.power.tapHold = false → (tapInstr s i).power.die = false) := by
  rw [power_tapInstr_holds h]
  refine ⟨rfl, fun hfree => ?_⟩
  simp only [hfree]
  rfl

/-- The cells of the boundary register are shifted by the instructions that select it. -/
theorem power_tapScan (s : State) (x : TapScan) : (tapScan s x).power =
    if s.power.tap = .samplePreload ∨ s.power.tap = .extest then
      { s.power with cells := (tapRegister s x.pins.toList ++ x.tdi).drop x.tdi.length } else s.power :=
  apply_ite State.power _ _ _

theorem regsKept_tapScan (s : State) (x : TapScan) (p : Nat → Bool) : RegsKept s (tapScan s x) p := by
  refine regsKept_of_regs p ?_
  unfold tapScan
  simp only []
  split <;> rfl

theorem out_tapScan (s : State) (x : TapScan) :
    (tapScan s x).out = s.out ++ [.tdo ((tapRegister s x.pins.toList ++ x.tdi).take x.tdi.length)] := by
  unfold tapScan
  simp only []
  split <;> rfl

/-- The state of an instruction with the scan that may follow. -/
def tapped (s : State) (i : TapInstr) : Option TapScan → State
  | some x => tapScan (tapInstr s i) x
  | none => tapInstr s i

theorem ends_tapInstruction (s : State) (i : TapInstr) (scan : Option TapScan) :
    Ends (.tapInstruction i scan) s (tapped s i scan) := by
  cases scan with
  | some x => exact ends_of_exec rfl
  | none => exact ends_of_exec rfl

/-- A scan leaves the power of an instruction but for the cells, and its registers. -/
theorem tapped_keeps {α : Type} {f : PowerHidden → α} (hf : ∀ p l, f { p with cells := l } = f p) (s : State) (i : TapInstr)
    (scan : Option TapScan) : f (tapped s i scan).power = f (tapInstr s i).power := by
  cases scan with
  | none => rfl
  | some x =>
    rw [tapped, power_tapScan]
    split
    · exact hf _ _
    · rfl

theorem regsKept_tapped (s : State) (i : TapInstr) (scan : Option TapScan) (p : Nat → Bool) :
    RegsKept (tapInstr s i) (tapped s i scan) p := by
  cases scan with
  | none => exact RegsKept.refl _ p
  | some x => exact regsKept_tapScan _ x p

theorem cells_tapped (s : State) (i : TapInstr) (x : TapScan) :
    (i = .samplePreload ∨ i = .extest → (tapped s i (some x)).power.cells = (x.pins.toList ++ x.tdi).drop x.tdi.length) ∧
    (i ≠ .samplePreload → i ≠ .extest → (tapped s i (some x)).power.cells = s.power.cells) := by
  obtain ⟨htap, -, -, hcells⟩ := power_tapInstr s i
  rw [tapped, power_tapScan, htap]
  refine ⟨fun h => ?_, fun h h' => by rw [if_neg (not_or.2 ⟨h, h'⟩), hcells]⟩
  rw [if_pos h, tapRegister, htap]
  obtain rfl | rfl := h <;> rfl

/-- The identity register comes out first (R423). -/
theorem out_tapped_idcode (s : State) {x : TapScan} (h : x.tdi.length = 32) :
    (tapped s .idcode (some x)).out = s.out ++ [.tdo ((List.range 32).map fun n => (idcode s).testBit n)] := by
  have hreg : tapRegister (tapInstr s .idcode) x.pins.toList = (List.range 32).map fun n => (idcode s).testBit n := rfl
  rw [tapped, out_tapScan, hreg, h, List.take_left' (by simp)]
  rfl

theorem setBoot_power (s : State) (st : Nat) : (setBoot s st).power = s.power :=
  (quiet_raise (s.setFld A.GLB_BOOT_STAT 3 0 st) 0 (by decide)).keeps State.power fun _ => rfl

/-- A start of the data die leaves the supplies and the test port as they are. -/
theorem power_dieStart {α : Type} {f : PowerHidden → α}
    (hf : ∀ p n b, f { p with die := true, startAt := n, trimDue := b } = f p) (s : State) : f (dieStart s).power = f s.power := by
  cases hd : s.power.die || !canStart s with
  | true => rw [show dieStart s = s from if_pos hd]
  | false =>
    rw [Bool.or_eq_false_iff, Bool.not_eq_false'] at hd
    rw [dieStart_starts hd.1 hd.2, setBoot_power]
    exact hf _ _ _

theorem power_tapReset (s : State) : (tapReset s).power.tap = .idcode ∧ (tapReset s).power.tapHold = false ∧
    (tapReset s).power.ka = s.power.ka ∧ (tapReset s).power.main = s.power.main :=
  ⟨power_dieStart (f := PowerHidden.tap) (fun _ _ _ => rfl) _, power_dieStart (f := PowerHidden.tapHold) (fun _ _ _ => rfl) _,
    power_dieStart (f := PowerHidden.ka) (fun _ _ _ => rfl) _, power_dieStart (f := PowerHidden.main) (fun _ _ _ => rfl) _⟩

end Sys2Proof.Machine
end

section
/-! What a raise leaves of the scratchpad banks: an ingot that it begins puts zeros in the slot's INGOT_SEQ, in bank 8 or 9
(R372, R373). -/

namespace Sys2Proof.Machine

theorem BanksKept.refl (s : State) : BanksKept s s := fun _ _ => rfl

theorem banksKept_int (s : State) (h : IntHidden) : BanksKept s { s with int := h } := fun _ _ => rfl

theorem banksKept_snp (s : State) (h : SnpHidden) : BanksKept s { s with snp := h } := fun _ _ => rfl

theorem banksKept_emit (s : State) (o : Out) : BanksKept s (s.emit o) := fun _ _ => rfl

theorem banksKept_setBit (s : State) (a i : Nat) (b : Bool) : BanksKept s (s.setBit a i b) := banksKept_setFld s a _ _ _

theorem banksKept_pmcEvent (s : State) (g ev n : Nat) : BanksKept s (s.pmcEvent g ev n) := by
  obtain ⟨m, w, hs, -⟩ := pmcEvent_shape s g ev n
  rw [hs]
  exact fun _ _ => rfl

theorem banksKept_routeMsix (s : State) (n : Nat) : BanksKept s (routeMsix s n) := by
  unfold routeMsix
  split
  · exact BanksKept.refl s
  · exact (banksKept_emit s _).trans (banksKept_pmcEvent _ 22 0x300 1)
  · exact banksKept_int s _
  · exact banksKept_int s _
  · simp only []
    split
    · exact (banksKept_int s _).trans (banksKept_emit _ _)
    · exact banksKept_int s _

theorem banksKept_notify (s : State) (t i : Nat) : BanksKept s (notify s t i) := by
  have h0 : BanksKept s ((setCount (latchNext s t i) t 0).stop (.coalesce t)) :=
    ((banksKept_wr s _ _).trans (banksKept_int _ _)).trans (banksKept_stop _ _)
  unfold notify
  simp only []
  split
  · split
    · exact h0.trans (banksKept_setBit _ _ _ _)
    · exact h0.trans (banksKept_routeMsix _ _)
  · exact h0

theorem banksKept_countRaise (s : State) (t i : Nat) : BanksKept s (countRaise s t i) := by
  unfold countRaise
  simp only []
  split
  · exact banksKept_notify s t i
  · split
    · exact (banksKept_int s _).trans (banksKept_start _ _ _)
    · exact banksKept_int s _

theorem banksKept_offer (s : State) (t i : Nat) : BanksKept s (offer s t i) := by
  unfold offer
  split
  · split
    · exact banksKept_countRaise s t i
    · split
      · exact banksKept_notify s t i
      · exact BanksKept.refl s
  · exact BanksKept.refl s

theorem banksKept_raiseSource (s : State) (i : Nat) : BanksKept s (raiseSource s i) := by
  unfold raiseSource
  split
  · exact (banksKept_setBit s _ _ _).trans (banksKept_offer _ _ i)
  · exact BanksKept.refl s

theorem banksKept_record (s : State) (evt mask : Nat) : BanksKept s (s.record evt mask) :=
  banksKept_of_eq (record_keeps (f := State.mem) (fun _ _ _ => rfl) s evt mask)
    (record_keeps (f := State.banks) (fun _ _ _ => rfl) s evt mask)

theorem banksKept_snpEvent (s : State) (mask : Nat) : BanksKept s (snpEvent s mask) := by
  unfold snpEvent State.eventQuiet
  simp only []
  split
  · exact banksKept_record s _ mask
  · exact (banksKept_record s _ mask).trans (banksKept_raiseSource _ 52)

theorem banksKept_missTrigger (s : State) (src cause : Nat) : BanksKept s (missTrigger s src cause) := by
  have h0 := (banksKept_add64 s A.SNP_MISSED_LO 1).trans (banksKept_wr _ A.SNP_MISS_INFO (cause * 2 ^ 28 + src))
  unfold missTrigger
  simp only []
  split
  · exact banksKept_wr s _ _
  · exact (h0.trans (banksKept_snp _ _)).trans (banksKept_snpEvent _ 2)

theorem banksKept_latchSection (s : State) (x : SnpSect) : BanksKept s (latchSection s x).2 := by
  have h (t : State) (st : Nat) (ht : BanksKept s t) : BanksKept s (if st = 0 then t else snpEvent t 4) := by
    split
    · exact ht
    · exact ht.trans (banksKept_snpEvent t 4)
  unfold latchSection
  cases zoneOf x.addr with
  | some _ => exact h _ _ (BanksKept.refl s)
  | none => exact h s.draw.2 _ (fun _ _ => rfl)

theorem banksKept_latchAll (till : Nat) (l : List SnpSect) (s : State) : BanksKept s (latchAll s till l).2 := by
  induction l generalizing s with
  | nil => exact BanksKept.refl s
  | cons x l ih =>
    simp only [latchAll]
    split
    · exact (banksKept_latchSection s x).trans (ih _)
    · exact ih s

theorem banksKept_latchUpTo (s : State) (till : Nat) : BanksKept s (latchUpTo s till) := by
  unfold latchUpTo
  split
  · exact BanksKept.refl s
  simp only []
  have h0 := (banksKept_latchAll till s.snp.sects s).trans (banksKept_snp _ { (latchAll s till s.snp.sects).2.snp with
    sects := (latchAll s till s.snp.sects).1 })
  generalize ({ (latchAll s till s.snp.sects).2 with snp := _ } : State) = x at h0 ⊢
  split
  · have h1 := h0.trans (banksKept_setFld x A.SNP_STAT 31 28 2)
    split
    · exact h1.trans (banksKept_emit _ _)
    · exact h1
  · exact h0

/-- Between `s` and `t` nothing but zeros came into the banks, and none but banks 8 and 9 changed. -/
def BanksZeroed (s t : State) : Prop :=
  ∀ b i, i < 2 ^ 24 → t.bankByte b i = s.bankByte b i ∨ (b = 8 ∨ b = 9) ∧ t.bankByte b i = 0

theorem BanksKept.zeroed {s t : State} (h : BanksKept s t) : BanksZeroed s t := fun b i _ => .inl (h b i)

theorem BanksZeroed.trans {s t u : State} (h : BanksZeroed s t) (g : BanksZeroed t u) : BanksZeroed s u := fun b i hi => by
  rcases g b i hi with heq | hz
  · rw [heq]
    exact h b i hi
  · exact .inr hz

/-- A word of bank 8 or 9 becomes 0. -/
theorem banksZeroed_word (s : State) {b j : Nat} (hb : b = 8 ∨ b = 9) (hj : j + 4 ≤ 2 ^ 24) :
    BanksZeroed s (s.putBank b j [0, 0, 0, 0]) := by
  have hzero : ∀ n < 4, BitVec.ofNat 8 (([0, 0, 0, 0] : List Nat).getD n 0) = 0 := by decide
  intro b' i hi
  by_cases hin : b' = b ∧ ∃ n < 4, i = j + n
  · obtain ⟨rfl, n, hn, rfl⟩ := hin
    exact .inr ⟨hb, (bankByte_putBank _ _ _ _ hn).trans (hzero n hn)⟩
  · refine .inl (bankByte_putBank_ne _ _ fun n hn hkey => ?_)
    have hlen : n < 4 := hn
    obtain ⟨hbank, hbyte⟩ := bankKey_inj hi (by omega) hkey
    exact hin ⟨hbank, n, hlen, hbyte⟩

theorem banksKept_setSlot (s : State) (k : Nat) (v : Bool) : BanksKept s (setSlot s k v) :=
  (banksKept_setBit s _ _ v).trans (banksKept_setFld _ _ _ _ _)

/-- What is latched at a trigger changes no bank, whatever state `y` frees the slot. -/
theorem banksZeroed_latchFrom {s y : State} (h : BanksZeroed s y) (p : SnpHidden) (till : Nat) :
    BanksZeroed s (latchUpTo (({ y with snp := p } : State).setFld A.SNP_STAT 31 28 1) till) :=
  h.trans (((banksKept_snp y p).trans (banksKept_setFld _ A.SNP_STAT 31 28 1)).trans (banksKept_latchUpTo _ till)).zeroed

theorem banksZeroed_latchIngot (s : State) {k : Nat} (src tag t : Nat) (hk : k < 64) :
    BanksZeroed s (latchIngot s k src tag t) :=
  banksZeroed_latchFrom ((banksZeroed_word s (by omega) (by omega)).trans (banksKept_setSlot _ k false).zeroed) _ _

theorem banksZeroed_trigger (s : State) (src tag t : Nat) : BanksZeroed s (trigger s src tag t).1 := by
  have hmiss (c : Nat) : BanksZeroed s (missTrigger s src c) := (banksKept_missTrigger s src c).zeroed
  refine trigger_cases (P := fun r => BanksZeroed s r.1) s src tag t (fun _ => hmiss 3)
    (fun _ _ => (banksKept_snp s _).zeroed) (fun _ _ => hmiss 1) (fun _ _ => hmiss 2) fun k _ _ _ hk => ?_
  split
  · exact hmiss 4
  · split
    · exact hmiss 5
    · exact banksZeroed_latchIngot s src tag t (nextSlot_lt hk)

theorem banksZeroed_raise (s : State) (i : Nat) : BanksZeroed s (s.raise i) := by
  unfold State.raise
  simp only []
  split
  · exact (banksKept_raiseSource s i).zeroed.trans (banksZeroed_trigger _ _ _ _)
  · exact (banksKept_raiseSource s i).zeroed

theorem banksZeroed_event (s : State) (evt en src mask forced : Nat) : BanksZeroed s (s.event evt en src mask forced) := by
  unfold State.event
  simp only []
  split
  · exact (banksKept_record s evt mask).zeroed
  · exact (banksKept_record s evt mask).zeroed.trans (banksZeroed_raise _ src)

end Sys2Proof.Machine
end

section
/-! March tests (R398, R399): what the repair of one failed row leaves, that of a list of them, and the end of the test. -/

namespace Sys2Proof.Machine

/-! Events of the banks. -/

theorem memEvent_on {s : State} (mask : Nat) (h : s.power.die = true) :
    memEvent s mask = s.event A.MEM_EVT A.MEM_EVT_EN 56 mask 0x28 := if_pos h

theorem rd_memEvent (s : State) (mask : Nat) {a : Nat} (ha : raiseTouches a = false) (h : a ≠ A.MEM_EVT) :
    (memEvent s mask).rd a = s.rd a := by
  unfold memEvent
  split
  · rw [(quiet_event s _ _ 56 mask 0x28 (by decide)).rd ha, rd_record_ne s mask h]
  · rfl

theorem memEvent_keeps {α : Type} {f : State → α} (hf : ∀ (s : State) m l, f { s with regs := m, stamps := l } = f s)
    (hq : ∀ s u, f (asBefore s u) = f u) (s : State) (mask : Nat) : f (memEvent s mask) = f s := by
  unfold memEvent
  split
  · exact event_keeps hf hq s _ _ _ _ (by decide)
  · rfl

theorem memEvent_power (s : State) (mask : Nat) : (memEvent s mask).power = s.power :=
  memEvent_keeps (f := State.power) (fun _ _ _ => rfl) (fun _ _ => rfl) s mask

theorem memEvent_march (s : State) (mask : Nat) : (memEvent s mask).march = s.march :=
  memEvent_keeps (f := State.march) (fun _ _ _ => rfl) (fun _ _ => rfl) s mask

theorem banksZeroed_memEvent (s : State) (mask : Nat) : BanksZeroed s (memEvent s mask) := by
  unfold memEvent
  split
  · exact banksZeroed_event s _ _ _ _ _
  · exact (BanksKept.refl s).zeroed

/-- An event is recorded, and those recorded before stay. -/
theorem bit_memEvent {s : State} {mask i : Nat} (hd : s.power.die = true) (hm : mask < 2 ^ 24) (hi : i < 24)
    (h : mask.testBit i = true ∨ s.bit A.MEM_EVT i = true) : (memEvent s mask).bit A.MEM_EVT i = true := by
  rw [memEvent_on mask hd, (quiet_event s _ _ 56 mask 0x28 (by decide)).bit i (by decide)]
  cases hb : mask.testBit i with
  | true => exact bit_record_self s _ hm hb
  | false =>
    rw [bit_record_other s _ hm hi hb]
    exact h.resolve_left (by rw [hb]; decide)

/-! The repair of a row. -/

/-- The status of a repair before its event: the row takes a spare, or the bank without one goes out of service. -/
def repairRegs (s : State) (b : Nat) : State :=
  if s.fld (A.MEM_BANK_STAT b) 22 16 < 64 then s.setFld (A.MEM_BANK_STAT b) 22 16 (s.fld (A.MEM_BANK_STAT b) 22 16 + 1)
  else setBankPending (setBankState s b 4) b false

/-- What a bank holds after the repair of a row with `n` spares used before it. -/
def repairHidden (h : BankHidden) (n row : Nat) : BankHidden :=
  if n < 64 then { h with errors := h.errors.filter fun e => decide (e.1 ≠ row) } else { h with goal := none, held := none }

/-- The state of a repair before its event. -/
def repairStep (s : State) (b row : Nat) : State :=
  putBankH (repairRegs s b) b (repairHidden (s.bank b) (s.fld (A.MEM_BANK_STAT b) 22 16) row)

/-- The events of a repair. -/
def repairMask (s : State) (b mask : Nat) : Nat := if s.fld (A.MEM_BANK_STAT b) 22 16 < 64 then mask ||| 16 else mask ||| 32

theorem repairRow_eq (s : State) (b row mask : Nat) :
    repairRow s b row mask = memEvent (repairStep s b row) (repairMask s b mask) := by
  simp only [repairRow, repairStep, repairRegs, repairHidden, repairMask]
  by_cases h : s.fld (A.MEM_BANK_STAT b) 22 16 < 64
  · simp only [if_pos h]
  · simp only [if_neg h]

theorem repairRegs_keeps {α : Type} {f : State → α} (hf : ∀ (s : State) a v, f (s.wr a v) = f s) (s : State) (b : Nat) :
    f (repairRegs s b) = f s := by
  unfold repairRegs
  split
  · exact hf _ _ _
  · exact (hf _ _ _).trans (hf _ _ _)

theorem repairHidden_undefd (h : BankHidden) (n row : Nat) : (repairHidden h n row).undefd = h.undefd := by
  unfold repairHidden
  split <;> rfl

/-- What a bank holds beside its contents says nothing of them. -/
theorem banksKept_putBankH (s : State) {b : Nat} {h : BankHidden} (hu : h.undefd = (s.bank b).undefd) :
    BanksKept s (putBankH s b h) := by
  have hkept (k : Nat) : (Map.get {} (Map.put {} s.banks b h) k).undefd = (Map.get {} s.banks k).undefd := by
    by_cases hk : k = b
    · rw [hk, map_get_put_self, hu, State.bank]
    · rw [map_get_put_ne _ _ _ _ hk]
  intro k i
  simp only [State.bankByte, putBankH, bankDefault, hkept]

theorem banksKept_repairRegs (s : State) (b : Nat) : BanksKept s (repairRegs s b) :=
  banksKept_of_eq (repairRegs_keeps (fun _ _ _ => rfl) s b) (repairRegs_keeps (fun _ _ _ => rfl) s b)

theorem banksKept_repairStep (s : State) (b row : Nat) : BanksKept s (repairStep s b row) := by
  have hbank : (repairRegs s b).bank b = s.bank b := repairRegs_keeps (f := fun s => s.bank b) (fun _ _ _ => rfl) s b
  exact (banksKept_repairRegs s b).trans (banksKept_putBankH _ (by rw [repairHidden_undefd, hbank]))

theorem repairStep_power (s : State) (b row : Nat) : (repairStep s b row).power = s.power :=
  repairRegs_keeps (f := State.power) (fun _ _ _ => rfl) s b

theorem repairStep_march (s : State) (b row : Nat) : (repairStep s b row).march = s.march :=
  repairRegs_keeps (f := State.march) (fun _ _ _ => rfl) s b

theorem rd_repairStep_ne (s : State) {b a : Nat} (row : Nat) (h : a ≠ A.MEM_BANK_STAT b) :
    (repairStep s b row).rd a = s.rd a := by
  have hregs : (repairRegs s b).rd a = s.rd a := by
    unfold repairRegs
    split
    · exact rd_setFld_ne s _ _ _ h
    · exact (rd_setBit_ne _ _ _ h).trans (rd_setFld_ne s _ _ _ h)
  exact hregs

/-- The spare rows in use, and the bank's state, after a repair. -/
theorem repairStep_self (s : State) (b row : Nat) :
    (repairStep s b row).fld (A.MEM_BANK_STAT b) 22 16 =
      (if s.fld (A.MEM_BANK_STAT b) 22 16 < 64 then s.fld (A.MEM_BANK_STAT b) 22 16 + 1 else s.fld (A.MEM_BANK_STAT b) 22 16) ∧
    bankState (repairStep s b row) b = if s.fld (A.MEM_BANK_STAT b) 22 16 < 64 then bankState s b else 4 := by
  change (repairRegs s b).fld (A.MEM_BANK_STAT b) 22 16 = _ ∧ (repairRegs s b).fld (A.MEM_BANK_STAT b) 31 28 = _
  unfold repairRegs
  by_cases h : s.fld (A.MEM_BANK_STAT b) 22 16 < 64
  · simp only [if_pos h]
    rw [fld_setFld_self _ _ (by decide) (by decide) (by omega), fld_setFld_apart _ _ _ (by decide) (by decide) (by decide) (by decide)]
    exact ⟨rfl, rfl⟩
  · simp only [if_neg h, setBankPending, State.setBit, setBankState]
    rw [fld_setFld_apart _ _ _ (by decide) (by decide) (by decide) (by decide),
      fld_setFld_apart _ _ _ (by decide) (by decide) (by decide) (by decide),
      fld_setFld_apart _ _ _ (by decide) (by decide) (by decide) (by decide),
      fld_setFld_self _ _ (by decide) (by decide) (by decide)]
    exact ⟨rfl, rfl⟩

/-- The status register of a bank is none that an event touches. -/
theorem bankStat_quiet {b : Nat} (hb : b < 12) : raiseTouches (A.MEM_BANK_STAT b) = false ∧ A.MEM_BANK_STAT b ≠ A.MEM_EVT := by
  revert b
  decide

section Repair
variable (s : State) (b row : Nat)

theorem rd_repairRow_ne {a : Nat} (ha : raiseTouches a = false) (he : a ≠ A.MEM_EVT) (h : a ≠ A.MEM_BANK_STAT b) :
    (repairRow s b row 2).rd a = s.rd a := by
  rw [repairRow_eq, rd_memEvent _ _ ha he, rd_repairStep_ne s row h]

theorem repairRow_power : (repairRow s b row 2).power = s.power := by
  rw [repairRow_eq, memEvent_power, repairStep_power]

theorem repairRow_march : (repairRow s b row 2).march = s.march := by
  rw [repairRow_eq, memEvent_march, repairStep_march]

theorem banksZeroed_repairRow : BanksZeroed s (repairRow s b row 2) := by
  rw [repairRow_eq]
  exact (banksKept_repairStep s b row).zeroed.trans (banksZeroed_memEvent _ _)

theorem bit_repairRow (hd : s.power.die = true) : (repairRow s b row 2).bit A.MEM_EVT 1 = true := by
  have hdie : (repairStep s b row).power.die = true := by
    rwa [repairStep_power]
  rw [repairRow_eq]
  refine bit_memEvent hdie ?_ (by decide) (.inl ?_) <;> rw [repairMask] <;> split <;> decide

theorem repairRow_self (hb : b < 12) :
    (repairRow s b row 2).fld (A.MEM_BANK_STAT b) 22 16 = (repairStep s b row).fld (A.MEM_BANK_STAT b) 22 16 ∧
    bankState (repairRow s b row 2) b = bankState (repairStep s b row) b := by
  obtain ⟨hq, he⟩ := bankStat_quiet hb
  rw [repairRow_eq, bankState, bankState, State.fld, State.fld, State.fld, State.fld, rd_memEvent _ _ hq he]
  exact ⟨rfl, rfl⟩

end Repair

/-! The repairs of a list of rows. -/

/-- The rows are repaired one after another. -/
def repairRows (l : List (Nat × Nat)) (s : State) : State := l.foldl (fun s e => repairRow s e.1 e.2 2) s

/-- How many of the rows lie in a bank. -/
def rowsIn (l : List (Nat × Nat)) (b : Nat) : Nat := (l.filter fun e => decide (e.1 = b)).length

theorem repairRows_cons (e : Nat × Nat) (l : List (Nat × Nat)) (s : State) :
    repairRows (e :: l) s = repairRows l (repairRow s e.1 e.2 2) := rfl

theorem repairRows_power (l : List (Nat × Nat)) (s : State) : (repairRows l s).power = s.power := by
  induction l generalizing s with
  | nil => rfl
  | cons e l ih => rw [repairRows_cons, ih, repairRow_power]

theorem repairRows_march (l : List (Nat × Nat)) (s : State) : (repairRows l s).march = s.march := by
  induction l generalizing s with
  | nil => rfl
  | cons e l ih => rw [repairRows_cons, ih, repairRow_march]

theorem banksZeroed_repairRows (l : List (Nat × Nat)) (s : State) : BanksZeroed s (repairRows l s) := by
  induction l generalizing s with
  | nil => exact (BanksKept.refl s).zeroed
  | cons e l ih =>
    rw [repairRows_cons]
    exact (banksZeroed_repairRow s e.1 e.2).trans (ih _)

/-- The last repair records ROW_REPAIRED's event with the test's. -/
theorem bit_repairRows {l : List (Nat × Nat)} {s : State} (hd : s.power.die = true) (hl : l ≠ []) :
    (repairRows l s).bit A.MEM_EVT 1 = true := by
  have hlast := List.dropLast_append_getLast hl
  rw [repairRows, ← hlast, List.foldl_append]
  refine bit_repairRow _ _ _ ?_
  have hpower := repairRows_power l.dropLast s
  rwa [← hpower] at hd

/-- The spares used and the state of a bank after `k` more repairs. -/
theorem repairRows_bank {b : Nat} (hb : b < 12) (l : List (Nat × Nat)) (s : State) :
    let n := s.fld (A.MEM_BANK_STAT b) 22 16
    (n ≤ 64 → (repairRows l s).fld (A.MEM_BANK_STAT b) 22 16 = Nat.min 64 (n + rowsIn l b)) ∧
    bankState (repairRows l s) b = if 0 < rowsIn l b ∧ 64 < n + rowsIn l b then 4 else bankState s b := by
  induction l generalizing s with
  | nil =>
    refine ⟨fun h => (Nat.min_eq_right h).symm, ?_⟩
    rw [if_neg (by simp [rowsIn])]
    rfl
  | cons e l ih =>
    obtain ⟨hspares, hstate⟩ := ih (repairRow s e.1 e.2 2)
    rw [repairRows_cons]
    by_cases he : e.1 = b
    · have hcount : rowsIn (e :: l) b = rowsIn l b + 1 := by simp [rowsIn, he]
      obtain ⟨hn, hst⟩ := repairRow_self s b e.2 hb
      obtain ⟨hn', hst'⟩ := repairStep_self s b e.2
      rw [he] at hspares hstate ⊢
      rw [hst, hst', hn, hn'] at hstate
      rw [hn, hn'] at hspares
      rw [hcount]
      generalize s.fld (A.MEM_BANK_STAT b) 22 16 = n at hspares hstate ⊢
      by_cases h64 : n < 64
      · rw [if_pos h64] at hspares
        rw [if_pos h64, if_pos h64] at hstate
        refine ⟨fun h => by rw [hspares (by omega)]; congr 1; omega, ?_⟩
        rw [hstate]
        exact if_congr (by omega) rfl rfl
      · rw [if_neg h64] at hspares
        rw [if_neg h64, if_neg h64, ite_self] at hstate
        refine ⟨fun h => (hspares h).trans ?_, ?_⟩
        · exact (Nat.min_eq_left (by omega)).trans (Nat.min_eq_left (by omega)).symm
        · rw [hstate, if_pos (by omega)]
    · have hcount : rowsIn (e :: l) b = rowsIn l b := by simp [rowsIn, he]
      obtain ⟨hq, hevt⟩ := bankStat_quiet hb
      have hrd := rd_repairRow_ne s e.1 e.2 hq hevt (by simp only [A.MEM_BANK_STAT]; omega)
      simp only [bankState, State.fld, hrd] at hspares hstate ⊢
      rw [hcount]
      exact ⟨hspares, hstate⟩

/-! The contents that a test that does not keep them leaves. -/

/-- Banks cleared one after another. -/
def zeroBanks (l : List Nat) (s : State) : State := l.foldl (fun s b => s.clearBank b true) s

theorem bankByte_clearBank_zero (s : State) {b i : Nat} (hi : i < 2 ^ 24) : (s.clearBank b true).bankByte b i = 0 := by
  have hk : bankKey b i / 2 ^ 24 = b := by unfold bankKey; omega
  have hcell : Cells.get (s.mem.filter fun e => e.1 / 2 ^ 24 ≠ b) (bankKey b i) = none := by
    have h := map_get_filter_keys none (fun k => decide (k / 2 ^ 24 ≠ b)) (s.mem.map fun e => (e.1, some e.2)) (bankKey b i)
    rw [hk, decide_eq_false (not_not.2 rfl), List.filter_map] at h
    rw [cells_get_eq]
    exact h
  unfold State.bankByte State.clearBank bankDefault
  simp only [hcell, hk, map_get_put_self]
  rfl

theorem bankByte_zeroBanks (l : List Nat) (s : State) {b i : Nat} (hi : i < 2 ^ 24) :
    (zeroBanks l s).bankByte b i = if b ∈ l then 0 else s.bankByte b i := by
  induction l generalizing s with
  | nil => rfl
  | cons c l ih =>
    rw [zeroBanks, List.foldl_cons]
    refine (ih _).trans ?_
    by_cases hl : b ∈ l
    · rw [if_pos hl, if_pos (List.mem_cons_of_mem _ hl)]
    · rw [if_neg hl]
      by_cases hc : b = c
      · rw [hc, if_pos (List.mem_cons_self ..), bankByte_clearBank_zero s hi]
      · rw [if_neg (by simp [hc, hl]), bankByte_clearBank_ne s true hc hi]

theorem zeroBanks_regs (l : List Nat) (s : State) : (zeroBanks l s).regs = s.regs :=
  foldl_keeps (f := State.regs) (g := fun s b => s.clearBank b true) (fun _ _ => rfl) l s

theorem zeroBanks_power (l : List Nat) (s : State) : (zeroBanks l s).power = s.power :=
  foldl_keeps (f := State.power) (g := fun s b => s.clearBank b true) (fun _ _ => rfl) l s

/-! The status of the test. -/

/-- The sum of the powers of two that `p` names below `n`. -/
def powersOf (p : Nat → Bool) (n : Nat) : Nat := (((List.range n).filter p).map fun b => 2 ^ b).sum

theorem powersOf_succ (p : Nat → Bool) (n : Nat) : powersOf p (n + 1) = 2 ^ n * bit01 (p n) + powersOf p n := by
  rw [powersOf, List.range_succ, List.filter_append, List.map_append, List.sum_append, Nat.add_comm, powersOf]
  cases hp : p n <;> simp [hp, bit01]

theorem powersOf_lt (p : Nat → Bool) (n : Nat) : powersOf p n < 2 ^ n := by
  induction n with
  | zero => exact Nat.zero_lt_one
  | succ n ih =>
    have hbit : 2 ^ n * bit01 (p n) ≤ 2 ^ n := by cases p n <;> simp [bit01]
    rw [powersOf_succ, Nat.pow_succ]
    omega

theorem powersOf_testBit (p : Nat → Bool) {n b : Nat} (h : b < n) : (powersOf p n).testBit b = p b := by
  induction n with
  | zero => cases h
  | succ n ih =>
    rw [powersOf_succ, Nat.testBit_two_pow_mul_add _ (powersOf_lt p n)]
    split
    next hlt => exact ih hlt
    next hge =>
      obtain rfl : b = n := by omega
      rw [Nat.sub_self, testBit_bit01]

/-! The end of a test (R399). -/

/-- The word of MARCH_STAT at the end: the banks that were tested, and those with failed rows. -/
def marchWord (banks : Nat) (rows : List (Nat × Nat)) : Nat :=
  banks * 2 ^ 12 + powersOf (fun b => rows.any fun e => decide (e.1 = b)) 12

theorem marchWord_testBit (banks : Nat) (rows : List (Nat × Nat)) (i : Nat) : (marchWord banks rows).testBit i =
    if i < 12 then decide (0 < rowsIn rows i) else banks.testBit (i - 12) := by
  rw [marchWord, Nat.mul_comm, Nat.testBit_two_pow_mul_add _ (powersOf_lt _ 12)]
  split
  next h =>
    rw [powersOf_testBit _ h, Bool.eq_iff_iff, decide_eq_true_iff, rowsIn, List.length_pos_iff_exists_mem, List.any_eq_true]
    simp only [List.mem_filter]
  next h => rfl

/-- The banks of a test, which is over, are cleared unless it keeps their contents. -/
def marchCleared (s : State) (banks : Nat) (keep : Bool) : State :=
  { (if keep then s else zeroBanks (bitsSet banks 12) s) with march := none }

section Cleared
variable (s : State) (banks : Nat) (keep : Bool)

theorem marchCleared_power : (marchCleared s banks keep).power = s.power := by
  cases keep with
  | true => rfl
  | false => exact zeroBanks_power _ s

theorem marchCleared_rd (a : Nat) : (marchCleared s banks keep).rd a = s.rd a := by
  cases keep with
  | true => rfl
  | false => exact congrArg (fun m => (Map.get (resetOf a) m a).toNat) (zeroBanks_regs _ s)

theorem marchCleared_byte {b i : Nat} (hb : b < 12) (hi : i < 2 ^ 24) :
    (marchCleared s banks keep).bankByte b i = if keep = false ∧ banks.testBit b = true then 0 else s.bankByte b i := by
  cases keep with
  | true => rfl
  | false =>
    have h := bankByte_zeroBanks (bitsSet banks 12) s (b := b) hi
    rw [if_congr (show b ∈ bitsSet banks 12 ↔ false = false ∧ banks.testBit b = true by simp [mem_bitsSet, hb]) rfl rfl] at h
    exact h

end Cleared

/-- The state of a test before its end: its rows are repaired. -/
def marchRepaired (s : State) (banks : Nat) (keep : Bool) (rows : List (Nat × Nat)) : State :=
  repairRows rows (marchCleared s banks keep)

theorem marchEnd_eq {s : State} {banks : Nat} {keep : Bool} (failing : List (Nat × Nat)) (h : s.march = some (banks, keep)) :
    marchEnd s failing =
      let rows := marchRows banks failing
      memEvent ((marchRepaired s banks keep rows).wr A.MEM_MARCH_STAT (marchWord banks rows)) 1 := by
  simp only [marchEnd, h]
  rfl

section MarchEnd
variable {s : State} {banks : Nat} {keep : Bool} {rows : List (Nat × Nat)} {t : State}
  (ht : memEvent ((marchRepaired s banks keep rows).wr A.MEM_MARCH_STAT (marchWord banks rows)) 1 = t)
include ht

theorem marchEnd_march : t.march = none := by
  rw [← ht, memEvent_march, wr_march, marchRepaired, repairRows_march]
  rfl

theorem marchEnd_status {i : Nat} (hi : i < 32) : t.bit A.MEM_MARCH_STAT i = (marchWord banks rows).testBit i := by
  rw [← ht, State.bit, rd_memEvent _ _ (by decide) (by decide), rd_wr_self, Nat.testBit_mod_two_pow, decide_eq_true hi,
    Bool.true_and]

theorem marchEnd_events (hd : s.power.die = true) :
    t.bit A.MEM_EVT 0 = true ∧ (rows ≠ [] → t.bit A.MEM_EVT 1 = true) := by
  have hclear : (marchCleared s banks keep).power.die = true := by rwa [marchCleared_power]
  have hdie : ((marchRepaired s banks keep rows).wr A.MEM_MARCH_STAT (marchWord banks rows)).power.die = true := by
    rwa [wr_power, marchRepaired, repairRows_power]
  rw [← ht]
  refine ⟨bit_memEvent hdie (by decide) (by decide) (.inl (by decide)), fun hl => ?_⟩
  refine bit_memEvent hdie (by decide) (by decide) (.inr ?_)
  rw [State.bit, rd_wr_ne _ _ (by decide)]
  exact bit_repairRows hclear hl

theorem marchEnd_bank {b : Nat} (hb : b < 12) :
    let n := s.fld (A.MEM_BANK_STAT b) 22 16
    (n ≤ 64 → t.fld (A.MEM_BANK_STAT b) 22 16 = Nat.min 64 (n + rowsIn rows b)) ∧
    bankState t b = if 0 < rowsIn rows b ∧ 64 < n + rowsIn rows b then 4 else bankState s b := by
  obtain ⟨hq, he⟩ := bankStat_quiet hb
  have hrd : t.rd (A.MEM_BANK_STAT b) = (marchRepaired s banks keep rows).rd (A.MEM_BANK_STAT b) := by
    rw [← ht, rd_memEvent _ _ hq he, rd_wr_ne _ _ (by simp only [A.MEM_BANK_STAT, A.MEM_MARCH_STAT]; omega)]
  have h := repairRows_bank hb rows (marchCleared s banks keep)
  simp only [bankState, State.fld, marchCleared_rd] at h
  simp only [bankState, State.fld, hrd]
  exact h

/-- The bytes of a bank: zeros where the test writes over them, and otherwise those of before but for banks 8 and 9. -/
theorem marchEnd_byte {b i : Nat} (hb : b < 12) (hi : i < 2 ^ 24) :
    (keep = false → banks.testBit b = true → t.bankByte b i = 0) ∧
    (keep = true ∨ banks.testBit b = false → b ≠ 8 → b ≠ 9 → t.bankByte b i = s.bankByte b i) := by
  have hz : BanksZeroed (marchCleared s banks keep) t := by
    rw [← ht]
    exact (banksZeroed_repairRows rows _).trans ((banksKept_wr _ _ _).zeroed.trans (banksZeroed_memEvent _ 1))
  have hbyte := hz b i hi
  rw [marchCleared_byte s banks keep hb hi] at hbyte
  refine ⟨fun hk hbit => ?_, fun h h8 h9 => ?_⟩
  · rw [if_pos ⟨hk, hbit⟩] at hbyte
    exact hbyte.elim id And.right
  · rw [if_neg fun ⟨hk, hbit⟩ => h.elim (by rw [hk]; decide) (by rw [hbit]; decide)] at hbyte
    exact hbyte.resolve_right fun ⟨h89, _⟩ => h89.elim h8 h9

end MarchEnd

end Sys2Proof.Machine

namespace Sys2Proof.Proofs
open Sys2Proof.Machine

/-- Settles O56: each command ends in what its register or its event does; a March test repairs its failed rows one after
another, and the events in between put nothing but zeros into the banks. -/
theorem counterBankAndTestPortCommands : Obligations.CounterBankAndTestPortCommands := by
  refine ⟨?counts, ?clear, ?wrap, ?upage, ?request, ?changed, ?error, ?go, ?done, ?capture, ?tap, ?reset⟩
  case counts =>
    intro s r hl u
    obtain ⟨hfreeze, hrun, hsnap⟩ := pmcCtrl_words u
    have hend {c : Instr} {v : Nat} {t : State} (hc : exec c s = done s (write32 s r A.PMC_CTRL v)) (hv : v < 2 ^ 32)
        (ht : pmcCtrl u v = t) : Ends c s t :=
      ends_writeWo hc hl (by decide) rowOf_pmcCtrl rfl hv (ht ▸ writeEffect_pmcCtrl u r v)
    refine ⟨hend rfl (by decide) hfreeze, hend rfl (by decide) hrun, (hend rfl (by decide) hsnap).endsWith_of
      ⟨fun g j hg hj => rd_pmcSnap u hg hj, regsKept_pmcSnap u, ?_⟩ fun _ _ _ h => h⟩
    exact (banksKept_heard s r 1).trans (banksKept_pmcSnap u)
  case clear =>
    intro s r v hl
    have hend := ends_writeWo (c := .pmcGroupClear r v) rfl hl (by decide) rowOf_pmcClr rfl v.isLt
      (writeEffect_pmcClr (heard s r 1) r v.toNat)
    refine hend.endsWith_of ⟨fun g j hg hj hbit => rd_pmcClear _ _ hg hj hbit, regsKept_pmcClear _ _, ?_⟩ fun _ _ _ h => h
    exact (banksKept_heard s r 1).trans (banksKept_pmcClear _ _)
  case wrap =>
    intro s g j hw hmem
    exact ends_onDie_awake (pmcWrap · g.val j.val) rfl hw (if_pos hmem)
  case upage =>
    intro s r v hl
    refine (ends_guardedWrite rfl hl (guardedEffect_upage _ r v.toNat)).endsWith_of ⟨?_, ?_, ?_⟩ fun _ _ _ h => h
    · rw [State.bit, rd_takeWord_self _ v rowOf_upage, Nat.testBit_and]
      exact Bool.and_true _
    · exact regsKept_wr _ _ (decide_eq_true rfl)
    · exact (banksKept_heard s r 2).trans (banksKept_wr _ _ _)
  case request =>
    intro s r b v hl
    have hend := ends_writeRw (c := .bankStateRequest r b v) (v := v.toNat) rfl hl (by simp only [A.MEM_BANK_CTRL]; omega)
      (bankCtrlRows b.val b.isLt) rfl
    rw [Nat.mod_eq_of_lt v.isLt] at hend
    refine decided_of_refuseIf hend ?_
    rw [writeEffect_bankCtrl _ r v.toNat b.isLt, bankRequest_eq]
  case changed =>
    intro s b g hp hg hh
    exact ends_onBank rfl hp (bankChanged_released hg hh)
  case error =>
    intro s b w hp hst hw
    exact ⟨ends_onBank rfl hp (bankError_lies true hst hw), ends_onBank rfl hp (bankError_lies false hst hw)⟩
  case go =>
    intro s r v hl u bad
    have hend {t : State} (ht : guardedEffect u r A.MEM_MARCH_CTRL v.toNat = t) : Ends (.marchGo r v) s t :=
      ends_guardedWrite rfl hl ht
    rw [guardedEffect_march] at hend
    have hbad : (v.toNat.testBit 31 && marchBad u v.toNat) = true ↔ bad := Bool.and_eq_true_iff
    refine ⟨fun h => hend (if_pos (hbad.2 h)), fun h hgo => hend ?_, fun h hgo => hend ?_⟩
    · rw [if_neg (mt hbad.1 h), writeMarch, if_pos hgo]
    · rw [if_neg (mt hbad.1 h), writeMarch, if_neg (by rw [hgo]; decide)]
  case done =>
    intro s l banks keep hw hm hlt rows
    have ht := marchEnd_eq (l.map fun e => (e.1.val, e.2)) hm
    have hend : Ends (.marchDone l) s (marchEnd s (l.map fun e => (e.1.val, e.2))) :=
      ends_onDie_awake (marchEnd · (l.map fun e => (e.1.val, e.2))) rfl hw rfl
    generalize marchEnd s (l.map fun e => (e.1.val, e.2)) = t at ht hend
    obtain ⟨hevt, hfault⟩ := marchEnd_events ht.symm (die_of_awake hw)
    refine hend.endsWith_of ⟨marchEnd_march ht.symm, ?_, hevt, hfault, fun b hb => ⟨?_, ?_, (marchEnd_bank ht.symm hb).1,
      (marchEnd_bank ht.symm hb).2, fun hk hbit i hi => (marchEnd_byte ht.symm hb hi).1 hk hbit,
      fun hk h8 h9 i hi => (marchEnd_byte ht.symm hb hi).2 hk h8 h9⟩⟩ fun _ _ _ h => h
    · rw [marchEnd_status ht.symm (by decide), marchWord_testBit, if_neg (by decide)]
      exact Nat.testBit_lt_two_pow (Nat.lt_of_lt_of_le hlt (by decide))
    · rw [marchEnd_status ht.symm (by omega), marchWord_testBit, if_neg (by omega), Nat.add_sub_cancel_left]
    · rw [marchEnd_status ht.symm (by omega), marchWord_testBit, if_pos hb]
      rfl
  case capture =>
    intro s r v hl
    have hend := ends_writeRw (c := .captRd r v) (v := v.toNat) rfl hl (by decide) rowOf_captRd rfl
    rw [Nat.mod_eq_of_lt v.isLt, writePlain_does false (writeEffect_captRd _ r v.toNat)] at hend
    refine hend.endsWith_of ⟨rd_writeCaptRd _ _, ?_, ?_, ?_⟩ fun _ _ _ h => h
    · rw [fld_writeCaptRd, fld_heard _ _ _ _ _ (by decide), rd_heard _ _ _ (by decide)]
    · intro a ha
      simp only [Bool.or_eq_false_iff] at ha
      obtain ⟨⟨h1, h2⟩, h3⟩ := ha
      rw [regsKept_writeCaptRd (heard s r 1) v.toNat a (Bool.or_eq_false_iff.2 ⟨h1, h2⟩)]
      exact regsKept_heard s r 1 a h3
    · exact (banksKept_heard s r 1).trans (banksKept_writeCaptRd _ _)
  case tap =>
    intro s i scan
    obtain ⟨htap, hka, hmain, -⟩ := power_tapInstr s i
    refine (ends_tapInstruction s i scan).endsWith_of ⟨?_, ?_, ?_, fun hi => ?_, fun hi => ?_, fun x hx => ?_⟩ fun _ _ _ h => h
    · rw [tapped_keeps (f := PowerHidden.tap) (fun _ _ => rfl), htap]
    · rw [tapped_keeps (f := PowerHidden.ka) (fun _ _ => rfl), hka]
    · rw [tapped_keeps (f := PowerHidden.main) (fun _ _ => rfl), hmain]
    · have hpass : holdsDie i = false := by rcases hi with rfl | rfl | rfl <;> rfl
      have hregs := regsKept_tapped s i scan fun _ => false
      rw [tapped_keeps (f := PowerHidden.die) (fun _ _ => rfl)]
      rw [tapInstr_passes hpass] at hregs ⊢
      exact ⟨rfl, hregs⟩
    · have hhold : holdsDie i = true := by rcases hi with rfl | rfl | rfl <;> rfl
      rw [tapped_keeps (f := PowerHidden.tapHold) (fun _ _ => rfl), tapped_keeps (f := PowerHidden.die) (fun _ _ => rfl)]
      exact tapInstr_hold hhold
    · subst hx
      obtain ⟨hsel, hother⟩ := cells_tapped s i x
      refine ⟨hsel, hother, fun hi _ hlen => ?_⟩
      subst hi
      exact out_tapped_idcode s hlen
  case reset =>
    intro s
    exact (ends_of_exec (c := .tapReset) rfl).endsWith_of (power_tapReset s) fun _ _ _ h => h

end Sys2Proof.Proofs
end
